-- ==== Sys2Proof/Word.lean ====
section
/-! DEFINITION. The word and byte types, the sparse tables that hold registers and every other keyed piece of
state, and the index types of the deck. -/

namespace Sys2Proof

/-- A 32-bit register value. -/
abbrev Word := BitVec 32

/-- One byte. -/
abbrev Byte := BitVec 8

/-- A table by key: keys strictly rising, and no entry equal to what an unlisted key reads as. -/
abbrev Tbl (α : Type) := List (Nat × α)

/-- Carriage A to D, 0 to 3 (Table 00-3). -/
abbrev Car := Fin 4

/-- Global strand index, carriage × 8 + strand (Table 00-3). -/
abbrev Strand := Fin 32

/-- Volume number (Table 01-4). -/
abbrev Vol := Fin 64

/-- PCIe function: 0 is the PF, n is VF n (R337). -/
abbrev Fn := Fin 64

/-- Loop slot (R49). -/
abbrev Slot := Fin 32

/-- Cam table number (R51). -/
abbrev CamNo := Fin 64

/-- Host ring identifier, 20 bits (chapter 11). -/
abbrev RingId := Fin 1048576

/-- Tag of a command in flight, 13 bits (Table 00-2). -/
abbrev Tag := Fin 8192

end Sys2Proof
end

