-- ==== Sys2Proof/Types.lean ====
section
/-! DEFINITION. The plain data types of the deck: codes with names, the records that the state holds and the
operands that the commands carry. Each type names the table or rule of the spec that lays it out. -/

namespace Sys2Proof

/-- State codes of a unit (Table 17-1). -/
inductive UState where
  | absent | offline | starting | ready | degraded | suspect | draining | service | faulted
  deriving DecidableEq, Repr, Inhabited

/-- Reasons of a change (Table 17-3). -/
inductive Reason where
  | none | request | sensor | probe | loop | drive | thermal | interlock | watchdog | conflict | integrity
  | calibration | derived | mount | pair | powerFail | firstState
  deriving DecidableEq, Repr, Inhabited

/-- Source of a change (Table 17-9). -/
inductive Source where
  | internal | ring | dmp | i3c | partner
  deriving DecidableEq, Repr, Inhabited

/-- Why a unit is SUSPECT: by the policy watchdog (R34) or by a contradicted assertion (R508). -/
inductive Doubt where
  | none | watchdog | conflict
  deriving DecidableEq, Repr, Inhabited

/-- An entry of the Unit State Table (R498). hold marks a SERVICE hold by a running calibration or self-test,
doubt why the unit is SUSPECT, asserted the presence that a conflicting assertion claimed (R508). -/
structure UnitEntry where
  state : UState := .absent
  prev : UState := .absent
  reason : Reason := .none
  epoch : BitVec 32 := 0
  changed : Nat := 0
  hold : Bool := false
  doubt : Doubt := .none
  asserted : Bool := false
  deriving DecidableEq, Repr, Inhabited

/-- One item of an event's DETAIL: its size in bytes and its value (Table 17-10). -/
structure Item where
  size : Nat
  val : Nat
  deriving DecidableEq, Repr, Inhabited

/-- An entry of the event log or of the early log (Table 17-10). -/
structure EventEntry where
  seq : Nat
  time : Nat
  block : Nat
  code : Nat
  synced : Bool
  cont : Bool
  unit : Nat
  epoch : Nat
  detail : List Byte
  deriving DecidableEq, Repr, Inhabited

/-- A unit history entry of the MRAM (Table 17-9, R449); the 64-byte entry adds a CRC over the first 60 bytes. -/
structure HistEntry where
  seq : Nat
  time : Nat
  unit : Nat
  old : UState
  new : UState
  reason : Reason
  epoch : BitVec 32
  acceptSeq : Nat
  source : Source
  deriving DecidableEq, Repr, Inhabited

/-- A valid MRAM slot (Table 14-7); an invalid slot is none. -/
structure MramSlot where
  generation : Nat
  payload : List Byte
  deriving DecidableEq, Repr, Inhabited

/-- The two slots of an MRAM record (R446). -/
structure MramRec where
  a : Option MramSlot := none
  b : Option MramSlot := none
  deriving DecidableEq, Repr, Inhabited

/-- A record write asked of the MRAM (R448): the record, its payload, the slot chosen and the attempts made. -/
structure MramWrite where
  typ : Nat
  index : Nat
  payload : List Byte
  slotB : Bool := false
  tries : Nat := 0
  deriving DecidableEq, Repr, Inhabited

/-- Everything the block sends out: what a host, a station, a partner or a pin's far side sees. -/
inductive Output where
  /-- A write of bytes to host memory by function fn (R359, R362, R367). -/
  | hostWrite (fn : Nat) (addr : Nat) (bytes : List Byte)
  /-- A read of host memory started by function fn (R70, R345, R358, R382). -/
  | hostRead (fn : Nat) (addr : Nat) (len : Nat)
  /-- An MSI-X message (R374). -/
  | msix (fn : Nat) (vector : Nat)
  /-- A Deck Management Protocol message to a station, with its delay in µs (R514, R515). -/
  | dmp (addr port : Nat) (typ reqId flags status : Nat) (payload : List Byte) (delay : Nat)
  /-- An event entry sent to a subscriber (R516). -/
  | subscriber (addr port : Nat) (entry : EventEntry)
  /-- The response of an I3C private read (R517); none is a NACK. -/
  | i3cRead (response : Option (List Byte))
  /-- An In-Band Interrupt with its mandatory data byte (R517). -/
  | ibi (block : Nat)
  /-- The answer of a CCC (R517). -/
  | i3cCcc (bytes : List Byte)
  /-- A BAR read's data, the register offset with it. -/
  | regData (off : Nat) (val : Nat)
  /-- The answer of a PCIe configuration request: none is Configuration Request Retry Status (R470). -/
  | config (answer : Option Nat)
  /-- A Pickup Driver Link frame on a carriage (Table 06-2). -/
  | pdl (car : Nat) (frame : Nat)
  /-- A frame on the Jokor link (R524): its kind and its content. -/
  | jokor (kind : Nat) (content : List Nat)
  /-- PEER_RESET_N asserted or released (R528, R540). -/
  | peerReset (asserted : Bool)
  /-- A flash slot erased and written (R72). -/
  | flashWrite (slotB : Bool) (image : List Byte)
  /-- A word shifted out of the TAP's data register (R571, R572). -/
  | tap (val : Nat)
  /-- A BAR2 read's data, and whether its TLP is poisoned (R422, R423). -/
  | bar2 (poisoned : Bool) (bytes : List Byte)
  /-- Bytes that a cache port delivers, from a byte address of buffer memory on (R411). -/
  | cacheData (port addr : Nat) (bytes : List Byte)
  /-- A sector written on the medium: its member address (Table 03-11's place for an anchor) and its payload. -/
  | sector (addr : Nat) (payload : List Byte)
  /-- A step pulse or PWM duty sent to a motor: which motor, and the values. -/
  | motor (which : Nat) (vals : List Int)
  deriving DecidableEq, Repr

/-- Status codes of a completion (Table 11-12). -/
inductive Status where
  | success | successRecovered | successRelocated
  | aborted | abortTooLate | alreadyComplete | abortNoTarget
  | invalidField | rangeOut | atomicTooLarge | volumeReadOnly
  | unitNotReady | unitSuspect | epochStale | unitService
  | mediumUnrecovered | mediumFull | writeVerifyExhausted
  | internalParity | hankCheckFail
  | pairForwardFail
  deriving DecidableEq, Repr, Inhabited

/-- The command entry of a ring, decoded (Table 11-6). -/
structure HostCmd where
  opcode : Nat
  cflags : Nat
  volume : Nat
  rsvd3 : Nat
  count : Nat
  lba : Nat
  dataAddr : Nat
  listCount : Nat
  rsvd1c : Nat
  generation : Nat
  replayId : Nat
  body : List Byte
  deriving DecidableEq, Repr, Inhabited

/-- The states of a command (Table 12-1); away is a command of this non-owner whose states are at the owner (R530). -/
inductive CmdState where
  | waiting | running | away | ended
  deriving DecidableEq, Repr, Inhabited

/-- Modes of a range-lock entry (Table 12-3). -/
inductive LockMode where
  | s | a | x | f | c
  deriving DecidableEq, Repr, Inhabited

/-- A range-lock entry (R379): an inclusive range of blocks of a volume, or the whole volume. -/
structure Lock where
  mode : LockMode
  vol : Nat
  lo : Nat
  hi : Nat
  whole : Bool
  deriving DecidableEq, Repr, Inhabited

/-- Where one block of a read comes from (R383): held data by its identity, a map entry, or nothing ever written. -/
inductive BlockSrc where
  | held (id : Nat)
  | mapped (entry : Nat) (index : Nat)
  | never
  deriving DecidableEq, Repr, Inhabited

/-- What a command that passed its checks still waits for beside locks and barriers: nothing, a unit to serve
(Table 17-4), a SUSPECT unit with the SUSPECT_HOLD read when the hold began (R509), THERM_CRIT (R37), or the end of an original under the same replay identity (R401). -/
inductive Gate where
  | open
  | unitWait (unit : Nat)
  | suspect (unit : Nat) (hold : Nat)
  | thermal
  | original (seq : Nat)
  deriving DecidableEq, Repr, Inhabited

/-- One command in flight, on its tag (R372, R377). got holds decompressed blocks by their index, fails the blocks that
could not be had; media is the highest media step of its members (R175), reading that its write data is being read from
host memory (R381), segs the host addresses and lengths of its data, waitsKnot
the acceptance number up to which its completion needs knots (R388, R389), forwarded a command of this non-owner that
went to the owner, remote one that came from the partner (R530), late what steps 5 to 8 of Table 11-8 found while step 4
waits (R504), heldFull that its completion waited for space (R367). -/
structure Cmd where
  fn : Nat
  ring : Nat
  slot : Nat
  seq : Nat
  cmd : HostCmd
  state : CmdState := .waiting
  gate : Gate := .open
  lock : Option Lock := none
  snap : List BlockSrc := []
  got : Tbl (List Byte) := []
  held : List Nat := []
  heldPoint : Bool := false
  pnr : Bool := false
  status : Status := .success
  result : Nat := 0
  replayed : Bool := false
  relocated : Bool := false
  step : Nat := 0
  taken : Bool := false
  target : Option Nat := none
  afterTag : Option Nat := none
  detached : Bool := false
  forwarded : Bool := false
  remote : Bool := false
  late : Option (Status × Nat) := none
  heldFull : Bool := false
  silent : Bool := false
  warned : Bool := false
  attr : List Byte := []
  segs : List (Nat × Nat) := []
  waitsKnot : Option Nat := none
  media : Nat := 0
  fails : List (Nat × Status) := []
  reading : Bool := false
  deriving DecidableEq, Repr, Inhabited

/-- A ring context on chip (R342 to R344). -/
structure RingCtx where
  fn : Nat
  cmdBase : Nat
  cplBase : Nat
  sizeLog2 : Nat
  cls : Nat
  weight : Nat
  intEn : Bool
  vector : Nat
  coalCount : Nat
  coalTime : Nat
  fetchHead : Nat
  cplTail : Nat
  phase : Bool
  wrapped : Bool
  cmdTail : Nat
  cplHead : Nat
  halted : Bool := false
  invalidating : Bool := false
  unsignalled : Nat := 0
  lastUse : Nat := 0
  deriving DecidableEq, Repr, Inhabited

/-- A doorbell-table record (R350): each field with its valid bit; written is true where a write-back alone
recorded the CPL_HEAD. -/
structure Doorbell where
  tail : Option Nat := none
  head : Option Nat := none
  rung : Bool := false
  deriving DecidableEq, Repr, Inhabited

/-- An MSI-X table entry with its PBA bit (R374, R545); every vector is masked at reset, as PCIe has it. -/
structure MsixVec where
  masked : Bool := true
  pending : Bool := false
  addr : Nat := 0
  data : Nat := 0
  deriving DecidableEq, Repr, Inhabited

/-- The PCIe state of a function (R337, R340, R367, R374). -/
structure FnState where
  busMaster : Bool := false
  msixEn : Bool := false
  fnMask : Bool := false
  d3 : Bool := false
  inFlr : Bool := false
  deriving DecidableEq, Repr, Inhabited

/-- A replay-table entry (R399). -/
structure ReplayEntry where
  id : Nat
  seq : Nat
  status : Status
  result : Nat
  relocated : Bool
  step : Nat
  deriving DecidableEq, Repr, Inhabited

end Sys2Proof
end

