-- ==== Sys2Proof/TypesDeck.lean ====
section
/-! DEFINITION. The plain data of power, pins, rings, ordering, the unit sequencer and the management path (spec
chapters 01, 11, 12, 14, 15 and 17). -/

namespace Sys2Proof

/-- Supplies, reset, clocks, input pins and watch timers (chapter 15, R34, R37). ticks counts CLK_PWM cycles since
S2; time is deck time in ns (R518). armed says that the work of S6 is done, pfRunning that the power-failure sequence has
begun, perstFlr that the function resets of PERST_N run. -/
structure PowerState where
  railsGood : Bool := false
  rstLow : Bool := true
  holdDone : Bool := false
  pllLocked : Bool := false
  clockLost : Bool := false
  straps : Nat := 0
  refPresent : Bool := false
  perst : Bool := true
  linkUp : Bool := false
  perstFlr : Bool := false
  pfAsserted : Bool := false
  pfRunning : Bool := false
  pfDone : Bool := false
  counting : Bool := false
  ticks : Nat := 0
  time : Nat := 0
  stageFrom : Nat := 0
  ilk : Bool := false
  trip : Bool := false
  warn : Bool := false
  crit : Bool := false
  ceiling : Option Nat := none
  armed : Bool := false
  policyRunning : Bool := false
  policyHeld : Bool := false
  wdogLast : Option Nat := none
  wdogUnits : List Nat := []
  discActive : Bool := false
  cartSns : List Bool := [false, false, false, false]
  bistFails : List (Nat × Nat) := []
  deriving DecidableEq, Repr, Inhabited

/-- Output pins: which groups of safe outputs are driven, per carriage where the group is (Table 15-4). -/
structure PinState where
  driven : Bool := false
  len : List Bool := [false, false, false, false]
  wgate : List Bool := [false, false, false, false]
  dacOn : List Bool := [false, false, false, false]
  sledGates : List Bool := [false, false, false, false]
  spnGates : Bool := false
  ownN : Bool := false
  peerReset : Bool := false
  deriving DecidableEq, Repr, Inhabited

/-- What a configuration request does (R470, R337, R340, R367, R374): a read of a configuration register, or a write of
NumVFs, VF Enable, Bus Master Enable, the MSI-X Enable with the Function Mask, or the device power state. -/
inductive ConfigReq where
  | read (off : Nat)
  | numVfs (n : Nat)
  | vfEnable (on : Bool)
  | busMaster (on : Bool)
  | msix (enable mask : Bool)
  | power (d3 : Bool)
  deriving DecidableEq, Repr, Inhabited

/-- Host rings (chapter 11). loHold and hiHold are the held halves of the 64-bit registers (R15), loBad the pairs whose low
half was written with a reserved encoding (R341). -/
structure HostState where
  ctx : Tbl (Option RingCtx) := []
  doorbells : Tbl Doorbell := []
  loading : List Nat := []
  starved : List Nat := []
  clock : Nat := 0
  fns : Tbl FnState := []
  msix : Tbl MsixVec := []
  vfEnable : Bool := false
  numVfs : Nat := 0
  creditH : Int := 0
  creditM : Int := 0
  creditL : Int := 0
  cursor : List Nat := [0, 0, 0, 0]
  used : List Nat := [0, 0, 0, 0]
  cmds : Tbl (Option Cmd) := []
  posting : List Nat := []
  fetchHold : Bool := false
  loHold : Tbl (Option Word) := []
  hiHold : Tbl (Option Word) := []
  loBad : List Nat := []
  deriving DecidableEq, Repr, Inhabited

/-- What a command at the unit sequencer asks (R502, R505, R477, R506, R362). -/
inductive ReqKind where
  | request | calibrate | selfTest | query | info
  deriving DecidableEq, Repr, Inhabited

/-- Where a request came from, and where its outcome goes; one that the partner's management path took keeps the sender there
(R531). -/
inductive Sender where
  | ring (tag : Nat)
  | dmp (addr port reqId typ : Nat)
  | i3c (reqId typ : Nat)
  | policy
  | partner (i3c : Bool) (addr port reqId typ : Nat)
  deriving DecidableEq, Repr, Inhabited

/-- A request at the unit sequencer, taken or waiting for its completion (R502, R505). -/
structure UnitReq where
  kind : ReqKind
  unit : Nat
  code : Nat
  epoch : Nat
  sender : Sender
  acceptSeq : Nat := 0
  deriving DecidableEq, Repr, Inhabited

/-- The Unit State Table and its sequencer (chapter 17): waiting are the commands not yet taken, in the order in which they
reached it, open_ the requests taken whose units are still on their way, bufService the buffer-channel SERVICE requests
that drain (R580). -/
structure UnitsState where
  tab : Tbl UnitEntry := []
  waiting : List UnitReq := []
  open_ : List UnitReq := []
  bufService : List UnitReq := []
  deriving DecidableEq, Repr, Inhabited

/-- A subscriber of events (R516). -/
structure Subscriber where
  addr : Nat
  port : Nat
  mask : Nat
  deriving DecidableEq, Repr, Inhabited

/-- A stored response of a state-changing request (R516): none while the original runs. -/
structure Stored where
  addr : Nat
  port : Nat
  reqId : Nat
  typ : Nat
  answer : Option (Nat × List Byte)
  deriving DecidableEq, Repr, Inhabited

/-- The I3C target (R517); da is its dynamic address, waiting that a response is awaited. -/
structure I3cState where
  da : Option Nat := none
  response : Option (List Byte) := none
  waiting : Bool := false
  eventsOn : Bool := false
  mwl : Nat := 1060
  mrl : Nat := 1060
  deriving DecidableEq, Repr, Inhabited

/-- Where a management message came from: a station on the management port, or the I3C bus (R514, R517). -/
inductive MsgFrom where
  | station (addr port : Nat)
  | i3c
  deriving DecidableEq, Repr, Inhabited

/-- The management path (chapter 17): logs, subscribers, stored responses, the I3C target, PTP and network. ptpRate is the slew
in ppm, ptpFrac what it has gathered in 10^-6 ns. -/
structure MgmtState where
  log : List EventEntry := []
  early : List EventEntry := []
  subs : List Subscriber := []
  stored : List Stored := []
  logArmed : Bool := true
  i3c : I3cState := {}
  net : List Byte := []
  netPending : Option (List Byte) := none
  policy : Tbl Int := []
  ptpSynced : Bool := false
  ptpGood : Nat := 0
  ptpRate : Int := 0
  ptpFrac : Int := 0
  deriving DecidableEq, Repr, Inhabited

/-- The MRAM record store (R446 to R450): records by TYPE × 65,536 + INDEX, the unit history, the writes asked for; base and
carry hold each count as it stood at the last save, and what reads have cleared since. -/
structure MramState where
  recs : Tbl MramRec := []
  hist : List HistEntry := []
  queue : List MramWrite := []
  base : Tbl Nat := []
  carry : Tbl Nat := []
  deriving DecidableEq, Repr, Inhabited

end Sys2Proof
end

