-- ==== Sys2Proof/TypesCal.lean ====
section
/-! DEFINITION. The plain data of calibrations, self-tests and the test access port (spec chapters 16 and 20). -/

namespace Sys2Proof

/-- A calibration or self-test from its taking to its end (R478 to R483): its opcode and kind, the request it serves, whether
SERVICE was held by a UNIT_REQUEST, whether it has started, the deck time of its start, its run number, and the scope
and limits read at its taking. ending marks a SPINDLE calibration that waits for the spindle to become READY (R482), with
whether it was accepted and its OUTCOME. -/
structure CalRun where
  op : Nat
  code : Nat
  unit : Nat
  req : UnitReq
  byReq : Bool := false
  started : Bool := false
  since : Nat := 0
  run : Nat := 0
  lf : Nat := 0
  zones : List Nat := []
  chnCfg : Word := 0
  wpcCfg : Word := 0
  mechCfg : Word := 0
  ending : Option (Bool × Nat) := none
  deriving DecidableEq, Repr, Inhabited

/-- One decoded slot of a CHANNEL calibration's measurement (R484, R485): the values of VGA, OFS and ASYM and of the taps at
slot end in units of 2^-24; by condition the sums of e_now·e_prv and of e_prv², the sum of w² in 2^-48 and its count;
the slot's MSE as in CHN_QUALITY, and the hard decisions that differ with the bits compared. -/
structure ChanSlot where
  vga : Int
  ofs : Int
  asym : Int
  eq : List Int
  xtl : List Int
  xtr : List Int
  npNum : List Int
  npDen : List Int
  wSq : List Nat
  wN : List Nat
  mse : Nat := 0
  diff : Nat := 0
  bits : Nat := 0
  deriving DecidableEq, Repr, Inhabited

/-- What a CHANNEL calibration measured on one strand in one zone: the slots of the first and of the second revolution. -/
structure ChanStrand where
  strand : Nat
  first : List ChanSlot
  second : List ChanSlot
  deriving DecidableEq, Repr, Inhabited

/-- A point of a servo calibration (R486): the channel MSE at each of the 9 steps of focus and of aberration, the mean twist
and tilt (Q8.24), and the residual of focus, tracking, tilt and twist in 0.1 nm. -/
structure ServoPoint where
  focusMse : List Nat := []
  sabMse : List Nat := []
  pos : Int := 0
  twist : Int := 0
  tilt : Int := 0
  rms : List Nat := []
  deriving DecidableEq, Repr, Inhabited

/-- A power step of a write-power calibration on one strand (R487): top, bottom and the jitter in 0.001% of T. -/
structure PowerStep where
  top : Int
  bottom : Int
  jitter : Nat
  deriving DecidableEq, Repr, Inhabited

/-- What a calibration or self-test measured, by kind (R484 to R495): the strands of each zone; the points; the slots that the
test zone had blank and the steps of each strand; the three means of r in 2^-24 µm; the motor's parameters in the units of
Table 02-11 with DRAG in µN·m, and the residual in 0.1%; failed checkers by group and instance with the failed lane
checker; whether the MRAM test slot passed; whether the march passed. -/
inductive CalData where
  | channel (zones : List (List ChanStrand))
  | servo (points : List ServoPoint)
  | power (exhausted : Bool) (strands : List (List PowerStep))
  | sled (r : List Int)
  | spindle (r l ke inertia drag residual : Nat)
  | parity (failed : List (Nat × Nat)) (lane : Bool)
  | mram (ok : Bool)
  | bist (ok : Bool)
  deriving DecidableEq, Repr, Inhabited

/-- The calibrations and self-tests that run. -/
structure CalState where
  running : List CalRun := []
  deriving DecidableEq, Repr, Inhabited

/-- The test access port (R571, R572): the instruction in the register, the boundary cells as sampled or preloaded, whether
they drive the pins or the pins are in high impedance, and of REGACC whether the last access was performed, with the
address and the data of the last read. -/
structure TapState where
  ir : Nat := 0x01
  cells : List Bool := []
  drives : Bool := false
  highz : Bool := false
  performed : Bool := false
  lastAddr : Nat := 0
  lastData : Word := 0
  deriving DecidableEq, Repr, Inhabited

end Sys2Proof
end

