-- ==== Sys2Proof/TypesMedia.lean ====
section
/-! DEFINITION. The plain data of volumes, knots, held write data, skeins, passes and hanks (spec chapters 03, 06,
07 and 12). -/

namespace Sys2Proof

/-- A knot entry (Table 03-9) with its knot's generation and number, as the map holds it. -/
structure MapEntry where
  lba : Nat
  count : Nat
  firstDi : Nat
  hank : Bool
  cont : Bool
  skein : Nat
  place : List Nat
  offset : Nat
  generation : Nat
  knotSeq : Nat
  /-- Blocks that the entry covers: COUNT without HANK, those of the hank with it (R237). -/
  blocks : Nat
  deriving DecidableEq, Repr, Inhabited

/-- A knot header with its entries (Tables 03-8 and 03-9). last, whole: the acceptance number of the last write the
knot covers, and whether it covers that write wholly (R394); heldIds: the held blocks it covers; check: the CRC-32C
of its record. -/
structure Knot where
  vol : Nat
  create : Bool := false
  atomic : Bool := false
  reloc : Bool := false
  close : Bool := false
  seq : Nat
  generation : Nat
  prevPlace : List Nat := []
  prevPair : Nat := 0
  prevCheck : Nat := 0
  entries : List MapEntry := []
  attr : List Byte := []
  last : Nat := 0
  whole : Bool := true
  heldIds : List Nat := []
  oldest : Nat := 0
  deriving DecidableEq, Repr, Inhabited

/-- A cut kept for a generation applied since mount (R394). -/
structure Cut where
  generation : Nat
  seq : Nat
  wholly : Bool
  deriving DecidableEq, Repr, Inhabited

/-- A checkpoint being written page by page (R110, R111): its knots, its next page and page count, the placement and
data index of the previous page, and the skein of the page now on its way. -/
structure CkptJob where
  first : Nat
  last : Nat
  page : Nat
  pages : Nat
  prevPlace : List Nat
  prevDi : Nat
  key : Option Nat := none
  deriving DecidableEq, Repr, Inhabited

/-- A volume of the mounted disc: its attributes (R105), its flags (Table 11-9), its map and its chain. -/
structure Volume where
  present : Bool := false
  blocks : Nat := 0
  compMode : Nat := 0
  compLevel : Nat := 0
  label : List Byte := []
  readOnly : Bool := false
  closed : Bool := false
  chainEnded : Bool := false
  highGen : Nat := 0
  knotSeq : Nat := 0
  lastPlace : List Nat := []
  lastPair : Nat := 0
  lastCheck : Nat := 0
  map : List MapEntry := []
  mountGen : Nat := 0
  cuts : List Cut := []
  ckptSeq : Nat := 0
  ckptKnot : Nat := 0
  ckptPlace : List Nat := []
  ckptDi : Nat := 0
  /-- The knot prepared or on the medium and not yet verified: at most one (R217). -/
  knotOut : Option Knot := none
  ckpt : Option CkptJob := none
  replay : List ReplayEntry := []
  lost : Bool := false
  hankCount : Nat := 0
  hankBytes : Nat := 0
  deriving DecidableEq, Repr, Inhabited

/-- Where held data stands on its way to a knot: not yet formed, a data member of its own, part of a packed hank, or
applied. -/
inductive HeldStage where
  | held
  | formed (skein : Nat) (di : Nat)
  | packed (hank : Nat)
  | applied
  deriving DecidableEq, Repr, Inhabited

/-- A block of held write data (R381): who wrote it, its bytes and its stage; single marks the one copy of R30. -/
structure Held where
  id : Nat
  vol : Nat
  seq : Nat
  lba : Nat
  data : List Byte
  stage : HeldStage := .held
  atomic : Bool := false
  fua : Bool := false
  single : Bool := false
  since : Nat := 0
  deriving DecidableEq, Repr, Inhabited

/-- What a member of a skein holds (R95, R197, R215). -/
inductive MemberKind where
  | empty
  | block (held vol : Nat)
  | hank (vol : Nat)
  | knot (vol : Nat) (seq : Nat)
  | ckpt (vol : Nat) (page : Nat)
  | reloc (vol : Nat) (hank : Bool)
  | parity
  | fill
  deriving DecidableEq, Repr, Inhabited

/-- The outcome of a member's verify read (R211). -/
inductive Verify where
  | pending | passed | failed
  deriving DecidableEq, Repr, Inhabited

/-- A member: what it holds, its 4,096 data bytes, its ROT and its verify outcome. -/
structure Member where
  kind : MemberKind := .empty
  data : List Byte := []
  rot : Nat := 0
  verify : Verify := .pending
  written : Bool := false
  deriving DecidableEq, Repr, Inhabited

/-- A skein on its way to the medium (R196 to R217). key names it inside the model; number is its skein number from
sealing on. -/
structure Skein where
  key : Nat
  number : Option Nat := none
  members : List Member := List.replicate 16 {}
  filled : Nat := 0
  knots : List Knot := []
  isKnot : Bool := false
  isReloc : Bool := false
  isCkpt : Bool := false
  told : Bool := false
  parityDone : Bool := false
  place : List (Option Nat) := [none, none, none, none]
  firstPulse : Bool := false
  tries : Nat := 0
  failed : Bool := false
  passed : Bool := false
  exhausted : Bool := false
  unplaceable : Bool := false
  oldest : Nat := 0
  sealNow : Bool := false
  ahead : Bool := false
  parityQueued : Bool := false
  failCars : List Nat := []
  /-- A knot skein of the old owner that is read back as a verify read (R537, step 8). -/
  readBack : Bool := false
  deriving DecidableEq, Repr, Inhabited

/-- Phases of a carriage's writing (WRP_CAR_STATUS.STATE). -/
inductive PassState where
  | idle | preRead | writing | turnJump | verify | stopped
  deriving DecidableEq, Repr, Inhabited

/-- The write side of a carriage: its queue of skein keys, its frontier in whole-block steps of its sequence, and
the pass under way. -/
structure WriteCar where
  queue : List Nat := []
  frontier : Nat := 0
  exhausted : Bool := false
  state : PassState := .idle
  passStart : Nat := 0
  passSkeins : List Nat := []
  passBlocks : Nat := 0
  preRead : Option Nat := none
  writeBad : Nat := 0
  lastEnd : Option Nat := none
  serve : List Nat := []
  burst : Nat := 0
  stopAtSlotEnd : Bool := false
  stopWriting : Bool := false
  lastPowerZone : Option (Nat × Nat) := none
  drvReady : Bool := true
  pdlTries : Nat := 0
  pdlFrame : Nat := 0
  abandoned : Bool := false
  deriving DecidableEq, Repr, Inhabited

/-- A packing buffer of a compressed volume (R236): its bytes and the hanks that lie in it. -/
structure PackBuf where
  bytes : List Byte := []
  hanks : List Nat := []
  since : Nat := 0
  deriving DecidableEq, Repr, Inhabited

/-- A hank on its way to the medium (R236, R237): its volume and first block, the write it belongs to, the byte at which
it begins in its first member, its stored length, and the members that hold its bytes, in order. stored is the stream
with its trailer until it is packed. -/
structure HankPlace where
  id : Nat
  vol : Nat
  seq : Nat
  lba : Nat
  offset : Nat := 0
  len : Nat := 0
  members : List (Nat × Nat) := []
  inBuf : Bool := false
  stored : Option (List Byte) := none
  raw : Bool := false
  deriving DecidableEq, Repr, Inhabited

/-- What a hank engine does (HNK_ENG_STATUS). -/
inductive HankUse where
  | idle | coding | decompressing | restoring
  deriving DecidableEq, Repr, Inhabited

/-- A coding or decompression request of the hank queue (R243), aged by the acceptance number of its command and the
hank's order in it. hank names the hank to be coded; tag, lba and stream the read, the first block and the stored bytes
from OFFSET on of a hank to be decompressed; failedOn the engine of a failed first attempt (R242). -/
structure HankReq where
  vol : Nat
  decompress : Bool
  seq : Nat
  lba : Nat
  hank : Nat := 0
  tag : Nat := 0
  stream : List Byte := []
  failedOn : Option Nat := none
  deriving DecidableEq, Repr, Inhabited

/-- A hank engine (R233, R242). -/
structure HankEng where
  use : HankUse := .idle
  faulted : Bool := false
  bistFailed : Bool := false
  req : Option HankReq := none
  deriving DecidableEq, Repr, Inhabited

/-- The hank side of the state. -/
structure HankState where
  engines : List HankEng := List.replicate 6 {}
  queue : List HankReq := []
  places : List HankPlace := []
  nextHank : Nat := 1
  bufs : Tbl PackBuf := []
  deriving DecidableEq, Repr, Inhabited

/-- A skein under relocation (R184 to R187): the old skein's number and placement, the map entries to be copied as
(volume, index), the members copied so far as (old skein × 16 + member, new skein key, data index), and whether its
copies have been formed; failed once RELOC_FAIL was set for it. -/
structure Reloc where
  skein : Nat
  place : List Nat
  entries : List (Nat × Nat) := []
  moved : List (Nat × Nat × Nat) := []
  formed : Bool := false
  failed : Bool := false
  deriving DecidableEq, Repr, Inhabited

/-- A knot record as read from the medium: its skein's placement, its pair number and its 4,096 bytes. -/
structure KnotRead where
  place : List Nat
  pair : Nat
  record : List Byte
  deriving DecidableEq, Repr, Inhabited

/-- What the reads of a mount step returned (Table 03-12): whether chevron fields were found; the DIZ records of LF 0 and
LF 16; the newest written anchor number with the A and C copies from it downwards; the checkpoint pages, each with the
knots walked in place of one that cannot be read, and the records of CREATE knots and of LAST_KNOTs; the frontier scan
with each carriage's first unwritten block in its sequence, the knot records found and walked, and the highest skein number;
nothing for the chain validation. none is a sector that does not decode. -/
inductive MountData where
  | chevrons (found : Bool)
  | diz (lf0 lf16 : Option (List Byte))
  | anchors (written : Nat) (copies : List (Option (List Byte) × Option (List Byte)))
  | pages (pages : List (Option (List Byte) × List KnotRead)) (records : List KnotRead)
  | scan (frontiers : List Nat) (knots : List KnotRead) (highSkein : Option Nat)
  | chain
  deriving DecidableEq, Repr, Inhabited

/-- The steps of a mount (Table 03-12); identify is import identification (R192). -/
inductive MountStep where
  | none | s1 | s2 | s3 | s4 | s5 | s6 | s7 | identify
  deriving DecidableEq, Repr, Inhabited

/-- The disc side of the state: the mount under way, the DIZ values, the anchor used, and what the mount found; rebuild names
the volumes whose map is being rebuilt from the medium (Table 14-5, class 2). -/
structure DiscState where
  step : MountStep := .none
  mounted : Bool := false
  importMode : Bool := false
  serial : List Byte := []
  segBits : List Nat := []
  writeNominal : List Nat := []
  spare : Nat := 0
  anchorSeq : Nat := 0
  nextSkein : Nat := 0
  knotsSinceAnchor : Nat := 0
  commitAll : Bool := false
  highFound : Nat := 0
  frontierFound : List Nat := [0, 0, 0, 0]
  pendingKnots : List KnotRead := []
  anchorKnots : List Nat := []
  rebuild : List Nat := []
  deriving DecidableEq, Repr, Inhabited

/-- The write path and the medium side of the volumes. -/
structure MediaState where
  vols : Tbl Volume := []
  held : List Held := []
  nextHeld : Nat := 1
  skeins : List Skein := []
  nextKey : Nat := 1
  openSkein : Option Nat := none
  openReloc : Option Nat := none
  cars : List WriteCar := List.replicate 4 {}
  disc : DiscState := {}
  hank : HankState := {}
  relocs : List Reloc := []
  deriving DecidableEq, Repr, Inhabited

end Sys2Proof
end

