-- ==== Sys2Proof/TypesMem.lean ====
section
/-! DEFINITION. The plain data of buffer memory, of the buffer cache and of the scratchpad (spec chapters 13 and 14). Line
addresses are byte addresses shifted right by 6. -/

namespace Sys2Proof

/-- What a line of buffer memory holds, by the CLASS of Table 14-5, with what the loss of it touches: the commands that
wait on it with the volume and the lowest acceptance number of the held data; a volume's map; the first of the 8 rings; the
replay identities by volume and the skeins of the relocation queue; a zone; a decoded member; the command whose list or
write data it is; the class and volume of mirrored data. -/
inductive LineUse where
  | held (tags : List Nat) (vol seq : Nat)
  | map (vol : Nat)
  | doorbell (ring : Nat)
  | replay (entries : List (Nat × Nat)) (skeins : List Nat)
  | zone (lf zone : Nat)
  | payload (skein member : Nat)
  | hostData (tag : Nat)
  | mirror (cls vol seq : Nat)
  | staging
  | way0 (slots : List Nat)
  | unallocated
  deriving DecidableEq, Repr, Inhabited

/-- Buffer memory beside its registers: the bytes of its lines by byte address, the times of the persistent errors of the
last 60 s by channel, the repairs asked for by the byte address of the bad line, the line after which a burst resumes and
the lines still to be read in it, and the loads of the channels at S5. -/
structure MemState where
  bytes : Tbl Byte := []
  errTimes : List (Nat × Nat) := []
  repairs : List Nat := []
  resume : Nat := 0
  burstLeft : Nat := 0
  deriving DecidableEq, Repr, Inhabited

/-- A line of the cache in its way (R408, R409). nru is the not-recently-used bit as R409 uses it. -/
structure CacheLine where
  line : Nat
  data : List Byte
  dirty : Bool := false
  locked : Bool := false
  nru : Bool := false
  deriving DecidableEq, Repr, Inhabited

/-- An entry of the victim buffer (R415, R416): gone marks one whose line was re-allocated while its write-back ran. -/
structure VictimEntry where
  line : Nat
  data : List Byte
  dirty : Bool
  issued : Bool := false
  gone : Bool := false
  deriving DecidableEq, Repr, Inhabited

/-- A request at a cache port (R410): the port, the byte address within one line, the length, and for a write the bytes
with their enables. -/
structure CacheReq where
  port : Nat
  addr : Nat
  len : Nat
  write : Option (List (Option Byte)) := none
  deriving DecidableEq, Repr, Inhabited

/-- A miss entry (R411): the beats that came, and the requests that wait in grant order, each with whether it has been
served. -/
structure MissEntry where
  line : Nat
  beats : List Nat := []
  reqs : List (CacheReq × Bool) := []
  deriving DecidableEq, Repr, Inhabited

/-- Where a parity error of a cache access lies (Table 13-5). -/
inductive CachePlace where
  | line | twin | miss
  deriving DecidableEq, Repr, Inhabited

/-- A parity error of a cache access (R423): where it lies, the replays made, whether it persists, and whether the source
of its repair fails too. -/
structure CacheErr where
  place : CachePlace
  replays : Nat
  persists : Bool
  sourceBad : Bool := false
  deriving DecidableEq, Repr, Inhabited

/-- A write-back of a line that stays in the cache, of a range operation, a lock or CLEANING. -/
structure WriteBack where
  line : Nat
  data : List Byte
  issued : Bool := true
  deriving DecidableEq, Repr, Inhabited

/-- A range operation under way (R418, R419): the range by lines or the whole cache, how far its walk has come, the write-
backs that it waits for, and the locked lines retained. -/
structure RangeOp where
  clean : Bool
  force : Bool
  whole : Bool
  lo : Nat
  len : Nat
  pos : Nat := 0
  waits : List Nat := []
  retained : Nat := 0
  deriving DecidableEq, Repr, Inhabited

/-- The buffer cache (R408 to R427): its lines by set × 16 + way, its dirty twins as (line, data) oldest first, its victim and
miss entries, the requests that wait at their ports, the write-backs on their way, the range operation, lines that failed
fatally, and the host's scratchpad ways by BAR2 offset. -/
structure CacheState where
  lines : Tbl (Option CacheLine) := []
  twins : List (Nat × List Byte) := []
  victims : List VictimEntry := []
  miss : List MissEntry := []
  waiting : List CacheReq := []
  wbs : List WriteBack := []
  twinFull : Bool := false
  range : Option RangeOp := none
  scratch : Tbl Byte := []
  bad : List Nat := []
  deriving DecidableEq, Repr, Inhabited

end Sys2Proof
end

