-- ==== Sys2Proof/TypesMotion.lean ====
section
/-! DEFINITION. The plain data of the loop engine, the spindle drive, the sleds and the cam unit (spec chapters 08, 09
and 10). Loop values are Q8.24 integers, coefficients Q4.28 integers (R256); drive quantities are integers in units of
2^−24 of the unit named, angles in 2^−32 of an electrical revolution; sled motion is in 2^−32 of a micrometre. -/

namespace Sys2Proof

/-- Slot states (Table 08-6, LPE_STATUS.STATE). -/
inductive SlotSt where
  | disabled | run | hold | lost | fault
  deriving DecidableEq, Repr, Inhabited

/-- A loop slot (R257, R261 to R277). next holds the outputs computed and not yet written at phase 400; late marks a
due loop that will not finish by phase 380, lost one whose lost-lock condition was found at a latch, faulty one whose
coefficient mirror failed too (R275). age counts base periods since a chevron value arrived, fresh says that one
arrived since the last computation. engMask are the MASK bits that the motion engine holds (R322, R324). -/
structure LoopSlot where
  st : SlotSt := .disabled
  r : Int := 0
  t : Int := 0
  xh : List Int := [0, 0, 0, 0, 0, 0, 0, 0]
  u0 : List Int := [0, 0]
  out : List Int := [0, 0]
  next : Option (List Int) := none
  late : Bool := false
  lost : Bool := false
  faulty : Bool := false
  meas : List Int := [0, 0, 0, 0]
  held : Nat := 0
  sat : Nat := 0
  err0 : Int := 0
  ovrRun : Nat := 0
  lockRun : Nat := 0
  holding : Bool := false
  holdLen : Nat := 0
  age : List Nat := [0, 0, 0, 0]
  fresh : List Bool := [false, false, false, false]
  bank : Bool := false
  bank0 : List Int := []
  bank1 : List Int := []
  enable : Option Bool := none
  swap : Bool := false
  park : Bool := false
  recapture : Bool := false
  engMask : Nat := 0
  rmsCount : Nat := 0
  rmsSum : Nat := 0
  rms : Nat := 0
  deriving DecidableEq, Repr, Inhabited

/-- A trace input (R268): the interval between the last two active edges in CLK_PWM cycles, the cycles since the last
edge, the signed step count and the quantity q. -/
structure TraceIn where
  interval : Nat := 0
  since : Nat := 0
  steps : Int := 0
  q : Int := 0
  deriving DecidableEq, Repr, Inhabited

/-- An actuator DAC (R254): the code at the pins, the codes between which it moves, and the update reached. -/
structure Dac where
  code : Int := 0
  old : Int := 0
  tgt : Int := 0
  interp : Bool := false
  m : Nat := 8
  deriving DecidableEq, Repr, Inhabited

/-- A cam table's state (R326 to R331). since counts base periods since engagement. -/
structure CamSt where
  engaged : Bool := false
  engage : Option Bool := none
  timeReset : Bool := false
  since : Nat := 0
  out : Int := 0
  master : Int := 0
  active : List Int := []
  shadow : Tbl Int := []
  deriving DecidableEq, Repr, Inhabited

/-- Motion states (Table 10-3, CRG_STATUS.STATE). -/
inductive MotionSt where
  | unhomed | homing | idle | follow | seek | settle | capture | fine | fault
  deriving DecidableEq, Repr, Inhabited

/-- A seek (R320): its layer-face and turn, when its target arrived, its retries, and whether a reversal or a sled
move occurred. byCmd marks a seek of CRG_CMD; after says what the seek serves. -/
structure Seek where
  lf : Nat
  turn : Nat
  start : Nat
  retry : Nat := 0
  reversal : Bool := false
  moved : Bool := false
  deriving DecidableEq, Repr, Inhabited

/-- A jump under way: a layer jump between two layers (Q8.24) or a turn jump, its age and its duration in base
periods. -/
structure Jump where
  turn : Bool
  from_ : Int
  tgt : Int
  age : Nat := 0
  dur : Nat
  settling : Bool := false
  deriving DecidableEq, Repr, Inhabited

/-- One coil's current regulator (R310, R311); the duty is in units of 2^−24. -/
structure Coil where
  i : Int := 0
  d : Int := 0
  ePrev : Int := 0
  refNeg : Bool := false
  off : Bool := false
  ocRun : Nat := 0
  openRun : Nat := 0
  deriving DecidableEq, Repr, Inhabited

/-- A carriage's motion engine, profile generator and sled drive (chapter 10), and what its ply measures (R92, R143).
Positions x and the target are in 2^−32 µm, v in 2^−32 µm/s, a in 2^−32 µm/s², p in u; ply values in 2^−24 µm. -/
structure CarMotion where
  st : MotionSt := .unhomed
  homeStep : Nat := 0
  homeFrom : Int := 0
  homed : Bool := false
  strong : Bool := false
  gates : Bool := false
  home : Bool := false
  p : Int := 0
  frac : Nat := 0
  interval : Nat := 0
  lastStep : Nat := 0
  x : Int := 0
  v : Int := 0
  a : Int := 0
  moving : Bool := false
  stopping : Bool := false
  reversing : Bool := false
  tgt : Int := 0
  moveTarget : Option Int := none
  afterHome : Option Int := none
  coil1 : Coil := {}
  coil2 : Coil := {}
  seek : Option Seek := none
  pending : Option Seek := none
  jump : Option Jump := none
  jumpPhase : Int := 0
  shapeDefault : Bool := false
  lf : Nat := 0
  turn : Nat := 0
  wedge : Nat := 0
  nTurn : Int := 0
  forceSlip : Bool := false
  captureBad : Nat := 0
  ply : Option Int := none
  twist : Option Int := none
  rhos : List (Option Int) := [none, none, none, none, none, none, none, none]
  addrs : List (Option Nat) := [none, none, none, none, none, none, none, none]
  ivl : Nat := 0
  wedgeAt : Nat := 0
  lostAt : Option Nat := none
  iRef1 : Int := 0
  iRef2 : Int := 0
  deriving DecidableEq, Repr, Inhabited

/-- Phases of the spindle drive (Table 09-3, SPN_STATUS.PHASE). -/
inductive SpnPhase where
  | stopped | coastSense | catch_ | brake | align | runup | run | recatch | stopping | lockedWait | fault
  deriving DecidableEq, Repr, Inhabited

/-- The spindle drive (chapter 09). Currents in 2^−24 A, voltages in 2^−24 V, duties in 2^−24, electrical speeds in
2^−24 rad/s, nHat in rpm × 2^24. -/
structure SpnState where
  phase : SpnPhase := .stopped
  fromTrip : Bool := false
  retries : Nat := 0
  gates : Bool := false
  brakeOff : Bool := false
  injOn : Bool := false
  injT : Nat := 0
  injQ : List Int := []
  injD : List Int := []
  thB : Nat := 0
  whB : Int := 0
  thI : Nat := 0
  whI : Int := 0
  ihA : Int := 0
  ihB : Int := 0
  ehA : Int := 0
  ehB : Int := 0
  vA : Int := 0
  vB : Int := 0
  th : Nat := 0
  w : Int := 0
  nHat : Int := 0
  adv : Nat := 0
  innov : Int := 0
  innovRun : Nat := 0
  iU : Int := 0
  iV : Int := 0
  iW : Int := 0
  iD : Int := 0
  iQ : Int := 0
  vbus : Nat := 0
  cmp : List Nat := [0, 0, 0]
  duty : List Int := [0, 0, 0]
  vlimit : Bool := false
  edges : List (Nat × Bool × Nat) := []
  lossDue : Bool := false
  backward : Bool := false
  valid : Bool := false
  speedBad : Nat := 0
  lockAcc : Nat := 0
  revAcc : Int := 0
  elecRevs : Nat := 0
  startAt : Nat := 0
  enteredAt : Nat := 0
  lossAt : Nat := 0
  ocTimes : List Nat := []
  signRun : Nat := 0
  lastNeg : Bool := false
  forceLoss : Bool := false
  rateReq : Nat := 0
  rateAdj : Int := 0
  rateF : Nat := 0
  l4 : Option Nat := none
  calib : Option Nat := none
  hold : Bool := false
  arbTarget : Nat := 0
  arbSource : Nat := 0
  regen : Bool := false
  alignT : Nat := 0
  pulseLen : Nat := 20
  gatesDue : Bool := false
  goodRun : Nat := 0
  readyRun : Nat := 0
  recatching : Bool := false
  pwmCfg : Nat := 0x146401
  vsns : Nat := 2000
  deriving DecidableEq, Repr, Inhabited

/-- The mechanics: the loop engine with its converters, the cam unit, the carriages and the spindle drive. -/
structure MotionState where
  started : Bool := false
  period : Nat := 0
  slots : List LoopSlot := List.replicate 32 {}
  pd1 : List Nat := List.replicate 48 0
  pd2 : List Nat := List.replicate 48 0
  defects : Nat := 0
  traces : List TraceIn := List.replicate 4 {}
  dacs : List Dac := List.replicate 20 {}
  sledTarget : List Int := [0, 0, 0, 0]
  vq : Int := 0
  vd : Int := 0
  cams : List CamSt := List.replicate 64 {}
  commit : Option Nat := none
  cars : List CarMotion := List.replicate 4 {}
  spn : SpnState := {}
  wedge0 : Nat := 0
  deriving DecidableEq, Repr, Inhabited

end Sys2Proof
end

