-- ==== Sys2Proof/TypesPair.lean ====
section
/-! DEFINITION. The plain data of the redundant pair (spec chapter 18). -/

namespace Sys2Proof

/-- What the owner mirrors and its partner acknowledges (Table 18-3); a journal entry is named by its acceptance
number, a skein by its key. -/
inductive MirrorItem where
  | journal (seq : Nat)
  | held (tag : Nat)
  | placed (key : Nat)
  | verified (key : Nat)
  | knot (vol seq : Nat)
  | passed (key : Nat)
  | replay (seq : Nat)
  | unit (u : Nat)
  | policy (id : Nat)
  deriving DecidableEq, Repr, Inhabited

/-- What the non-owner receives of the owner's state (Table 18-3): a block of held data, a skein with its placement, its
hanks and every carriage's frontier, a skein's verify outcome, a knot record formed, a skein whose knots passed verify, a
replay entry, a unit's entry, a policy value; and, in the copy of R538, a volume with its map and the knot stream state. -/
inductive MirrorData where
  | held (h : Held)
  | placed (k : Skein) (hanks : List HankPlace) (frontiers : List Nat)
  | verified (key : Nat) (members : List Verify)
  | knot (k : Knot)
  | passed (key : Nat)
  | replay (vol : Nat) (e : ReplayEntry)
  | unit (u : Nat) (e : UnitEntry) (acceptSeq : Nat)
  | policy (id : Nat) (v : Int)
  | volume (v : Nat) (x : Volume)
  | stream (d : DiscState)
  deriving DecidableEq, Repr, Inhabited

/-- Ownership states (Table 18-2). -/
inductive OwnState where
  | wait | follower | claiming | owner | handing
  deriving DecidableEq, Repr, Inhabited

/-- Why a device claims: the secondary's boot wait, a partner loss, or a handover (Table 18-2). -/
inductive ClaimWhy where
  | boot | loss | handover
  deriving DecidableEq, Repr, Inhabited

/-- The snapshot of a carriage in a heartbeat (R526). -/
structure CarSnap where
  p : Int
  angle : Nat
  strong : Bool
  st : MotionSt
  lf : Nat
  turn : Nat
  deriving DecidableEq, Repr, Inhabited

/-- What a heartbeat carries (R526): boot stage, ownership state, highest acceptance number acknowledged, and from an
owner the mechanics snapshot, with n̂ in 2^−24 rpm and the drive phase. -/
structure Heartbeat where
  stage : Nat
  own : OwnState
  acked : Nat
  cars : List CarSnap := []
  speed : Int := 0
  phase : SpnPhase := .stopped
  deriving DecidableEq, Repr, Inhabited

/-- A journal entry (R532): own says that the command came from this device's rings; taken, that the unit sequencer of
the owner had taken it; held, how many blocks of a write's data the partner holds or has held for it. -/
structure JournalEntry where
  seq : Nat
  own : Bool
  fn : Nat
  ring : Nat
  slot : Nat
  cmd : List Byte
  taken : Bool := false
  held : Nat := 0
  deriving DecidableEq, Repr, Inhabited

/-- A command forwarded over the link (R530, R531): of a ring, with the outcome of its step 1 (0 passed, else 1 above the
RESULT) and the data list or attribute record read for it, or of the partner's management path. -/
inductive Forwarded where
  | ring (fn ring slot one : Nat) (cmd : List Byte) (aux : Option (List Byte))
  | mgmt (i3c : Bool) (addr port reqId typ op unit code epoch : Nat)
  deriving DecidableEq, Repr, Inhabited

/-- The outcome of a forwarded command with its data (R531): status code, RESULT and FLAGS of the completion. -/
inductive ForwardOutcome where
  | ring (seq : Nat) (status : Status) (result : Nat) (replayed relocated : Bool) (step : Nat) (data : List Byte)
  | mgmt (i3c : Bool) (addr port reqId typ status : Nat) (payload : List Byte)
  deriving DecidableEq, Repr, Inhabited

/-- The pair side of the state. Times are deck times in ns. hello is the partner's hello: its role, image digest, deck
ID and boot stage (R525); fwd the tags of forwarded commands in the order of forwarding; lost says that the partner is
declared lost and no heartbeat has come since, lossAt when; resumed that commands taken over still wait for the mechanics
(R537); pulse that the 20 µs PEER_RESET_N pulse of R540 runs; snap the mechanics snapshot of the last heartbeat. -/
structure PairState where
  own : OwnState := .wait
  ownNet : Bool := true
  linkUp : Bool := false
  width : Nat := 0
  laneOk : Nat := 0
  frameTries : Nat := 0
  hello : Option (Nat × List Word × Nat × Nat) := none
  conflict : Bool := false
  hbEver : Bool := false
  lastHb : Nat := 0
  lost : Bool := false
  suspended : Bool := false
  syncing : Bool := false
  detached : Bool := false
  ackedSeq : Nat := 0
  unacked : List MirrorItem := []
  settling : Bool := false
  lossAt : Nat := 0
  claimWhy : ClaimWhy := .boot
  pulse : Bool := false
  resumed : Bool := false
  fwd : List Nat := []
  journal : List JournalEntry := []
  snapCars : List CarSnap := []
  snapSpeed : Int := 0
  snapPhase : SpnPhase := .stopped
  lostLines : List (Nat × Nat × Nat) := []
  deriving DecidableEq, Repr, Inhabited

end Sys2Proof
end

