-- ==== Sys2Proof/TypesRead.lean ====
section
/-! DEFINITION. The plain data of the read channel and of the decoder pool (spec chapters 04 and 05). -/

namespace Sys2Proof

/-- A sync candidate (R147): its position relative to slot bit 0, its agreement and its score. -/
structure Cand where
  pos : Int
  agree : Nat
  score : Int
  deriving DecidableEq, Repr, Inhabited

/-- A replay record (Table 04-7): its header fields, its erasure spans as (first, length) in stream positions, and its
samples, the stage 7 outputs from stream position −32 on. -/
structure ReplayRec where
  valid : Bool := false
  pinned : Bool := false
  lf : Nat := 0
  zone : Nat := 0
  slot : Nat := 0
  blank : Bool := false
  relaxed : Bool := false
  noSync : Bool := false
  timingLost : Bool := false
  acqRestart : Bool := false
  wedge : Bool := false
  anchor : Int := 320
  cands : List Cand := []
  mse : Nat := 0
  runs : List (Nat × Nat) := []
  stamp : Nat := 0
  samples : List Int := []
  deriving DecidableEq, Repr, Inhabited

/-- What stages 1 to 6 of a strand saw over one slot: the envelopes (top, bottom) of every 16 channel bits with whether
timing was in acquisition or resume (R123, R124); the timing error of every bit in 2^−24 of a bit period, with the
same flag (R127); the stage 6 samples and the two neighbours' stage 7 outputs from stream position −64 on; Aref at the
slot's end; a preamble period boundary as measured at the end of acquisition (R148); and the stage 9 LLRs about the
sync mark from stream position 256 on (R147). -/
structure SlotPass where
  env : List (Int × Int × Bool) := []
  terr : List (Int × Bool) := []
  x : List Int := []
  yL : List Int := []
  yR : List Int := []
  aref : Nat := 0
  phase : Int := 0
  syncLlr : List Int := []
  deriving DecidableEq, Repr, Inhabited

/-- What a strand measured at a wedge whose sync pattern it found (R143, R144): leg times in 1/32 WU and the address
field as read. -/
structure WedgeMeas where
  t1 : Option Nat
  t2 : Option Nat
  addr : Nat
  deriving DecidableEq, Repr, Inhabited

/-- Where a zone seed came from (CHN_ZONE.SEED_SRC). -/
inductive SeedSrc where
  | image | mram | rom | none
  deriving DecidableEq, Repr, Inhabited

/-- A zone's seed block as the zone table holds it (R137): eight seeds of 64 bytes, each with its source. -/
structure ZoneBlock where
  src : SeedSrc := .none
  bytes : List Byte := []
  deriving DecidableEq, Repr, Inhabited

/-- A ply's seed fetch (R137): the zone asked for, and whether its block has come. -/
structure SeedFetch where
  lf : Nat
  zone : Nat
  block : Option ZoneBlock := none
  deriving DecidableEq, Repr, Inhabited

/-- A strand channel (chapter 04). cfg holds the CHN fields as sampled at preamble bit 0 (R121); runs the erasure spans
of the present slot; revFound and lastRev the wedges found in this and in the last revolution. -/
structure StrandSt where
  cur : Option (Nat × Nat × Nat) := none
  inZone : Option (Nat × Nat) := none
  zoneSrc : SeedSrc := .none
  seed : List Byte := []
  cfg : List Word := []
  skip : Bool := false
  timingLost : Bool := false
  blank : Bool := false
  defect : Bool := false
  spanFrom : Nat := 0
  runs : List (Nat × Nat) := []
  held : Bool := false
  acqRestart : Bool := false
  wedgeIn : Bool := false
  forceMiss : Bool := false
  forceDefect : Bool := false
  missNow : Bool := false
  defectNow : Bool := false
  recDone : Bool := false
  records : List ReplayRec := [{}, {}, {}, {}]
  recNow : Nat := 0
  wedgeLock : Bool := false
  posValid : Bool := false
  lastP : Option Nat := none
  lastRho : Int := 0
  noPos : Nat := 0
  revFound : Nat := 0
  lastRev : Nat := 0
  missRevs : Nat := 0
  deriving DecidableEq, Repr, Inhabited

/-- The channel side of the state; fetch is one per ply. -/
structure ChannelState where
  strands : List StrandSt := List.replicate 32 {}
  fetch : List (Option SeedFetch) := [none, none, none, none]
  zoneTable : Tbl ZoneBlock := []
  importMode : Bool := false
  deriving DecidableEq, Repr, Inhabited

/-- What a member read serves beside commands (R170, R177, R181, R184, R202). -/
inductive ReadFor where
  | member
  | verify (key member : Nat)
  | assist
  | combine (ladder member : Nat)
  deriving DecidableEq, Repr, Inhabited

/-- The class of a pool job (Table 05-1). -/
inductive JobKind where
  | first | verify | recovery
  deriving DecidableEq, Repr, Inhabited

/-- How a re-detect unit forms the samples of a detection (Table 05-2, DEC_REDET_STATUS.MODE). -/
inductive RedetMode where
  | fixed | sample | assisted
  deriving DecidableEq, Repr, Inhabited

/-- A sector delivered to the pool (R149), or a step of its recovery: one job. skein is the SKEIN number that the
request expects. mode says that a re-detect unit has the next part, at body position body; chan holds the codeword's
channel LLRs, msgs and post what the engine retains (R162, R163), iter the inner iterations of the present global.
trial marks an early-failure-checked trial. -/
structure PoolJob where
  id : Nat
  kind : JobKind
  step : Nat := 0
  strand : Nat
  addr : Nat
  lf : Nat
  zone : Nat
  slot : Nat
  skein : Option Nat := none
  seq : Option Nat := none
  deadline : Nat
  forRead : ReadFor
  ladder : Option Nat := none
  cands : List Cand := []
  body : Int := 384
  glob : Nat := 1
  trial : Bool := false
  noSync : Bool := false
  checkEf : Bool := true
  mode : Option RedetMode := none
  adapted : Option RedetMode := none
  blank : Bool := false
  erased : Nat := 0
  mse : Nat := 0
  bodyLlr : List Int := []
  chan : List Int := []
  msgs : List (List Int) := []
  post : List Int := []
  iter : Nat := 0
  maxIter : Nat := 0
  deriving DecidableEq, Repr, Inhabited

/-- What an engine found by the end of a job (R162 to R165): inner iterations run in the present global, whether the
syndrome is zero, the unsatisfied checks after iterations 1 and 2, whether the early-failure check ended it, the
differing hard decisions, the descrambled payload, and what the engine retains. -/
structure Decode where
  iters : Nat
  zeroSyndrome : Bool
  unsat1 : Nat := 0
  unsat2 : Nat := 0
  early : Bool := false
  hdiff : Nat := 0
  payload : List Byte := []
  msgs : List (List Int) := []
  post : List Int := []
  deriving DecidableEq, Repr, Inhabited

/-- The outcome of a pass (R164, R165, R170). -/
inductive PassOutcome where
  | decoded | earlyFail | failed | miscorrected | mismatched
  deriving DecidableEq, Repr, Inhabited

/-- A member under soft combining (R177): the body taken from each read so far; settled once its outcome is known. -/
structure Comb where
  member : Nat
  bodies : List (List Int) := []
  settled : Bool := false
  deriving DecidableEq, Repr, Inhabited

/-- A member's ladder (R172 to R179). member is its number in the skein, place the skein's placement. reads counts the
re-reads of the present step, trials the positions still to try, waiting says that a re-read is awaited; recons are the
reconstructions that it reads for, relocs that a relocation does; reconId is the reconstruction that it waits for, combine
what it combines at L6. -/
structure Ladder where
  id : Nat
  addr : Nat
  skein : Nat
  member : Nat
  place : List Nat
  step : Nat := 0
  media : Nat := 0
  recovered : Nat := 0
  byState : Bool := false
  reads : Nat := 0
  waiting : Bool := false
  pinned : Bool := false
  trials : List Int := []
  tags : List Nat := []
  recons : List Nat := []
  relocs : List Nat := []
  rounds : Nat := 0
  reconId : Option Nat := none
  since : Nat := 0
  cands : List Cand := []
  combine : List Comb := []
  deriving DecidableEq, Repr, Inhabited

/-- A sibling's standing in a reconstruction (R181). -/
inductive Sibling where
  | pending | erased
  | got (data : List Byte)
  deriving DecidableEq, Repr, Inhabited

/-- A reconstruction of a skein (R180, R181): a job of the skein engines once every sibling is settled. -/
structure Recon where
  id : Nat
  skein : Nat
  place : List Nat
  target : Nat
  ladder : Nat
  seq : Option Nat
  members : List Sibling
  ready : Bool := false
  r173 : Bool := false
  deriving DecidableEq, Repr, Inhabited

/-- What a skein engine works on (R20, R180). -/
inductive EngineJob where
  | parity (skein : Nat)
  | recon (id : Nat)
  deriving DecidableEq, Repr, Inhabited

/-- A decoded member in the cache: its logical data, its metadata and the steps recorded (R175). -/
structure CachedMember where
  data : List Byte
  meta_ : List Byte
  media : Nat
  recovered : Nat
  deriving DecidableEq, Repr, Inhabited

/-- What the import decoder made of an ECC cluster (R191): its 32 sectors, an uncorrectable cluster, or a blank one. -/
inductive ClusterResult where
  | good (sectors : List (List Byte))
  | uncorrectable
  | blank
  deriving DecidableEq, Repr, Inhabited

/-- An import disc (R188 to R192); tries counts the reads of a cluster beyond the first, by layer and cluster. -/
structure ImportDisc where
  active : Bool := false
  typ : Nat := 0
  layers : Nat := 0
  reach : List Nat := []
  tries : List (Nat × Nat × Nat) := []
  deriving DecidableEq, Repr, Inhabited

/-- The decoder pool, the ladders, the skein engines and relocation (chapter 05). cached is keyed by skein × 16 +
member; weak counts L2 successes per skein, oldest update first;
assists are the decoded payloads of assist reads, by address. -/
structure PoolState where
  engines : List (Option PoolJob) := List.replicate 12 none
  redets : List (Option PoolJob) := List.replicate 8 none
  bufs : Nat := 0
  waiting : List PoolJob := []
  nextJob : Nat := 1
  ladders : List Ladder := []
  recons : List Recon := []
  nextId : Nat := 1
  sengs : List (Option EngineJob) := [none, none]
  sengQueue : List EngineJob := []
  engDead : Nat := 0
  redetDead : Nat := 0
  sengDead : Nat := 0
  cached : Tbl (Option CachedMember) := []
  weak : List (Nat × Nat) := []
  assists : List (Nat × List Byte) := []
  l4 : Option Nat := none
  l4Ready : Bool := false
  disc : ImportDisc := {}
  deriving DecidableEq, Repr, Inhabited

end Sys2Proof
end

