-- ==== Sys2Proof/Syntax.lean ====
section
/-! DEFINITION. The commands of the block: one constructor per row of the opcode table: the commands with operands
first (Lean compiles operands of the first 244 constructors alone), then the others, each in the table's order. Operands are
the values that a bus carries with the command, or what the outside world answers in the step that the row names. -/

namespace Sys2Proof

/-- The commands. -/
inductive Instr where
  -- with operands: power, clocks, resets and boot (chapters 15, 01, 20)
  | resetNRise (straps : Nat)
  | softWarmReset (v : Word) (same : Bool)
  | romCheckDone (ok : Bool)
  | flashReadComplete (fast : Bool) (hdrA hdrB : List Byte) (bytes : Option (List Byte))
  | pairImageReceived (bytes : List Byte)
  | bistDone (fails : List (Nat × Nat))
  | ddrTrainingDone (ok0 ok1 : Bool) (org0 org1 : Nat)
  | bringupDone (ownHigh : Bool)
  | arm (answers : List Bool)
  | xtalPpmMeasure (v : Int)
  | pwrfailAssert (t5 t6 : Nat) (same : Bool)
  | thermalSensorRead (temps : List Int)
  -- with operands: the configuration image and the mount (chapters 02 and 03)
  | fetchReadComplete (bytes : Option (List Byte))
  | apply (key : Nat)
  | progA (key : Nat)
  | progB (key : Nat)
  | progComplete (same : Bool)
  | burnKey (key : Nat)
  | burnEnforce (key : Nat)
  | burnNorom (key : Nat)
  | burnRevoke (key n : Nat)
  | mountStepDone (d : MountData)
  | importIdentify (found : Option (Nat × List Nat))
  -- with operands: the read channel, the decoder pool and recovery (chapters 04 and 05)
  | slotStart (g lf zone slot pre : Nat) (prev : SlotPass)
  | zoneSeedFetch (c lf zone : Nat)
  | zoneSeedReady (c : Nat)
  | timingLost (g pos : Nat)
  | segmentEnd (g : Nat)
  | wedgeCrossing (g w ivl : Nat) (m : Option WedgeMeas)
  | wedgeMissRev (g : Nat)
  | defectFlagStart (g pos : Nat)
  | defectFlagEnd (g pos : Nat)
  | sectorDelivery (g addr : Nat) (pass : SlotPass)
  | chnForceSyncMiss (g : Nat)
  | chnForceDefect (g : Nat)
  | poolJobDispatch (redet : Bool) (idx : Nat)
  | poolJobComplete (redet : Bool) (idx : Nat)
  | skeinEngineComplete (n : Nat)
  | importClusterDecode (layer cluster : Nat) (res : ClusterResult)
  | decPauseRecovery (on : Bool)
  | decForceEf (on : Bool)
  | relocPause (on : Bool)
  -- with operands: the write path and the hank coder (chapters 06 and 07)
  | knotIntervalExpiry (buf : Option Nat)
  | passStart (c : Nat)
  | preRead (c : Nat) (written : Option (Nat × Nat))
  | passWriteEnd (c : Nat)
  | verifyRevolutionEnd (c : Nat)
  | pdlFrame (c resp : Nat)
  | drvStatusPoll (c st : Nat)
  | wrpPdlCmd (c : Nat) (frame : Word)
  | writeInhibit (on : Bool)
  | knotReady (elapsed : List Nat)
  | knotVerified (key : Nat)
  | hankDispatch (n : Nat)
  | hankCodeComplete (n : Nat) (sound : Bool)
  | hankDecompressComplete (n : Nat) (sound : Bool)
  | hankRestore (n : Nat)
  | hankRestoreDone (n : Nat) (pass : Bool)
  | hankForceMismatch (on : Bool)
  -- with operands: the loop engine, the spindle, the carriages and the cams (chapters 08 to 10)
  | basePeriod (volts : List Int) (parity : List (Nat × Bool))
  | loopOverrun (k : Nat)
  | loopLostLock (k : Nat)
  | loopFault (k : Nat)
  | carriageReacquireTimeout (c : Nat)
  | loopEnable (k : Nat)
  | loopDisable (k : Nat)
  | loopSwap (k : Nat)
  | loopPark (k : Nat)
  | loopClrFault (k : Nat)
  | loopFollow (k : Nat) (on : Bool)
  | coefDataAccess (k : Nat) (write : Option Word)
  | lpeForceOvr (k : Nat) (on : Bool)
  | traceInEdge (n cycles : Nat) (dirHigh : Bool)
  | traceLost (n : Nat)
  | pwmTop (pinMv : Nat)
  | pwmCentre (cu cv cw : Nat)
  | spnComparatorEdge (ph : Nat) (rising : Bool)
  | alignDone (ampD ampQ peakP peakN : Nat)
  | rateMatchCompute (d c ahead : Nat)
  | sledPwmSample (c code1 code2 : Nat)
  | profileTick (c : Nat)
  | stepTimerExpiry (c : Nat)
  | homeEdge (c : Nat) (active : Bool)
  | homingFail (c : Nat)
  | seekRequest (c lf turn : Nat)
  | seekSettleDone (c : Nat)
  | capture (c : Nat)
  | captureTimeout (c : Nat)
  | fineDone (c : Nat)
  | layerJumpDone (c : Nat)
  | turnJumpDone (c : Nat)
  | crgCmdSeek (c lf turn : Nat)
  | crgCmdHome (c : Nat)
  | crgCmdMove (c : Nat)
  | crgClrFault (c : Nat)
  | crgForceSlip (c : Nat)
  | camCommit (v : Word)
  | camEngage (t : Nat) (on : Bool)
  | camTimeReset (t : Nat)
  | camPtDataAccess (write : Option Word)
  -- with operands: the rings, the host commands and the requests of the unit path (chapters 11, 12, 16, 17)
  | doorbell (f off size v : Nat)
  | contextLoadComplete (r : Nat) (desc : Option (List Byte))
  | ringInvalidate (f r : Nat)
  | ringInvalidateDone (r : Nat)
  | ringQuery (f r : Nat)
  | grant (b aux : Option (List Byte))
  | nop (t : Nat)
  | read (t : Nat)
  | write (t : Nat)
  | flush (t : Nat)
  | abort (t : Nat)
  | volumeCreate (t : Nat)
  | volumeClose (t : Nat)
  | importRead (t : Nat)
  | assertPresent (answers : Bool)
  | assertAbsent (answers : Bool)
  | drainComplete (u : Nat)
  | calibrationEnd (u : Nat) (d : CalData)
  | calibrationTimeout (u : Nat)
  | commandRun (t : Nat)
  | writeHeldPoint (t : Nat) (data : Option (List Byte))
  | suspectHoldExpiry (t : Nat)
  | lockWaitLong (t : Nat)
  | completionPost (r : Nat)
  | coalesceTimerExpiry (r : Nat)
  | msixUnmask (f : Nat) (v : Option Nat)
  | flr (f : Nat)
  | flrEnd (f : Nat)
  -- with operands: the buffer cache, the buffer memory, the MRAM and the disc sensors (chapters 13, 14, 17)
  | cacheRequest (r : CacheReq) (issued : List Nat) (walked : Nat) (tags : List Nat) (err : Option CacheErr)
  | fillBeat (l beat : Nat)
  | writebackComplete (l : Nat)
  | cacheClean (force whole : Bool)
  | cacheCleanInv (force whole : Bool)
  | cacheUnlock (all_ : Bool)
  | bar2Access (off len : Nat) (write : Option (List (Option Byte))) (bad : Bool)
  | memoryReadReturn (port addr lanes replays : Nat) (persists : Bool) (use : LineUse) (bad : Bool)
  | parityRepair (rereadOk written : Bool)
  | refreshDue (urgent idle : Bool)
  | dramTempPoll (hot : Bool)
  | mramWriteDone (same : Bool)
  | discPresentChange (active : Bool) (carts : List Bool)
  -- with operands: the management port, I3C, PTP and the event log (chapter 17)
  | dmpDiscover (m : MsgFrom) (reqId : Nat) (zero : Bool)
  | dmpUnitQuery (m : MsgFrom) (reqId u : Nat)
  | dmpUnitRequest (m : MsgFrom) (reqId u code epoch : Nat)
  | dmpCalibrate (m : MsgFrom) (reqId u code scope : Nat)
  | dmpSelfTest (m : MsgFrom) (reqId u code scope : Nat)
  | dmpVolumeInfo (m : MsgFrom) (reqId v : Nat)
  | policyGet (m : MsgFrom) (reqId id : Nat)
  | policySet (m : MsgFrom) (reqId id : Nat) (v : Int)
  | netSet (m : MsgFrom) (reqId : Nat) (b : List Byte)
  | regRead (m : MsgFrom) (reqId off count : Nat)
  | eventSubscribe (m : MsgFrom) (reqId mask fromSeq : Nat)
  | subscriberExpiry (a q : Nat)
  | eventRead (m : MsgFrom) (reqId fromSeq count : Nat)
  | imageBegin (m : MsgFrom) (reqId size : Nat)
  | imageData (m : MsgFrom) (reqId off : Nat) (b : List Byte)
  | imageEnd (m : MsgFrom) (reqId : Nat)
  | imageCmd (m : MsgFrom) (reqId cmd : Nat)
  | dmpDuplicateExpiry (a q reqId : Nat)
  | i3cPrivateWrite (b : List Byte)
  | enec (events : Nat)
  | disec (events : Nat)
  | entdaa (a : Nat)
  | setdasa (static a : Nat)
  | setmwl (n : Nat)
  | setmrl (n : Nat)
  | ptpSync (ofs : Int)
  | mgtLogRdWrite (v : Nat)
  -- with operands: the redundant pair (chapter 18)
  | linkTrainDone (lanes : Nat)
  | laneError (lane : Nat)
  | jokorFrame (ok : Bool)
  | pairHello (role : Nat) (digest : List Word) (deck stg : Nat) (wants ownHigh : Bool)
  | heartbeatReceive (h : Heartbeat)
  | bootWaitExpiry (ownHigh : Bool)
  | ownNetHigh (late : Bool) (outUs : Nat)
  | handover (key : Nat)
  | peerReset (key : Nat)
  | forwardedCommand (f : Forwarded)
  | journalEntry (e : JournalEntry)
  | journalAck (seq : Nat)
  | forwardResult (o : ForwardOutcome)
  | mirrorReceive (d : MirrorData)
  | mirrorAck (m : MirrorItem)
  | pairApplyValidated (code : Nat) (bytes : List Byte)
  -- with operands: the TAP, the register accesses, the configuration space and the outside events of the ports (chapters 19, 20, 15, 17, 08)
  | regacc (w : BitVec 58)
  | samplePreload (sampled : Nat) (cells : List Bool)
  | bypass (code : Nat)
  | registerWrite (f off size v : Nat)
  | rcCounterRead (f off size : Nat)
  | reg64LoRead (f off size : Nat)
  | configurationRequest (f : Nat) (q : ConfigReq)
  | sgmiiLinkChange (up : Bool)
  | addrChange (v6 : Bool) (a : List Byte)
  | ownerLinkWaitExpiry (ownHigh : Bool)
  | dmpMessageDropped (a q : Nat) (b : List Byte)
  | servoConversionSlot (m : Nat) (codes : List Nat)
  -- without: power, clocks, resets and boot (chapters 15, 01, 20)
  | coldReset
  | railFail
  | railsGood
  | internalHoldEnd
  | pllLock
  | resetNAssert
  | clockLoss
  | clockRelock
  | pairFollowTimeout
  | runEntry
  | perstNAssert
  | perstNRelease
  | pcieRefLost
  | pwrfailRecover
  | policyWatchdogExpiry
  | watchdogRestartRequest
  | thermalCeilingStep
  -- without: the configuration image and the mount (chapters 02 and 03)
  | fetch
  | quiesce
  | quiesceComplete
  | resume
  | mountStart
  | mountComplete
  -- without: the read channel, the decoder pool and recovery (chapters 04 and 05)
  | l4SpeedReached
  -- without: the write path and the hank coder (chapters 06 and 07)
  | retryHeld
  | laserIlkAssert
  | interlockRelease
  -- without: the loop engine, the spindle, the carriages and the cams (chapters 08 to 10)
  | loopOutputWrite
  | rotorLoss
  | spnStart
  | spnStop
  | spnClrFault
  | spnForceLoss
  | coastSenseDone
  | catchMade
  | catchTimeout
  | brakeDone
  | brakeTimeout
  | runupDone
  | runupTimeout
  | spindleReady
  | lockedRotor
  | lockedWaitDone
  | recatchOk
  | recatchTimeout
  | stoppingDone
  -- without: the rings, the host commands and the requests of the unit path (chapters 11, 12, 16, 17)
  | contextFreed
  | uTokenRefill
  | volumeInfo
  | unitQuery
  | unitRequestOffline
  | unitRequestReady
  | unitRequestService
  | bufferChannelServiceReady
  | calibrateChannel
  | calibrateServoLayer
  | calibrateServoRadius
  | calibrateWritePower
  | calibrateSledHome
  | calibrateSpindle
  | selfTestParity
  | selfTestMram
  | selfTestMemBist
  | calForceCheckerFail
  | writeBehindSpace
  | genLookup
  | replayClear
  -- without: the buffer cache, the buffer memory, the MRAM and the disc sensors (chapters 13, 14, 17)
  | invDone
  | cacheLock
  | cacheDisable
  | cacheCleaningDone
  | cacheEnable
  | bcForceDataParity
  | bcForceTwinParity
  | pointChangeBegin
  | pointChangeDrained
  | scrubRead
  | scrubRestart
  | intForceParity
  | mramRecordWrite
  | countersSaveHourly
  -- without: the management port, I3C, PTP and the event log (chapter 17)
  | netSetApply
  | i3cPrivateRead
  | rstdaa
  | getpid
  | getbcr
  | getdcr
  | getstatus
  | getmwl
  | getmrl
  -- without: the redundant pair (chapter 18)
  | linkTrainRetry
  | heartbeatSend
  | partnerLost
  | claimTimeout
  | peerResetRelease
  | handoverMessage
  | handoverAck
  | handoverTimeout
  | peerResetEnd
  | pairSettleEnd
  | partnerDetach
  | resyncComplete
  | pairApplyWaitEnd
  -- without: the TAP, the register accesses, the configuration space and the outside events of the ports (chapters 19, 20, 15, 17, 08)
  | extest
  | idcode
  | highz
  | clamp
  | extestPulse
  | extestTrain
  | pcieRefPresent
  | ptpLost
  | dacUpdate
  deriving DecidableEq, Repr

end Sys2Proof
end

