-- ==== Sys2Proof/Machine/Tbl.lean ====
section
/-! DEFINITION. Sparse tables in canonical form, little-endian byte strings, bit fields, and CRC-32C (R8, R9). -/

namespace Sys2Proof.Machine

/-- The value at key k; d is what an unlisted key reads as. -/
def Tbl.get {α : Type} (d : α) (k : Nat) : Tbl α → α
  | [] => d
  | (j, v) :: m => if j = k then v else Tbl.get d k m

/-- The table without key k. -/
def Tbl.erase {α : Type} (k : Nat) (m : Tbl α) : Tbl α := m.filter (fun e => decide (e.1 ≠ k))

/-- The table with v at key k, kept in rising order. -/
def Tbl.ins {α : Type} (k : Nat) (v : α) : Tbl α → Tbl α
  | [] => [(k, v)]
  | (j, w) :: m =>
    if j = k then (k, v) :: m else if k < j then (k, v) :: (j, w) :: m else (j, w) :: Tbl.ins k v m

/-- Writes v at key k: the entry goes where v is what an unlisted key reads as. -/
def Tbl.put {α : Type} [DecidableEq α] (d : α) (k : Nat) (v : α) (m : Tbl α) : Tbl α :=
  if v = d then Tbl.erase k m else Tbl.ins k v m

/-- Keys strictly above b, and rising. -/
def Tbl.above {α : Type} (b : Nat) : Tbl α → Bool
  | [] => true
  | (k, _) :: m => decide (b < k) && Tbl.above k m

/-- Keys strictly rising. -/
def Tbl.sorted {α : Type} : Tbl α → Bool
  | [] => true
  | (k, _) :: m => Tbl.above k m

/-- The canonical form: keys strictly rising and no entry equal to what its key reads as when unlisted. -/
def Tbl.wf {α : Type} [DecidableEq α] (d : Nat → α) (m : Tbl α) : Bool :=
  Tbl.sorted m && m.all (fun e => decide (e.2 ≠ d e.1))

/-- The canonical form of a byte memory, whose unlisted addresses read as 0. -/
def Memory.wf (m : Tbl Byte) : Bool := Tbl.wf (fun _ => 0#8) m

/-- The value of n bits of x from bit lo up. -/
def bits (x lo n : Nat) : Nat := (x >>> lo) % 2 ^ n

/-- Bit i of x. -/
def bit (x i : Nat) : Bool := x.testBit i

/-- A number of n bits taken as signed (two's complement). -/
def signed (n x : Nat) : Int := if x % 2 ^ n < 2 ^ (n - 1) then (x % 2 ^ n : Nat) else (x % 2 ^ n : Nat) - (2 ^ n : Nat)

/-- The n-bit two's complement code of an integer. -/
def unsigned (n : Nat) (x : Int) : Nat := (x % (2 ^ n : Nat)).toNat

/-- x held between lo and hi. -/
def clampI (lo hi x : Int) : Int := if x < lo then lo else if hi < x then hi else x

/-- The n little-endian bytes of x (R8). -/
def leBytes : Nat → Nat → List Byte
  | 0, _ => []
  | n + 1, x => BitVec.ofNat 8 x :: leBytes n (x / 256)

/-- The number that little-endian bytes spell (R8). -/
def leNat : List Byte → Nat
  | [] => 0
  | b :: bs => b.toNat + 256 * leNat bs

/-- n bytes from offset o, zeros beyond the end. -/
def slice (bs : List Byte) (o n : Nat) : List Byte :=
  let got := (bs.drop o).take n
  got ++ List.replicate (n - got.length) 0

/-- The little-endian number of n bytes at offset o. -/
def leAt (bs : List Byte) (o n : Nat) : Nat := leNat ((bs.drop o).take n)

/-- Replaces the bytes at offset o by bs', extending with zeros where needed. -/
def patch (bs : List Byte) (o : Nat) (bs' : List Byte) : List Byte :=
  let front := bs.take o
  front ++ List.replicate (o - front.length) 0 ++ bs' ++ bs.drop (o + bs'.length)

/-- One bit step of the reflected CRC-32C (R9): polynomial 0x1EDC_6F41, reflected 0x82F6_3B78. -/
def crcBit (c : BitVec 32) : BitVec 32 := if c.getLsbD 0 then (c >>> 1) ^^^ 0x82F63B78#32 else c >>> 1

/-- n bit steps. -/
def crcBits : Nat → BitVec 32 → BitVec 32
  | 0, c => c
  | n + 1, c => crcBits n (crcBit c)

/-- The CRC register after the bytes bs. -/
def crcRun (c : BitVec 32) : List Byte → BitVec 32
  | [] => c
  | b :: bs => crcRun (crcBits 8 (c ^^^ b.zeroExtend 32)) bs

/-- CRC-32C (R9): initial value and final XOR 0xFFFF_FFFF. -/
def crc32c (bs : List Byte) : Nat := (crcRun 0xFFFFFFFF#32 bs ^^^ 0xFFFFFFFF#32).toNat

/-- Set-like insertion of a number. -/
def addNat (n : Nat) (l : List Nat) : List Nat := if l.contains n then l else l ++ [n]

/-- The list with the element at index i changed by f. -/
def modAt {α : Type} (i : Nat) (f : α → α) : List α → List α
  | [] => []
  | x :: xs => match i with
    | 0 => f x :: xs
    | j + 1 => x :: modAt j f xs

end Sys2Proof.Machine
end

