-- ==== Sys2Proof/Machine/Deflate.lean ====
section
/-! DEFINITION. The hank coder and decompressor (R226 to R231, R241): the matcher, the static and dynamic blocks of
RFC 1951, the stored form, the trailer, and the checked decompression. -/

namespace Sys2Proof.Machine

/-! ### Symbols -/

/-- A symbol of the matcher. -/
inductive Sym where
  | lit (b : Nat)
  | mat (len dist : Nat)
  deriving DecidableEq, Repr, Inhabited

/-- The base and extra bits of length codes 257 to 285 and of distance codes 0 to 29 (RFC 1951). -/
def lenCode (i : Nat) : Nat × Nat :=
  if i < 8 then (3 + i, 0) else if i = 28 then (258, 0)
  else let e := (i - 4) / 4; (3 + (4 + i % 4) * 2 ^ e, e)
def distCode (i : Nat) : Nat × Nat :=
  if i < 4 then (1 + i, 0) else let e := (i - 2) / 2; (1 + (2 + i % 2) * 2 ^ e, e)

/-- The code index of a length and of a distance: the last one whose base does not exceed it. -/
def lenIndex (n : Nat) : Nat := ((List.range 29).filter (fun i => (lenCode i).1 ≤ n)).getLastD 0
def distIndex (d : Nat) : Nat := ((List.range 30).filter (fun i => (distCode i).1 ≤ d)).getLastD 0

/-! ### Matcher (R228) -/

/-- CHAIN, NICE and the lazy step of a level (Table 07-2). -/
def levelParams (lv : Nat) : Nat × Nat × Bool :=
  if lv ≤ 1 then (4, 16, false) else if lv = 2 then (16, 64, true) else if lv = 3 then (64, 128, true) else (256, 258, true)

/-- The matcher's tables: head by hash and prev by position mod 32,768; none is empty. -/
structure Match where
  head : Array (Option Nat)
  prev : Array (Option Nat)

/-- h(p) of R228. -/
def hashAt (b : Array Nat) (p : Nat) : Nat :=
  ((b.getD p 0 * 1024) ^^^ (b.getD (p + 1) 0 * 32) ^^^ b.getD (p + 2) 0) % 32768

/-- Inserts a position. -/
def insertPos (b : Array Nat) (n q : Nat) (m : Match) : Match :=
  if q + 2 < n then
    let h := hashAt b q
    { prev := m.prev.setIfInBounds (q % 32768) (m.head.getD h none), head := m.head.setIfInBounds h (some q) }
  else m

/-- Equal bytes from q and p, up to k. -/
def runLen (b : Array Nat) (q p : Nat) : Nat → Nat
  | 0 => 0
  | k + 1 => if b.getD q 0 = b.getD p 0 then 1 + runLen b (q + 1) (p + 1) k else 0

/-- The chain walk of longest(p). -/
def walk (b : Array Nat) (n p nice : Nat) (m : Match) : Nat → Option Nat → Nat × Nat → Nat × Nat
  | 0, _, best => best
  | k + 1, q, best =>
    match q with
    | none => best
    | some q =>
      if 32768 < p - q then best
      else
        let l := runLen b q p (min 258 (n - p))
        let best := if 3 ≤ l ∧ best.1 < l then (l, p - q) else best
        if nice ≤ best.1 then best else walk b n p nice m k (m.prev.getD (q % 32768) none) best

/-- longest(p) of R228. -/
def longest (b : Array Nat) (n p chain nice : Nat) (m : Match) : Nat × Nat :=
  if n ≤ p + 2 then (0, 0) else walk b n p nice m chain (m.head.getD (hashAt b p) none) (0, 0)

/-- Inserts k positions from p on. -/
def insertRun (b : Array Nat) (n : Nat) : Nat → Nat → Match → Match
  | 0, _, m => m
  | k + 1, p, m => insertRun b n k (p + 1) (insertPos b n p m)

/-- The symbols from p on (R228). -/
def matchFrom (b : Array Nat) (n chain nice : Nat) (lazy_ : Bool) : Nat → Nat → Match → List Sym
  | 0, _, _ => []
  | f + 1, p, m =>
    if n ≤ p then []
    else
      let r := longest b n p chain nice m
      let defer := decide (3 ≤ r.1) && lazy_ && decide (r.1 < nice) && decide (r.1 < (longest b n (p + 1) chain nice m).1)
      if 3 ≤ r.1 ∧ !defer then
        .mat r.1 r.2 :: matchFrom b n chain nice lazy_ f (p + r.1) (insertRun b n r.1 p m)
      else .lit (b.getD p 0) :: matchFrom b n chain nice lazy_ f (p + 1) (insertPos b n p m)

/-- The symbols of a hank at a level. -/
def symbols (level : Nat) (bs : List Byte) : List Sym :=
  let b := (bs.map (·.toNat)).toArray
  let (chain, nice, lz) := levelParams level
  matchFrom b b.size chain nice lz b.size 0 { head := Array.replicate 32768 none, prev := Array.replicate 32768 none }

/-! ### Codes -/

/-- The n bits of x, least significant first. -/
def bitsLsb : Nat → Nat → List Bool
  | 0, _ => []
  | n + 1, x => (x % 2 == 1) :: bitsLsb n (x / 2)

/-- Canonical codes of RFC 1951 from code lengths, each as bits from the most significant down. -/
def canonical (lens : List Nat) : List (List Bool) :=
  let count (l : Nat) := (lens.filter (· = l)).length
  let start : Nat → Nat := fun l => (List.range l).foldl (fun c k => if k = 0 then 0 else 2 * (c + count k)) 0
  let rec go : Nat → List Nat → List Nat → List (List Bool)
    | _, _, [] => []
    | i, seen, l :: ls =>
      (if l = 0 then [] else (bitsLsb l (start l + seen.getD l 0)).reverse) ::
        go (i + 1) (modAt l (· + 1) seen) ls
  go 0 (List.replicate 16 0) lens

/-- The lengths of the fixed literal and distance codes. -/
def fixedLit : List Nat := List.replicate 144 8 ++ List.replicate 112 9 ++ List.replicate 24 7 ++ List.replicate 8 8
def fixedDist : List Nat := List.replicate 30 5

/-- The literal/length symbol, its extra bits, the distance code and its extra bits of a symbol. -/
def symParts : Sym → Nat × List Bool × Option (Nat × List Bool)
  | .lit b => (b, [], none)
  | .mat n d =>
    let li := lenIndex n
    let di := distIndex d
    (257 + li, bitsLsb (lenCode li).2 (n - (lenCode li).1), some (di, bitsLsb (distCode di).2 (d - (distCode di).1)))

/-- The bits of the symbols and of the end of the block under two codes. -/
def codeSyms (lit dist : List (List Bool)) (ss : List Sym) : List Bool :=
  let la := lit.toArray
  let da := dist.toArray
  ss.flatMap (fun s =>
    let (a, ex, d) := symParts s
    la.getD a [] ++ ex ++ (match d with | some (c, e) => da.getD c [] ++ e | none => [])) ++ la.getD 256 []

/-- Frequencies of n symbols, step 2 of R230 applied. -/
def fixFreq (f : List Nat) : List Nat :=
  let need := 2 - min 2 (f.filter (· ≠ 0)).length
  let rec go : Nat → List Nat → List Nat
    | _, [] => []
    | 0, l => l
    | k + 1, x :: xs => if x = 0 then 1 :: go k xs else x :: go (k + 1) xs
  go need f

/-- Counts of values below n. -/
def countTo (n : Nat) (l : List Nat) : List Nat :=
  (l.foldl (fun (a : Array Nat) v => a.setIfInBounds v (a.getD v 0 + 1)) (Array.replicate n 0)).toList

/-- A package: its weight and the leaves in it. -/
abbrev Pack := Nat × List Nat

/-- Pairs packages in order, an unpaired last one dropped. -/
def pairUp : List Pack → List Pack
  | a :: b :: rest => (a.1 + b.1, a.2 ++ b.2) :: pairUp rest
  | _ => []

/-- Merges by weight, leaves before packages at equal weight. -/
def mergePacks : Nat → List Pack → List Pack → List Pack
  | 0, a, b => a ++ b
  | _ + 1, [], b => b
  | _ + 1, a, [] => a
  | n + 1, x :: xs, y :: ys => if x.1 ≤ y.1 then x :: mergePacks n xs (y :: ys) else y :: mergePacks n (x :: xs) ys

/-- Inserts a leaf by frequency, then by symbol. -/
def insLeaf (x : Pack) : List Pack → List Pack
  | [] => [x]
  | y :: ys => if x.1 < y.1 then x :: y :: ys else y :: insLeaf x ys

/-- Code lengths of R230 limited to lim bits. -/
def codeLens (lim : Nat) (f : List Nat) : List Nat :=
  let leaves := ((List.range f.length).filter (fun s => f.getD s 0 ≠ 0)).foldl
    (fun l s => insLeaf (f.getD s 0, [s]) l) []
  let list := (List.range (lim - 1)).foldl (fun l _ => let p := pairUp l; mergePacks (leaves.length + p.length) leaves p) leaves
  let occ := (list.take (2 * leaves.length - 2)).flatMap (·.2)
  countTo f.length occ

/-- The length of the run of v at a list's head. -/
def headRun (v : Nat) : List Nat → Nat
  | x :: xs => if x = v then 1 + headRun v xs else 0
  | [] => 0

/-- The code-length symbols of R231: the symbol, its extra value and its extra bits. -/
def rleLens : Nat → List Nat → List (Nat × Nat × Nat)
  | 0, _ => []
  | _ + 1, [] => []
  | n + 1, v :: rest =>
    let r := 1 + headRun v rest
    if v = 0 ∧ 11 ≤ r then
      let m := min r 138
      (18, m - 11, 7) :: rleLens n (rest.drop (m - 1))
    else if v = 0 ∧ 3 ≤ r then (17, r - 3, 3) :: rleLens n (rest.drop (r - 1))
    else if v ≠ 0 ∧ 4 ≤ r then
      let rec reps : Nat → Nat → List (Nat × Nat × Nat)
        | 0, _ => []
        | k + 1, left => if 3 ≤ left then (16, min left 6 - 3, 2) :: reps k (left - min left 6)
                         else List.replicate left (v, 0, 0)
      (v, 0, 0) :: reps r (r - 1) ++ rleLens n (rest.drop (r - 1))
    else (v, 0, 0) :: rleLens n rest

/-- The order in which code-length code lengths are sent. -/
def clOrder : List Nat := [16, 17, 18, 0, 8, 7, 9, 6, 10, 5, 11, 4, 12, 3, 13, 2, 14, 1, 15]

/-- The place after the last non-zero element. -/
def lastNonZero (l : List Nat) : Nat := ((List.range l.length).filter (fun i => l.getD i 0 ≠ 0)).foldl (fun _ i => i + 1) 0

/-- The dynamic block of R230 and R231. -/
def dynamicBits (ss : List Sym) : List Bool :=
  let parts := ss.map symParts
  let lit := codeLens 15 (fixFreq (countTo 286 (256 :: parts.map (·.1))))
  let dist := codeLens 15 (fixFreq (countTo 30 (parts.filterMap (fun p => p.2.2.map (·.1)))))
  let hlit := lastNonZero lit - 257
  let hdist := lastNonZero dist - 1
  let seq := lit.take (257 + hlit) ++ dist.take (1 + hdist)
  let cl := rleLens seq.length seq
  let clen := codeLens 7 (fixFreq (countTo 19 (cl.map (·.1))))
  let sent := clOrder.map (fun s => clen.getD s 0)
  let hclen := lastNonZero sent - 4
  let codes := (canonical clen).toArray
  [true, false, true] ++ bitsLsb 5 hlit ++ bitsLsb 5 hdist ++ bitsLsb 4 hclen ++
    (sent.take (4 + hclen)).flatMap (bitsLsb 3) ++
    cl.flatMap (fun e => codes.getD e.1 [] ++ bitsLsb e.2.2 e.2.1) ++
    codeSyms (canonical lit) (canonical dist) ss

/-- The static block of R229. -/
def staticBits (ss : List Sym) : List Bool := [true, true, false] ++ codeSyms (canonical fixedLit) (canonical fixedDist) ss

/-- Bits to bytes, least significant bit first, the last byte padded with 0. -/
def packBits : Nat → List Bool → List Byte
  | 0, _ => []
  | _ + 1, [] => []
  | n + 1, l => BitVec.ofNat 8 ((l.take 8).foldr (fun b a => 2 * a + (if b then 1 else 0)) 0) :: packBits n (l.drop 8)

/-- The stored form of R227. -/
def storedForm (bs : List Byte) : List Byte :=
  [0x00#8, 0xFF#8, 0xFF#8, 0x00#8, 0x00#8] ++ bs.take 65535 ++ [0x01#8, 0x01#8, 0x00#8, 0xFE#8, 0xFF#8] ++ bs.drop 65535

/-- A hank's stored form: stream and trailer (R226, R227), and whether it is RAW. -/
def codeHank (mode level : Nat) (bs : List Byte) : List Byte × Bool :=
  let ss := symbols level bs
  let coded := if mode = 1 then staticBits ss else dynamicBits ss
  let n := (coded.length + 7) / 8
  let raw := decide (65536 < n)
  let stream := if raw then storedForm bs else packBits n coded
  let flags := if raw then 1 else 2 * mode + 8 * level
  (stream ++ leBytes 2 0x4B48 ++ leBytes 2 flags ++ leBytes 4 65536 ++ leBytes 4 (crc32c bs) ++ leBytes 4 stream.length, raw)

/-! ### Decompressor (R241) -/

/-- The decompressor's state: bits left and bits consumed, the output in reverse and its length, and the kinds of block
seen. -/
structure Inflate where
  input : List Bool
  used : Nat := 0
  out : Array Byte := #[]
  stored : Bool := false
  coded : Bool := false

/-- Takes n bits as a number, least significant first; none past the end of the members. -/
def takeBits (n : Nat) (z : Inflate) : Option (Nat × Inflate) :=
  if z.input.length < n then none
  else some ((z.input.take n).foldr (fun b a => 2 * a + (if b then 1 else 0)) 0,
    { z with input := z.input.drop n, used := z.used + n })

/-- A code as (code bits, symbol) pairs; complete where the lengths fill the code space exactly (R241). -/
def codeTable (lens : List Nat) : Option (List (List Bool × Nat)) :=
  let used := lens.filter (· ≠ 0)
  let space := used.foldl (fun a l => a + 2 ^ (15 - l)) 0
  if space = 0x8000 then
    some (((canonical lens).zip (List.range lens.length)).filter (fun e => e.1 ≠ []))
  else none

/-- Reads one symbol under a code, bit by bit. -/
def readSym (tab : List (List Bool × Nat)) : Nat → List Bool → Inflate → Option (Nat × Inflate)
  | 0, _, _ => none
  | f + 1, got, z =>
    match z.input with
    | [] => none
    | b :: rest =>
      let got := got ++ [b]
      let z := { z with input := rest, used := z.used + 1 }
      match tab.find? (fun e => e.1 == got) with
      | some e => some (e.2, z)
      | none => readSym tab f got z

/-- Appends a match byte by byte. -/
def copyMatch (dist : Nat) : Nat → Array Byte → Array Byte
  | 0, o => o
  | n + 1, o => copyMatch dist n (o.push (o.getD (o.size - dist) 0))

/-- The symbols of a coded block; none is a check failure. -/
def inflateSyms (lit dist : List (List Bool × Nat)) : Nat → Inflate → Option Inflate
  | 0, _ => none
  | f + 1, z =>
    match readSym lit 15 [] z with
    | none => none
    | some (s, z) =>
      if s < 256 then
        if 65536 ≤ z.out.size then none else inflateSyms lit dist f { z with out := z.out.push (BitVec.ofNat 8 s) }
      else if s = 256 then some z
      else if 286 ≤ s then none
      else match takeBits (lenCode (s - 257)).2 z with
        | none => none
        | some (x, z) =>
          let n := (lenCode (s - 257)).1 + x
          match readSym dist 15 [] z with
          | none => none
          | some (d, z) =>
            if 30 ≤ d then none
            else match takeBits (distCode d).2 z with
              | none => none
              | some (y, z) =>
                let dd := (distCode d).1 + y
                if z.out.size < dd ∨ 65536 < z.out.size + n then none
                else inflateSyms lit dist f { z with out := copyMatch dd n z.out }

/-- The code lengths of a dynamic header. -/
def readLens (tab : List (List Bool × Nat)) (total : Nat) : Nat → List Nat → Inflate → Option (List Nat × Inflate)
  | 0, _, _ => none
  | f + 1, got, z =>
    if got.length = total then some (got, z)
    else if total < got.length then none
    else match readSym tab 7 [] z with
      | none => none
      | some (s, z) =>
        if s < 16 then readLens tab total f (got ++ [s]) z
        else if s = 16 then
          match got.getLast?, takeBits 2 z with
          | some v, some (x, z) => readLens tab total f (got ++ List.replicate (3 + x) v) z
          | _, _ => none
        else match takeBits (if s = 17 then 3 else 7) z with
          | some (x, z) => readLens tab total f (got ++ List.replicate ((if s = 17 then 3 else 11) + x) 0) z
          | none => none

/-- The two codes of a dynamic block. -/
def dynamicCodes (z : Inflate) : Option (List (List Bool × Nat) × List (List Bool × Nat) × Inflate) := do
  let (hlit, z) ← takeBits 5 z
  let (hdist, z) ← takeBits 5 z
  let (hclen, z) ← takeBits 4 z
  let rec cls : Nat → List Nat → Inflate → Option (List Nat × Inflate)
    | 0, l, z => some (l, z)
    | n + 1, l, z => match takeBits 3 z with | some (x, z) => cls n (l ++ [x]) z | none => none
  let (sent, z) ← cls (4 + hclen) [] z
  let clen := (List.range 19).map (fun s => sent.getD (clOrder.idxOf s) 0)
  let tab ← codeTable clen
  let (all, z) ← readLens tab (257 + hlit + 1 + hdist) 600 [] z
  let lit ← codeTable (all.take (257 + hlit))
  let dist ← codeTable (all.drop (257 + hlit))
  some (lit, dist, z)

/-- The blocks of a stream until BFINAL. -/
def inflateBlocks : Nat → Inflate → Option Inflate
  | 0, _ => none
  | f + 1, z => do
    let (final, z) ← takeBits 1 z
    let (typ, z) ← takeBits 2 z
    let z ← (if typ = 0 then do
        let (_, z) ← takeBits ((8 - z.used % 8) % 8) z
        let (len, z) ← takeBits 16 z
        let (nlen, z) ← takeBits 16 z
        if len + nlen ≠ 0xFFFF ∨ 65536 < z.out.size + len then none
        else if z.input.length < 8 * len then none
        else some { z with input := z.input.drop (8 * len), used := z.used + 8 * len, stored := true,
                           out := z.out ++ (packBits len (z.input.take (8 * len))).toArray }
      else if typ = 1 then do
        let lit ← codeTable fixedLit
        let dist ← codeTable (List.replicate 32 5)
        inflateSyms lit dist 70000 { z with coded := true }
      else if typ = 2 then do
        let (lit, dist, z) ← dynamicCodes z
        inflateSyms lit dist 70000 { z with coded := true }
      else none)
    if final = 1 then some z else inflateBlocks f z

/-- Decompresses and checks a hank that begins at the first byte of the named bytes (R241); none is a check failure. -/
def decodeHank (bs : List Byte) : Option (List Byte) := do
  let z ← inflateBlocks 65600 { input := bs.flatMap (fun b => bitsLsb 8 b.toNat) }
  let n := (z.used + 7) / 8
  let out := z.out.toList
  let t := (bs.drop n).take 16
  let flags := leAt t 2 2
  let ok := out.length == 65536 && t.length == 16 && leAt t 0 2 == 0x4B48 && decide (flags < 64) && leAt t 4 4 == 65536 &&
    leAt t 8 4 == crc32c out && leAt t 12 4 == n && (bit flags 0 == (z.stored && !z.coded))
  if ok then some out else none

end Sys2Proof.Machine
end

