-- ==== Sys2Proof/Machine/Arith.lean ====
section
/-! DEFINITION. Exact arithmetic that is rounded and narrowed at the end (R254, R256), and the geometry of the disc
(R82 to R92, R97, R98, R101). -/

namespace Sys2Proof.Machine

/-- The quotient rounded to nearest, halves away from zero (R256); d is positive. -/
def roundDiv (n : Int) (d : Nat) : Int :=
  if 0 ≤ n then (2 * n + d) / (2 * d) else -((2 * (-n) + d) / (2 * d))

/-- The quotient truncated toward zero (chapter 00, pseudocode). -/
def truncDiv (n : Int) (d : Nat) : Int := if 0 ≤ n then n / d else -((-n) / d)

/-- One in Q8.24. -/
def one24 : Int := 0x1000000

/-- The Q8.24 range (R256). -/
def satQ (x : Int) : Int := clampI (-0x80000000) 0x7FFFFFFF x

/-- A value narrowed to Q8.24, and how many saturations that took. -/
def satN (x : Int) : Int × Nat := (satQ x, if satQ x = x then 0 else 1)

/-- A product of two values with 24 fraction bits. -/
def mulQ (a b : Int) : Int := roundDiv (a * b) 0x1000000

/-- The sign of a number. -/
def sgn (x : Int) : Int := if x < 0 then -1 else if x = 0 then 0 else 1

/-- Integer square root by bits: the largest r below 2^n with r² ≤ x. -/
def isqrt (x : Nat) : Nat → Nat → Nat
  | 0, r => r
  | n + 1, r => let c := r + 2 ^ n; isqrt x n (if c * c ≤ x then c else r)

/-- The square root of numbers below 2^128. -/
def sqrtN (x : Nat) : Nat := isqrt x 64 0

/-- √3 with 24 fraction bits. -/
def sqrt3 : Int := 29058990

/-- The sine over a quarter turn: p counts 2^−30 of it; 24 fraction bits, by its series to the eleventh power. -/
def sinQuarter (p : Nat) : Int :=
  let x : Int := ((p * 6746518852) / 0x40000000 : Nat)
  let one : Int := 0x100000000
  let x2 := x * x / one
  let t := one - x2 / 110
  let t := one - x2 * t / (72 * one)
  let t := one - x2 * t / (42 * one)
  let t := one - x2 * t / (20 * one)
  let t := one - x2 * t / (6 * one)
  roundDiv (x * t) (0x10000000000)

/-- The sine of an angle in 2^−32 of a revolution, with 24 fraction bits. -/
def sinTurn (a : Nat) : Int :=
  let a := a % 0x100000000
  let q := a / 0x40000000
  let p := a % 0x40000000
  if q = 0 then sinQuarter p else if q = 1 then sinQuarter (0x40000000 - p)
  else if q = 2 then -(sinQuarter p) else -(sinQuarter (0x40000000 - p))

/-- The cosine, likewise. -/
def cosTurn (a : Nat) : Int := sinTurn (a + 0x40000000)

/-- The n-th element of a list of integers, 0 beyond its end. -/
def nth (l : List Int) (n : Nat) : Int := l.getD n 0

/-- The sum of a list. -/
def sumI (l : List Int) : Int := l.foldl (· + ·) 0

/-- The sum of a list of numbers. -/
def sumN (l : List Nat) : Nat := l.foldl (· + ·) 0

/-! ### Geometry of the disc -/

/-- The side of a carriage's face, and whether its band is the outer one (R18, Table 00-2). -/
def carSide (c : Nat) : Nat := c / 2
def carOuter (c : Nat) : Bool := c % 2 == 1

/-- The carriage that serves a layer-face and zone (R135). -/
def carOf (lf zone : Nat) : Nat := 2 * (lf / 16) + zone / 32

/-- The base track of a carriage's band (R319). -/
def bandBase (c : Nat) : Nat := if carOuter c then 85000 else 0

/-- Turns of a zone (R85). -/
def turnsOf (z : Nat) : Nat := if z % 32 = 31 then 333 else 332

/-- The mid-radius of a zone in nm (R85). -/
def rMid (z : Nat) : Nat := (if z < 32 then 24000000 else 41000000) + (664 * (z % 32) + turnsOf z) * 800

/-- SEG_BITS(z) (R86), with π to 18 decimals. -/
def segBits (z : Nat) : Nat := 2 * 3141592653589793238 * rMid z * 987 / (3360000 * 10 ^ 18)

/-- SEG_DATA(z) (R86). -/
def segData (z : Nat) : Nat := segBits z - 16

/-- Sector slots of a zone on every start (R87). -/
def slotsIn (z : Nat) : Nat := turnsOf z * 96 * segData z / 38816

/-- The band turn in which a slot's first bit lies (R87). -/
def turnOfSlot (z i : Nat) : Nat := 332 * (z % 32) + i * 38816 / segData z / 96

/-- The wedge whose segment holds a slot's first bit (R87). -/
def wedgeOfSlot (z i : Nat) : Nat := (i * 38816 / segData z) % 96

/-- The first turn of the data area of a band (Table 03-6). -/
def dataTurn (outer : Bool) : Nat := if outer then 16 else 88

/-- The first block of a zone that lies in the data area (R97). -/
def firstBlock (z : Nat) : Nat :=
  if z % 32 ≠ 0 then 0
  else
    let i := (dataTurn (decide (32 ≤ z)) * 96 * segData z + 38815) / 38816
    (i + 3) / 4

/-- The number of blocks of a zone that the data area holds whole. -/
def blocksIn (z : Nat) : Nat := slotsIn z / 4 - firstBlock z

/-- Zones of a carriage's band, ascending. -/
def zonesOf (c : Nat) : List Nat := (List.range 32).map (fun z => z + (if carOuter c then 32 else 0))

/-- Blocks of one layer-face in a carriage's band. -/
def blocksPerLayer (c : Nat) : Nat := sumN ((zonesOf c).map blocksIn)

/-- The zone and block of a position within a layer-face's sequence. -/
def zoneBlockAt : List Nat → Nat → Option (Nat × Nat)
  | [], _ => none
  | z :: zs, k => if k < blocksIn z then some (z, firstBlock z + k) else zoneBlockAt zs (k - blocksIn z)

/-- A placement value (R97). -/
def placement (lf zone block lane : Nat) : Nat := lf * 0x8000000 + zone * 0x200000 + block * 32 + lane

/-- The block at a step of a carriage's fixed sequence (R98), as (LF, zone, block); none beyond its end. -/
def blockAt (c step : Nat) : Option (Nat × Nat × Nat) :=
  let per := blocksPerLayer c
  if per = 0 then none
  else if 16 ≤ step / per then none
  else (zoneBlockAt (zonesOf c) (step % per)).map (fun e => (16 * carSide c + step / per, e.1, e.2))

/-- Steps before a zone within a layer-face. -/
def stepsBefore (c zone : Nat) : Nat := sumN (((zonesOf c).filter (fun z => z < zone)).map blocksIn)

/-- The step of a block in the sequence of its carriage. -/
def stepOf (c lf zone block : Nat) : Nat :=
  (lf % 16) * blocksPerLayer c + stepsBefore c zone + (block - firstBlock zone)

/-- Fields of a placement or member address (R97). -/
def pLF (p : Nat) : Nat := bits p 27 5
def pZone (p : Nat) : Nat := bits p 21 6
def pBlock (p : Nat) : Nat := bits p 5 16
def pJ (p : Nat) : Nat := bits p 3 2
def pLane (p : Nat) : Nat := bits p 0 3

/-- The member address of a placement: J set (R97). -/
def withJ (p j : Nat) : Nat := p - 8 * pJ p + 8 * j

/-- The slot and the strand of the ply at which a member address lies (R97). -/
def slotOf (a : Nat) : Nat := 4 * pBlock a + pJ a
def plyStrandOf (a : Nat) : Nat := (pLane a + 2 * pJ a) % 8

/-- The global strand index of a member address. -/
def strandOfAddr (a : Nat) : Nat := 8 * carOf (pLF a) (pZone a) + plyStrandOf a

/-- The member address of member m of a skein with the given placements on carriages A to D. -/
def memberAddr (place : List Nat) (m : Nat) : Nat := withJ (place.getD (m / 4) 0) (m % 4)

/-- The member of a data index (R96), and the parity members. -/
def memberOfData (d : Nat) : Nat := d + d / 3
def isParityMember (m : Nat) : Bool := m % 4 == 3

/-- The data index of a member that holds data. -/
def dataOfMember (m : Nat) : Nat := m - m / 4

/-! ### Chevron fields -/

/-- Gray code to binary of 12 bits (R90). -/
def fromGray (g : Nat) : Nat := g ^^^ (g >>> 1) ^^^ (g >>> 2) ^^^ (g >>> 3) ^^^ (g >>> 4) ^^^ (g >>> 5) ^^^ (g >>> 6) ^^^
  (g >>> 7) ^^^ (g >>> 8) ^^^ (g >>> 9) ^^^ (g >>> 10) ^^^ (g >>> 11)

/-- One bit of the CRC-8 of R90: polynomial x^8 + x^2 + x + 1. -/
def crc8Step (c : Nat) (b : Bool) : Nat :=
  let top := c.testBit 7 != b
  let c := (c * 2) % 256
  if top then c ^^^ 0x07 else c

/-- The CRC-8 of the n low bits of x, most significant first. -/
def crc8 (x : Nat) : Nat → Nat → Nat
  | 0, c => c
  | n + 1, c => crc8 x n (crc8Step c (x.testBit n))

/-- Whether the CHK of an address field is right (R90). -/
def chkOk (a : Nat) : Bool := crc8 (bits a 8 12) 12 0 == bits a 0 8

/-- PERIOD, LF and WEDGE of an address field (R90). -/
def aPeriod (a : Nat) : Nat := fromGray (bits a 20 12)
def aLF (a : Nat) : Nat := bits a 15 5
def aWedge (a : Nat) : Nat := bits a 8 7

/-- ρ in 2^−24 µm of period p and Δ in 1/32 WU (R89, R91). -/
def rhoOf (p : Nat) (delta : Int) : Int := roundDiv (10 * one24 * (p * 18432 + 23552 - delta)) 18432

/-- Whether f lies within 1/36 of a period boundary (R91). -/
def nearEdge (delta : Int) : Bool := let n := 23552 - delta; decide (n < 512) || decide (17920 < n)

/-- The mean of some positions and strand numbers: ply_centre (R92) of the accepted ones, in 2^−24 µm. -/
def plyCentre (acc : List (Nat × Int)) : Int :=
  let n := acc.length
  let ks := sumN (acc.map (·.1))
  roundDiv (10 * sumI (acc.map (·.2)) + (35 * n - 10 * ks) * one24 / 5) (10 * n)

/-- twist_error (R92): the least-squares slope less 0.20 µm. -/
def twistErr (acc : List (Nat × Int)) : Int :=
  let n : Int := acc.length
  let sk : Int := (sumN (acc.map (·.1)) : Nat)
  let sr := sumI (acc.map (·.2))
  let num := sumI (acc.map (fun e => (n * e.1 - sk) * (n * e.2 - sr)))
  let den := sumI (acc.map (fun e => (n * e.1 - sk) * (n * e.1 - sk)))
  if den ≤ 0 then 0 else roundDiv (5 * num - den * one24) (5 * den.toNat)

end Sys2Proof.Machine
end

