-- ==== Sys2Proof/TypesImage.lean ====
section
/-! DEFINITION. The Renov image as the controller holds it after validation, one record per section table of spec
chapter 02 (Tables 02-3 to 02-13), and the state of the image operations. -/

namespace Sys2Proof

/-- A BIND pin-function record (Table 02-8). -/
structure PinRec where
  group : Nat
  function : Nat
  attr : Nat
  deriving DecidableEq, Repr, Inhabited

/-- BIND (Table 02-7). -/
structure BindCfg where
  carriageMask : Nat
  probe : Bool
  decEnabled : Nat
  decFirstReserved : Nat
  redetEnabled : Nat
  hankEnabled : Nat
  strandMask : Nat
  pins : List PinRec
  deriving DecidableEq, Repr, Inhabited

/-- A LOOPS record (Table 02-9); matrices in Q4.28, row-major at their maximum dimensions. -/
structure LoopRec where
  slot : Nat
  kind : Nat
  carriage : Nat
  nStates : Nat
  nMeas : Nat
  nOut : Nat
  periodDiv : Nat
  parent : Option Nat
  enableAtArm : Bool
  priv : Bool
  traceSrc : Nat
  measSrc : List Nat
  outDst : List Nat
  slew : Int
  matA : List Int
  matB : List Int
  matC : List Int
  matK : List Int
  matL : List Int
  deriving DecidableEq, Repr, Inhabited

/-- A CAMS record (Table 02-10). -/
structure CamRec where
  table : Nat
  master : Nat
  slaveKind : Nat
  slaveIndex : Nat
  points : Nat
  engageAtArm : Bool
  wrap : Bool
  xStart : Int
  xStep : Nat
  values : List Int
  deriving DecidableEq, Repr, Inhabited

/-- A ZONES record (R53): a layer-face, a zone and its seed block. -/
structure ZoneRec where
  lf : Nat
  zone : Nat
  seed : List Byte
  deriving DecidableEq, Repr, Inhabited

/-- A sled block of MOTORS (Table 02-11). -/
structure SledMotor where
  iQuiet : Nat
  iStrong : Nat
  vMax : Nat
  aMax : Nat
  jMax : Nat
  modeThresh : Nat
  modeHyst : Nat
  strokeLimit : Nat
  homeActiveLow : Bool
  dirInvert : Bool
  deriving DecidableEq, Repr, Inhabited

/-- MOTORS (Table 02-11); advance holds (speed, advance) pairs. -/
structure MotorsCfg where
  polePairs : Nat
  spinMin : Nat
  spinMax : Nat
  iLimit : Nat
  rShunt : Nat
  rPhase : Nat
  lPhase : Nat
  ke : Nat
  inertia : Nat
  innovLim : Nat
  injAmpl : Nat
  advance : List (Nat × Nat)
  sleds : List SledMotor
  deriving DecidableEq, Repr, Inhabited

/-- A QUEUES function record (Table 02-12). -/
structure QueueFn where
  classMask : Nat
  msix : Nat
  ringBase : Nat
  ringCount : Nat
  ctxQuota : Nat
  ctxLimit : Nat
  deriving DecidableEq, Repr, Inhabited

/-- QUEUES (R56). -/
structure QueuesCfg where
  vfCount : Nat
  wH : Nat
  wM : Nat
  wL : Nat
  uBudget : Nat
  fns : List QueueFn
  deriving DecidableEq, Repr, Inhabited

/-- MEMORY (R58). -/
structure MemoryCfg where
  mapOrder : Nat
  ddrPoint : Nat
  scratchWays : Nat
  hashSeed : Nat
  dramOrg : Nat
  qos : List Nat
  deriving DecidableEq, Repr, Inhabited

/-- MGMT (R61). -/
structure MgmtCfg where
  deckId : Nat
  strapLow : Bool
  udpPort : Nat
  netFlags : Nat
  ptpDomain : Nat
  ipv4 : Nat
  ipv4Prefix : Nat
  i3cStatic : Nat
  vlan : Nat
  ipv4Gw : Nat
  ipv6 : List Byte
  ipv6Prefix : Nat
  deriving DecidableEq, Repr, Inhabited

/-- FIRMWARE (R63), less the code itself. -/
structure FirmwareCfg where
  version : Nat
  vendorKey : Nat
  codeSize : Nat
  entryOfs : Nat
  deriving DecidableEq, Repr, Inhabited

/-- An image that passed validation steps 1 to 11. -/
structure Image where
  serial : Nat
  pairOk : Bool
  size : Nat
  digest : List Word
  isRom : Bool
  sigState : Nat
  bind : BindCfg
  loops : List LoopRec
  cams : List CamRec
  zonesSetId : Nat
  zones : List ZoneRec
  motors : MotorsCfg
  queues : QueuesCfg
  memory : MemoryCfg
  policy : List (Nat × Int)
  mgmt : MgmtCfg
  firmware : FirmwareCfg
  /-- Offset of the image's own MEMORY section, 0 where it is inherited. -/
  memOfs : Nat := 0
  deriving DecidableEq, Repr, Inhabited

/-- What a validation found: the image, or the code, section and byte offset of the first failure (R65). -/
inductive Verdict where
  | ok (img : Image)
  | fail (code section_ offset : Nat)
  deriving DecidableEq, Repr, Inhabited

/-- Candidates of a boot chain (Table 02-15). -/
inductive Candidate where
  | slotA | slotB | rom | partner
  deriving DecidableEq, Repr, Inhabited

/-- The fuse bank (R73) and the identity fuses (Table 19-3). -/
structure Fuses where
  enforce : Bool := false
  noRom : Bool := false
  keyBurnt : Bool := false
  keyDigest : List Word := List.replicate 12 0
  revoke : BitVec 4 := 0
  grade : BitVec 8 := 0x43
  uid : List Word := List.replicate 4 0
  deriving DecidableEq, Repr, Inhabited

/-- Image operations, of which one runs at a time (R71). -/
inductive ImageOp where
  | none
  | fetch
  | transfer (validating : Bool)
  | prog (slotB : Bool)
  | apply
  deriving DecidableEq, Repr, Inhabited

/-- The image side of the state: fuses, the running and the staged image, the boot chain still to try, the
operation under way and the DMP transfer. received holds the start offsets of the IMAGE_DATA pieces that came, flashWait
that the flash chain runs, slots the digests of the images known to lie in slots A and B, quiesceTook the carriages that the
quiesce took OFFLINE. -/
structure ImgState where
  fuses : Fuses := {}
  running : Option Image := none
  source : Candidate := .rom
  chain : List Candidate := []
  firstTried : Bool := true
  staged : List Byte := []
  stagedImage : Option Image := none
  stagedByDmp : Bool := false
  op : ImageOp := .none
  transferSize : Nat := 0
  received : List Nat := []
  quiesceTook : List Nat := []
  heldBack : Bool := false
  applied : Bool := false
  pairWait : Bool := false
  flashWait : Bool := false
  slots : List (Option (List Word)) := [none, none]
  deriving DecidableEq, Repr, Inhabited

end Sys2Proof
end

