-- ==== Sys2Proof/Config.lean ====
section
/-! DEFINITION. What the spec leaves open or keeps in files of its own, as constants without a body, so that
nothing in Lean can evaluate one or prove a value of it. Free values are functions of a plain counter of State. -/

namespace Sys2Proof

/-- A free truth value, by count. -/
opaque Config.freeBool : Nat → Bool

/-- A free word, by count. -/
opaque Config.freeWord : Nat → Word

/-- A free byte, by count and place: the content of a host buffer after a failed read (R359), for one. -/
opaque Config.freeByte : Nat → Nat → Byte

/-- SHA-384 of a byte string, as twelve little-endian words (IMG_DIGEST of Table 02-18). -/
opaque Config.sha384 : List Byte → List Word

/-- Whether an ECDSA P-384 signature (r, s) of a digest verifies under a public key (R46, R47, R64). -/
opaque Config.ecdsaVerify : (key digest : List Byte) → (r s : List Byte) → Bool

/-- The four Vrellen keys in ROM (R63). -/
opaque Config.vendorKey : Nat → List Byte

/-- What the data file TMV-9160-B1-ROMIMG holds beyond Table 02-17 (R79): motor values, loop coefficients, cams,
zone seeds, firmware version and the image digest. -/
opaque Config.romMotors : MotorsCfg
opaque Config.romShape : (slot : Nat) → Nat × Nat × Nat × List Nat × List Nat
opaque Config.romArm : Nat → Bool
opaque Config.romMatrix : (slot which : Nat) → List Int
opaque Config.romSlew : Nat → Int
opaque Config.romCams : List CamRec
opaque Config.romSeed : (lf zone : Nat) → List Byte
opaque Config.romFwVersion : Nat
opaque Config.romDigest : List Word
opaque Config.romSize : Nat

/-- The ROM default write-strategy record (R209). -/
opaque Config.romStrategy : List Byte

/-- The content of the data file VAD-3200-CODES (R94, R161, R162): the codeword bits of check r of the LDPC code, the
demapper of the 48/49 constrained code in both directions, and the channel bits of a body for a payload. -/
opaque Config.ldpcRow : Nat → List Nat
opaque Config.demap : List Int → List Int
opaque Config.remap : List Int → List Int
opaque Config.encodeBody : List Byte → List Bool

/-- What the spec leaves open of the signal path: the scale that makes one target unit 8 LSB (R131), the increment of
an LMS tap in its last place for a step 2^−mu (R131, R133), and the target slicer's decision from the target and the
samples so far, newest first (R127, R132). -/
opaque Config.eqOut : Int → Int
opaque Config.lmsStep : (mu : Nat) → (err x : Int) → Int
opaque Config.slicer : (target samples : List Int) → Bool

/-- The spindle speed in rpm, and the speed factor in 0.1, at which the channel rate at a sector's radius is a given
multiple of 66 Mbit/s (R190); the radius of a sector follows the Blu-ray Disc specifications. -/
opaque Config.importSpeed : (layer psn limit : Nat) → Nat
opaque Config.importFactor : (layer psn rpm : Nat) → Nat

end Sys2Proof
end

