-- ==== Sys2Proof/Machine/Operands.lean ====
section
/-! DEFINITION. The numbers that codes, units, statuses and operands stand for, in both directions, and the layout
of host-memory operands: the command entry of Table 11-6. -/

namespace Sys2Proof

open Sys2Proof.Machine

/-- Table 17-1. -/
def UState.code : UState → Nat
  | .absent => 0 | .offline => 1 | .starting => 2 | .ready => 3 | .degraded => 4 | .suspect => 5
  | .draining => 6 | .service => 7 | .faulted => 8

/-- Table 17-3. -/
def Reason.code : Reason → Nat
  | .none => 0 | .request => 1 | .sensor => 2 | .probe => 3 | .loop => 4 | .drive => 5 | .thermal => 6
  | .interlock => 7 | .watchdog => 8 | .conflict => 9 | .integrity => 10 | .calibration => 11 | .derived => 12
  | .mount => 13 | .pair => 14 | .powerFail => 15 | .firstState => 16

/-- Table 17-9, SOURCE. -/
def Source.code : Source → Nat
  | .internal => 0 | .ring => 1 | .dmp => 2 | .i3c => 3 | .partner => 4

/-- Table 11-12. -/
def Status.code : Status → Nat
  | .success => 0x00 | .successRecovered => 0x01 | .successRelocated => 0x02
  | .aborted => 0x10 | .abortTooLate => 0x11 | .alreadyComplete => 0x12 | .abortNoTarget => 0x13
  | .invalidField => 0x20 | .rangeOut => 0x21 | .atomicTooLarge => 0x22 | .volumeReadOnly => 0x23
  | .unitNotReady => 0x30 | .unitSuspect => 0x31 | .epochStale => 0x32 | .unitService => 0x33
  | .mediumUnrecovered => 0x40 | .mediumFull => 0x41 | .writeVerifyExhausted => 0x42
  | .internalParity => 0x50 | .hankCheckFail => 0x51
  | .pairForwardFail => 0x70

/-- The status class: bits [7:4] of the code (R16). -/
def Status.cls (s : Status) : Nat := s.code / 16

/-- A status of class 0x0. -/
def Status.good (s : Status) : Bool := s.cls == 0

/-- Unit numbers (Table 01-4). -/
def uDisc : Nat := 0x00
def uSide (k : Nat) : Nat := 0x01 + k
def uCar (c : Nat) : Nat := 0x04 + c
def uSpindle : Nat := 0x08
def uBuf (k : Nat) : Nat := 0x0A + k
def uPartner : Nat := 0x0C
def uStrand (g : Nat) : Nat := 0x20 + g
def uVol (v : Nat) : Nat := 0x40 + v

/-- Kinds of unit (Table 01-4). -/
def isSide (u : Nat) : Bool := u == 1 || u == 2
def isCar (u : Nat) : Bool := 4 ≤ u && u ≤ 7
def isBuf (u : Nat) : Bool := u == 10 || u == 11
def isStrand (u : Nat) : Bool := 0x20 ≤ u && u ≤ 0x3F
def isVol (u : Nat) : Bool := 0x40 ≤ u && u ≤ 0x7F

/-- A unit number that Table 01-4 lists; the others are reserved. -/
def unitListed (u : Nat) : Bool :=
  u == 0 || isSide u || isCar u || u == 8 || isBuf u || u == 12 || isStrand u || isVol u

/-- READY or DEGRADED: a unit in such a state can serve (R27). -/
def UState.serves : UState → Bool
  | .ready => true
  | .degraded => true
  | _ => false

/-- ABSENT, OFFLINE or FAULTED: the first row of Table 17-4. -/
def UState.down : UState → Bool
  | .absent => true
  | .offline => true
  | .faulted => true
  | _ => false

/-- The 64-byte command entry of a ring, decoded (Table 11-6). -/
def HostCmd.ofBytes (b : List Byte) : HostCmd where
  opcode := leAt b 0x00 1
  cflags := leAt b 0x01 1
  volume := leAt b 0x02 1
  rsvd3 := leAt b 0x03 1
  count := leAt b 0x04 4
  lba := leAt b 0x08 8
  dataAddr := leAt b 0x10 8
  listCount := leAt b 0x18 4
  rsvd1c := leAt b 0x1C 4
  generation := leAt b 0x20 8
  replayId := leAt b 0x28 8
  body := slice b 0x30 16

/-- The flags of a command (Table 11-6, CFLAGS). -/
def HostCmd.fua (c : HostCmd) : Bool := bit c.cflags 0
def HostCmd.orderAfter (c : HostCmd) : Bool := bit c.cflags 1
def HostCmd.atomic (c : HostCmd) : Bool := bit c.cflags 2
def HostCmd.asOf (c : HostCmd) : Bool := bit c.cflags 3
def HostCmd.replay (c : HostCmd) : Bool := bit c.cflags 4
def HostCmd.list (c : HostCmd) : Bool := bit c.cflags 5

/-- BODY of the unit opcodes (R364). -/
def HostCmd.bodyUnit (c : HostCmd) : Nat := leAt c.body 0 1
def HostCmd.bodyCode (c : HostCmd) : Nat := leAt c.body 1 1
def HostCmd.bodyEpoch (c : HostCmd) : Nat := leAt c.body 4 4

/-- BODY of ABORT (R361). -/
def HostCmd.targetRing (c : HostCmd) : Nat := leAt c.body 0 4
def HostCmd.targetSlot (c : HostCmd) : Nat := leAt c.body 4 2

/-- Opcodes of Table 11-7. -/
def opNop : Nat := 0x00
def opRead : Nat := 0x01
def opWrite : Nat := 0x02
def opFlush : Nat := 0x03
def opAbort : Nat := 0x08
def opCreate : Nat := 0x10
def opClose : Nat := 0x11
def opInfo : Nat := 0x12
def opImport : Nat := 0x18
def opUnitRequest : Nat := 0x20
def opUnitQuery : Nat := 0x21
def opCalibrate : Nat := 0x22
def opSelfTest : Nat := 0x23

/-- The opcodes of the unit-sequencer path (R355). -/
def unitPath (op : Nat) : Bool :=
  op == opInfo || op == opUnitRequest || op == opUnitQuery || op == opCalibrate || op == opSelfTest

/-- The 16-byte completion entry (Table 11-10). -/
def completionBytes (seq result slot status : Nat) (phase replayed relocated : Bool) (step : Nat) : List Byte :=
  leBytes 8 seq ++ leBytes 4 result ++ leBytes 2 slot ++ leBytes 1 status ++
    leBytes 1 ((if phase then 128 else 0) + (if replayed then 64 else 0) + (if relocated then 32 else 0) + (step % 8) * 4)

/-- The 52-byte body and SEQ of a history entry (Tables 17-9, R449), 60 bytes, and its CRC. DETAIL is that of the
UNT event: FROM, TO, REASON, SOURCE and ACCEPT_SEQ aligned to its size (R513). -/
def HistEntry.bytes (h : HistEntry) : List Byte :=
  let body := leBytes 8 h.seq ++ leBytes 8 h.time ++ leBytes 1 h.unit ++ leBytes 1 (h.old.code) ++
    leBytes 1 (h.new.code) ++ leBytes 1 (h.reason.code) ++ leBytes 4 h.epoch.toNat ++
    leBytes 8 h.acceptSeq ++ leBytes 1 (h.source.code) ++ List.replicate 3 0 ++
    (leBytes 1 (h.old.code) ++ leBytes 1 (h.new.code) ++ leBytes 1 (h.reason.code) ++
      leBytes 1 (h.source.code) ++ List.replicate 4 0 ++ leBytes 8 h.acceptSeq ++ List.replicate 8 0)
  body ++ leBytes 4 (crc32c body)

/-- The 64 bytes of an event entry (Table 17-10). -/
def EventEntry.bytes (e : EventEntry) : List Byte :=
  leBytes 8 e.seq ++ leBytes 8 e.time ++ leBytes 1 e.block ++ leBytes 1 e.code ++
    leBytes 1 ((if e.synced then 1 else 0) + (if e.cont then 2 else 0)) ++ leBytes 1 e.unit ++ leBytes 4 e.epoch ++ e.detail

/-- The bytes of a valid MRAM slot (Table 14-7). -/
def MramSlot.bytes (typ index : Nat) (s : MramSlot) : List Byte :=
  let front := leBytes 2 typ ++ leBytes 2 index ++ leBytes 4 s.payload.length ++ leBytes 8 s.generation ++
    List.replicate 8 0 ++ s.payload
  front ++ leBytes 4 (crc32c front)

/-- The slot size of a record TYPE (Table 14-6). -/
def mramSlotSize (typ : Nat) : Nat :=
  if typ = 0x01 then 2048 else if typ = 0x10 then 576 else if typ = 0x11 then 128 else if typ = 0x12 then 1024
  else if typ = 0x13 then 384 else 16384

end Sys2Proof
end

