-- ==== Sys2Proof/Machine/RegTable.lean ====
section
/-! DEFINITION. The BAR0 registers: the offset of every register, the place of every named field, and one row per
register with its access types, limits, reset value and reset domain, taken from the register and field tables of
spec chapters 02 and 04 to 19 (Table 19-1 gives the bases, R546 and R547 the reset domains, R10 to R12 the access types). -/

namespace Sys2Proof.Machine

/-- A field of a register: the register's BAR0 offset and the field's bits [hi:lo]. -/
structure Fld where
  off : Nat
  hi : Nat
  lo : Nat
  deriving DecidableEq, Repr

/-- The access types of Table 00-4 (R10). -/
inductive Access where
  | rw | ro | w1c | w1s | rc | wo | rwl | rws
  deriving DecidableEq, Repr

/-- The values a field accepts; any other value is a reserved encoding (R12). -/
inductive Limit where
  | any
  /-- lo to hi, both accepted. -/
  | range (lo hi : Nat)
  /-- Zero, or lo to hi. -/
  | zeroOr (lo hi : Nat)
  /-- Signed, from minus neg to pos. -/
  | srange (neg pos : Nat)
  /-- From lo to the value of the field [h:l] of the same register. -/
  | upTo (lo h l : Nat)
  /-- From the value of the field [h:l] of the same register to hi. -/
  | atLeast (h l hi : Nat)
  /-- The low n bits 0. -/
  | aligned (n : Nat)
  deriving DecidableEq, Repr

/-- The reset domains of Table 19-2 (R547), one per row of that table. -/
inductive Domain where
  | fuse | sticky | latched | hqFn | kept | evt | other
  deriving DecidableEq, Repr

/-- One field of a register row. -/
structure RegField where
  hi : Nat
  lo : Nat
  acc : Access
  lim : Limit
  deriving DecidableEq, Repr

/-- One register of the map; dims are the (stride, count) pairs of its arrays (R544). -/
structure RegRow where
  name : String
  off : Nat
  dims : List (Nat × Nat)
  dom : Domain
  reset : Nat
  fields : List RegField
  deriving DecidableEq, Repr

def Reg.IMG_CTRL : Nat := 0x3000
def Reg.IMG_STATUS : Nat := 0x3004
def Reg.IMG_ERR : Nat := 0x3008
def Reg.IMG_ERR_OFFSET : Nat := 0x300c
def Reg.IMG_EVT : Nat := 0x3010
def Reg.IMG_FUSE : Nat := 0x3014
def Reg.IMG_PUSH_LEN : Nat := 0x3018
def Reg.IMG_PUSH_ADDR_LO : Nat := 0x3020
def Reg.IMG_PUSH_ADDR_HI : Nat := 0x3024
def Reg.IMG_SERIAL_LO : Nat := 0x3028
def Reg.IMG_SERIAL_HI : Nat := 0x302c
def Reg.IMG_FW_VERSION : Nat := 0x3030
def Reg.IMG_DIGEST : Nat := 0x3040
def Reg.IMG_KEYDIG : Nat := 0x3080
def Reg.CHN_CTRL : Nat := 0x50000
def Reg.CHN_STATUS : Nat := 0x50004
def Reg.CHN_EVT : Nat := 0x50008
def Reg.CHN_EVT_EN : Nat := 0x5000c
def Reg.CHN_FE_CTRL : Nat := 0x50010
def Reg.CHN_FE_STATUS : Nat := 0x50014
def Reg.CHN_OFS_STATUS : Nat := 0x50018
def Reg.CHN_AGC_CFG : Nat := 0x5001c
def Reg.CHN_TR_CFG : Nat := 0x50020
def Reg.CHN_TR_STATUS : Nat := 0x50024
def Reg.CHN_NCO_SEED : Nat := 0x50028
def Reg.CHN_ADAPT_CFG : Nat := 0x5002c
def Reg.CHN_SYNC_CFG : Nat := 0x50030
def Reg.CHN_SYNC_LAST : Nat := 0x50034
def Reg.CHN_CAND : Nat := 0x50038
def Reg.CHN_ACQ_LAST : Nat := 0x50044
def Reg.CHN_DEF_CFG : Nat := 0x50048
def Reg.CHN_ENV_LAST : Nat := 0x5004c
def Reg.CHN_XT_STATUS : Nat := 0x50050
def Reg.CHN_ZONE : Nat := 0x50054
def Reg.CHN_WEDGE_CFG : Nat := 0x50058
def Reg.CHN_WEDGE_T1 : Nat := 0x5005c
def Reg.CHN_WEDGE_T2 : Nat := 0x50060
def Reg.CHN_WEDGE_ADDR : Nat := 0x50064
def Reg.CHN_POS : Nat := 0x50068
def Reg.CHN_RPL_STATUS : Nat := 0x5006c
def Reg.CHN_QUALITY : Nat := 0x50070
def Reg.CHN_TEST : Nat := 0x50074
def Reg.CHN_SEED : Nat := 0x50080
def Reg.CHN_EQ_LAST : Nat := 0x500c0
def Reg.CHN_XTL_LAST : Nat := 0x50104
def Reg.CHN_XTR_LAST : Nat := 0x50118
def Reg.CHN_CNT : Nat := 0x5012c
def Reg.DEC_CTRL : Nat := 0x54000
def Reg.DEC_STATUS : Nat := 0x54004
def Reg.DEC_EVT : Nat := 0x54008
def Reg.DEC_EVT_EN : Nat := 0x5400c
def Reg.DEC_ITER_CFG : Nat := 0x54010
def Reg.DEC_EF_CFG : Nat := 0x54014
def Reg.DEC_SCHED_CFG : Nat := 0x54018
def Reg.DEC_DET_CFG : Nat := 0x5401c
def Reg.DEC_LADDER_CFG : Nat := 0x54020
def Reg.DEC_IMP_CFG : Nat := 0x54024
def Reg.DEC_IMP_STATUS : Nat := 0x54028
def Reg.DEC_L4_STATUS : Nat := 0x5402c
def Reg.DEC_ENG_STATUS : Nat := 0x54040
def Reg.DEC_REDET_STATUS : Nat := 0x54080
def Reg.DEC_IMP_REACH : Nat := 0x540a0
def Reg.DEC_CNT : Nat := 0x540c0
def Reg.SKN_CTRL : Nat := 0x55000
def Reg.SKN_STATUS : Nat := 0x55004
def Reg.SKN_EVT : Nat := 0x55008
def Reg.SKN_EVT_EN : Nat := 0x5500c
def Reg.SKN_RELOC_CFG : Nat := 0x55010
def Reg.SKN_LAST_RECON : Nat := 0x55014
def Reg.SKN_CNT : Nat := 0x55020
def Reg.WRP_CTRL : Nat := 0x56000
def Reg.WRP_STATUS : Nat := 0x56004
def Reg.WRP_EVT : Nat := 0x56008
def Reg.WRP_EVT_EN : Nat := 0x5600c
def Reg.WRP_VFY_CFG : Nat := 0x56010
def Reg.WRP_VFY_MSE : Nat := 0x56014
def Reg.WRP_PASS_CFG : Nat := 0x56018
def Reg.WRP_CAR_STATUS : Nat := 0x56020
def Reg.WRP_FRONTIER : Nat := 0x56030
def Reg.WRP_PDL_CMD : Nat := 0x56040
def Reg.WRP_PDL_RESP : Nat := 0x56050
def Reg.WRP_CNT : Nat := 0x56080
def Reg.HNK_CTRL : Nat := 0x57000
def Reg.HNK_STATUS : Nat := 0x57004
def Reg.HNK_EVT : Nat := 0x57008
def Reg.HNK_EVT_EN : Nat := 0x5700c
def Reg.HNK_VOL_SEL : Nat := 0x57010
def Reg.HNK_VOL_HANKS : Nat := 0x57014
def Reg.HNK_VOL_UNITS : Nat := 0x57018
def Reg.HNK_ENG_STATUS : Nat := 0x57020
def Reg.HNK_CNT : Nat := 0x57040
def Reg.LPE_CTRL : Nat := 0x60000
def Reg.LPE_STATUS : Nat := 0x60004
def Reg.LPE_EVT : Nat := 0x60008
def Reg.LPE_EVT_EN : Nat := 0x6000c
def Reg.LPE_SP_TARGET : Nat := 0x60010
def Reg.LPE_SP : Nat := 0x60014
def Reg.LPE_SLEW : Nat := 0x60018
def Reg.LPE_OUT0 : Nat := 0x6001c
def Reg.LPE_OUT1 : Nat := 0x60020
def Reg.LPE_MEAS0 : Nat := 0x60024
def Reg.LPE_ERR0 : Nat := 0x60028
def Reg.LPE_LOCK_LIM : Nat := 0x6002c
def Reg.LPE_LOCK_CFG : Nat := 0x60030
def Reg.LPE_NM_SCALE : Nat := 0x60034
def Reg.LPE_OUT_MIN : Nat := 0x60038
def Reg.LPE_OUT_MAX : Nat := 0x6003c
def Reg.LPE_TRACE_GAIN : Nat := 0x60040
def Reg.LPE_TRACE_OFS : Nat := 0x60044
def Reg.LPE_COEF_IDX : Nat := 0x60048
def Reg.LPE_COEF_DATA : Nat := 0x6004c
def Reg.LPE_ERR_RMS : Nat := 0x60050
def Reg.LPE_CNT : Nat := 0x60054
def Reg.LPE_GSTATUS : Nat := 0x61000
def Reg.LPE_GEVT : Nat := 0x61004
def Reg.LPE_GEVT_EN : Nat := 0x61008
def Reg.LPE_PERIOD_LO : Nat := 0x61010
def Reg.LPE_PERIOD_HI : Nat := 0x61014
def Reg.LPE_CORE_LOAD : Nat := 0x61020
def Reg.LPE_CAR_CFG : Nat := 0x61030
def Reg.LPE_TRACE_VAL : Nat := 0x61040
def Reg.LPE_TEST : Nat := 0x61050
def Reg.SPN_CTRL : Nat := 0x62000
def Reg.SPN_STATUS : Nat := 0x62004
def Reg.SPN_EVT : Nat := 0x62008
def Reg.SPN_EVT_EN : Nat := 0x6200c
def Reg.SPN_PWM_CFG : Nat := 0x62010
def Reg.SPN_VSNS_DIV : Nat := 0x62014
def Reg.SPN_EST_CFG : Nat := 0x62018
def Reg.SPN_START_CFG : Nat := 0x6201c
def Reg.SPN_FAULT_CFG : Nat := 0x62020
def Reg.SPN_RATE_CFG : Nat := 0x62024
def Reg.SPN_SPEED : Nat := 0x62028
def Reg.SPN_TARGET : Nat := 0x6202c
def Reg.SPN_RATE_REQ : Nat := 0x62030
def Reg.SPN_CURRENT : Nat := 0x62034
def Reg.SPN_VBUS : Nat := 0x62038
def Reg.SPN_ANGLE : Nat := 0x6203c
def Reg.SPN_REV_LO : Nat := 0x62040
def Reg.SPN_REV_HI : Nat := 0x62044
def Reg.SPN_CNT : Nat := 0x62048
def Reg.CRG_CTRL : Nat := 0x63000
def Reg.CRG_STATUS : Nat := 0x63004
def Reg.CRG_EVT : Nat := 0x63008
def Reg.CRG_EVT_EN : Nat := 0x6300c
def Reg.CRG_CMD : Nat := 0x63010
def Reg.CRG_MOVE_TARGET : Nat := 0x63014
def Reg.CRG_SEEK_CFG : Nat := 0x63018
def Reg.CRG_JUMP_CFG : Nat := 0x6301c
def Reg.CRG_CUR_CFG : Nat := 0x63020
def Reg.CRG_SHUNT : Nat := 0x63024
def Reg.CRG_HOME_RADIUS : Nat := 0x63028
def Reg.CRG_POS : Nat := 0x6302c
def Reg.CRG_TARGET : Nat := 0x63030
def Reg.CRG_VEL : Nat := 0x63034
def Reg.CRG_ACC : Nat := 0x63038
def Reg.CRG_HOME_LATCH : Nat := 0x6303c
def Reg.CRG_TRACK_TARGET : Nat := 0x63040
def Reg.CRG_TURN : Nat := 0x63044
def Reg.CRG_JUMP_PHASE : Nat := 0x63048
def Reg.CRG_SEEK_LAST : Nat := 0x6304c
def Reg.CRG_COIL : Nat := 0x63050
def Reg.CRG_CNT : Nat := 0x63080
def Reg.CAM_PT_SEL : Nat := 0x64000
def Reg.CAM_PT_DATA : Nat := 0x64004
def Reg.CAM_COMMIT : Nat := 0x64008
def Reg.CAM_STATUS : Nat := 0x6400c
def Reg.CAM_EVT : Nat := 0x64010
def Reg.CAM_EVT_EN : Nat := 0x64014
def Reg.CAM_CTRL : Nat := 0x64100
def Reg.CAM_OUT : Nat := 0x64200
def Reg.CAM_MASTER : Nat := 0x64300
def Reg.HQ_CTRL : Nat := 0x20000
def Reg.HQ_STATUS : Nat := 0x20004
def Reg.HQ_EVT : Nat := 0x20008
def Reg.HQ_EVT_EN : Nat := 0x2000c
def Reg.HQ_WEIGHT : Nat := 0x20010
def Reg.HQ_U_BUDGET : Nat := 0x20014
def Reg.HQ_U_TOKENS : Nat := 0x20018
def Reg.HQ_DB_PEND : Nat := 0x2001c
def Reg.HQ_SEQ_LO : Nat := 0x20020
def Reg.HQ_SEQ_HI : Nat := 0x20024
def Reg.HQ_CNT : Nat := 0x20030
def Reg.HQ_FN_DIR_LO : Nat := 0x21000
def Reg.HQ_FN_DIR_HI : Nat := 0x21004
def Reg.HQ_FN_CTRL : Nat := 0x21008
def Reg.HQ_FN_STATUS : Nat := 0x2100c
def Reg.HQ_FN_VOLMASK_LO : Nat := 0x21010
def Reg.HQ_FN_VOLMASK_HI : Nat := 0x21014
def Reg.HQ_FN_RING_CMD : Nat := 0x21018
def Reg.HQ_FN_RING_STAT : Nat := 0x2101c
def Reg.HQ_FN_RING_ERR : Nat := 0x21020
def Reg.ORD_CTRL : Nat := 0x40000
def Reg.ORD_STATUS : Nat := 0x40004
def Reg.ORD_EVT : Nat := 0x40008
def Reg.ORD_EVT_EN : Nat := 0x4000c
def Reg.ORD_WAIT_CFG : Nat := 0x40010
def Reg.ORD_VOL_SEL : Nat := 0x40014
def Reg.ORD_VOL_STATUS : Nat := 0x40018
def Reg.ORD_VOL_DURABLE_LO : Nat := 0x40020
def Reg.ORD_VOL_DURABLE_HI : Nat := 0x40024
def Reg.ORD_GEN_ARG_LO : Nat := 0x40028
def Reg.ORD_GEN_ARG_HI : Nat := 0x4002c
def Reg.ORD_GEN_RESULT : Nat := 0x40030
def Reg.ORD_GEN_CUT_LO : Nat := 0x40038
def Reg.ORD_GEN_CUT_HI : Nat := 0x4003c
def Reg.ORD_CNT : Nat := 0x40040
def Reg.BC_CTRL : Nat := 0x70000
def Reg.BC_STATUS : Nat := 0x70004
def Reg.BC_EVT : Nat := 0x70008
def Reg.BC_EVT_EN : Nat := 0x7000c
def Reg.BC_CFG : Nat := 0x70010
def Reg.BC_OCC : Nat := 0x70014
def Reg.BC_INV_ADDR_LO : Nat := 0x70020
def Reg.BC_INV_ADDR_HI : Nat := 0x70024
def Reg.BC_INV_LEN : Nat := 0x70028
def Reg.BC_INV_CMD : Nat := 0x7002c
def Reg.BC_INV_STATUS : Nat := 0x70030
def Reg.BC_INV_RETAINED : Nat := 0x70034
def Reg.BC_LOCK_ADDR_LO : Nat := 0x70040
def Reg.BC_LOCK_ADDR_HI : Nat := 0x70044
def Reg.BC_LOCK_LEN : Nat := 0x70048
def Reg.BC_LOCK_CMD : Nat := 0x7004c
def Reg.BC_LOCK_STATUS : Nat := 0x70050
def Reg.BC_LOCK_REFUSED : Nat := 0x70054
def Reg.BC_TEST : Nat := 0x70060
def Reg.BC_PORT_HIT : Nat := 0x70080
def Reg.BC_PORT_MISS : Nat := 0x700a0
def Reg.BC_CNT : Nat := 0x700c0
def Reg.BM_CTRL : Nat := 0x71000
def Reg.BM_STATUS : Nat := 0x71004
def Reg.BM_EVT : Nat := 0x71008
def Reg.BM_EVT_EN : Nat := 0x7100c
def Reg.BM_ORG : Nat := 0x71010
def Reg.BM_REFRESH : Nat := 0x71014
def Reg.BM_QOS : Nat := 0x71020
def Reg.BM_PORT_LATE : Nat := 0x71040
def Reg.BM_CH_STATUS : Nat := 0x71060
def Reg.BM_CNT : Nat := 0x71080
def Reg.INT_CTRL : Nat := 0x72000
def Reg.INT_STATUS : Nat := 0x72004
def Reg.INT_EVT : Nat := 0x72008
def Reg.INT_EVT_EN : Nat := 0x7200c
def Reg.INT_SCRUB_INTERVAL : Nat := 0x72010
def Reg.INT_SCRUB_PASSES : Nat := 0x72014
def Reg.INT_SCRUB_POS : Nat := 0x72018
def Reg.INT_ERR_ADDR_LO : Nat := 0x72020
def Reg.INT_ERR_ADDR_HI : Nat := 0x72024
def Reg.INT_ERR_INFO : Nat := 0x72028
def Reg.INT_TEST_ADDR_LO : Nat := 0x72030
def Reg.INT_TEST_ADDR_HI : Nat := 0x72034
def Reg.INT_CNT : Nat := 0x72040
def Reg.GLB_STATUS : Nat := 0x100
def Reg.GLB_EVT : Nat := 0x104
def Reg.GLB_EVT_EN : Nat := 0x108
def Reg.GLB_STRAPS : Nat := 0x10c
def Reg.GLB_BIST : Nat := 0x110
def Reg.GLB_PWRFAIL_LAST : Nat := 0x114
def Reg.GLB_STAGE_T : Nat := 0x120
def Reg.CLK_STATUS : Nat := 0x1000
def Reg.CLK_XTAL_PPM : Nat := 0x1004
def Reg.CLK_EVT : Nat := 0x1008
def Reg.CLK_EVT_EN : Nat := 0x100c
def Reg.RST_CTRL : Nat := 0x2000
def Reg.RST_CAUSE : Nat := 0x2004
def Reg.RST_WARM_COUNT : Nat := 0x2008
def Reg.RST_SCRATCH : Nat := 0x2010
def Reg.CAL_CTRL : Nat := 0x73000
def Reg.CAL_STATUS : Nat := 0x73004
def Reg.CAL_EVT : Nat := 0x73008
def Reg.CAL_EVT_EN : Nat := 0x7300c
def Reg.CAL_SCOPE : Nat := 0x73010
def Reg.CAL_CHN_CFG : Nat := 0x73014
def Reg.CAL_WPC_CFG : Nat := 0x73018
def Reg.CAL_MECH_CFG : Nat := 0x7301c
def Reg.CAL_LAST : Nat := 0x73020
def Reg.CAL_LAST_RUN : Nat := 0x73024
def Reg.CAL_LAST_Q0 : Nat := 0x73028
def Reg.CAL_LAST_Q1 : Nat := 0x7302c
def Reg.CAL_STRAND_Q : Nat := 0x73030
def Reg.CAL_CNT : Nat := 0x73060
def Reg.UNT_SEL : Nat := 0x80000
def Reg.UNT_STATE : Nat := 0x80004
def Reg.UNT_EPOCH : Nat := 0x80008
def Reg.UNT_CHANGED_LO : Nat := 0x8000c
def Reg.UNT_CHANGED_HI : Nat := 0x80010
def Reg.UNT_HOLD : Nat := 0x80014
def Reg.UNT_EVT : Nat := 0x80018
def Reg.UNT_EVT_EN : Nat := 0x8001c
def Reg.UNT_STATUS : Nat := 0x80020
def Reg.UNT_SERVING : Nat := 0x80040
def Reg.UNT_CNT : Nat := 0x80060
def Reg.MGT_CTRL : Nat := 0x81000
def Reg.MGT_STATUS : Nat := 0x81004
def Reg.MGT_EVT : Nat := 0x81008
def Reg.MGT_EVT_EN : Nat := 0x8100c
def Reg.MGT_DECK_ID : Nat := 0x81010
def Reg.MGT_IPV4 : Nat := 0x81014
def Reg.MGT_IPV6 : Nat := 0x81018
def Reg.MGT_TIME_LO : Nat := 0x81028
def Reg.MGT_TIME_HI : Nat := 0x8102c
def Reg.MGT_PTP_OFS : Nat := 0x81030
def Reg.MGT_LOG_WR_LO : Nat := 0x81038
def Reg.MGT_LOG_WR_HI : Nat := 0x8103c
def Reg.MGT_LOG_RD_LO : Nat := 0x81040
def Reg.MGT_LOG_RD_HI : Nat := 0x81044
def Reg.MGT_LOG_VEC : Nat := 0x81048
def Reg.MGT_LOG_WIN : Nat := 0x81050
def Reg.MGT_CNT : Nat := 0x810c0
def Reg.PRL_CTRL : Nat := 0x82000
def Reg.PRL_STATUS : Nat := 0x82004
def Reg.PRL_EVT : Nat := 0x82008
def Reg.PRL_EVT_EN : Nat := 0x8200c
def Reg.PRL_CFG : Nat := 0x82010
def Reg.PRL_LINK : Nat := 0x82014
def Reg.PRL_ACK_SEQ_LO : Nat := 0x82018
def Reg.PRL_ACK_SEQ_HI : Nat := 0x8201c
def Reg.PRL_TAKEOVER_T : Nat := 0x82020
def Reg.PRL_CNT : Nat := 0x82040
def Reg.GLB_ID : Nat := 0x0
def Reg.GLB_VENDOR : Nat := 0x4
def Reg.GLB_SIZES : Nat := 0x8
def Reg.GLB_VERSION : Nat := 0xc
def Reg.GLB_SUBSYS : Nat := 0x10
def Reg.GLB_UID : Nat := 0x20
def Reg.GLB_TEMP : Nat := 0x30

def Fld.IMG_CTRL_CMD : Fld := ⟨Reg.IMG_CTRL, 3, 0⟩
def Fld.IMG_CTRL_REVOKE_N : Fld := ⟨Reg.IMG_CTRL, 5, 4⟩
def Fld.IMG_CTRL_KEY : Fld := ⟨Reg.IMG_CTRL, 31, 24⟩
def Fld.IMG_STATUS_STAGE : Fld := ⟨Reg.IMG_STATUS, 2, 0⟩
def Fld.IMG_STATUS_SOURCE : Fld := ⟨Reg.IMG_STATUS, 6, 4⟩
def Fld.IMG_STATUS_FALLBACK : Fld := ⟨Reg.IMG_STATUS, 7, 7⟩
def Fld.IMG_STATUS_SIG_STATE : Fld := ⟨Reg.IMG_STATUS, 9, 8⟩
def Fld.IMG_STATUS_STAGED_VALID : Fld := ⟨Reg.IMG_STATUS, 10, 10⟩
def Fld.IMG_STATUS_BUSY : Fld := ⟨Reg.IMG_STATUS, 11, 11⟩
def Fld.IMG_STATUS_QSTATE : Fld := ⟨Reg.IMG_STATUS, 13, 12⟩
def Fld.IMG_STATUS_HOLDING : Fld := ⟨Reg.IMG_STATUS, 14, 14⟩
def Fld.IMG_STATUS_DECKID_ZERO : Fld := ⟨Reg.IMG_STATUS, 15, 15⟩
def Fld.IMG_ERR_CODE : Fld := ⟨Reg.IMG_ERR, 7, 0⟩
def Fld.IMG_ERR_SECTION : Fld := ⟨Reg.IMG_ERR, 15, 8⟩
def Fld.IMG_ERR_OP : Fld := ⟨Reg.IMG_ERR, 19, 16⟩
def Fld.IMG_EVT_FETCH_DONE : Fld := ⟨Reg.IMG_EVT, 0, 0⟩
def Fld.IMG_EVT_FETCH_FAIL : Fld := ⟨Reg.IMG_EVT, 1, 1⟩
def Fld.IMG_EVT_QUIESCED : Fld := ⟨Reg.IMG_EVT, 2, 2⟩
def Fld.IMG_EVT_PROG_DONE : Fld := ⟨Reg.IMG_EVT, 3, 3⟩
def Fld.IMG_EVT_PROG_FAIL : Fld := ⟨Reg.IMG_EVT, 4, 4⟩
def Fld.IMG_EVT_BOOT_FALLBACK : Fld := ⟨Reg.IMG_EVT, 5, 5⟩
def Fld.IMG_EVT_APPLY_FAIL : Fld := ⟨Reg.IMG_EVT, 6, 6⟩
def Fld.IMG_FUSE_IMG_ENFORCE : Fld := ⟨Reg.IMG_FUSE, 0, 0⟩
def Fld.IMG_FUSE_IMG_NO_ROM : Fld := ⟨Reg.IMG_FUSE, 1, 1⟩
def Fld.IMG_FUSE_KEY_BURNT : Fld := ⟨Reg.IMG_FUSE, 2, 2⟩
def Fld.IMG_FUSE_VENDOR_KEY_REVOKE : Fld := ⟨Reg.IMG_FUSE, 7, 4⟩
def Fld.CHN_CTRL_LAST_HOLD : Fld := ⟨Reg.CHN_CTRL, 0, 0⟩
def Fld.CHN_CTRL_XT_OFF : Fld := ⟨Reg.CHN_CTRL, 1, 1⟩
def Fld.CHN_CTRL_AGC_MANUAL : Fld := ⟨Reg.CHN_CTRL, 2, 2⟩
def Fld.CHN_CTRL_ADAPT_OFF : Fld := ⟨Reg.CHN_CTRL, 3, 3⟩
def Fld.CHN_STATUS_READING : Fld := ⟨Reg.CHN_STATUS, 4, 4⟩
def Fld.CHN_STATUS_BLANK : Fld := ⟨Reg.CHN_STATUS, 5, 5⟩
def Fld.CHN_STATUS_TIMING_LOST : Fld := ⟨Reg.CHN_STATUS, 6, 6⟩
def Fld.CHN_STATUS_DEFECT : Fld := ⟨Reg.CHN_STATUS, 7, 7⟩
def Fld.CHN_STATUS_ACQ : Fld := ⟨Reg.CHN_STATUS, 8, 8⟩
def Fld.CHN_STATUS_WEDGE_LOCK : Fld := ⟨Reg.CHN_STATUS, 9, 9⟩
def Fld.CHN_STATUS_POS_VALID : Fld := ⟨Reg.CHN_STATUS, 10, 10⟩
def Fld.CHN_STATUS_IMPORT : Fld := ⟨Reg.CHN_STATUS, 11, 11⟩
def Fld.CHN_EVT_RELAXED_SYNC : Fld := ⟨Reg.CHN_EVT, 0, 0⟩
def Fld.CHN_EVT_NO_SYNC : Fld := ⟨Reg.CHN_EVT, 1, 1⟩
def Fld.CHN_EVT_TIMING_LOST : Fld := ⟨Reg.CHN_EVT, 2, 2⟩
def Fld.CHN_EVT_WEDGE_MISS_REV : Fld := ⟨Reg.CHN_EVT, 3, 3⟩
def Fld.CHN_EVT_RPL_SKIP : Fld := ⟨Reg.CHN_EVT, 4, 4⟩
def Fld.CHN_EVT_RPL_PARITY : Fld := ⟨Reg.CHN_EVT, 5, 5⟩
def Fld.CHN_EVT_ZONE_LATE : Fld := ⟨Reg.CHN_EVT, 6, 6⟩
def Fld.CHN_FE_CTRL_CTF_BOOST_OVR : Fld := ⟨Reg.CHN_FE_CTRL, 3, 0⟩
def Fld.CHN_FE_CTRL_CTF_FC_OVR : Fld := ⟨Reg.CHN_FE_CTRL, 13, 8⟩
def Fld.CHN_FE_CTRL_VGA_MAN : Fld := ⟨Reg.CHN_FE_CTRL, 23, 16⟩
def Fld.CHN_FE_CTRL_CTF_OVR : Fld := ⟨Reg.CHN_FE_CTRL, 31, 31⟩
def Fld.CHN_FE_STATUS_CTF : Fld := ⟨Reg.CHN_FE_STATUS, 3, 0⟩
def Fld.CHN_OFS_STATUS_OFS : Fld := ⟨Reg.CHN_OFS_STATUS, 7, 0⟩
def Fld.CHN_AGC_CFG_ASYM_SHIFT : Fld := ⟨Reg.CHN_AGC_CFG, 3, 0⟩
def Fld.CHN_AGC_CFG_OFS_SHIFT : Fld := ⟨Reg.CHN_AGC_CFG, 7, 4⟩
def Fld.CHN_AGC_CFG_TRK_SHIFT : Fld := ⟨Reg.CHN_AGC_CFG, 11, 8⟩
def Fld.CHN_AGC_CFG_ACQ_SHIFT : Fld := ⟨Reg.CHN_AGC_CFG, 15, 12⟩
def Fld.CHN_AGC_CFG_AGC_SPAN : Fld := ⟨Reg.CHN_AGC_CFG, 23, 16⟩
def Fld.CHN_AGC_CFG_AGC_REF : Fld := ⟨Reg.CHN_AGC_CFG, 31, 24⟩
def Fld.CHN_TR_CFG_FREQ_LIM : Fld := ⟨Reg.CHN_TR_CFG, 7, 0⟩
def Fld.CHN_TR_CFG_TRK_KI : Fld := ⟨Reg.CHN_TR_CFG, 11, 8⟩
def Fld.CHN_TR_CFG_TRK_KP : Fld := ⟨Reg.CHN_TR_CFG, 15, 12⟩
def Fld.CHN_TR_CFG_ACQ_KI : Fld := ⟨Reg.CHN_TR_CFG, 19, 16⟩
def Fld.CHN_TR_CFG_ACQ_KP : Fld := ⟨Reg.CHN_TR_CFG, 23, 20⟩
def Fld.CHN_TR_CFG_ACQ_LEN8 : Fld := ⟨Reg.CHN_TR_CFG, 28, 24⟩
def Fld.CHN_ADAPT_CFG_RPL_EQ_MU : Fld := ⟨Reg.CHN_ADAPT_CFG, 19, 16⟩
def Fld.CHN_ADAPT_CFG_XT_MU : Fld := ⟨Reg.CHN_ADAPT_CFG, 23, 20⟩
def Fld.CHN_ADAPT_CFG_EQ_MU : Fld := ⟨Reg.CHN_ADAPT_CFG, 27, 24⟩
def Fld.CHN_SYNC_CFG_SYNC_THR : Fld := ⟨Reg.CHN_SYNC_CFG, 7, 0⟩
def Fld.CHN_SYNC_CFG_SYNC_RELAX : Fld := ⟨Reg.CHN_SYNC_CFG, 15, 8⟩
def Fld.CHN_SYNC_CFG_SYNC_WIN : Fld := ⟨Reg.CHN_SYNC_CFG, 21, 16⟩
def Fld.CHN_SYNC_LAST_ANCHOR_OFS : Fld := ⟨Reg.CHN_SYNC_LAST, 7, 0⟩
def Fld.CHN_SYNC_LAST_OFFSET : Fld := ⟨Reg.CHN_SYNC_LAST, 15, 8⟩
def Fld.CHN_SYNC_LAST_AGREE : Fld := ⟨Reg.CHN_SYNC_LAST, 22, 16⟩
def Fld.CHN_SYNC_LAST_N_CAND : Fld := ⟨Reg.CHN_SYNC_LAST, 29, 28⟩
def Fld.CHN_SYNC_LAST_RELAXED : Fld := ⟨Reg.CHN_SYNC_LAST, 30, 30⟩
def Fld.CHN_SYNC_LAST_NO_SYNC : Fld := ⟨Reg.CHN_SYNC_LAST, 31, 31⟩
def Fld.CHN_DEF_CFG_BLANK_LVL : Fld := ⟨Reg.CHN_DEF_CFG, 3, 0⟩
def Fld.CHN_DEF_CFG_DEF_RISE : Fld := ⟨Reg.CHN_DEF_CFG, 8, 4⟩
def Fld.CHN_DEF_CFG_DEF_DROP : Fld := ⟨Reg.CHN_DEF_CFG, 13, 9⟩
def Fld.CHN_DEF_CFG_DEF_MIN : Fld := ⟨Reg.CHN_DEF_CFG, 17, 14⟩
def Fld.CHN_DEF_CFG_DEF_PRE : Fld := ⟨Reg.CHN_DEF_CFG, 23, 18⟩
def Fld.CHN_DEF_CFG_DEF_POST : Fld := ⟨Reg.CHN_DEF_CFG, 31, 24⟩
def Fld.CHN_XT_STATUS_XT_DELAY : Fld := ⟨Reg.CHN_XT_STATUS, 15, 8⟩
def Fld.CHN_ZONE_SEED_READY : Fld := ⟨Reg.CHN_ZONE, 0, 0⟩
def Fld.CHN_ZONE_ZONE : Fld := ⟨Reg.CHN_ZONE, 13, 8⟩
def Fld.CHN_ZONE_LF : Fld := ⟨Reg.CHN_ZONE, 20, 16⟩
def Fld.CHN_ZONE_SEED_SRC : Fld := ⟨Reg.CHN_ZONE, 29, 28⟩
def Fld.CHN_WEDGE_CFG_WSYNC_THR : Fld := ⟨Reg.CHN_WEDGE_CFG, 4, 0⟩
def Fld.CHN_WEDGE_CFG_WSYNC_WIN : Fld := ⟨Reg.CHN_WEDGE_CFG, 15, 8⟩
def Fld.CHN_WEDGE_CFG_LEG_THR : Fld := ⟨Reg.CHN_WEDGE_CFG, 23, 16⟩
def Fld.CHN_RPL_STATUS_VALID : Fld := ⟨Reg.CHN_RPL_STATUS, 3, 0⟩
def Fld.CHN_RPL_STATUS_PINNED : Fld := ⟨Reg.CHN_RPL_STATUS, 7, 4⟩
def Fld.CHN_QUALITY_MSE : Fld := ⟨Reg.CHN_QUALITY, 31, 16⟩
def Fld.CHN_TEST_FORCE_DEFECT : Fld := ⟨Reg.CHN_TEST, 0, 0⟩
def Fld.CHN_TEST_FORCE_SYNC_MISS : Fld := ⟨Reg.CHN_TEST, 1, 1⟩
def Fld.DEC_CTRL_PAUSE_RECOVERY : Fld := ⟨Reg.DEC_CTRL, 0, 0⟩
def Fld.DEC_CTRL_FORCE_EF : Fld := ⟨Reg.DEC_CTRL, 1, 1⟩
def Fld.DEC_STATUS_IN_LADDER : Fld := ⟨Reg.DEC_STATUS, 15, 0⟩
def Fld.DEC_STATUS_FIRST_WAIT : Fld := ⟨Reg.DEC_STATUS, 23, 16⟩
def Fld.DEC_STATUS_REDET_BUSY : Fld := ⟨Reg.DEC_STATUS, 27, 24⟩
def Fld.DEC_STATUS_ENG_BUSY : Fld := ⟨Reg.DEC_STATUS, 31, 28⟩
def Fld.DEC_EVT_INPUT_FULL : Fld := ⟨Reg.DEC_EVT, 0, 0⟩
def Fld.DEC_EVT_DEADLINE_MISS : Fld := ⟨Reg.DEC_EVT, 1, 1⟩
def Fld.DEC_EVT_MISCORRECT : Fld := ⟨Reg.DEC_EVT, 2, 2⟩
def Fld.DEC_EVT_UNRECOVERED : Fld := ⟨Reg.DEC_EVT, 3, 3⟩
def Fld.DEC_EVT_L4_SPEED : Fld := ⟨Reg.DEC_EVT, 4, 4⟩
def Fld.DEC_EVT_IMPORT_ID : Fld := ⟨Reg.DEC_EVT, 5, 5⟩
def Fld.DEC_EVT_IMPORT_FAIL : Fld := ⟨Reg.DEC_EVT, 6, 6⟩
def Fld.DEC_EVT_ADDR_MISMATCH : Fld := ⟨Reg.DEC_EVT, 7, 7⟩
def Fld.DEC_ITER_CFG_L1_GLOBAL : Fld := ⟨Reg.DEC_ITER_CFG, 7, 4⟩
def Fld.DEC_ITER_CFG_L1_INNER : Fld := ⟨Reg.DEC_ITER_CFG, 15, 8⟩
def Fld.DEC_ITER_CFG_L0_ITER : Fld := ⟨Reg.DEC_ITER_CFG, 23, 16⟩
def Fld.DEC_ITER_CFG_MS_OFFSET : Fld := ⟨Reg.DEC_ITER_CFG, 27, 24⟩
def Fld.DEC_EF_CFG_EF_LIMIT : Fld := ⟨Reg.DEC_EF_CFG, 12, 0⟩
def Fld.DEC_SCHED_CFG_FIRST_DL : Fld := ⟨Reg.DEC_SCHED_CFG, 15, 0⟩
def Fld.DEC_SCHED_CFG_RECOV_DL : Fld := ⟨Reg.DEC_SCHED_CFG, 31, 16⟩
def Fld.DEC_DET_CFG_LLR_SCALE : Fld := ⟨Reg.DEC_DET_CFG, 7, 0⟩
def Fld.DEC_DET_CFG_NP_OFF : Fld := ⟨Reg.DEC_DET_CFG, 8, 8⟩
def Fld.DEC_LADDER_CFG_L6_ROUNDS : Fld := ⟨Reg.DEC_LADDER_CFG, 15, 12⟩
def Fld.DEC_LADDER_CFG_L4_READS : Fld := ⟨Reg.DEC_LADDER_CFG, 19, 16⟩
def Fld.DEC_LADDER_CFG_L3_READS : Fld := ⟨Reg.DEC_LADDER_CFG, 23, 20⟩
def Fld.DEC_LADDER_CFG_L4_PCT : Fld := ⟨Reg.DEC_LADDER_CFG, 31, 24⟩
def Fld.DEC_IMP_CFG_IMP_RETRIES : Fld := ⟨Reg.DEC_IMP_CFG, 3, 0⟩
def Fld.DEC_IMP_CFG_IMP_SPEED_MAX : Fld := ⟨Reg.DEC_IMP_CFG, 15, 8⟩
def Fld.DEC_IMP_STATUS_SPEED : Fld := ⟨Reg.DEC_IMP_STATUS, 23, 16⟩
def Fld.DEC_IMP_STATUS_LAYERS : Fld := ⟨Reg.DEC_IMP_STATUS, 27, 24⟩
def Fld.DEC_IMP_STATUS_TYPE : Fld := ⟨Reg.DEC_IMP_STATUS, 30, 28⟩
def Fld.DEC_IMP_STATUS_ACTIVE : Fld := ⟨Reg.DEC_IMP_STATUS, 31, 31⟩
def Fld.DEC_L4_STATUS_ACTIVE : Fld := ⟨Reg.DEC_L4_STATUS, 31, 31⟩
def Fld.DEC_ENG_STATUS_STRAND : Fld := ⟨Reg.DEC_ENG_STATUS, 4, 0⟩
def Fld.DEC_ENG_STATUS_ITER : Fld := ⟨Reg.DEC_ENG_STATUS, 23, 16⟩
def Fld.DEC_ENG_STATUS_STEP : Fld := ⟨Reg.DEC_ENG_STATUS, 26, 24⟩
def Fld.DEC_ENG_STATUS_KIND : Fld := ⟨Reg.DEC_ENG_STATUS, 28, 27⟩
def Fld.DEC_ENG_STATUS_BUSY : Fld := ⟨Reg.DEC_ENG_STATUS, 29, 29⟩
def Fld.DEC_ENG_STATUS_FIRST_ONLY : Fld := ⟨Reg.DEC_ENG_STATUS, 30, 30⟩
def Fld.DEC_ENG_STATUS_ENABLED : Fld := ⟨Reg.DEC_ENG_STATUS, 31, 31⟩
def Fld.DEC_REDET_STATUS_STRAND : Fld := ⟨Reg.DEC_REDET_STATUS, 4, 0⟩
def Fld.DEC_REDET_STATUS_STEP : Fld := ⟨Reg.DEC_REDET_STATUS, 26, 24⟩
def Fld.DEC_REDET_STATUS_MODE : Fld := ⟨Reg.DEC_REDET_STATUS, 28, 27⟩
def Fld.DEC_REDET_STATUS_BUSY : Fld := ⟨Reg.DEC_REDET_STATUS, 29, 29⟩
def Fld.DEC_REDET_STATUS_ENABLED : Fld := ⟨Reg.DEC_REDET_STATUS, 31, 31⟩
def Fld.SKN_CTRL_RELOC_PAUSE : Fld := ⟨Reg.SKN_CTRL, 0, 0⟩
def Fld.SKN_STATUS_RECON_WAIT : Fld := ⟨Reg.SKN_STATUS, 15, 0⟩
def Fld.SKN_STATUS_RELOC_QUEUE : Fld := ⟨Reg.SKN_STATUS, 24, 16⟩
def Fld.SKN_STATUS_ENG0_BUSY : Fld := ⟨Reg.SKN_STATUS, 30, 30⟩
def Fld.SKN_STATUS_ENG1_BUSY : Fld := ⟨Reg.SKN_STATUS, 31, 31⟩
def Fld.SKN_EVT_RECON_MISMATCH : Fld := ⟨Reg.SKN_EVT, 0, 0⟩
def Fld.SKN_EVT_RELOC_FAIL : Fld := ⟨Reg.SKN_EVT, 2, 2⟩
def Fld.SKN_EVT_RELOC_QUEUE_FULL : Fld := ⟨Reg.SKN_EVT, 3, 3⟩
def Fld.SKN_EVT_META_WEAK : Fld := ⟨Reg.SKN_EVT, 4, 4⟩
def Fld.SKN_EVT_RELOC_DONE : Fld := ⟨Reg.SKN_EVT, 5, 5⟩
def Fld.SKN_RELOC_CFG_L2_RELOC : Fld := ⟨Reg.SKN_RELOC_CFG, 3, 0⟩
def Fld.SKN_RELOC_CFG_RELOC_MIN : Fld := ⟨Reg.SKN_RELOC_CFG, 11, 8⟩
def Fld.SKN_LAST_RECON_ERASE_MASK : Fld := ⟨Reg.SKN_LAST_RECON, 15, 0⟩
def Fld.SKN_LAST_RECON_COUNT : Fld := ⟨Reg.SKN_LAST_RECON, 20, 16⟩
def Fld.SKN_LAST_RECON_SUCCESS : Fld := ⟨Reg.SKN_LAST_RECON, 30, 30⟩
def Fld.SKN_LAST_RECON_MISMATCH : Fld := ⟨Reg.SKN_LAST_RECON, 31, 31⟩
def Fld.WRP_CTRL_WRITE_INHIBIT : Fld := ⟨Reg.WRP_CTRL, 0, 0⟩
def Fld.WRP_CTRL_RETRY_HELD : Fld := ⟨Reg.WRP_CTRL, 1, 1⟩
def Fld.WRP_CTRL_PREREAD_ALWAYS : Fld := ⟨Reg.WRP_CTRL, 2, 2⟩
def Fld.WRP_STATUS_SKEINS_OPEN : Fld := ⟨Reg.WRP_STATUS, 15, 0⟩
def Fld.WRP_STATUS_HELD_MIB : Fld := ⟨Reg.WRP_STATUS, 31, 16⟩
def Fld.WRP_EVT_VERIFY_FAIL : Fld := ⟨Reg.WRP_EVT, 0, 0⟩
def Fld.WRP_EVT_VERIFY_EXHAUSTED : Fld := ⟨Reg.WRP_EVT, 1, 1⟩
def Fld.WRP_EVT_WRITTEN_FOUND : Fld := ⟨Reg.WRP_EVT, 2, 2⟩
def Fld.WRP_EVT_OFFTRACK_STOP : Fld := ⟨Reg.WRP_EVT, 3, 3⟩
def Fld.WRP_EVT_INTERLOCK : Fld := ⟨Reg.WRP_EVT, 4, 4⟩
def Fld.WRP_EVT_PWRFAIL_STOP : Fld := ⟨Reg.WRP_EVT, 5, 5⟩
def Fld.WRP_EVT_PDL_ERROR : Fld := ⟨Reg.WRP_EVT, 6, 6⟩
def Fld.WRP_EVT_DRIVER_FAULT : Fld := ⟨Reg.WRP_EVT, 7, 7⟩
def Fld.WRP_EVT_WRITE_STOP : Fld := ⟨Reg.WRP_EVT, 8, 8⟩
def Fld.WRP_VFY_CFG_VFY_UNSAT_MAX : Fld := ⟨Reg.WRP_VFY_CFG, 7, 0⟩
def Fld.WRP_VFY_CFG_VFY_ERASE_MAX : Fld := ⟨Reg.WRP_VFY_CFG, 15, 8⟩
def Fld.WRP_VFY_CFG_VFY_ITER_MAX : Fld := ⟨Reg.WRP_VFY_CFG, 23, 16⟩
def Fld.WRP_VFY_CFG_VFY_HDIFF_MAX : Fld := ⟨Reg.WRP_VFY_CFG, 31, 24⟩
def Fld.WRP_VFY_MSE_VFY_MSE_MAX : Fld := ⟨Reg.WRP_VFY_MSE, 15, 0⟩
def Fld.WRP_PASS_CFG_REWRITE_MAX : Fld := ⟨Reg.WRP_PASS_CFG, 7, 4⟩
def Fld.WRP_PASS_CFG_DEFOCUS_LIM : Fld := ⟨Reg.WRP_PASS_CFG, 15, 8⟩
def Fld.WRP_PASS_CFG_OFFTRACK_LIM : Fld := ⟨Reg.WRP_PASS_CFG, 23, 16⟩
def Fld.WRP_PASS_CFG_PASS_BURST : Fld := ⟨Reg.WRP_PASS_CFG, 27, 24⟩
def Fld.WRP_PASS_CFG_TURN_JUMP : Fld := ⟨Reg.WRP_PASS_CFG, 31, 28⟩
def Fld.WRP_CAR_STATUS_PASS_BLOCKS : Fld := ⟨Reg.WRP_CAR_STATUS, 6, 0⟩
def Fld.WRP_CAR_STATUS_WRITE_OK : Fld := ⟨Reg.WRP_CAR_STATUS, 15, 8⟩
def Fld.WRP_CAR_STATUS_LEN : Fld := ⟨Reg.WRP_CAR_STATUS, 27, 27⟩
def Fld.WRP_CAR_STATUS_WGATE : Fld := ⟨Reg.WRP_CAR_STATUS, 28, 28⟩
def Fld.WRP_CAR_STATUS_STATE : Fld := ⟨Reg.WRP_CAR_STATUS, 31, 29⟩
def Fld.WRP_PDL_RESP_ERROR : Fld := ⟨Reg.WRP_PDL_RESP, 30, 30⟩
def Fld.WRP_PDL_RESP_VALID : Fld := ⟨Reg.WRP_PDL_RESP, 31, 31⟩
def Fld.HNK_CTRL_FORCE_MISMATCH : Fld := ⟨Reg.HNK_CTRL, 0, 0⟩
def Fld.HNK_CTRL_RESTORE : Fld := ⟨Reg.HNK_CTRL, 13, 8⟩
def Fld.HNK_STATUS_QUEUED : Fld := ⟨Reg.HNK_STATUS, 11, 0⟩
def Fld.HNK_STATUS_USE_LIMIT : Fld := ⟨Reg.HNK_STATUS, 14, 12⟩
def Fld.HNK_STATUS_IN_SERVICE : Fld := ⟨Reg.HNK_STATUS, 21, 16⟩
def Fld.HNK_STATUS_FAULTED : Fld := ⟨Reg.HNK_STATUS, 29, 24⟩
def Fld.HNK_EVT_COMPARE_MISMATCH : Fld := ⟨Reg.HNK_EVT, 0, 0⟩
def Fld.HNK_EVT_ENGINE_FAULT : Fld := ⟨Reg.HNK_EVT, 1, 1⟩
def Fld.HNK_EVT_HANK_CHECK_FAIL : Fld := ⟨Reg.HNK_EVT, 2, 2⟩
def Fld.HNK_EVT_NO_ENGINE : Fld := ⟨Reg.HNK_EVT, 3, 3⟩
def Fld.HNK_ENG_STATUS_VOLUME : Fld := ⟨Reg.HNK_ENG_STATUS, 21, 16⟩
def Fld.HNK_ENG_STATUS_LEVEL : Fld := ⟨Reg.HNK_ENG_STATUS, 24, 22⟩
def Fld.HNK_ENG_STATUS_MODE : Fld := ⟨Reg.HNK_ENG_STATUS, 26, 25⟩
def Fld.HNK_ENG_STATUS_RESTORE : Fld := ⟨Reg.HNK_ENG_STATUS, 27, 27⟩
def Fld.HNK_ENG_STATUS_OP : Fld := ⟨Reg.HNK_ENG_STATUS, 28, 28⟩
def Fld.HNK_ENG_STATUS_BUSY : Fld := ⟨Reg.HNK_ENG_STATUS, 29, 29⟩
def Fld.HNK_ENG_STATUS_FAULTED : Fld := ⟨Reg.HNK_ENG_STATUS, 30, 30⟩
def Fld.HNK_ENG_STATUS_ENABLED : Fld := ⟨Reg.HNK_ENG_STATUS, 31, 31⟩
def Fld.LPE_CTRL_ENABLE : Fld := ⟨Reg.LPE_CTRL, 0, 0⟩
def Fld.LPE_CTRL_SWAP : Fld := ⟨Reg.LPE_CTRL, 1, 1⟩
def Fld.LPE_CTRL_PARK : Fld := ⟨Reg.LPE_CTRL, 2, 2⟩
def Fld.LPE_CTRL_CLR_FAULT : Fld := ⟨Reg.LPE_CTRL, 3, 3⟩
def Fld.LPE_CTRL_FOLLOW : Fld := ⟨Reg.LPE_CTRL, 4, 4⟩
def Fld.LPE_CTRL_INTERP : Fld := ⟨Reg.LPE_CTRL, 5, 5⟩
def Fld.LPE_CTRL_MASK : Fld := ⟨Reg.LPE_CTRL, 9, 6⟩
def Fld.LPE_STATUS_LOCK_RUN : Fld := ⟨Reg.LPE_STATUS, 7, 0⟩
def Fld.LPE_STATUS_HOLD_LEN : Fld := ⟨Reg.LPE_STATUS, 15, 8⟩
def Fld.LPE_STATUS_OVR_RUN : Fld := ⟨Reg.LPE_STATUS, 19, 16⟩
def Fld.LPE_STATUS_HELD : Fld := ⟨Reg.LPE_STATUS, 23, 20⟩
def Fld.LPE_STATUS_SAT : Fld := ⟨Reg.LPE_STATUS, 25, 24⟩
def Fld.LPE_STATUS_FOLLOWING : Fld := ⟨Reg.LPE_STATUS, 26, 26⟩
def Fld.LPE_STATUS_BANK : Fld := ⟨Reg.LPE_STATUS, 27, 27⟩
def Fld.LPE_STATUS_RAMPING : Fld := ⟨Reg.LPE_STATUS, 28, 28⟩
def Fld.LPE_STATUS_STATE : Fld := ⟨Reg.LPE_STATUS, 31, 29⟩
def Fld.LPE_EVT_OVERRUN : Fld := ⟨Reg.LPE_EVT, 0, 0⟩
def Fld.LPE_EVT_FAULT : Fld := ⟨Reg.LPE_EVT, 1, 1⟩
def Fld.LPE_EVT_LOST_LOCK : Fld := ⟨Reg.LPE_EVT, 2, 2⟩
def Fld.LPE_EVT_DEFECT_HOLD : Fld := ⟨Reg.LPE_EVT, 3, 3⟩
def Fld.LPE_EVT_SAT : Fld := ⟨Reg.LPE_EVT, 4, 4⟩
def Fld.LPE_EVT_ENABLE_REFUSED : Fld := ⟨Reg.LPE_EVT, 5, 5⟩
def Fld.LPE_EVT_SWAP_DONE : Fld := ⟨Reg.LPE_EVT, 6, 6⟩
def Fld.LPE_EVT_PARITY : Fld := ⟨Reg.LPE_EVT, 7, 7⟩
def Fld.LPE_EVT_TRACE_LOST : Fld := ⟨Reg.LPE_EVT, 8, 8⟩
def Fld.LPE_LOCK_CFG_INTEG_MASK : Fld := ⟨Reg.LPE_LOCK_CFG, 7, 0⟩
def Fld.LPE_LOCK_CFG_LOCK_CNT : Fld := ⟨Reg.LPE_LOCK_CFG, 23, 16⟩
def Fld.LPE_COEF_IDX_IDX : Fld := ⟨Reg.LPE_COEF_IDX, 7, 0⟩
def Fld.LPE_COEF_IDX_AUTO_INC : Fld := ⟨Reg.LPE_COEF_IDX, 8, 8⟩
def Fld.LPE_COEF_IDX_RD_ACTIVE : Fld := ⟨Reg.LPE_COEF_IDX, 9, 9⟩
def Fld.LPE_ERR_RMS_RMS : Fld := ⟨Reg.LPE_ERR_RMS, 15, 0⟩
def Fld.LPE_GSTATUS_CORE_OVER : Fld := ⟨Reg.LPE_GSTATUS, 3, 0⟩
def Fld.LPE_GEVT_OVER_BUDGET : Fld := ⟨Reg.LPE_GEVT, 0, 0⟩
def Fld.LPE_GEVT_ADC_REF : Fld := ⟨Reg.LPE_GEVT, 17, 2⟩
def Fld.LPE_CAR_CFG_MEAS_MODE : Fld := ⟨Reg.LPE_CAR_CFG, 0, 0⟩
def Fld.LPE_CAR_CFG_DEFHOLD_MIN : Fld := ⟨Reg.LPE_CAR_CFG, 11, 8⟩
def Fld.LPE_CAR_CFG_DPP_K : Fld := ⟨Reg.LPE_CAR_CFG, 31, 16⟩
def Fld.LPE_TEST_SLOT : Fld := ⟨Reg.LPE_TEST, 4, 0⟩
def Fld.LPE_TEST_FORCE_OVR : Fld := ⟨Reg.LPE_TEST, 8, 8⟩
def Fld.SPN_CTRL_START : Fld := ⟨Reg.SPN_CTRL, 0, 0⟩
def Fld.SPN_CTRL_STOP : Fld := ⟨Reg.SPN_CTRL, 1, 1⟩
def Fld.SPN_CTRL_STOP_COAST : Fld := ⟨Reg.SPN_CTRL, 2, 2⟩
def Fld.SPN_CTRL_CLR_FAULT : Fld := ⟨Reg.SPN_CTRL, 3, 3⟩
def Fld.SPN_CTRL_RATE_HOLD : Fld := ⟨Reg.SPN_CTRL, 4, 4⟩
def Fld.SPN_CTRL_FORCE_LOSS : Fld := ⟨Reg.SPN_CTRL, 8, 8⟩
def Fld.SPN_STATUS_BLEND : Fld := ⟨Reg.SPN_STATUS, 15, 8⟩
def Fld.SPN_STATUS_RETRIES : Fld := ⟨Reg.SPN_STATUS, 23, 22⟩
def Fld.SPN_STATUS_VLIMIT : Fld := ⟨Reg.SPN_STATUS, 24, 24⟩
def Fld.SPN_STATUS_GATES : Fld := ⟨Reg.SPN_STATUS, 25, 25⟩
def Fld.SPN_STATUS_EST : Fld := ⟨Reg.SPN_STATUS, 27, 26⟩
def Fld.SPN_STATUS_PHASE : Fld := ⟨Reg.SPN_STATUS, 31, 28⟩
def Fld.SPN_EVT_ROTOR_LOSS : Fld := ⟨Reg.SPN_EVT, 0, 0⟩
def Fld.SPN_EVT_RECATCH_OK : Fld := ⟨Reg.SPN_EVT, 1, 1⟩
def Fld.SPN_EVT_RECATCH_FAIL : Fld := ⟨Reg.SPN_EVT, 2, 2⟩
def Fld.SPN_EVT_LOCKED_ROTOR : Fld := ⟨Reg.SPN_EVT, 3, 3⟩
def Fld.SPN_EVT_OVERCURRENT : Fld := ⟨Reg.SPN_EVT, 4, 4⟩
def Fld.SPN_EVT_ALIGN_FAIL : Fld := ⟨Reg.SPN_EVT, 5, 5⟩
def Fld.SPN_EVT_RUNUP_TIMEOUT : Fld := ⟨Reg.SPN_EVT, 6, 6⟩
def Fld.SPN_EVT_BRAKE_TIMEOUT : Fld := ⟨Reg.SPN_EVT, 7, 7⟩
def Fld.SPN_PWM_CFG_SHUNT_GAIN : Fld := ⟨Reg.SPN_PWM_CFG, 1, 0⟩
def Fld.SPN_PWM_CFG_SHUNT_WIN : Fld := ⟨Reg.SPN_PWM_CFG, 15, 8⟩
def Fld.SPN_PWM_CFG_DEADTIME : Fld := ⟨Reg.SPN_PWM_CFG, 23, 16⟩
def Fld.SPN_EST_CFG_INJ_MIN : Fld := ⟨Reg.SPN_EST_CFG, 23, 16⟩
def Fld.SPN_EST_CFG_PLL_BW : Fld := ⟨Reg.SPN_EST_CFG, 31, 24⟩
def Fld.SPN_START_CFG_BRAKE_TMAX : Fld := ⟨Reg.SPN_START_CFG, 7, 0⟩
def Fld.SPN_START_CFG_RUNUP_TMAX : Fld := ⟨Reg.SPN_START_CFG, 15, 8⟩
def Fld.SPN_START_CFG_BRAKE_PCT : Fld := ⟨Reg.SPN_START_CFG, 23, 16⟩
def Fld.SPN_START_CFG_RUNUP_PCT : Fld := ⟨Reg.SPN_START_CFG, 31, 24⟩
def Fld.SPN_FAULT_CFG_OC_PCT : Fld := ⟨Reg.SPN_FAULT_CFG, 7, 0⟩
def Fld.SPN_RATE_CFG_RA_MIB : Fld := ⟨Reg.SPN_RATE_CFG, 31, 16⟩
def Fld.SPN_SPEED_VALID : Fld := ⟨Reg.SPN_SPEED, 30, 30⟩
def Fld.SPN_SPEED_BACKWARD : Fld := ⟨Reg.SPN_SPEED, 31, 31⟩
def Fld.SPN_TARGET_SOURCE : Fld := ⟨Reg.SPN_TARGET, 31, 28⟩
def Fld.SPN_CURRENT_I_D : Fld := ⟨Reg.SPN_CURRENT, 15, 0⟩
def Fld.SPN_CURRENT_I_Q : Fld := ⟨Reg.SPN_CURRENT, 31, 16⟩
def Fld.SPN_VBUS_VBUS : Fld := ⟨Reg.SPN_VBUS, 15, 0⟩
def Fld.CRG_CTRL_FORCE_SLIP : Fld := ⟨Reg.CRG_CTRL, 0, 0⟩
def Fld.CRG_CTRL_CLR_FAULT : Fld := ⟨Reg.CRG_CTRL, 1, 1⟩
def Fld.CRG_STATUS_RETRY : Fld := ⟨Reg.CRG_STATUS, 19, 16⟩
def Fld.CRG_STATUS_SHAPE_DEFAULT : Fld := ⟨Reg.CRG_STATUS, 20, 20⟩
def Fld.CRG_STATUS_SEEK_PENDING : Fld := ⟨Reg.CRG_STATUS, 21, 21⟩
def Fld.CRG_STATUS_GATES : Fld := ⟨Reg.CRG_STATUS, 22, 22⟩
def Fld.CRG_STATUS_REVERSING : Fld := ⟨Reg.CRG_STATUS, 23, 23⟩
def Fld.CRG_STATUS_JUMP_KIND : Fld := ⟨Reg.CRG_STATUS, 24, 24⟩
def Fld.CRG_STATUS_JUMPING : Fld := ⟨Reg.CRG_STATUS, 25, 25⟩
def Fld.CRG_STATUS_MODE : Fld := ⟨Reg.CRG_STATUS, 26, 26⟩
def Fld.CRG_STATUS_HOMED : Fld := ⟨Reg.CRG_STATUS, 27, 27⟩
def Fld.CRG_STATUS_STATE : Fld := ⟨Reg.CRG_STATUS, 31, 28⟩
def Fld.CRG_EVT_SEEK_DONE : Fld := ⟨Reg.CRG_EVT, 0, 0⟩
def Fld.CRG_EVT_SEEK_FAIL : Fld := ⟨Reg.CRG_EVT, 1, 1⟩
def Fld.CRG_EVT_REVERSAL : Fld := ⟨Reg.CRG_EVT, 2, 2⟩
def Fld.CRG_EVT_SLIP : Fld := ⟨Reg.CRG_EVT, 3, 3⟩
def Fld.CRG_EVT_HOME_FAIL : Fld := ⟨Reg.CRG_EVT, 4, 4⟩
def Fld.CRG_EVT_HOME_UNEXPECTED : Fld := ⟨Reg.CRG_EVT, 5, 5⟩
def Fld.CRG_EVT_COIL_OC : Fld := ⟨Reg.CRG_EVT, 6, 6⟩
def Fld.CRG_EVT_COIL_OPEN : Fld := ⟨Reg.CRG_EVT, 7, 7⟩
def Fld.CRG_EVT_CMD_REFUSED : Fld := ⟨Reg.CRG_EVT, 8, 8⟩
def Fld.CRG_EVT_JUMP_SHAPE : Fld := ⟨Reg.CRG_EVT, 9, 9⟩
def Fld.CRG_CMD_TURN : Fld := ⟨Reg.CRG_CMD, 13, 0⟩
def Fld.CRG_CMD_LF : Fld := ⟨Reg.CRG_CMD, 20, 16⟩
def Fld.CRG_CMD_CMD : Fld := ⟨Reg.CRG_CMD, 31, 28⟩
def Fld.CRG_MOVE_TARGET_MOVE : Fld := ⟨Reg.CRG_MOVE_TARGET, 14, 0⟩
def Fld.CRG_SEEK_CFG_SLIP_LIM : Fld := ⟨Reg.CRG_SEEK_CFG, 7, 0⟩
def Fld.CRG_SEEK_CFG_REV_TOL : Fld := ⟨Reg.CRG_SEEK_CFG, 11, 8⟩
def Fld.CRG_SEEK_CFG_RETRIES : Fld := ⟨Reg.CRG_SEEK_CFG, 15, 12⟩
def Fld.CRG_SEEK_CFG_FINE_TURNS : Fld := ⟨Reg.CRG_SEEK_CFG, 23, 16⟩
def Fld.CRG_SEEK_CFG_SETTLE : Fld := ⟨Reg.CRG_SEEK_CFG, 31, 24⟩
def Fld.CRG_JUMP_CFG_D1_DEF : Fld := ⟨Reg.CRG_JUMP_CFG, 15, 0⟩
def Fld.CRG_JUMP_CFG_CAPTURE_TMAX : Fld := ⟨Reg.CRG_JUMP_CFG, 23, 16⟩
def Fld.CRG_JUMP_CFG_LJ_SETTLE : Fld := ⟨Reg.CRG_JUMP_CFG, 31, 24⟩
def Fld.CRG_CUR_CFG_OC_PCT : Fld := ⟨Reg.CRG_CUR_CFG, 7, 0⟩
def Fld.CRG_CUR_CFG_MIX_PCT : Fld := ⟨Reg.CRG_CUR_CFG, 15, 8⟩
def Fld.CRG_CUR_CFG_KI_C : Fld := ⟨Reg.CRG_CUR_CFG, 23, 16⟩
def Fld.CRG_CUR_CFG_KP_C : Fld := ⟨Reg.CRG_CUR_CFG, 31, 24⟩
def Fld.CRG_POS_HOMED : Fld := ⟨Reg.CRG_POS, 31, 31⟩
def Fld.CRG_TRACK_TARGET_TRACK_TARGET_ : Fld := ⟨Reg.CRG_TRACK_TARGET, 25, 0⟩
def Fld.CRG_TURN_LF : Fld := ⟨Reg.CRG_TURN, 20, 16⟩
def Fld.CAM_PT_SEL_POINT : Fld := ⟨Reg.CAM_PT_SEL, 9, 0⟩
def Fld.CAM_PT_SEL_TABLE : Fld := ⟨Reg.CAM_PT_SEL, 21, 16⟩
def Fld.CAM_PT_SEL_AUTO_INC : Fld := ⟨Reg.CAM_PT_SEL, 31, 31⟩
def Fld.CAM_COMMIT_TABLE : Fld := ⟨Reg.CAM_COMMIT, 5, 0⟩
def Fld.CAM_COMMIT_GO : Fld := ⟨Reg.CAM_COMMIT, 8, 8⟩
def Fld.CAM_STATUS_COMMIT_PENDING : Fld := ⟨Reg.CAM_STATUS, 31, 31⟩
def Fld.CAM_EVT_COMMIT_DONE : Fld := ⟨Reg.CAM_EVT, 0, 0⟩
def Fld.CAM_EVT_COMMIT_DEFERRED : Fld := ⟨Reg.CAM_EVT, 1, 1⟩
def Fld.CAM_EVT_BUSY : Fld := ⟨Reg.CAM_EVT, 2, 2⟩
def Fld.CAM_EVT_ENGAGE_REFUSED : Fld := ⟨Reg.CAM_EVT, 3, 3⟩
def Fld.CAM_EVT_SHAPE_REFUSED : Fld := ⟨Reg.CAM_EVT, 4, 4⟩
def Fld.CAM_EVT_MASTER_INVALID : Fld := ⟨Reg.CAM_EVT, 5, 5⟩
def Fld.CAM_CTRL_ENGAGE : Fld := ⟨Reg.CAM_CTRL, 0, 0⟩
def Fld.CAM_CTRL_TIME_RESET : Fld := ⟨Reg.CAM_CTRL, 1, 1⟩
def Fld.HQ_CTRL_FETCH_STOP : Fld := ⟨Reg.HQ_CTRL, 0, 0⟩
def Fld.HQ_STATUS_CTX_USED : Fld := ⟨Reg.HQ_STATUS, 11, 0⟩
def Fld.HQ_STATUS_TAGS_USED : Fld := ⟨Reg.HQ_STATUS, 29, 16⟩
def Fld.HQ_EVT_RING_ERROR : Fld := ⟨Reg.HQ_EVT, 0, 0⟩
def Fld.HQ_EVT_DB_DISCARD : Fld := ⟨Reg.HQ_EVT, 1, 1⟩
def Fld.HQ_EVT_CTX_STARVED : Fld := ⟨Reg.HQ_EVT, 2, 2⟩
def Fld.HQ_EVT_TAGS_FULL : Fld := ⟨Reg.HQ_EVT, 3, 3⟩
def Fld.HQ_EVT_CPL_FULL : Fld := ⟨Reg.HQ_EVT, 4, 4⟩
def Fld.HQ_EVT_FLR : Fld := ⟨Reg.HQ_EVT, 5, 5⟩
def Fld.HQ_EVT_HOST_ACCESS : Fld := ⟨Reg.HQ_EVT, 6, 6⟩
def Fld.HQ_EVT_U_EXHAUSTED : Fld := ⟨Reg.HQ_EVT, 7, 7⟩
def Fld.HQ_WEIGHT_W_H : Fld := ⟨Reg.HQ_WEIGHT, 7, 0⟩
def Fld.HQ_WEIGHT_W_M : Fld := ⟨Reg.HQ_WEIGHT, 15, 8⟩
def Fld.HQ_WEIGHT_W_L : Fld := ⟨Reg.HQ_WEIGHT, 23, 16⟩
def Fld.HQ_FN_CTRL_FETCH_STOP : Fld := ⟨Reg.HQ_FN_CTRL, 0, 0⟩
def Fld.HQ_FN_STATUS_CTX_HELD : Fld := ⟨Reg.HQ_FN_STATUS, 11, 0⟩
def Fld.HQ_FN_STATUS_TAGS_USED : Fld := ⟨Reg.HQ_FN_STATUS, 29, 16⟩
def Fld.HQ_FN_STATUS_IN_FLR : Fld := ⟨Reg.HQ_FN_STATUS, 30, 30⟩
def Fld.HQ_FN_STATUS_HAS_RINGS : Fld := ⟨Reg.HQ_FN_STATUS, 31, 31⟩
def Fld.HQ_FN_RING_CMD_RING : Fld := ⟨Reg.HQ_FN_RING_CMD, 19, 0⟩
def Fld.HQ_FN_RING_CMD_OP : Fld := ⟨Reg.HQ_FN_RING_CMD, 31, 28⟩
def Fld.HQ_FN_RING_STAT_IN_FLIGHT : Fld := ⟨Reg.HQ_FN_RING_STAT, 15, 0⟩
def Fld.HQ_FN_RING_STAT_DB_PENDING : Fld := ⟨Reg.HQ_FN_RING_STAT, 27, 27⟩
def Fld.HQ_FN_RING_STAT_HALTED : Fld := ⟨Reg.HQ_FN_RING_STAT, 28, 28⟩
def Fld.HQ_FN_RING_STAT_RESIDENT : Fld := ⟨Reg.HQ_FN_RING_STAT, 29, 29⟩
def Fld.HQ_FN_RING_STAT_REFUSED : Fld := ⟨Reg.HQ_FN_RING_STAT, 30, 30⟩
def Fld.HQ_FN_RING_STAT_DONE : Fld := ⟨Reg.HQ_FN_RING_STAT, 31, 31⟩
def Fld.HQ_FN_RING_ERR_RING : Fld := ⟨Reg.HQ_FN_RING_ERR, 19, 0⟩
def Fld.HQ_FN_RING_ERR_CAUSE : Fld := ⟨Reg.HQ_FN_RING_ERR, 31, 28⟩
def Fld.ORD_CTRL_GEN_GO : Fld := ⟨Reg.ORD_CTRL, 0, 0⟩
def Fld.ORD_CTRL_REPLAY_CLEAR : Fld := ⟨Reg.ORD_CTRL, 1, 1⟩
def Fld.ORD_STATUS_WAITING : Fld := ⟨Reg.ORD_STATUS, 13, 0⟩
def Fld.ORD_STATUS_ENTRIES : Fld := ⟨Reg.ORD_STATUS, 29, 16⟩
def Fld.ORD_EVT_LOCK_WAIT_LONG : Fld := ⟨Reg.ORD_EVT, 0, 0⟩
def Fld.ORD_EVT_ABORTED : Fld := ⟨Reg.ORD_EVT, 1, 1⟩
def Fld.ORD_EVT_ABORT_TOO_LATE : Fld := ⟨Reg.ORD_EVT, 2, 2⟩
def Fld.ORD_EVT_REPLAY_HIT : Fld := ⟨Reg.ORD_EVT, 3, 3⟩
def Fld.ORD_EVT_CLEAR_REFUSED : Fld := ⟨Reg.ORD_EVT, 4, 4⟩
def Fld.ORD_EVT_GEN_DONE : Fld := ⟨Reg.ORD_EVT, 5, 5⟩
def Fld.ORD_WAIT_CFG_WAIT_WARN : Fld := ⟨Reg.ORD_WAIT_CFG, 15, 0⟩
def Fld.ORD_VOL_SEL_VOLUME : Fld := ⟨Reg.ORD_VOL_SEL, 5, 0⟩
def Fld.ORD_VOL_STATUS_REPLAY_ENTRIES : Fld := ⟨Reg.ORD_VOL_STATUS, 16, 0⟩
def Fld.ORD_VOL_STATUS_CREATING : Fld := ⟨Reg.ORD_VOL_STATUS, 29, 29⟩
def Fld.ORD_VOL_STATUS_CLOSING : Fld := ⟨Reg.ORD_VOL_STATUS, 30, 30⟩
def Fld.ORD_VOL_STATUS_HELD : Fld := ⟨Reg.ORD_VOL_STATUS, 31, 31⟩
def Fld.ORD_GEN_RESULT_BEYOND : Fld := ⟨Reg.ORD_GEN_RESULT, 28, 28⟩
def Fld.ORD_GEN_RESULT_PARTIAL : Fld := ⟨Reg.ORD_GEN_RESULT, 29, 29⟩
def Fld.ORD_GEN_RESULT_UNKNOWN : Fld := ⟨Reg.ORD_GEN_RESULT, 30, 30⟩
def Fld.ORD_GEN_RESULT_DONE : Fld := ⟨Reg.ORD_GEN_RESULT, 31, 31⟩
def Fld.BC_CTRL_ENABLE : Fld := ⟨Reg.BC_CTRL, 0, 0⟩
def Fld.BC_STATUS_MISS_PEND : Fld := ⟨Reg.BC_STATUS, 8, 0⟩
def Fld.BC_STATUS_TWIN_FULL : Fld := ⟨Reg.BC_STATUS, 26, 26⟩
def Fld.BC_STATUS_LOCK_BUSY : Fld := ⟨Reg.BC_STATUS, 27, 27⟩
def Fld.BC_STATUS_INV_BUSY : Fld := ⟨Reg.BC_STATUS, 28, 28⟩
def Fld.BC_STATUS_STALE_RISK : Fld := ⟨Reg.BC_STATUS, 29, 29⟩
def Fld.BC_STATUS_STATE : Fld := ⟨Reg.BC_STATUS, 31, 30⟩
def Fld.BC_EVT_LOCK_RETAINED : Fld := ⟨Reg.BC_EVT, 0, 0⟩
def Fld.BC_EVT_INV_DONE : Fld := ⟨Reg.BC_EVT, 1, 1⟩
def Fld.BC_EVT_LOCK_REFUSED : Fld := ⟨Reg.BC_EVT, 2, 2⟩
def Fld.BC_EVT_PARITY_RECOVERED : Fld := ⟨Reg.BC_EVT, 3, 3⟩
def Fld.BC_EVT_PARITY_FATAL : Fld := ⟨Reg.BC_EVT, 4, 4⟩
def Fld.BC_EVT_SCRATCH_PARITY : Fld := ⟨Reg.BC_EVT, 5, 5⟩
def Fld.BC_EVT_STALE_ENABLE : Fld := ⟨Reg.BC_EVT, 6, 6⟩
def Fld.BC_EVT_TWIN_FULL : Fld := ⟨Reg.BC_EVT, 7, 7⟩
def Fld.BC_EVT_DISABLED : Fld := ⟨Reg.BC_EVT, 8, 8⟩
def Fld.BC_CFG_HASH_SEED : Fld := ⟨Reg.BC_CFG, 13, 0⟩
def Fld.BC_CFG_CACHE_WAYS : Fld := ⟨Reg.BC_CFG, 20, 16⟩
def Fld.BC_CFG_SCRATCH_WAYS : Fld := ⟨Reg.BC_CFG, 27, 24⟩
def Fld.BC_OCC_VICTIM_USED : Fld := ⟨Reg.BC_OCC, 5, 0⟩
def Fld.BC_OCC_TWIN_USED : Fld := ⟨Reg.BC_OCC, 31, 16⟩
def Fld.BC_INV_CMD_OP : Fld := ⟨Reg.BC_INV_CMD, 1, 0⟩
def Fld.BC_INV_CMD_WHOLE : Fld := ⟨Reg.BC_INV_CMD, 3, 3⟩
def Fld.BC_INV_CMD_INV_FORCE : Fld := ⟨Reg.BC_INV_CMD, 4, 4⟩
def Fld.BC_INV_STATUS_OP : Fld := ⟨Reg.BC_INV_STATUS, 1, 0⟩
def Fld.BC_INV_STATUS_REFUSED : Fld := ⟨Reg.BC_INV_STATUS, 29, 29⟩
def Fld.BC_INV_STATUS_BUSY : Fld := ⟨Reg.BC_INV_STATUS, 30, 30⟩
def Fld.BC_INV_STATUS_DONE : Fld := ⟨Reg.BC_INV_STATUS, 31, 31⟩
def Fld.BC_LOCK_CMD_OP : Fld := ⟨Reg.BC_LOCK_CMD, 1, 0⟩
def Fld.BC_LOCK_CMD_ALL : Fld := ⟨Reg.BC_LOCK_CMD, 3, 3⟩
def Fld.BC_LOCK_STATUS_LOCKED : Fld := ⟨Reg.BC_LOCK_STATUS, 17, 0⟩
def Fld.BC_LOCK_STATUS_REFUSED_OP : Fld := ⟨Reg.BC_LOCK_STATUS, 29, 29⟩
def Fld.BC_LOCK_STATUS_BUSY : Fld := ⟨Reg.BC_LOCK_STATUS, 30, 30⟩
def Fld.BC_LOCK_STATUS_DONE : Fld := ⟨Reg.BC_LOCK_STATUS, 31, 31⟩
def Fld.BC_TEST_FORCE_DATA_PARITY : Fld := ⟨Reg.BC_TEST, 0, 0⟩
def Fld.BC_TEST_FORCE_TWIN_PARITY : Fld := ⟨Reg.BC_TEST, 1, 1⟩
def Fld.BM_CTRL_POINT : Fld := ⟨Reg.BM_CTRL, 0, 0⟩
def Fld.BM_CTRL_REF_AB : Fld := ⟨Reg.BM_CTRL, 4, 4⟩
def Fld.BM_STATUS_DRAM_HOT : Fld := ⟨Reg.BM_STATUS, 26, 26⟩
def Fld.BM_STATUS_THERM_FORCED : Fld := ⟨Reg.BM_STATUS, 27, 27⟩
def Fld.BM_STATUS_SET : Fld := ⟨Reg.BM_STATUS, 28, 28⟩
def Fld.BM_STATUS_POINT : Fld := ⟨Reg.BM_STATUS, 29, 29⟩
def Fld.BM_STATUS_STATE : Fld := ⟨Reg.BM_STATUS, 31, 30⟩
def Fld.BM_EVT_POINT_DONE : Fld := ⟨Reg.BM_EVT, 0, 0⟩
def Fld.BM_EVT_REFRESH_FORCED : Fld := ⟨Reg.BM_EVT, 1, 1⟩
def Fld.BM_EVT_DRAM_HOT : Fld := ⟨Reg.BM_EVT, 2, 2⟩
def Fld.BM_EVT_CH_FAULT : Fld := ⟨Reg.BM_EVT, 3, 3⟩
def Fld.BM_EVT_TRAIN_FAIL : Fld := ⟨Reg.BM_EVT, 4, 4⟩
def Fld.BM_ORG_MAP_ORDER : Fld := ⟨Reg.BM_ORG, 31, 24⟩
def Fld.BM_CH_STATUS_FAULTED : Fld := ⟨Reg.BM_CH_STATUS, 30, 30⟩
def Fld.BM_CH_STATUS_TRAINED : Fld := ⟨Reg.BM_CH_STATUS, 31, 31⟩
def Fld.INT_CTRL_SCRUB_PAUSE : Fld := ⟨Reg.INT_CTRL, 0, 0⟩
def Fld.INT_CTRL_SCRUB_RESTART : Fld := ⟨Reg.INT_CTRL, 1, 1⟩
def Fld.INT_CTRL_FORCE_PARITY : Fld := ⟨Reg.INT_CTRL, 8, 8⟩
def Fld.INT_STATUS_BURST : Fld := ⟨Reg.INT_STATUS, 30, 30⟩
def Fld.INT_STATUS_SCRUB_RUN : Fld := ⟨Reg.INT_STATUS, 31, 31⟩
def Fld.INT_EVT_PARITY_REPAIRED : Fld := ⟨Reg.INT_EVT, 0, 0⟩
def Fld.INT_EVT_PARITY_REFETCH : Fld := ⟨Reg.INT_EVT, 1, 1⟩
def Fld.INT_EVT_PARITY_FATAL : Fld := ⟨Reg.INT_EVT, 2, 2⟩
def Fld.INT_EVT_DATA_LOST : Fld := ⟨Reg.INT_EVT, 3, 3⟩
def Fld.INT_EVT_DB_LOST : Fld := ⟨Reg.INT_EVT, 4, 4⟩
def Fld.INT_EVT_SCRUB_PASS : Fld := ⟨Reg.INT_EVT, 5, 5⟩
def Fld.INT_EVT_MRAM_INVALID : Fld := ⟨Reg.INT_EVT, 6, 6⟩
def Fld.INT_EVT_MRAM_WRITE_FAIL : Fld := ⟨Reg.INT_EVT, 7, 7⟩
def Fld.INT_ERR_INFO_BYTES : Fld := ⟨Reg.INT_ERR_INFO, 7, 0⟩
def Fld.INT_ERR_INFO_PORT : Fld := ⟨Reg.INT_ERR_INFO, 22, 20⟩
def Fld.INT_ERR_INFO_SCRUBBER : Fld := ⟨Reg.INT_ERR_INFO, 23, 23⟩
def Fld.INT_ERR_INFO_OUTCOME : Fld := ⟨Reg.INT_ERR_INFO, 26, 24⟩
def Fld.INT_ERR_INFO_CHANNEL : Fld := ⟨Reg.INT_ERR_INFO, 27, 27⟩
def Fld.INT_ERR_INFO_CLASS : Fld := ⟨Reg.INT_ERR_INFO, 31, 28⟩
def Fld.GLB_STATUS_STAGE : Fld := ⟨Reg.GLB_STATUS, 2, 0⟩
def Fld.GLB_STATUS_STRAP_CONFLICT : Fld := ⟨Reg.GLB_STATUS, 12, 12⟩
def Fld.GLB_STATUS_OWNER : Fld := ⟨Reg.GLB_STATUS, 13, 13⟩
def Fld.GLB_STATUS_PWRFAIL_DONE : Fld := ⟨Reg.GLB_STATUS, 14, 14⟩
def Fld.GLB_STATUS_PWRFAIL : Fld := ⟨Reg.GLB_STATUS, 15, 15⟩
def Fld.GLB_STATUS_HALT_CAUSE : Fld := ⟨Reg.GLB_STATUS, 30, 28⟩
def Fld.GLB_STATUS_HALT : Fld := ⟨Reg.GLB_STATUS, 31, 31⟩
def Fld.GLB_EVT_PWRFAIL : Fld := ⟨Reg.GLB_EVT, 0, 0⟩
def Fld.GLB_EVT_BIST_DEGRADED : Fld := ⟨Reg.GLB_EVT, 1, 1⟩
def Fld.GLB_EVT_STRAP_CONFLICT : Fld := ⟨Reg.GLB_EVT, 2, 2⟩
def Fld.GLB_EVT_PERST : Fld := ⟨Reg.GLB_EVT, 3, 3⟩
def Fld.GLB_STRAPS_BOOT_SRC : Fld := ⟨Reg.GLB_STRAPS, 1, 0⟩
def Fld.GLB_STRAPS_PAIR_EN : Fld := ⟨Reg.GLB_STRAPS, 4, 4⟩
def Fld.GLB_STRAPS_PAIR_ROLE : Fld := ⟨Reg.GLB_STRAPS, 5, 5⟩
def Fld.GLB_STRAPS_DECKID_STRAP : Fld := ⟨Reg.GLB_STRAPS, 13, 8⟩
def Fld.GLB_BIST_FIRST_INSTANCE : Fld := ⟨Reg.GLB_BIST, 7, 0⟩
def Fld.GLB_BIST_FIRST_GROUP : Fld := ⟨Reg.GLB_BIST, 15, 8⟩
def Fld.GLB_BIST_FAIL_COUNT : Fld := ⟨Reg.GLB_BIST, 23, 16⟩
def Fld.GLB_BIST_FULL : Fld := ⟨Reg.GLB_BIST, 31, 31⟩
def Fld.CLK_STATUS_XSPI_FAST : Fld := ⟨Reg.CLK_STATUS, 27, 27⟩
def Fld.CLK_STATUS_DDR_DIV : Fld := ⟨Reg.CLK_STATUS, 29, 28⟩
def Fld.CLK_STATUS_PCIE_REF : Fld := ⟨Reg.CLK_STATUS, 30, 30⟩
def Fld.CLK_XTAL_PPM_VALID : Fld := ⟨Reg.CLK_XTAL_PPM, 31, 31⟩
def Fld.CLK_EVT_PCIE_REF_LOST : Fld := ⟨Reg.CLK_EVT, 0, 0⟩
def Fld.RST_CTRL_WARM : Fld := ⟨Reg.RST_CTRL, 0, 0⟩
def Fld.RST_CTRL_KEY : Fld := ⟨Reg.RST_CTRL, 31, 24⟩
def Fld.RST_CAUSE_CAUSE : Fld := ⟨Reg.RST_CAUSE, 3, 0⟩
def Fld.CAL_CTRL_APPLY_OFF : Fld := ⟨Reg.CAL_CTRL, 0, 0⟩
def Fld.CAL_CTRL_FORCE_CHECKER_FAIL : Fld := ⟨Reg.CAL_CTRL, 1, 1⟩
def Fld.CAL_STATUS_TEST : Fld := ⟨Reg.CAL_STATUS, 0, 0⟩
def Fld.CAL_STATUS_BIST : Fld := ⟨Reg.CAL_STATUS, 2, 1⟩
def Fld.CAL_STATUS_SPN_CAL : Fld := ⟨Reg.CAL_STATUS, 3, 3⟩
def Fld.CAL_STATUS_CAR_CAL : Fld := ⟨Reg.CAL_STATUS, 7, 4⟩
def Fld.CAL_EVT_DONE : Fld := ⟨Reg.CAL_EVT, 0, 0⟩
def Fld.CAL_EVT_REJECTED : Fld := ⟨Reg.CAL_EVT, 1, 1⟩
def Fld.CAL_EVT_TIMEOUT : Fld := ⟨Reg.CAL_EVT, 2, 2⟩
def Fld.CAL_EVT_MOTOR_MISMATCH : Fld := ⟨Reg.CAL_EVT, 3, 3⟩
def Fld.CAL_EVT_CHECKER_FAIL : Fld := ⟨Reg.CAL_EVT, 4, 4⟩
def Fld.CAL_EVT_BIST_FAIL : Fld := ⟨Reg.CAL_EVT, 5, 5⟩
def Fld.CAL_EVT_MRAM_FAIL : Fld := ⟨Reg.CAL_EVT, 6, 6⟩
def Fld.CAL_EVT_CAM_BINDING : Fld := ⟨Reg.CAL_EVT, 7, 7⟩
def Fld.CAL_SCOPE_ZONE_COUNT : Fld := ⟨Reg.CAL_SCOPE, 3, 0⟩
def Fld.CAL_SCOPE_ZONE_FIRST : Fld := ⟨Reg.CAL_SCOPE, 13, 8⟩
def Fld.CAL_SCOPE_LF : Fld := ⟨Reg.CAL_SCOPE, 20, 16⟩
def Fld.CAL_CHN_CFG_MARGIN_MIN : Fld := ⟨Reg.CAL_CHN_CFG, 15, 0⟩
def Fld.CAL_CHN_CFG_SNR_REQ : Fld := ⟨Reg.CAL_CHN_CFG, 31, 16⟩
def Fld.CAL_WPC_CFG_JIT_MAX : Fld := ⟨Reg.CAL_WPC_CFG, 15, 8⟩
def Fld.CAL_WPC_CFG_BETA_TARGET : Fld := ⟨Reg.CAL_WPC_CFG, 31, 16⟩
def Fld.CAL_MECH_CFG_SPREAD_MAX : Fld := ⟨Reg.CAL_MECH_CFG, 7, 0⟩
def Fld.CAL_MECH_CFG_MISMATCH_PCT : Fld := ⟨Reg.CAL_MECH_CFG, 15, 8⟩
def Fld.CAL_LAST_OUTCOME : Fld := ⟨Reg.CAL_LAST, 2, 0⟩
def Fld.CAL_LAST_STATUS : Fld := ⟨Reg.CAL_LAST, 15, 8⟩
def Fld.CAL_LAST_OP : Fld := ⟨Reg.CAL_LAST, 19, 18⟩
def Fld.CAL_LAST_KIND : Fld := ⟨Reg.CAL_LAST, 23, 20⟩
def Fld.CAL_LAST_UNIT : Fld := ⟨Reg.CAL_LAST, 31, 24⟩
def Fld.CAL_STRAND_Q_BER : Fld := ⟨Reg.CAL_STRAND_Q, 14, 0⟩
def Fld.CAL_STRAND_Q_STRAND_TRIM : Fld := ⟨Reg.CAL_STRAND_Q, 7, 0⟩
def Fld.CAL_STRAND_Q_LOWER_BOUND : Fld := ⟨Reg.CAL_STRAND_Q, 15, 15⟩
def Fld.UNT_STATE_UNIT : Fld := ⟨Reg.UNT_STATE, 7, 0⟩
def Fld.UNT_STATE_REASON : Fld := ⟨Reg.UNT_STATE, 15, 8⟩
def Fld.UNT_STATE_PREV : Fld := ⟨Reg.UNT_STATE, 23, 16⟩
def Fld.UNT_STATE_STATE : Fld := ⟨Reg.UNT_STATE, 31, 24⟩
def Fld.UNT_EVT_STATE_CHANGE : Fld := ⟨Reg.UNT_EVT, 0, 0⟩
def Fld.UNT_EVT_STATE_CONFLICT : Fld := ⟨Reg.UNT_EVT, 1, 1⟩
def Fld.UNT_EVT_SUSPECT_EXPIRED : Fld := ⟨Reg.UNT_EVT, 2, 2⟩
def Fld.UNT_EVT_INTERLOCK : Fld := ⟨Reg.UNT_EVT, 3, 3⟩
def Fld.UNT_EVT_DISC_FORMAT : Fld := ⟨Reg.UNT_EVT, 4, 4⟩
def Fld.UNT_EVT_VOLUME_CHAIN : Fld := ⟨Reg.UNT_EVT, 5, 5⟩
def Fld.UNT_EVT_STRAND_FAULT : Fld := ⟨Reg.UNT_EVT, 6, 6⟩
def Fld.UNT_EVT_THERM : Fld := ⟨Reg.UNT_EVT, 7, 7⟩
def Fld.UNT_EVT_EPOCH_STALE : Fld := ⟨Reg.UNT_EVT, 8, 8⟩
def Fld.UNT_EVT_WATCHDOG : Fld := ⟨Reg.UNT_EVT, 9, 9⟩
def Fld.MGT_CTRL_DMP_CTL : Fld := ⟨Reg.MGT_CTRL, 0, 0⟩
def Fld.MGT_CTRL_I3C_CTL : Fld := ⟨Reg.MGT_CTRL, 1, 1⟩
def Fld.MGT_STATUS_SUBSCRIBERS : Fld := ⟨Reg.MGT_STATUS, 4, 0⟩
def Fld.MGT_STATUS_I3C_ADDR : Fld := ⟨Reg.MGT_STATUS, 22, 16⟩
def Fld.MGT_STATUS_I3C_DA : Fld := ⟨Reg.MGT_STATUS, 25, 25⟩
def Fld.MGT_STATUS_PTP : Fld := ⟨Reg.MGT_STATUS, 27, 26⟩
def Fld.MGT_STATUS_IPV6_OK : Fld := ⟨Reg.MGT_STATUS, 28, 28⟩
def Fld.MGT_STATUS_IPV4_OK : Fld := ⟨Reg.MGT_STATUS, 29, 29⟩
def Fld.MGT_STATUS_PORT_ON : Fld := ⟨Reg.MGT_STATUS, 30, 30⟩
def Fld.MGT_STATUS_LINK : Fld := ⟨Reg.MGT_STATUS, 31, 31⟩
def Fld.MGT_EVT_LINK_CHANGE : Fld := ⟨Reg.MGT_EVT, 0, 0⟩
def Fld.MGT_EVT_ADDR_CHANGE : Fld := ⟨Reg.MGT_EVT, 1, 1⟩
def Fld.MGT_EVT_PTP_LOCKED : Fld := ⟨Reg.MGT_EVT, 2, 2⟩
def Fld.MGT_EVT_PTP_LOST : Fld := ⟨Reg.MGT_EVT, 3, 3⟩
def Fld.MGT_EVT_LOG_WRAP : Fld := ⟨Reg.MGT_EVT, 4, 4⟩
def Fld.MGT_EVT_TIME_STEP : Fld := ⟨Reg.MGT_EVT, 5, 5⟩
def Fld.MGT_LOG_VEC_VECTOR : Fld := ⟨Reg.MGT_LOG_VEC, 11, 0⟩
def Fld.MGT_LOG_VEC_EN : Fld := ⟨Reg.MGT_LOG_VEC, 31, 31⟩
def Fld.PRL_CTRL_HANDOVER : Fld := ⟨Reg.PRL_CTRL, 0, 0⟩
def Fld.PRL_CTRL_PEER_RESET : Fld := ⟨Reg.PRL_CTRL, 1, 1⟩
def Fld.PRL_CTRL_KEY : Fld := ⟨Reg.PRL_CTRL, 31, 24⟩
def Fld.PRL_STATUS_HB_MISS : Fld := ⟨Reg.PRL_STATUS, 15, 8⟩
def Fld.PRL_STATUS_SETTLING : Fld := ⟨Reg.PRL_STATUS, 22, 22⟩
def Fld.PRL_STATUS_SOLO : Fld := ⟨Reg.PRL_STATUS, 23, 23⟩
def Fld.PRL_STATUS_PEER_ROLE : Fld := ⟨Reg.PRL_STATUS, 24, 24⟩
def Fld.PRL_STATUS_ROLE : Fld := ⟨Reg.PRL_STATUS, 25, 25⟩
def Fld.PRL_STATUS_SYNC : Fld := ⟨Reg.PRL_STATUS, 27, 26⟩
def Fld.PRL_STATUS_OWN_NET : Fld := ⟨Reg.PRL_STATUS, 28, 28⟩
def Fld.PRL_STATUS_OWN_STATE : Fld := ⟨Reg.PRL_STATUS, 31, 29⟩
def Fld.PRL_EVT_TAKEOVER : Fld := ⟨Reg.PRL_EVT, 0, 0⟩
def Fld.PRL_EVT_PARTNER_LOST : Fld := ⟨Reg.PRL_EVT, 1, 1⟩
def Fld.PRL_EVT_PARTNER_SYNCED : Fld := ⟨Reg.PRL_EVT, 2, 2⟩
def Fld.PRL_EVT_LANE_DEGRADE : Fld := ⟨Reg.PRL_EVT, 3, 3⟩
def Fld.PRL_EVT_CLAIM_FAIL : Fld := ⟨Reg.PRL_EVT, 4, 4⟩
def Fld.PRL_EVT_ROLE_CONFLICT : Fld := ⟨Reg.PRL_EVT, 5, 5⟩
def Fld.PRL_EVT_IMAGE_MISMATCH : Fld := ⟨Reg.PRL_EVT, 6, 6⟩
def Fld.PRL_EVT_FORWARD_FAIL : Fld := ⟨Reg.PRL_EVT, 7, 7⟩
def Fld.PRL_EVT_HANDOVER_DONE : Fld := ⟨Reg.PRL_EVT, 8, 8⟩
def Fld.PRL_EVT_MIRROR_LOST : Fld := ⟨Reg.PRL_EVT, 9, 9⟩
def Fld.PRL_CFG_SOLO : Fld := ⟨Reg.PRL_CFG, 0, 0⟩
def Fld.PRL_CFG_BOOT_WAIT : Fld := ⟨Reg.PRL_CFG, 15, 8⟩
def Fld.PRL_LINK_LANE_OK : Fld := ⟨Reg.PRL_LINK, 7, 0⟩
def Fld.PRL_LINK_WIDTH : Fld := ⟨Reg.PRL_LINK, 19, 16⟩
def Fld.PRL_LINK_UP : Fld := ⟨Reg.PRL_LINK, 31, 31⟩
def Fld.GLB_ID_GRADE : Fld := ⟨Reg.GLB_ID, 7, 0⟩
def Fld.GLB_ID_STEP : Fld := ⟨Reg.GLB_ID, 15, 8⟩
def Fld.GLB_ID_PART : Fld := ⟨Reg.GLB_ID, 31, 16⟩
def Fld.GLB_VENDOR_VENDOR_ID : Fld := ⟨Reg.GLB_VENDOR, 15, 0⟩
def Fld.GLB_VENDOR_DEVICE_ID : Fld := ⟨Reg.GLB_VENDOR, 31, 16⟩
def Fld.GLB_SIZES_LOOP_SLOTS : Fld := ⟨Reg.GLB_SIZES, 7, 0⟩
def Fld.GLB_SIZES_HANK : Fld := ⟨Reg.GLB_SIZES, 11, 8⟩
def Fld.GLB_SIZES_REDET : Fld := ⟨Reg.GLB_SIZES, 15, 12⟩
def Fld.GLB_SIZES_LDPC : Fld := ⟨Reg.GLB_SIZES, 19, 16⟩
def Fld.GLB_SIZES_CARRIAGES : Fld := ⟨Reg.GLB_SIZES, 23, 20⟩
def Fld.GLB_SIZES_STRANDS : Fld := ⟨Reg.GLB_SIZES, 31, 24⟩
def Fld.GLB_VERSION_ROM_VERSION : Fld := ⟨Reg.GLB_VERSION, 15, 0⟩
def Fld.GLB_VERSION_MAP_VERSION : Fld := ⟨Reg.GLB_VERSION, 31, 16⟩
def Fld.GLB_SUBSYS_SUBSYS_VID : Fld := ⟨Reg.GLB_SUBSYS, 15, 0⟩
def Fld.GLB_SUBSYS_SUBSYS_ID : Fld := ⟨Reg.GLB_SUBSYS, 31, 16⟩
def Fld.GLB_TEMP_TJ : Fld := ⟨Reg.GLB_TEMP, 15, 0⟩
def Fld.GLB_TEMP_VALID : Fld := ⟨Reg.GLB_TEMP, 31, 31⟩

/-- The IMG block. -/
def regsIMG : List RegRow := [
  ⟨"IMG_CTRL", Reg.IMG_CTRL, [], .kept, 0x0, [⟨3, 0, .wo, .any⟩, ⟨5, 4, .wo, .any⟩, ⟨31, 24, .wo, .any⟩]⟩,
  ⟨"IMG_STATUS", Reg.IMG_STATUS, [], .kept, 0x0, [⟨2, 0, .ro, .any⟩, ⟨6, 4, .ro, .any⟩, ⟨7, 7, .ro, .any⟩, ⟨9, 8, .ro, .any⟩, ⟨10, 10, .ro, .any⟩, ⟨11, 11, .ro, .any⟩, ⟨13, 12, .ro, .any⟩, ⟨14, 14, .ro, .any⟩, ⟨15, 15, .ro, .any⟩]⟩,
  ⟨"IMG_ERR", Reg.IMG_ERR, [], .kept, 0xff00, [⟨7, 0, .ro, .any⟩, ⟨15, 8, .ro, .any⟩, ⟨19, 16, .ro, .any⟩]⟩,
  ⟨"IMG_ERR_OFFSET", Reg.IMG_ERR_OFFSET, [], .kept, 0x0, [⟨31, 0, .ro, .any⟩]⟩,
  ⟨"IMG_EVT", Reg.IMG_EVT, [], .kept, 0x0, [⟨0, 0, .w1c, .any⟩, ⟨1, 1, .w1c, .any⟩, ⟨2, 2, .w1c, .any⟩, ⟨3, 3, .w1c, .any⟩, ⟨4, 4, .w1c, .any⟩, ⟨5, 5, .w1c, .any⟩, ⟨6, 6, .w1c, .any⟩]⟩,
  ⟨"IMG_FUSE", Reg.IMG_FUSE, [], .fuse, 0x0, [⟨0, 0, .ro, .any⟩, ⟨1, 1, .ro, .any⟩, ⟨2, 2, .ro, .any⟩, ⟨7, 4, .ro, .any⟩]⟩,
  ⟨"IMG_PUSH_LEN", Reg.IMG_PUSH_LEN, [], .kept, 0x0, [⟨31, 0, .rw, .any⟩]⟩,
  ⟨"IMG_PUSH_ADDR_LO", Reg.IMG_PUSH_ADDR_LO, [], .kept, 0x0, [⟨31, 0, .rw, .any⟩]⟩,
  ⟨"IMG_PUSH_ADDR_HI", Reg.IMG_PUSH_ADDR_HI, [], .kept, 0x0, [⟨31, 0, .rw, .any⟩]⟩,
  ⟨"IMG_SERIAL_LO", Reg.IMG_SERIAL_LO, [], .kept, 0x0, [⟨31, 0, .ro, .any⟩]⟩,
  ⟨"IMG_SERIAL_HI", Reg.IMG_SERIAL_HI, [], .kept, 0x0, [⟨31, 0, .ro, .any⟩]⟩,
  ⟨"IMG_FW_VERSION", Reg.IMG_FW_VERSION, [], .kept, 0x0, [⟨31, 0, .ro, .any⟩]⟩,
  ⟨"IMG_DIGEST", Reg.IMG_DIGEST, [(4, 12)], .kept, 0x0, [⟨31, 0, .ro, .any⟩]⟩,
  ⟨"IMG_KEYDIG", Reg.IMG_KEYDIG, [(4, 12)], .fuse, 0x0, [⟨31, 0, .rw, .any⟩]⟩]

/-- The CHN block. -/
def regsCHN : List RegRow := [
  ⟨"CHN_CTRL", Reg.CHN_CTRL, [(512, 32)], .other, 0x0, [⟨0, 0, .rw, .any⟩, ⟨1, 1, .rw, .any⟩, ⟨2, 2, .rw, .any⟩, ⟨3, 3, .rw, .any⟩]⟩,
  ⟨"CHN_STATUS", Reg.CHN_STATUS, [(512, 32)], .other, 0x0, [⟨4, 4, .ro, .any⟩, ⟨5, 5, .ro, .any⟩, ⟨6, 6, .ro, .any⟩, ⟨7, 7, .ro, .any⟩, ⟨8, 8, .ro, .any⟩, ⟨9, 9, .ro, .any⟩, ⟨10, 10, .ro, .any⟩, ⟨11, 11, .ro, .any⟩]⟩,
  ⟨"CHN_EVT", Reg.CHN_EVT, [(512, 32)], .evt, 0x0, [⟨0, 0, .w1c, .any⟩, ⟨1, 1, .w1c, .any⟩, ⟨2, 2, .w1c, .any⟩, ⟨3, 3, .w1c, .any⟩, ⟨4, 4, .w1c, .any⟩, ⟨5, 5, .w1c, .any⟩, ⟨6, 6, .w1c, .any⟩]⟩,
  ⟨"CHN_EVT_EN", Reg.CHN_EVT_EN, [(512, 32)], .evt, 0x7f, [⟨0, 0, .rw, .any⟩, ⟨1, 1, .rw, .any⟩, ⟨2, 2, .rw, .any⟩, ⟨3, 3, .rw, .any⟩, ⟨4, 4, .rw, .any⟩, ⟨5, 5, .rw, .any⟩, ⟨6, 6, .rw, .any⟩]⟩,
  ⟨"CHN_FE_CTRL", Reg.CHN_FE_CTRL, [(512, 32)], .other, 0x0, [⟨3, 0, .rw, .any⟩, ⟨13, 8, .rw, .any⟩, ⟨23, 16, .rw, .range 0 240⟩, ⟨31, 31, .rw, .any⟩]⟩,
  ⟨"CHN_FE_STATUS", Reg.CHN_FE_STATUS, [(512, 32)], .other, 0x0, [⟨3, 0, .ro, .any⟩, ⟨13, 8, .ro, .any⟩, ⟨23, 16, .ro, .any⟩]⟩,
  ⟨"CHN_OFS_STATUS", Reg.CHN_OFS_STATUS, [(512, 32)], .other, 0x0, [⟨7, 0, .ro, .any⟩, ⟨23, 16, .ro, .any⟩]⟩,
  ⟨"CHN_AGC_CFG", Reg.CHN_AGC_CFG, [(512, 32)], .other, 0x50301446, [⟨3, 0, .rw, .any⟩, ⟨7, 4, .rw, .any⟩, ⟨11, 8, .rw, .any⟩, ⟨15, 12, .rw, .range 0 7⟩, ⟨23, 16, .rw, .range 0 240⟩, ⟨31, 24, .rw, .range 32 120⟩]⟩,
  ⟨"CHN_TR_CFG", Reg.CHN_TR_CFG, [(512, 32)], .other, 0x18386d14, [⟨7, 0, .rw, .range 5 50⟩, ⟨11, 8, .rw, .range 4 15⟩, ⟨15, 12, .rw, .range 1 12⟩, ⟨19, 16, .rw, .range 4 15⟩, ⟨23, 20, .rw, .range 1 8⟩, ⟨28, 24, .rw, .range 8 32⟩]⟩,
  ⟨"CHN_TR_STATUS", Reg.CHN_TR_STATUS, [(512, 32)], .other, 0x0, [⟨23, 0, .ro, .any⟩]⟩,
  ⟨"CHN_NCO_SEED", Reg.CHN_NCO_SEED, [(512, 32)], .other, 0x0, [⟨23, 0, .ro, .any⟩]⟩,
  ⟨"CHN_ADAPT_CFG", Reg.CHN_ADAPT_CFG, [(512, 32)], .other, 0xbca0000, [⟨19, 16, .rw, .zeroOr 8 15⟩, ⟨23, 20, .rw, .zeroOr 8 15⟩, ⟨27, 24, .rw, .zeroOr 8 15⟩]⟩,
  ⟨"CHN_SYNC_CFG", Reg.CHN_SYNC_CFG, [(512, 32)], .other, 0x183238, [⟨7, 0, .rw, .range 48 64⟩, ⟨15, 8, .rw, .upTo 40 7 0⟩, ⟨21, 16, .rw, .range 8 32⟩]⟩,
  ⟨"CHN_SYNC_LAST", Reg.CHN_SYNC_LAST, [(512, 32)], .other, 0x0, [⟨7, 0, .ro, .any⟩, ⟨15, 8, .ro, .any⟩, ⟨22, 16, .ro, .any⟩, ⟨29, 28, .ro, .any⟩, ⟨30, 30, .ro, .any⟩, ⟨31, 31, .ro, .any⟩]⟩,
  ⟨"CHN_CAND", Reg.CHN_CAND, [(512, 32), (4, 3)], .other, 0x0, [⟨7, 0, .ro, .any⟩, ⟨14, 8, .ro, .any⟩, ⟨31, 16, .ro, .any⟩]⟩,
  ⟨"CHN_ACQ_LAST", Reg.CHN_ACQ_LAST, [(512, 32)], .other, 0x0, [⟨15, 0, .ro, .any⟩, ⟨31, 31, .ro, .any⟩]⟩,
  ⟨"CHN_DEF_CFG", Reg.CHN_DEF_CFG, [(512, 32)], .other, 0x18412108, [⟨3, 0, .rw, .range 1 15⟩, ⟨8, 4, .rw, .range 1 31⟩, ⟨13, 9, .rw, .range 1 31⟩, ⟨17, 14, .rw, .range 1 15⟩, ⟨23, 18, .rw, .range 0 32⟩, ⟨31, 24, .rw, .any⟩]⟩,
  ⟨"CHN_ENV_LAST", Reg.CHN_ENV_LAST, [(512, 32)], .other, 0x0, [⟨7, 0, .ro, .any⟩, ⟨23, 16, .ro, .any⟩]⟩,
  ⟨"CHN_XT_STATUS", Reg.CHN_XT_STATUS, [(512, 32)], .other, 0x0, [⟨0, 0, .ro, .any⟩, ⟨1, 1, .ro, .any⟩, ⟨15, 8, .ro, .any⟩]⟩,
  ⟨"CHN_ZONE", Reg.CHN_ZONE, [(512, 32)], .other, 0x30000000, [⟨0, 0, .ro, .any⟩, ⟨13, 8, .ro, .any⟩, ⟨20, 16, .ro, .any⟩, ⟨29, 28, .ro, .any⟩]⟩,
  ⟨"CHN_WEDGE_CFG", Reg.CHN_WEDGE_CFG, [(512, 32)], .other, 0x80200e, [⟨4, 0, .rw, .range 12 16⟩, ⟨15, 8, .rw, .range 8 64⟩, ⟨23, 16, .rw, .range 32 224⟩]⟩,
  ⟨"CHN_WEDGE_T1", Reg.CHN_WEDGE_T1, [(512, 32)], .other, 0x0, [⟨14, 0, .ro, .any⟩, ⟨31, 31, .ro, .any⟩]⟩,
  ⟨"CHN_WEDGE_T2", Reg.CHN_WEDGE_T2, [(512, 32)], .other, 0x0, [⟨14, 0, .ro, .any⟩, ⟨31, 31, .ro, .any⟩]⟩,
  ⟨"CHN_WEDGE_ADDR", Reg.CHN_WEDGE_ADDR, [(512, 32)], .other, 0x0, [⟨31, 0, .ro, .any⟩]⟩,
  ⟨"CHN_POS", Reg.CHN_POS, [(512, 32)], .other, 0x0, [⟨25, 0, .ro, .any⟩, ⟨30, 30, .ro, .any⟩, ⟨31, 31, .ro, .any⟩]⟩,
  ⟨"CHN_RPL_STATUS", Reg.CHN_RPL_STATUS, [(512, 32)], .other, 0x0, [⟨3, 0, .ro, .any⟩, ⟨7, 4, .ro, .any⟩]⟩,
  ⟨"CHN_QUALITY", Reg.CHN_QUALITY, [(512, 32)], .other, 0x0, [⟨15, 0, .ro, .any⟩, ⟨31, 16, .ro, .any⟩]⟩,
  ⟨"CHN_TEST", Reg.CHN_TEST, [(512, 32)], .other, 0x0, [⟨0, 0, .rw, .any⟩, ⟨1, 1, .rw, .any⟩]⟩,
  ⟨"CHN_SEED", Reg.CHN_SEED, [(512, 32), (4, 16)], .other, 0x0, [⟨31, 0, .ro, .any⟩]⟩,
  ⟨"CHN_EQ_LAST", Reg.CHN_EQ_LAST, [(512, 32), (4, 17)], .other, 0x0, [⟨14, 0, .ro, .any⟩]⟩,
  ⟨"CHN_XTL_LAST", Reg.CHN_XTL_LAST, [(512, 32), (4, 5)], .other, 0x0, [⟨13, 0, .ro, .any⟩]⟩,
  ⟨"CHN_XTR_LAST", Reg.CHN_XTR_LAST, [(512, 32), (4, 5)], .other, 0x0, [⟨13, 0, .ro, .any⟩]⟩,
  ⟨"CHN_CNT", Reg.CHN_CNT, [(512, 32), (4, 8)], .evt, 0x0, [⟨31, 0, .rc, .any⟩]⟩]

/-- The DEC block. -/
def regsDEC : List RegRow := [
  ⟨"DEC_CTRL", Reg.DEC_CTRL, [], .other, 0x0, [⟨0, 0, .rw, .any⟩, ⟨1, 1, .rw, .any⟩]⟩,
  ⟨"DEC_STATUS", Reg.DEC_STATUS, [], .other, 0x0, [⟨15, 0, .ro, .any⟩, ⟨23, 16, .ro, .any⟩, ⟨27, 24, .ro, .any⟩, ⟨31, 28, .ro, .any⟩]⟩,
  ⟨"DEC_EVT", Reg.DEC_EVT, [], .evt, 0x0, [⟨0, 0, .w1c, .any⟩, ⟨1, 1, .w1c, .any⟩, ⟨2, 2, .w1c, .any⟩, ⟨3, 3, .w1c, .any⟩, ⟨4, 4, .w1c, .any⟩, ⟨5, 5, .w1c, .any⟩, ⟨6, 6, .w1c, .any⟩, ⟨7, 7, .w1c, .any⟩]⟩,
  ⟨"DEC_EVT_EN", Reg.DEC_EVT_EN, [], .evt, 0xff, [⟨0, 0, .rw, .any⟩, ⟨1, 1, .rw, .any⟩, ⟨2, 2, .rw, .any⟩, ⟨3, 3, .rw, .any⟩, ⟨4, 4, .rw, .any⟩, ⟨5, 5, .rw, .any⟩, ⟨6, 6, .rw, .any⟩, ⟨7, 7, .rw, .any⟩]⟩,
  ⟨"DEC_ITER_CFG", Reg.DEC_ITER_CFG, [], .other, 0x10c1840, [⟨7, 4, .rw, .range 1 4⟩, ⟨15, 8, .rw, .atLeast 23 16 24⟩, ⟨23, 16, .rw, .range 2 24⟩, ⟨27, 24, .rw, .range 0 3⟩]⟩,
  ⟨"DEC_EF_CFG", Reg.DEC_EF_CFG, [], .other, 0x480, [⟨12, 0, .rw, .range 0 4608⟩]⟩,
  ⟨"DEC_SCHED_CFG", Reg.DEC_SCHED_CFG, [], .other, 0xc80032, [⟨15, 0, .rw, .range 10 1000⟩, ⟨31, 16, .rw, .range 1 65535⟩]⟩,
  ⟨"DEC_DET_CFG", Reg.DEC_DET_CFG, [], .other, 0x20, [⟨7, 0, .rw, .range 1 255⟩, ⟨8, 8, .rw, .any⟩]⟩,
  ⟨"DEC_LADDER_CFG", Reg.DEC_LADDER_CFG, [], .other, 0x46221000, [⟨15, 12, .rw, .range 1 3⟩, ⟨19, 16, .rw, .range 1 4⟩, ⟨23, 20, .rw, .range 1 4⟩, ⟨31, 24, .rw, .range 40 90⟩]⟩,
  ⟨"DEC_IMP_CFG", Reg.DEC_IMP_CFG, [], .other, 0x2804, [⟨3, 0, .rw, .any⟩, ⟨15, 8, .rw, .range 10 40⟩]⟩,
  ⟨"DEC_IMP_STATUS", Reg.DEC_IMP_STATUS, [], .other, 0x0, [⟨23, 16, .ro, .any⟩, ⟨27, 24, .ro, .any⟩, ⟨30, 28, .ro, .any⟩, ⟨31, 31, .ro, .any⟩]⟩,
  ⟨"DEC_L4_STATUS", Reg.DEC_L4_STATUS, [], .other, 0x0, [⟨15, 0, .ro, .any⟩, ⟨31, 31, .ro, .any⟩]⟩,
  ⟨"DEC_ENG_STATUS", Reg.DEC_ENG_STATUS, [(4, 12)], .other, 0x0, [⟨4, 0, .ro, .any⟩, ⟨23, 16, .ro, .any⟩, ⟨26, 24, .ro, .any⟩, ⟨28, 27, .ro, .any⟩, ⟨29, 29, .ro, .any⟩, ⟨30, 30, .ro, .any⟩, ⟨31, 31, .ro, .any⟩]⟩,
  ⟨"DEC_REDET_STATUS", Reg.DEC_REDET_STATUS, [(4, 8)], .other, 0x0, [⟨4, 0, .ro, .any⟩, ⟨26, 24, .ro, .any⟩, ⟨28, 27, .ro, .any⟩, ⟨29, 29, .ro, .any⟩, ⟨31, 31, .ro, .any⟩]⟩,
  ⟨"DEC_IMP_REACH", Reg.DEC_IMP_REACH, [(4, 4)], .other, 0x0, [⟨31, 0, .ro, .any⟩]⟩,
  ⟨"DEC_CNT", Reg.DEC_CNT, [(4, 16)], .evt, 0x0, [⟨31, 0, .rc, .any⟩]⟩]

/-- The SKN block. -/
def regsSKN : List RegRow := [
  ⟨"SKN_CTRL", Reg.SKN_CTRL, [], .other, 0x0, [⟨0, 0, .rw, .any⟩]⟩,
  ⟨"SKN_STATUS", Reg.SKN_STATUS, [], .other, 0x0, [⟨15, 0, .ro, .any⟩, ⟨24, 16, .ro, .any⟩, ⟨30, 30, .ro, .any⟩, ⟨31, 31, .ro, .any⟩]⟩,
  ⟨"SKN_EVT", Reg.SKN_EVT, [], .evt, 0x0, [⟨0, 0, .w1c, .any⟩, ⟨2, 2, .w1c, .any⟩, ⟨3, 3, .w1c, .any⟩, ⟨4, 4, .w1c, .any⟩, ⟨5, 5, .w1c, .any⟩]⟩,
  ⟨"SKN_EVT_EN", Reg.SKN_EVT_EN, [], .evt, 0x3f, [⟨0, 0, .rw, .any⟩, ⟨2, 2, .rw, .any⟩, ⟨3, 3, .rw, .any⟩, ⟨4, 4, .rw, .any⟩, ⟨5, 5, .rw, .any⟩]⟩,
  ⟨"SKN_RELOC_CFG", Reg.SKN_RELOC_CFG, [], .other, 0x100, [⟨3, 0, .rw, .range 1 15⟩, ⟨11, 8, .rw, .range 1 8⟩]⟩,
  ⟨"SKN_LAST_RECON", Reg.SKN_LAST_RECON, [], .other, 0x0, [⟨15, 0, .ro, .any⟩, ⟨20, 16, .ro, .any⟩, ⟨30, 30, .ro, .any⟩, ⟨31, 31, .ro, .any⟩]⟩,
  ⟨"SKN_CNT", Reg.SKN_CNT, [(4, 8)], .evt, 0x0, [⟨31, 0, .rc, .any⟩]⟩]

/-- The WRP block. -/
def regsWRP : List RegRow := [
  ⟨"WRP_CTRL", Reg.WRP_CTRL, [], .other, 0x0, [⟨0, 0, .rw, .any⟩, ⟨1, 1, .rw, .any⟩, ⟨2, 2, .rw, .any⟩]⟩,
  ⟨"WRP_STATUS", Reg.WRP_STATUS, [], .other, 0x0, [⟨15, 0, .ro, .any⟩, ⟨31, 16, .ro, .any⟩]⟩,
  ⟨"WRP_EVT", Reg.WRP_EVT, [], .evt, 0x0, [⟨0, 0, .w1c, .any⟩, ⟨1, 1, .w1c, .any⟩, ⟨2, 2, .w1c, .any⟩, ⟨3, 3, .w1c, .any⟩, ⟨4, 4, .w1c, .any⟩, ⟨5, 5, .w1c, .any⟩, ⟨6, 6, .w1c, .any⟩, ⟨7, 7, .w1c, .any⟩, ⟨8, 8, .w1c, .any⟩]⟩,
  ⟨"WRP_EVT_EN", Reg.WRP_EVT_EN, [], .evt, 0x1ff, [⟨0, 0, .rw, .any⟩, ⟨1, 1, .rw, .any⟩, ⟨2, 2, .rw, .any⟩, ⟨3, 3, .rw, .any⟩, ⟨4, 4, .rw, .any⟩, ⟨5, 5, .rw, .any⟩, ⟨6, 6, .rw, .any⟩, ⟨7, 7, .rw, .any⟩, ⟨8, 8, .rw, .any⟩]⟩,
  ⟨"WRP_VFY_CFG", Reg.WRP_VFY_CFG, [], .other, 0x18061040, [⟨7, 0, .rw, .range 1 144⟩, ⟨15, 8, .rw, .any⟩, ⟨23, 16, .rw, .range 1 24⟩, ⟨31, 24, .rw, .range 1 255⟩]⟩,
  ⟨"WRP_VFY_MSE", Reg.WRP_VFY_MSE, [], .other, 0xc00, [⟨15, 0, .rw, .any⟩]⟩,
  ⟨"WRP_PASS_CFG", Reg.WRP_PASS_CFG, [], .other, 0x24283c30, [⟨7, 4, .rw, .range 1 7⟩, ⟨15, 8, .rw, .range 20 200⟩, ⟨23, 16, .rw, .range 10 100⟩, ⟨27, 24, .rw, .range 1 15⟩, ⟨31, 28, .rw, .range 1 8⟩]⟩,
  ⟨"WRP_CAR_STATUS", Reg.WRP_CAR_STATUS, [(4, 4)], .other, 0x0, [⟨6, 0, .ro, .any⟩, ⟨15, 8, .ro, .any⟩, ⟨27, 27, .ro, .any⟩, ⟨28, 28, .ro, .any⟩, ⟨31, 29, .ro, .any⟩]⟩,
  ⟨"WRP_FRONTIER", Reg.WRP_FRONTIER, [(4, 4)], .other, 0x0, [⟨31, 0, .ro, .any⟩]⟩,
  ⟨"WRP_PDL_CMD", Reg.WRP_PDL_CMD, [(4, 4)], .other, 0x0, [⟨31, 0, .rw, .any⟩]⟩,
  ⟨"WRP_PDL_RESP", Reg.WRP_PDL_RESP, [(4, 4)], .other, 0x0, [⟨15, 0, .ro, .any⟩, ⟨30, 30, .ro, .any⟩, ⟨31, 31, .ro, .any⟩]⟩,
  ⟨"WRP_CNT", Reg.WRP_CNT, [(4, 12)], .evt, 0x0, [⟨31, 0, .rc, .any⟩]⟩]

/-- The HNK block. -/
def regsHNK : List RegRow := [
  ⟨"HNK_CTRL", Reg.HNK_CTRL, [], .other, 0x0, [⟨0, 0, .rw, .any⟩, ⟨13, 8, .rw, .any⟩]⟩,
  ⟨"HNK_STATUS", Reg.HNK_STATUS, [], .other, 0x0, [⟨11, 0, .ro, .any⟩, ⟨14, 12, .ro, .any⟩, ⟨21, 16, .ro, .any⟩, ⟨29, 24, .ro, .any⟩]⟩,
  ⟨"HNK_EVT", Reg.HNK_EVT, [], .evt, 0x0, [⟨0, 0, .w1c, .any⟩, ⟨1, 1, .w1c, .any⟩, ⟨2, 2, .w1c, .any⟩, ⟨3, 3, .w1c, .any⟩]⟩,
  ⟨"HNK_EVT_EN", Reg.HNK_EVT_EN, [], .evt, 0xf, [⟨0, 0, .rw, .any⟩, ⟨1, 1, .rw, .any⟩, ⟨2, 2, .rw, .any⟩, ⟨3, 3, .rw, .any⟩]⟩,
  ⟨"HNK_VOL_SEL", Reg.HNK_VOL_SEL, [], .other, 0x0, [⟨5, 0, .rw, .any⟩]⟩,
  ⟨"HNK_VOL_HANKS", Reg.HNK_VOL_HANKS, [], .other, 0x0, [⟨31, 0, .ro, .any⟩]⟩,
  ⟨"HNK_VOL_UNITS", Reg.HNK_VOL_UNITS, [], .other, 0x0, [⟨31, 0, .ro, .any⟩]⟩,
  ⟨"HNK_ENG_STATUS", Reg.HNK_ENG_STATUS, [(4, 6)], .other, 0x0, [⟨21, 16, .ro, .any⟩, ⟨24, 22, .ro, .any⟩, ⟨26, 25, .ro, .any⟩, ⟨27, 27, .ro, .any⟩, ⟨28, 28, .ro, .any⟩, ⟨29, 29, .ro, .any⟩, ⟨30, 30, .ro, .any⟩, ⟨31, 31, .ro, .any⟩]⟩,
  ⟨"HNK_CNT", Reg.HNK_CNT, [(4, 8)], .evt, 0x0, [⟨31, 0, .rc, .any⟩]⟩]

/-- The LPE block. -/
def regsLPE : List RegRow := [
  ⟨"LPE_CTRL", Reg.LPE_CTRL, [(128, 32)], .other, 0x0, [⟨0, 0, .rw, .any⟩, ⟨1, 1, .rw, .any⟩, ⟨2, 2, .rw, .any⟩, ⟨3, 3, .rw, .any⟩, ⟨4, 4, .rw, .any⟩, ⟨5, 5, .rw, .any⟩, ⟨9, 6, .rw, .any⟩]⟩,
  ⟨"LPE_STATUS", Reg.LPE_STATUS, [(128, 32)], .other, 0x0, [⟨7, 0, .ro, .any⟩, ⟨15, 8, .ro, .any⟩, ⟨19, 16, .ro, .any⟩, ⟨23, 20, .ro, .any⟩, ⟨25, 24, .ro, .any⟩, ⟨26, 26, .ro, .any⟩, ⟨27, 27, .ro, .any⟩, ⟨28, 28, .ro, .any⟩, ⟨31, 29, .ro, .any⟩]⟩,
  ⟨"LPE_EVT", Reg.LPE_EVT, [(128, 32)], .evt, 0x0, [⟨0, 0, .w1c, .any⟩, ⟨1, 1, .w1c, .any⟩, ⟨2, 2, .w1c, .any⟩, ⟨3, 3, .w1c, .any⟩, ⟨4, 4, .w1c, .any⟩, ⟨5, 5, .w1c, .any⟩, ⟨6, 6, .w1c, .any⟩, ⟨7, 7, .w1c, .any⟩, ⟨8, 8, .w1c, .any⟩]⟩,
  ⟨"LPE_EVT_EN", Reg.LPE_EVT_EN, [(128, 32)], .evt, 0x1a7, [⟨0, 0, .rw, .any⟩, ⟨1, 1, .rw, .any⟩, ⟨2, 2, .rw, .any⟩, ⟨3, 3, .rw, .any⟩, ⟨4, 4, .rw, .any⟩, ⟨5, 5, .rw, .any⟩, ⟨6, 6, .rw, .any⟩, ⟨7, 7, .rw, .any⟩, ⟨8, 8, .rw, .any⟩]⟩,
  ⟨"LPE_SP_TARGET", Reg.LPE_SP_TARGET, [(128, 32)], .other, 0x0, [⟨31, 0, .rw, .any⟩]⟩,
  ⟨"LPE_SP", Reg.LPE_SP, [(128, 32)], .other, 0x0, [⟨31, 0, .ro, .any⟩]⟩,
  ⟨"LPE_SLEW", Reg.LPE_SLEW, [(128, 32)], .other, 0x0, [⟨31, 0, .rw, .range 1 2147483647⟩]⟩,
  ⟨"LPE_OUT0", Reg.LPE_OUT0, [(128, 32)], .other, 0x0, [⟨31, 0, .ro, .any⟩]⟩,
  ⟨"LPE_OUT1", Reg.LPE_OUT1, [(128, 32)], .other, 0x0, [⟨31, 0, .ro, .any⟩]⟩,
  ⟨"LPE_MEAS0", Reg.LPE_MEAS0, [(128, 32)], .other, 0x0, [⟨31, 0, .ro, .any⟩]⟩,
  ⟨"LPE_ERR0", Reg.LPE_ERR0, [(128, 32)], .other, 0x0, [⟨0, 0, .ro, .any⟩]⟩,
  ⟨"LPE_LOCK_LIM", Reg.LPE_LOCK_LIM, [(128, 32)], .other, 0x0, [⟨31, 0, .rw, .any⟩]⟩,
  ⟨"LPE_LOCK_CFG", Reg.LPE_LOCK_CFG, [(128, 32)], .other, 0x100000, [⟨7, 0, .rw, .any⟩, ⟨23, 16, .rw, .range 1 255⟩]⟩,
  ⟨"LPE_NM_SCALE", Reg.LPE_NM_SCALE, [(128, 32)], .other, 0x10000, [⟨31, 0, .rw, .any⟩]⟩,
  ⟨"LPE_OUT_MIN", Reg.LPE_OUT_MIN, [(128, 32)], .other, 0x0, [⟨31, 0, .rw, .any⟩]⟩,
  ⟨"LPE_OUT_MAX", Reg.LPE_OUT_MAX, [(128, 32)], .other, 0x0, [⟨31, 0, .rw, .any⟩]⟩,
  ⟨"LPE_TRACE_GAIN", Reg.LPE_TRACE_GAIN, [(128, 32)], .other, 0x1000000, [⟨31, 0, .rw, .any⟩]⟩,
  ⟨"LPE_TRACE_OFS", Reg.LPE_TRACE_OFS, [(128, 32)], .other, 0x0, [⟨31, 0, .rw, .any⟩]⟩,
  ⟨"LPE_COEF_IDX", Reg.LPE_COEF_IDX, [(128, 32)], .other, 0x0, [⟨7, 0, .rw, .any⟩, ⟨8, 8, .rw, .any⟩, ⟨9, 9, .rw, .any⟩]⟩,
  ⟨"LPE_COEF_DATA", Reg.LPE_COEF_DATA, [(128, 32)], .other, 0x0, [⟨31, 0, .rw, .any⟩]⟩,
  ⟨"LPE_ERR_RMS", Reg.LPE_ERR_RMS, [(128, 32)], .other, 0x0, [⟨15, 0, .ro, .any⟩]⟩,
  ⟨"LPE_CNT", Reg.LPE_CNT, [(128, 32), (4, 3)], .evt, 0x0, [⟨31, 0, .rc, .any⟩]⟩,
  ⟨"LPE_GSTATUS", Reg.LPE_GSTATUS, [], .other, 0x0, [⟨3, 0, .ro, .any⟩]⟩,
  ⟨"LPE_GEVT", Reg.LPE_GEVT, [], .evt, 0x0, [⟨0, 0, .w1c, .any⟩, ⟨1, 1, .w1c, .any⟩, ⟨17, 2, .w1c, .any⟩]⟩,
  ⟨"LPE_GEVT_EN", Reg.LPE_GEVT_EN, [], .evt, 0x3fffd, [⟨0, 0, .rw, .any⟩, ⟨17, 2, .rw, .any⟩]⟩,
  ⟨"LPE_PERIOD_LO", Reg.LPE_PERIOD_LO, [], .other, 0x0, [⟨31, 0, .ro, .any⟩]⟩,
  ⟨"LPE_PERIOD_HI", Reg.LPE_PERIOD_HI, [], .other, 0x0, [⟨31, 0, .ro, .any⟩]⟩,
  ⟨"LPE_CORE_LOAD", Reg.LPE_CORE_LOAD, [(4, 4)], .other, 0x0, [⟨9, 0, .ro, .any⟩]⟩,
  ⟨"LPE_CAR_CFG", Reg.LPE_CAR_CFG, [(4, 4)], .other, 0x40000200, [⟨0, 0, .rw, .any⟩, ⟨11, 8, .rw, .range 1 8⟩, ⟨31, 16, .rw, .any⟩]⟩,
  ⟨"LPE_TRACE_VAL", Reg.LPE_TRACE_VAL, [(4, 4)], .other, 0x0, [⟨31, 0, .ro, .any⟩]⟩,
  ⟨"LPE_TEST", Reg.LPE_TEST, [], .other, 0x0, [⟨4, 0, .rw, .any⟩, ⟨8, 8, .rw, .any⟩]⟩]

/-- The SPN block. -/
def regsSPN : List RegRow := [
  ⟨"SPN_CTRL", Reg.SPN_CTRL, [], .other, 0x0, [⟨0, 0, .rw, .any⟩, ⟨1, 1, .rw, .any⟩, ⟨2, 2, .rw, .any⟩, ⟨3, 3, .rw, .any⟩, ⟨4, 4, .rw, .any⟩, ⟨8, 8, .rw, .any⟩]⟩,
  ⟨"SPN_STATUS", Reg.SPN_STATUS, [], .other, 0x0, [⟨15, 8, .ro, .any⟩, ⟨23, 22, .ro, .any⟩, ⟨24, 24, .ro, .any⟩, ⟨25, 25, .ro, .any⟩, ⟨27, 26, .ro, .any⟩, ⟨31, 28, .ro, .any⟩]⟩,
  ⟨"SPN_EVT", Reg.SPN_EVT, [], .evt, 0x0, [⟨0, 0, .w1c, .any⟩, ⟨1, 1, .w1c, .any⟩, ⟨2, 2, .w1c, .any⟩, ⟨3, 3, .w1c, .any⟩, ⟨4, 4, .w1c, .any⟩, ⟨5, 5, .w1c, .any⟩, ⟨6, 6, .w1c, .any⟩, ⟨7, 7, .w1c, .any⟩]⟩,
  ⟨"SPN_EVT_EN", Reg.SPN_EVT_EN, [], .evt, 0xff, [⟨0, 0, .rw, .any⟩, ⟨1, 1, .rw, .any⟩, ⟨2, 2, .rw, .any⟩, ⟨3, 3, .rw, .any⟩, ⟨4, 4, .rw, .any⟩, ⟨5, 5, .rw, .any⟩, ⟨6, 6, .rw, .any⟩, ⟨7, 7, .rw, .any⟩]⟩,
  ⟨"SPN_PWM_CFG", Reg.SPN_PWM_CFG, [], .other, 0x146401, [⟨1, 0, .rw, .any⟩, ⟨15, 8, .rw, .range 20 250⟩, ⟨23, 16, .rw, .range 5 200⟩]⟩,
  ⟨"SPN_VSNS_DIV", Reg.SPN_VSNS_DIV, [], .other, 0x7d0, [⟨15, 0, .rw, .range 100 10000⟩]⟩,
  ⟨"SPN_EST_CFG", Reg.SPN_EST_CFG, [], .other, 0x1e140000, [⟨23, 16, .rw, .range 1 255⟩, ⟨31, 24, .rw, .range 5 100⟩]⟩,
  ⟨"SPN_START_CFG", Reg.SPN_START_CFG, [], .other, 0x50323264, [⟨7, 0, .rw, .range 10 255⟩, ⟨15, 8, .rw, .range 10 100⟩, ⟨23, 16, .rw, .range 10 100⟩, ⟨31, 24, .rw, .range 20 100⟩]⟩,
  ⟨"SPN_FAULT_CFG", Reg.SPN_FAULT_CFG, [], .other, 0x7d, [⟨7, 0, .rw, .range 100 200⟩]⟩,
  ⟨"SPN_RATE_CFG", Reg.SPN_RATE_CFG, [], .other, 0x1000000, [⟨31, 16, .rw, .range 16 4096⟩]⟩,
  ⟨"SPN_SPEED", Reg.SPN_SPEED, [], .other, 0x0, [⟨15, 0, .ro, .any⟩, ⟨30, 30, .ro, .any⟩, ⟨31, 31, .ro, .any⟩]⟩,
  ⟨"SPN_TARGET", Reg.SPN_TARGET, [], .other, 0x0, [⟨15, 0, .ro, .any⟩, ⟨31, 28, .ro, .any⟩]⟩,
  ⟨"SPN_RATE_REQ", Reg.SPN_RATE_REQ, [], .other, 0x0, [⟨15, 0, .ro, .any⟩, ⟨23, 16, .ro, .any⟩]⟩,
  ⟨"SPN_CURRENT", Reg.SPN_CURRENT, [], .other, 0x0, [⟨15, 0, .ro, .any⟩, ⟨31, 16, .ro, .any⟩]⟩,
  ⟨"SPN_VBUS", Reg.SPN_VBUS, [], .other, 0x0, [⟨15, 0, .ro, .any⟩]⟩,
  ⟨"SPN_ANGLE", Reg.SPN_ANGLE, [], .other, 0x0, [⟨11, 0, .ro, .any⟩, ⟨31, 16, .ro, .any⟩]⟩,
  ⟨"SPN_REV_LO", Reg.SPN_REV_LO, [], .other, 0x0, [⟨31, 0, .ro, .any⟩]⟩,
  ⟨"SPN_REV_HI", Reg.SPN_REV_HI, [], .other, 0x0, [⟨31, 0, .ro, .any⟩]⟩,
  ⟨"SPN_CNT", Reg.SPN_CNT, [(4, 8)], .evt, 0x0, [⟨31, 0, .rc, .any⟩]⟩]

/-- The CRG block. -/
def regsCRG : List RegRow := [
  ⟨"CRG_CTRL", Reg.CRG_CTRL, [(512, 4)], .other, 0x0, [⟨0, 0, .rw, .any⟩, ⟨1, 1, .rw, .any⟩]⟩,
  ⟨"CRG_STATUS", Reg.CRG_STATUS, [(512, 4)], .other, 0x0, [⟨19, 16, .ro, .any⟩, ⟨20, 20, .ro, .any⟩, ⟨21, 21, .ro, .any⟩, ⟨22, 22, .ro, .any⟩, ⟨23, 23, .ro, .any⟩, ⟨24, 24, .ro, .any⟩, ⟨25, 25, .ro, .any⟩, ⟨26, 26, .ro, .any⟩, ⟨27, 27, .ro, .any⟩, ⟨31, 28, .ro, .any⟩]⟩,
  ⟨"CRG_EVT", Reg.CRG_EVT, [(512, 4)], .evt, 0x0, [⟨0, 0, .w1c, .any⟩, ⟨1, 1, .w1c, .any⟩, ⟨2, 2, .w1c, .any⟩, ⟨3, 3, .w1c, .any⟩, ⟨4, 4, .w1c, .any⟩, ⟨5, 5, .w1c, .any⟩, ⟨6, 6, .w1c, .any⟩, ⟨7, 7, .w1c, .any⟩, ⟨8, 8, .w1c, .any⟩, ⟨9, 9, .w1c, .any⟩]⟩,
  ⟨"CRG_EVT_EN", Reg.CRG_EVT_EN, [(512, 4)], .evt, 0x3fe, [⟨0, 0, .rw, .any⟩, ⟨1, 1, .rw, .any⟩, ⟨2, 2, .rw, .any⟩, ⟨3, 3, .rw, .any⟩, ⟨4, 4, .rw, .any⟩, ⟨5, 5, .rw, .any⟩, ⟨6, 6, .rw, .any⟩, ⟨7, 7, .rw, .any⟩, ⟨8, 8, .rw, .any⟩, ⟨9, 9, .rw, .any⟩]⟩,
  ⟨"CRG_CMD", Reg.CRG_CMD, [(512, 4)], .other, 0x0, [⟨13, 0, .rw, .range 0 10624⟩, ⟨20, 16, .rw, .any⟩, ⟨31, 28, .rw, .range 0 3⟩]⟩,
  ⟨"CRG_MOVE_TARGET", Reg.CRG_MOVE_TARGET, [(512, 4)], .other, 0x0, [⟨14, 0, .rw, .any⟩]⟩,
  ⟨"CRG_SEEK_CFG", Reg.CRG_SEEK_CFG, [(512, 4)], .other, 0x3220210f, [⟨7, 0, .rw, .range 5 255⟩, ⟨11, 8, .rw, .range 1 15⟩, ⟨15, 12, .rw, .range 0 7⟩, ⟨23, 16, .rw, .range 1 255⟩, ⟨31, 24, .rw, .any⟩]⟩,
  ⟨"CRG_JUMP_CFG", Reg.CRG_JUMP_CFG, [(512, 4)], .other, 0x321400fa, [⟨15, 0, .rw, .range 50 1000⟩, ⟨23, 16, .rw, .range 1 255⟩, ⟨31, 24, .rw, .any⟩]⟩,
  ⟨"CRG_CUR_CFG", Reg.CRG_CUR_CFG, [(512, 4)], .other, 0x20083296, [⟨7, 0, .rw, .range 110 200⟩, ⟨15, 8, .rw, .range 0 100⟩, ⟨23, 16, .rw, .any⟩, ⟨31, 24, .rw, .any⟩]⟩,
  ⟨"CRG_SHUNT", Reg.CRG_SHUNT, [(512, 4)], .other, 0x32, [⟨15, 0, .rw, .range 10 1000⟩]⟩,
  ⟨"CRG_HOME_RADIUS", Reg.CRG_HOME_RADIUS, [(512, 4)], .other, 0x5ad2, [⟨15, 0, .rw, .any⟩]⟩,
  ⟨"CRG_POS", Reg.CRG_POS, [(512, 4)], .other, 0x0, [⟨17, 0, .ro, .any⟩, ⟨31, 31, .ro, .any⟩]⟩,
  ⟨"CRG_TARGET", Reg.CRG_TARGET, [(512, 4)], .other, 0x0, [⟨17, 0, .ro, .any⟩]⟩,
  ⟨"CRG_VEL", Reg.CRG_VEL, [(512, 4)], .other, 0x0, [⟨31, 0, .ro, .any⟩]⟩,
  ⟨"CRG_ACC", Reg.CRG_ACC, [(512, 4)], .other, 0x0, [⟨31, 0, .ro, .any⟩]⟩,
  ⟨"CRG_HOME_LATCH", Reg.CRG_HOME_LATCH, [(512, 4)], .other, 0x0, [⟨7, 0, .ro, .any⟩, ⟨25, 8, .ro, .any⟩]⟩,
  ⟨"CRG_TRACK_TARGET", Reg.CRG_TRACK_TARGET, [(512, 4)], .other, 0x0, [⟨25, 0, .ro, .any⟩]⟩,
  ⟨"CRG_TURN", Reg.CRG_TURN, [(512, 4)], .other, 0x0, [⟨13, 0, .ro, .any⟩, ⟨20, 16, .ro, .any⟩]⟩,
  ⟨"CRG_JUMP_PHASE", Reg.CRG_JUMP_PHASE, [(512, 4)], .other, 0x0, [⟨31, 0, .ro, .any⟩]⟩,
  ⟨"CRG_SEEK_LAST", Reg.CRG_SEEK_LAST, [(512, 4)], .other, 0x0, [⟨23, 0, .ro, .any⟩, ⟨27, 24, .ro, .any⟩, ⟨31, 31, .ro, .any⟩]⟩,
  ⟨"CRG_COIL", Reg.CRG_COIL, [(512, 4)], .other, 0x0, [⟨15, 0, .ro, .any⟩, ⟨31, 16, .ro, .any⟩]⟩,
  ⟨"CRG_CNT", Reg.CRG_CNT, [(512, 4), (4, 16)], .evt, 0x0, [⟨31, 0, .rc, .any⟩]⟩]

/-- The CAM block. -/
def regsCAM : List RegRow := [
  ⟨"CAM_PT_SEL", Reg.CAM_PT_SEL, [], .other, 0x0, [⟨9, 0, .rw, .any⟩, ⟨21, 16, .rw, .any⟩, ⟨31, 31, .rw, .any⟩]⟩,
  ⟨"CAM_PT_DATA", Reg.CAM_PT_DATA, [], .other, 0x0, [⟨31, 0, .rw, .any⟩]⟩,
  ⟨"CAM_COMMIT", Reg.CAM_COMMIT, [], .other, 0x0, [⟨5, 0, .wo, .any⟩, ⟨8, 8, .wo, .any⟩]⟩,
  ⟨"CAM_STATUS", Reg.CAM_STATUS, [], .other, 0x0, [⟨6, 0, .ro, .any⟩, ⟨21, 16, .ro, .any⟩, ⟨31, 31, .ro, .any⟩]⟩,
  ⟨"CAM_EVT", Reg.CAM_EVT, [], .evt, 0x0, [⟨0, 0, .w1c, .any⟩, ⟨1, 1, .w1c, .any⟩, ⟨2, 2, .w1c, .any⟩, ⟨3, 3, .w1c, .any⟩, ⟨4, 4, .w1c, .any⟩, ⟨5, 5, .w1c, .any⟩]⟩,
  ⟨"CAM_EVT_EN", Reg.CAM_EVT_EN, [], .evt, 0x3c, [⟨0, 0, .rw, .any⟩, ⟨1, 1, .rw, .any⟩, ⟨2, 2, .rw, .any⟩, ⟨3, 3, .rw, .any⟩, ⟨4, 4, .rw, .any⟩, ⟨5, 5, .rw, .any⟩]⟩,
  ⟨"CAM_CTRL", Reg.CAM_CTRL, [(4, 64)], .other, 0x0, [⟨0, 0, .rw, .any⟩, ⟨1, 1, .rw, .any⟩]⟩,
  ⟨"CAM_OUT", Reg.CAM_OUT, [(4, 64)], .other, 0x0, [⟨31, 0, .ro, .any⟩]⟩,
  ⟨"CAM_MASTER", Reg.CAM_MASTER, [(4, 64)], .other, 0x0, [⟨31, 0, .ro, .any⟩]⟩]

/-- The HQ block. -/
def regsHQ : List RegRow := [
  ⟨"HQ_CTRL", Reg.HQ_CTRL, [], .other, 0x0, [⟨0, 0, .rw, .any⟩]⟩,
  ⟨"HQ_STATUS", Reg.HQ_STATUS, [], .other, 0x0, [⟨11, 0, .ro, .any⟩, ⟨29, 16, .ro, .any⟩]⟩,
  ⟨"HQ_EVT", Reg.HQ_EVT, [], .evt, 0x0, [⟨0, 0, .w1c, .any⟩, ⟨1, 1, .w1c, .any⟩, ⟨2, 2, .w1c, .any⟩, ⟨3, 3, .w1c, .any⟩, ⟨4, 4, .w1c, .any⟩, ⟨5, 5, .w1c, .any⟩, ⟨6, 6, .w1c, .any⟩, ⟨7, 7, .w1c, .any⟩]⟩,
  ⟨"HQ_EVT_EN", Reg.HQ_EVT_EN, [], .evt, 0x7d, [⟨0, 0, .rw, .any⟩, ⟨1, 1, .rw, .any⟩, ⟨2, 2, .rw, .any⟩, ⟨3, 3, .rw, .any⟩, ⟨4, 4, .rw, .any⟩, ⟨5, 5, .rw, .any⟩, ⟨6, 6, .rw, .any⟩, ⟨7, 7, .rw, .any⟩]⟩,
  ⟨"HQ_WEIGHT", Reg.HQ_WEIGHT, [], .other, 0x0, [⟨7, 0, .rw, .range 1 255⟩, ⟨15, 8, .rw, .range 1 255⟩, ⟨23, 16, .rw, .range 1 255⟩]⟩,
  ⟨"HQ_U_BUDGET", Reg.HQ_U_BUDGET, [], .other, 0x0, [⟨31, 0, .rw, .any⟩]⟩,
  ⟨"HQ_U_TOKENS", Reg.HQ_U_TOKENS, [], .other, 0x0, [⟨31, 0, .ro, .any⟩]⟩,
  ⟨"HQ_DB_PEND", Reg.HQ_DB_PEND, [], .other, 0x0, [⟨20, 0, .ro, .any⟩]⟩,
  ⟨"HQ_SEQ_LO", Reg.HQ_SEQ_LO, [], .sticky, 0x0, [⟨31, 0, .ro, .any⟩]⟩,
  ⟨"HQ_SEQ_HI", Reg.HQ_SEQ_HI, [], .sticky, 0x0, [⟨31, 0, .ro, .any⟩]⟩,
  ⟨"HQ_CNT", Reg.HQ_CNT, [(4, 8)], .evt, 0x0, [⟨31, 0, .rc, .any⟩]⟩,
  ⟨"HQ_FN_DIR_LO", Reg.HQ_FN_DIR_LO, [(64, 64)], .hqFn, 0x0, [⟨31, 0, .rw, .any⟩]⟩,
  ⟨"HQ_FN_DIR_HI", Reg.HQ_FN_DIR_HI, [(64, 64)], .hqFn, 0x0, [⟨31, 0, .rw, .any⟩]⟩,
  ⟨"HQ_FN_CTRL", Reg.HQ_FN_CTRL, [(64, 64)], .hqFn, 0x0, [⟨0, 0, .rw, .any⟩]⟩,
  ⟨"HQ_FN_STATUS", Reg.HQ_FN_STATUS, [(64, 64)], .hqFn, 0x0, [⟨11, 0, .ro, .any⟩, ⟨29, 16, .ro, .any⟩, ⟨30, 30, .ro, .any⟩, ⟨31, 31, .ro, .any⟩]⟩,
  ⟨"HQ_FN_VOLMASK_LO", Reg.HQ_FN_VOLMASK_LO, [(64, 64)], .hqFn, 0x0, [⟨31, 0, .rw, .any⟩]⟩,
  ⟨"HQ_FN_VOLMASK_HI", Reg.HQ_FN_VOLMASK_HI, [(64, 64)], .hqFn, 0x0, [⟨31, 0, .rw, .any⟩]⟩,
  ⟨"HQ_FN_RING_CMD", Reg.HQ_FN_RING_CMD, [(64, 64)], .hqFn, 0x0, [⟨19, 0, .wo, .any⟩, ⟨31, 28, .wo, .any⟩]⟩,
  ⟨"HQ_FN_RING_STAT", Reg.HQ_FN_RING_STAT, [(64, 64)], .hqFn, 0x0, [⟨15, 0, .ro, .any⟩, ⟨27, 27, .ro, .any⟩, ⟨28, 28, .ro, .any⟩, ⟨29, 29, .ro, .any⟩, ⟨30, 30, .ro, .any⟩, ⟨31, 31, .ro, .any⟩]⟩,
  ⟨"HQ_FN_RING_ERR", Reg.HQ_FN_RING_ERR, [(64, 64)], .hqFn, 0x0, [⟨19, 0, .ro, .any⟩, ⟨31, 28, .ro, .any⟩]⟩]

/-- The ORD block. -/
def regsORD : List RegRow := [
  ⟨"ORD_CTRL", Reg.ORD_CTRL, [], .other, 0x0, [⟨0, 0, .rw, .any⟩, ⟨1, 1, .rw, .any⟩]⟩,
  ⟨"ORD_STATUS", Reg.ORD_STATUS, [], .other, 0x0, [⟨13, 0, .ro, .any⟩, ⟨29, 16, .ro, .any⟩]⟩,
  ⟨"ORD_EVT", Reg.ORD_EVT, [], .evt, 0x0, [⟨0, 0, .w1c, .any⟩, ⟨1, 1, .w1c, .any⟩, ⟨2, 2, .w1c, .any⟩, ⟨3, 3, .w1c, .any⟩, ⟨4, 4, .w1c, .any⟩, ⟨5, 5, .w1c, .any⟩]⟩,
  ⟨"ORD_EVT_EN", Reg.ORD_EVT_EN, [], .evt, 0x1d, [⟨0, 0, .rw, .any⟩, ⟨1, 1, .rw, .any⟩, ⟨2, 2, .rw, .any⟩, ⟨3, 3, .rw, .any⟩, ⟨4, 4, .rw, .any⟩, ⟨5, 5, .rw, .any⟩]⟩,
  ⟨"ORD_WAIT_CFG", Reg.ORD_WAIT_CFG, [], .other, 0x3e8, [⟨15, 0, .rw, .range 1 65535⟩]⟩,
  ⟨"ORD_VOL_SEL", Reg.ORD_VOL_SEL, [], .other, 0x0, [⟨5, 0, .rw, .any⟩]⟩,
  ⟨"ORD_VOL_STATUS", Reg.ORD_VOL_STATUS, [], .other, 0x0, [⟨16, 0, .ro, .any⟩, ⟨29, 29, .ro, .any⟩, ⟨30, 30, .ro, .any⟩, ⟨31, 31, .ro, .any⟩]⟩,
  ⟨"ORD_VOL_DURABLE_LO", Reg.ORD_VOL_DURABLE_LO, [], .other, 0x0, [⟨31, 0, .ro, .any⟩]⟩,
  ⟨"ORD_VOL_DURABLE_HI", Reg.ORD_VOL_DURABLE_HI, [], .other, 0x0, [⟨31, 0, .ro, .any⟩]⟩,
  ⟨"ORD_GEN_ARG_LO", Reg.ORD_GEN_ARG_LO, [], .other, 0x0, [⟨31, 0, .rw, .any⟩]⟩,
  ⟨"ORD_GEN_ARG_HI", Reg.ORD_GEN_ARG_HI, [], .other, 0x0, [⟨31, 0, .rw, .any⟩]⟩,
  ⟨"ORD_GEN_RESULT", Reg.ORD_GEN_RESULT, [], .other, 0x0, [⟨28, 28, .ro, .any⟩, ⟨29, 29, .ro, .any⟩, ⟨30, 30, .ro, .any⟩, ⟨31, 31, .ro, .any⟩]⟩,
  ⟨"ORD_GEN_CUT_LO", Reg.ORD_GEN_CUT_LO, [], .other, 0x0, [⟨31, 0, .ro, .any⟩]⟩,
  ⟨"ORD_GEN_CUT_HI", Reg.ORD_GEN_CUT_HI, [], .other, 0x0, [⟨31, 0, .ro, .any⟩]⟩,
  ⟨"ORD_CNT", Reg.ORD_CNT, [(4, 8)], .evt, 0x0, [⟨31, 0, .rc, .any⟩]⟩]

/-- The BC block. -/
def regsBC : List RegRow := [
  ⟨"BC_CTRL", Reg.BC_CTRL, [], .other, 0x0, [⟨0, 0, .rw, .any⟩]⟩,
  ⟨"BC_STATUS", Reg.BC_STATUS, [], .other, 0x0, [⟨8, 0, .ro, .any⟩, ⟨26, 26, .ro, .any⟩, ⟨27, 27, .ro, .any⟩, ⟨28, 28, .ro, .any⟩, ⟨29, 29, .ro, .any⟩, ⟨31, 30, .ro, .any⟩]⟩,
  ⟨"BC_EVT", Reg.BC_EVT, [], .evt, 0x0, [⟨0, 0, .w1c, .any⟩, ⟨1, 1, .w1c, .any⟩, ⟨2, 2, .w1c, .any⟩, ⟨3, 3, .w1c, .any⟩, ⟨4, 4, .w1c, .any⟩, ⟨5, 5, .w1c, .any⟩, ⟨6, 6, .w1c, .any⟩, ⟨7, 7, .w1c, .any⟩, ⟨8, 8, .w1c, .any⟩]⟩,
  ⟨"BC_EVT_EN", Reg.BC_EVT_EN, [], .evt, 0x75, [⟨0, 0, .rw, .any⟩, ⟨1, 1, .rw, .any⟩, ⟨2, 2, .rw, .any⟩, ⟨3, 3, .rw, .any⟩, ⟨4, 4, .rw, .any⟩, ⟨5, 5, .rw, .any⟩, ⟨6, 6, .rw, .any⟩, ⟨7, 7, .rw, .any⟩, ⟨8, 8, .rw, .any⟩]⟩,
  ⟨"BC_CFG", Reg.BC_CFG, [], .other, 0x0, [⟨13, 0, .ro, .any⟩, ⟨20, 16, .ro, .any⟩, ⟨27, 24, .ro, .any⟩]⟩,
  ⟨"BC_OCC", Reg.BC_OCC, [], .other, 0x0, [⟨5, 0, .ro, .any⟩, ⟨31, 16, .ro, .any⟩]⟩,
  ⟨"BC_INV_ADDR_LO", Reg.BC_INV_ADDR_LO, [], .other, 0x0, [⟨31, 0, .rw, .aligned 6⟩]⟩,
  ⟨"BC_INV_ADDR_HI", Reg.BC_INV_ADDR_HI, [], .other, 0x0, [⟨3, 0, .rw, .any⟩]⟩,
  ⟨"BC_INV_LEN", Reg.BC_INV_LEN, [], .other, 0x1, [⟨30, 0, .rw, .range 1 1073741824⟩]⟩,
  ⟨"BC_INV_CMD", Reg.BC_INV_CMD, [], .other, 0x0, [⟨1, 0, .wo, .any⟩, ⟨3, 3, .wo, .any⟩, ⟨4, 4, .wo, .any⟩]⟩,
  ⟨"BC_INV_STATUS", Reg.BC_INV_STATUS, [], .other, 0x0, [⟨1, 0, .ro, .any⟩, ⟨29, 29, .ro, .any⟩, ⟨30, 30, .ro, .any⟩, ⟨31, 31, .ro, .any⟩]⟩,
  ⟨"BC_INV_RETAINED", Reg.BC_INV_RETAINED, [], .other, 0x0, [⟨17, 0, .ro, .any⟩]⟩,
  ⟨"BC_LOCK_ADDR_LO", Reg.BC_LOCK_ADDR_LO, [], .other, 0x0, [⟨31, 0, .rw, .aligned 6⟩]⟩,
  ⟨"BC_LOCK_ADDR_HI", Reg.BC_LOCK_ADDR_HI, [], .other, 0x0, [⟨3, 0, .rw, .any⟩]⟩,
  ⟨"BC_LOCK_LEN", Reg.BC_LOCK_LEN, [], .other, 0x1, [⟨16, 0, .rw, .range 1 65536⟩]⟩,
  ⟨"BC_LOCK_CMD", Reg.BC_LOCK_CMD, [], .other, 0x0, [⟨1, 0, .wo, .any⟩, ⟨3, 3, .wo, .any⟩]⟩,
  ⟨"BC_LOCK_STATUS", Reg.BC_LOCK_STATUS, [], .other, 0x0, [⟨17, 0, .ro, .any⟩, ⟨29, 29, .ro, .any⟩, ⟨30, 30, .ro, .any⟩, ⟨31, 31, .ro, .any⟩]⟩,
  ⟨"BC_LOCK_REFUSED", Reg.BC_LOCK_REFUSED, [], .other, 0x0, [⟨16, 0, .ro, .any⟩]⟩,
  ⟨"BC_TEST", Reg.BC_TEST, [], .other, 0x0, [⟨0, 0, .rw, .any⟩, ⟨1, 1, .rw, .any⟩]⟩,
  ⟨"BC_PORT_HIT", Reg.BC_PORT_HIT, [(4, 7)], .other, 0x0, [⟨31, 0, .rc, .any⟩]⟩,
  ⟨"BC_PORT_MISS", Reg.BC_PORT_MISS, [(4, 7)], .other, 0x0, [⟨31, 0, .rc, .any⟩]⟩,
  ⟨"BC_CNT", Reg.BC_CNT, [(4, 8)], .evt, 0x0, [⟨31, 0, .rc, .any⟩]⟩]

/-- The BM block. -/
def regsBM : List RegRow := [
  ⟨"BM_CTRL", Reg.BM_CTRL, [], .other, 0x0, [⟨0, 0, .rw, .any⟩, ⟨4, 4, .rw, .any⟩]⟩,
  ⟨"BM_STATUS", Reg.BM_STATUS, [], .other, 0x0, [⟨26, 26, .ro, .any⟩, ⟨27, 27, .ro, .any⟩, ⟨28, 28, .ro, .any⟩, ⟨29, 29, .ro, .any⟩, ⟨31, 30, .ro, .any⟩]⟩,
  ⟨"BM_EVT", Reg.BM_EVT, [], .evt, 0x0, [⟨0, 0, .w1c, .any⟩, ⟨1, 1, .w1c, .any⟩, ⟨2, 2, .w1c, .any⟩, ⟨3, 3, .w1c, .any⟩, ⟨4, 4, .w1c, .any⟩]⟩,
  ⟨"BM_EVT_EN", Reg.BM_EVT_EN, [], .evt, 0x1d, [⟨0, 0, .rw, .any⟩, ⟨1, 1, .rw, .any⟩, ⟨2, 2, .rw, .any⟩, ⟨3, 3, .rw, .any⟩, ⟨4, 4, .rw, .any⟩]⟩,
  ⟨"BM_ORG", Reg.BM_ORG, [], .kept, 0x0, [⟨7, 0, .ro, .any⟩, ⟨23, 16, .ro, .any⟩, ⟨31, 24, .ro, .any⟩]⟩,
  ⟨"BM_REFRESH", Reg.BM_REFRESH, [], .other, 0x0, [⟨2, 0, .ro, .any⟩, ⟨31, 16, .ro, .any⟩]⟩,
  ⟨"BM_QOS", Reg.BM_QOS, [(4, 7)], .other, 0x0, [⟨15, 0, .rw, .range 1 65535⟩]⟩,
  ⟨"BM_PORT_LATE", Reg.BM_PORT_LATE, [(4, 7)], .other, 0x0, [⟨31, 0, .rc, .any⟩]⟩,
  ⟨"BM_CH_STATUS", Reg.BM_CH_STATUS, [(4, 2)], .kept, 0x0, [⟨15, 0, .ro, .any⟩, ⟨30, 30, .ro, .any⟩, ⟨31, 31, .ro, .any⟩]⟩,
  ⟨"BM_CNT", Reg.BM_CNT, [(4, 8)], .evt, 0x0, [⟨31, 0, .rc, .any⟩]⟩]

/-- The INT block. -/
def regsINT : List RegRow := [
  ⟨"INT_CTRL", Reg.INT_CTRL, [], .other, 0x0, [⟨0, 0, .rw, .any⟩, ⟨1, 1, .rw, .any⟩, ⟨8, 8, .rw, .any⟩]⟩,
  ⟨"INT_STATUS", Reg.INT_STATUS, [], .other, 0x0, [⟨30, 30, .ro, .any⟩, ⟨31, 31, .ro, .any⟩]⟩,
  ⟨"INT_EVT", Reg.INT_EVT, [], .evt, 0x0, [⟨0, 0, .w1c, .any⟩, ⟨1, 1, .w1c, .any⟩, ⟨2, 2, .w1c, .any⟩, ⟨3, 3, .w1c, .any⟩, ⟨4, 4, .w1c, .any⟩, ⟨5, 5, .w1c, .any⟩, ⟨6, 6, .w1c, .any⟩, ⟨7, 7, .w1c, .any⟩]⟩,
  ⟨"INT_EVT_EN", Reg.INT_EVT_EN, [], .evt, 0xdf, [⟨0, 0, .rw, .any⟩, ⟨1, 1, .rw, .any⟩, ⟨2, 2, .rw, .any⟩, ⟨3, 3, .rw, .any⟩, ⟨4, 4, .rw, .any⟩, ⟨5, 5, .rw, .any⟩, ⟨6, 6, .rw, .any⟩, ⟨7, 7, .rw, .any⟩]⟩,
  ⟨"INT_SCRUB_INTERVAL", Reg.INT_SCRUB_INTERVAL, [], .other, 0x0, [⟨31, 0, .ro, .any⟩]⟩,
  ⟨"INT_SCRUB_PASSES", Reg.INT_SCRUB_PASSES, [], .kept, 0x0, [⟨31, 0, .ro, .any⟩]⟩,
  ⟨"INT_SCRUB_POS", Reg.INT_SCRUB_POS, [], .kept, 0x0, [⟨29, 0, .ro, .any⟩]⟩,
  ⟨"INT_ERR_ADDR_LO", Reg.INT_ERR_ADDR_LO, [], .other, 0x0, [⟨31, 0, .ro, .any⟩]⟩,
  ⟨"INT_ERR_ADDR_HI", Reg.INT_ERR_ADDR_HI, [], .other, 0x0, [⟨3, 0, .ro, .any⟩]⟩,
  ⟨"INT_ERR_INFO", Reg.INT_ERR_INFO, [], .other, 0x0, [⟨7, 0, .ro, .any⟩, ⟨22, 20, .ro, .any⟩, ⟨23, 23, .ro, .any⟩, ⟨26, 24, .ro, .any⟩, ⟨27, 27, .ro, .any⟩, ⟨31, 28, .ro, .any⟩]⟩,
  ⟨"INT_TEST_ADDR_LO", Reg.INT_TEST_ADDR_LO, [], .other, 0x0, [⟨31, 0, .rw, .aligned 6⟩]⟩,
  ⟨"INT_TEST_ADDR_HI", Reg.INT_TEST_ADDR_HI, [], .other, 0x0, [⟨3, 0, .rw, .any⟩]⟩,
  ⟨"INT_CNT", Reg.INT_CNT, [(4, 8)], .evt, 0x0, [⟨31, 0, .rc, .any⟩]⟩]

/-- The GLB block. -/
def regsGLB : List RegRow := [
  ⟨"GLB_STATUS", Reg.GLB_STATUS, [], .kept, 0x0, [⟨2, 0, .ro, .any⟩, ⟨12, 12, .ro, .any⟩, ⟨13, 13, .ro, .any⟩, ⟨14, 14, .ro, .any⟩, ⟨15, 15, .ro, .any⟩, ⟨30, 28, .ro, .any⟩, ⟨31, 31, .ro, .any⟩]⟩,
  ⟨"GLB_EVT", Reg.GLB_EVT, [], .kept, 0x0, [⟨0, 0, .w1c, .any⟩, ⟨1, 1, .w1c, .any⟩, ⟨2, 2, .w1c, .any⟩, ⟨3, 3, .w1c, .any⟩]⟩,
  ⟨"GLB_EVT_EN", Reg.GLB_EVT_EN, [], .kept, 0xf, [⟨0, 0, .rw, .any⟩, ⟨1, 1, .rw, .any⟩, ⟨2, 2, .rw, .any⟩, ⟨3, 3, .rw, .any⟩]⟩,
  ⟨"GLB_STRAPS", Reg.GLB_STRAPS, [], .latched, 0x0, [⟨1, 0, .ro, .any⟩, ⟨4, 4, .ro, .any⟩, ⟨5, 5, .ro, .any⟩, ⟨13, 8, .ro, .any⟩]⟩,
  ⟨"GLB_BIST", Reg.GLB_BIST, [], .kept, 0x0, [⟨7, 0, .ro, .any⟩, ⟨15, 8, .ro, .any⟩, ⟨23, 16, .ro, .any⟩, ⟨31, 31, .ro, .any⟩]⟩,
  ⟨"GLB_PWRFAIL_LAST", Reg.GLB_PWRFAIL_LAST, [], .sticky, 0x0, [⟨15, 0, .rws, .any⟩, ⟨31, 16, .rws, .any⟩]⟩,
  ⟨"GLB_STAGE_T", Reg.GLB_STAGE_T, [(4, 8)], .kept, 0x0, [⟨31, 0, .ro, .any⟩]⟩,
  ⟨"GLB_ID", Reg.GLB_ID, [], .fuse, 0x0, [⟨7, 0, .ro, .any⟩, ⟨15, 8, .ro, .any⟩, ⟨31, 16, .ro, .any⟩]⟩,
  ⟨"GLB_VENDOR", Reg.GLB_VENDOR, [], .kept, 0x91601f3b, [⟨15, 0, .ro, .any⟩, ⟨31, 16, .ro, .any⟩]⟩,
  ⟨"GLB_SIZES", Reg.GLB_SIZES, [], .kept, 0x204c8620, [⟨7, 0, .ro, .any⟩, ⟨11, 8, .ro, .any⟩, ⟨15, 12, .ro, .any⟩, ⟨19, 16, .ro, .any⟩, ⟨23, 20, .ro, .any⟩, ⟨31, 24, .ro, .any⟩]⟩,
  ⟨"GLB_VERSION", Reg.GLB_VERSION, [], .kept, 0x10100, [⟨15, 0, .ro, .any⟩, ⟨31, 16, .ro, .any⟩]⟩,
  ⟨"GLB_SUBSYS", Reg.GLB_SUBSYS, [], .kept, 0x91601f3b, [⟨15, 0, .rwl, .any⟩, ⟨31, 16, .rwl, .any⟩]⟩,
  ⟨"GLB_UID", Reg.GLB_UID, [(4, 4)], .fuse, 0x0, [⟨31, 0, .ro, .any⟩]⟩,
  ⟨"GLB_TEMP", Reg.GLB_TEMP, [], .kept, 0x0, [⟨15, 0, .ro, .any⟩, ⟨31, 31, .ro, .any⟩]⟩]

/-- The CLK block. -/
def regsCLK : List RegRow := [
  ⟨"CLK_STATUS", Reg.CLK_STATUS, [], .kept, 0x0, [⟨27, 27, .ro, .any⟩, ⟨29, 28, .ro, .any⟩, ⟨30, 30, .ro, .any⟩]⟩,
  ⟨"CLK_XTAL_PPM", Reg.CLK_XTAL_PPM, [], .kept, 0x0, [⟨23, 0, .ro, .any⟩, ⟨31, 31, .ro, .any⟩]⟩,
  ⟨"CLK_EVT", Reg.CLK_EVT, [], .kept, 0x0, [⟨0, 0, .w1c, .any⟩]⟩,
  ⟨"CLK_EVT_EN", Reg.CLK_EVT_EN, [], .kept, 0x1, [⟨0, 0, .rw, .any⟩]⟩]

/-- The RST block. -/
def regsRST : List RegRow := [
  ⟨"RST_CTRL", Reg.RST_CTRL, [], .kept, 0x0, [⟨0, 0, .wo, .any⟩, ⟨31, 24, .wo, .any⟩]⟩,
  ⟨"RST_CAUSE", Reg.RST_CAUSE, [], .latched, 0x0, [⟨3, 0, .ro, .any⟩]⟩,
  ⟨"RST_WARM_COUNT", Reg.RST_WARM_COUNT, [], .sticky, 0x0, [⟨31, 0, .rws, .any⟩]⟩,
  ⟨"RST_SCRATCH", Reg.RST_SCRATCH, [(4, 4)], .sticky, 0x0, [⟨31, 0, .rws, .any⟩]⟩]

/-- The CAL block. -/
def regsCAL : List RegRow := [
  ⟨"CAL_CTRL", Reg.CAL_CTRL, [], .other, 0x0, [⟨0, 0, .rw, .any⟩, ⟨1, 1, .rw, .any⟩]⟩,
  ⟨"CAL_STATUS", Reg.CAL_STATUS, [], .other, 0x0, [⟨0, 0, .ro, .any⟩, ⟨2, 1, .ro, .any⟩, ⟨3, 3, .ro, .any⟩, ⟨7, 4, .ro, .any⟩]⟩,
  ⟨"CAL_EVT", Reg.CAL_EVT, [], .evt, 0x0, [⟨0, 0, .w1c, .any⟩, ⟨1, 1, .w1c, .any⟩, ⟨2, 2, .w1c, .any⟩, ⟨3, 3, .w1c, .any⟩, ⟨4, 4, .w1c, .any⟩, ⟨5, 5, .w1c, .any⟩, ⟨6, 6, .w1c, .any⟩, ⟨7, 7, .w1c, .any⟩]⟩,
  ⟨"CAL_EVT_EN", Reg.CAL_EVT_EN, [], .evt, 0xff, [⟨0, 0, .rw, .any⟩, ⟨1, 1, .rw, .any⟩, ⟨2, 2, .rw, .any⟩, ⟨3, 3, .rw, .any⟩, ⟨4, 4, .rw, .any⟩, ⟨5, 5, .rw, .any⟩, ⟨6, 6, .rw, .any⟩, ⟨7, 7, .rw, .any⟩]⟩,
  ⟨"CAL_SCOPE", Reg.CAL_SCOPE, [], .other, 0x1, [⟨3, 0, .rw, .range 1 8⟩, ⟨13, 8, .rw, .any⟩, ⟨20, 16, .rw, .any⟩]⟩,
  ⟨"CAL_CHN_CFG", Reg.CAL_CHN_CFG, [], .other, 0x5780064, [⟨15, 0, .rw, .srange 500 1000⟩, ⟨31, 16, .rw, .range 500 3000⟩]⟩,
  ⟨"CAL_WPC_CFG", Reg.CAL_WPC_CFG, [], .other, 0x285000, [⟨15, 8, .rw, .range 20 200⟩, ⟨31, 16, .rw, .srange 100 150⟩]⟩,
  ⟨"CAL_MECH_CFG", Reg.CAL_MECH_CFG, [], .other, 0x1414, [⟨7, 0, .rw, .range 1 255⟩, ⟨15, 8, .rw, .range 1 100⟩]⟩,
  ⟨"CAL_LAST", Reg.CAL_LAST, [], .other, 0x0, [⟨2, 0, .ro, .any⟩, ⟨15, 8, .ro, .any⟩, ⟨19, 18, .ro, .any⟩, ⟨23, 20, .ro, .any⟩, ⟨31, 24, .ro, .any⟩]⟩,
  ⟨"CAL_LAST_RUN", Reg.CAL_LAST_RUN, [], .other, 0x0, [⟨31, 0, .ro, .any⟩]⟩,
  ⟨"CAL_LAST_Q0", Reg.CAL_LAST_Q0, [], .other, 0x0, [⟨31, 0, .ro, .any⟩]⟩,
  ⟨"CAL_LAST_Q1", Reg.CAL_LAST_Q1, [], .other, 0x0, [⟨31, 0, .ro, .any⟩]⟩,
  ⟨"CAL_STRAND_Q", Reg.CAL_STRAND_Q, [(4, 8)], .other, 0x0, [⟨14, 0, .ro, .any⟩, ⟨7, 0, .ro, .any⟩, ⟨15, 15, .ro, .any⟩, ⟨31, 16, .ro, .any⟩, ⟨31, 16, .ro, .any⟩]⟩,
  ⟨"CAL_CNT", Reg.CAL_CNT, [(4, 8)], .evt, 0x0, [⟨31, 0, .rc, .any⟩]⟩]

/-- The UNT block. -/
def regsUNT : List RegRow := [
  ⟨"UNT_SEL", Reg.UNT_SEL, [], .kept, 0x0, [⟨7, 0, .rw, .any⟩]⟩,
  ⟨"UNT_STATE", Reg.UNT_STATE, [], .kept, 0x0, [⟨7, 0, .ro, .any⟩, ⟨15, 8, .ro, .any⟩, ⟨23, 16, .ro, .any⟩, ⟨31, 24, .ro, .any⟩]⟩,
  ⟨"UNT_EPOCH", Reg.UNT_EPOCH, [], .kept, 0x0, [⟨31, 0, .ro, .any⟩]⟩,
  ⟨"UNT_CHANGED_LO", Reg.UNT_CHANGED_LO, [], .kept, 0x0, [⟨31, 0, .ro, .any⟩]⟩,
  ⟨"UNT_CHANGED_HI", Reg.UNT_CHANGED_HI, [], .kept, 0x0, [⟨31, 0, .ro, .any⟩]⟩,
  ⟨"UNT_HOLD", Reg.UNT_HOLD, [], .kept, 0x0, [⟨15, 0, .ro, .any⟩]⟩,
  ⟨"UNT_EVT", Reg.UNT_EVT, [], .kept, 0x0, [⟨0, 0, .w1c, .any⟩, ⟨1, 1, .w1c, .any⟩, ⟨2, 2, .w1c, .any⟩, ⟨3, 3, .w1c, .any⟩, ⟨4, 4, .w1c, .any⟩, ⟨5, 5, .w1c, .any⟩, ⟨6, 6, .w1c, .any⟩, ⟨7, 7, .w1c, .any⟩, ⟨8, 8, .w1c, .any⟩, ⟨9, 9, .w1c, .any⟩]⟩,
  ⟨"UNT_EVT_EN", Reg.UNT_EVT_EN, [], .kept, 0x3ff, [⟨0, 0, .rw, .any⟩, ⟨1, 1, .rw, .any⟩, ⟨2, 2, .rw, .any⟩, ⟨3, 3, .rw, .any⟩, ⟨4, 4, .rw, .any⟩, ⟨5, 5, .rw, .any⟩, ⟨6, 6, .rw, .any⟩, ⟨7, 7, .rw, .any⟩, ⟨8, 8, .rw, .any⟩, ⟨9, 9, .rw, .any⟩]⟩,
  ⟨"UNT_STATUS", Reg.UNT_STATUS, [], .kept, 0x0, [⟨7, 0, .ro, .any⟩, ⟨31, 16, .ro, .any⟩]⟩,
  ⟨"UNT_SERVING", Reg.UNT_SERVING, [(4, 8)], .kept, 0x0, [⟨31, 0, .ro, .any⟩]⟩,
  ⟨"UNT_CNT", Reg.UNT_CNT, [(4, 8)], .kept, 0x0, [⟨31, 0, .rc, .any⟩]⟩]

/-- The MGT block. -/
def regsMGT : List RegRow := [
  ⟨"MGT_CTRL", Reg.MGT_CTRL, [], .kept, 0x3, [⟨0, 0, .rw, .any⟩, ⟨1, 1, .rw, .any⟩]⟩,
  ⟨"MGT_STATUS", Reg.MGT_STATUS, [], .kept, 0x0, [⟨4, 0, .ro, .any⟩, ⟨22, 16, .ro, .any⟩, ⟨25, 25, .ro, .any⟩, ⟨27, 26, .ro, .any⟩, ⟨28, 28, .ro, .any⟩, ⟨29, 29, .ro, .any⟩, ⟨30, 30, .ro, .any⟩, ⟨31, 31, .ro, .any⟩]⟩,
  ⟨"MGT_EVT", Reg.MGT_EVT, [], .kept, 0x0, [⟨0, 0, .w1c, .any⟩, ⟨1, 1, .w1c, .any⟩, ⟨2, 2, .w1c, .any⟩, ⟨3, 3, .w1c, .any⟩, ⟨4, 4, .w1c, .any⟩, ⟨5, 5, .w1c, .any⟩]⟩,
  ⟨"MGT_EVT_EN", Reg.MGT_EVT_EN, [], .kept, 0x3f, [⟨0, 0, .rw, .any⟩, ⟨1, 1, .rw, .any⟩, ⟨2, 2, .rw, .any⟩, ⟨3, 3, .rw, .any⟩, ⟨4, 4, .rw, .any⟩, ⟨5, 5, .rw, .any⟩]⟩,
  ⟨"MGT_DECK_ID", Reg.MGT_DECK_ID, [], .kept, 0x0, [⟨17, 0, .ro, .any⟩]⟩,
  ⟨"MGT_IPV4", Reg.MGT_IPV4, [], .kept, 0x0, [⟨31, 0, .ro, .any⟩]⟩,
  ⟨"MGT_IPV6", Reg.MGT_IPV6, [(4, 4)], .kept, 0x0, [⟨31, 0, .ro, .any⟩]⟩,
  ⟨"MGT_TIME_LO", Reg.MGT_TIME_LO, [], .kept, 0x0, [⟨31, 0, .ro, .any⟩]⟩,
  ⟨"MGT_TIME_HI", Reg.MGT_TIME_HI, [], .kept, 0x0, [⟨31, 0, .ro, .any⟩]⟩,
  ⟨"MGT_PTP_OFS", Reg.MGT_PTP_OFS, [], .kept, 0x0, [⟨31, 0, .ro, .any⟩]⟩,
  ⟨"MGT_LOG_WR_LO", Reg.MGT_LOG_WR_LO, [], .kept, 0x0, [⟨31, 0, .ro, .any⟩]⟩,
  ⟨"MGT_LOG_WR_HI", Reg.MGT_LOG_WR_HI, [], .kept, 0x0, [⟨31, 0, .ro, .any⟩]⟩,
  ⟨"MGT_LOG_RD_LO", Reg.MGT_LOG_RD_LO, [], .kept, 0x0, [⟨31, 0, .rw, .any⟩]⟩,
  ⟨"MGT_LOG_RD_HI", Reg.MGT_LOG_RD_HI, [], .kept, 0x0, [⟨31, 0, .rw, .any⟩]⟩,
  ⟨"MGT_LOG_VEC", Reg.MGT_LOG_VEC, [], .kept, 0x0, [⟨11, 0, .rw, .any⟩, ⟨31, 31, .rw, .any⟩]⟩,
  ⟨"MGT_LOG_WIN", Reg.MGT_LOG_WIN, [(4, 16)], .kept, 0x0, [⟨31, 0, .ro, .any⟩]⟩,
  ⟨"MGT_CNT", Reg.MGT_CNT, [(4, 8)], .kept, 0x0, [⟨31, 0, .rc, .any⟩]⟩]

/-- The PRL block. -/
def regsPRL : List RegRow := [
  ⟨"PRL_CTRL", Reg.PRL_CTRL, [], .kept, 0x0, [⟨0, 0, .rw, .any⟩, ⟨1, 1, .rw, .any⟩, ⟨31, 24, .rw, .any⟩]⟩,
  ⟨"PRL_STATUS", Reg.PRL_STATUS, [], .kept, 0x0, [⟨15, 8, .ro, .any⟩, ⟨22, 22, .ro, .any⟩, ⟨23, 23, .ro, .any⟩, ⟨24, 24, .ro, .any⟩, ⟨25, 25, .ro, .any⟩, ⟨27, 26, .ro, .any⟩, ⟨28, 28, .ro, .any⟩, ⟨31, 29, .ro, .any⟩]⟩,
  ⟨"PRL_EVT", Reg.PRL_EVT, [], .kept, 0x0, [⟨0, 0, .w1c, .any⟩, ⟨1, 1, .w1c, .any⟩, ⟨2, 2, .w1c, .any⟩, ⟨3, 3, .w1c, .any⟩, ⟨4, 4, .w1c, .any⟩, ⟨5, 5, .w1c, .any⟩, ⟨6, 6, .w1c, .any⟩, ⟨7, 7, .w1c, .any⟩, ⟨8, 8, .w1c, .any⟩, ⟨9, 9, .w1c, .any⟩]⟩,
  ⟨"PRL_EVT_EN", Reg.PRL_EVT_EN, [], .kept, 0x3ff, [⟨0, 0, .rw, .any⟩, ⟨1, 1, .rw, .any⟩, ⟨2, 2, .rw, .any⟩, ⟨3, 3, .rw, .any⟩, ⟨4, 4, .rw, .any⟩, ⟨5, 5, .rw, .any⟩, ⟨6, 6, .rw, .any⟩, ⟨7, 7, .rw, .any⟩, ⟨8, 8, .rw, .any⟩, ⟨9, 9, .rw, .any⟩]⟩,
  ⟨"PRL_CFG", Reg.PRL_CFG, [], .kept, 0xa00, [⟨0, 0, .rw, .any⟩, ⟨15, 8, .rw, .range 6 255⟩]⟩,
  ⟨"PRL_LINK", Reg.PRL_LINK, [], .kept, 0x0, [⟨7, 0, .ro, .any⟩, ⟨19, 16, .ro, .any⟩, ⟨31, 31, .ro, .any⟩]⟩,
  ⟨"PRL_ACK_SEQ_LO", Reg.PRL_ACK_SEQ_LO, [], .kept, 0x0, [⟨31, 0, .ro, .any⟩]⟩,
  ⟨"PRL_ACK_SEQ_HI", Reg.PRL_ACK_SEQ_HI, [], .kept, 0x0, [⟨31, 0, .ro, .any⟩]⟩,
  ⟨"PRL_TAKEOVER_T", Reg.PRL_TAKEOVER_T, [], .kept, 0x0, [⟨15, 0, .ro, .any⟩, ⟨31, 16, .ro, .any⟩]⟩,
  ⟨"PRL_CNT", Reg.PRL_CNT, [(4, 8)], .kept, 0x0, [⟨31, 0, .rc, .any⟩]⟩]

/-- The registers whose reset value is not 0, with their arrays. -/
def nonZeroResets : List (Nat × List (Nat × Nat) × Nat) := [
  (Reg.IMG_ERR, [], 0xff00),
  (Reg.CHN_EVT_EN, [(512, 32)], 0x7f),
  (Reg.CHN_AGC_CFG, [(512, 32)], 0x50301446),
  (Reg.CHN_TR_CFG, [(512, 32)], 0x18386d14),
  (Reg.CHN_ADAPT_CFG, [(512, 32)], 0xbca0000),
  (Reg.CHN_SYNC_CFG, [(512, 32)], 0x183238),
  (Reg.CHN_DEF_CFG, [(512, 32)], 0x18412108),
  (Reg.CHN_ZONE, [(512, 32)], 0x30000000),
  (Reg.CHN_WEDGE_CFG, [(512, 32)], 0x80200e),
  (Reg.DEC_EVT_EN, [], 0xff),
  (Reg.DEC_ITER_CFG, [], 0x10c1840),
  (Reg.DEC_EF_CFG, [], 0x480),
  (Reg.DEC_SCHED_CFG, [], 0xc80032),
  (Reg.DEC_DET_CFG, [], 0x20),
  (Reg.DEC_LADDER_CFG, [], 0x46221000),
  (Reg.DEC_IMP_CFG, [], 0x2804),
  (Reg.SKN_EVT_EN, [], 0x3f),
  (Reg.SKN_RELOC_CFG, [], 0x100),
  (Reg.WRP_EVT_EN, [], 0x1ff),
  (Reg.WRP_VFY_CFG, [], 0x18061040),
  (Reg.WRP_VFY_MSE, [], 0xc00),
  (Reg.WRP_PASS_CFG, [], 0x24283c30),
  (Reg.HNK_EVT_EN, [], 0xf),
  (Reg.LPE_EVT_EN, [(128, 32)], 0x1a7),
  (Reg.LPE_LOCK_CFG, [(128, 32)], 0x100000),
  (Reg.LPE_NM_SCALE, [(128, 32)], 0x10000),
  (Reg.LPE_TRACE_GAIN, [(128, 32)], 0x1000000),
  (Reg.LPE_GEVT_EN, [], 0x3fffd),
  (Reg.LPE_CAR_CFG, [(4, 4)], 0x40000200),
  (Reg.SPN_EVT_EN, [], 0xff),
  (Reg.SPN_PWM_CFG, [], 0x146401),
  (Reg.SPN_VSNS_DIV, [], 0x7d0),
  (Reg.SPN_EST_CFG, [], 0x1e140000),
  (Reg.SPN_START_CFG, [], 0x50323264),
  (Reg.SPN_FAULT_CFG, [], 0x7d),
  (Reg.SPN_RATE_CFG, [], 0x1000000),
  (Reg.CRG_EVT_EN, [(512, 4)], 0x3fe),
  (Reg.CRG_SEEK_CFG, [(512, 4)], 0x3220210f),
  (Reg.CRG_JUMP_CFG, [(512, 4)], 0x321400fa),
  (Reg.CRG_CUR_CFG, [(512, 4)], 0x20083296),
  (Reg.CRG_SHUNT, [(512, 4)], 0x32),
  (Reg.CAM_EVT_EN, [], 0x3c),
  (Reg.HQ_EVT_EN, [], 0x7d),
  (Reg.ORD_EVT_EN, [], 0x1d),
  (Reg.ORD_WAIT_CFG, [], 0x3e8),
  (Reg.BC_EVT_EN, [], 0x75),
  (Reg.BC_INV_LEN, [], 0x1),
  (Reg.BC_LOCK_LEN, [], 0x1),
  (Reg.BM_EVT_EN, [], 0x1d),
  (Reg.INT_EVT_EN, [], 0xdf),
  (Reg.GLB_EVT_EN, [], 0xf),
  (Reg.CLK_EVT_EN, [], 0x1),
  (Reg.CAL_EVT_EN, [], 0xff),
  (Reg.CAL_SCOPE, [], 0x1),
  (Reg.CAL_CHN_CFG, [], 0x5780064),
  (Reg.CAL_WPC_CFG, [], 0x285000),
  (Reg.CAL_MECH_CFG, [], 0x1414),
  (Reg.UNT_EVT_EN, [], 0x3ff),
  (Reg.MGT_CTRL, [], 0x3),
  (Reg.MGT_EVT_EN, [], 0x3f),
  (Reg.PRL_EVT_EN, [], 0x3ff),
  (Reg.PRL_CFG, [], 0xa00),
  (Reg.GLB_VENDOR, [], 0x91601f3b),
  (Reg.GLB_SIZES, [], 0x204c8620),
  (Reg.GLB_VERSION, [], 0x10100),
  (Reg.GLB_SUBSYS, [], 0x91601f3b)]

end Sys2Proof.Machine
end

