-- ==== Sys2Proof/Machine/State.lean ====
section
/-! DEFINITION. The state of the controller, its reset, and the reasons a step can stop. -/

namespace Sys2Proof.Machine

/-- Why a step stops with a fault. -/
inductive Fault where
  /-- Raised by no meaning of this model: every command of the block has an effect, or none by Table conventions
  (a state and event pair absent from a table causes no transition, chapter 00). Safe. -/
  | stopped
  deriving DecidableEq, Repr

/-- Why a command is refused. -/
inductive Refusal where
  /-- Raised by an arm of exec whose command has no meaning yet, with its mnemonic. Safe. -/
  | notModelled (mnemonic : String)
  deriving DecidableEq, Repr

/-- The whole state of the block. regs holds every BAR0 register by its offset; the other fields hold what the
registers do not show. free is the model's own counter of free values, pending the commands that wait. -/
structure State where
  regs : Tbl Word
  pwr : PowerState
  pins : PinState
  img : ImgState
  unt : UnitsState
  cal : CalState
  tap : TapState
  mgt : MgmtState
  mram : MramState
  mem : MemState
  bc : CacheState
  host : HostState
  media : MediaState
  mot : MotionState
  chn : ChannelState
  pool : PoolState
  pair : PairState
  out : List Output
  free : Nat
  pending : List Instr
  deriving DecidableEq, Repr

/-- The machine right after reset: stage S0 with no rail good, every register at its reset value, nothing held. -/
def State.reset : State where
  regs := []
  pwr := {}
  pins := {}
  img := {}
  unt := {}
  cal := {}
  tap := {}
  mgt := {}
  mram := {}
  mem := {}
  bc := {}
  host := {}
  media := {}
  mot := {}
  chn := {}
  pool := {}
  pair := {}
  out := []
  free := 0
  pending := []

end Sys2Proof.Machine
end

