-- ==== Sys2Proof/Machine/Ops.lean ====
section
/-! DEFINITION. The named operations over the register file and over the outputs that every family calls: reading
and writing a register or a field, counters, and free values. -/

namespace Sys2Proof.Machine

/-- Whether d is an element's offset in an array with the given (stride, count) pairs (R544). -/
def inDims : List (Nat × Nat) → Nat → Bool
  | [], d => d == 0
  | (stride, count) :: ds, d => decide (d / stride < count) && inDims ds (d % stride)

/-- The first row of nonZeroResets that holds the offset. -/
def resetIn (off : Nat) : List (Nat × List (Nat × Nat) × Nat) → Nat
  | [] => 0
  | (base, dims, v) :: rows => if base ≤ off && inDims dims (off - base) then v else resetIn off rows

/-- The reset value of the register at a BAR0 offset: its table's Reset column, the radius of the carriage's band for
CRG_HOME_RADIUS, and every volume for the PF's mask (Tables 10-6, 11-15). What the image, the fuses or the straps
give is 0 until it is loaded (R546). -/
def resetValue (off : Nat) : Word :=
  if off = Reg.HQ_FN_VOLMASK_LO || off = Reg.HQ_FN_VOLMASK_HI then 0xFFFFFFFF#32
  else if off = Reg.CRG_HOME_RADIUS || off = Reg.CRG_HOME_RADIUS + 0x400 then 0x5AD2#32
  else if off = Reg.CRG_HOME_RADIUS + 0x200 || off = Reg.CRG_HOME_RADIUS + 0x600 then 0x9D3A#32
  else BitVec.ofNat 32 (resetIn off nonZeroResets)

/-- The stored value of the register at an offset. -/
def getReg (s : State) (off : Nat) : Word := Tbl.get (resetValue off) off s.regs

/-- Stores a register's value. -/
def setReg (off : Nat) (v : Word) (s : State) : State := { s with regs := Tbl.put (resetValue off) off v s.regs }

/-- The field f of the register d bytes on (an array element or an instance, R544). -/
def Fld.at (f : Fld) (d : Nat) : Fld := { f with off := f.off + d }

/-- The value of bits [hi:lo] of a word. -/
def wordBits (w : Word) (hi lo : Nat) : Nat := bits w.toNat lo (hi + 1 - lo)

/-- The word with bits [hi:lo] replaced by the low bits of v. -/
def wordPut (w : Word) (hi lo v : Nat) : Word :=
  let n := hi + 1 - lo
  (w &&& ~~~ (BitVec.ofNat 32 ((2 ^ n - 1) <<< lo))) ||| BitVec.ofNat 32 ((v % 2 ^ n) <<< lo)

/-- A field's value. -/
def getF (s : State) (f : Fld) : Nat := wordBits (getReg s f.off) f.hi f.lo

/-- A one-bit field as a truth value. -/
def flag (s : State) (f : Fld) : Bool := getF s f ≠ 0

/-- Writes a field, the register's other bits kept. -/
def setF (f : Fld) (v : Nat) (s : State) : State := setReg f.off (wordPut (getReg s f.off) f.hi f.lo v) s

/-- Writes a one-bit field. -/
def setFlag (f : Fld) (b : Bool) (s : State) : State := setF f (if b then 1 else 0) s

/-- Writes several fields. -/
def setFs : List (Fld × Nat) → State → State
  | [], s => s
  | (f, v) :: fs, s => setFs fs (setF f v s)

/-- Adds n to a saturating 32-bit count (R551). -/
def bumpBy (off n : Nat) (s : State) : State :=
  setReg off (BitVec.ofNat 32 (min 0xFFFFFFFF ((getReg s off).toNat + n))) s

/-- Adds 1 to a saturating count: word i of the CNT array at off. -/
def bump (off i : Nat) (s : State) : State := bumpBy (off + 4 * i) 1 s

/-- Sends an output. -/
def emit (o : Output) (s : State) : State := { s with out := s.out ++ [o] }

/-- The next free value's count. -/
def useFree (s : State) : State := { s with free := s.free + 1 }

/-- Clears the registers whose keep test fails: what a reset leaves (Table 19-2). -/
def keepRegs (keep : Nat → Bool) (s : State) : State := { s with regs := s.regs.filter (fun e => keep e.1) }

/-- The present boot stage, S0 to S7 (R465). -/
def stage (s : State) : Nat := getF s Fld.GLB_STATUS_STAGE

/-- Halted (R469). -/
def halted (s : State) : Bool := flag s Fld.GLB_STATUS_HALT

/-- Holding in S3 for a pushed image (R68). -/
def holding (s : State) : Bool := flag s Fld.IMG_STATUS_HOLDING

/-- A 64-bit quantity held in two registers (R15). -/
def get64 (s : State) (lo : Nat) : Nat := (getReg s lo).toNat + 0x100000000 * (getReg s (lo + 4)).toNat

/-- Writes a 64-bit quantity (R15). -/
def set64 (lo v : Nat) (s : State) : State :=
  setReg (lo + 4) (BitVec.ofNat 32 (v / 0x100000000)) (setReg lo (BitVec.ofNat 32 v) s)

/-- The numbers from a up, n of them. -/
def upFrom (a : Nat) : Nat → List Nat
  | 0 => []
  | n + 1 => a :: upFrom (a + 1) n

/-- Folds an action over a list. -/
def forEach {α : Type} (f : α → State → State) : List α → State → State
  | [], s => s
  | x :: xs, s => forEach f xs (f x s)

end Sys2Proof.Machine
end

