-- ==== Sys2Proof/Machine/Flags.lean ====
section
/-! DEFINITION. Event flags and the event log (R157, R511 to R513 and the like): setting an EVT bit, raising its
event where it is enabled, and writing the entry to the early log or the event log. -/

namespace Sys2Proof.Machine

/-- The event block code of an EVT register's offset (Table 19-1); RST raises none. -/
def blockCode (off : Nat) : Nat :=
  if off < 0x1000 then 0x01 else if off < 0x2000 then 0x02 else if off < 0x4000 then 0x03
  else if off < 0x40000 then 0x04 else if off < 0x50000 then 0x05 else if off < 0x54000 then 0x06
  else if off < 0x55000 then 0x07 else if off < 0x56000 then 0x08 else if off < 0x57000 then 0x09
  else if off < 0x60000 then 0x0A else if off < 0x62000 then 0x0B else if off < 0x63000 then 0x0C
  else if off < 0x64000 then 0x0D else if off < 0x70000 then 0x0E else if off < 0x71000 then 0x0F
  else if off < 0x72000 then 0x10 else if off < 0x73000 then 0x11 else if off < 0x80000 then 0x12
  else if off < 0x81000 then 0x13 else if off < 0x82000 then 0x14 else 0x15

/-- An item's size rounded up to 1, 2, 4 or 8 bytes (Table 17-10). -/
def itemSize (n : Nat) : Nat := if n ≤ 1 then 1 else if n ≤ 2 then 2 else if n ≤ 4 then 4 else 8

/-- Lays items out in one 40-byte DETAIL, each aligned to its size; answers the bytes and the items left over. -/
def layOne (at_ : List Byte) : List Item → List Byte × List Item
  | [] => (at_, [])
  | i :: is =>
    let n := itemSize i.size
    let o := (at_.length + n - 1) / n * n
    if o + n ≤ 40 then layOne (at_ ++ List.replicate (o - at_.length) 0 ++ leBytes n i.val) is else (at_, i :: is)

/-- The DETAILs of an event and of its continuation entries, each padded to 40 bytes. -/
def layAll : Nat → List Item → List (List Byte)
  | 0, _ => []
  | n + 1, is =>
    let (bs, rest) := layOne [] is
    (bs ++ List.replicate (40 - bs.length) 0) :: (if rest.isEmpty then [] else layAll n rest)

/-- The epoch of a unit, 0 for none (0xFF) or before S6. -/
def epochOf (s : State) (u : Nat) : Nat :=
  if stage s < 6 || u = 0xFF then 0 else (Tbl.get {} u s.unt.tab : UnitEntry).epoch.toNat

/-- Whether events go to the early log: before S6, halted or holding (R512). -/
def early (s : State) : Bool := decide (stage s < 6) || halted s || holding s

/-- The SEQ of the next event to be written (MGT_LOG_WR); the first is 1 (R511). -/
def nextSeq (s : State) : Nat := if get64 s Reg.MGT_LOG_WR_LO = 0 then 1 else get64 s Reg.MGT_LOG_WR_LO

/-- Drops the oldest entry of a full log; the truth value says that one was dropped. -/
def dropFull (cap : Nat) (l : List EventEntry) : List EventEntry × Bool :=
  if cap ≤ l.length then (l.drop 1, true) else (l, false)

/-- The signal of the log vector (R520): while EN is 1 and MGT_LOG_RD is below MGT_LOG_WR, the PF signals VECTOR, and
again only after MGT_LOG_RD has been written. The message itself obeys the masks of R374. -/
def logSignal (s : State) : State :=
  if flag s Fld.MGT_LOG_VEC_EN && s.mgt.logArmed && decide (get64 s Reg.MGT_LOG_RD_LO < get64 s Reg.MGT_LOG_WR_LO) then
    let v := getF s Fld.MGT_LOG_VEC_VECTOR
    let fnst : FnState := Tbl.get {} 0 s.host.fns
    let mv : MsixVec := Tbl.get {} v s.host.msix
    let s := { s with mgt := { s.mgt with logArmed := false } }
    if !fnst.msixEn then s
    else if fnst.fnMask || mv.masked then
      { s with host := { s.host with msix := Tbl.put {} v { mv with pending := true } s.host.msix } }
    else bump Reg.HQ_CNT 6 (emit (.msix 0 v) s)
  else s

/-- Writes one entry with the next SEQ to the log that R512 names, counts it (an overwrite counts too), and sends it
to the subscribers whose mask passes its BLOCK (R516). A continuation entry is a line of the log, not an event. -/
def writeEntry (block code unit epoch : Nat) (cont : Bool) (detail : List Byte) (s : State) : State :=
  let q := nextSeq s
  let e : EventEntry := { seq := q, time := s.pwr.time, block := block, code := code, synced := s.mgt.ptpSynced,
                          cont := cont, unit := unit, epoch := epoch, detail := detail }
  let isEarly := early s
  let (kept, wrapped) := if isEarly then dropFull 256 s.mgt.early else dropFull 65536 s.mgt.log
  let s := if isEarly then { s with mgt := { s.mgt with early := kept ++ [e] } }
           else { s with mgt := { s.mgt with log := kept ++ [e] } }
  let s := set64 Reg.MGT_LOG_WR_LO (q + 1) s
  let s := if cont then s else bump Reg.MGT_CNT 5 s
  let s := if wrapped then bump Reg.MGT_CNT 6 s else s
  let s := forEach (fun sub s => if bit sub.mask block then emit (.subscriber sub.addr sub.port e) s else s) s.mgt.subs s
  logSignal s

/-- Writes an event and its continuation entries (Table 17-10). -/
def writeDetails (block code unit epoch : Nat) : Bool → List (List Byte) → State → State
  | _, [], s => s
  | cont, d :: ds, s => writeDetails block code unit epoch true ds (writeEntry block code unit epoch cont d s)

/-- Raises an event: entries in the log, an In-Band Interrupt on the I3C bus where events are enabled (R517), and
MGT_EVT.LOG_WRAP where the event log overwrote its oldest entry. -/
def rawEvent (block code unit : Nat) (items : List Item) (s : State) : State :=
  let s := writeDetails block code unit (epochOf s unit) false (layAll (items.length + 1) items) s
  if s.mgt.i3c.eventsOn then emit (.ibi block) s else s

/-- Raises an event and marks a wrap of the event log in MGT_EVT.LOG_WRAP, whose own event follows where enabled. -/
def event (block code unit : Nat) (items : List Item) (s : State) : State :=
  let full := !early s && decide (65536 ≤ s.mgt.log.length)
  let s := rawEvent block code unit items s
  if full && !flag s Fld.MGT_EVT_LOG_WRAP then
    let s := setF Fld.MGT_EVT_LOG_WRAP 1 s
    if bit (getReg s Reg.MGT_EVT_EN).toNat 4 then rawEvent 0x14 4 0xFF [] s else s
  else s

/-- The enable bit of an EVT bit: the EVT_EN register follows its EVT register; IMG events have no enable (R81). -/
def evtEnabled (s : State) (off lo : Nat) : Bool :=
  if off = Reg.IMG_EVT then true else bit (getReg s (off + 4)).toNat lo

/-- Sets the EVT bit f of the instance d bytes on; a change from 0 to 1 whose enable bit is set raises its event,
about the given unit (0xFF none) with the given DETAIL. CODE is the bit, 0x80 up for LPE_GEVT (Table 17-10). -/
def evtAt (f : Fld) (d unit : Nat) (items : List Item) (s : State) : State :=
  let g := f.at d
  if flag s g then s
  else
    let s := setF g 1 s
    if evtEnabled s g.off g.lo then
      event (blockCode g.off) (if g.off = Reg.LPE_GEVT then 0x80 + g.lo else g.lo) unit items s
    else s

/-- Sets an EVT bit of a block without instances. -/
def evt (f : Fld) (unit : Nat) (items : List Item) (s : State) : State := evtAt f 0 unit items s

/-- No unit concerned (Table 17-10). -/
def noUnit : Nat := 0xFF

end Sys2Proof.Machine
end

