-- ==== Sys2Proof/Machine/Sequencer.lean ====
section
/-! DEFINITION. The unit sequencer and the ends of commands (spec chapters 01, 12 and 17): bound units, derived volume
states, changes of the Unit State Table with their history and events, the outcome of step 4 of Table 11-8, the end of
a command, and the completion of requests. -/

namespace Sys2Proof.Machine

/-- The entry of a unit. -/
def unitOf (s : State) (u : Nat) : UnitEntry := Tbl.get {} u s.unt.tab

/-- The state of a unit. -/
def ust (s : State) (u : Nat) : UState := (unitOf s u).state

/-- The state that counts where a SUSPECT unit counts as before its suspicion (R28). -/
def effState (s : State) (u : Nat) : UState :=
  if ust s u = .suspect then (unitOf s u).prev else ust s u

/-- Whether the unit serves, a SUSPECT unit counting as before (R27, R28). -/
def serving (s : State) (u : Nat) : Bool := (effState s u).serves

/-- The PAIR_EN strap as latched (R461). -/
def pairEn (s : State) : Bool := flag s Fld.GLB_STRAPS_PAIR_EN

/-- The masks of BIND (R48); nothing is bound before an image runs. -/
def carMask (s : State) : Nat := match s.img.running with | some i => i.bind.carriageMask | none => 0
def strandMask (s : State) : Nat := match s.img.running with | some i => i.bind.strandMask | none => 0

/-- Absent by binding (R26), or not listed in Table 01-4: such a unit takes no request. -/
def bound (s : State) (u : Nat) : Bool :=
  if isCar u then bit (carMask s) (u - 4)
  else if isStrand u then bit (strandMask s) (u - 0x20) && bit (carMask s) ((u - 0x20) / 8)
  else if u = uPartner then pairEn s
  else unitListed u

/-- The bound strands of a carriage. -/
def strandsOf (s : State) (c : Nat) : List Nat := (upFrom (8 * c) 8).filter (fun g => bound s (uStrand g))

/-- The bound carriages. -/
def boundCars (s : State) : List Nat := [0, 1, 2, 3].filter (fun c => bound s (uCar c))

/-- The volumes of the disc, each with its number. -/
def volOf (s : State) (v : Nat) : Volume := Tbl.get {} v s.media.vols

/-- Changes a volume's record. -/
def modVol (v : Nat) (f : Volume → Volume) (s : State) : State :=
  { s with media := { s.media with vols := Tbl.put {} v (f (volOf s v)) s.media.vols } }

/-- Defaults of the policy values (Table 02-13). -/
def policyDefault (id : Nat) : Int :=
  if id = 1 then -5 else if id = 2 then 0 else if id = 3 then 5000 else if id = 4 then 10 else if id = 5 then 20
  else if id = 6 then 2048 else if id = 7 then 6 else if id = 8 then 50 else if id = 9 then 86400
  else if id = 10 then 64 else if id = 11 then 1 else 0

/-- A policy value in force (R39, R60). -/
def policyVal (s : State) (id : Nat) : Int := Tbl.get (policyDefault id) id s.mgt.policy

/-- The derived state of a volume (R28, Table 01-5; the first row that matches). -/
def derivedVol (s : State) : UState :=
  let cars := [0, 1, 2, 3]
  let notServing := cars.filter (fun c => !serving s (uCar c))
  if !serving s uDisc || !serving s (uSide 0) || !serving s (uSide 1) ||
      (!serving s (uBuf 0) && !serving s (uBuf 1)) then .offline
  else if 2 ≤ notServing.length then .offline
  else if notServing.length = 1 then .degraded
  else if cars.any (fun c => (strandsOf s c).any (fun g => !serving s (uStrand g))) then .degraded
  else .ready

/-- The reserved epoch 0 is skipped: after 0xFFFF_FFFF comes 1 (R499). -/
def nextEpoch (e : BitVec 32) : BitVec 32 := if e = 0xFFFFFFFF#32 then 1#32 else e + 1#32

/-- Writes a unit's entry with its new epoch (R503 step 1), counted in UNT_CNT. -/
def putState (u : Nat) (tgt : UState) (why : Reason) (s : State) : State :=
  let e := unitOf s u
  let e' : UnitEntry :=
    { state := tgt, prev := e.state, reason := why, epoch := nextEpoch e.epoch, changed := s.pwr.time,
      hold := if tgt = .service then e.hold else false, doubt := if tgt = .suspect then e.doubt else .none,
      asserted := if tgt = .suspect then e.asserted else false }
  let s := { s with unt := { s.unt with tab := Tbl.put {} u e' s.unt.tab } }
  let s := bump Reg.UNT_CNT 0 s
  if tgt = .faulted then bump Reg.UNT_CNT 7 s else s

/-- Writes one history entry in the ring of 8,192 (R449, R510). -/
def putHistory (u : Nat) (src : Source) (seq : Nat) (s : State) : State :=
  let e := unitOf s u
  let last := match s.mram.hist.getLast? with | some h => h.seq | none => 0
  let h : HistEntry := { seq := last + 1, time := s.pwr.time, unit := u, old := e.prev, new := e.state,
                         reason := e.reason, epoch := e.epoch, acceptSeq := seq, source := src }
  let old := if 8192 ≤ s.mram.hist.length then s.mram.hist.drop 1 else s.mram.hist
  { s with mram := { s.mram with hist := old ++ [h] } }

/-- Raises STATE_CHANGE at every change while its enable bit is set, and sets the bit (R513). -/
def changeEvent (u : Nat) (src : Source) (seq : Nat) (s : State) : State :=
  let e := unitOf s u
  let s := setF Fld.UNT_EVT_STATE_CHANGE 1 s
  if evtEnabled s Reg.UNT_EVT 0 then
    event 0x13 0 u [⟨1, e.prev.code⟩, ⟨1, e.state.code⟩, ⟨1, e.reason.code⟩, ⟨1, src.code⟩, ⟨8, seq⟩] s
  else s

/-- The partner serves, so that the owner mirrors (R534). -/
def mirroring (s : State) : Bool := pairEn s && (ust s uPartner).serves && flag s Fld.GLB_STATUS_OWNER

/-- The code and content of a mirrored item on the link; the frame's layout is not in the spec (Table 18-3). -/
def mirrorCode : MirrorItem → Nat × List Nat
  | .journal q => (0x10, [q])
  | .held t => (0x11, [t])
  | .placed k => (0x12, [k])
  | .verified k => (0x13, [k])
  | .knot v n => (0x14, [v, n])
  | .passed k => (0x15, [k])
  | .replay q => (0x16, [q])
  | .unit u => (0x17, [u])
  | .policy i => (0x18, [i])

/-- Mirrors an item; it stays unacknowledged until MIRROR_ACK (R534). -/
def mirror (m : MirrorItem) (s : State) : State :=
  if mirroring s then
    emit (.jokor (mirrorCode m).1 (mirrorCode m).2) { s with pair := { s.pair with unacked := s.pair.unacked ++ [m] } }
  else s

/-- Whether the partner has acknowledged an item, or need not. -/
def acked (s : State) (m : MirrorItem) : Bool := !s.pair.unacked.contains m

/-- Steps 3 and 4 of R503, and the mirrored change (R534). -/
def recordChange (u : Nat) (src : Source) (seq : Nat) (s : State) : State :=
  mirror (.unit u) (changeEvent u src seq (putHistory u src seq s))

/-- Step 2 of R503: every volume of the mounted disc whose state is derived takes its state anew, each change one of
its own (R28). A volume that is STARTING, FAULTED or ABSENT is not derived. -/
def recomputeVol (tgt : UState) (v : Nat) (s : State) : State :=
  let cur := ust s (uVol v)
  if (volOf s v).present && (cur = .offline || cur = .ready || cur = .degraded) && cur ≠ tgt then
    recordChange (uVol v) .internal 0 (putState (uVol v) tgt .derived s)
  else s

/-- Recomputes all volumes of a mounted disc. -/
def recompute (s : State) : State :=
  if s.media.disc.mounted then forEach (recomputeVol (derivedVol s)) (s.media.vols.map (·.1)) s else s

/-- Units whose change makes the volumes recompute (R28). -/
def drivesVolumes (u : Nat) : Bool := u == uDisc || isSide u || isCar u || isBuf u || isStrand u

/-! ### Commands -/

/-- The command on a tag. -/
def cmdOf (s : State) (t : Nat) : Option Cmd := Tbl.get none t s.host.cmds

/-- Replaces the command on a tag. -/
def putCmd (t : Nat) (c : Option Cmd) (s : State) : State :=
  { s with host := { s.host with cmds := Tbl.put none t c s.host.cmds } }

/-- Changes the command on a tag. -/
def modCmd (t : Nat) (f : Cmd → Cmd) (s : State) : State :=
  match cmdOf s t with
  | some c => putCmd t (some (f c)) s
  | none => s

/-- The commands in flight, each with its tag. -/
def cmds (s : State) : List (Nat × Cmd) := s.host.cmds.filterMap (fun e => e.2.map (fun c => (e.1, c)))

/-- Names a volume: every range-lock opcode with a volume, and VOLUME_INFO (Table 11-7). -/
def namesVol (op : Nat) : Bool :=
  op == opRead || op == opWrite || op == opFlush || op == opCreate || op == opClose || op == opInfo

/-- A VOLUME_CREATE of the volume is accepted and not yet ended (R385). -/
def creating (s : State) (v : Nat) : Bool :=
  (cmds s).any (fun e => e.2.cmd.opcode == opCreate && e.2.cmd.volume == v && e.2.state != .ended)

/-- A VOLUME_CLOSE of the volume is accepted and not yet ended (R385). -/
def closing (s : State) (v : Nat) : Bool :=
  (cmds s).any (fun e => e.2.cmd.opcode == opClose && e.2.cmd.volume == v && e.2.state != .ended)

/-- The units that a command needs (R504). -/
def needs (op v : Nat) : List Nat :=
  if op = opCreate then [uSpindle, uDisc]
  else if op = opImport then [uDisc, uSpindle]
  else if op = opRead || op = opWrite || op = opFlush || op = opClose then [uVol v, uSpindle]
  else []

/-- Some bound carriage is STARTING. -/
def carStarting (s : State) : Bool := (boundCars s).any (fun c => decide (ust s (uCar c) = .starting))

/-- A needed unit's state; a volume under creation counts as READY (R385). After a takeover media work waits while the
carriages are STARTING, though the volumes are OFFLINE for it (R537). -/
def needState (s : State) (op u : Nat) : UState :=
  if isVol u && op ≠ opCreate && creating s (u - 0x40) then .ready
  else if isVol u && s.pair.resumed && ust s u = .offline && carStarting s then .starting
  else ust s u

/-- The outcome of Table 17-4 over some units: none is UNIT_NOT_READY, otherwise what the command waits on. -/
def gateOn (s : State) (op : Nat) (us : List Nat) : Option Gate :=
  let sts := us.map (fun u => (u, needState s op u))
  if sts.any (fun e => e.2.down) then none
  else match sts.find? (fun e => e.2 = .suspect) with
    | some e => some (.suspect e.1 (policyVal s 3).toNat)
    | none => match sts.find? (fun e => !e.2.serves) with
      | some e => some (.unitWait e.1)
      | none => some .open

/-- The outcome of step 4 of Table 11-8 for a command of a volume. -/
def gateFor (s : State) (op v : Nat) : Option Gate := gateOn s op (needs op v)

/-- The unit report (Table 17-6). -/
def unitReport (s : State) (u : Nat) : List Byte :=
  let e := unitOf s u
  leBytes 1 u ++ leBytes 1 e.state.code ++ leBytes 1 e.prev.code ++ leBytes 1 e.reason.code ++
    leBytes 4 e.epoch.toNat ++ leBytes 8 e.changed

/-- A command that enters its volume's replay table: it carries REPLAY and ends in class 0x0 (R399). A full table of
65,536 drops the entry that ended earliest. -/
def recordReplay (c : Cmd) (s : State) : State :=
  if HostCmd.replay c.cmd && c.status.good && !c.replayed then
    mirror (.replay c.seq) <| modVol c.cmd.volume (fun v =>
      let kept := if 65536 ≤ v.replay.length then v.replay.drop 1 else v.replay
      { v with replay := kept ++ [{ id := c.cmd.replayId, seq := c.seq, status := c.status, result := c.result,
                                    relocated := c.relocated, step := c.step }] }) s
  else s

/-- Frees a tag without a completion. -/
def freeTag (t : Nat) (s : State) : State := putCmd t none s

/-- A completion of class 0x0 that ORD_CNT[7] counts. -/
def countsDurable (c : Cmd) : Bool :=
  c.status.good && ((c.cmd.opcode == opWrite && HostCmd.fua c.cmd) || c.cmd.opcode == opFlush ||
    c.cmd.opcode == opCreate || c.cmd.opcode == opClose)

/-- Decides a command's status at its commit point and ends it: its range-lock entry goes, its outcome is recorded
for replay, and its completion joins the queue of those to be posted, in the order in which commands end (R367,
R377, R378). A silent command, of a function in FLR (R340), frees its tag instead. -/
def endOne (t : Nat) (st : Status) (result : Nat) (s : State) : State :=
  match cmdOf s t with
  | none => s
  | some c =>
    if c.state = .ended then s
    else
      let c' := { c with state := .ended, status := st, result := result, lock := none, snap := [], gate := .open }
      let s := recordReplay c' s
      let s := if countsDurable c' then bump Reg.ORD_CNT 7 s else s
      if c.silent || c.detached then freeTag t s
      else { putCmd t (some c') s with host := { (putCmd t (some c') s).host with posting := s.host.posting ++ [t] } }

/-- Commands that repeat the identity of the ended one end with its outcome, REPLAYED set (R401). -/
def endRepeats (seq : Nat) (st : Status) (result : Nat) (rel : Bool) (step : Nat) (s : State) : State :=
  forEach (fun e s =>
    if e.2.gate = .original seq && e.2.state ≠ .ended then
      let s := modCmd e.1 (fun c => { c with replayed := true, relocated := rel, step := step }) s
      evt Fld.ORD_EVT_REPLAY_HIT noUnit [⟨1, e.2.cmd.volume⟩, ⟨8, e.2.seq⟩, ⟨8, seq⟩] (bump Reg.ORD_CNT 6 (endOne e.1 st result s))
    else s) (cmds s) s

/-- What follows the end of a VOLUME_CREATE outside class 0x0: the commands that waited on it complete with
UNIT_NOT_READY (R385). -/
def createFailed (c : Cmd) (st : Status) (s : State) : State :=
  if c.cmd.opcode = opCreate && !st.good then
    forEach (fun e s =>
      if e.2.cmd.volume = c.cmd.volume && c.seq < e.2.seq && e.2.state = .waiting && namesVol e.2.cmd.opcode
      then endOne e.1 .unitNotReady 0 s else s) (cmds s) s
  else s

/-- Ends a command with all that hangs on it. -/
def endCmd (t : Nat) (st : Status) (result : Nat) (s : State) : State :=
  match cmdOf s t with
  | none => s
  | some c =>
    if c.state = .ended then s
    else
      let s := endOne t st result s
      let s := endRepeats c.seq st result c.relocated c.step s
      createFailed c st s

/-- Work of a command that Table 17-4 reaches while it runs (R504): reads, and commands that wait for a knot. -/
def mediaWork (c : Cmd) : Bool :=
  c.cmd.opcode == opRead || c.cmd.opcode == opImport || c.waitsKnot.isSome

/-- Writes to a volume are refused at step 6 (R28, R385): it is read-only or closed, or a VOLUME_CLOSE of it is under way. -/
def writesRefused (s : State) (v : Nat) : Bool := (volOf s v).readOnly || (volOf s v).closed || closing s v

/-- A new write fails while exactly one carriage does not serve and is neither in DRAINING nor in SERVICE (Table 01-5). -/
def newWritesFail (s : State) : Bool :=
  match [0, 1, 2, 3].filter (fun c => !serving s (uCar c)) with
  | [c] => !(ust s (uCar c) = .draining || ust s (uCar c) = .service)
  | _ => false

/-- What step 4 of Table 11-8 adds to the states of the units: for VOLUME_CREATE a VAD-3200 mounted and not in import mode,
for IMPORT_READ the disc in import mode (R504, R363), for a WRITE the carriages of Table 01-5. -/
def discFits (s : State) (op v : Nat) : Bool :=
  if op = opCreate then s.media.disc.mounted && !s.media.disc.importMode
  else if op = opImport then s.media.disc.importMode
  else if op = opWrite then writesRefused s v || !newWritesFail s else true

/-- Sets what a command waits on at step 4. Once nothing is left, what steps 4 to 8 of Table 11-8 found decides a
command that still waits. -/
def setGate4 (t : Nat) (g : Gate) (s : State) : State :=
  match cmdOf s t with
  | none => s
  | some c =>
    let s := modCmd t (fun c => { c with gate := g }) s
    if g = .open && c.state = .waiting then
      if !discFits s c.cmd.opcode c.cmd.volume then endCmd t .unitNotReady 0 s
      else match c.late with
        | some (st, r) => endCmd t st r s
        | none => s
    else s

/-- Takes a waiting or paused command through Table 17-4 again after a unit changed. -/
def regateOne (e : Nat × Cmd) (s : State) : State :=
  let (t, c) := e
  let applies := c.state = .waiting || (c.state = .running && mediaWork c)
  match c.gate with
  | .original _ => s
  | .thermal => s
  | _ =>
    if !applies || needs c.cmd.opcode c.cmd.volume = [] then s
    else match gateFor s c.cmd.opcode c.cmd.volume with
      | none => endCmd t .unitNotReady 0 s
      | some g =>
        -- a hold for a carriage or strand lasts while that unit is SUSPECT (R173, R509)
        let stays : Bool := match c.gate with
          | .suspect u _ => !(needs c.cmd.opcode c.cmd.volume).contains u && decide (ust s u = .suspect)
          | _ => false
        if stays then s else
        match c.gate, g with
        | .suspect u _, .suspect u' _ => if u = u' then s else bump Reg.UNT_CNT 5 (setGate4 t g s)
        | _, .suspect _ _ => bump Reg.UNT_CNT 5 (setGate4 t g s)
        | _, _ => setGate4 t g s

/-- Takes every waiting or paused command through Table 17-4 again. -/
def regate (s : State) : State :=
  let s := forEach regateOne (cmds s) s
  if s.pair.resumed && !carStarting s then { s with pair := { s.pair with resumed := false } } else s

/-! ### Completion of requests -/

/-- RESULT of a unit opcode: the epoch after the command in class 0x0, the present epoch for EPOCH_STALE (Table
11-11). -/
def unitResult (s : State) (u : Nat) (st : Status) : Nat :=
  if st.good || st = .epochStale then (unitOf s u).epoch.toNat else 0

/-- The payload of a management-path response to a unit request (Table 17-12): the unit report, and for CALIBRATE and
SELF_TEST CAL_LAST and its figures. -/
def reqPayload (s : State) (k : ReqKind) (u : Nat) : List Byte :=
  let r := unitReport s u
  match k with
  | .request => r
  | .query => r
  | .info => r
  | _ => r ++ leBytes 4 (getReg s Reg.CAL_LAST).toNat ++ leBytes 4 (getReg s Reg.CAL_LAST_Q0).toNat ++
      leBytes 4 (getReg s Reg.CAL_LAST_Q1).toNat

/-- Sends a response on the management port: FLAGS.RESPONSE is bit 0 (Table 17-11). -/
def dmpAnswer (addr port typ reqId flags status : Nat) (payload : List Byte) (s : State) : State :=
  emit (.dmp addr port typ reqId (flags + 1) status payload 0) s

/-- Keeps a response among the last 64 (R516). -/
def storeAnswer (addr port reqId typ : Nat) (ans : Option (Nat × List Byte)) (s : State) : State :=
  let others := s.mgt.stored.filter (fun x => !(x.addr = addr && x.port = port && x.reqId = reqId))
  let kept := if 64 ≤ others.length then others.drop 1 else others
  { s with mgt := { s.mgt with stored := kept ++ [{ addr := addr, port := port, reqId := reqId, typ := typ, answer := ans }] } }

/-- The header and payload of a DMP message (Table 17-11), CHECK included. -/
def dmpBytes (typ deckId reqId flags status : Nat) (payload : List Byte) : List Byte :=
  let front := leBytes 2 0x4D44 ++ leBytes 1 1 ++ leBytes 1 typ ++ leBytes 4 deckId ++ leBytes 4 reqId ++
    leBytes 2 flags ++ leBytes 1 status ++ leBytes 1 0 ++ leBytes 2 payload.length ++ List.replicate 10 0
  front ++ leBytes 4 (crc32c (front ++ leBytes 4 0 ++ payload)) ++ payload

/-- The deck ID of an image under the straps (R61). -/
def deckOf (m : MgmtCfg) (straps : Nat) : Nat := if m.strapLow then m.deckId / 64 * 64 + bits straps 8 6 else m.deckId

/-- The deck ID in use: the running image's, or the ROM base image's while none runs (R61, R68, Table 02-17). -/
def deckId (s : State) : Nat :=
  match s.img.running with
  | some i => deckOf i.mgmt s.pwr.straps
  | none => 0x3FFC0 + bits s.pwr.straps 8 6

/-- Makes the response of the last I3C message ready (R517). -/
def i3cAnswer (typ reqId status : Nat) (payload : List Byte) (s : State) : State :=
  { s with mgt := { s.mgt with i3c := { s.mgt.i3c with
      waiting := false, response := some (dmpBytes typ (deckId s) reqId 1 status payload) } } }

/-- Completes a request at the sequencer towards its sender (R364, R365, R515, R516). -/
def finishReq (r : UnitReq) (st : Status) (s : State) : State :=
  let s := if st = .unitService then bump Reg.UNT_CNT 3 s else s
  let s := if st = .unitSuspect then bump Reg.UNT_CNT 6 s else s
  match r.sender with
  | .policy => s
  | .ring t =>
    match cmdOf s t with
    | none => s
    | some c =>
      let s := if c.cmd.dataAddr ≠ 0 && st ≠ .invalidField && st ≠ .aborted && !c.detached && !c.silent
               then (if c.remote then emit (.jokor 0x21 (t :: (unitReport s r.unit).map (·.toNat))) s
                     else emit (.hostWrite c.fn c.cmd.dataAddr (unitReport s r.unit)) s) else s
      endCmd t st (unitResult s r.unit st) s
  | .dmp addr port reqId typ =>
    let p := reqPayload s r.kind r.unit
    dmpAnswer addr port typ reqId 0 st.code p (storeAnswer addr port reqId typ (some (st.code, p)) s)
  | .i3c reqId typ => i3cAnswer typ reqId st.code (reqPayload s r.kind r.unit) s
  | .partner i3c addr port reqId typ =>
    emit (.jokor 0x24 ([if i3c then 1 else 0, addr, port, reqId, typ, st.code] ++ (reqPayload s r.kind r.unit).map (·.toNat))) s

/-- How an open request stands after a change of its unit (Table 17-5): none is still open. -/
def reqOutcome (s : State) (r : UnitReq) : Option Status :=
  if r.kind ≠ .request then none
  else
    let st := ust s r.unit
    if r.code = 0x01 then (if st = .offline || st = .absent then some .success else none)
    else if r.code = 0x03 then
      (if st.serves then some .success else if st = .starting then none else some .unitNotReady)
    else if r.code = 0x07 then
      (if st = .service then some .success else if st = .draining || st.serves then none else some .unitNotReady)
    else none

/-- Settles the open requests of a unit. -/
def settleReqs (u : Nat) (s : State) : State :=
  let mine := s.unt.open_.filter (fun r => r.unit = u && (reqOutcome s r).isSome)
  let s' := { s with unt := { s.unt with open_ := s.unt.open_.filter (fun r => !(r.unit = u && (reqOutcome s r).isSome)) } }
  forEach (fun r s => match reqOutcome s r with | some st => finishReq r st s | none => s) mine s'

/-- R29: a carriage that leaves DRAINING or SERVICE for FAULTED, OFFLINE or ABSENT ends the FUA writes and FLUSHes
that wait for held data with UNIT_NOT_READY; the data stays held. -/
def endHeldWaits (from_ tgt : UState) (s : State) : State :=
  if (from_ = .draining || from_ = .service) && tgt.down && s.media.held.any (fun h => h.stage ≠ .applied) then
    forEach (fun e s => if e.2.state = .running && e.2.waitsKnot.isSome &&
        (e.2.cmd.opcode = opWrite || e.2.cmd.opcode = opFlush) then endCmd e.1 .unitNotReady 0 s else s) (cmds s) s
  else s

/-- Table 06-5: a carriage that enters a state other than READY, DEGRADED or DRAINING stops writing at the end of the
slot being written. -/
def carWriteStop (u : Nat) (tgt : UState) (s : State) : State :=
  if isCar u && !(tgt.serves || tgt = .draining) then
    { s with media := { s.media with cars := modAt (u - 4) (fun w => if w.state = .writing then { w with stopAtSlotEnd := true } else w) s.media.cars } }
  else s

/-- Import mode ends when the disc unit leaves READY (R192). -/
def endImport (u : Nat) (from_ : UState) (s : State) : State :=
  if u = uDisc && from_ = .ready && s.media.disc.importMode then
    let s := { s with media := { s.media with disc := { s.media.disc with importMode := false } } }
    let s := { s with pool := { s.pool with disc := {} }, chn := { s.chn with importMode := false } }
    let s := setReg Reg.DEC_IMP_STATUS 0#32 s
    forEach (fun i s => setReg (Reg.DEC_IMP_REACH + 4 * i) 0#32 s) [0, 1, 2, 3] s
  else s

/-- What follows a change: write stops, held data, waiting commands, open requests. -/
def afterChange (u : Nat) (from_ tgt : UState) (s : State) : State :=
  let s := carWriteStop u tgt s
  let s := if isCar u then endHeldWaits from_ tgt s else s
  let s := endImport u from_ s
  settleReqs u (regate s)

/-- One change of the Unit State Table in the order of R503. A cause that leaves the state as it was is no change. -/
def changeUnit0 (u : Nat) (tgt : UState) (why : Reason) (src : Source) (seq : Nat) (s : State) : State :=
  let old := ust s u
  if old = tgt then s
  else
    let s := putState u tgt why s
    let s := if drivesVolumes u then recompute s else s
    afterChange u old tgt (recordChange u src seq s)

/-! ### Calibrations that a change ends (Table 16-2) -/

/-- A CAL event names the unit, the kind, the run number and the status posted (R497). -/
def calEvt (f : Fld) (r : CalRun) (st : Status) (s : State) : State :=
  evt f r.unit [⟨1, r.unit⟩, ⟨1, r.code⟩, ⟨4, r.run⟩, ⟨1, st.code⟩] s

/-- Records the end of a calibration or self-test: CAL_LAST, CAL_CNT and the events (R496, Table 16-3). -/
def calRecord (r : CalRun) (st : Status) (outcome : Nat) (s : State) : State :=
  let s := { s with cal := { s.cal with running := s.cal.running.filter (fun x => x ≠ r) } }
  let op := if r.op = opCalibrate then 1 else 2
  let s := setReg Reg.CAL_LAST (BitVec.ofNat 32 (r.unit * 0x1000000 + r.code * 0x100000 + op * 0x40000 + st.code * 0x100 + outcome)) s
  let s := if r.op ≠ opCalibrate then bump Reg.CAL_CNT 3 s
    else if st.good then bump Reg.CAL_CNT 0 s else if outcome = 3 then bump Reg.CAL_CNT 1 s
    else if outcome = 4 then bump Reg.CAL_CNT 2 s else s
  let s := if outcome = 3 then calEvt Fld.CAL_EVT_REJECTED r st s else s
  let s := { s with mot := { s.mot with spn := { s.mot.spn with calib := none } } }
  calEvt Fld.CAL_EVT_DONE r st s

/-- Marks whether a running calibration holds a unit in SERVICE. -/
def setHold (u : Nat) (b : Bool) (s : State) : State :=
  { s with unt := { s.unt with tab := Tbl.put {} u { unitOf s u with hold := b } s.unt.tab } }

/-- What a change of units means for a run: a FAULTED unit ends it, as a carriage's does the spindle's leaving READY; a SPINDLE
calibration that waits for the spindle ends with it. -/
def calSweepOne (r : CalRun) (s : State) : State :=
  match r.ending with
  | some (ok, outcome) =>
    let st := ust s uSpindle
    if st.serves || st.down then
      let status : Status := if ok && st.serves then .success else .unitNotReady
      finishReq r.req status (calRecord r status outcome s)
    else s
  | none =>
    let st := ust s r.unit
    if r.op = opSelfTest && r.code ≠ 3 then s
    else if st = .faulted || st = .absent then finishReq r.req .unitNotReady (calRecord r .unitNotReady 4 (setHold r.unit false s))
    else if isCar r.unit && !(ust s uSpindle).serves && (st = .draining || st = .service) then
      let s := calRecord r .unitNotReady 4 (setHold r.unit false s)
      let s := if r.byReq then s else changeUnit0 r.unit .starting .calibration .internal 0 s
      finishReq r.req .unitNotReady s
    else s

/-- Every run after a change. -/
def calSweep (s : State) : State := forEach calSweepOne s.cal.running s

/-- One change, with the calibrations that it ends. -/
def changeUnit (u : Nat) (tgt : UState) (why : Reason) (src : Source) (seq : Nat) (s : State) : State :=
  calSweep (changeUnit0 u tgt why src seq s)

/-- An internal change (R502). -/
def change (u : Nat) (tgt : UState) (why : Reason) (s : State) : State := changeUnit u tgt why .internal 0 s

/-- A change group (R500, R503): each entry with its own epoch, history entry and event, the volumes recomputed once
after the last. -/
def changeGroup (us : List (Nat × UState)) (why : Reason) (src : Source) (seq : Nat) (s : State) : State :=
  let olds := us.map (fun e => (e.1, ust s e.1, e.2))
  let s := forEach (fun e s => if ust s e.1 = e.2 then s else recordChange e.1 src seq (putState e.1 e.2 why s)) us s
  let s := recompute s
  calSweep (forEach (fun e s => if e.2.1 = e.2.2 then s else afterChange e.1 e.2.1 e.2.2 s) olds s)

/-- Sets a unit SUSPECT and says why (R34, R508); the state before it is kept as the previous state. -/
def suspectUnit (u : Nat) (why : Reason) (d : Doubt) (claim : Bool) (s : State) : State :=
  if ust s u = .suspect then s
  else
    let e := unitOf s u
    let s := { s with unt := { s.unt with tab := Tbl.put {} u { e with doubt := d, asserted := claim } s.unt.tab } }
    change u .suspect why s

end Sys2Proof.Machine
end

