-- ==== Sys2Proof/Machine/LoopCore.lean ====
section
/-! DEFINITION. Access to the loop slots, the cams and the carriages' motion engines, the measurement sources and
output destinations (Tables 08-1 to 08-3), and enabling and disabling of loops (Table 08-6). -/

namespace Sys2Proof.Machine

/-- The motion state of a carriage. -/
def carOfS (s : State) (c : Nat) : CarMotion := s.mot.cars.getD c {}

/-- Changes a carriage's motion state. -/
def modCar (c : Nat) (f : CarMotion → CarMotion) (s : State) : State :=
  { s with mot := { s.mot with cars := modAt c f s.mot.cars } }

/-- A loop slot. -/
def lslot (s : State) (k : Nat) : LoopSlot := s.mot.slots.getD k {}

/-- Changes a loop slot. -/
def modSlot (k : Nat) (f : LoopSlot → LoopSlot) (s : State) : State :=
  { s with mot := { s.mot with slots := modAt k f s.mot.slots } }

/-- Changes the spindle drive's state. -/
def modSpn (f : SpnState → SpnState) (s : State) : State := { s with mot := { s.mot with spn := f s.mot.spn } }

/-- The running image's record of a slot (R49). -/
def recOf (s : State) (k : Nat) : Option LoopRec :=
  match s.img.running with
  | some i => i.loops.find? (fun l => l.slot == k)
  | none => none

/-- The slot of the running image that holds a kind of loop on a carriage (R50); 0xFF for the spindle kinds. -/
def slotOfKind (s : State) (kind car : Nat) : Option Nat :=
  match s.img.running with
  | some i => (i.loops.find? (fun l => l.kind == kind && l.carriage == car)).map (fun l => l.slot)
  | none => none

/-- Slots of a carriage. -/
def slotsOfCar (s : State) (c : Nat) : List Nat :=
  match s.img.running with
  | some i => (i.loops.filter (fun l => l.carriage == c)).map (fun l => l.slot)
  | none => []

/-- The spindle current and speed slots. -/
def currentSlot (s : State) : Option Nat := slotOfKind s 0x10 0xFF
def speedSlot (s : State) : Option Nat := slotOfKind s 0x11 0xFF

/-- A slot's register offset (R279). -/
def lreg (base k : Nat) : Nat := base + 0x80 * k

/-- A register as a signed number. -/
def regInt (s : State) (off : Nat) : Int := signed 32 (getReg s off).toNat

/-- Writes a signed number to a register. -/
def setInt (off : Nat) (v : Int) (s : State) : State := setReg off (BitVec.ofNat 32 (unsigned 32 v)) s

/-- A slot that computes: RUN or HOLD. -/
def slotStActive : SlotSt → Bool
  | .run => true
  | .hold => true
  | _ => false

/-- Whether a slot is in RUN or HOLD. -/
def slotActive (s : State) (k : Nat) : Bool := slotStActive (lslot s k).st

/-- Whether a kind of loop on a carriage is in RUN or HOLD. -/
def kindActive (s : State) (kind car : Nat) : Bool :=
  match slotOfKind s kind car with | some k => slotActive s k | none => false

/-- The cost of a loop in cycles (R258). -/
def loopCost (l : LoopRec) : Nat := 8 + (l.nStates * (2 * l.nMeas + l.nStates + 2 * l.nOut) + 3) / 4

/-- Owner (GLB_STATUS.OWNER). -/
def isOwner (s : State) : Bool := flag s Fld.GLB_STATUS_OWNER

/-! ### Servo signals (Table 08-1) -/

/-- Input i of carriage c over its two holds, doubled: the sum of both conversions, or twice the phase-625 one. -/
def pdOf (s : State) (c i : Nat) : Int :=
  let b : Int := (s.mot.pd2.getD (12 * c + i) 0 : Nat)
  if flag s (Fld.LPE_CAR_CFG_MEAS_MODE.at (4 * c)) then 2 * b else (s.mot.pd1.getD (12 * c + i) 0 : Nat) + b

/-- A quotient in Q8.24 with its validity: invalid below 256 codes (R250), and a free value where nothing divides. -/
def ratio (s : State) (num den : Int) : Int × Bool :=
  if den ≤ 0 then (signed 32 (Config.freeWord s.free).toNat, false)
  else (satQ (roundDiv (num * one24) den.toNat), decide (512 ≤ den))

/-- The formed signals FE, TE, SPP, DPP, TILT, SA and SUM (codes 1 to 7), each with its validity. -/
def formed (s : State) (c code : Nat) : Int × Bool :=
  let p := pdOf s c
  let quad := p 0 + p 1 + p 2 + p 3
  let side := p 4 + p 5 + p 6 + p 7
  let fe := ratio s (p 0 + p 2 - p 1 - p 3) quad
  let te := ratio s (p 0 + p 3 - p 1 - p 2) quad
  let spp := ratio s (p 4 - p 5 + p 6 - p 7) side
  if code = 1 then fe else if code = 2 then te else if code = 3 then spp
  else if code = 4 then
    let k := signed 16 (getF s (Fld.LPE_CAR_CFG_DPP_K.at (4 * c)))
    (satQ (te.1 - roundDiv (k * spp.1) 16384), te.2 && spp.2)
  else if code = 5 then ratio s (p 8 - p 9) (p 8 + p 9)
  else if code = 6 then ratio s (p 10 - p 11) (p 10 + p 11)
  else (roundDiv (quad * one24) 524280, true)

/-- TRACK_TARGET_c at the present wedge in 2^−24 µm (R319). -/
def trackTarget (s : State) (c : Nat) : Int :=
  let m := carOfS s c
  roundDiv (((bandBase c + 8 * m.turn + 4 : Nat) : Int) * one24) 5 + roundDiv ((m.wedge : Int) * 16 * one24) 960 -
    roundDiv (16 * m.nTurn) 10

/-- The sled position from home in mm, Q8.24. -/
def sledMm (s : State) (c : Nat) : Int := roundDiv ((carOfS s c).p * 25 * one24) 256000

/-- The value of a measurement source for a slot, and its validity as a photodetector signal (Table 08-2). -/
def sourceOf (s : State) (l : LoopRec) (code : Nat) : Int × Bool :=
  let c := l.carriage
  let parentOut (o : Nat) : Int := match l.parent with | some p => nth (lslot s p).out o | none => 0
  if decide (1 ≤ code) && decide (code ≤ 7) then formed s c code
  else if code = 8 then (satQ (((carOfS s c).ply.getD 0) - trackTarget s c), true)
  else if code = 9 then (satQ ((carOfS s c).twist.getD 0), true)
  else if code = 0x0A then (satQ (sledMm s c), true)
  else if code = 0x0B then (parentOut 0, true)
  else if code = 0x0C then (parentOut 1, true)
  else if code = 0x20 then (satQ s.mot.spn.iQ, true)
  else if code = 0x21 then (satQ s.mot.spn.iD, true)
  else if code = 0x22 then (satQ (roundDiv s.mot.spn.nHat 1000), true)
  else (((s.mot.traces.getD (code - 0x30) {}).q), true)

/-- Hold classes of Table 08-2. -/
def isPhoto (code : Nat) : Bool := decide (1 ≤ code) && decide (code ≤ 7)
def isChevron (code : Nat) : Bool := code == 8 || code == 9

/-! ### Destinations (Table 08-3) -/

/-- The DAC index of a carriage's destination code 1 to 5. -/
def dacIndex (c code : Nat) : Nat := 5 * c + (code - 1)

/-- The present value at an output's destination, in the unit of the output. -/
def destValue (s : State) (l : LoopRec) (o : Nat) : Int :=
  let code := l.outDst.getD o 0
  if decide (1 ≤ code) && decide (code ≤ 5) then (s.mot.dacs.getD (dacIndex l.carriage code) {}).tgt * 512
  else if code = 8 then nth s.mot.sledTarget l.carriage
  else if code = 0x10 then (match l.parent with | some p => regInt s (lreg Reg.LPE_SP_TARGET p) | none => 0)
  else if code = 0x20 then s.mot.vq
  else if code = 0x21 then s.mot.vd
  else nth (lslot s l.slot).out o

/-- The DAC code of an output (R254). -/
def dacCode (out : Int) : Int := clampI (-32768) 32767 (roundDiv (out * 32768) 0x1000000)

/-- Changes a DAC. -/
def modDac (i : Nat) (f : Dac → Dac) (s : State) : State :=
  { s with mot := { s.mot with dacs := modAt i f s.mot.dacs } }

/-- Writes an output to its destination, and shows it in LPE_OUT0 or LPE_OUT1 (R248, R254, R262). -/
def writeDest (l : LoopRec) (o : Nat) (v : Int) (s : State) : State :=
  let code := l.outDst.getD o 0
  let s := modSlot l.slot (fun k => { k with out := modAt o (fun _ => v) k.out }) s
  let interp := flag s (Fld.LPE_CTRL_INTERP.at (0x80 * l.slot))
  if decide (1 ≤ code) && decide (code ≤ 5) then
    modDac (dacIndex l.carriage code) (fun d => { d with old := d.code, tgt := dacCode v, interp := interp, m := 0 }) s
  else if code = 8 then { s with mot := { s.mot with sledTarget := modAt l.carriage (fun _ => v) s.mot.sledTarget } }
  else if code = 0x10 then
    (match l.parent with | some p => setInt (lreg Reg.LPE_SP_TARGET p) v s | none => s)
  else if code = 0x20 then { s with mot := { s.mot with vq := v } }
  else if code = 0x21 then { s with mot := { s.mot with vd := v } }
  else s

/-- The range of a destination, loaded into OUT_MIN and OUT_MAX at S6 (Table 08-3). -/
def destRange (i : Image) (l : LoopRec) : Int × Int :=
  let code := l.outDst.getD 0 0
  if decide (1 ≤ code) && decide (code ≤ 5) || code = 0x20 || code = 0x21 then (-one24, one24 - 1)
  else if code = 8 then
    (0, roundDiv (((i.motors.sleds.getD l.carriage default).strokeLimit : Int) * one24) 1000)
  else if code = 0x10 then
    (match l.parent with
      | some p => (match i.loops.find? (fun q => q.slot == p) with
        | some q => if q.kind = 0x10 then
            (let v := roundDiv ((i.motors.iLimit : Int) * one24) 1000; (satQ (-v), satQ v)) else (-0x80000000, 0x7FFFFFFF)
        | none => (-0x80000000, 0x7FFFFFFF))
      | none => (-0x80000000, 0x7FFFFFFF))
  else (-one24, one24)

/-! ### States of a slot -/

/-- The identity that an LPE event carries: slot, kind and carriage (R280). -/
def lpeItems (s : State) (k : Nat) : List Item :=
  match recOf s k with
  | some l => [⟨1, k⟩, ⟨1, l.kind⟩, ⟨1, l.carriage⟩]
  | none => [⟨1, k⟩]

/-- The unit of a loop: its carriage or the spindle. -/
def loopUnit (l : LoopRec) : Nat := if l.carriage ≤ 3 then uCar l.carriage else uSpindle

/-- Sets an LPE event of a slot. -/
def lpeEvt (f : Fld) (k : Nat) (s : State) : State :=
  evtAt f (0x80 * k) (match recOf s k with | some l => loopUnit l | none => noUnit) (lpeItems s k) s

/-- Children of a slot. -/
def childrenOf (s : State) (k : Nat) : List Nat :=
  match s.img.running with
  | some i => (i.loops.filter (fun l => l.parent == some k)).map (fun l => l.slot)
  | none => []

/-- A slot leaves the active states for st; its destinations keep their values, its pending output goes, and its
children are disabled in the same base period (R263, Table 08-6). A child never has children (R50). -/
def leaveActive (k : Nat) (st : SlotSt) (s : State) : State :=
  let drop (st : SlotSt) (x : LoopSlot) : LoopSlot :=
    { x with st := st, next := none, late := false, lost := false, holding := false, holdLen := 0, enable := none }
  let s := modSlot k (drop st) s
  forEach (fun c s => if slotActive s c then modSlot c (drop .disabled) s else s) (childrenOf s k) s

/-- Disables a slot: from RUN, HOLD or LOST (Table 08-6). -/
def disableSlot (k : Nat) (s : State) : State :=
  let st := (lslot s k).st
  if slotStActive st || st = .lost then leaveActive k .disabled s else s

/-- Disables a list of slots. -/
def disableSlots (ks : List Nat) (s : State) : State := forEach disableSlot ks s

/-- Both spindle loops disabled. -/
def disableSpindleLoops (s : State) : State :=
  disableSlots ((speedSlot s).toList ++ (currentSlot s).toList) s

/-- The condition of the first row of Table 08-6. -/
def mayEnable (s : State) (l : LoopRec) : Bool :=
  (match l.parent with | some p => slotActive s p | none => true) && ust s (loopUnit l) != .faulted && isOwner s

/-- Enable at a due phase 0 with measurement 0 as latched (R265, Table 08-6). -/
def enableNow (l : LoopRec) (y0 : Int) (s : State) : State :=
  let k := l.slot
  let x := lslot s k
  if !(x.st = .disabled || x.st = .lost) then modSlot k (fun x => { x with enable := none }) s
  else if mayEnable s l then
    modSlot k (fun x => { x with
      st := .run, enable := none, u0 := [destValue s l 0, destValue s l 1], xh := List.replicate 8 0, r := y0,
      ovrRun := 0, lockRun := 0, age := [0, 0, 0, 0], lost := false, late := false, holding := false, holdLen := 0 }) s
  else lpeEvt Fld.LPE_EVT_ENABLE_REFUSED k (modSlot k (fun x => { x with enable := none }) s)

/-- Asks a slot to be enabled or disabled at its next due phase 0 (R261). -/
def askEnable (k : Nat) (on : Bool) (s : State) : State := modSlot k (fun x => { x with enable := some on }) s

/-- Holds or releases MASK bits of a slot on the motion engine's behalf; masking clears staleness (R271, R322). -/
def engineMask (k m : Nat) (s : State) : State :=
  modSlot k (fun x => { x with engMask := m, age := if m = 0 then x.age else [0, 0, 0, 0] }) s

end Sys2Proof.Machine
end

