-- ==== Sys2Proof/Machine/WriteCore.lean ====
section
/-! DEFINITION. What the write path shares with the mechanics that stop it (chapter 06): skeins by key, sealing, joining
the write queues, rewriting after a failed verify or an abandoned pass, exhaustion, and the write stops of Table 06-5. -/

namespace Sys2Proof.Machine

/-- A skein by its key. -/
def skeinOf (s : State) (key : Nat) : Option Skein := s.media.skeins.find? (fun k => k.key == key)

/-- Changes a skein. -/
def modSkein (key : Nat) (f : Skein → Skein) (s : State) : State :=
  { s with media := { s.media with skeins := s.media.skeins.map (fun k => if k.key = key then f k else k) } }

/-- Drops a skein. -/
def dropSkein (key : Nat) (s : State) : State :=
  { s with media := { s.media with skeins := s.media.skeins.filter (fun k => k.key ≠ key) } }

/-- The write side of a carriage. -/
def wcar (s : State) (c : Nat) : WriteCar := s.media.cars.getD c {}

/-- Changes the write side of a carriage. -/
def modWcar (c : Nat) (f : WriteCar → WriteCar) (s : State) : State :=
  { s with media := { s.media with cars := modAt c f s.media.cars } }

/-- A held block by its identity. -/
def heldOf (s : State) (id : Nat) : Option Held := s.media.held.find? (fun h => h.id == id)

/-- Sets or clears a carriage's write gate (R203). -/
def setGate (c : Nat) (on : Bool) (s : State) : State :=
  { s with pins := { s.pins with wgate := modAt c (fun _ => on) s.pins.wgate } }

/-- Sets or clears a carriage's laser enable. -/
def setLen (c : Nat) (on : Bool) (s : State) : State :=
  { s with pins := { s.pins with len := modAt c (fun _ => on) s.pins.len } }

/-- All four carriages. -/
def allCars : List Nat := [0, 1, 2, 3]

/-! ### Queues -/

/-- Whether a queued skein goes ahead of the ordinary ones: a verify rewrite or a knot skein (R198). -/
def goesAhead (s : State) (key : Nat) : Bool := match skeinOf s key with | some k => k.ahead || k.isKnot | none => false

/-- Joins a carriage's queue: at the back, or behind the ones queued ahead (R198). -/
def joinQueue (key c : Nat) (s : State) : State :=
  let q := (wcar s c).queue
  let front := q.filter (goesAhead s)
  let back := q.filter (fun k => !goesAhead s k)
  modWcar c (fun w => { w with queue := if goesAhead s key then front ++ [key] ++ back else q ++ [key] }) s

/-- A skein joins the queues of the four carriages (R198). -/
def joinQueues (key : Nat) (s : State) : State := forEach (joinQueue key) allCars s

/-- Takes a skein out of every queue. -/
def leaveQueues (key : Nat) (s : State) : State :=
  forEach (fun c s => modWcar c (fun w => { w with queue := w.queue.filter (· ≠ key) }) s) allCars s

/-! ### Sealing -/

/-- The next skein number (R99, R197). -/
def takeNumber (s : State) : Nat × State :=
  (s.media.disc.nextSkein, { s with media := { s.media with disc := { s.media.disc with nextSkein := s.media.disc.nextSkein + 1 } } })

/-- Seals the skein key: fill members in the empty data indices, the next number, and a parity job for the skein
engines (R20, R197). -/
def sealSkein (key : Nat) (s : State) : State :=
  match skeinOf s key with
  | none => s
  | some k =>
    if k.number.isSome then s
    else
      let (n, s) := takeNumber s
      let s := modSkein key (fun k => { k with
        number := some n, parityQueued := true,
        members := k.members.map (fun m => if m.kind = .empty then { m with kind := .fill, data := List.replicate 4096 0 } else m) }) s
      let s := { s with media := { s.media with
        openSkein := if s.media.openSkein = some key then none else s.media.openSkein,
        openReloc := if s.media.openReloc = some key then none else s.media.openReloc } }
      { s with pool := { s.pool with sengQueue := s.pool.sengQueue ++ [.parity key] } }

/-- Seals the open data skein, if there is one with a member. -/
def sealOpen (s : State) : State :=
  match s.media.openSkein with
  | some key => sealSkein key s
  | none => s

/-! ### Exhaustion and rewriting -/

/-- The volumes and acceptance numbers of the data that a skein holds. -/
def dataOf (s : State) (k : Skein) : List (Nat × Nat) :=
  (k.members.filterMap (fun m => match m.kind with | .block id _ => heldOf s id | _ => none)).map (fun h => (h.vol, h.seq)) ++
    k.members.filterMap (fun m => match m.kind with | .hank v => some (v, k.oldest) | _ => none) ++
    k.knots.map (fun n => (n.vol, n.oldest))

/-- The lowest acceptance number of a volume's exhausted data (R213). -/
def exhaustedSeq (s : State) (v : Nat) : Option Nat :=
  ((s.media.skeins.filter (fun k => k.exhausted)).flatMap (fun k => (dataOf s k).filterMap (fun e =>
    if e.1 = v then some e.2 else none))).foldl (fun a q => match a with | none => some q | some b => some (min b q)) none

/-- Commands that wait for knots blocked by exhausted data end with WRITE_VERIFY_EXHAUSTED (R213). -/
def endExhausted (s : State) : State :=
  forEach (fun e s =>
    match e.2.waitsKnot, exhaustedSeq s e.2.cmd.volume with
    | some upTo, some q =>
      if e.2.state = .running && q ≤ upTo && (e.2.cmd.opcode = opWrite || e.2.cmd.opcode = opFlush || e.2.cmd.opcode = opClose)
      then endCmd e.1 .writeVerifyExhausted 0 s else s
    | _, _ => s) (cmds s) s

/-- Carriages of a skein's failed members, as a mask. -/
def failMask (cars : List Nat) : Nat := cars.foldl (fun a c => if a.testBit c then a else a + 2 ^ c) 0

/-- The data of a re-formed skein lies at the same data indices of the new one. -/
def moveData (old new : Nat) (s : State) : State :=
  let st : HeldStage → HeldStage := fun g => match g with
    | .formed k d => .formed (if k = old then new else k) d
    | g => g
  { s with media := { s.media with
      held := s.media.held.map (fun h => { h with stage := st h.stage })
      relocs := s.media.relocs.map (fun r => { r with moved := r.moved.map (fun e => (e.1, if e.2.1 = old then new else e.2.1, e.2.2)) })
      hank := { s.media.hank with places := s.media.hank.places.map (fun p =>
        { p with members := p.members.map (fun m => (if m.1 = old then new else m.1, m.2)) }) } } }

/-- Re-forms a skein's data members into a new skein with the next number, queued ahead (R212, R219). The failed one
stays until its placed members are settled; no knot names it. -/
def reform (key : Nat) (counted : Bool) (s : State) : State :=
  match skeinOf s key with
  | none => s
  | some k =>
    if k.failed || k.exhausted then s
    else
      let tries := if counted then k.tries + 1 else k.tries
      let s := leaveQueues key s
      if counted && getF s Fld.WRP_PASS_CFG_REWRITE_MAX < tries then
        -- R213: written REWRITE_MAX + 1 times
        let s := modSkein key (fun k => { k with exhausted := true, place := [none, none, none, none], tries := 0 }) s
        let s := bump Reg.WRP_CNT 5 s
        endExhausted (evt Fld.WRP_EVT_VERIFY_EXHAUSTED noUnit [⟨4, k.number.getD 0⟩, ⟨1, failMask k.failCars⟩] s)
      else
        let (n, s) := takeNumber s
        let fresh : Skein := { k with
          key := s.media.nextKey, number := some n, place := [none, none, none, none], firstPulse := k.firstPulse, tries := tries,
          failed := false, passed := false, ahead := true, failCars := [],
          members := k.members.map (fun m => { m with rot := 0, verify := .pending, written := false }) }
        let s := modSkein key (fun k => { k with failed := true }) s
        let s := { s with media := { s.media with nextKey := s.media.nextKey + 1, skeins := s.media.skeins ++ [fresh] } }
        joinQueues fresh.key (moveData key fresh.key s)

/-- Grants exhausted data a fresh count (R213): every exhausted skein, or those that failed on a carriage. -/
def grantFresh (pick : Skein → Bool) (s : State) : State :=
  forEach (fun k s =>
    if k.exhausted && pick k then
      let s := modSkein k.key (fun k => { k with exhausted := false, failed := false, tries := 0 }) s
      reform k.key false s
    else s) s.media.skeins s

/-! ### Stopping writes -/

/-- A pass under way: pre-read, writing, turn jump or verify. -/
def inPass (w : WriteCar) : Bool := match w.state with
  | .idle => false
  | .stopped => false
  | _ => true

/-- Abandons the pass of a carriage (R219): its begun blocks are consumed, its skeins rewritten without counting, and
the next pass takes a pre-read. -/
def abandonPass (c : Nat) (s : State) : State :=
  let w := wcar s c
  if !inPass w then s
  else
    let wrote := w.state ≠ .preRead
    let cut := w.state = .writing
    -- how far the pass had come: a free value from 1 to its blocks
    let used := if cut then 1 + (Config.freeWord s.free).toNat % max 1 w.passBlocks else w.passBlocks
    let s := if cut then useFree s else s
    let s := modWcar c (fun w => { w with
      state := .stopped, lastEnd := none, preRead := none, stopAtSlotEnd := false,
      frontier := if wrote then max w.frontier (w.passStart + used) else w.frontier, passSkeins := [] }) s
    let s := setGate c false s
    if wrote then
      let s := forEach (fun k s => reform k false s) w.passSkeins s
      evt Fld.WRP_EVT_WRITE_STOP (uCar c) [⟨1, c⟩] s
    else s

/-- Stops a carriage's writing at once. -/
def stopWriteNow (c : Nat) (s : State) : State := abandonPass c (setGate c false s)

/-- Asks a carriage to stop at the end of the slot being written. -/
def stopAtSlot (c : Nat) (s : State) : State :=
  modWcar c (fun w => if w.state = .writing then { w with stopAtSlotEnd := true } else w) s

/-- Stops all carriages at once. -/
def stopAllNow (s : State) : State := forEach stopWriteNow allCars s

end Sys2Proof.Machine
end

