-- ==== Sys2Proof/Machine/Cams.lean ====
section
/-! DEFINITION. The cam unit and the jumps that its layer-jump cams shape (R323, R324, R326 to R335). -/

namespace Sys2Proof.Machine

/-- The running image's record of a cam table. -/
def camRec (s : State) (t : Nat) : Option CamRec :=
  match s.img.running with
  | some i => i.cams.find? (fun c => c.table == t)
  | none => none

/-- A cam's state. -/
def camSt (s : State) (t : Nat) : CamSt := s.mot.cams.getD t {}

/-- Changes a cam's state. -/
def modCam (t : Nat) (f : CamSt → CamSt) (s : State) : State :=
  { s with mot := { s.mot with cams := modAt t f s.mot.cams } }

/-- Sets a CAM event of a table (R335). -/
def camEvt (f : Fld) (t : Nat) (s : State) : State := evt f noUnit [⟨1, t⟩] s

/-- The carriage whose layer-jump cam a record is (R329). -/
def layerJumpCar (s : State) (r : CamRec) : Option Nat :=
  if r.master = 9 && r.slaveKind = 1 then
    match recOf s r.slaveIndex with
    | some l => if l.kind = 1 then some l.carriage else none
    | none => none
  else none

/-- The layer-jump cam of a carriage. -/
def layerJumpCam (s : State) (c : Nat) : Option CamRec :=
  match s.img.running with
  | some i => i.cams.find? (fun r => layerJumpCar s r == some c)
  | none => none

/-- Values that never decrease. -/
def neverDecrease : List Int → Bool
  | [] => true
  | [_] => true
  | a :: b :: l => decide (a ≤ b) && neverDecrease (b :: l)

/-- The shape rule of R329: the values begin at 0, end at 2^24 and never decrease. -/
def shapeOk (vals : List Int) : Bool :=
  nth vals 0 == 0 && vals.getLast? == some one24 && neverDecrease vals

/-- Interpolation of R328 at point index num / den. -/
def camAt (vals : List Int) (points : Nat) (num den : Nat) : Int :=
  let i := num / den
  let f := (num % den) * 0x1000000 / den
  let a := nth vals i
  let b := nth vals ((i + 1) % points)
  a + roundDiv ((b - a) * f) 0x1000000

/-- The output of a cam at master value x (R328). -/
def camEval (r : CamRec) (vals : List Int) (x : Int) : Int :=
  let k := x - r.xStart
  if r.wrap then camAt vals r.points (k % ((r.points * r.xStep : Nat) : Int)).toNat r.xStep
  else if k ≤ 0 then nth vals 0
  else if (((r.points - 1) * r.xStep : Nat) : Int) ≤ k then nth vals (r.points - 1)
  else camAt vals r.points k.toNat r.xStep

/-- The shape N(age / dur) of a carriage's jumps in units of 2^−24: its layer-jump cam, or the default polynomial
(R329). -/
def jumpShape (s : State) (c age dur : Nat) : Int :=
  if dur ≤ age then one24
  else
    let vals := match layerJumpCam s c with | some r => (camSt s r.table).active | none => []
    match layerJumpCam s c with
    | some r =>
      if shapeOk vals then camAt vals r.points ((r.points - 1) * age) dur
      else roundDiv (one24 * (10 * age ^ 3 * dur ^ 2 - 15 * age ^ 4 * dur + 6 * age ^ 5 : Int)) (dur ^ 5)
    | none => roundDiv (one24 * (10 * age ^ 3 * dur ^ 2 - 15 * age ^ 4 * dur + 6 * age ^ 5 : Int)) (dur ^ 5)

/-- Whether a carriage has a valid layer-jump cam. -/
def hasShape (s : State) (c : Nat) : Bool :=
  match layerJumpCam s c with | some r => shapeOk (camSt s r.table).active | none => false

/-- D1 in µs (R329). -/
def jumpD1 (s : State) (c : Nat) : Nat :=
  match layerJumpCam s c with
  | some r => if hasShape s c then (r.points - 1) * r.xStep else 10 * getF s (Fld.CRG_JUMP_CFG_D1_DEF.at (0x200 * c))
  | none => 10 * getF s (Fld.CRG_JUMP_CFG_D1_DEF.at (0x200 * c))

/-- The duration of a jump over n layers in base periods: D1 × √n rounded to 10 µs (R323). -/
def jumpDur (s : State) (c n : Nat) : Nat := ((sqrtN (4 * (jumpD1 s c) ^ 2 * n)) / 10 + 1) / 2 * 4

/-! ### Masters -/

/-- Whether a ply has wedge lock: one of its strands found the last wedge. -/
def plyLock (s : State) (c : Nat) : Bool :=
  ((upFrom (8 * c) 8).any (fun g => (s.chn.strands.getD g {}).wedgeLock))

/-- SPINDLE_ANGLE, Q8.24 (R326): from the first ply with wedge lock, or from the last wedge 0 at the spindle speed. -/
def spindleAngle (s : State) : Int :=
  match allCars.find? (plyLock s) with
  | some c =>
    let m := carOfS s c
    let el := (s.pwr.time - m.wedgeAt) * 16
    let f : Nat := if m.ivl = 0 then 0 else min (0x1000000 - 1) (el * 0x1000000 / (m.ivl * 15))
    (((m.wedge * 0x1000000 + f) / 96 : Nat) : Int)
  | none =>
    let n := (max 0 s.mot.spn.nHat).toNat
    (((s.pwr.time - s.mot.wedge0) * n / 60000000000) % 0x1000000 : Nat)

/-- A master's value and validity (Table 10-4). -/
def masterOf (s : State) (r : CamRec) : Int × Bool :=
  if r.master ≤ 3 then (satQ (sledMm s r.master), (carOfS s r.master).homed)
  else if r.master ≤ 7 then ((carOfS s (r.master - 4)).jumpPhase, true)
  else if r.master = 8 then (spindleAngle s, ust s uSpindle = .ready)
  else (min 0x7FFFFFFF (((camSt s r.table).since * 5 / 2 : Nat) : Int), true)

/-! ### Phase 0 -/

/-- Engagement, TIME_RESET and evaluation of one cam at phase 0 (R326 to R330). -/
def camStep (r : CamRec) (s : State) : State :=
  let t := r.table
  let x := camSt s t
  let s := match x.engage with
    | some true => if x.engaged then modCam t (fun x => { x with engage := none }) s
                   else modCam t (fun x => { x with engage := none, engaged := true, since := 0 }) s
    | some false => modCam t (fun x => { x with engage := none, engaged := false, out := 0 }) s
    | none => s
  let s := if (camSt s t).timeReset then modCam t (fun x => { x with timeReset := false, since := 0 }) s else s
  if !(camSt s t).engaged then s
  else
    let m := masterOf s r
    let s := modCam t (fun x => { x with since := x.since + 1, master := m.1, out := if m.2 then camEval r x.active m.1 else 0 }) s
    if m.2 then s else camEvt Fld.CAM_EVT_MASTER_INVALID t s

/-- Whether a commit may apply: a layer-jump cam waits until no jump of its carriage runs (R331). -/
def commitFree (s : State) (t : Nat) : Bool :=
  match camRec s t with
  | some r => (match layerJumpCar s r with | some c => (carOfS s c).jump.isNone | none => true)
  | none => true

/-- The shadow values of a table over its points. -/
def shadowVals (s : State) (t n : Nat) : List Int := (List.range n).map (fun k => Tbl.get 0 k (camSt s t).shadow)

/-- The pending commit applied at phase 0 (R331). -/
def commitStep (s : State) : State :=
  match s.mot.commit with
  | none => s
  | some t =>
    if commitFree s t then
      let n := match camRec s t with | some r => r.points | none => 0
      let v := shadowVals s t n
      camEvt Fld.CAM_EVT_COMMIT_DONE t (modCam t (fun x => { x with active := v }) { s with mot := { s.mot with commit := none } })
    else s

/-- One base period of a carriage's jump (R323, R324). -/
def jumpStep (c : Nat) (s : State) : State :=
  match (carOfS s c).jump with
  | none => s
  | some j =>
    let age := j.age + 1
    let n := jumpShape s c age j.dur
    modCar c (fun m =>
      if j.turn then { m with jump := some { j with age := age }, nTurn := n }
      else { m with jump := some { j with age := age, settling := decide (j.dur ≤ age) }, jumpPhase := j.from_ + mulQ (j.tgt - j.from_) n }) s

/-- CAM_EVALUATE and what goes with it at phase 0: jumps, commit, engagement and evaluation. -/
def camPhase (s : State) : State :=
  let s := forEach jumpStep allCars s
  let s := commitStep s
  match s.img.running with
  | some i => forEach camStep i.cams s
  | none => s

/-- The sum of the engaged cam offsets of a slot (R264, R327). -/
def camOffset (s : State) (k : Nat) : Int :=
  match s.img.running with
  | some i => sumI ((i.cams.filter (fun r => r.slaveKind == 1 && r.slaveIndex == k && (camSt s r.table).engaged)).map
      (fun r => (camSt s r.table).out))
  | none => 0

/-- The sum of the engaged sled-target cams of a carriage in mm, Q8.24 (R313, R327). -/
def sledOffset (s : State) (c : Nat) : Int :=
  match s.img.running with
  | some i => sumI ((i.cams.filter (fun r => r.slaveKind == 2 && r.slaveIndex == c && (camSt s r.table).engaged)).map
      (fun r => (camSt s r.table).out))
  | none => 0

/-! ### Commands of the CAM registers -/

/-- A write of CAM_COMMIT (R331). -/
def camCommitEff (v : Word) (s : State) : State :=
  if !v.getLsbD 8 then s
  else
    let t := bits v.toNat 0 6
    if s.mot.commit.isSome then camEvt Fld.CAM_EVT_BUSY t s
    else match camRec s t with
      | none => { s with mot := { s.mot with commit := some t } }
      | some r =>
        if (layerJumpCar s r).isSome && !shapeOk (shadowVals s t r.points) then camEvt Fld.CAM_EVT_SHAPE_REFUSED t s
        else
          let s := { s with mot := { s.mot with commit := some t } }
          if commitFree s t then s else camEvt Fld.CAM_EVT_COMMIT_DEFERRED t s

/-- A write of CAM_CTRL[t].ENGAGE (R330): a layer-jump cam, or a cam that no image binds, is refused. -/
def camEngageEff (t : Nat) (on : Bool) (s : State) : State :=
  if on then
    match camRec s t with
    | none => camEvt Fld.CAM_EVT_ENGAGE_REFUSED t s
    | some r => if (layerJumpCar s r).isSome then camEvt Fld.CAM_EVT_ENGAGE_REFUSED t s
                else modCam t (fun x => { x with engage := some true }) s
  else modCam t (fun x => { x with engage := some false }) s

/-- A write of CAM_CTRL[t].TIME_RESET (R334). -/
def camTimeResetEff (t : Nat) (s : State) : State := modCam t (fun x => { x with timeReset := true }) s

/-- Steps CAM_PT_SEL.POINT after an access of CAM_PT_DATA (Table 10-7). -/
def camPtStep (s : State) : State :=
  if flag s Fld.CAM_PT_SEL_AUTO_INC then setF Fld.CAM_PT_SEL_POINT ((getF s Fld.CAM_PT_SEL_POINT + 1) % 1024) s else s

/-- A write of CAM_PT_DATA: the shadow value at TABLE and POINT. -/
def camPtWrite (v : Word) (s : State) : State :=
  let p := getF s Fld.CAM_PT_SEL_POINT
  camPtStep (modCam (getF s Fld.CAM_PT_SEL_TABLE) (fun x => { x with shadow := Tbl.put 0 p (signed 32 v.toNat) x.shadow }) s)

/-- A read of CAM_PT_DATA: its value before the step. -/
def camPtValue (s : State) : Word :=
  BitVec.ofNat 32 (unsigned 32 (Tbl.get 0 (getF s Fld.CAM_PT_SEL_POINT) (camSt s (getF s Fld.CAM_PT_SEL_TABLE)).shadow))

end Sys2Proof.Machine
end

