-- ==== Sys2Proof/Machine/Acquire.lean ====
section
/-! DEFINITION. When carriages and strands leave STARTING, and what a carriage's loss of its loops does to its unit
(R273, R274, R500). -/

namespace Sys2Proof.Machine

/-- The six loops of a carriage in RUN or HOLD (Table 17-2). -/
def loopsUp (s : State) (c : Nat) : Bool := [1, 2, 3, 4, 5, 6].all (fun k => kindActive s k c)

/-- The carriage condition for leaving STARTING: its loops, and motion state FOLLOW. -/
def carUp (s : State) (c : Nat) : Bool := loopsUp s c && (carOfS s c).st = .follow

/-- Whether a strand runs its stages 1 to 8 (R119, CHN_STATUS.READING): its ply focused and tracking, the strand
serving. -/
def reading (s : State) (g : Nat) : Bool :=
  let c := g / 8
  let m := carOfS s c
  kindActive s 1 c && kindActive s 2 c && (m.st = .follow || m.st = .fine) && serving s (uStrand g)

/-- A strand's channel. -/
def strandOf (s : State) (g : Nat) : StrandSt := s.chn.strands.getD g {}

/-- Changes a strand's channel. -/
def modStrand (g : Nat) (f : StrandSt → StrandSt) (s : State) : State :=
  { s with chn := { s.chn with strands := modAt g f s.chn.strands } }

/-- Strands of a carriage that leave STARTING with an accepted position (Table 17-2). -/
def strandsUp (s : State) (c : Nat) : List Nat :=
  (strandsOf s c).filter (fun g => ust s (uStrand g) = .starting && (strandOf s g).posValid)

/-- A condition of the DEGRADED column for a carriage, given the strands that serve with it. -/
def carDegraded (s : State) (c : Nat) (also : List Nat) : Bool :=
  let w := wcar s c
  (strandsOf s c).any (fun g => !(UState.serves (ust s (uStrand g)) || also.contains g)) ||
    (strandsOf s c).any (fun g => bit w.writeBad (g - 8 * c)) || !w.drvReady

/-- A carriage and the strands that leave STARTING with it, as one change group (R500). -/
def carReadyCheck (c : Nat) (s : State) : State :=
  if ust s (uCar c) = .starting && carUp s c then
    let gs := strandsUp s c
    let tgt : UState := if carDegraded s c gs then .degraded else .ready
    changeGroup (gs.map (fun g => (uStrand g, UState.ready)) ++ [(uCar c, tgt)]) .request .internal 0 s
  else s

/-- A carriage that serves moves between READY and DEGRADED as its strands and its driver do (Table 17-2). -/
def carGradeCheck (why : Reason) (c : Nat) (s : State) : State :=
  let st := ust s (uCar c)
  if st = .ready && carDegraded s c [] then change (uCar c) .degraded why s
  else if st = .degraded && !carDegraded s c [] then change (uCar c) .ready why s
  else s

/-- A strand whose carriage serves leaves STARTING once a wedge gave it an accepted position (Table 17-2). -/
def strandReadyCheck (g : Nat) (s : State) : State :=
  let c := g / 8
  if ust s (uStrand g) = .starting && UState.serves (ust s (uCar c)) && (strandOf s g).posValid then
    carGradeCheck .sensor c (change (uStrand g) .ready .sensor s)
  else s

/-- Enables every loop of a carriage in the order focus, tilt, tracking, twist, aberration, sled (R274). -/
def acquireLoops (c : Nat) (s : State) : State :=
  forEach (fun kind s => match slotOfKind s kind c with | some k => askEnable k true s | none => s) [1, 3, 2, 4, 5, 6] s

/-- Homing starts (R317): outward first if the switch is active, inward otherwise; the sled gates are driven. -/
def startHoming (c : Nat) (s : State) : State :=
  let m := carOfS s c
  let s := bump (Reg.CRG_CNT + 0x200 * c) 4 s
  let s := { s with pins := { s.pins with sledGates := modAt c (fun _ => true) s.pins.sledGates } }
  modCar c (fun x => { x with
    st := .homing, homeStep := if m.home then 1 else 3, homeFrom := m.x, gates := true, homed := false, reversing := false }) s

/-- Acquisition of a carriage: its laser is enabled unless the interlock holds, an engine in UNHOMED homes, and its loops
are enabled. -/
def acquireCar (c : Nat) (s : State) : State :=
  let s := if s.pwr.ilk then s else setLen c true s
  let s := if (carOfS s c).st = .unhomed && isOwner s && ust s (uCar c) ≠ .faulted then startHoming c s else s
  acquireLoops c s

/-- IDLE and FOLLOW as the tracking loop enters and leaves RUN and HOLD (Table 10-3). -/
def followCheck (c : Nat) (s : State) : State :=
  let m := carOfS s c
  let on := kindActive s 2 c
  if m.st = .idle && on && m.moveTarget.isNone then modCar c (fun m => { m with st := .follow }) s
  else if m.st = .follow && !on then modCar c (fun m => { m with st := .idle, tgt := m.x, moveTarget := none }) s
  else s

/-- Response to a carriage loop LOST (R274): the write gate goes, the carriage and its strands move to STARTING, and
the policy complex re-acquires. -/
def carriageLost (c : Nat) (s : State) : State :=
  let s := stopWriteNow c s
  let st := ust s (uCar c)
  let s := if UState.serves st then
      let s := change (uCar c) .starting .loop s
      forEach (fun g s => if UState.serves (ust s (uStrand g)) then change (uStrand g) .starting .loop s else s) (strandsOf s c) s
    else s
  let s := modCar c (fun m => { m with lostAt := some s.pwr.time }) s
  if ust s (uCar c) = .starting then acquireCar c s else s

/-- Every loop of a carriage disabled, its DACs written 0, its laser off (R274). -/
def carriageDark (c : Nat) (s : State) : State :=
  let s := disableSlots (slotsOfCar s c) s
  let s := forEach (fun d s => modDac (5 * c + d) (fun x => { x with old := x.code, tgt := 0, interp := false, m := 0 }) s)
    [0, 1, 2, 3, 4] s
  setLen c false (setGate c false s)

/-- Response to a carriage loop FAULT (R274). -/
def carriageFault (c : Nat) (why : Reason) (s : State) : State :=
  carriageDark c (change (uCar c) .faulted why (stopWriteNow c s))

end Sys2Proof.Machine
end

