-- ==== Sys2Proof/Machine/Loops.lean ====
section
/-! DEFINITION. The loop engine at work (R246 to R280): phase 0 of a base period with its latches, holds, swaps,
enables, set-points and computations; phase 380; phase 400; conversions, DAC updates and trace edges. -/

namespace Sys2Proof.Machine

/-! ### The computation of R257 -/

/-- The active coefficients of a slot. -/
def activeBank (x : LoopSlot) : List Int := if x.bank then x.bank1 else x.bank0
def shadowBank (x : LoopSlot) : List Int := if x.bank then x.bank0 else x.bank1

/-- A sum of products of Q4.28 coefficients and Q8.24 values, rounded to Q8.24 (R256). -/
def dot (l : List (Int × Int)) : Int := roundDiv (sumI (l.map (fun e => e.1 * e.2))) 0x10000000

/-- The result of one computation: states, outputs, e[0], the clamped outputs and the saturations. -/
structure LoopResult where
  xh : List Int
  out : List Int
  err0 : Int
  sat : Nat
  satCount : Nat
  deriving DecidableEq, Repr, Inhabited

/-- R257, with the measurements y, the set-point r, the held measurements, the clamps and INTEG_MASK. -/
def loopCompute (l : LoopRec) (x : LoopSlot) (y : List Int) (r : Int) (held : Nat) (outMin outMax : Int) (integ : Nat) :
    LoopResult :=
  let co := activeBank x
  let n := l.nStates
  let m := l.nMeas
  let p := l.nOut
  let e0 := satN (nth y 0 - r)
  let e (j : Nat) : Int := if j = 0 then e0.1 else nth y j
  let innov := (List.range m).map (fun j =>
    let v := satN (e j - dot ((List.range n).map (fun i => (nth co (80 + 8 * j + i), nth x.xh i))))
    (if bit held j then 0 else v.1, v.2))
  let u := (List.range p).map (fun o => satN (-(dot ((List.range n).map (fun i => (nth co (112 + 8 * o + i), nth x.xh i))))))
  let sums := (List.range p).map (fun o => satN ((u.getD o (0, 0)).1 + nth x.u0 o))
  let outs := sums.map (fun v => clampI outMin outMax v.1)
  let sat := (List.range p).foldl (fun a o => if nth outs o = (sums.getD o (0, 0)).1 then a else a + 2 ^ o) 0
  let ua := (List.range p).map (fun o => satN (nth outs o - nth x.u0 o))
  let xn := (List.range n).map (fun i => satN (dot (
    (List.range n).map (fun k => (nth co (8 * i + k), nth x.xh k)) ++
    (List.range p).map (fun o => (nth co (64 + 2 * i + o), (ua.getD o (0, 0)).1)) ++
    (List.range m).map (fun j => (nth co (128 + 4 * i + j), (innov.getD j (0, 0)).1)))))
  { xh := (List.range 8).map (fun i => if n ≤ i then 0
      else if bit integ i && sat ≠ 0 then nth x.xh i else (xn.getD i (0, 0)).1),
    out := (List.range 2).map (fun o => if o < p then nth outs o else nth x.out o),
    err0 := e0.1, sat := sat,
    satCount := e0.2 + sumN (innov.map (·.2)) + sumN (u.map (·.2)) + sumN (sums.map (·.2)) + sumN (ua.map (·.2)) +
      sumN (xn.map (·.2)) }

/-! ### Phase 0 -/

/-- The carriage's defect condition (R269): enough of its serving strands assert their defect signal. -/
def defectHolds (s : State) (c : Nat) : Bool :=
  decide (getF s (Fld.LPE_CAR_CFG_DEFHOLD_MIN.at (4 * c)) ≤
    ((strandsOf s c).filter (fun g => UState.serves (ust s (uStrand g)) && (strandOf s g).defect && reading s g)).length)

/-- Whether measurement j is held for the first or second reason of R269. -/
def photoHeld (s : State) (l : LoopRec) (j : Nat) : Bool :=
  let code := l.measSrc.getD j 0
  isPhoto code && (defectHolds s l.carriage || !(sourceOf s l code).2)

/-- The MASK bits in force: those of LPE_CTRL and those that the motion engine holds (R269, R322). -/
def maskOfSlot (s : State) (k : Nat) : Nat := getF s (Fld.LPE_CTRL_MASK.at (0x80 * k)) ||| (lslot s k).engMask

/-- The held measurements of a computation (R269). -/
def heldMask (s : State) (l : LoopRec) : Nat :=
  let x := lslot s l.slot
  (List.range l.nMeas).foldl (fun a j =>
    let code := l.measSrc.getD j 0
    if photoHeld s l j || (isChevron code && !(x.fresh.getD j false)) || bit (maskOfSlot s l.slot) j then a + 2 ^ j else a) 0

/-- Defect holds of one slot in every base period, due or not (R270): RUN and HOLD follow the hold. -/
def holdStep (l : LoopRec) (s : State) : State :=
  let k := l.slot
  let x := lslot s k
  if !slotStActive x.st then s
  else if (List.range l.nMeas).any (photoHeld s l) then
    if x.holding then modSlot k (fun x => { x with holdLen := x.holdLen + 1 }) s
    else lpeEvt Fld.LPE_EVT_DEFECT_HOLD k (bump (lreg Reg.LPE_CNT k) 1
      (modSlot k (fun x => { x with holding := true, holdLen := 0, st := .hold }) s))
  else modSlot k (fun x => { x with holding := false, holdLen := 0, st := if x.st = .hold then .run else x.st }) s

/-- A chevron value's age grows by one base period; stale after 3 wedge intervals (R271). The interval I is in CLK_ADC
cycles of 15/16 ns. -/
def ageStep (k : Nat) (s : State) : State := modSlot k (fun x => { x with age := x.age.map (· + 1) }) s

/-- Whether an unmasked chevron measurement of a slot is stale. -/
def isStale (s : State) (l : LoopRec) : Bool :=
  let x := lslot s l.slot
  let ivl := (carOfS s l.carriage).ivl
  (List.range l.nMeas).any (fun j => isChevron (l.measSrc.getD j 0) && !bit (maskOfSlot s l.slot) j && ivl ≠ 0 &&
    decide (45 * ivl ≤ 40000 * (x.age.getD j 0)))

/-- The set-point target (R264, R267). -/
def targetOf (s : State) (l : LoopRec) : Int :=
  let k := l.slot
  if l.priv && flag s (Fld.LPE_CTRL_FOLLOW.at (0x80 * k)) then
    let q := (s.mot.traces.getD l.traceSrc {}).q
    satQ (satQ (roundDiv (regInt s (lreg Reg.LPE_TRACE_GAIN k) * q) 0x1000000) + regInt s (lreg Reg.LPE_TRACE_OFS k))
  else satQ (regInt s (lreg Reg.LPE_SP_TARGET k) + camOffset s k)

/-- The slew limit of a slot; the speed loop's is capped to 500 rpm/s (R266). -/
def slewOf (s : State) (l : LoopRec) : Int :=
  let v := regInt s (lreg Reg.LPE_SLEW l.slot)
  if l.kind = 0x11 then min v (((0x1000000 * 5 * l.periodDiv * 25) / 100000000 : Nat) : Int) else v

/-- The set-point target and ramp step of a due base period (R264). -/
def rampStep (l : LoopRec) (s : State) : State :=
  let t := targetOf s l
  let w := slewOf s l
  modSlot l.slot (fun x => { x with t := t, r := x.r + clampI (-w) w (t - x.r) }) s

/-- Bank swap at a due phase 0 (R277). -/
def swapStep (k : Nat) (s : State) : State :=
  if (lslot s k).swap then lpeEvt Fld.LPE_EVT_SWAP_DONE k (modSlot k (fun x => { x with swap := false, bank := !x.bank }) s) else s

/-- Disable, then enable, as written since the previous due phase 0 (R261, Table 08-6). -/
def enableStep (l : LoopRec) (s : State) : State :=
  match (lslot s l.slot).enable with
  | some false => disableSlot l.slot (modSlot l.slot (fun x => { x with enable := none }) s)
  | some true => enableNow l (nth (lslot s l.slot).meas 0) s
  | none => s

/-- Adds one computation to a slot's RMS over 4,096 (R272). -/
def rmsStep (k : Nat) (e0 : Int) (s : State) : State :=
  let v := (roundDiv (e0.natAbs * (getReg s (lreg Reg.LPE_NM_SCALE k)).toNat * 10 : Nat) (0x10000000000)).toNat
  modSlot k (fun x =>
    if 4095 ≤ x.rmsCount then { x with rmsCount := 0, rmsSum := 0, rms := min 65535 (sqrtN ((x.rmsSum + v * v) / 4096)) }
    else { x with rmsCount := x.rmsCount + 1, rmsSum := x.rmsSum + v * v }) s

/-- abs(e[0]) × NM_SCALE in nm × 2^40, and its limit test (R272). -/
def overLimit (s : State) (k : Nat) (e0 : Int) (lim : Nat) : Bool :=
  decide (lim * 0x10000000000 < e0.natAbs * (getReg s (lreg Reg.LPE_NM_SCALE k)).toNat)

/-- OFFTRACK_STOP (Table 06-5): a tracking or focus error above its limit during a pass. -/
def offtrackStep (l : LoopRec) (e0 : Int) (s : State) : State :=
  let c := l.carriage
  let lim := if l.kind = 2 then some (getF s Fld.WRP_PASS_CFG_OFFTRACK_LIM)
    else if l.kind = 1 then some (getF s Fld.WRP_PASS_CFG_DEFOCUS_LIM) else none
  match lim with
  | some n =>
    if (wcar s c).state = .writing && overLimit s l.slot e0 n then
      let s := setGate c false s
      let s := bump Reg.WRP_CNT 9 s
      abandonPass c (evt Fld.WRP_EVT_OFFTRACK_STOP (uCar c) [⟨1, c⟩] s)
    else s
  | none => s

/-- The lock-limit run of R271. -/
def lockStep (k : Nat) (e0 : Int) (masked : Bool) (s : State) : State :=
  let lim := regInt s (lreg Reg.LPE_LOCK_LIM k)
  let x := lslot s k
  let run := if lim ≠ 0 && !masked && lim < e0.natAbs then x.lockRun + 1 else 0
  let cnt := getF s (Fld.LPE_LOCK_CFG_LOCK_CNT.at (0x80 * k))
  modSlot k (fun x => { x with lockRun := min 255 run, lost := x.lost || (lim ≠ 0 && decide (cnt ≤ run) && decide (0 < run)) }) s

/-- How a due computation of a slot ends: finished by phase 380, late, or spoilt by parity (R259, R275). -/
inductive Finish where
  | done | late | parity
  deriving DecidableEq, Repr

/-- The computation of a due, active slot (LOOP_COMPUTE). -/
def computeStep (l : LoopRec) (f : Finish) (mirrorBad : Bool) (s : State) : State :=
  let k := l.slot
  let x := lslot s k
  match f with
  | .late => modSlot k (fun x => { x with late := true, next := none }) s
  | .parity =>
    -- LOOP_PARITY: ended as an overrun; coefficients reloaded, xh 0, u0 captured again; a bad mirror faults the loop
    let s := lpeEvt Fld.LPE_EVT_PARITY k s
    modSlot k (fun x => { x with
      late := true, next := none, xh := List.replicate 8 0, u0 := [destValue s l 0, destValue s l 1], faulty := mirrorBad }) s
  | .done =>
    let held := heldMask s l
    let y := x.meas
    let rs := loopCompute l x y x.r held (regInt s (lreg Reg.LPE_OUT_MIN k)) (regInt s (lreg Reg.LPE_OUT_MAX k))
      (getF s (Fld.LPE_LOCK_CFG_INTEG_MASK.at (0x80 * k)))
    let s := modSlot k (fun x => { x with
      xh := rs.xh, next := some rs.out, err0 := rs.err0, sat := rs.sat, held := held, ovrRun := 0, late := false,
      fresh := [false, false, false, false] }) s
    let s := bumpBy (lreg Reg.LPE_CNT k + 8) rs.satCount s
    let s := if rs.sat ≠ 0 then lpeEvt Fld.LPE_EVT_SAT k s else s
    let s := lockStep k rs.err0 (bit (maskOfSlot s k) 0) (rmsStep k rs.err0 s)
    let s := if isStale s l then modSlot k (fun x => { x with lost := true }) s else s
    offtrackStep l rs.err0 s

/-- One due slot at phase 0, in the order of R261. -/
def dueStep (l : LoopRec) (f : Finish) (mirrorBad : Bool) (s : State) : State :=
  let k := l.slot
  let s := modSlot k (fun x => { x with meas := (List.range 4).map (fun j =>
    if j < l.nMeas then (sourceOf s l (l.measSrc.getD j 0)).1 else 0) }) s
  let s := if slotActive s k && (lslot s k).holding && decide (16 ≤ (lslot s k).holdLen)
    then modSlot k (fun x => { x with lost := true }) s else s
  let s := rampStep l (enableStep l (swapStep k s))
  if slotActive s k && !(lslot s k).lost then computeStep l f mirrorBad s else s

/-- Whether a loop is due in a base period (R247). -/
def isDue (n : Nat) (l : LoopRec) : Bool := l.periodDiv ≠ 0 && n % l.periodDiv == 0

/-- The loops of a core in ascending slot order. -/
def coreLoops (s : State) (core : Nat) : List LoopRec :=
  match s.img.running with
  | some i => (List.range 8).filterMap (fun j => i.loops.find? (fun l => l.slot == 8 * core + j))
  | none => []

/-- The due loops of a core with the cycle each computation would end at: slots that do not compute cost nothing. -/
def coreRun (forced : Option Nat) (parity : List (Nat × Bool)) : Nat → Bool → List LoopRec → State → State
  | _, _, [], s => s
  | cyc, full, l :: ls, s =>
    let x := lslot s l.slot
    let runs := slotStActive x.st || x.enable = some true
    let fin := if runs then cyc + loopCost l else cyc
    let late := full || decide (380 < fin)
    let par := parity.find? (fun e => e.1 == l.slot)
    let f : Finish := if late && runs then .late else if forced = some l.slot then .late
      else if par.isSome then .parity else .done
    let s := dueStep l f (match par with | some e => e.2 | none => false) s
    coreRun forced parity fin (full || (late && runs)) ls s

/-- The trace quantities latched at phase 0 (R268): volts are the conversions of the analog inputs, Q8.24. -/
def traceLatch (volts : List Int) (s : State) : State :=
  match s.img.running with
  | none => s
  | some i =>
    { s with mot := { s.mot with traces := (List.range 4).map (fun n =>
        let t := s.mot.traces.getD n {}
        let fn := match i.bind.pins.find? (fun p => p.group == n) with | some p => p.function | none => 0
        if fn = 1 then { t with q := satQ (nth volts n) }
        else if fn = 2 then { t with q := if t.interval = 0 then 0 else satQ (roundDiv (100000 * one24) t.interval) }
        else if fn = 3 then { t with q := satQ (t.steps * 256) }
        else { t with q := 0 }) } }

/-- The whole of phase 0 of a base period (BASE_PERIOD). -/
def basePeriodEff (volts : List Int) (parity : List (Nat × Bool)) (s : State) : State :=
  if stage s < 6 || halted s then s
  else
    let n := if s.mot.started then s.mot.period + 1 else 0
    let s := { s with mot := { s.mot with started := true, period := n } }
    let s := traceLatch volts s
    let s := camPhase s
    let ls := match s.img.running with | some i => i.loops | none => []
    let s := forEach (fun l s => ageStep l.slot (holdStep l s)) ls s
    let due := fun (core : Nat) (s : State) => (coreLoops s core).filter (isDue n)
    let slot := getF s Fld.LPE_TEST_SLOT
    let forced := if flag s Fld.LPE_TEST_FORCE_OVR && ls.any (fun l => l.slot == slot && isDue n l && slotStActive (lslot s slot).st)
      then some slot else none
    let s := if forced.isSome then setF Fld.LPE_TEST_FORCE_OVR 0 s else s
    let s := forEach (fun core s => coreRun forced parity 0 false (due core s) s) [0, 1, 2, 3] s
    forEach (fun c s => carReadyCheck c (followCheck c s)) (boundCars s) s

/-! ### Later phases -/

/-- A due loop not finished by phase 380 (R259). -/
def overrunEff (k : Nat) (s : State) : State :=
  if (lslot s k).late then
    let s := modSlot k (fun x => { x with late := false, next := none, ovrRun := min 8 (x.ovrRun + 1) }) s
    lpeEvt Fld.LPE_EVT_OVERRUN k (bump (lreg Reg.LPE_CNT k) 0 s)
  else s

/-- Phase 400: every finished due loop writes its outputs, and a parked slot writes 0 (R248, Table 08-6). -/
def outputWriteEff (s : State) : State :=
  let ls := match s.img.running with | some i => i.loops | none => []
  forEach (fun l s =>
    let x := lslot s l.slot
    let s := if x.park && x.st = .disabled then
        forEach (fun o s => if l.outDst.getD o 0 = 8 then s else writeDest l o 0 s) (List.range l.nOut) (modSlot l.slot (fun x => { x with park := false }) s)
      else modSlot l.slot (fun x => { x with park := false }) s
    match x.next with
    | some outs => forEach (fun o s => writeDest l o (nth outs o) s) (List.range l.nOut) (modSlot l.slot (fun x => { x with next := none }) s)
    | none => s) ls s

/-- A DAC update (R254): with INTERP update m carries old + (new − old)(m + 1)/8, rounded toward old. -/
def dacStep (d : Dac) : Dac :=
  if 8 ≤ d.m then d
  else if d.interp then { d with code := d.old + truncDiv ((d.tgt - d.old) * (d.m + 1)) 8, m := d.m + 1 }
  else { d with code := d.tgt, m := 8 }

/-- A servo conversion slot m (R249): slots 1 to 3 and 5 to 7 convert input 3a + slot − 1 of each ADC, slots 0 and 4
the mid-scale reference. codes holds one result per ADC. -/
def conversionEff (m : Nat) (codes : List Nat) (s : State) : State :=
  let m := m % 8
  if m % 4 = 0 then
    forEach (fun a s =>
      let code : Int := (codes.getD a 0 : Nat)
      if 64 < (code - 32768).natAbs then evt ⟨Reg.LPE_GEVT, 2 + a, 2 + a⟩ noUnit [⟨1, a⟩] s else s) (List.range 16) s
  else
    let input (a : Nat) : Nat := 12 * (a / 4) + 3 * (a % 4) + (m % 4 - 1)
    let put (l : List Nat) : List Nat := (List.range 16).foldl (fun l a => modAt (input a) (fun _ => codes.getD a 0 % 65536) l) l
    if m < 4 then { s with mot := { s.mot with pd1 := put s.mot.pd1 } } else { s with mot := { s.mot with pd2 := put s.mot.pd2 } }

/-- An active edge on TRACE_IN[n] (R268): cycles since the last one, and the level of the direction input. -/
def traceEdgeEff (n cycles : Nat) (dirHigh : Bool) (s : State) : State :=
  { s with mot := { s.mot with traces := modAt n (fun t =>
      { t with interval := if cycles ≤ 65536 then cycles else 0, steps := if dirHigh then t.steps - 1 else t.steps + 1 }) s.mot.traces } }

/-- No active edge within 655.36 µs (R268). -/
def traceLostEff (n : Nat) (s : State) : State :=
  let s := { s with mot := { s.mot with traces := modAt n (fun t => { t with interval := 0, q := 0 }) s.mot.traces } }
  match s.img.running with
  | none => s
  | some i => forEach (fun l s =>
      if l.priv && l.traceSrc = n && flag s (Fld.LPE_CTRL_FOLLOW.at (0x80 * l.slot)) then lpeEvt Fld.LPE_EVT_TRACE_LOST l.slot s
      else s) i.loops s

/-! ### Writes of the LPE registers -/

/-- CLR_FAULT of a slot (Table 08-6). -/
def loopClrFaultEff (k : Nat) (s : State) : State :=
  match recOf s k with
  | some l =>
    let st := ust s (loopUnit l)
    if (lslot s k).st = .fault && (st = .service || st = .offline) then
      modSlot k (fun x => { x with st := .disabled, ovrRun := 0, faulty := false }) s
    else s
  | none => s

/-- FOLLOW is written only on a privileged loop (R267). -/
def loopFollowEff (k : Nat) (on : Bool) (s : State) : State :=
  match recOf s k with
  | some l => if l.priv then setFlag (Fld.LPE_CTRL_FOLLOW.at (0x80 * k)) on s else s
  | none => s

/-- ENABLE, SWAP and PARK written (R261, R277, Table 08-6). A slot with no loop stays DISABLED. -/
def loopEnableEff (k : Nat) (on : Bool) (s : State) : State := if (recOf s k).isSome then askEnable k on s else s
def loopSwapEff (k : Nat) (s : State) : State := modSlot k (fun x => { x with swap := true }) s
def loopParkEff (k : Nat) (s : State) : State := modSlot k (fun x => { x with park := decide (x.st = .disabled) }) s

/-- Steps LPE_COEF_IDX.IDX after an access (Table 08-7). -/
def coefStep (k : Nat) (s : State) : State :=
  if flag s (Fld.LPE_COEF_IDX_AUTO_INC.at (0x80 * k)) then
    setF (Fld.LPE_COEF_IDX_IDX.at (0x80 * k)) ((getF s (Fld.LPE_COEF_IDX_IDX.at (0x80 * k)) + 1) % 256) s else s

/-- A write of LPE_COEF_DATA: the shadow bank at IDX; above 159 it is discarded (R276). -/
def coefWrite (k : Nat) (v : Word) (s : State) : State :=
  let i := getF s (Fld.LPE_COEF_IDX_IDX.at (0x80 * k))
  let put (b : List Int) : List Int := modAt i (fun _ => signed 32 v.toNat) (b ++ List.replicate (160 - b.length) 0)
  let s := if 159 < i then s
    else modSlot k (fun x => if x.bank then { x with bank0 := put x.bank0 } else { x with bank1 := put x.bank1 }) s
  coefStep k s

/-- What a read of LPE_COEF_DATA returns. -/
def coefValue (k : Nat) (s : State) : Word :=
  let i := getF s (Fld.LPE_COEF_IDX_IDX.at (0x80 * k))
  let x := lslot s k
  let b := if flag s (Fld.LPE_COEF_IDX_RD_ACTIVE.at (0x80 * k)) then activeBank x else shadowBank x
  if 159 < i then 0#32 else BitVec.ofNat 32 (unsigned 32 (nth b i))

/-! ### S6 -/

/-- The coefficients of a record in the order of R276. -/
def coefsOf (l : LoopRec) : List Int := l.matA ++ l.matB ++ l.matC ++ l.matK ++ l.matL

/-- Loads the loop engine from the image at S6 (R247, R260, R276, R279): banks, SLEW, clamps, FOLLOW, core loads. -/
def loadLoops (i : Image) (s : State) : State :=
  let s := { s with mot := { s.mot with started := false, period := 0, slots := List.replicate 32 {} } }
  let s := forEach (fun l s =>
    let k := l.slot
    let rg := destRange i l
    let s := modSlot k (fun x => { x with bank0 := coefsOf l, bank1 := coefsOf l, enable := if l.enableAtArm then some true else none }) s
    let s := setInt (lreg Reg.LPE_SLEW k) l.slew s
    let s := setInt (lreg Reg.LPE_OUT_MIN k) rg.1 (setInt (lreg Reg.LPE_OUT_MAX k) rg.2 s)
    setFlag (Fld.LPE_CTRL_FOLLOW.at (0x80 * k)) l.priv s) i.loops s
  forEach (fun core s =>
    let load := sumN ((coreLoops s core).map loopCost)
    let s := setReg (Reg.LPE_CORE_LOAD + 4 * core) (BitVec.ofNat 32 (load % 1024)) s
    if 380 < load then
      evt Fld.LPE_GEVT_OVER_BUDGET noUnit [⟨1, core⟩] (setF ⟨Reg.LPE_GSTATUS, core, core⟩ 1 s)
    else s) [0, 1, 2, 3] s

end Sys2Proof.Machine
end

