-- ==== Sys2Proof/Machine/Spindle.lean ====
section
/-! DEFINITION. The spindle drive (chapter 09): PWM tops and centres, the angle estimators, the drive phases of Table
09-3, fault detection and its responses, stops, the spindle arbiter (R36) and rate matching (R305). -/

namespace Sys2Proof.Machine

/-! ### Parameters and access -/

/-- The spindle drive's state. -/
def spn (s : State) : SpnState := s.mot.spn

/-- MOTORS of the running image (Table 02-11); before an image runs every value reads as the type's default. -/
def motors (s : State) : MotorsCfg := match s.img.running with | some i => i.motors | none => default

/-- Pole pairs, at least 1. -/
def poleP (s : State) : Nat := max 1 (motors s).polePairs

/-- A current of pct % of I_LIMIT in 2^−24 A. -/
def pctLimit (s : State) (pct : Nat) : Int := roundDiv (((pct * (motors s).iLimit : Nat) : Int) * one24) 100000

/-- The largest magnitude of three currents. -/
def maxAbs (l : List Int) : Int := l.foldl (fun a i => max a i.natAbs) 0

/-- DUTY_MAX with 24 fraction bits (R283), from the configuration in force since the phase was last STOPPED (R306). -/
def dutyMax (p : SpnState) : Int :=
  let win := bits p.pwmCfg 8 8
  let dead := bits p.pwmCfg 16 8
  roundDiv ((2500 - ((win + 2 * dead : Nat) : Int)) * one24) 2500

/-- The largest vector magnitude, DUTY_MAX / √3, with 24 fraction bits. -/
def vectorMax (p : SpnState) : Int := roundDiv (dutyMax p * one24) sqrt3.toNat

/-- An angle in 2^−32 of a revolution for w rad/s × 2^24 over dt ns. -/
def angleOver (w : Int) (dt : Nat) : Int := roundDiv (w * dt * 256) 6283185307

/-- An angle wrapped into one revolution. -/
def wrapTurn (a : Int) : Nat := (a % 4294967296).toNat

/-- The signed difference of two angles, at most half a revolution. -/
def wrapDiff (a b : Nat) : Int := signed 32 (wrapTurn ((a : Int) - b))

/-- n̂ in rpm × 2^24 of an electrical speed in rad/s × 2^24 (R290). -/
def rpmOf (s : State) (w : Int) : Int := roundDiv (w * 9549297) (1000000 * poleP s)

/-- n̂ as a number of rpm compared with a bound: n̂ ≥ n. -/
def fastAs (p : SpnState) (n : Nat) : Bool := decide ((n : Int) * one24 ≤ p.nHat)

/-- The advance of R289 in 0.1 electrical degree, interpolated linearly in n̂ (2^24 rpm). -/
def advAt (n : Int) : List (Nat × Nat) → Nat
  | [] => 0
  | [(_, a)] => a
  | (s0, a0) :: (s1, a1) :: l =>
    if n ≤ (s0 : Int) * one24 then a0
    else if n ≤ (s1 : Int) * one24 then
      if s1 ≤ s0 then a1
      else ((a0 : Int) + roundDiv (((a1 : Int) - a0) * (n - (s0 : Int) * one24)) ((s1 - s0) * 0x1000000)).toNat
    else advAt n ((s1, a1) :: l)

/-- The control angle θc (R289). -/
def thetaC (p : SpnState) : Nat := wrapTurn ((p.th : Int) + ((p.adv * 4294967296 / 3600 : Nat) : Int))

/-- The speed loop's set-point in rpm × 2^24. -/
def setPoint (s : State) : Int := match speedSlot s with | some k => (lslot s k).r * 1000 | none => 0

/-- Whether n̂ lies within pct % of the set-point r. -/
def within (s : State) (pct : Nat) : Bool :=
  let r := setPoint s
  decide ((((spn s).nHat - r).natAbs : Int) * 100 ≤ r.natAbs * pct)

/-- Writes the current loop's target in 2^−24 A. -/
def currentTarget (v : Int) (s : State) : State :=
  match currentSlot s with | some k => setInt (lreg Reg.LPE_SP_TARGET k) (satQ v) s | none => s

/-- Asks the current or the speed loop to be enabled at its next due phase 0. -/
def enableCurrent (s : State) : State := match currentSlot s with | some k => askEnable k true s | none => s
def enableSpeed (s : State) : State := match speedSlot s with | some k => askEnable k true s | none => s

/-- SPN_VD and SPN_VQ. -/
def setV (vd vq : Int) (s : State) : State := { s with mot := { s.mot with vd := vd, vq := vq } }

/-- The DETAIL of an SPN event: the drive phase and n̂ in rpm (R307). -/
def SpnPhaseCode : SpnPhase → Nat
  | .stopped => 0 | .coastSense => 1 | .catch_ => 2 | .brake => 3 | .align => 4 | .runup => 5 | .run => 6
  | .recatch => 7 | .stopping => 8 | .lockedWait => 9 | .fault => 10

/-- n̂ in whole rpm, held in 16 bits. -/
def nRpm (p : SpnState) : Nat := min 65535 (p.nHat.natAbs / 0x1000000)

/-- Sets an SPN event. -/
def spnEvt (f : Fld) (s : State) : State := evt f uSpindle [⟨1, SpnPhaseCode (spn s).phase⟩, ⟨2, nRpm (spn s)⟩] s

/-! ### Unit, phases and gates -/

/-- The gates, which only an owner drives. -/
def setGates (on : Bool) (s : State) : State :=
  let s := modSpn (fun p => { p with gates := on, gatesDue := false, valid := on, injOn := on && p.injOn }) s
  { s with pins := { s.pins with spnGates := on } }

/-- A drive phase and its entry time. -/
def setPhase (ph : SpnPhase) (s : State) : State :=
  modSpn (fun p => { p with phase := ph, enteredAt := s.pwr.time, signRun := 0 }) s

/-- The drive's phase sets the unit state (R292); DRAINING and SERVICE yield to FAULTED alone. -/
def spnUnit (tgt : UState) (why : Reason) (s : State) : State :=
  let st := ust s uSpindle
  if (st = .draining || st = .service) && tgt ≠ .faulted then s else change uSpindle tgt why s

/-- FAULT: gates off, both loops disabled, the unit FAULTED (R291, R292). -/
def spnFault (why : Reason) (s : State) : State :=
  spnUnit .faulted why (setPhase .fault (disableSpindleLoops (setGates false s)))

/-- Enters BRAKE, or the braking part of a stop: all low sides on, counted (R294). -/
def startBraking (s : State) : State :=
  let s := disableSpindleLoops s
  let s := setGates true s
  bump Reg.SPN_CNT 2 (modSpn (fun p => { p with signRun := 0, regen := false, brakeOff := false, injOn := false }) s)

/-- BRAKE. -/
def enterBrake (s : State) : State := startBraking (setPhase .brake s)

/-- ALIGN: injection on, the current loop disabled, the gates driven from the following top (R295). -/
def enterAlign (s : State) : State :=
  let s := setPhase .align (disableSpindleLoops (setGates false s))
  modSpn (fun p => { p with gatesDue := true, injOn := true, injT := 0, injQ := [], injD := [], alignT := 0, pulseLen := 20,
                            thI := p.th, whI := 0, nHat := 0, w := 0 }) s

/-- COAST_SENSE: gates off, 20 ms of comparator edges collected (Table 09-3). -/
def enterCoast (s : State) : State :=
  setPhase .coastSense (modSpn (fun p => { p with edges := [] }) (disableSpindleLoops (setGates false s)))

/-- A start request at the drive (Table 09-3): from STOPPED alone, at an owner, the spindle not FAULTED. The PWM
configuration takes effect now (R306). -/
def spnStartEff (s : State) : State :=
  if (spn s).phase = .stopped && isOwner s && ust s uSpindle ≠ .faulted then
    let cfg := (getReg s Reg.SPN_PWM_CFG).toNat
    let div := bits (getReg s Reg.SPN_VSNS_DIV).toNat 0 16
    let s := modSpn (fun p => { p with startAt := s.pwr.time, pwmCfg := cfg, vsns := div, recatching := false }) s
    enterCoast (bump Reg.SPN_CNT 0 s)
  else s

/-- STOPPED: gates off, both loops disabled. -/
def spnStopped (s : State) : State := setPhase .stopped (disableSpindleLoops (setGates false s))

/-- A stop of the drive (R303); coast says whether it coasts. FAULT is left by no stop (Table 09-3). -/
def spnStopEff (coast : Bool) (s : State) : State :=
  let p := spn s
  if p.phase = .fault || p.phase = .stopped || p.phase = .stopping then s
  else if coast then spnStopped s
  else
    let drives := p.phase = .run || (p.phase = .runup && fastAs p 480)
    let s := setPhase .stopping s
    if drives then
      let s := match speedSlot s with | some k => disableSlot k s | none => s
      modSpn (fun p => { p with regen := true }) (currentTarget (-(pctLimit s (getF s Fld.SPN_START_CFG_BRAKE_PCT))) s)
    else startBraking s

/-- The response of R300 and R301: loops disabled, gates off, every write gate off and its pass abandoned, RECATCH,
the spindle unit STARTING. -/
def rotorLossResponse (why : Reason) (s : State) : State :=
  let s := bump Reg.SPN_CNT 4 (spnEvt Fld.SPN_EVT_ROTOR_LOSS s)
  let s := setGates false (disableSpindleLoops s)
  let s := stopAllNow s
  let s := setPhase .recatch s
  let s := modSpn (fun p => { p with lossAt := s.pwr.time, edges := [], lossDue := false, innovRun := 0, speedBad := 0,
                                     goodRun := 0, recatching := true, forceLoss := false }) s
  spnUnit .starting why s

/-! ### The arbiter (R36) -/

/-- The set-point of R36 with its source: fault response holds it, a thermal ceiling caps the others. -/
def arbitrated (s : State) : Nat × Nat :=
  let p := spn s
  if p.hold then (p.arbTarget, 1)
  else
    let low : Nat × Nat := match p.l4, p.calib with
      | some n, _ => (n, 3)
      | none, some n => (n, 4)
      | none, none => (p.rateReq, 5)
    match s.pwr.ceiling with
    | some c => if c < low.1 then (c, 2) else low
    | none => low

/-- SPINDLE_ARBITRATE: the target, never below SPIN_MIN (R296), goes to the speed loop's set-point in krpm. -/
def arbitrate (s : State) : State :=
  match s.img.running with
  | none => s
  | some i =>
    let a := arbitrated s
    let n := max i.motors.spinMin a.1
    let s := modSpn (fun p => { p with arbTarget := n, arbSource := a.2 }) s
    match speedSlot s with
    | some k => setInt (lreg Reg.LPE_SP_TARGET k) (satQ (roundDiv ((n : Int) * one24) 1000)) s
    | none => s

/-- n̂ ≥ 0.98 × target (R296). -/
def nearTarget (s : State) : Bool := decide (((spn s).arbTarget : Int) * 98 * one24 ≤ (spn s).nHat * 100)

/-- RUN, with the speed loop enabled at its next due phase 0 (R296, R297). -/
def enterRun (s : State) : State :=
  enableSpeed (modSpn (fun p => { p with goodRun := 0, readyRun := 0, lockAcc := 0, revAcc := 0, innovRun := 0, speedBad := 0 })
    (setPhase .run s))

/-- RUNUP: the current loop at RUNUP_PCT of I_LIMIT (R296). From a catch the loop is enabled already, with its preset
of SPN_VQ (R297). -/
def enterRunup (fromCatch : Bool) (s : State) : State :=
  let s := setPhase .runup s
  let s := if fromCatch then s else enableCurrent (setV 0 0 s)
  let s := modSpn (fun p => { p with lockAcc := 0, revAcc := 0, innovRun := 0 }) s
  currentTarget (pctLimit s (getF s Fld.SPN_START_CFG_RUNUP_PCT)) s

/-! ### PWM top (R283, R285) -/

/-- The injection voltage as a fraction of the bus at step k of 16 (R287), times mul; free where no bus voltage was
ever sampled. vbus is in mV. -/
def injection (s : State) (k : Nat) (mul : Int) : Int :=
  let p := spn s
  let amp := mul * ((motors s).injAmpl : Nat)
  if p.vbus = 0 then signed 24 (Config.freeWord s.free).toNat
  else roundDiv (amp * sinTurn (k * 0x10000000)) p.vbus

/-- The polarity pulse of R295 at period k of the test: 4 × INJ_AMPL, zero, the opposite pulse, zero. -/
def pulseAt (s : State) (k : Nat) : Int :=
  let p := spn s
  let amp : Int := if p.vbus = 0 then signed 24 (Config.freeWord s.free).toNat
    else roundDiv (4 * ((motors s).injAmpl : Int) * one24) p.vbus
  if k < p.pulseLen then amp else if k < p.pulseLen + 80 then 0 else if k < 2 * p.pulseLen + 80 then -amp else 0

/-- The voltage of the coming period in dq: the loop's in RUNUP, RUN and a regenerating stop, the drive's own in
ALIGN; the injection is added to the direct value, and in the second part of the saliency test to the other one. -/
def dqVoltage (s : State) : Int × Int :=
  let p := spn s
  if p.phase = .align then
    if p.alignT < 896 then (injection s p.injT 1, 0)
    else if p.alignT < 1152 then (0, injection s p.injT 1)
    else (pulseAt s (p.alignT - 1152), 0)
  else if p.phase = .runup || p.phase = .run || (p.phase = .stopping && p.regen) then
    (s.mot.vd + (if p.injOn then injection s p.injT 1 else 0), s.mot.vq)
  else (0, 0)

/-- A PWM top: gates due are driven, the duties of the coming period are formed, and VBUS is sampled. pinMv is the
voltage in mV at the SPN_VS pin of the phase with the largest duty. -/
def pwmTopEff (pinMv : Nat) (s : State) : State :=
  if stage s < 6 || halted s then s
  else
    let s := if (spn s).gatesDue && isOwner s then setGates true s else s
    let p := spn s
    if !p.gates then s
    else if p.phase = .brake || (p.phase = .stopping && !p.regen) then
      modSpn (fun p => { p with brakeOff := false, vlimit := false, cmp := [1250, 1250, 1250], vA := 0, vB := 0 }) s
    else
      let dq := dqVoltage s
      let thv := wrapTurn ((thetaC p : Int) + angleOver p.w 25000)
      let a := mulQ dq.1 (cosTurn thv) - mulQ dq.2 (sinTurn thv)
      let b := mulQ dq.1 (sinTurn thv) + mulQ dq.2 (cosTurn thv)
      let mag : Int := (sqrtN (a * a + b * b).toNat : Nat)
      let lim := vectorMax p
      let beyond : Bool := decide (lim < mag)
      let a := if beyond then roundDiv (a * lim) mag.toNat else a
      let b := if beyond then roundDiv (b * lim) mag.toNat else b
      let h := mulQ sqrt3 b
      let vu := a
      let vv := roundDiv (h - a) 2
      let vw := roundDiv (-h - a) 2
      let hi := max vu (max vv vw)
      let lo := min vu (min vv vw)
      let duty := fun (v : Int) => v - roundDiv (hi + lo) 2 + roundDiv (dutyMax p) 2
      let ds := [duty vu, duty vv, duty vw]
      let top := max (nth ds 0) (max (nth ds 1) (nth ds 2))
      let vbus := if 10 * top < one24 then p.vbus else (roundDiv ((pinMv * p.vsns : Nat) : Int) 100).toNat
      modSpn (fun p => { p with
        vlimit := beyond, duty := ds, cmp := ds.map (fun d => (roundDiv (1250 * (one24 - d)) 0x1000000).toNat), vbus := vbus,
        vA := roundDiv (a * vbus) 1000, vB := roundDiv (b * vbus) 1000,
        injT := if p.injOn then (p.injT + 1) % 16 else 0, alignT := if p.phase = .align then p.alignT + 1 else p.alignT }) s

/-! ### PWM centre (R284, R286 to R290) -/

/-- A shunt code as a current (R284). -/
def shuntCurrent (s : State) (code : Nat) : Int :=
  let g := 4 * 2 ^ bits (spn s).pwmCfg 0 2
  let den := 2048 * g * (motors s).rShunt
  if den = 0 then signed 32 (Config.freeWord s.free).toNat else roundDiv (((code : Int) - 2048) * 900000 * one24) den

/-- The tracking update of R286 and R287: angle and speed after one period with phase error eps. -/
def track (pll : Nat) (th : Nat) (wh eps : Int) : Nat × Int :=
  let wh' := wh + roundDiv (((pll * pll : Nat) : Int) * 98696 * eps) 1000000
  (wrapTurn ((th : Int) + angleOver (wh' + roundDiv (((pll : Nat) : Int) * 1256637 * eps) 10000) 25000), wh')

/-- The back-EMF observer with measured current (iA, iB) (R286). -/
def observer (iA iB : Int) (s : State) : State :=
  let p := spn s
  let m := motors s
  let l := max 1 m.lPhase
  let pred := fun (ih v eh : Int) => ih + roundDiv ((v - roundDiv (ih * m.rPhase) 1000 - eh) * 25000) l
  let pa := pred p.ihA p.vA p.ehA
  let pb := pred p.ihB p.vB p.ehB
  let na := iA - pa
  let nb := iB - pb
  let ea := p.ehA - roundDiv (mulQ p.whB p.ehB) 40000 - roundDiv (na * l) 500000
  let eb := p.ehB + roundDiv (mulQ p.whB p.ehA) 40000 - roundDiv (nb * l) 500000
  let mag := sqrtN (ea * ea + eb * eb).toNat
  let eps : Int := if mag = 0 then signed 32 (Config.freeWord s.free).toNat
    else -(sgn p.whB) * roundDiv (ea * cosTurn p.thB + eb * sinTurn p.thB) mag
  let tr := track (getF s Fld.SPN_EST_CFG_PLL_BW) p.thB p.whB eps
  modSpn (fun p => { p with
    ihA := pa + roundDiv na 2, ihB := pb + roundDiv nb 2, ehA := ea, ehB := eb, thB := tr.1, whB := tr.2,
    innov := (sqrtN (na * na + nb * nb).toNat : Nat) }) s

/-- The injection estimator: I_Q demodulated by the waveform one period late, averaged over 16 and normalised by the
amplitude of the I_D response (R287). -/
def injector (s : State) : State :=
  let p := spn s
  let demod := mulQ p.iQ (sinTurn (((p.injT + 14) % 16) * 0x10000000))
  let q := ((p.injQ ++ [demod]).reverse.take 16).reverse
  let d := ((p.injD ++ [p.iD]).reverse.take 16).reverse
  let hi := d.foldl max (nth d 0)
  let lo := d.foldl min (nth d 0)
  let amp := (hi - lo) / 2
  let eps : Int := if amp ≤ 0 then signed 32 (Config.freeWord s.free).toNat else roundDiv (sumI q * one24) (16 * amp.toNat)
  let tr := track (getF s Fld.SPN_EST_CFG_PLL_BW) p.thI p.whI eps
  modSpn (fun p => { p with injQ := q, injD := d, thI := tr.1, whI := tr.2 }) s

/-- The blend weight w × 2^24 (R288). -/
def blendW (p : SpnState) : Int :=
  if !p.injOn then one24 else clampI 0 one24 (roundDiv (p.nHat - 240 * one24) 240)

/-- Counts forward electrical revolutions, and the mechanical ones where no ply has wedge lock (R290, R298). -/
def countRevs (d : Int) (s : State) : State :=
  let acc := (spn s).revAcc + d
  if 4294967296 ≤ acc then
    let n := (spn s).elecRevs + 1
    let s := modSpn (fun p => { p with revAcc := acc - 4294967296, lockAcc := 0, elecRevs := n % poleP s }) s
    if n % poleP s = 0 && !allCars.any (plyLock s) then set64 Reg.SPN_REV_LO (get64 s Reg.SPN_REV_LO + 1) s else s
  else modSpn (fun p => { p with revAcc := max acc (-4294967296) }) s

/-- The blended estimate, n̂, the advance and the injection's turning on and off (R288 to R290). -/
def blendStep (s : State) : State :=
  let p := spn s
  let w := blendW p
  let th := if !p.injOn then p.thB else wrapTurn ((p.thI : Int) + mulQ w (wrapDiff p.thB p.thI))
  let om := if !p.injOn then p.whB else p.whI + mulQ w (p.whB - p.whI)
  let n := rpmOf s om
  let d := wrapDiff th p.th
  let s := modSpn (fun p => { p with th := th, w := om, nHat := n, adv := advAt n (motors s).advance, backward := decide (n < 0) }) s
  let s := countRevs d s
  if p.injOn && decide (500 * one24 < n) then modSpn (fun p => { p with injOn := false }) s
  else if !p.injOn && decide (n < 480 * one24) then
    modSpn (fun p => { p with injOn := true, injT := 0, injQ := [], injD := [], thI := th, whI := om }) s
  else s

/-- The rotor-loss and locked-rotor detectors of R298 and R299, and the runs that READY needs. -/
def detectors (s : State) : State :=
  let p := spn s
  let m := motors s
  let watch := p.phase = .run || (p.phase = .runup && fastAs p 480)
  let big : Bool := decide ((m.innovLim : Int) * one24 < p.innov * 1000)
  let ir := if watch && big then p.innovRun + 1 else 0
  let loopRun : Bool := p.phase = .run && (match speedSlot s with | some k => slotActive s k | none => false)
  let sb := if loopRun && !within s 15 then p.speedBad + 10 else 0
  let near := loopRun && within s 1
  let strong : Bool := decide (pctLimit s 50 < (p.iQ.natAbs : Int))
  modSpn (fun p => { p with
    innovRun := min 3 ir, speedBad := min 400 sb,
    lossDue := p.lossDue || decide (3 ≤ ir) || decide (400 ≤ sb) || (p.forceLoss && (p.phase = .run || p.phase = .runup)),
    forceLoss := false,
    lockAcc := if (p.phase = .run || p.phase = .runup) && strong then p.lockAcc + 1 else p.lockAcc,
    readyRun := if near then min 2000 (p.readyRun + 1) else 0,
    goodRun := if near && decide (p.innov * 1000 < (m.innovLim : Int) * one24) then min 400 (p.goodRun + 1) else 0 }) s

/-- BRAKE's current limit and the run of phase U's current without a change of sign (R294). -/
def brakeCentre (s : State) : State :=
  let p := spn s
  let lim := pctLimit s (getF s Fld.SPN_START_CFG_BRAKE_PCT)
  let beyond : Bool := decide (lim < maxAbs [p.iU, p.iV, p.iW])
  let neg := decide (p.iU < 0)
  modSpn (fun p => { p with
    brakeOff := p.brakeOff || beyond,
    signRun := if p.iU ≠ 0 && neg != p.lastNeg then 0 else p.signRun + 1,
    lastNeg := if p.iU = 0 then p.lastNeg else neg }) s

/-- SPN_OVERCURRENT (R302). -/
def overcurrent (s : State) : State :=
  let p := spn s
  let lim := pctLimit s (getF s Fld.SPN_FAULT_CFG_OC_PCT)
  if !(lim < maxAbs [p.iU, p.iV, p.iW]) then s
  else if p.phase = .align then spnFault .drive s
  else if p.phase = .runup || p.phase = .run then
    let ts := s.pwr.time :: p.ocTimes.filter (fun t => decide (s.pwr.time < t + 1000000000))
    let s := setGates false s
    let s := bump Reg.SPN_CNT 6 (spnEvt Fld.SPN_EVT_OVERCURRENT s)
    let s := modSpn (fun p => { p with ocTimes := ts }) s
    if 3 ≤ ts.length then spnFault .drive s else rotorLossResponse .drive s
  else s

/-- n̂ falling below 480 rpm in a regenerating stop: braking as in R294 from there on (R303). -/
def regenEnd (s : State) : State :=
  let p := spn s
  if p.phase = .stopping && p.regen && !fastAs p 480 then startBraking s else s

/-- A PWM centre with the three shunt codes. -/
def pwmCentreEff (cu cv cw : Nat) (s : State) : State :=
  if stage s < 6 || halted s then s
  else
    let u := shuntCurrent s cu
    let v := shuntCurrent s cv
    let w := shuntCurrent s cw
    let mean := roundDiv (u + v + w) 3
    let iu := u - mean
    let iv := v - mean
    let iw := w - mean
    let ia := roundDiv (2 * iu - iv - iw) 3
    let ib := roundDiv ((iv - iw) * one24) sqrt3.toNat
    let tc := thetaC (spn s)
    let s := modSpn (fun p => { p with
      iU := iu, iV := iv, iW := iw, iD := mulQ ia (cosTurn tc) + mulQ ib (sinTurn tc),
      iQ := mulQ ib (cosTurn tc) - mulQ ia (sinTurn tc) }) s
    let s := if (spn s).phase = .align && decide (1152 ≤ (spn s).alignT) && decide ((spn s).alignT < 1172) &&
        (spn s).pulseLen = 20 && decide (pctLimit s 50 ≤ ((spn s).iD.natAbs : Int)) then
      modSpn (fun p => { p with pulseLen := p.alignT - 1152 }) s else s
    let braking : Bool := (spn s).phase = .brake || ((spn s).phase = .stopping && !(spn s).regen)
    let s := if braking then brakeCentre s else s
    let s := if (spn s).gates then
        let s := observer ia ib s
        let s := if (spn s).injOn then injector s else s
        regenEnd (detectors (blendStep s))
      else s
    overcurrent s

/-! ### Comparator edges, coast sense and catch (R293, R297) -/

/-- The next phase of the forward order U, W, V (phases 0, 1, 2 are U, V, W). -/
def nextForward (p : Nat) : Nat := if p = 0 then 2 else if p = 2 then 1 else 0

/-- Whether edges come in the given direction. -/
def inOrder (fwd : Bool) : List (Nat × Bool × Nat) → Bool
  | [] => true
  | [_] => true
  | a :: b :: l => (if fwd then b.1 == nextForward a.1 else a.1 == nextForward b.1) && inOrder fwd (b :: l)

/-- The attempt of R300 in which an instant lies: 30 ms each, from 1 ms after the loss. -/
def attemptOf (lossAt t : Nat) : Nat := (t - (lossAt + 1000000)) / 30000000

/-- A comparator edge of phase ph (0 U, 1 V, 2 W). -/
def edgeEff (ph : Nat) (rising : Bool) (s : State) : State :=
  let p := spn s
  let e := (ph % 3, rising, s.pwr.time)
  match p.phase with
  | .coastSense => modSpn (fun p => { p with edges := p.edges ++ [e] }) s
  | .catch_ => modSpn (fun p => { p with edges := ((p.edges ++ [e]).reverse.take 12).reverse }) s
  | .recatch =>
    if s.pwr.time < p.lossAt + 1000000 then s
    else
      let same := match p.edges with | x :: _ => attemptOf p.lossAt x.2.2 == attemptOf p.lossAt s.pwr.time | [] => true
      modSpn (fun p => { p with edges := if same then ((p.edges ++ [e]).reverse.take 12).reverse else [e] }) s
  | _ => s

/-- The time from the first edge to the last, in ns. -/
def edgeSpan (es : List (Nat × Bool × Nat)) : Nat :=
  match es with
  | [] => 0
  | x :: _ => match es.getLast? with | some y => y.2.2 - x.2.2 | none => 0

/-- Whether n = 10 / (POLE_PAIRS × Δt) reaches lim rpm. -/
def edgesReach (s : State) (es : List (Nat × Bool × Nat)) (lim : Nat) : Bool :=
  decide (lim * poleP s * edgeSpan es ≤ 10000000000 * (es.length - 1))

/-- COAST_SENSE_DONE: the finding of R293 and its row of Table 09-4. -/
def coastDoneEff (s : State) : State :=
  let p := spn s
  if p.phase ≠ .coastSense then s
  else
    let first := p.edges.take 3
    if p.edges.length < 3 || !(inOrder true first || inOrder false first) then enterAlign s
    else if inOrder false first then enterBrake s
    else if edgesReach s p.edges 480 then setPhase .catch_ (modSpn (fun p => { p with edges := [] }) s)
    else if edgesReach s p.edges 240 then enterBrake s
    else enterAlign s

/-- The intervals of consecutive edges. -/
def gaps : List (Nat × Bool × Nat) → List Nat
  | a :: b :: l => (b.2.2 - a.2.2) :: gaps (b :: l)
  | _ => []

/-- ω̂e in rad/s × 2^24 from edges: π / 3 per interval. -/
def edgeOmega (es : List (Nat × Bool × Nat)) : Int :=
  if edgeSpan es = 0 then 0 else roundDiv (1047197551 * ((es.length - 1 : Nat) : Int) * one24) (edgeSpan es)

/-- The angle of an edge: the crossing of that phase's back-EMF (R286). -/
def edgeAngle (ph : Nat) (rising : Bool) : Nat :=
  let k := if ph = 0 then (if rising then 3 else 0) else if ph = 2 then (if rising then 1 else 4) else (if rising then 5 else 2)
  k * 4294967296 / 6

/-- Whether the last 12 edges make a catch (R297 steps 1 to 3). ω̂e × KE is in µV × 2^24. -/
def catchOk (s : State) : Bool :=
  let p := spn s
  let es := p.edges
  let tot := edgeSpan es
  let om := edgeOmega es
  es.length == 12 && decide (0 < tot) && inOrder true es &&
    (gaps es).all (fun g => decide (5 * ((11 * g : Int) - tot).natAbs ≤ tot)) &&
    edgesReach s es 480 && decide (om * (motors s).ke * 0x1000000 ≤ vectorMax p * p.vbus * 1000 * one24)

/-- A catch made (R297 steps 4 to 8), from CATCH or RECATCH. -/
def catchMadeEff (s : State) : State :=
  let p := spn s
  if !((p.phase = .catch_ || p.phase = .recatch) && catchOk s) then s
  else
    let om := edgeOmega p.edges
    let th := match p.edges.getLast? with
      | some e => wrapTurn ((edgeAngle e.1 e.2.1 : Int) + angleOver om (s.pwr.time - e.2.2))
      | none => 0
    let ke := (motors s).ke
    let eA := -(roundDiv (mulQ om (sinTurn th) * ke) 1000000)
    let eB := roundDiv (mulQ om (cosTurn th) * ke) 1000000
    let n := rpmOf s om
    let s := modSpn (fun p => { p with
      ihA := 0, ihB := 0, ehA := eA, ehB := eB, whB := om, thB := th, th := th, w := om, nHat := n, injOn := false, valid := true,
      adv := advAt n (motors s).advance, backward := false, gatesDue := true, edges := [], brakeOff := false }) s
    let s := setV 0 (roundDiv (om * ke) (1000 * (max 1 p.vbus))) s
    let s := enableCurrent (currentTarget 0 s)
    if p.phase = .recatch then enterRun s
    else
      let s := bump Reg.SPN_CNT 1 s
      if nearTarget s then enterRun s else enterRunup true s

/-- CATCH without a catch within 200 ms (Table 09-3). -/
def catchTimeoutEff (s : State) : State := if (spn s).phase = .catch_ then enterBrake s else s

/-- Whether phase U's current kept its sign for 30 / (POLE_PAIRS × 60) s: 20,000 / POLE_PAIRS centres (R294). -/
def belowSixty (s : State) : Bool := decide (20000 ≤ (spn s).signRun * poleP s)

/-- BRAKE ends below 60 rpm. -/
def brakeDoneEff (s : State) : State := if (spn s).phase = .brake && belowSixty s then enterAlign s else s

/-- BRAKE_TMAX elapsed. -/
def brakeTimeoutEff (s : State) : State :=
  if (spn s).phase = .brake then spnFault .drive (spnEvt Fld.SPN_EVT_BRAKE_TIMEOUT s) else s

/-- ALIGN's tests end (R295): the amplitudes of the response to d and q injection in mA, and the two peaks in mA. -/
def alignDoneEff (ampD ampQ peakP peakN : Nat) (s : State) : State :=
  if (spn s).phase ≠ .align then s
  else
    let diff := if ampD ≤ ampQ then ampQ - ampD else ampD - ampQ
    let big := max peakP peakN
    let small := min peakP peakN
    if diff < getF s Fld.SPN_EST_CFG_INJ_MIN || 100 * (big - small) < 2 * big then
      spnFault .drive (spnEvt Fld.SPN_EVT_ALIGN_FAIL s)
    else
      let turn (a : Nat) : Nat := if peakP < peakN then wrapTurn ((a : Int) + 2147483648) else a
      enterRunup false (modSpn (fun p => { p with thI := turn p.thI, th := turn p.th }) s)

/-- n̂ reached 0.98 × target in RUNUP. -/
def runupDoneEff (s : State) : State := if (spn s).phase = .runup && nearTarget s then enterRun s else s

/-- RUNUP_TMAX elapsed since the start request. -/
def runupTimeoutEff (s : State) : State :=
  if (spn s).phase = .runup then spnFault .drive (spnEvt Fld.SPN_EVT_RUNUP_TIMEOUT s) else s

/-- The speed loop runs with its r at its target. -/
def speedSettled (s : State) : Bool :=
  match speedSlot s with
  | some k => (lslot s k).st = .run && (lslot s k).r == (lslot s k).t
  | none => false

/-- READY of the spindle: retries return to 0, the rate adjustment is 0, and the acquisition of carriages in STARTING
begins (R291, R305, Table 17-2). -/
def spnReady (s : State) : State :=
  let s := spnUnit .ready .drive (modSpn (fun p => { p with retries := 0, rateAdj := 0, recatching := false }) s)
  forEach (fun c s => if ust s (uCar c) = .starting && !loopsUp s c then acquireCar c s else s) (boundCars s) s

/-- The criterion of R296 met while the unit is STARTING. -/
def spindleReadyEff (s : State) : State :=
  let p := spn s
  if p.phase = .run && speedSettled s && decide (2000 ≤ p.readyRun) && ust s uSpindle = .starting && !p.recatching
  then spnReady s else s

/-- A locked rotor (R298): 200 ms of high current are 8,000 centres. -/
def lockedRotorEff (s : State) : State :=
  let p := spn s
  if (p.phase = .run || p.phase = .runup) && decide (8000 ≤ p.lockAcc) then
    let s := bump Reg.SPN_CNT 3 (spnEvt Fld.SPN_EVT_LOCKED_ROTOR s)
    let s := modSpn (fun p => { p with lockAcc := 0 }) s
    if p.retries < 3 then
      spnUnit .starting .drive (setPhase .lockedWait (disableSpindleLoops (setGates false s)))
    else spnFault .drive s
  else s

/-- 1 s after a locked-rotor detection (Table 09-3). -/
def lockedWaitDoneEff (s : State) : State :=
  if (spn s).phase = .lockedWait then enterCoast (modSpn (fun p => { p with retries := p.retries + 1 }) s) else s

/-- Rotor loss as declared at a PWM centre (R299). -/
def rotorLossEff (s : State) : State :=
  let p := spn s
  if p.lossDue && (p.phase = .run || p.phase = .runup) then rotorLossResponse .drive s else s

/-- Step 8 of Table 09-6: 10 ms are 400 centres. -/
def recatchOkEff (s : State) : State :=
  let p := spn s
  if p.phase = .run && p.recatching && decide (400 ≤ p.goodRun) then
    bump Reg.SPN_CNT 5 (spnEvt Fld.SPN_EVT_RECATCH_OK (spnReady s))
  else s

/-- 200 ms since the loss without a catch. -/
def recatchTimeoutEff (s : State) : State :=
  if (spn s).phase = .recatch then spnFault .drive (spnEvt Fld.SPN_EVT_RECATCH_FAIL s) else s

/-- A braking stop below 60 rpm (R303). A unit that was asked to be READY meanwhile starts then. -/
def stoppingDoneEff (s : State) : State :=
  if (spn s).phase = .stopping && !(spn s).regen && belowSixty s then
    let s := spnStopped s
    if ust s uSpindle = .starting then spnStartEff s else s
  else s

/-- SPN_CTRL.CLR_FAULT (Table 09-3). -/
def spnClrFaultEff (s : State) : State :=
  let st := ust s uSpindle
  if (spn s).phase = .fault && (st = .offline || st = .service) && !(spn s).fromTrip then
    setPhase .stopped (modSpn (fun p => { p with retries := 0 }) s)
  else s

/-- SPN_CTRL.FORCE_LOSS (R299). -/
def spnForceLossEff (s : State) : State := modSpn (fun p => { p with forceLoss := true }) s

/-! ### Outside events (R304) -/

/-- The trip temperature. -/
def spnTrip (s : State) : State :=
  let s := disableSpindleLoops (setGates false s)
  modSpn (fun p => { p with fromTrip := true }) (setPhase .fault s)

/-- The controller becomes non-owner: the gates go off, the phase is STOPPED. -/
def spnDisown (s : State) : State := if (spn s).phase = .fault then setGates false s else spnStopped s

/-- PWRFAIL_N asserted. -/
def spnPowerFail (s : State) : State := if (spn s).phase = .fault then setGates false s else spnStopped s

/-! ### Rate matching (R305) -/

/-- Held write data in bytes: blocks held and not applied. -/
def heldBytes (s : State) : Nat := 4096 * (s.media.held.filter (fun h => h.stage ≠ .applied)).length

/-- A read waits: some accepted READ runs with blocks not delivered. -/
def readWaits (s : State) : Bool := (cmds s).any (fun e => e.2.cmd.opcode == opRead && e.2.state != .ended)

/-- f in percent; ahead is the unclaimed read-ahead data in bytes. -/
def rateF (s : State) (ahead : Nat) : Nat :=
  let fw := 100 * heldBytes s / (1048576 * max 1 (policyVal s 6).toNat)
  let ra := 1048576 * max 1 (getF s Fld.SPN_RATE_CFG_RA_MIB)
  let fr := if readWaits s then 100 - 100 * ahead / ra else 0
  min 100 (max fw fr)

/-- RATE_MATCH_COMPUTE with d and c in members per second; where c is 0 the spec states no result. While QUIESCED the set-
point is held (R76). -/
def rateMatchEff (d c ahead : Nat) (s : State) : State :=
  if ust s uSpindle ≠ .ready || flag s Fld.SPN_CTRL_RATE_HOLD || getF s Fld.IMG_STATUS_QSTATE = 2 then s
  else
    let m := motors s
    let f := rateF s ahead
    let h := (policyVal s 4).toNat
    let adj := if 50 + h ≤ f || f ≤ 50 - h then truncDiv (((f : Int) - 50) * m.spinMax) 50 else (spn s).rateAdj
    let q : Int := if c = 0 then ((Config.freeWord s.free).toNat : Int) else ((m.spinMax * d / c : Nat) : Int)
    let s := if c = 0 then useFree s else s
    let n := (clampI m.spinMin m.spinMax (10 * roundDiv (q + adj) 10)).toNat
    let old := (spn s).rateReq
    let far : Bool := decide (old + 10 ≤ n) || decide (n + 10 ≤ old)
    let s := modSpn (fun p => { p with rateF := f, rateAdj := adj, rateReq := if far then n else p.rateReq }) s
    arbitrate (if far then bump Reg.SPN_CNT 7 s else s)

/-! ### Spindle loops lost or faulted -/

/-- A spindle loop LOST or FAULT in RUNUP or RUN starts the response of R300 (Table 09-3). -/
def spindleLoopDown (s : State) : State :=
  let p := spn s
  if p.phase = .run || p.phase = .runup then rotorLossResponse .loop s else s

/-- LOOP_LOST_LOCK of a slot (R271, R273, R274): the slot leaves its active state, the event is raised, and the
carriage or the spindle answers. -/
def loopLostEff (k : Nat) (s : State) : State :=
  if !((lslot s k).lost && slotActive s k) then s
  else
    match recOf s k with
    | none => s
    | some l =>
      let s := lpeEvt Fld.LPE_EVT_LOST_LOCK k (leaveActive k .lost s)
      if l.carriage ≤ 3 then followCheck l.carriage (carriageLost l.carriage s) else spindleLoopDown s

/-- LOOP_FAULT of a slot (R259, R273 to R275). -/
def loopFaultEff (k : Nat) (s : State) : State :=
  let x := lslot s k
  if !((decide (8 ≤ x.ovrRun) || x.faulty) && slotActive s k) then s
  else
    match recOf s k with
    | none => s
    | some l =>
      let s := lpeEvt Fld.LPE_EVT_FAULT k (leaveActive k .fault s)
      if l.carriage ≤ 3 then followCheck l.carriage (carriageFault l.carriage .loop s) else spindleLoopDown s

/-- CARRIAGE_REACQUIRE_TIMEOUT (R274): not READY or DEGRADED within 500 ms of lost lock. -/
def reacquireTimeoutEff (c : Nat) (s : State) : State :=
  if (carOfS s c).lostAt.isSome && !UState.serves (ust s (uCar c)) then
    carriageFault c .loop (modCar c (fun m => { m with lostAt := none }) s)
  else modCar c (fun m => { m with lostAt := none }) s

end Sys2Proof.Machine
end

