-- ==== Sys2Proof/Machine/Carriage.lean ====
section
/-! DEFINITION. The sleds (chapter 10): coil regulation, the profile generator and the step engine, homing, and the
motion engine of Table 10-3 with its seeks, jumps and captures. -/

namespace Sys2Proof.Machine

/-- The sled motor of a carriage (Table 02-11). -/
def sledM (s : State) (c : Nat) : SledMotor := (motors s).sleds.getD c default

/-- The register of a carriage's window. -/
def cfld (f : Fld) (c : Nat) : Fld := f.at (0x200 * c)

/-- One micrometre in 2^−32 µm. -/
def um : Int := 4294967296

/-- A position in u as 2^−32 µm (1 u is 25/256 µm). -/
def uToX (p : Int) : Int := p * 25 * 16777216

/-- Motion-state codes of CRG_STATUS. -/
def motionCode : MotionSt → Nat
  | .unhomed => 0 | .homing => 1 | .idle => 2 | .follow => 3 | .seek => 4 | .settle => 5 | .capture => 6 | .fine => 7
  | .fault => 8

/-- Sets a CRG event, which names the carriage, the motion state and, for seek outcomes, LF and T (R335). -/
def crgEvt (f : Fld) (c : Nat) (s : State) : State :=
  let m := carOfS s c
  let tail : List Item := match m.seek with
    | some k => if f = Fld.CRG_EVT_SEEK_DONE || f = Fld.CRG_EVT_SEEK_FAIL then [⟨1, k.lf⟩, ⟨2, k.turn⟩] else []
    | none => []
  evtAt f (0x200 * c) (uCar c) ([⟨1, c⟩, ⟨1, motionCode m.st⟩] ++ tail) s

/-- A count of a carriage. -/
def crgBump (c i : Nat) (s : State) : State := bump (Reg.CRG_CNT + 0x200 * c) i s

/-- The tracking, twist and sled slots of a carriage have MASK bits held or their sled loop kept off (R322). -/
def holdMasks (c : Nat) (s : State) : State :=
  let s := match slotOfKind s 2 c with | some k => engineMask k 15 s | none => s
  match slotOfKind s 4 c with | some k => engineMask k 15 s | none => s

/-- The masks released. -/
def releaseMasks (c : Nat) (s : State) : State :=
  let s := match slotOfKind s 2 c with | some k => engineMask k 0 s | none => s
  match slotOfKind s 4 c with | some k => engineMask k 0 s | none => s

/-- The sled loop enabled or disabled by the engine. -/
def sledLoop (c : Nat) (on : Bool) (s : State) : State :=
  match slotOfKind s 6 c with
  | some k => if on then askEnable k true s else disableSlot k (modSlot k (fun x => { x with enable := none }) s)
  | none => s

/-- The sled gates go off for a reason other than a coil fault (R318, Table 10-3): a pending seek fails. -/
def sledOff (c : Nat) (s : State) : State :=
  let m := carOfS s c
  let s := { s with pins := { s.pins with sledGates := modAt c (fun _ => false) s.pins.sledGates } }
  let s := if m.seek.isSome || m.pending.isSome then crgBump c 6 (crgEvt Fld.CRG_EVT_SEEK_FAIL c s) else s
  let s := releaseMasks c s
  modCar c (fun m => { m with
    gates := false, homed := false, st := if m.st = .fault then .fault else .unhomed, seek := none, pending := none,
    jump := none, nTurn := 0, v := 0, a := 0, moving := false, stopping := false, reversing := false, moveTarget := none }) s

/-- The sled gates driven by an owner. -/
def sledOn (c : Nat) (s : State) : State :=
  let s := { s with pins := { s.pins with sledGates := modAt c (fun _ => true) s.pins.sledGates } }
  modCar c (fun m => { m with gates := true }) s

/-- A coil fault (R311): all eight gates off, the engine in FAULT, the carriage FAULTED. -/
def coilFault (f : Fld) (c : Nat) (s : State) : State :=
  let s := { s with pins := { s.pins with sledGates := modAt c (fun _ => false) s.pins.sledGates } }
  let s := modCar c (fun m => { m with gates := false, st := .fault, seek := none, pending := none, jump := none, moving := false, v := 0, a := 0 }) s
  change (uCar c) .faulted .drive (releaseMasks c (crgEvt f c s))

/-! ### Coil current (R309 to R311) -/

/-- The 16-bit table value of the sine at p of 1,024 u. -/
def sledSin (p : Int) : Int := clampI (-65535) 65535 (roundDiv (sinTurn ((p % 1024).toNat * 4194304)) 256)

/-- The two current targets in 2^−24 A. -/
def coilTargets (s : State) (c : Nat) : Int × Int :=
  let m := carOfS s c
  let q := sledM s c
  let amp := roundDiv (((if m.strong then q.iStrong else q.iQuiet : Nat) : Int) * one24) 1000
  let i1 := roundDiv (amp * sledSin (m.p + 256)) 65536
  let i2 := roundDiv (amp * sledSin m.p) 65536
  (i1, if q.dirInvert then -i2 else i2)

/-- A coil code as a current in 2^−24 A. -/
def coilCurrent (s : State) (c code : Nat) : Int :=
  roundDiv (((code : Int) - 2048) * 900 * one24) (8192 * max 1 (bits (getReg s (Reg.CRG_SHUNT + 0x200 * c)).toNat 0 16))

/-- One sample of a coil's regulator; the truth values say overcurrent and open. -/
def coilStep (kp ki oc iQuiet iStrong : Nat) (ref i : Int) (k : Coil) : Coil × Bool × Bool :=
  let neg := decide (ref < 0)
  let k := if ref ≠ 0 && neg != k.refNeg then { k with d := 0, ePrev := 0, refNeg := neg } else k
  let strong := max 1 iStrong
  let e := roundDiv (((ref.natAbs : Int) - sgn ref * i) * 1000) strong
  let d := clampI 0 (roundDiv (98 * one24) 100) (k.d + roundDiv ((kp : Int) * (e - k.ePrev) + ki * e) 256)
  let big : Bool := decide (((oc * iStrong : Nat) : Int) * one24 < (i.natAbs : Int) * 100000)
  let weak : Bool := decide (4 * i.natAbs < ref.natAbs) && decide (9 * one24 ≤ 10 * d) &&
    decide ((iQuiet : Int) * one24 ≤ (ref.natAbs : Int) * 2000)
  let ocRun := if big then k.ocRun + 1 else 0
  let openRun := if weak then k.openRun + 1 else 0
  ({ k with i := i, d := d, ePrev := e, off := big, ocRun := min 3 ocRun, openRun := min 64 openRun }, big, decide (64 ≤ openRun))

/-- SLED_PWM_SAMPLE of a carriage with the codes of both coils. -/
def sledSampleEff (c code1 code2 : Nat) (s : State) : State :=
  let m := carOfS s c
  if !m.gates then s
  else
    let q := sledM s c
    let kp := getF s (cfld Fld.CRG_CUR_CFG_KP_C c)
    let ki := getF s (cfld Fld.CRG_CUR_CFG_KI_C c)
    let oc := getF s (cfld Fld.CRG_CUR_CFG_OC_PCT c)
    let r := coilTargets s c
    let a := coilStep kp ki oc q.iQuiet q.iStrong r.1 (coilCurrent s c code1) m.coil1
    let b := coilStep kp ki oc q.iQuiet q.iStrong r.2 (coilCurrent s c code2) m.coil2
    let s := modCar c (fun m => { m with coil1 := a.1, coil2 := b.1, iRef1 := r.1, iRef2 := r.2 }) s
    let s := if a.2.1 then crgBump c 10 s else s
    let s := if b.2.1 then crgBump c 10 s else s
    if a.1.ocRun = 3 || b.1.ocRun = 3 then coilFault Fld.CRG_EVT_COIL_OC c s
    else if a.2.2 || b.2.2 then coilFault Fld.CRG_EVT_COIL_OPEN c s
    else s

/-! ### Steps and modes (R312, R316) -/

/-- Step size in u. -/
def stepQ (m : CarMotion) : Nat := if m.strong then 16 else 1

/-- MODE_CHANGE at a full-step boundary (R312); homing is quiet (R317). -/
def modeCheck (c : Nat) (s : State) : State :=
  let m := carOfS s c
  let q := sledM s c
  let fast (n : Nat) : Bool := decide ((n * 25 : Nat) * um ≤ (m.v.natAbs : Int))
  if m.p % 256 ≠ 0 then s
  else if m.st = .homing then (if m.strong then crgBump c 9 (modCar c (fun m => { m with strong := false }) s) else s)
  else if !m.strong && fast q.modeThresh then crgBump c 8 (modCar c (fun m => { m with strong := true }) s)
  else if m.strong && !fast (q.modeThresh - q.modeHyst) then crgBump c 9 (modCar c (fun m => { m with strong := false }) s)
  else s

/-- One microstep in the direction of v. -/
def stepOne (c : Nat) (s : State) : State :=
  let m := carOfS s c
  let s := modCar c (fun m => { m with p := m.p + sgn m.v * stepQ m, lastStep := s.pwr.ticks }) s
  if m.v = 0 then s else modeCheck c s

/-- The interval to the next step and the carried fraction (R316); 0 where the formula is not used. -/
def stepInterval (m : CarMotion) : Nat × Nat :=
  let q := stepQ m
  let v := m.v.natAbs
  -- vs below q × 1,000 u/s
  if v * 256 < q * 1000 * 25 * 4294967296 then (0, 0)
  else
    let c1 : Int := roundDiv ((q * 2500000000 * 0x100000000000000 : Nat) : Int) v
    let c2 : Int := roundDiv (m.a * sgn m.v * ((q * q * (25 * 16777216) ^ 2 * 100000000 : Nat) : Int) * 4294967296) (2 * v ^ 3)
    let c := c1 - c2 + m.frac
    (max 128 (c / 4294967296).toNat, (c % 4294967296).toNat)

/-- Loads the step timer. -/
def loadTimer (c : Nat) (s : State) : State :=
  modCar c (fun m => let r := stepInterval m; { m with interval := r.1, frac := r.2 }) s

/-- STEP_TIMER_EXPIRY: a microstep is issued and the next interval loaded. -/
def stepTimerEff (c : Nat) (s : State) : State :=
  let m := carOfS s c
  if m.gates && m.interval ≠ 0 && m.v ≠ 0 then loadTimer c (stepOne c s) else s

/-- Whether x has passed p + q in the direction of v. -/
def passedStep (m : CarMotion) : Bool :=
  let q : Int := stepQ m
  if 0 < m.v then decide (uToX (m.p + q) ≤ m.x) else if m.v < 0 then decide (m.x ≤ uToX (m.p - q)) else false

/-! ### The profile generator (R313 to R315) -/

/-- Limits in force: V_MAX, A_MAX and J_MAX in 2^−32 µm units; homing sets its own speed (R317). -/
def vLimit (s : State) (c : Nat) : Int :=
  let m := carOfS s c
  let v : Nat := (sledM s c).vMax
  let h : Nat := if m.homeStep ≤ 2 then 1000 else if m.homeStep = 3 then 5000 else 500
  (if m.st = .homing then min v h else v : Nat) * um

/-- The target of the profile (R313), clamped to 0 to STROKE_LIMIT but for the steps of homing (R318). -/
def profileTarget (s : State) (c : Nat) : Int :=
  let m := carOfS s c
  let q := sledM s c
  let lim := (q.strokeLimit : Int) * um
  let far := 4 * lim + 4000 * um
  match m.st with
  | .follow => clampI 0 lim ((nth s.mot.sledTarget c + sledOffset s c) * 256000)
  | .fine => clampI 0 lim ((nth s.mot.sledTarget c + sledOffset s c) * 256000)
  | .homing =>
    if m.homeStep = 1 || m.homeStep = 5 then m.homeFrom + far
    else if m.homeStep = 3 then m.homeFrom - far
    else m.tgt
  | .idle => match m.moveTarget with | some t => clampI 0 lim t | none => m.tgt
  | _ => clampI 0 lim m.tgt

/-- The stopping branch's peak deceleration (R314), from w in 2^−32 µm/s. -/
def peakDecel (w aMax jMax : Int) : Int :=
  if w ≤ 0 then 0
  else if aMax * aMax ≤ w * jMax then aMax
  else (sqrtN (jMax * w).toNat : Nat)

/-- stop_dist(vg, ag) of R314 by its three phases, times in 2^−40 s. Where w is not positive the acceleration alone
returns to 0. -/
def stopDist (vg ag aMax jMax : Int) : Int :=
  let T : Nat := 0x10000000000
  let w := vg + roundDiv (ag * ag.natAbs) (2 * jMax.toNat)
  let dist (v a j t : Int) : Int :=
    roundDiv (v * t) T + roundDiv (a * t * t) (2 * T * T) + roundDiv (j * t * t * t) (6 * T * T * T)
  if jMax ≤ 0 then 0
  else if w ≤ 0 then dist vg ag jMax (roundDiv (-ag * T) jMax.toNat)
  else
    let ap := peakDecel w aMax jMax
    if ap ≤ 0 then 0
    else
      let t1 := roundDiv ((ag + ap) * T) jMax.toNat
      let t2 := max 0 (roundDiv ((w - roundDiv (ap * ap) jMax.toNat) * T) ap.toNat)
      let t3 := roundDiv (ap * T) jMax.toNat
      let v1 := vg + roundDiv (ag * t1) T - roundDiv (jMax * t1 * t1) (2 * T * T)
      let v2 := v1 - roundDiv (ap * t2) T
      dist vg ag (-jMax) t1 + dist v1 (-ap) 0 t2 + dist v2 (-ap) jMax t3

/-- One step of x, v and a under a jerk (R314), h = 10 µs. -/
def advance (jerk : Int) (m : CarMotion) : CarMotion :=
  { m with x := m.x + roundDiv (m.v * 60000000000 + m.a * 300000 + jerk) 6000000000000000,
           v := m.v + roundDiv (m.a * 200000 + jerk) 20000000000, a := m.a + roundDiv jerk 100000 }

/-- One tick of the law of R314; the truth value says that a stop for a reversal ended and a new move began. -/
def profileLaw (tgt tol vMax aMax jMax : Int) (m : CarMotion) : CarMotion × Bool :=
  let d := tgt - m.x
  if !m.moving && decide ((d.natAbs : Int) ≤ tol) then ({ m with reversing := false }, false)
  else
    let turned := !m.moving && m.reversing
    let m := { m with moving := true, reversing := m.reversing && m.moving }
    let g := if m.v ≠ 0 then sgn m.v else if m.a ≠ 0 then sgn m.a else sgn d
    let vg := g * m.v
    let ag := g * m.a
    let w := vg + roundDiv (ag * ag.natAbs) (2 * jMax.toNat)
    let ap := peakDecel w aMax jMax
    let sd := stopDist vg ag aMax jMax
    let stopping := decide (g * d ≤ sd)
    let jk : Int :=
      if stopping then
        if decide (ag < 0) && decide (vg * 2 * jMax ≤ ag * ag) then min jMax (-ag * 100000)
        else if -ap < ag then max (-jMax) ((-ap - ag) * 100000)
        else 0
      else
        let ar := if w < vMax then aMax else 0
        clampI (-jMax) jMax ((ar - ag) * 100000)
    let back := stopping && decide (g * d + tol < sd)
    let m := advance (g * jk) { m with stopping := stopping, reversing := (m.reversing && stopping) || back }
    let m := if vMax < (m.v.natAbs : Int) then { m with v := sgn m.v * vMax, a := 0 } else m
    let m := if stopping && m.a = 0 && decide ((m.v.natAbs : Int) * 10000000000 ≤ jMax) then { m with v := 0, moving := false } else m
    (m, turned)

/-! ### Seeks and jumps (R319 to R325) -/

/-- The sled target of a seek in 2^−32 µm (R320). -/
def seekTarget (s : State) (c turn : Nat) : Int :=
  let hr := bits (getReg s (Reg.CRG_HOME_RADIUS + 0x200 * c)).toNat 0 16
  (24000 - (hr : Int)) * um + roundDiv (((bandBase c + 8 * turn + 4 : Nat) : Int) * um) 5

/-- The present layer of a carriage. -/
def layerOf (m : CarMotion) : Nat := m.lf % 16

/-- A layer jump from layer l to layer l' (R323); without focus lock λ is set at once. -/
def startLayerJump (c l l' : Nat) (s : State) : State :=
  let lf := 16 * carSide c + l'
  if l = l' then modCar c (fun m => { m with lf := lf }) s
  else if kindActive s 1 c then
    crgBump c 2 (modCar c (fun m => { m with
      lf := lf, jump := some { turn := false, from_ := (l : Int) * one24, tgt := (l' : Int) * one24, dur := jumpDur s c (max (l - l') (l' - l)) } }) s)
  else modCar c (fun m => { m with lf := lf, jumpPhase := (l' : Int) * one24 }) s

/-- Enters SEEK with a seek (Table 10-3, R322): masks held, the sled loop kept off, a layer jump if LF differs. -/
def enterSeek (c : Nat) (k : Seek) (s : State) : State :=
  let m := carOfS s c
  -- a pass after a seek does not directly follow the last one (R202, R204)
  let s := modWcar c (fun w => { w with lastEnd := none, preRead := none }) s
  let s := sledLoop c false (holdMasks c s)
  let t := seekTarget s c k.turn
  let l := match m.jump with | some j => (j.tgt / one24).toNat | none => layerOf m
  let s := modCar c (fun m => { m with st := .seek, seek := some k, pending := none, tgt := t, moveTarget := none }) s
  startLayerJump c l (k.lf % 16) s

/-- Starts a pending seek once nothing holds it. -/
def seekCheck (c : Nat) (s : State) : State :=
  let m := carOfS s c
  match m.pending with
  | none => s
  | some k =>
    if (m.st = .idle || m.st = .follow) && !inPass (wcar s c) then enterSeek c k s
    else if m.st = .unhomed && isOwner s && ust s (uCar c) ≠ .faulted then startHoming c s
    else s

/-- A seek to a layer-face of the carriage's side and a turn from 0 to 10,624 (SEEK_REQUEST). -/
def seekEff (c lf turn : Nat) (s : State) : State :=
  if lf / 16 ≠ carSide c || 10624 < turn then s
  else
    let k : Seek := { lf := lf, turn := turn, start := s.pwr.time }
    let m := carOfS s c
    match m.st with
    | .fault => s
    | .seek => enterSeek c k s
    | .settle => enterSeek c k s
    | .capture => enterSeek c k s
    | .fine => enterSeek c k s
    | _ => seekCheck c (modCar c (fun m => { m with pending := some k }) s)

/-- A seek that ran out of retries (Table 10-3). -/
def seekFail (c : Nat) (s : State) : State :=
  let s := crgBump c 6 (crgEvt Fld.CRG_EVT_SEEK_FAIL c s)
  let s := modCar c (fun m => { m with st := .idle, tgt := m.x, seek := none, jump := none }) (releaseMasks c s)
  carriageLost c s

/-- Retries left. -/
def retriesLeft (s : State) (c : Nat) (k : Seek) : Bool := decide (k.retry < getF s (cfld Fld.CRG_SEEK_CFG_RETRIES c))

/-- SEEK with one more retry: a layer jump from the layer found, the sled target corrected (Table 10-3). -/
def seekRetry (c : Nat) (k : Seek) (foundLf : Option Nat) (dTurn : Int) (s : State) : State :=
  if !retriesLeft s c k then seekFail c s
  else
    let s := crgBump c 5 s
    let s := modCar c (fun m => { m with
      st := .seek, seek := some { k with retry := k.retry + 1, moved := false }, tgt := m.tgt + roundDiv (dTurn * 8 * um) 5 }) s
    match foundLf with
    | some lf => startLayerJump c (lf % 16) (k.lf % 16) s
    | none => s

/-- SEEK ends with the profile at rest and no jump running (Table 10-3). -/
def seekRest (c : Nat) (s : State) : State :=
  let m := carOfS s c
  match m.st, m.seek with
  | .seek, some k =>
    if !m.moving && m.jump.isNone then modCar c (fun m => { m with st := if k.moved then .settle else .capture }) s else s
  | _, _ => s

/-- SEEK_SETTLE_DONE. -/
def settleDoneEff (c : Nat) (s : State) : State :=
  if (carOfS s c).st = .settle then modCar c (fun m => { m with st := .capture }) s else s

/-- The turn whose TRACK_TARGET at the present wedge lies nearest to ply_centre (R325). -/
def nearestTurn (c wedge : Nat) (ply : Int) : Nat :=
  let base := roundDiv (((bandBase c + 4 : Nat) : Int) * one24) 5 + roundDiv ((wedge : Int) * 16 * one24) 960
  (roundDiv ((ply - base) * 5) (8 * 0x1000000)).toNat

/-- The layer-face that at least four strands read with a right CHK at the last wedge. -/
def agreedLF (m : CarMotion) : Option Nat :=
  let lfs := m.addrs.filterMap (fun a => a.map aLF)
  (List.range 32).find? (fun l => decide (4 ≤ (lfs.filter (· == l)).length))

/-- CAPTURE at a wedge (R325). -/
def captureEff (c : Nat) (s : State) : State :=
  let m := carOfS s c
  match m.st, m.seek, m.ply, agreedLF m with
  | .capture, some k, some ply, some lf =>
    let t0 := nearestTurn c m.wedge ply
    let hr := bits (getReg s (Reg.CRG_HOME_RADIUS + 0x200 * c)).toNat 0 16
    let gap := (24000 - (hr : Int)) * um + ply * 256 - m.x
    let lim := (getF s (cfld Fld.CRG_SEEK_CFG_SLIP_LIM c) * 10 : Nat) * um
    let slip := m.forceSlip || decide (lim < (gap.natAbs : Int))
    let dT : Int := (k.turn : Int) - t0
    let s := modCar c (fun m => { m with jumpPhase := ((lf % 16 : Nat) : Int) * one24, lf := lf, forceSlip := false }) s
    let s := setF (cfld Fld.CRG_CTRL_FORCE_SLIP c) 0 s
    if slip then
      let s := crgBump c 7 (crgEvt Fld.CRG_EVT_SLIP c s)
      if retriesLeft s c k then
        let s := releaseMasks c (crgBump c 5 s)
        seekCheck c (modCar c (fun m => { m with
          st := .unhomed, homed := false, seek := none, pending := some { k with retry := k.retry + 1, moved := false } }) s)
      else seekFail c s
    else if lf ≠ k.lf then seekRetry c k (some lf) 0 s
    else if getF s (cfld Fld.CRG_SEEK_CFG_FINE_TURNS c) < dT.natAbs then seekRetry c k none dT s
    else sledLoop c true (modCar c (fun m => { m with st := .fine, turn := t0 }) (releaseMasks c s))
  | _, _, _, _ => s

/-- CAPTURE_TIMEOUT. -/
def captureTimeoutEff (c : Nat) (s : State) : State :=
  let m := carOfS s c
  match m.st, m.seek with
  | .capture, some k => seekRetry c k none 0 s
  | _, _ => s

/-- FINE_DONE: the followed turn reached the seek's. -/
def fineDoneEff (c : Nat) (s : State) : State :=
  let m := carOfS s c
  match m.st, m.seek with
  | .fine, some k =>
    if m.turn ≠ k.turn then s
    else
      let us := min 0xFFFFFF ((s.pwr.time - k.start) / 1000)
      let s := setReg (Reg.CRG_SEEK_LAST + 0x200 * c)
        (BitVec.ofNat 32 ((if k.reversal then 0x80000000 else 0) + (k.retry % 16) * 0x1000000 + us)) s
      let s := crgBump c 0 (crgEvt Fld.CRG_EVT_SEEK_DONE c s)
      seekCheck c (carReadyCheck c (modCar c (fun m => { m with st := .follow, seek := none }) s))
  | _, _ => s

/-- LAYER_JUMP_DONE: the jump reached its duration and LJ_SETTLE passed. -/
def layerJumpDoneEff (c : Nat) (s : State) : State :=
  match (carOfS s c).jump with
  | some j => if !j.turn && j.settling then seekRest c (modCar c (fun m => { m with jump := none, jumpPhase := j.tgt }) s) else s
  | none => s

/-- TURN_JUMP (R324): in FOLLOW alone, over D_turn in base periods of 2.5 µs; every tracking measurement but
PLY_POS_ERR is held. -/
def startTurnJump (c : Nat) (s : State) : State :=
  let m := carOfS s c
  if m.st ≠ .follow || m.jump.isSome then s
  else
    let n := max 1 (nRpm (spn s))
    let dur := getF s Fld.WRP_PASS_CFG_TURN_JUMP * 125000 / n
    let s := match slotOfKind s 2 c with
      | some k =>
        let mask := match recOf s k with
          | some l => (List.range l.nMeas).foldl (fun a j => if l.measSrc.getD j 0 = 8 then a else a + 2 ^ j) 0
          | none => 0
        engineMask k mask s
      | none => s
    crgBump c 3 (modCar c (fun m => { m with jump := some { turn := true, from_ := 0, tgt := one24, dur := dur } }) s)

/-- TURN_JUMP_DONE. -/
def turnJumpDoneEff (c : Nat) (s : State) : State :=
  match (carOfS s c).jump with
  | some j =>
    if j.turn && decide (j.dur ≤ j.age) then
      let s := match slotOfKind s 2 c with | some k => engineMask k 0 s | none => s
      modCar c (fun m => { m with jump := none, nTurn := 0, turn := m.turn - 1 }) s
    else s
  | none => s

/-! ### Homing (R317, R318) -/

/-- Homing fails (R317 step 2): no edge within STROKE_LIMIT + 1,000 µm of travel. -/
def homingFailEff (c : Nat) (s : State) : State :=
  let m := carOfS s c
  let lim := (((sledM s c).strokeLimit + 1000 : Nat) : Int) * um
  if m.st = .homing && m.homeStep = 3 && decide (lim ≤ ((m.x - m.homeFrom).natAbs : Int)) then
    let s := sledOff c (crgEvt Fld.CRG_EVT_HOME_FAIL c s)
    change (uCar c) .faulted .drive (modCar c (fun m => { m with st := .fault }) s)
  else s

/-- The edge latched (R317 steps 4 and 5): p_e to 1/256 u, subtracted from x and, in whole u, from p. -/
def homeLatch (c : Nat) (s : State) : State :=
  let m := carOfS s c
  let q : Int := stepQ m
  let el : Int := if m.interval = 0 then 0
    else roundDiv (256 * q * sgn m.v * ((s.pwr.ticks - m.lastStep : Nat) : Int)) m.interval
  let pe := 256 * m.p + el
  let s := setReg (Reg.CRG_HOME_LATCH + 0x200 * c) (BitVec.ofNat 32 (unsigned 26 pe)) s
  let s := modCar c (fun m => { m with
    p := m.p - pe / 256, x := m.x - pe * 25 * 65536, st := .idle, homed := true, homeStep := 0, moveTarget := m.afterHome, afterHome := none,
    tgt := m.x - pe * 25 * 65536, reversing := false }) s
  seekCheck c s

/-- HOME_EDGE: the switch became active or inactive. -/
def homeEdgeEff (c : Nat) (active : Bool) (s : State) : State :=
  let m := carOfS s c
  let s := modCar c (fun m => { m with home := active }) s
  if m.st = .homing then
    if m.homeStep = 1 && !active then modCar c (fun m => { m with homeStep := 2, tgt := m.x + 500 * um }) s
    else if m.homeStep = 3 && active then modCar c (fun m => { m with homeStep := 4, tgt := m.x }) s
    else if m.homeStep = 5 && !active then homeLatch c s
    else s
  else if active && m.homed && decide (5120 < m.p) then
    let s := crgBump c 11 (crgEvt Fld.CRG_EVT_HOME_UNEXPECTED c s)
    let keep := match m.seek with | some k => some k | none => m.pending
    seekCheck c (modCar c (fun m => { m with
      homed := false, st := if m.st = .fault then .fault else .unhomed, seek := none, pending := keep, jump := none, tgt := m.x,
      v := 0, a := 0, moving := false }) (releaseMasks c s))
  else s

/-- What a rest of the profile means to homing: step 2 goes on inward, step 4 outward. -/
def homingRest (c : Nat) (s : State) : State :=
  let m := carOfS s c
  if m.st = .homing && !m.moving then
    if m.homeStep = 2 then modCar c (fun m => { m with homeStep := 3, homeFrom := m.x }) s
    else if m.homeStep = 4 then modCar c (fun m => { m with homeStep := 5, homeFrom := m.x }) s
    else s
  else s

/-! ### The tick -/

/-- PROFILE_TICK of a carriage: one tick of the law, the steps it asks for, a rest, and what waits on it. -/
def profileTickEff (c : Nat) (s : State) : State :=
  let m := carOfS s c
  if !m.gates || m.st = .unhomed || m.st = .fault then s
  else
    let q := sledM s c
    let tol := (getF s (cfld Fld.CRG_SEEK_CFG_REV_TOL c) * 25 : Nat) * um
    let tol := if m.st = .homing then 0 else tol
    let r := profileLaw (profileTarget s c) tol (vLimit s c) (q.aMax * 1000 * um) (q.jMax * 1000 * um) m
    let s := modCar c (fun _ => r.1) s
    let s := if r.2 then
        crgBump c 1 (crgEvt Fld.CRG_EVT_REVERSAL c (modCar c (fun m => { m with seek := m.seek.map (fun k => { k with reversal := true }) }) s))
      else s
    let s := if r.1.moving then modCar c (fun m => { m with seek := m.seek.map (fun k => { k with moved := true }) }) s else s
    let s := if passedStep (carOfS s c) then
        loadTimer c (modCar c (fun m => { m with frac := 0 }) (stepOne c s))
      else if (carOfS s c).interval = 0 then loadTimer c s else s
    let s := if !r.1.moving && r.1.strong then crgBump c 9 (modCar c (fun m => { m with strong := false, interval := 0 }) s) else s
    let s := if !r.1.moving then modCar c (fun m => { m with interval := 0 }) s else s
    seekCheck c (seekRest c (homingRest c s))

/-! ### CRG_CMD and CRG_CTRL -/

/-- Whether CRG_CMD acts: the carriage held in SERVICE by a UNIT_REQUEST and no calibration (R333, R481). -/
def crgServes (s : State) (c : Nat) : Bool := ust s (uCar c) = .service && !(unitOf s (uCar c)).hold

/-- CRG_CMD as written: stored, and acted on once in SERVICE; then CMD reads 0. -/
def crgCmdEff (c : Nat) (act : State → State) (s : State) : State :=
  let s := setF (cfld Fld.CRG_CMD_CMD c) 0 s
  if crgServes s c then act s else crgEvt Fld.CRG_EVT_CMD_REFUSED c s

/-- HOME and MOVE. -/
def homeCmd (c : Nat) (s : State) : State :=
  let m := carOfS s c
  if m.st = .fault || !isOwner s then s
  else startHoming c (modCar c (fun m => { m with seek := none, jump := none }) (releaseMasks c s))

def moveCmd (c : Nat) (s : State) : State :=
  let m := carOfS s c
  let t := (bits (getReg s (Reg.CRG_MOVE_TARGET + 0x200 * c)).toNat 0 15 : Nat) * um
  match m.st with
  | .unhomed => if isOwner s then startHoming c (modCar c (fun m => { m with afterHome := some t }) s) else s
  | .homing => modCar c (fun m => { m with afterHome := some t }) s
  | .idle => modCar c (fun m => { m with moveTarget := some t }) s
  | _ => s

/-- CRG_CTRL.CLR_FAULT (Table 10-3). -/
def crgClrFaultEff (c : Nat) (s : State) : State :=
  let st := ust s (uCar c)
  if (carOfS s c).st = .fault && (st = .service || st = .offline) then modCar c (fun m => { m with st := .unhomed, homed := false }) s else s

/-- CRG_CTRL.FORCE_SLIP (R333). -/
def crgForceSlipEff (c : Nat) (s : State) : State :=
  setF (cfld Fld.CRG_CTRL_FORCE_SLIP c) 1 (modCar c (fun m => { m with forceSlip := true }) s)

end Sys2Proof.Machine
end

