-- ==== Sys2Proof/Machine/Dsp.lean ====
section
/-! DEFINITION. The signal path and the codes as functions: correction and timing loops, equaliser and ply canceller,
the soft detector, sync search, the LDPC decoder, the scrambler and the sector's metadata (R94, R95, R123 to R133,
R142, R147 to R150, R153, R158 to R165). -/

namespace Sys2Proof.Machine

/-! ### Seeds (Table 04-6) -/

/-- A signed byte of a seed. -/
def seedI (seed : List Byte) (o : Nat) : Int := signed 8 ((seed.getD o 0).toNat)

/-- An unsigned byte of a seed. -/
def seedN (seed : List Byte) (o : Nat) : Nat := (seed.getD o 0).toNat

/-- n signed bytes from o. -/
def seedRow (seed : List Byte) (o n : Nat) : List Int := (List.range n).map (fun i => seedI seed (o + i))

/-- TARGET of a seed. -/
def seedTarget (seed : List Byte) : List Int := seedRow seed 0x24 5

/-! ### Correction loops and timing (R123, R124, R126, R127) -/

/-- Stage 4 of one ADC sample: offset, asymmetry in 1/128, rounding and saturation (R123). -/
def correct (ofs asym x : Int) : Int :=
  let x' := x - ofs
  clampI (-128) 127 (roundDiv (x' * (if 0 ≤ x' then 128 + asym else 128 - asym)) 128)

/-- One update of the three loops from the envelopes (R124). Where both envelopes are 0 the spec states no asymmetry
step, and free stands for it. -/
def loopStep (agc seed : Nat × Nat × Nat × Nat × Nat × Nat) (free : Int) (st : Int × Int × Int) (e : Int × Int × Bool) :
    Int × Int × Int :=
  let (ref, span, acqS, trkS, ofsS, asymS) := agc
  let vgaSeed : Int := seed.1
  let s := if e.2.2 then acqS else trkS
  let top := e.1
  let bot := e.2.1
  let vga := clampI (max 0 (vgaSeed - span)) (min 240 (vgaSeed + span)) (st.1 - roundDiv (top - bot - 2 * ref) (2 * 2 ^ s))
  let ofs := clampI (-64) 63 (st.2.1 + roundDiv (top + bot) (2 * 2 ^ ofsS))
  let den := bot.natAbs + top
  let da := if den ≤ 0 then free else roundDiv (128 * (bot.natAbs - top)) (den.toNat * 2 ^ asymS)
  (vga, ofs, clampI (-32) 32 (st.2.2 + da))

/-- step_seed of R126 for zone z at n̂ in rpm × 2^24; 0 below any rotation. -/
def stepSeed (z : Nat) (nHat : Int) : Nat :=
  let n := nHat.toNat
  let den := segBits z * 96 * n * 3
  if den = 0 then 0 else (roundDiv ((0x100000 * 3200000000 * 60 * 987 * 0x1000000 : Nat) : Int) (den * 1000)).toNat

/-- nu of R127 over the bits of a slot, in 2^−24, with the longest run at a limit. -/
def nuRun (lim : Int) (kiAcq kiTrk : Nat) : Int → Nat → Nat → List (Int × Bool) → Int × Nat
  | nu, _, best, [] => (nu, best)
  | nu, run, best, (e, acq) :: es =>
    let nu := clampI (-lim) lim (nu + roundDiv e (2 ^ (if acq then kiAcq else kiTrk)))
    let run := if nu = lim || nu = -lim then run + 1 else 0
    nuRun lim kiAcq kiTrk nu run (max best run) es

/-! ### Equaliser and canceller (R131 to R134) -/

/-- The taps of a strand: equaliser in Q2.12, both canceller rows in Q1.12. -/
structure Taps where
  eq : List Int := []
  lt : List Int := []
  rt : List Int := []
  deriving DecidableEq, Repr, Inhabited

/-- The taps that a seed gives (R131, R133). -/
def seedTaps (seed : List Byte) : Taps where
  eq := (seedRow seed 8 17).map (· * 64)
  lt := (seedRow seed 0x1A 5).map (· * 32)
  rt := (seedRow seed 0x1F 5).map (· * 32)

/-- The replay equaliser's identity (R153). -/
def unitTaps (t : Taps) : Taps := { t with eq := (List.range 17).map (fun i => if i = 8 then 4096 else 0) }

/-- A sample at stream position p of a list that begins at position from_. -/
def sampleAt (l : Array Int) (from_ p : Int) : Int := if p < from_ then 0 else l.getD (p - from_).toNat 0

/-- Whether stream position p lies in an erasure span. -/
def inRuns (runs : List (Nat × Nat)) (p : Int) : Bool :=
  runs.any (fun r => decide ((r.1 : Int) ≤ p) && decide (p < r.1 + r.2))

/-- Stage 7 at position k: the sum of R131, scaled by sc, saturated to ±31. -/
def stage7 (sc : Int → Int) (t : Taps) (x : Array Int) (from_ k : Int) : Int :=
  clampI (-31) 31 (sc (sumI ((List.range 17).map (fun i => nth t.eq i * sampleAt x from_ (k + 8 - i)))))

/-- Stage 8 at position n (R133): the neighbours' stage 7 outputs yL and yR with their offsets dl and dr. -/
def stage8 (t : Taps) (y : Int) (yL yR : Array Int) (from_ dl dr n : Int) : Int :=
  let row (taps : List Int) (ys : Array Int) (d : Int) : Int :=
    sumI ((List.range 5).map (fun (j : Nat) => nth taps j * sampleAt ys from_ (n + d + (j : Int) - 2)))
  clampI (-31) 31 (y - roundDiv (row t.lt yL dl + row t.rt yR dr) 4096)

/-- What a pass over a slot carries: the taps, stage 7 and stage 8 outputs and tentative decisions so far, newest
first, and the squared error over the body with its count. -/
structure Pass where
  taps : Taps
  ys : List Int := []
  zs : List Int := []
  as_ : List Bool := []
  sse : Nat := 0
  count : Nat := 0
  deriving Inhabited

/-- The steps and choices of a pass: both LMS steps (0 freezes), the target, the two offsets, whether each neighbour's
term is in use, and the scale of stage 7. -/
structure PassCfg where
  eqMu : Nat
  xtMu : Nat
  target : List Int
  dl : Int
  dr : Int
  left : Bool
  right : Bool
  scale : Int → Int

/-- One position of stages 7 and 8 with adaptation from body bit 0 on, frozen in erasures (R131 to R134). -/
def passStep (c : PassCfg) (runs : List (Nat × Nat)) (x yL yR : Array Int) (from_ : Int) (p : Pass) (k : Int) : Pass :=
  let y := stage7 c.scale p.taps x from_ k
  let yL := if c.left then yL else #[]
  let yR := if c.right then yR else #[]
  let z := stage8 p.taps y yL yR from_ c.dl c.dr k
  let zs := z :: p.zs
  let as_ := Config.slicer c.target zs :: p.as_
  let ideal := sumI ((List.range 5).map (fun i => nth c.target i * (if as_.getD i false then 1 else -1)))
  let err := roundDiv (4 * z - ideal) 4
  if k < 384 || 38800 ≤ k || inRuns runs k then { p with ys := y :: p.ys, zs := zs, as_ := as_ }
  else
    let eq := if c.eqMu = 0 then p.taps.eq else (List.range 17).map (fun i =>
      if i = 8 then nth p.taps.eq 8 else nth p.taps.eq i - Config.lmsStep c.eqMu err (sampleAt x from_ (k + 8 - i)))
    let row (taps : List Int) (ys : Array Int) (d : Int) (on : Bool) : List Int :=
      if c.xtMu = 0 || !on then taps
      else (List.range 5).map (fun (j : Nat) => nth taps j + Config.lmsStep c.xtMu err (sampleAt ys from_ (k + d + (j : Int) - 2)))
    { taps := { eq := eq, lt := row p.taps.lt yL c.dl c.left, rt := row p.taps.rt yR c.dr c.right },
      ys := y :: p.ys, zs := zs, as_ := as_, sse := p.sse + (err * err).toNat, count := p.count + 1 }

/-- The positions of a record: −32 to 38,783 (R151), and on to the slot's end. -/
def passPositions : List Int := (List.range 38848).map (fun n => (n : Int) - 32)

/-- Stages 7 and 8 over a whole slot. -/
def runPass (c : PassCfg) (taps : Taps) (runs : List (Nat × Nat)) (x yL yR : Array Int) (from_ : Int) : Pass :=
  passPositions.foldl (passStep c runs x yL yR from_) { taps := taps }

/-! ### Soft detector (R158 to R160) -/

/-- ln(n) in 2^−32 for n from 1 on, by the series of atanh. -/
def lnNat (n : Nat) : Int :=
  let k := Nat.log2 n
  let t : Int := (((n - 2 ^ k) * 0x100000000 / (n + 2 ^ k) : Nat) : Int)
  let t2 := t * t / 0x100000000
  let s := (2 : Int) ^ 32 / 11
  let s := (2 : Int) ^ 32 / 9 + s * t2 / 0x100000000
  let s := (2 : Int) ^ 32 / 7 + s * t2 / 0x100000000
  let s := (2 : Int) ^ 32 / 5 + s * t2 / 0x100000000
  let s := (2 : Int) ^ 32 / 3 + s * t2 / 0x100000000
  let s := (2 : Int) ^ 32 + s * t2 / 0x100000000
  2 * (t * s / 0x100000000) + k * 2977044472

/-- The noise values of the detector: NP of a seed, or none with NP_OFF (R159). -/
structure NoiseCfg where
  np : List (Int × Nat)
  off : Bool
  target : List Int
  scale : Nat

/-- NP of a seed. -/
def seedNoise (seed : List Byte) : List (Int × Nat) :=
  (List.range 8).map (fun i => (seedI seed (0x2C + 2 * i), seedN seed (0x2D + 2 * i)))

/-- +1 for a mark, −1 for a space. -/
def markI (b : Bool) : Int := if b then 1 else -1

/-- The ideal sample of five bits, newest first, times 4 (R158). -/
def ideal4 (target : List Int) (bs : List Bool) : Int := sumI ((List.range 5).map (fun i => nth target i * markI (bs.getD i false)))

/-- A branch metric in 1/16 (R159) from state st (newest bit lowest) with bit b. -/
def branchMetric (c : NoiseCfg) (z zPrev : Int) (tent5 : Bool) (lam : Int) (st : Nat) (b : Bool) : Int :=
  let p := fun (i : Nat) => st.testBit i
  let now := 4 * z - ideal4 c.target [b, p 0, p 1, p 2, p 3]
  let prv := 4 * zPrev - ideal4 c.target [p 0, p 1, p 2, p 3, tent5]
  let cond := (if b then 4 else 0) + (if p 0 then 2 else 0) + (if p 1 then 1 else 0)
  let e := c.np.getD cond (0, 16)
  let pc : Int := if c.off then 0 else e.1
  let n : Nat := if c.off then 16 else max 1 e.2
  let w := 128 * now - pc * prv
  roundDiv (w * w) (128 * n * n) + roundDiv (16 * (lnNat n - 4 * 2977044472)) (0x100000000) + (if b then 8 * lam else -8 * lam)

/-- A metric no path reaches. -/
def farMetric : Int := 0x1000000000000000

/-- One forward step over the sixteen states. -/
def forwardStep (a : List Int) (m : Nat → Bool → Int) : List Int :=
  (List.range 16).map (fun s' =>
    let b := s'.testBit 0
    let p0 := s' / 2
    min (nth a p0 + m p0 b) (nth a (p0 + 8) + m (p0 + 8) b))

/-- One backward step. -/
def backwardStep (bt : List Int) (m : Nat → Bool → Int) : List Int :=
  (List.range 16).map (fun s =>
    let nx := fun (b : Bool) => (2 * s + (if b then 1 else 0)) % 16
    min (nth bt (nx false) + m s false) (nth bt (nx true) + m s true))

/-- The state lists of a recursion, one per step. -/
def sweep {α : Type} (f : List Int → α → List Int) : List Int → List α → List (List Int)
  | a, [] => [a]
  | a, x :: xs => a :: sweep f (f a x) xs

/-- The detector over body and postamble from body position p (R158 to R160): zs and as_ are stage 8 outputs and
tentative decisions from position from_ on, lam the a-priori values of the body. -/
def detect (c : NoiseCfg) (zs : Array Int) (as_ : Array Bool) (from_ p : Int) (runs : List (Nat × Nat)) (lam : Array Int) : List Int :=
  let n := 38432
  let idx := fun (k : Int) => (p + k - from_).toNat
  let metric := fun (k : Nat) (st : Nat) (b : Bool) =>
    if inRuns runs (p + k) then (0 : Int)
    else branchMetric c (zs.getD (idx k) 0) (zs.getD (idx ((k : Int) - 1)) 0) (as_.getD (idx ((k : Int) - 5)) false) (lam.getD k 0) st b
  let start := (List.range 16).map (fun s => if s = 0 then (0 : Int) else farMetric)
  let fw := (sweep (fun a k => forwardStep a (metric k)) start (List.range n)).toArray
  let bw := (sweep (fun a k => backwardStep a (metric k)) start (List.range n).reverse).toArray
  (List.range 38416).map (fun (k : Nat) =>
    if inRuns runs (p + (k : Int)) then 0
    else
      let a := fw.getD k []
      let bt := bw.getD (n - 1 - k) []
      let best := fun (b : Bool) => ((List.range 16).map (fun s =>
        nth a s + metric k s b + nth bt ((2 * s + (if b then 1 else 0)) % 16))).foldl min farMetric
      let d := best true - best false
      let l := clampI (-31) 31 (roundDiv ((d - 16 * lam.getD k 0) * c.scale) 256)
      if l = 0 then (if 0 ≤ d then 1 else -1) else l)

/-! ### Sync (R147, R148, R150) -/

/-- The sync mark, bit 63 first. -/
def syncPattern : Nat := 0xFFF000F0C7CFC780

/-- Agreement and score at position p: llr gives the LLR at a stream position. -/
def syncAt (llr : Int → Int) (p : Int) : Cand :=
  let one := fun (i : Nat) => syncPattern.testBit (63 - i)
  { pos := p,
    agree := ((List.range 64).filter (fun (i : Nat) => let l := llr (p + (i : Int)); if one i then decide (l < 0) else decide (0 < l))).length,
    score := sumI ((List.range 64).map (fun (i : Nat) => let v := llr (p + (i : Nat)); if one i then -v else v)) }

/-- The order of candidates. -/
def candBefore (centre : Int) (a b : Cand) : Bool :=
  if a.score ≠ b.score then decide (b.score < a.score)
  else
    let da := (a.pos - centre).natAbs
    let db := (b.pos - centre).natAbs
    if da ≠ db then decide (da < db) else decide (a.pos ≤ b.pos)

/-- Insertion into the ordered list. -/
def candIns (centre : Int) (c : Cand) : List Cand → List Cand
  | [] => [c]
  | d :: ds => if candBefore centre c d then c :: d :: ds else d :: candIns centre c ds

/-- search(centre, win, thr) of R147. -/
def syncSearch (llr : Int → Int) (centre : Int) (win thr : Nat) : List Cand :=
  let all := (List.range (2 * win + 1)).map (fun i => syncAt llr (centre - win + i))
  (((all.filter (fun c => decide (thr ≤ c.agree))).foldl (fun l c => candIns centre c l) []).take 3)

/-- The anchor of R148: the position nearest to 320 that lies whole preamble periods of 8 bits from the measured
boundary, a tie to the earlier. -/
def syncAnchor (phase : Int) : Int :=
  let r := (phase - 320) % 8
  if r < 4 then 320 + r else 320 + r - 8

/-- The alternative positions of R150, in order. -/
def trialPositions (cands : List Cand) : List Int :=
  let ds : List Int := [0, -1, 1, -2, 2, -3, 3, -4, 4]
  match cands with
  | [] => []
  | c1 :: _ => (cands.flatMap (fun c => ds.map (fun d => c.pos + d))).foldl
      (fun l p => if p ≠ c1.pos && !l.contains p then l ++ [p] else l) []

/-! ### Scrambler and metadata (R94, R95, Table 03-4) -/

/-- One move of the 31-stage register; the output is stage 30 before it. -/
def scrStep (s : Nat) : Bool × Nat :=
  (s.testBit 30, (2 * s) % 0x80000000 + (if s.testBit 30 != s.testBit 27 then 1 else 0))

/-- Eight output bits, the first lowest. -/
def scrByte (s : Nat) : Nat × Nat :=
  (List.range 8).foldl (fun acc i => let r := scrStep acc.2; (if r.1 then acc.1 + 2 ^ i else acc.1, r.2)) (0, s)

/-- Scrambles bytes from a register state. -/
def scrambleFrom : Nat → List Byte → List Byte
  | _, [] => []
  | s, b :: bs => let r := scrByte s; (b ^^^ BitVec.ofNat 8 r.1) :: scrambleFrom r.2 bs

/-- The scrambler of a member address, its own inverse. -/
def scramble (addr : Nat) (bs : List Byte) : List Byte :=
  let c := crc32c (leBytes 4 addr)
  scrambleFrom ((c % 0x80000000) ||| 1) bs

/-- Fields of a payload's metadata. -/
def mdSkein (p : List Byte) : Nat := leAt p 4096 4
def mdMember (p : List Byte) : Nat := leAt p 4100 1
def mdKind (p : List Byte) : Nat := leAt p 4101 1
def mdRot (p : List Byte) : Nat := leAt p 4102 2
def mdPlace (p : List Byte) (c : Nat) : Nat := leAt p (4104 + 4 * c) 4
def mdVolume (p : List Byte) : Nat := leAt p 4120 1
def mdCflags (p : List Byte) : Nat := leAt p 4121 1

/-- CHECK of a payload: right as R95 and Table 03-4 have it. -/
def mdCheckOk (p : List Byte) : Bool := leAt p 4124 4 == crc32c (p.take 4124)

/-- Stored data turned back by ROT (R100): logical byte j lies at (j + ROT) mod 4,096. -/
def unrotate (rot : Nat) (d : List Byte) : List Byte := let r := rot % 4096; d.drop r ++ d.take r

/-- Logical data stored under a ROT. -/
def rotate (rot : Nat) (d : List Byte) : List Byte := let r := rot % 4096; d.drop (4096 - r) ++ d.take (4096 - r)

/-- The logical data of a payload. -/
def mdData (p : List Byte) : List Byte := unrotate (mdRot p) (p.take 4096)

/-! ### LDPC decoder (R162, R164, R165) -/

/-- A posterior saturated to 8 bits, and a message to 6. -/
def sat8 (x : Int) : Int := clampI (-127) 127 x
def sat6 (x : Int) : Int := clampI (-31) 31 x

/-- The new messages of a check from the extrinsic values of its bits: offset min-sum. -/
def checkMsgs (offset : Nat) (qs : List Int) : List Int :=
  (List.range qs.length).map (fun i =>
    let others := (List.range qs.length).filter (· ≠ i)
    let neg := (others.filter (fun j => decide (nth qs j < 0))).length % 2 == 1
    let mag := others.foldl (fun a j => min a (nth qs j).natAbs) 31
    let v : Int := ((mag - offset : Nat) : Int)
    if neg then -v else v)

/-- One check of a layer: its row, the retained messages, the posteriors. -/
def checkUpdate (offset : Nat) (post : Array Int) (row : List Nat) (msg : List Int) : Array Int × List Int :=
  let qs := (List.range row.length).map (fun i => post.getD (row.getD i 0) 0 - nth msg i)
  let new := (checkMsgs offset qs).map sat6
  ((List.range row.length).foldl (fun p i => p.setIfInBounds (row.getD i 0) (sat8 (nth qs i + nth new i))) post, new)

/-- One inner iteration: the checks in row order, layer after layer. -/
def innerIter (offset : Nat) (post : Array Int) (msgs : List (List Int)) : Array Int × List (List Int) :=
  (List.range 4608).foldl (fun acc r =>
    let u := checkUpdate offset acc.1 (Config.ldpcRow r) (msgs.getD r [])
    (u.1, acc.2 ++ [u.2])) (post, [])

/-- Parity checks not satisfied by the hard decisions. -/
def unsatisfied (post : Array Int) : Nat :=
  ((List.range 4608).filter (fun r => ((Config.ldpcRow r).filter (fun v => decide (post.getD v 0 < 0))).length % 2 == 1)).length

/-- The payload that the hard decisions give, descrambled (R94). -/
def hardPayload (addr : Nat) (post : Array Int) : List Byte :=
  scramble addr ((List.range 4128).map (fun n => BitVec.ofNat 8 ((List.range 8).foldl (fun a i =>
    if post.getD (8 * n + i) 0 < 0 then a + 2 ^ i else a) 0)))

/-- Hard decisions of the channel that differ from the decoded word. -/
def hardDiff (chan post : Array Int) : Nat :=
  ((List.range 37632).filter (fun i => decide (chan.getD i 0 < 0) != decide (post.getD i 0 < 0))).length

/-- Runs inner iterations until the syndrome is zero, the early-failure check ends the pass, or n iterations are done.
efLimit is none where no check is made. -/
def decodeRun (offset addr : Nat) (efLimit : Option Nat) (chan : Array Int) :
    Nat → Nat → Nat → Nat → Array Int → List (List Int) → Decode
  | 0, it, u1, u2, post, msgs =>
    { iters := it, zeroSyndrome := false, unsat1 := u1, unsat2 := u2, msgs := msgs, post := post.toList }
  | n + 1, it, u1, u2, post, msgs =>
    let r := innerIter offset post msgs
    let u := unsatisfied r.1
    let it := it + 1
    let u1 := if it = 1 then u else u1
    let u2 := if it = 2 then u else u2
    if u = 0 then
      { iters := it, zeroSyndrome := true, unsat1 := u1, unsat2 := u2, hdiff := hardDiff chan r.1,
        payload := hardPayload addr r.1, msgs := r.2, post := r.1.toList }
    else match efLimit with
      | some lim => if it = 2 && decide (lim < u) then
          { iters := it, zeroSyndrome := false, unsat1 := u1, unsat2 := u2, early := true, msgs := r.2, post := r.1.toList }
        else decodeRun offset addr efLimit chan n it u1 u2 r.1 r.2
      | none => decodeRun offset addr efLimit chan n it u1 u2 r.1 r.2

/-- Soft combining of three bodies bit by bit (R177). -/
def combineBit (a b c : Int) : Int :=
  let l := [a, b, c].filter (· ≠ 0)
  if l.isEmpty then 0 else sat6 (roundDiv (sumI l) l.length)

/-- The combined body. -/
def combineBodies (a b c : List Int) : List Int := (List.range 38416).map (fun i => combineBit (nth a i) (nth b i) (nth c i))

end Sys2Proof.Machine
end

