-- ==== Sys2Proof/Machine/Channel.lean ====
section
/-! DEFINITION. The strand channels (chapter 04): slots with their seeds and samples, wedges and positions, defects,
zone seeds, and the delivery of a sector's LLRs. -/

namespace Sys2Proof.Machine

/-- A CHN register or field of strand g. -/
def chF (f : Fld) (g : Nat) : Fld := f.at (0x200 * g)
def chR (off g : Nat) : Nat := off + 0x200 * g

/-- Sets a CHN event, which names the strand (R157). -/
def chEvt (f : Fld) (g : Nat) (s : State) : State := evtAt f (0x200 * g) (uStrand g) [⟨1, g⟩] s

/-- Counts of a strand. -/
def chBump (g i n : Nat) (s : State) : State := bumpBy (chR Reg.CHN_CNT g + 4 * i) n s

/-- A field of a word sampled at preamble bit 0 (R121): the registers in the order of cfgRegs. -/
def cfgRegs : List Nat := [Reg.CHN_CTRL, Reg.CHN_FE_CTRL, Reg.CHN_AGC_CFG, Reg.CHN_TR_CFG, Reg.CHN_ADAPT_CFG,
  Reg.CHN_SYNC_CFG, Reg.CHN_DEF_CFG, Reg.CHN_WEDGE_CFG]

/-- The value of a field as sampled. -/
def cfgF (st : StrandSt) (f : Fld) : Nat := wordBits (st.cfg.getD (cfgRegs.idxOf f.off) 0) f.hi f.lo

/-! ### Zone seeds (R135 to R138) -/

/-- The key of a zone in the zone table. -/
def zoneKey (lf zone : Nat) : Nat := 64 * lf + zone

/-- The seed of strand k in a block: its own, or the ROM base image's where STRAND_VALID is clear. -/
def seedOf (b : ZoneBlock) (lf zone k : Nat) : List Byte × SeedSrc :=
  if bit (b.bytes.getD 1 0).toNat k then (slice b.bytes (16 + 64 * k) 64, b.src)
  else (slice (Config.romSeed lf zone) (16 + 64 * k) 64, .rom)

/-- A block of the zone table. -/
def zoneBlock (s : State) (lf zone : Nat) : ZoneBlock := Tbl.get {} (zoneKey lf zone) s.chn.zoneTable

/-- ZONE_SEED_FETCH: the ply fetches a zone's block, of its own side and band (R135, R137). -/
def seedFetchEff (c lf zone : Nat) (s : State) : State :=
  if carOf lf zone = c then
    { s with chn := { s.chn with fetch := modAt c (fun _ => some { lf := lf, zone := zone }) s.chn.fetch } }
  else s

/-- ZONE_SEED_READY: the block asked for arrives. -/
def seedReadyEff (c : Nat) (s : State) : State :=
  match s.chn.fetch.getD c none with
  | some f => { s with chn := { s.chn with fetch := modAt c (fun _ => some { f with block := some (zoneBlock s f.lf f.zone) }) s.chn.fetch } }
  | none => s

/-! ### Slots -/

/-- The neighbour of a strand in its ply serves and is bound (R134): side −1 is the left one. -/
def neighbourServes (s : State) (g : Nat) (right : Bool) : Bool :=
  let k := g % 8
  if right then decide (k < 7) && bound s (uStrand (g + 1)) && serving s (uStrand (g + 1))
  else decide (0 < k) && bound s (uStrand (g - 1)) && serving s (uStrand (g - 1))

/-- Whether a neighbour's canceller term is in use in the present slot (R134). -/
def termUsed (s : State) (g : Nat) (right : Bool) : Bool :=
  neighbourServes s g right && !flag s (chF Fld.CHN_CTRL_XT_OFF g) &&
    !(strandOf s (if right then g + 1 else g - 1)).timingLost

/-- The choices of stages 7 and 8 for a strand. -/
def passCfgOf (s : State) (g : Nat) : PassCfg :=
  let st := strandOf s g
  let off := cfgF st Fld.CHN_CTRL_ADAPT_OFF ≠ 0
  { eqMu := if off then 0 else cfgF st Fld.CHN_ADAPT_CFG_EQ_MU, xtMu := if off then 0 else cfgF st Fld.CHN_ADAPT_CFG_XT_MU,
    target := seedTarget st.seed, dl := if g % 8 = 0 then 0 else -(seedI (strandOf s (g - 1)).seed 5), dr := seedI st.seed 5,
    left := termUsed s g false, right := termUsed s g true, scale := Config.eqOut }

/-- Stages 7 and 8 over the slot that a strand passed. -/
def slotPass (s : State) (g : Nat) (p : SlotPass) : Pass :=
  let st := strandOf s g
  runPass (passCfgOf s g) (seedTaps st.seed) st.runs p.x.toArray p.yL.toArray p.yR.toArray (-64)

/-- The correction loops at the end of the slot (R124): VGA, offset and asymmetry. -/
def loopsEnd (s : State) (g : Nat) (p : SlotPass) : Int × Int × Int :=
  let st := strandOf s g
  let seed : Int × Int × Int := (seedN st.seed 0, seedI st.seed 3, seedI st.seed 4)
  let c := cfgF st
  let agc := (c Fld.CHN_AGC_CFG_AGC_REF, c Fld.CHN_AGC_CFG_AGC_SPAN, c Fld.CHN_AGC_CFG_ACQ_SHIFT,
    c Fld.CHN_AGC_CFG_TRK_SHIFT, c Fld.CHN_AGC_CFG_OFS_SHIFT, c Fld.CHN_AGC_CFG_ASYM_SHIFT)
  let r := if c Fld.CHN_CTRL_ADAPT_OFF ≠ 0 then seed
    else p.env.foldl (loopStep agc (seedN st.seed 0, 0, 0, 0, 0, 0) (signed 8 (Config.freeWord s.free).toNat)) seed
  let vga : Int := if c Fld.CHN_CTRL_AGC_MANUAL ≠ 0 then (c Fld.CHN_FE_CTRL_VGA_MAN : Nat) else if st.blank then seed.1 else r.1
  (vga, r.2)

/-- The length of acquisition in bits (CHN_TR_CFG). -/
def acqLen (st : StrandSt) : Nat := 8 * cfgF st Fld.CHN_TR_CFG_ACQ_LEN8

/-- Stream bits of a slot that precede the next wedge (R129, R130). -/
def bitsToWedge (zone slot : Nat) : Nat := segData zone - (slot * 38816) % segData zone

/-- The slot bit at which acquisition ends (R130). -/
def acqEndOf (st : StrandSt) (zone slot : Nat) : Nat :=
  if st.acqRestart then bitsToWedge zone slot + acqLen st else acqLen st

/-- Erasure spans as a record keeps them: at most 192, the last widened to cover the rest (Table 04-7). -/
def capRuns (rs : List (Nat × Nat)) : List (Nat × Nat) :=
  if rs.length ≤ 192 then rs
  else
    let tail := rs.drop 191
    let lo := (tail.map (·.1)).foldl min 38816
    let hi := (tail.map (fun r => r.1 + r.2)).foldl max 0
    rs.take 191 ++ [(lo, hi - lo)]

/-- Writes the replay record of the slot that ends (R119, R151). -/
def writeRecord (g : Nat) (p : SlotPass) (ps : Pass) (cands : List Cand) (relaxed noSync : Bool) (s : State) : State :=
  let st := strandOf s g
  match st.cur with
  | none => s
  | some (lf, zone, slot) =>
    let mse := if ps.count = 0 then 0 else min 65535 (256 * ps.sse / ps.count)
    let r : ReplayRec := {
      valid := true, pinned := false, lf := lf, zone := zone, slot := slot, blank := st.blank, relaxed := relaxed, noSync := noSync,
      timingLost := st.timingLost, acqRestart := st.acqRestart, wedge := st.wedgeIn, anchor := syncAnchor p.phase, cands := cands,
      mse := mse, runs := capRuns st.runs, stamp := get64 s Reg.SPN_REV_LO, samples := (ps.ys.reverse).take 38816 }
    modStrand g (fun st => { st with records := modAt st.recNow (fun _ => r) st.records, recDone := true }) s

/-- The front-end registers that show the slot that ended: FE_STATUS, TR_STATUS, ACQ_LAST and ENV_LAST. -/
def slotRegs (g : Nat) (p : SlotPass) (s : State) : State :=
  let st := strandOf s g
  match st.cur with
  | none => s
  | some (_, zone, slot) =>
    let l := loopsEnd s g p
    let c := cfgF st
    let ovr := c Fld.CHN_FE_CTRL_CTF_OVR ≠ 0
    let fc := if ovr then c Fld.CHN_FE_CTRL_CTF_FC_OVR else seedN st.seed 1
    let boost := if ovr then c Fld.CHN_FE_CTRL_CTF_BOOST_OVR else seedN st.seed 2
    let lim : Int := roundDiv ((c Fld.CHN_TR_CFG_FREQ_LIM : Int) * one24) 1000
    let nu := nuRun lim (c Fld.CHN_TR_CFG_ACQ_KI) (c Fld.CHN_TR_CFG_TRK_KI) 0 0 0 p.terr
    let step : Int := (getReg s (chR Reg.CHN_NCO_SEED g)).toNat
    let s := setReg (chR Reg.CHN_FE_STATUS g) (BitVec.ofNat 32 (l.1.toNat * 65536 + (fc % 64) * 256 + boost % 16)) s
    let s := setReg (chR Reg.CHN_TR_STATUS g) (BitVec.ofNat 32 ((step + mulQ step nu.1).toNat % 0x1000000)) s
    setReg (chR Reg.CHN_ACQ_LAST g) (BitVec.ofNat 32 ((if st.acqRestart then 0x80000000 else 0) + acqEndOf st zone slot)) s

/-- The end of a slot that was not delivered: its record is written. -/
def finishSlot (g : Nat) (p : SlotPass) (s : State) : State :=
  let st := strandOf s g
  if st.cur.isSome && !st.skip && !st.recDone then
    let s := setF ⟨chR Reg.CHN_ENV_LAST g, 7, 0⟩ p.aref s
    slotRegs g p (writeRecord g p (slotPass s g p) [] false false s)
  else s

/-- The next record of the rotation, pinned ones skipped (R152). -/
def nextRecord (st : StrandSt) : Nat :=
  match ((upFrom (st.recNow + 1) 4).map (· % 4)).find? (fun i => !(st.records.getD i {}).pinned) with
  | some i => i
  | none => st.recNow

/-- SLOT_START at preamble bit 0 of a slot (R120, R121, R137, R142): prev is what the strand saw of the slot that
ended, pre the mean of A_in over the new preamble's bits 64 to 255. -/
def slotStartEff (g lf zone slot pre : Nat) (prev : SlotPass) (s : State) : State :=
  let s := finishSlot g prev s
  let old := strandOf s g
  let s := if old.missNow then setF (chF Fld.CHN_TEST_FORCE_SYNC_MISS g) 0 s else s
  let s := if old.defectNow then setF (chF Fld.CHN_TEST_FORCE_DEFECT g) 0 s else s
  if !reading s g || carOf lf zone ≠ g / 8 then
    modStrand g (fun st => { st with cur := none, skip := true, missNow := false, defectNow := false, defect := false, runs := [] }) s
  else
    let entry := old.inZone ≠ some (lf, zone)
    let blk : Option ZoneBlock := if entry then
        (match s.chn.fetch.getD (g / 8) none with
          | some f => if f.lf = lf && f.zone = zone then f.block else none
          | none => none)
      else some (zoneBlock s lf zone)
    let cfg := cfgRegs.map (fun o => getReg s (chR o g))
    let force := old.forceDefect
    let s := modStrand g (fun st => { st with
      cur := some (lf, zone, slot), cfg := cfg, skip := blk.isNone, timingLost := false, blank := false, held := false,
      defect := force || st.defect, spanFrom := 0, runs := if force then [(0, 38816)] else [], missNow := st.forceMiss,
      defectNow := force, forceMiss := false, forceDefect := false, recDone := false, recNow := nextRecord st }) s
    match blk with
    | none => chEvt Fld.CHN_EVT_ZONE_LATE g s
    | some b =>
      let sd := seedOf b lf zone (g % 8)
      let st := strandOf s g
      let q := bitsToWedge zone slot
      let blankNow := pre * 32 < cfgF st Fld.CHN_AGC_CFG_AGC_REF * cfgF st Fld.CHN_DEF_CFG_BLANK_LVL
      let s := setReg (chR Reg.CHN_NCO_SEED g) (BitVec.ofNat 32 (stepSeed zone (spn s).nHat % 0x1000000)) s
      let s := setF ⟨chR Reg.CHN_ENV_LAST g, 23, 16⟩ pre s
      let s := if blankNow then chBump g 5 1 s else s
      modStrand g (fun st => { st with
        seed := sd.1, zoneSrc := sd.2, inZone := some (lf, zone), acqRestart := decide (q < 288 - acqLen st),
        wedgeIn := decide (q < 38816), blank := blankNow, defect := st.defect && !blankNow,
        records := modAt st.recNow (fun r => { r with valid := false }) st.records }) s

/-- TIMING_LOST from stream position pos on (R128). -/
def timingLostEff (g pos : Nat) (s : State) : State :=
  let st := strandOf s g
  if st.cur.isSome && !st.skip && !st.timingLost then
    chEvt Fld.CHN_EVT_TIMING_LOST g (chBump g 3 1
      (modStrand g (fun st => { st with timingLost := true, runs := st.runs ++ [(pos, 38816 - pos)] }) s))
  else s

/-- SEGMENT_END: the strand holds its loops across the wedge (R129). -/
def segmentEndEff (g : Nat) (s : State) : State := modStrand g (fun st => { st with held := st.cur.isSome }) s

/-- DEFECT_FLAG_START at stream position pos; off across wedges and once a slot is blank (R129, R139, R141). -/
def defectStartEff (g pos : Nat) (s : State) : State :=
  let st := strandOf s g
  if st.cur.isSome && !st.held && !st.blank && !st.defect then
    modStrand g (fun st => { st with defect := true, spanFrom := pos }) s
  else s

/-- DEFECT_FLAG_END: the condition was last present before position pos; the span takes DEF_PRE before it and DEF_POST
after it (R140). -/
def defectEndEff (g pos : Nat) (s : State) : State :=
  let st := strandOf s g
  if st.defect && !st.defectNow then
    let lo := st.spanFrom - cfgF st Fld.CHN_DEF_CFG_DEF_PRE
    let hi := min 38816 (pos + cfgF st Fld.CHN_DEF_CFG_DEF_POST)
    modStrand g (fun st => { st with defect := false, runs := st.runs ++ [(lo, hi - lo)] }) s
  else s

/-! ### Wedges (R143 to R146, R89 to R92) -/

/-- One turn towards the target of a seek in FINE (R321). -/
def fineStep (m : CarMotion) : Nat :=
  match m.st, m.seek with
  | .fine, some k => if m.turn < k.turn then m.turn + 1 else if k.turn < m.turn then m.turn - 1 else m.turn
  | _, _ => m.turn

/-- The revolution of a strand ends at wedge 0 (R146). -/
def revEnd (g : Nat) (s : State) : State :=
  modStrand g (fun st => { st with lastRev := st.revFound, revFound := 0, missRevs := if st.revFound = 0 then st.missRevs else 0 }) s

/-- A ply comes to wedge w, the interval ivl since the last in CLK_ADC cycles: the estimate I (R143), the followed turn
(R319, R321), the revolution count (R290) and the positions begin anew. -/
def plyWedge (c w ivl : Nat) (s : State) : State :=
  let first := allCars.find? (plyLock s)
  let s := modCar c (fun m => { m with
    wedge := w, ivl := if m.ivl = 0 then ivl else ((m.ivl : Int) + roundDiv ((ivl : Int) - m.ivl) 8).toNat, wedgeAt := s.pwr.time,
    rhos := List.replicate 8 none, addrs := List.replicate 8 none, turn := fineStep m }) s
  if w = 0 then
    let s := modCar c (fun m => { m with turn := m.turn + 1 }) s
    let s := { s with mot := { s.mot with wedge0 := s.pwr.time } }
    let s := forEach revEnd (upFrom (8 * c) 8) s
    if first = some c then set64 Reg.SPN_REV_LO (get64 s Reg.SPN_REV_LO + 1) s else s
  else s

/-- The chevron measurements of a carriage's loops are fresh (R269, R271). -/
def chevronFresh (c : Nat) (s : State) : State :=
  match s.img.running with
  | none => s
  | some i => forEach (fun l s =>
      modSlot l.slot (fun x => (List.range l.nMeas).foldl (fun x j =>
        if isChevron (l.measSrc.getD j 0) then { x with fresh := modAt j (fun _ => true) x.fresh, age := modAt j (fun _ => 0) x.age } else x) x) s)
      (i.loops.filter (fun l => l.carriage == c)) s

/-- PLY_POSITION: ply_centre and twist_error from at least 4 accepted positions (R92). -/
def plyPosition (c : Nat) (s : State) : State :=
  let m := carOfS s c
  let acc := (List.range 8).filterMap (fun k => (m.rhos.getD k none).map (fun r => (k, r)))
  if 4 ≤ acc.length then
    chevronFresh c (modCar c (fun m => { m with ply := some (plyCentre acc), twist := some (twistErr acc) }) s)
  else modCar c (fun m => { m with ply := none, twist := none }) s

/-- The period of a position (R91): the address field's within ±1 of the last wedge's, or near an edge the last
wedge's, its neighbour allowed for by the wrap. The truth value says that it came from the last wedge. -/
def periodOf (st : StrandSt) (delta : Int) (addr : Option Nat) : Option (Nat × Bool) :=
  match st.lastP, nearEdge delta with
  | some lp, true =>
    let cs := [lp, lp + 1] ++ (if 0 < lp then [lp - 1] else [])
    some (cs.foldl (fun a p => if (rhoOf p delta - st.lastRho).natAbs < (rhoOf a delta - st.lastRho).natAbs then p else a) lp, true)
  | some lp, false => match addr with
    | some a => let p := aPeriod a; if p ≤ lp + 1 && lp ≤ p + 1 then some (p, false) else none
    | none => none
  | none, _ => addr.map (fun a => (aPeriod a, false))

/-- A strand that missed its wedge. -/
def wedgeMissed (g : Nat) (s : State) : State :=
  chBump g 6 1 (modStrand g (fun st => { st with wedgeLock := false, posValid := false, noPos := min 3 (st.noPos + 1) }) s)

/-- A strand that found its wedge: its report (R145). -/
def wedgeFound (g : Nat) (m : WedgeMeas) (s : State) : State :=
  let c := g / 8
  let st := strandOf s g
  let leg (t : Option Nat) : Word := match t with | some v => BitVec.ofNat 32 (0x80000000 + v % 32768) | none => 0#32
  let s := setReg (chR Reg.CHN_WEDGE_T1 g) (leg m.t1) s
  let s := setReg (chR Reg.CHN_WEDGE_T2 g) (leg m.t2) s
  let s := setReg (chR Reg.CHN_WEDGE_ADDR g) (BitVec.ofNat 32 m.addr) s
  let good : Option Nat := if chkOk m.addr then some m.addr else none
  let s := modCar c (fun x => { x with addrs := modAt (g % 8) (fun _ => good) x.addrs }) s
  let pos : Option (Nat × Bool × Int) := match m.t1, m.t2 with
    | some a, some b =>
      let delta := (b : Int) - a
      (periodOf st delta good).map (fun p => (p.1, p.2, rhoOf p.1 delta))
    | _, _ => none
  match pos with
  | some (p, prev, rho) =>
    let nm := (roundDiv (rho * 1000) 0x1000000).toNat % 0x4000000
    let s := setReg (chR Reg.CHN_POS g) (BitVec.ofNat 32 (0x80000000 + (if prev then 0x40000000 else 0) + nm)) s
    let s := modCar c (fun x => { x with rhos := modAt (g % 8) (fun _ => some rho) x.rhos }) s
    modStrand g (fun st => { st with wedgeLock := true, posValid := true, lastP := some p, lastRho := rho, noPos := 0, revFound := st.revFound + 1 }) s
  | none =>
    let s := setF ⟨chR Reg.CHN_POS g, 31, 31⟩ 0 s
    modStrand g (fun st => { st with wedgeLock := true, posValid := false, noPos := min 3 (st.noPos + 1), revFound := st.revFound + 1 }) s

/-- WEDGE_CROSSING of strand g at wedge w, its ply's interval ivl in CLK_ADC cycles; no measurement is a missed wedge.
The measurement runs while the focus loop is in RUN or HOLD (R319). -/
def wedgeEff (g w ivl : Nat) (m : Option WedgeMeas) (s : State) : State :=
  let c := g / 8
  if !kindActive s 1 c || !bound s (uStrand g) then s
  else
    let s := if (carOfS s c).wedge = w % 96 && (carOfS s c).ivl ≠ 0 then s else plyWedge c (w % 96) ivl s
    let s := modStrand g (fun st => { st with held := false }) s
    let s := match m with | some x => wedgeFound g x s | none => wedgeMissed g s
    strandReadyCheck g (plyPosition c s)

/-- WEDGE_MISS_REV (R146): a whole revolution missed while at least 4 strands of the ply found theirs; the third in a
row makes the strand FAULTED. -/
def wedgeMissRevEff (g : Nat) (s : State) : State :=
  let c := g / 8
  let others := (upFrom (8 * c) 8).filter (fun h => h ≠ g && decide (96 ≤ (strandOf s h).lastRev))
  if (strandOf s g).lastRev ≠ 0 || others.length < 4 || !bound s (uStrand g) then s
  else
    let s := chEvt Fld.CHN_EVT_WEDGE_MISS_REV g s
    let s := modStrand g (fun st => { st with missRevs := min 3 (st.missRevs + 1) }) s
    if 3 ≤ (strandOf s g).missRevs && ust s (uStrand g) ≠ .faulted && ust s (uStrand g) ≠ .absent then
      let s := change (uStrand g) .faulted .sensor s
      let s := evt Fld.UNT_EVT_STRAND_FAULT (uStrand g) [⟨1, g⟩] s
      carGradeCheck .sensor c s
    else s

/-! ### Pins (R152, R171) -/

/-- The record of a strand that holds a slot whole. -/
def recordOf (st : StrandSt) (lf zone slot : Nat) : Option Nat :=
  (List.range 4).find? (fun i => let r := st.records.getD i {}; r.valid && r.lf == lf && r.zone == zone && r.slot == slot)

/-- Pins the record of a slot on a strand; at most 2 of a strand are pinned. The truth value says that it is pinned. -/
def pinRecord (g lf zone slot : Nat) (s : State) : Bool × State :=
  let st := strandOf s g
  match recordOf st lf zone slot with
  | none => (false, s)
  | some i =>
    if (st.records.getD i {}).pinned then (true, s)
    else if 2 ≤ (st.records.filter (·.pinned)).length then
      (false, chEvt Fld.CHN_EVT_RPL_SKIP g (chBump g 7 1 s))
    else (true, modStrand g (fun st => { st with records := modAt i (fun r => { r with pinned := true }) st.records }) s)

/-- Releases the pins of a slot on a strand and its neighbours. -/
def unpinSlot (g lf zone slot : Nat) (s : State) : State :=
  forEach (fun h s =>
    if h / 8 = g / 8 then
      modStrand h (fun st => { st with records := st.records.map (fun r =>
        if r.lf = lf && r.zone = zone && r.slot = slot then { r with pinned := false } else r) }) s
    else s) [g - 1, g, g + 1] s

/-- REPLAY_PIN: the record of the delivered slot and those of the serving neighbours (R171). -/
def pinDelivery (g lf zone slot : Nat) (s : State) : Bool × State :=
  let r := pinRecord g lf zone slot s
  let s := r.2
  let s := if neighbourServes s g false then (pinRecord (g - 1) lf zone slot s).2 else s
  let s := if neighbourServes s g true then (pinRecord (g + 1) lf zone slot s).2 else s
  (r.1, s)

/-! ### Delivery (R147 to R149) -/

/-- What a strand delivers of a requested sector; noSync also stands for TIMING_LOST. -/
structure Delivery where
  cands : List Cand
  body : Int
  llr : List Int
  blank : Bool
  erased : Nat
  mse : Nat
  noSync : Bool
  deriving Inhabited

/-- The sync outcome: candidates and the flags RELAXED and NO_SYNC (R147, R148). -/
def syncOutcome (st : StrandSt) (p : SlotPass) : List Cand × Bool × Bool :=
  let llr := fun (q : Int) => if q < 256 then (0 : Int) else p.syncLlr.getD (q - 256).toNat 0
  let win := cfgF st Fld.CHN_SYNC_CFG_SYNC_WIN
  let live := if st.missNow then [] else syncSearch llr 320 win (cfgF st Fld.CHN_SYNC_CFG_SYNC_THR)
  if !live.isEmpty then (live, false, false)
  else
    let anchor := syncAnchor p.phase
    let rel := syncSearch llr anchor win (cfgF st Fld.CHN_SYNC_CFG_SYNC_RELAX)
    if !rel.isEmpty then (rel, true, false) else ([syncAt llr anchor], true, true)

/-- The detector's noise settings for a strand (R159, R160). -/
def noiseOf (s : State) (seed : List Byte) : NoiseCfg :=
  { np := seedNoise seed, off := flag s Fld.DEC_DET_CFG_NP_OFF, target := seedTarget seed, scale := getF s Fld.DEC_DET_CFG_LLR_SCALE }

/-- Registers of the last delivered sector, frozen by LAST_HOLD (R120, R156). -/
def lastRegs (g : Nat) (p : SlotPass) (ps : Pass) (cands : List Cand) (relaxed noSync : Bool) (erased mse : Nat) (s : State) : State :=
  let st := strandOf s g
  if cfgF st Fld.CHN_CTRL_LAST_HOLD ≠ 0 then s
  else
    let l := loopsEnd s g p
    let word (l : List Int) (n i : Nat) : Word := BitVec.ofNat 32 (unsigned n (nth l i))
    let s := forEach (fun i s => setReg (chR Reg.CHN_EQ_LAST g + 4 * i) (word ps.taps.eq 15 i) s) (List.range 17) s
    let s := forEach (fun i s => setReg (chR Reg.CHN_XTL_LAST g + 4 * i) (word ps.taps.lt 14 i) s) (List.range 5) s
    let s := forEach (fun i s => setReg (chR Reg.CHN_XTR_LAST g + 4 * i) (word ps.taps.rt 14 i) s) (List.range 5) s
    let s := setReg (chR Reg.CHN_OFS_STATUS g) (BitVec.ofNat 32 (unsigned 8 l.2.2 * 65536 + unsigned 8 l.2.1)) s
    let first := cands.head?
    let ofs := match first with | some c => unsigned 8 (c.pos - 320) | none => 0
    let agr := match first with | some c => c.agree | none => 0
    let s := setReg (chR Reg.CHN_SYNC_LAST g) (BitVec.ofNat 32 ((if noSync then 0x80000000 else 0) + (if relaxed then 0x40000000 else 0) +
      (if noSync then 0 else cands.length) * 0x10000000 + (agr % 128) * 65536 + ofs * 256 +
      (if relaxed then unsigned 8 (syncAnchor p.phase - 320) else 0))) s
    let s := forEach (fun i s => setReg (chR Reg.CHN_CAND g + 4 * i) (match cands.drop i with
      | c :: _ => BitVec.ofNat 32 (unsigned 16 c.score * 65536 + (c.agree % 128) * 256 + unsigned 8 (c.pos - 320))
      | [] => 0#32) s) [0, 1, 2] s
    setReg (chR Reg.CHN_QUALITY g) (BitVec.ofNat 32 (mse * 65536 + min 65535 erased)) s

/-- The end of a requested sector on a strand: sync, the body's LLRs, the replay record, counts and registers. -/
def deliver (g : Nat) (p : SlotPass) (s : State) : Delivery × State :=
  let st := strandOf s g
  let ps := slotPass s g p
  let sy : List Cand × Bool × Bool := if st.blank then ([], false, false) else syncOutcome st p
  let body : Int := match sy.1 with | c :: _ => c.pos + 64 | [] => 384
  let llr := if st.blank then List.replicate 38416 0
    else detect (noiseOf s st.seed) ps.zs.reverse.toArray ps.as_.reverse.toArray (-32) body st.runs #[]
  let erased := ((List.range 38416).filter (fun k => st.blank || inRuns st.runs (body + (k : Nat)))).length
  let mse := if ps.count = 0 then 0 else min 65535 (256 * ps.sse / ps.count)
  let s := setF ⟨chR Reg.CHN_ENV_LAST g, 7, 0⟩ p.aref s
  let s := slotRegs g p (writeRecord g p ps sy.1 sy.2.1 sy.2.2 s)
  let s := lastRegs g p ps sy.1 sy.2.1 sy.2.2 erased mse s
  let s := chBump g 4 erased (chBump g 0 1 s)
  let s := if sy.2.1 then chEvt Fld.CHN_EVT_RELAXED_SYNC g (chBump g 1 1 s) else s
  let s := if sy.2.2 then chEvt Fld.CHN_EVT_NO_SYNC g (chBump g 2 1 s) else s
  ({ cands := sy.1, body := body, llr := llr, blank := st.blank, erased := erased, mse := mse, noSync := sy.2.2 || st.timingLost }, s)

/-! ### CHN_TEST -/

/-- FORCE_SYNC_MISS and FORCE_DEFECT (R156). -/
def forceMissEff (g : Nat) (s : State) : State :=
  setF (chF Fld.CHN_TEST_FORCE_SYNC_MISS g) 1 (modStrand g (fun st => { st with forceMiss := true }) s)
def forceDefectEff (g : Nat) (s : State) : State :=
  setF (chF Fld.CHN_TEST_FORCE_DEFECT g) 1 (modStrand g (fun st => { st with forceDefect := true }) s)

end Sys2Proof.Machine
end

