-- ==== Sys2Proof/Machine/Skein.lean ====
section
/-! DEFINITION. The outer code of a skein, its metadata and placement, and the ROT of outer members (R94 to R100, R180,
R181). -/

namespace Sys2Proof.Machine

/-! ### Reed–Solomon (16,12) over GF(2^8) (R96, R180) -/

/-- Multiplication by x in GF(2^8) of x^8 + x^4 + x^3 + x^2 + 1. -/
def gfDouble (a : Nat) : Nat := let b := 2 * a; if b < 256 then b else (b - 256) ^^^ 0x1D

/-- The product of two field elements, over the n low bits of b. -/
def gfMulGo : Nat → Nat → Nat → Nat
  | 0, _, _ => 0
  | n + 1, a, b => (if b % 2 = 1 then a else 0) ^^^ gfMulGo n (gfDouble a) (b / 2)

/-- The product of two field elements. -/
def gfMul (a b : Nat) : Nat := gfMulGo 8 a b

/-- A power. -/
def gfPow (a : Nat) : Nat → Nat
  | 0 => 1
  | n + 1 => gfMul a (gfPow a n)

/-- The inverse: a^254. -/
def gfInv (a : Nat) : Nat := gfPow a 254

/-- The field sum of a list. -/
def gfSum (l : List Nat) : Nat := l.foldl (· ^^^ ·) 0

/-- The generator's coefficients below x^4, highest degree first: g(x) = (x − 1)(x − α)(x − α²)(x − α³). -/
def rsGen : List Nat :=
  let mul1 (p : List Nat) (r : Nat) : List Nat := (p ++ [0]).zipWith (fun a b => a ^^^ gfMul r b) (0 :: p)
  ((mul1 (mul1 (mul1 (mul1 [1] 1) 2) 4) 8).drop 1)

/-- One step of the division by g with a message symbol. -/
def rsStep (r : List Nat) (m : Nat) : List Nat :=
  let f := m ^^^ r.headD 0
  (r.drop 1 ++ [0]).zipWith (fun a g => a ^^^ gfMul f g) rsGen

/-- The four parity symbols, in descending degree, of the 12 message symbols, data index 0 first. -/
def rsParity (msg : List Nat) : List Nat := msg.foldl rsStep [0, 0, 0, 0]

/-- The exponent of member m's symbol in the codeword polynomial. -/
def memberDegree (m : Nat) : Nat := if isParityMember m then 3 - m / 4 else 15 - dataOfMember m

/-- A syndrome: the codeword's value at α^i, erased symbols taken as 0. -/
def syndrome (word : List (Option Nat)) (i : Nat) : Nat :=
  gfSum ((List.range 16).map (fun m => gfMul ((word.getD m none).getD 0) (gfPow 2 (i * memberDegree m))))

/-- Solves for erased symbols by elimination: each row is its coefficients and its right side. -/
def gfSolve : Nat → List (List Nat) → List Nat
  | 0, _ => []
  | n + 1, rows =>
    match rows.find? (fun r => r.headD 0 ≠ 0) with
    | none => List.replicate (n + 1) 0
    | some p =>
      let inv := gfInv (p.headD 0)
      let p := p.map (gfMul inv)
      let rest := (rows.erase (rows.find? (fun r => r.headD 0 ≠ 0) |>.getD [])).map (fun r =>
        (r.zipWith (fun a b => a ^^^ gfMul (r.headD 0) b) p).drop 1)
      let xs := gfSolve n rest
      let rhs := p.getLastD 0
      (rhs ^^^ gfSum (((p.drop 1).dropLast).zipWith gfMul xs)) :: xs

/-- One codeword: the 16 symbols with the erased ones solved (at most 4), or none where a spare parity equation fails
(R181 step 3). -/
def rsSolve (word : List (Option Nat)) : Option (List Nat) :=
  let er := (List.range 16).filter (fun m => (word.getD m none).isNone)
  let e := er.length
  let rows := (List.range e).map (fun i => er.map (fun m => gfPow 2 (i * memberDegree m)) ++ [syndrome word i])
  let xs := gfSolve e rows
  let full := (List.range 16).map (fun m => match word.getD m none with
    | some x => x
    | none => xs.getD (er.idxOf m) 0)
  let spare := (List.range (4 - e)).all (fun i => syndrome (full.map some) (e + i) == 0)
  if spare then some full else none

/-- Byte j of a member. -/
def byteAt (d : List Byte) (j : Nat) : Nat := (d.getD j 0).toNat

/-- The four parity members' data of 12 data members (R96), as members 3, 7, 11 and 15. -/
def parityOf (data : List (List Byte)) : List (List Byte) :=
  let cols := (List.range 4096).map (fun j => rsParity (data.map (fun d => byteAt d j)))
  (List.range 4).map (fun k => cols.map (fun c => BitVec.ofNat 8 (c.getD k 0)))

/-- Rebuilds all 16 members from the ones not erased; none where the spare equations fail. -/
def rebuild (ms : List (Option (List Byte))) : Option (List (List Byte)) :=
  let cols := (List.range 4096).map (fun j => rsSolve (ms.map (fun m => m.map (fun d => byteAt d j))))
  if cols.all Option.isSome then
    some ((List.range 16).map (fun m => cols.map (fun c => BitVec.ofNat 8 ((c.getD []).getD m 0))))
  else none

/-! ### Angles and ROT (R86, R87, R100) -/

/-- The angle of a channel bit's leading edge (end_ false) or trailing edge, in 1 / SEG_BITS of a segment, the segments
counted from the zone's start. -/
def bitAngle (z slot x : Nat) (end_ : Bool) : Nat :=
  let b := slot * 38816 + x
  (b / segData z) * segBits z + 16 + b % segData z + (if end_ then 1 else 0)

/-- The channel bits over which stored byte b extends (R100). -/
def byteFrom (b : Nat) : Nat := 384 + 392 * b / 48
def byteTo (b : Nat) : Nat := 384 + (392 * b + 391) / 48

/-- Whether stored byte a of one slot and stored byte b of another share an angle. -/
def shareAngle (za slotA a zb slotB b : Nat) : Bool :=
  let ka := segBits zb
  let kb := segBits za
  let turn := 96 * segBits za * segBits zb
  let a1 := bitAngle za slotA (byteFrom a) false * ka
  let a2 := bitAngle za slotA (byteTo a) true * ka
  let b1 := bitAngle zb slotB (byteFrom b) false * kb
  let b2 := bitAngle zb slotB (byteTo b) true * kb
  decide ((b1 % turn + turn - a1 % turn) % turn < a2 - a1) || decide ((a1 % turn + turn - b1 % turn) % turn < b2 - b1)

/-- Whether a ROT breaks R100 against an inner member, whose own ROT is 0. -/
def rotClash (zi slotI zo slotO rot : Nat) : Bool :=
  (List.range 4096).any (fun j => shareAngle zi slotI j zo slotO ((j + rot) % 4096))

/-- The smallest ROT of an outer member at placement po and offset j against the inner members at placement pi. -/
def rotOf (pi po j : Nat) : Nat :=
  let clash (rot : Nat) : Bool := (List.range 4).any (fun k =>
    rotClash (pZone pi) (4 * pBlock pi + k) (pZone po) (4 * pBlock po + j) rot)
  ((List.range 4096).find? (fun r => !clash r)).getD 0

/-- ROT of member m of a skein with the given placements (R100). -/
def memberRot (place : List Nat) (m : Nat) : Nat :=
  if m / 4 % 2 = 0 then 0 else rotOf (place.getD (m / 4 - 1) 0) (place.getD (m / 4) 0) (m % 4)

/-! ### Metadata (R94, Table 03-4) -/

/-- The 32 bytes of metadata after the data, CHECK included. -/
def metaBytes (stored : List Byte) (skein member kind rot : Nat) (place : List Nat) (volume cflags : Nat) : List Byte :=
  let front := leBytes 4 skein ++ leBytes 1 member ++ leBytes 1 kind ++ leBytes 2 rot ++
    (List.range 4).flatMap (fun c => leBytes 4 (place.getD c 0)) ++ leBytes 1 volume ++ leBytes 1 cflags ++ leBytes 2 0
  front ++ leBytes 4 (crc32c (stored ++ front))

end Sys2Proof.Machine
end

