-- ==== Sys2Proof/Machine/Order.lean ====
section
/-! DEFINITION. Ordering, atomicity and durability (spec chapter 12): range locks, barriers, snapshots, the ends that wait
for knots, aborts, replay identities and generation lookups. -/

namespace Sys2Proof.Machine

/-! ### Range locks and barriers (R379, R380, R386) -/

/-- The range-lock entry of a command (Table 12-3). -/
def lockFor (c : HostCmd) : Option Lock :=
  let range (m : LockMode) : Option Lock := some { mode := m, vol := c.volume, lo := c.lba, hi := c.lba + c.count - 1, whole := false }
  let whole (m : LockMode) : Option Lock := some { mode := m, vol := c.volume, lo := 0, hi := 0, whole := true }
  if c.opcode = opRead then range (if HostCmd.asOf c then .a else .s)
  else if c.opcode = opWrite then range .x
  else if c.opcode = opFlush || c.opcode = opClose then whole .f
  else if c.opcode = opCreate then whole .c
  else none

/-- Whether two entries overlap. -/
def overlaps (a b : Lock) : Bool := a.vol == b.vol && (a.whole || b.whole || (decide (a.lo ≤ b.hi) && decide (b.lo ≤ a.hi)))

/-- Whether a later entry waits for the release of an earlier one (Table 12-4). An A entry's wait for writes is
asOfWait. -/
def waitsOn (later earlier : LockMode) : Bool :=
  match later, earlier with
  | .s, .x => true
  | .s, .c => true
  | .a, .c => true
  | .x, .s => true
  | .x, .a => true
  | .x, .x => true
  | .x, .c => true
  | .f, .x => true
  | _, _ => false

/-- The earlier commands whose entries a command waits on. -/
def lockWaits (s : State) (c : Cmd) : List Cmd :=
  match c.lock with
  | none => []
  | some l => ((cmds s).map (·.2)).filter (fun e => decide (e.seq < c.seq) &&
      (match e.lock with | some k => overlaps l k && waitsOn l.mode k.mode | none => false))

/-- Held data not yet applied. -/
def unapplied (h : Held) : Bool := decide (h.stage ≠ .applied)

/-- An as-of read waits for every earlier overlapping write until its overlapping blocks are applied (R392). -/
def asOfWait (s : State) (c : Cmd) : Bool :=
  match c.lock with
  | some l => l.mode == .a &&
      ((cmds s).any (fun e => e.2.cmd.opcode == opWrite && decide (e.2.seq < c.seq) && !e.2.heldPoint && e.2.state != .ended &&
          (match lockFor e.2.cmd with | some k => overlaps l k | none => false)) ||
        s.media.held.any (fun h => h.vol == l.vol && decide (h.seq < c.seq) && decide (l.lo ≤ h.lba) && decide (h.lba ≤ l.hi) &&
          unapplied h))
  | none => false

/-- Whether a barrier holds a command (R386). -/
def barred (s : State) (c : Cmd) : Bool :=
  (cmds s).any (fun e => e.2.ring == c.ring && e.2.fn == c.fn && e.2.remote == c.remote && decide (e.2.seq < c.seq) && e.2.state != .ended &&
    (HostCmd.orderAfter c.cmd || HostCmd.orderAfter e.2.cmd))

/-- Whether a command may leave WAITING (Table 12-1, R380, R532, R533). -/
def mayRun (s : State) (c : Cmd) : Bool :=
  c.state == .waiting && c.gate == .open && !s.pair.settling && acked s (.journal c.seq) && (lockWaits s c).isEmpty && !asOfWait s c && !barred s c

/-! ### The map (R109, R383) -/

/-- Whether an entry covers a block; a CONT entry covers none (R237). -/
def covers (e : MapEntry) (lba : Nat) : Bool := !e.cont && decide (e.lba ≤ lba) && decide (lba < e.lba + e.blocks)

/-- The index of the entry that resolves a block (R109): the highest generation, then the highest KNOT_SEQ. -/
def resolveIn (lba asOf : Nat) : Nat → Option (Nat × MapEntry) → List MapEntry → Option (Nat × MapEntry)
  | _, best, [] => best
  | i, best, e :: es =>
    let better := covers e lba && decide (e.generation ≤ asOf) &&
      (match best with
       | none => true
       | some (_, b) => decide (b.generation < e.generation) || (b.generation == e.generation && decide (b.knotSeq < e.knotSeq)))
    resolveIn lba asOf (i + 1) (if better then some (i, e) else best) es

/-- resolve(v, lba, as_of). -/
def resolve (v : Volume) (lba asOf : Nat) : BlockSrc :=
  match resolveIn lba asOf 0 none v.map with
  | some (i, e) => .mapped i (lba - e.lba)
  | none => .never

/-- The latest held, unapplied block for an lba of writes accepted before seq. -/
def heldFor (s : State) (v lba seq : Nat) : Option Held :=
  (s.media.held.filter (fun h => h.vol == v && h.lba == lba && decide (h.seq < seq) && unapplied h)).foldl
    (fun b h => match b with | none => some h | some k => if k.seq ≤ h.seq then some h else b) none

/-- snapshot_block of R383. -/
def snapshotBlock (s : State) (c : Cmd) (lba : Nat) : BlockSrc :=
  let vol := volOf s c.cmd.volume
  if HostCmd.asOf c.cmd then resolve vol lba (min c.cmd.generation vol.highGen)
  else match heldFor s c.cmd.volume lba c.seq with
    | some h => .held h.id
    | none => resolve vol lba vol.highGen

/-- The snapshot of a read (R383). -/
def snapshot (s : State) (c : Cmd) : List BlockSrc := (upFrom c.cmd.lba c.cmd.count).map (snapshotBlock s c)

/-- Held blocks that a snapshot pins. -/
def pinsOf (snap : List BlockSrc) : List Nat := snap.filterMap (fun b => match b with | .held i => some i | _ => none)

/-- Releases held data that is applied and that no snapshot pins (R384). -/
def gcHeld (s : State) : State :=
  let pins := (cmds s).flatMap (fun e => pinsOf e.2.snap)
  { s with media := { s.media with held := s.media.held.filter (fun h => unapplied h || pins.contains h.id) } }

/-- A write whose held blocks a read's snapshot pins is past its point of no return (Table 12-2). -/
def passPnr (ids : List Nat) (s : State) : State :=
  let seqs := (s.media.held.filter (fun h => ids.contains h.id)).map (·.seq)
  forEach (fun e s => if seqs.contains e.2.seq && e.2.cmd.opcode == opWrite then modCmd e.1 (fun c => { c with pnr := true }) s else s)
    (cmds s) s

/-! ### Completion form of writes (R30, R381, R387, R533) -/

/-- Both buffer channels serve, so that writes are held as twin copies. -/
def twins (s : State) : Bool := serving s (uBuf 0) && serving s (uBuf 1)

/-- The owner of a pair whose partner is OFFLINE, STARTING or FAULTED, with SOLO at 0 (R533). -/
def soloAsFua (s : State) : Bool :=
  pairEn s && !flag s Fld.PRL_CFG_SOLO &&
    (ust s uPartner = .offline || ust s uPartner = .starting || ust s uPartner = .faulted)

/-- Whether a write completes only when FUA would. -/
def asFua (s : State) (c : Cmd) : Bool := HostCmd.fua c.cmd || !twins s || soloAsFua s

/-- Held write data of all volumes is below WRITE_BEHIND_LIMIT (R381). -/
def belowLimit (s : State) : Bool := decide (heldBytes s < 1048576 * (policyVal s 6).toNat)

/-! ### Durability (R388 to R390, R394) -/

/-- Every WRITE of a volume accepted before seq and not aborted is wholly applied. -/
def durableBefore (s : State) (v seq : Nat) : Bool :=
  !s.media.held.any (fun h => h.vol == v && decide (h.seq < seq) && unapplied h) &&
    !(cmds s).any (fun e => e.2.cmd.opcode == opWrite && e.2.cmd.volume == v && decide (e.2.seq < seq) &&
        e.2.state != .ended && !e.2.heldPoint)

/-- The lowest acceptance number of a volume's data in skeins that cannot be placed (R116). -/
def fullSeq (s : State) (v : Nat) : Option Nat :=
  ((s.media.skeins.filter (·.unplaceable)).flatMap (fun k => (dataOf s k).filterMap (fun e =>
    if e.1 = v then some e.2 else none))).foldl (fun a q => match a with | none => some q | some b => some (min b q)) none

/-- What stops the knots that a completion up to an acceptance number needs (R213, R116). -/
def blockedBy (s : State) (v upTo : Nat) : Option Status :=
  match exhaustedSeq s v with
  | some q => if q ≤ upTo then some .writeVerifyExhausted else
      (match fullSeq s v with | some f => if f ≤ upTo then some .mediumFull else none | none => none)
  | none => match fullSeq s v with | some f => if f ≤ upTo then some .mediumFull else none | none => none

/-- Hank engines in service: within HANK_ENABLED and not FAULTED (R244). -/
def hankInService (s : State) (n : Nat) : Bool :=
  let en := match s.img.running with | some i => i.bind.hankEnabled | none => 0
  decide (n < en) && !(s.media.hank.engines.getD n {}).faulted && !(s.media.hank.engines.getD n {}).bistFailed

/-- No hank engine is in service. -/
def noHankEngine (s : State) : Bool := !(List.range 6).any (hankInService s)

/-- A completion up to an acceptance number needs a hank that no engine can code (R235). -/
def hankBlocked (s : State) (v upTo : Nat) : Bool :=
  noHankEngine s && s.media.hank.places.any (fun p => p.vol == v && decide (p.seq ≤ upTo) && p.stored.isNone && p.members.isEmpty && !p.inBuf)

/-- Sets NO_ENGINE, again at each command that completes for this reason (R235). -/
def noEngineEvt (s : State) : State := evt Fld.HNK_EVT_NO_ENGINE noUnit [⟨1, 0xFF⟩] s

/-- Whether the commit point of a command that waits for knots is reached (Table 12-2). -/
def commitReached (s : State) (c : Cmd) : Bool :=
  let v := volOf s c.cmd.volume
  if c.cmd.opcode = opWrite then
    c.heldPoint && !s.media.held.any (fun h => h.vol == c.cmd.volume && h.seq == c.seq && unapplied h)
  else if c.cmd.opcode = opFlush then durableBefore s c.cmd.volume c.seq && decide (1 ≤ v.knotSeq)
  else if c.cmd.opcode = opCreate then decide (1 ≤ v.knotSeq)
  else v.closed

/-- RESULT of a command of the range-lock path in class 0x0 that reads nothing: the epoch for VOLUME_CREATE. -/
def plainResult (s : State) (c : Cmd) : Nat :=
  if c.cmd.opcode = opCreate then (unitOf s (uVol c.cmd.volume)).epoch.toNat else 0

/-- Settles one command that waits for knots, or an as-of read that such knots hold back (R392). -/
def settleOne (e : Nat × Cmd) (s : State) : State :=
  let c := e.2
  let v := c.cmd.volume
  if c.state = .running then
    match c.waitsKnot with
    | none => s
    | some q =>
      if commitReached s c then endCmd e.1 .success (plainResult s c) s
      else match blockedBy s v q with
        | some st => endCmd e.1 st 0 s
        | none => if hankBlocked s v q && c.cmd.opcode ≠ opCreate then noEngineEvt (endCmd e.1 .unitNotReady 0 s) else s
  else if c.state = .waiting && c.cmd.opcode = opRead && asOfWait s c then
    let need := (s.media.held.filter (fun h => h.vol == v && decide (h.seq < c.seq) && decide (c.cmd.lba ≤ h.lba) &&
      decide (h.lba < c.cmd.lba + c.cmd.count) && unapplied h)).foldl (fun a h => max a (h.seq + 1)) 0
    if need = 0 then s
    else match blockedBy s v (need - 1) with
      | some st => endCmd e.1 st 0 s
      | none => s
  else s

/-- Settles every command that waits for knots. -/
def settle (s : State) : State := gcHeld (forEach settleOne (cmds s) s)

/-- ORD_VOL_DURABLE (R394): the highest S such that every non-aborted WRITE of the volume accepted at or before S is
wholly applied. -/
def durableSeq (s : State) (v : Nat) : Nat :=
  let open_ := (s.media.held.filter (fun h => h.vol == v && unapplied h)).map (·.seq) ++
    ((cmds s).filter (fun e => e.2.cmd.opcode == opWrite && e.2.cmd.volume == v && e.2.state != .ended && !e.2.heldPoint)).map (·.2.seq)
  match open_ with
  | [] => get64 s Reg.HQ_SEQ_LO
  | q :: qs => qs.foldl min q - 1

/-! ### Leaving WAITING -/

/-- COMMAND_RUN: a command with no wait left runs; a read takes its snapshot, which releases its entry (R377, R383). -/
def commandRunEff (t : Nat) (s : State) : State :=
  match cmdOf s t with
  | none => s
  | some c =>
    if !mayRun s c then s
    else if c.cmd.opcode = opRead then
      let snap := snapshot s c
      let s := modCmd t (fun c => { c with state := .running, snap := snap, lock := none }) s
      bump Reg.ORD_CNT 1 (passPnr (pinsOf snap) s)
    else modCmd t (fun c => { c with state := .running }) s

/-! ### READ (R359, R378) -/

/-- The key of a member in the cache. -/
def memberKey (skein m : Nat) : Nat := 16 * skein + m

/-- A member in the cache. -/
def cachedOf (s : State) (skein m : Nat) : Option CachedMember := Tbl.get none (memberKey skein m) s.pool.cached

/-- What a block of a read came to: its data with the media step and the recovered step, or a failure; none while it is
not known. -/
def blockOutcome (s : State) (c : Cmd) (i : Nat) : Option (Sum Status (List Byte × Nat × Nat)) :=
  match c.fails.find? (fun f => f.1 == i) with
  | some f => some (.inl f.2)
  | none =>
    match c.snap.getD i .never with
    | .never => some (.inr (List.replicate 4096 0, 0, 0))
    | .held id => some (.inr ((match heldOf s id with | some h => h.data | none => List.replicate 4096 0), 0, 0))
    | .mapped e k =>
      let en : MapEntry := (volOf s c.cmd.volume).map.getD e default
      if en.hank then
        match Tbl.get [] i c.got with
        | [] => none
        | d => some (.inr (d, 0, 0))
      else match cachedOf s en.skein (memberOfData (en.firstDi + k)) with
        | some m => some (.inr (m.data, m.media, m.recovered))
        | none => none

/-- Writes bytes to a command's host segments in order (R357). -/
def writeSegs (fn : Nat) : List (Nat × Nat) → List Byte → State → State
  | [], _, s => s
  | (a, n) :: segs, d, s => if d.isEmpty then s else writeSegs fn segs (d.drop n) (emit (.hostWrite fn a (d.take n)) s)

/-- Delivers a read's data: to host memory, or over the link for a command of the partner (R531). -/
def sendData (t : Nat) (c : Cmd) (d : List Byte) (s : State) : State :=
  if c.remote then emit (.jokor 0x21 (t :: d.map (·.toNat))) s else writeSegs c.fn c.segs d s

/-- The status of a read by its highest media step and recovered step (R175). -/
def readStatus (media recovered : Nat) : Status :=
  if recovered ≤ 1 then .success else if 3 ≤ media then .successRelocated else .successRecovered

/-- READ: its commit point (Table 12-2), once every block's outcome is known and the command is not held. -/
def readEff (t : Nat) (s : State) : State :=
  match cmdOf s t with
  | none => s
  | some c =>
    if c.cmd.opcode ≠ opRead || c.state ≠ .running || c.gate ≠ .open then s
    else
      let outs := (List.range c.cmd.count).map (blockOutcome s c)
      if outs.any Option.isNone then s
      else
        match (List.range c.cmd.count).find? (fun i => match outs.getD i none with | some (.inl _) => true | _ => false) with
        | some i =>
          let st := match outs.getD i none with | some (.inl st) => st | _ => .mediumUnrecovered
          gcHeld (endCmd t st i s)
        | none =>
          let good := outs.filterMap (fun o => match o with | some (.inr d) => some d | _ => none)
          let media := good.foldl (fun a d => max a d.2.1) c.media
          let rec_ := good.foldl (fun a d => max a d.2.2) c.step
          let never := (c.snap.filter (fun b => b = .never)).length
          let st := readStatus media rec_
          let s := sendData t c (good.flatMap (·.1)) s
          let s := modCmd t (fun c => { c with step := rec_, relocated := decide (st = .successRelocated) }) s
          gcHeld (endCmd t st never s)

/-! ### NOP, FLUSH and the volume commands' starts -/

/-- NOP (R361): it completes when it leaves WAITING. -/
def nopEff (t : Nat) (s : State) : State :=
  match cmdOf s t with
  | some c => if c.cmd.opcode = opNop && c.state = .running then endCmd t .success 0 s else s
  | none => s

/-- A command of an opcode that starts to wait for knots up to q, or ends at once (R389). -/
def startWait (op : Nat) (upTo : Cmd → Nat) (t : Nat) (s : State) : State :=
  match cmdOf s t with
  | some c =>
    if c.cmd.opcode = op && c.state = .running && c.waitsKnot.isNone
    then settle (modCmd t (fun c => { c with waitsKnot := some (upTo c) }) s) else s
  | none => s

/-! ### Aborts (R395 to R398) -/

/-- Takes a command out of the ladders it is served by; a ladder that serves nothing else ends, its pins released
(Table 05-3). -/
def leaveLadders (t : Nat) (s : State) : State :=
  let ls := s.pool.ladders.map (fun l => if l.tags.contains t then { l with tags := l.tags.filter (· ≠ t) } else l)
  let dead := s.pool.ladders.filter (fun l => l.tags == [t] && l.recons.isEmpty && l.relocs.isEmpty)
  let s := { s with pool := { s.pool with ladders := ls.filter (fun l => !dead.any (fun d => d.id == l.id)) } }
  forEach (fun (l : Ladder) s => unpinSlot (strandOfAddr l.addr) (pLF l.addr) (pZone l.addr) (slotOf l.addr) s) dead s

/-- Removes what an ABORTED or failed write holds (R382, R398): held blocks, hanks not yet packed and their requests.
Members already formed stay. -/
def dropWrite (seq : Nat) (s : State) : State :=
  { s with media := { s.media with
      held := s.media.held.filter (fun h => h.seq ≠ seq)
      hank := { s.media.hank with
        places := s.media.hank.places.filter (fun p => p.seq ≠ seq)
        queue := s.media.hank.queue.filter (fun r => r.decompress || r.seq ≠ seq) } } }

/-- The outcome of an abort that reaches a target's tag (Table 12-6): the abort's status. Targets end ABORTED with the
effects of R398. -/
def abortTarget (t : Nat) (s : State) : Status × State :=
  match cmdOf s t with
  | none => (.abortNoTarget, s)
  | some c =>
    let op := c.cmd.opcode
    let writeLike := op == opWrite || op == opCreate || op == opClose
    let unitCmd := unitPath op
    if c.state = .ended then (.alreadyComplete, bump Reg.ORD_CNT 5 s)
    else if (c.state = .running && writeLike && c.pnr) || (unitCmd && c.taken) then
      (.abortTooLate, evt Fld.ORD_EVT_ABORT_TOO_LATE noUnit [⟨1, c.cmd.volume⟩, ⟨8, c.seq⟩] (bump Reg.ORD_CNT 4 s))
    else
      let s := endCmd t .aborted 0 s
      let s := if op = opWrite then dropWrite c.seq s else s
      let s := leaveLadders t s
      let s := evt Fld.ORD_EVT_ABORTED noUnit [⟨1, c.cmd.volume⟩, ⟨8, c.seq⟩] (bump Reg.ORD_CNT 3 s)
      (.success, settle s)

/-- The command in flight accepted from a slot of a ring. -/
def abortee (s : State) (remote : Bool) (ring slot : Nat) : Option (Nat × Cmd) :=
  (cmds s).find? (fun e => e.2.ring == ring && e.2.slot == slot && e.2.remote == remote)

/-- ABORT at its acceptance (R361, R395). A ring outside the function's range is no target. -/
def abortEff (t : Nat) (s : State) : State :=
  match cmdOf s t with
  | none => s
  | some c =>
    if c.cmd.opcode ≠ opAbort || c.state = .ended then s
    else
      let ring := HostCmd.targetRing c.cmd
      let slot := HostCmd.targetSlot c.cmd
      let inRange := match s.img.running with
        | some i => (match i.queues.fns[c.fn]? with
          | some f => decide (f.ringBase ≤ ring) && decide (ring < f.ringBase + f.ringCount)
          | none => false)
        | none => false
      if !inRange then endCmd t .abortNoTarget 0 s
      else match abortee s c.remote ring slot with
        | some (u, d) =>
          if u = t || d.cmd.opcode = opAbort then endCmd t .abortNoTarget 0 s
          else
            let (st, s) := abortTarget u s
            endCmd t st 0 s
        | none =>
          let past := match (Tbl.get none ring s.host.ctx : Option RingCtx) with
            | some r => r.wrapped || decide (slot < r.fetchHead)
            | none => false
          if past then endCmd t .alreadyComplete 0 (bump Reg.ORD_CNT 5 s) else endCmd t .abortNoTarget 0 s

/-! ### Lookups and maintenance (R394, R406) -/

/-- LOCK_WAIT_LONG of a command: the event names the oldest entry it waits on (R407). -/
def lockWaitLongEff (t : Nat) (s : State) : State :=
  match cmdOf s t with
  | some c =>
    if c.state = .waiting && !c.warned && !(lockWaits s c).isEmpty || (c.state = .waiting && !c.warned && barred s c) then
      let oldest := match lockWaits s c with | e :: _ => e.seq | [] => 0
      evt Fld.ORD_EVT_LOCK_WAIT_LONG noUnit [⟨1, c.cmd.volume⟩, ⟨8, c.seq⟩, ⟨8, oldest⟩]
        (modCmd t (fun c => { c with warned := true }) s)
    else s
  | none => s

/-- GEN_LOOKUP (R394). A generation applied since mount has a cut; that of a relocation knot is the cut of the data it
moves. -/
def genLookupEff (s : State) : State :=
  let v := volOf s (getF s Fld.ORD_VOL_SEL_VOLUME)
  let g := get64 s Reg.ORD_GEN_ARG_LO
  let base := setReg Reg.ORD_GEN_RESULT 0#32 s
  let s := if v.highGen < g then set64 Reg.ORD_GEN_CUT_LO 0 (setF Fld.ORD_GEN_RESULT_BEYOND 1 base)
    else match v.cuts.find? (fun c => c.generation == g) with
      | some c => set64 Reg.ORD_GEN_CUT_LO c.seq (setFlag Fld.ORD_GEN_RESULT_PARTIAL (!c.wholly) base)
      | none => set64 Reg.ORD_GEN_CUT_LO 0 (setF Fld.ORD_GEN_RESULT_UNKNOWN 1 base)
  evt Fld.ORD_EVT_GEN_DONE noUnit [⟨1, getF s Fld.ORD_VOL_SEL_VOLUME⟩]
    (setF Fld.ORD_CTRL_GEN_GO 0 (setF Fld.ORD_GEN_RESULT_DONE 1 s))

/-- REPLAY_CLEAR (R406). -/
def replayClearEff (s : State) : State :=
  let v := getF s Fld.ORD_VOL_SEL_VOLUME
  if (cmds s).any (fun e => e.2.cmd.volume == v && HostCmd.replay e.2.cmd && e.2.state != .ended) then
    evt Fld.ORD_EVT_CLEAR_REFUSED noUnit [⟨1, v⟩] s
  else modVol v (fun x => { x with replay := [] }) s

/-- SUSPECT_HOLD_EXPIRY: the held command ends with UNIT_SUSPECT (R509). -/
def suspectExpiryEff (t : Nat) (s : State) : State :=
  match cmdOf s t with
  | some c => match c.gate with
    | .suspect u _ =>
      if c.state = .ended then s
      else evt Fld.UNT_EVT_SUSPECT_EXPIRED u [⟨8, c.seq⟩] (gcHeld (leaveLadders t (endCmd t .unitSuspect 0 (bump Reg.UNT_CNT 6 s))))
    | _ => s
  | none => s

end Sys2Proof.Machine
end

