-- ==== Sys2Proof/Machine/Forming.lean ====
section
/-! DEFINITION. Forming held data into data members, packing hanks, sealing skeins, a write's held point, and the forming
of relocation skeins (R184, R186, R196, R197, R224, R225, R236, R381, R382). -/

namespace Sys2Proof.Machine

/-! ### Skeins being filled -/

/-- The members of a new skein: parity members and empty data members. -/
def freshMembers : List Member :=
  (List.range 16).map (fun m => { kind := if isParityMember m then .parity else .empty })

/-- A new skein with the next key. -/
def newSkein (s : State) : Nat × State :=
  let k := s.media.nextKey
  (k, { s with media := { s.media with nextKey := k + 1, skeins := s.media.skeins ++ [{ key := k, members := freshMembers }] } })

/-- The open data skein, or a new one. -/
def openData (s : State) : Nat × State :=
  match s.media.openSkein with
  | some k => (k, s)
  | none => let (k, s) := newSkein s; (k, { s with media := { s.media with openSkein := some k } })

/-- Puts a member at data index d of a skein. -/
def setMember (key d : Nat) (kind : MemberKind) (data : List Byte) (s : State) : State :=
  modSkein key (fun k => { k with members := modAt (memberOfData d) (fun m => { m with kind := kind, data := data }) k.members }) s

/-- Puts a data member at the next data index of the open skein, sealing it when all 12 are filled (R197). Answers where
the member lies. -/
def putMember (kind : MemberKind) (data : List Byte) (seq : Nat) (s : State) : (Nat × Nat) × State :=
  let (key, s) := openData s
  let d := match skeinOf s key with | some k => k.filled | none => 0
  let s := setMember key d kind data s
  let s := modSkein key (fun k => { k with filled := d + 1, oldest := if d = 0 then seq else min k.oldest seq }) s
  ((key, d), if d + 1 = 12 then sealSkein key s else s)

/-! ### Packing hanks (R236) -/

/-- The hank with an identity. -/
def hankOf (s : State) (id : Nat) : Option HankPlace := s.media.hank.places.find? (fun p => p.id == id)

/-- Changes a hank's record. -/
def modHank (id : Nat) (f : HankPlace → HankPlace) (s : State) : State :=
  { s with media := { s.media with hank := { s.media.hank with places := s.media.hank.places.map (fun p => if p.id = id then f p else p) } } }

/-- A volume's packing buffer. -/
def bufOf (s : State) (v : Nat) : PackBuf := Tbl.get {} v s.media.hank.bufs

/-- Replaces a volume's packing buffer. -/
def putBuf (v : Nat) (b : PackBuf) (s : State) : State :=
  { s with media := { s.media with hank := { s.media.hank with bufs := Tbl.put {} v b s.media.hank.bufs } } }

/-- One member of packed bytes goes into the open skein; every hank in it notes the member. -/
def packMember (v seq : Nat) (hanks : List Nat) (data : List Byte) (s : State) : State :=
  let (at_, s) := putMember (.hank v) data seq s
  forEach (fun h s => modHank h (fun p => { p with members := p.members ++ [at_] }) s) hanks s

/-- Full members of a run of bytes become data members, each holding the hanks given; the rest stays in the buffer. -/
def packFull (v seq : Nat) : Nat → List Nat → Nat → List Byte → State → State
  | 0, hanks, since, bs, s => putBuf v { bytes := bs, hanks := hanks, since := since } s
  | n + 1, hanks, since, bs, s =>
    if bs.length < 4096 then putBuf v { bytes := bs, hanks := hanks, since := since } s
    else
      let s := packMember v seq hanks (bs.take 4096) s
      let rest := bs.drop 4096
      packFull v seq n (if rest.isEmpty then [] else hanks.drop (hanks.length - 1)) s.pwr.time rest s

/-- Appends a released hank to its volume's packing buffer (R236). -/
def appendHank (p : HankPlace) (stored : List Byte) (s : State) : State :=
  let b := bufOf s p.vol
  let s := modHank p.id (fun q => { q with offset := b.bytes.length, len := stored.length, inBuf := true, stored := none }) s
  let s := { s with media := { s.media with held := s.media.held.map (fun h =>
      if h.vol = p.vol && h.seq = p.seq && p.lba ≤ h.lba && h.lba < p.lba + 16 then { h with stage := .packed p.id } else h) } }
  let since := if b.bytes.isEmpty then s.pwr.time else b.since
  packFull p.vol p.seq 20 (b.hanks ++ [p.id]) since (b.bytes ++ stored) s

/-- The packing buffer becomes a data member, padded with 0x00. -/
def flushBuf (v : Nat) (s : State) : State :=
  let b := bufOf s v
  if b.bytes.isEmpty then s
  else
    let seq := match b.hanks.filterMap (hankOf s) with | p :: _ => p.seq | [] => 0
    let s := packMember v seq b.hanks (b.bytes ++ List.replicate (4096 - b.bytes.length) 0) s
    putBuf v {} s

/-- A hank whose bytes all lie in data members. -/
def hankPlaced (s : State) (p : HankPlace) : Bool :=
  p.inBuf && !(bufOf s p.vol).hanks.contains p.id

/-! ### Forming (R196, R225) -/

/-- A WRITE of a volume accepted before seq, or at it, has neither reached its held point nor ended (R196). -/
def unheldBefore (s : State) (v seq : Nat) : Bool :=
  (cmds s).any (fun e => e.2.cmd.opcode == opWrite && e.2.cmd.volume == v && decide (e.2.seq ≤ seq) &&
    e.2.state != .ended && !e.2.heldPoint)

/-- Puts a held block into a list by acceptance number, then by its place in its write. -/
def insHeld (h : Held) : List Held → List Held
  | [] => [h]
  | k :: ks => if h.seq < k.seq || (h.seq == k.seq && decide (h.id ≤ k.id)) then h :: k :: ks else k :: insHeld h ks

/-- Held blocks in the order of their volumes' write streams. -/
def inStream (l : List Held) : List Held := l.foldl (fun a h => insHeld h a) []

/-- The hank that a held block belongs to, coded or not. -/
def hankFor (s : State) (h : Held) : Option HankPlace :=
  s.media.hank.places.find? (fun p => p.vol == h.vol && p.seq == h.seq && decide (p.lba ≤ h.lba) && decide (h.lba < p.lba + 16))

/-- Forms held blocks in acceptance order; a volume whose next data cannot be formed is blocked, others go on. -/
def formGo : List Held → List Nat → State → State
  | [], _, s => s
  | h :: hs, blocked, s =>
    if blocked.contains h.vol then formGo hs blocked s
    else if (match heldOf s h.id with | some (k : Held) => decide (k.stage ≠ HeldStage.held) | none => true) then formGo hs blocked s
    else if unheldBefore s h.vol h.seq then formGo hs (h.vol :: blocked) s
    else match hankFor s h with
      | some p =>
        match p.stored with
        | some bytes => formGo hs blocked (appendHank p bytes s)
        | none => formGo hs (h.vol :: blocked) s
      | none =>
        let ((key, d), s) := putMember (.block h.id h.vol) h.data h.seq s
        let s := { s with media := { s.media with held := s.media.held.map (fun (k : Held) => if k.id = h.id then { k with stage := .formed key d } else k) } }
        -- the end of an ATOMIC write's data is a seal event
        let last := h.atomic && !(hs.any (fun (k : Held) => k.seq == h.seq))
        formGo hs blocked (if last then sealOpen s else s)

/-- Data of a volume up to an acceptance number is all formed (R197). -/
def allFormed (s : State) (v seq : Nat) : Bool :=
  !unheldBefore s v seq && !s.media.held.any (fun h => h.vol == v && decide (h.seq ≤ seq) && h.stage == .held)

/-- The open skein holds data of a volume up to an acceptance number. -/
def openHolds (s : State) (v seq : Nat) : Bool :=
  match s.media.openSkein with
  | some key => match skeinOf s key with
    | some k => (dataOf s k).any (fun e => e.1 == v && decide (e.2 ≤ seq))
    | none => false
  | none => false

/-- The seal event of a FUA write or FLUSH (R197, R236). -/
def sealFor (e : Nat × Cmd) (s : State) : State :=
  match e.2.waitsKnot with
  | some q =>
    let v := e.2.cmd.volume
    if e.2.state = .running && allFormed s v q then
      let s := flushBuf v s
      if openHolds s v q then sealOpen s else s
    else s
  | none => s

/-- Forms what can be formed, and seals for the commands that wait. -/
def formAll (s : State) : State :=
  let s := formGo (inStream (s.media.held.filter (fun h => h.stage == .held))) [] s
  forEach sealFor (cmds s) s

/-- Packs every buffer and seals the open skein: QUIESCE (R197, R236). -/
def sealAll (s : State) : State :=
  sealOpen (forEach flushBuf (s.media.hank.bufs.map (·.1)) (formAll s))

/-! ### Writes (R225, R360, R381, R382) -/

/-- The volume compresses. -/
def compressed (s : State) (v : Nat) : Bool := decide ((volOf s v).compMode ≠ 0)

/-- The first blocks of the whole hanks that a write covers (R225). -/
def wholeHanks (c : HostCmd) : List Nat :=
  if HostCmd.atomic c then []
  else ((List.range (c.count / 16 + 2)).map (fun i => 16 * (c.lba / 16 + i))).filter
    (fun b => decide (c.lba ≤ b) && decide (b + 16 ≤ c.lba + c.count))

/-- A write that forms a hank (R235). -/
def formsHank (s : State) (c : HostCmd) : Bool := compressed s c.volume && !(wholeHanks c).isEmpty

/-- Starts the reads of a write's data from host memory. -/
def readHost (t : Nat) (c : Cmd) (s : State) : State :=
  let s := modCmd t (fun c => { c with reading := true }) s
  if c.remote then s else forEach (fun (g : Nat × Nat) s => emit (.hostRead c.fn g.1 g.2) s) c.segs s

/-- WRITE: a running write reads its data from host memory while held data is below the limit (R381). One that forms a
hank while no engine is in service ends (R235). -/
def writeEff (t : Nat) (s : State) : State :=
  match cmdOf s t with
  | none => s
  | some c =>
    if c.cmd.opcode ≠ opWrite || c.state ≠ .running || c.reading then s
    else if formsHank s c.cmd && noHankEngine s then noEngineEvt (endCmd t .unitNotReady 0 s)
    else if belowLimit s then readHost t c s else s

/-- WRITE_BEHIND_SPACE: waiting writes read their data, in acceptance order, while there is space. -/
def writeSpaceEff (s : State) : State := forEach (fun e s => writeEff e.1 s) (cmds s) s

/-- Queues the coding of a write's whole hanks in order (R243). -/
def queueHanks (c : Cmd) (s : State) : State :=
  if !compressed s c.cmd.volume then s
  else forEach (fun (b : Nat) s =>
    let id := s.media.hank.nextHank
    { s with media := { s.media with hank := { s.media.hank with
        nextHank := id + 1
        places := s.media.hank.places ++ [{ id := id, vol := c.cmd.volume, seq := c.seq, lba := b }]
        queue := s.media.hank.queue ++ [{ vol := c.cmd.volume, decompress := false, seq := c.seq, lba := b, hank := id }] } } })
    (wholeHanks c.cmd) s

/-- The held blocks of a write's data. -/
def holdBlocks (c : Cmd) (data : List Byte) (s : State) : State :=
  let base := s.media.nextHeld
  let hs := (List.range c.cmd.count).map (fun i =>
    ({ id := base + i, vol := c.cmd.volume, seq := c.seq, lba := c.cmd.lba + i, data := slice data (4096 * i) 4096,
       atomic := HostCmd.atomic c.cmd, fua := HostCmd.fua c.cmd, single := !twins s, since := s.pwr.time } : Held))
  { s with media := { s.media with nextHeld := base + c.cmd.count, held := s.media.held ++ hs } }

/-- The held point: the range lock goes, hanks are queued, data is formed, and the write completes or waits for its knot
(R381, R387, R388). -/
def reachHeld (t : Nat) (s : State) : State :=
  match cmdOf s t with
  | none => s
  | some c =>
    if c.state ≠ .running || c.heldPoint || c.held.isEmpty || s.pair.settling || !acked s (.held t) then s
    else
      let s := modCmd t (fun c => { c with heldPoint := true, lock := none }) s
      let s := queueHanks c s
      let s := if asFua s c then modCmd t (fun c => { c with waitsKnot := some c.seq }) s else endCmd t .success 0 s
      settle (formAll s)

/-- WRITE_HELD_POINT: the write's data has come from host memory and is held, mirrored where the pair has it; a read of it
that failed ends the write with no effect (R381, R382). -/
def writeHeldEff (t : Nat) (data : Option (List Byte)) (s : State) : State :=
  match cmdOf s t with
  | none => s
  | some c =>
    if c.cmd.opcode ≠ opWrite || c.state ≠ .running || !c.reading || c.heldPoint || !c.held.isEmpty then s
    else match data with
      | none =>
        let s := evt Fld.HQ_EVT_HOST_ACCESS noUnit [⟨1, c.fn⟩, ⟨4, c.ring⟩] s
        settle (formAll (dropWrite c.seq (endCmd t .invalidField 0x800000FF s)))
      | some d =>
        let first := s.media.nextHeld
        let s := modCmd t (fun c => { c with held := upFrom first c.cmd.count }) (holdBlocks c d s)
        reachHeld t (mirror (.held t) s)

/-! ### Relocation skeins (R184, R186) -/

/-- The members that an entry names: the skein, the member and the entry's place list. -/
def entryMembers (e : MapEntry) : List (Nat × Nat) := (upFrom e.firstDi e.count).map (fun d => (e.skein, memberOfData d))

/-- The indices of the entries of the hank that the entry at i belongs to; a plain entry stands alone. -/
def entryGroup (m : List MapEntry) (i : Nat) : List Nat :=
  match m[i]? with
  | none => []
  | some e =>
    if !e.hank then [i]
    else
      let same (j : Nat) : Bool := match m[j]? with
        | some f => f.hank && f.lba == e.lba && f.generation == e.generation && f.knotSeq == e.knotSeq
        | none => false
      (List.range m.length).filter same

/-- One round of the closure of R184: the groups of the hank entries that share a member with the entries found. -/
def relocGrow (m : List MapEntry) (found : List Nat) : List Nat :=
  let groups := found.flatMap (entryGroup m)
  let mem := (groups.filterMap (fun i => m[i]?)).flatMap entryMembers
  let more := (List.range m.length).filter (fun i => match m[i]? with
    | some e => e.hank && (entryMembers e).any mem.contains
    | none => false)
  (groups ++ more).eraseDups

/-- The entries that must be copied with a skein: of every volume, those that name one of its members, closed under
hanks. -/
def relocEntries (s : State) (skein : Nat) : List (Nat × Nat) :=
  s.media.vols.flatMap (fun e =>
    let m := e.2.map
    let first := (List.range m.length).filter (fun i => match m[i]? with | some x => x.skein == skein | none => false)
    let all := if first.isEmpty then [] else (List.range 4).foldl (fun a _ => relocGrow m a) first
    all.map (fun i => (e.1, i)))

/-- The old members to copy, in order: skein, member, volume and HANK bit. -/
def relocMembers (s : State) (r : Reloc) : List (Nat × Nat × Nat × Bool) :=
  (r.entries.flatMap (fun e => match (volOf s e.1).map[e.2]? with
    | some x => (entryMembers x).map (fun m => (m.1, m.2, e.1, x.hank))
    | none => [])).eraseDups

/-- The open relocation skein with room for n members, or a new one. -/
def openRelocFor (n : Nat) (s : State) : Nat × State :=
  let fresh (s : State) : Nat × State :=
    let (k, s) := newSkein s
    (k, modSkein k (fun x => { x with isReloc := true }) { s with media := { s.media with openReloc := some k } })
  match s.media.openReloc with
  | some k => match skeinOf s k with
    | some x => if x.filled + n ≤ 12 then (k, s) else fresh (sealSkein k s)
    | none => fresh s
  | none => fresh s

/-- Copies the members of one old skein, kept consecutive in one new skein. -/
def copyMembers (old : Nat) (ms : List (Nat × Nat × Nat × Bool)) (skein : Nat) (s : State) : State :=
  let mine := ((List.range 16).filterMap (fun m => ms.find? (fun e => e.1 == old && e.2.1 == m)))
  let (key, s) := openRelocFor mine.length s
  forEach (fun (e : Nat × Nat × Nat × Bool) s =>
    let d := match skeinOf s key with | some k => k.filled | none => 0
    let data := match cachedOf s e.1 e.2.1 with | some c => c.data | none => List.replicate 4096 0
    let s := setMember key d (.reloc e.2.2.1 e.2.2.2) data s
    let s := modSkein key (fun k => { k with filled := d + 1 }) s
    { s with media := { s.media with relocs := s.media.relocs.map (fun r =>
        if r.skein = skein then { r with moved := r.moved ++ [(memberKey e.1 e.2.1, key, d)] } else r) } }) mine s

/-- Forms the relocation of one queued skein whose source data is in the cache. -/
def formReloc (r : Reloc) (s : State) : State :=
  let ms := relocMembers s r
  if r.formed || !ms.all (fun m => (cachedOf s m.1 m.2.1).isSome) then s
  else
    let s := forEach (fun old s => copyMembers old ms r.skein s) (ms.map (·.1)).eraseDups s
    { s with media := { s.media with relocs := s.media.relocs.map (fun x => if x.skein = r.skein then { x with formed := true } else x) } }

/-- Seals the open relocation skein. -/
def sealReloc (s : State) : State := match s.media.openReloc with | some k => sealSkein k s | none => s

/-- A carriage is in DRAINING or SERVICE: relocation data is held (R186). -/
def carsDraining (s : State) : Bool := allCars.any (fun c => ust s (uCar c) = .draining || ust s (uCar c) = .service)

/-- Forms up to RELOC_MIN relocations per KNOT_INTERVAL (R186). -/
def formRelocs (s : State) : State :=
  if flag s Fld.SKN_CTRL_RELOC_PAUSE || carsDraining s then s
  else
    let due := (s.media.relocs.filter (fun r => !r.formed)).take (getF s Fld.SKN_RELOC_CFG_RELOC_MIN)
    if due.isEmpty then s else sealReloc (forEach formReloc due s)

/-- KNOT_INTERVAL_EXPIRY: of the open skein, or of a volume's packing buffer (R197, R236); relocations due in the interval
are formed with it (R186). -/
def knotIntervalEff (buf : Option Nat) (s : State) : State :=
  match buf with
  | none => formRelocs (sealOpen s)
  | some v => flushBuf (v % 64) s

/-- RELOC_PAUSE written. -/
def relocPauseEff (on : Bool) (s : State) : State := setFlag Fld.SKN_CTRL_RELOC_PAUSE on s

end Sys2Proof.Machine
end

