-- ==== Sys2Proof/Machine/Passes.lean ====
section
/-! DEFINITION. Passes of the carriages, their driver link and write powers, and the write stops of commands and pins
(R198 to R211, R213, R218, R221, R222). -/

namespace Sys2Proof.Machine

/-! ### Reads that wait (R204) -/

/-- The members that a running read still needs: skein, member and placement. -/
def wantedOf (s : State) (c : Cmd) : List (Nat × Nat × List Nat) :=
  if c.cmd.opcode ≠ opRead || c.state ≠ .running || c.gate ≠ .open then []
  else
    let map := (volOf s c.cmd.volume).map
    let need := (List.range c.cmd.count).flatMap (fun i =>
      if c.fails.any (fun f => f.1 == i) then []
      else match c.snap.getD i .never with
        | .mapped e k => match map[e]? with
          | some en =>
            if en.hank then
              if (Tbl.get [] i c.got).isEmpty then
                ((entryGroup map e).filterMap (fun j => map[j]?)).flatMap (fun x => (entryMembers x).map (fun m => (m.1, m.2, x.place)))
              else []
            else [(en.skein, memberOfData (en.firstDi + k), en.place)]
          | none => []
        | _ => [])
    (need.filter (fun m => (cachedOf s m.1 m.2.1).isNone)).eraseDups

/-- The tags of reads that wait for a member on a carriage. -/
def readsOn (s : State) (c : Nat) : List Nat :=
  ((cmds s).filter (fun e => (wantedOf s e.2).any (fun m => m.2.1 / 4 == c))).map (·.1)

/-! ### Write strategy and driver link (R206 to R210) -/

/-- The payload of an MRAM record: that of its newest valid slot (R447). -/
def mramPayload (s : State) (typ index : Nat) : Option (List Byte) :=
  let r : MramRec := Tbl.get {} (typ * 65536 + index) s.mram.recs
  match r.a, r.b with
  | some x, some y => some (if y.generation < x.generation then x.payload else y.payload)
  | some x, none => some x.payload
  | none, some y => some y.payload
  | none, none => none

/-- A signed and an unsigned byte of a record. -/
def recI (r : List Byte) (o : Nat) : Int := signed 8 (leAt r o 1)
def recN (r : List Byte) (o : Nat) : Nat := leAt r o 1

/-- The pulses of a mark of nT as (start, length) in T/32 from its nominal leading edge (R210). -/
def pulsesOf (r : List Byte) (n : Nat) : List (Int × Nat) :=
  if n = 1 then [(recI r 20, recN r 21)]
  else if n = 2 then [(recI r 22, recN r 23)]
  else
    let o := if n = 3 then 24 else if n = 4 then 28 else 32
    [(recI r o, recN r (o + 1))] ++ (upFrom 1 (n - 3)).map (fun (i : Nat) => (((32 * i : Nat) : Int), recN r 36)) ++
      [(((32 * (n - 2) : Nat) : Int) + recI r (o + 2), recN r (o + 3))]

/-- No pulse overlaps the next one. -/
def pulsesApart : List (Int × Nat) → Bool
  | a :: b :: rest => decide (a.1 + a.2 ≤ b.1) && pulsesApart (b :: rest)
  | _ => true

/-- A valid write-strategy record (Table 06-4). -/
def strategyOk (r : List Byte) : Bool :=
  recN r 0 == 1 && decide (500 ≤ leAt r 2 2) && decide (leAt r 2 2 ≤ 1500) && decide (100 ≤ leAt r 6 2) && decide (leAt r 6 2 ≤ 900) &&
    (List.range 8).all (fun k => decide (-40 ≤ recI r (12 + k)) && decide (recI r (12 + k) ≤ 40)) &&
    [20, 22, 24, 26, 28, 30, 32, 34].all (fun o => decide (-32 ≤ recI r o) && decide (recI r o ≤ 32) &&
      decide (1 ≤ recN r (o + 1)) && decide (recN r (o + 1) ≤ 64)) &&
    decide (1 ≤ recN r 36) && decide (recN r 36 ≤ 32) && (upFrom 1 11).all (fun n => pulsesApart (pulsesOf r n))

/-- The write-strategy record in force on a carriage's layer; the ROM default where the MRAM has none (R209). -/
def strategyOf (s : State) (c layer : Nat) : List Byte :=
  match mramPayload s 0x11 (16 * c + layer) with
  | some r => if strategyOk r then r else Config.romStrategy
  | none => Config.romStrategy

/-- P_PEAK and P_BIAS of channel k in a zone, in 0.01 mW (R208). -/
def powersOf (s : State) (c lf zone k : Nat) : Nat × Nat :=
  let r := strategyOf s c (lf % 16)
  let nom := s.media.disc.writeNominal.getD zone 0
  let n := if nom = 0 then leAt r 4 2 else nom
  let peak := roundDiv ((n : Int) * (leAt r 2 2 : Nat) * (200 + recI r (12 + k))) 200000
  (peak.toNat, (roundDiv (peak * (leAt r 6 2 : Nat)) 1000).toNat)

/-- A controller frame of the Pickup Driver Link, odd parity in bit 0 (Table 06-2). -/
def pdlFrame (rd : Bool) (ch addr data : Nat) : Nat :=
  let body := (if rd then 0x80000000 else 0) + ch * 0x8000000 + addr * 0x100000 + data * 16
  let ones := ((List.range 32).filter (fun i => bit body i)).length
  body + (1 - ones % 2)

/-- Sends a frame. -/
def sendPdl (c frame : Nat) (s : State) : State :=
  emit (.pdl c frame) (modWcar c (fun w => { w with pdlFrame := frame }) s)

/-- Writes one value per channel: one all-channel frame where all share it (R208). -/
def sendPowers (c addr : Nat) (vals : List Nat) (s : State) : State :=
  if vals.all (fun v => v == vals.headD 0) then sendPdl c (pdlFrame false 0xF addr (vals.headD 0)) s
  else forEach (fun k s => sendPdl c (pdlFrame false k addr (vals.getD k 0)) s) (List.range 8) s

/-- The driver powers and the DRV_STATUS read before a pass on another layer-face or zone (R208). -/
def setPowers (c lf zone : Nat) (s : State) : State :=
  if (wcar s c).lastPowerZone = some (lf, zone) then s
  else
    let ps := (List.range 8).map (powersOf s c lf zone)
    let s := sendPowers c 0x12 (ps.map (·.1)) s
    let s := sendPowers c 0x11 (ps.map (·.2)) s
    let s := sendPdl c (pdlFrame true 0 0x01 0) s
    modWcar c (fun w => { w with lastPowerZone := some (lf, zone) }) s

/-- PDL_FRAME: the driver's response to a frame (R207). -/
def pdlFrameEff (c resp : Nat) (s : State) : State :=
  if 4 ≤ c || !bound s (uCar c) then s
  else
    let w := wcar s c
    let good := bits resp 28 4 == 0xA && ((List.range 32).filter (fun i => bit resp i)).length % 2 == 1
    let service := ust s (uCar c) = .service
    if good then
      let s := modWcar c (fun w => { w with pdlTries := 0 }) s
      if service then setReg (Reg.WRP_PDL_RESP + 4 * c) (BitVec.ofNat 32 (0x80000000 + bits resp 4 16)) s else s
    else if w.pdlTries < 2 then
      emit (.pdl c w.pdlFrame) (modWcar c (fun w => { w with pdlTries := w.pdlTries + 1 }) s)
    else
      let s := modWcar c (fun w => { w with pdlTries := 0, drvReady := false }) s
      let s := bump Reg.WRP_CNT 10 s
      let s := if service then setReg (Reg.WRP_PDL_RESP + 4 * c) (BitVec.ofNat 32 (0x80000000 + 0x40000000)) s else s
      let s := evt Fld.WRP_EVT_PDL_ERROR (uCar c) [⟨1, c⟩] (stopAtSlot c s)
      carGradeCheck .sensor c s

/-- DRV_STATUS_POLL (R208): a faulted channel loses WRITE_OK, over-temperature stops writing, and clear bits [9:8] let a
pass begin. -/
def drvPollEff (c st : Nat) (s : State) : State :=
  if 4 ≤ c || !bound s (uCar c) then s
  else
    let bad := bits st 0 8
    let newBad := (wcar s c).writeBad ||| bad
    let s := if bad ≠ 0 then
        evt Fld.WRP_EVT_DRIVER_FAULT (uCar c) [⟨1, c⟩] (modWcar c (fun w => { w with writeBad := newBad }) s) else s
    let s := modWcar c (fun w => { w with drvReady := bits st 8 2 == 0 }) s
    carGradeCheck .sensor c (if bit st 9 then stopAtSlot c s else s)

/-- WRP_PDL_CMD (R222): sent while the carriage is in SERVICE. -/
def pdlCmdEff (c frame : Nat) (s : State) : State :=
  if 4 ≤ c then s
  else
    let s := setReg (Reg.WRP_PDL_CMD + 4 * c) (BitVec.ofNat 32 frame) s
    if ust s (uCar c) = .service then
      sendPdl c (frame % 0x100000000) (setReg (Reg.WRP_PDL_RESP + 4 * c) 0#32 s) else s

/-! ### Lanes and placement (R97 to R100, R198, R199) -/

/-- Whether strand k of a carriage can write (R199). While the carriage itself does not serve, only a driver fault
counts. -/
def strandWrites (s : State) (c k : Nat) : Bool :=
  !bit (wcar s c).writeBad k && (!(ust s (uCar c)).serves || (ust s (uStrand (8 * c + k))).serves)

/-- The lanes that skeins may take on a carriage. -/
def lanesOk (s : State) (c : Nat) : List Nat :=
  (List.range 8).filter (fun l => (List.range 4).all (fun j => strandWrites s c ((l + 2 * j) % 8)))

/-- The step and lane of a placement on a carriage. -/
def stepLane (c p : Nat) : Nat × Nat := (stepOf c (pLF p) (pZone p) (pBlock p), pLane p)

/-- The first lane not given on a carriage: behind the last skein placed and still queued there. -/
def cursorOf (s : State) (c : Nat) : Nat × Nat :=
  let w := wcar s c
  (w.queue.filterMap (fun k => (skeinOf s k).bind (fun x => x.place.getD c none))).foldl (fun a p =>
    let (st, l) := stepLane c p
    if a.1 < st || (a.1 == st && decide (a.2 ≤ l)) then (st, l + 1) else a) (w.frontier, 0)

/-- The next usable lane at or after a cursor. -/
def nextLane (ok : List Nat) (st l : Nat) : Option (Nat × Nat) :=
  match ok.find? (fun x => decide (l ≤ x)) with
  | some x => some (st, x)
  | none => match ok with
    | x :: _ => some (st + 1, x)
    | [] => none

/-- Where a skein would lie on a carriage: the next lane, as a placement; none where no lane is usable. The truth value
says that the carriage's sequence has ended (R116). -/
def nextPlace (s : State) (c : Nat) : Option Nat × Bool :=
  let (st, l) := cursorOf s c
  match nextLane (lanesOk s c) st l with
  | none => (none, false)
  | some (st, l) => match blockAt c st with
    | some (lf, z, b) => (some (placement lf z b l), false)
    | none => (none, true)

/-- Places a skein on all four carriages (R198, R100), as its metadata names all four placements. -/
def placeSkein (key : Nat) (s : State) : State :=
  let ps := allCars.map (nextPlace s)
  if ps.any (·.2) then
    let s := match skeinOf s key with
      | some k => if k.isReloc && !k.unplaceable then
          bump Reg.SKN_CNT 6 (evt Fld.SKN_EVT_RELOC_FAIL noUnit [⟨4, k.number.getD 0⟩] s) else s
      | none => s
    settle (modSkein key (fun k => { k with unplaceable := true }) s)
  else if ps.all (fun p => p.1.isSome) then
    let pl := ps.map (fun p => p.1.getD 0)
    let s := modSkein key (fun k => { k with
      place := pl.map some, unplaceable := false,
      members := (k.members.zip (List.range 16)).map (fun e => { e.1 with rot := memberRot pl e.2 }) }) s
    mirror (.placed key) s
  else s

/-- A skein's placements, 0 where it has none. -/
def placeOf (k : Skein) : List Nat := k.place.map (·.getD 0)

/-! ### Passes (R200 to R205) -/

/-- The most whole blocks of a zone that fit within (96 − TURN_JUMP) segments per revolution (R200). -/
def passFit (s : State) (z : Nat) : Nat :=
  (96 - getF s Fld.WRP_PASS_CFG_TURN_JUMP) * segData z / 38816 / 4

/-- The block steps that a pass at a step may take: what fits, up to the zone's last whole block, and at least 1. -/
def passLimit (s : State) (z b : Nat) : Nat := max 1 (min (passFit s z) (firstBlock z + blocksIn z - b))

/-- Places queued skeins while they fall within the pass's blocks; answers the pass's skeins. -/
def gather (c f lim : Nat) : Nat → List Nat → State → List Nat × State
  | 0, _, s => ([], s)
  | _ + 1, [], s => ([], s)
  | n + 1, key :: rest, s =>
    let inWindow (s : State) : Bool := match (skeinOf s key).bind (fun k => k.place.getD c none) with
      | some p => decide ((stepLane c p).1 < f + lim)
      | none => false
    let placed := match skeinOf s key with | some k => (k.place.getD c none).isSome | none => false
    let fits := placed || (match (nextPlace s c).1 with | some p => decide ((stepLane c p).1 < f + lim) | none => (nextPlace s c).2)
    let s := if placed || !fits then s else placeSkein key s
    if inWindow s then
      let (ks, s) := gather c f lim n rest s
      (key :: ks, s)
    else ([], s)

/-- A placed lane that a failed strand has taken away: its skein is formed again, uncounted (R199, R219). -/
def dropBadLanes (c : Nat) (s : State) : State :=
  forEach (fun key s => match (skeinOf s key).bind (fun k => k.place.getD c none) with
    | some p => if (lanesOk s c).contains (pLane p) then s else reform key false s
    | none => s) (wcar s c).queue s

/-- What a skein's first pulse waits for in a pair (Table 18-3). -/
def pulseAcked (s : State) (key : Nat) : Bool :=
  acked s (.placed key) && (match skeinOf s key with
    | some k => k.knots.all (fun n => acked s (.knot n.vol n.seq))
    | none => true)

/-- The skein of a write's first block (Table 12-2). -/
def firstSkein (s : State) (seq : Nat) : Option Nat :=
  match inStream (s.media.held.filter (fun h => h.seq == seq)) with
  | h :: _ => match h.stage with
    | .formed k _ => some k
    | .packed id => (hankOf s id).bind (fun p => p.members.head?.map (·.1))
    | _ => none
  | [] => none

/-- The first pulse of a skein (R205): the writes that it is the first skein of, and the volume commands whose knot it
holds, are past their point of no return. -/
def firePulse (key : Nat) (s : State) : State :=
  match skeinOf s key with
  | none => s
  | some k =>
    if k.firstPulse then s
    else
      let s := modSkein key (fun k => { k with firstPulse := true }) s
      forEach (fun e s =>
        let c := e.2
        let mine := if c.cmd.opcode = opWrite then firstSkein s c.seq == some key
          else (c.cmd.opcode == opCreate && k.knots.any (fun n => n.create && n.vol == c.cmd.volume)) ||
            (c.cmd.opcode == opClose && k.knots.any (fun n => n.close && n.vol == c.cmd.volume))
        if c.state = .running && mine then modCmd e.1 (fun c => { c with pnr := true }) s else s) (cmds s) s

/-- Conditions for a carriage to begin a pass, but for the queue and the pre-read (R199, R204, R218, Table 06-5). A disc that
drains for an OFFLINE request still takes the held data (R505). -/
def mayPass (s : State) (c : Nat) : Bool :=
  let w := wcar s c
  isOwner s && s.media.disc.mounted && (ust s (uCar c)).serves && serving s uSpindle && (serving s uDisc || decide (ust s uDisc = .draining)) &&
    serving s (uSide (carSide c)) && !flag s Fld.WRP_CTRL_WRITE_INHIBIT && !inPass w && w.drvReady &&
    !s.pwr.pfRunning && !s.pwr.ilk && !s.pwr.trip && (carOfS s c).st == .follow &&
    (w.serve.filter (readsOn s c).contains).isEmpty

/-- Begins the writing of a planned pass. -/
def beginPass (c lf z : Nat) (ks : List Nat) (s : State) : State :=
  let s := setPowers c lf z s
  let s := modWcar c (fun w => { w with
    state := .writing, preRead := none, stopAtSlotEnd := false,
    burst := if (readsOn s c).isEmpty then 0 else w.burst + 1, serve := [] }) s
  let s := setGate c true s
  let s := forEach firePulse ks s
  bump Reg.WRP_CNT 0 s

/-- Plans a pass at the frontier and begins its writing, or its pre-read where one is due (R200, R202). -/
def planPass (c : Nat) (s : State) : State :=
  let s := dropBadLanes c s
  let w := wcar s c
  match blockAt c w.frontier with
  | none => s
  | some (lf, z, b) =>
    let lim := passLimit s z b
    let (ks, s) := gather c w.frontier lim w.queue.length w.queue s
    let last := ks.foldl (fun a k => match (skeinOf s k).bind (fun k => k.place.getD c none) with
      | some p => max a ((stepLane c p).1 + 1)
      | none => a) (w.frontier + 1)
    let here := (carOfS s c).lf = lf && (carOfS s c).turn = turnOfSlot z (4 * b) % 10625
    if ks.isEmpty || !here then s
    else
      let s := modWcar c (fun w => { w with passStart := w.frontier, passSkeins := ks, passBlocks := last - w.frontier }) s
      let due := (flag s Fld.WRP_CTRL_PREREAD_ALWAYS || w.lastEnd ≠ some w.frontier) && w.preRead ≠ some w.frontier
      if due then modWcar c (fun w => { w with state := .preRead }) s
      else if ks.all (pulseAcked s) then beginPass c lf z ks s
      else s

/-- PASS_START (R200). -/
def passStartEff (c : Nat) (s : State) : State :=
  if 4 ≤ c || !mayPass s c then s else planPass c s

/-- PRE_READ (R202): the pre-read revolution ends; written is the first slot found not BLANK, as its block within the
pass and how many slots were found, or none. -/
def preReadEff (c : Nat) (written : Option (Nat × Nat)) (s : State) : State :=
  if 4 ≤ c || (wcar s c).state ≠ .preRead then s
  else
    let w := wcar s c
    match written with
    | none =>
      let s := modWcar c (fun w => { w with state := .idle, preRead := some w.frontier }) s
      if mayPass s c then planPass c s else s
    | some (k, n) =>
      let k := min k (w.passBlocks - 1)
      -- skeins already placed at or before the moved frontier are formed again, uncounted
      let s := modWcar c (fun w => { w with frontier := w.frontier + k + 1, passSkeins := [], preRead := none, state := .idle }) s
      let s := forEach (fun key s => reform key false s)
        ((wcar s c).queue.filter (fun key => match (skeinOf s key).bind (fun k => k.place.getD c none) with
          | some p => decide ((stepLane c p).1 < (wcar s c).frontier)
          | none => false)) s
      let s := bumpBy (Reg.WRP_CNT + 32) (max 1 n) s
      let s := evt Fld.WRP_EVT_WRITTEN_FOUND (uCar c) [⟨1, c⟩] s
      if mayPass s c then planPass c s else s

/-- KIND of a member (R95). -/
def kindCode : MemberKind → Nat
  | .parity => 0x02
  | .knot _ _ => 0x03
  | .ckpt _ _ => 0x04
  | .fill => 0x05
  | .empty => 0x05
  | _ => 0x01

/-- VOLUME and CFLAGS of a member's metadata (Table 03-4). -/
def kindVolume : MemberKind → Nat × Nat
  | .block _ v => (v, 0)
  | .hank v => (v, 1)
  | .reloc v h => (v, 2 + (if h then 1 else 0))
  | _ => (0xFF, 0)

/-- The payload of member m of a skein as written. -/
def memberPayload (k : Skein) (m : Nat) : List Byte :=
  let x := k.members.getD m {}
  let stored := rotate x.rot x.data
  stored ++ metaBytes stored (k.number.getD 0) m (kindCode x.kind) x.rot (placeOf k) (kindVolume x.kind).1 (kindVolume x.kind).2

/-- The payload of a fill member of a lane without a skein (R98, R200). -/
def fillPayload : List Byte :=
  let d := List.replicate 4096 (0 : Byte)
  d ++ metaBytes d 0xFFFFFFFF 0xFF 0x05 0 [] 0xFF 0

/-- The address of a slot of a start (R97). -/
def slotAddr (lf zone slot start : Nat) : Nat :=
  withJ (placement lf zone (slot / 4) ((start + 8 - 2 * (slot % 4)) % 8)) (slot % 4)

/-- The slots of a pass that no skein takes and that their strands can write, as addresses (R199, R200), those after the
zone's last block included. -/
def fillSlots (s : State) (c : Nat) : List Nat :=
  let w := wcar s c
  let taken := w.passSkeins.filterMap (fun key => (skeinOf s key).bind (fun k => k.place.getD c none))
  let blocks := (upFrom w.passStart w.passBlocks).filterMap (blockAt c)
  let lanes := blocks.flatMap (fun (e : Nat × Nat × Nat) => (List.range 8).flatMap (fun l =>
    let p := placement e.1 e.2.1 e.2.2 l
    if taken.contains p then []
    else ((List.range 4).filter (fun j => strandWrites s c ((l + 2 * j) % 8))).map (fun j => withJ p j)))
  let tail := match blocks.getLast? with
    | some (lf, z, b) =>
      if b + 1 = firstBlock z + blocksIn z then
        (upFrom (4 * (b + 1)) (slotsIn z - 4 * (b + 1))).flatMap (fun i =>
          ((List.range 8).filter (strandWrites s c)).map (slotAddr lf z i))
      else []
    | none => []
  lanes ++ tail

/-- PASS_WRITE_END (R201): the last slot ends, the write gate goes off, and the ply jumps back one turn. A pass asked to
stop at the end of its slot is abandoned here (Table 06-5). -/
def passWriteEndEff (c : Nat) (s : State) : State :=
  if 4 ≤ c || (wcar s c).state ≠ .writing then s
  else if (wcar s c).stopAtSlotEnd then abandonPass c s
  else
    let w := wcar s c
    let fills := fillSlots s c
    let s := setGate c false s
    let s := forEach (fun key s => match skeinOf s key with
      | some k => forEach (fun j s => emit (.sector (withJ ((placeOf k).getD c 0) j) (memberPayload k (4 * c + j))) s) (List.range 4) s
      | none => s) w.passSkeins s
    let s := forEach (fun a s => emit (.sector a fillPayload) s) fills s
    let s := forEach (fun key s => modSkein key (fun k => { k with
      members := (k.members.zip (List.range 16)).map (fun e => if e.2 / 4 = c then { e.1 with written := true } else e.1) }) s) w.passSkeins s
    let knots := ((w.passSkeins.filterMap (skeinOf s)).flatMap (fun k =>
      (upFrom (4 * c) 4).filter (fun m => kindCode (k.members.getD m {}).kind == 3))).length
    let s := bumpBy (Reg.WRP_CNT + 4) (4 * w.passSkeins.length + fills.length) s
    let s := bumpBy (Reg.WRP_CNT + 24) knots s
    let s := bumpBy (Reg.WRP_CNT + 28) fills.length s
    let s := modWcar c (fun x => { x with
      state := .turnJump, frontier := x.passStart + x.passBlocks, queue := x.queue.filter (fun k => !w.passSkeins.contains k) }) s
    startTurnJump c s

/-- TURN_JUMP_DONE: the jump ends, and the ply follows the spiral to the pass's first slot for its verify reads (R201). -/
def turnJumpEndEff (c : Nat) (s : State) : State :=
  if 4 ≤ c then s
  else
    let s' := turnJumpDoneEff c s
    if (carOfS s c).jump.isSome && (carOfS s' c).jump.isNone && (wcar s c).state = .turnJump
    then modWcar c (fun w => { w with state := .verify }) s' else s'

/-! ### Verify outcomes (R211, R212, R214) -/

/-- A member's verify outcome: failures form the skein again; 16 passes make it final. -/
def verifyOutcome (key m : Nat) (ok : Bool) (s : State) : State :=
  let s := bump Reg.WRP_CNT (if ok then 2 else 3) s
  match skeinOf s key with
  | none => s
  | some k =>
    let s := modSkein key (fun k => { k with
      members := modAt m (fun x => { x with verify := if ok then .passed else .failed }) k.members,
      failCars := if ok then k.failCars else addNat (m / 4) k.failCars }) s
    if k.failed || k.exhausted || k.passed then s
    else if !ok then
      let s := bump Reg.WRP_CNT 4 s
      let s := evt Fld.WRP_EVT_VERIFY_FAIL (uCar (m / 4)) [⟨1, m / 4⟩, ⟨4, k.number.getD 0⟩] s
      settle (reform key true s)
    else match skeinOf s key with
      | some k => if k.members.all (fun x => decide (x.verify = .passed))
          then mirror (.verified key) (modSkein key (fun k => { k with passed := true }) s) else s
      | none => s

/-- A verify read of the member is in the pool. -/
def verifyInPool (s : State) (key m : Nat) : Bool :=
  let hit (j : PoolJob) : Bool := j.forRead == .verify key m
  s.pool.waiting.any hit || (s.pool.engines.filterMap id).any hit

/-- VERIFY_REVOLUTION_END (R201): members whose verify read was not delivered fail; the carriage may go on, or serves the
reads that wait (R204). -/
def verifyRevEndEff (c : Nat) (s : State) : State :=
  if 4 ≤ c || (wcar s c).state ≠ .verify then s
  else
    let ks := (wcar s c).passSkeins
    let s := modWcar c (fun w => { w with state := .idle, lastEnd := some w.frontier }) s
    let s := forEach (fun key s => forEach (fun m s =>
      match skeinOf s key with
      | some k => if (k.members.getD m {}).verify = .pending && !verifyInPool s key m then verifyOutcome key m false s else s
      | none => s) (upFrom (4 * c) 4) s) ks s
    let w := wcar s c
    let reads := readsOn s c
    if !reads.isEmpty && (decide (getF s Fld.WRP_PASS_CFG_PASS_BURST ≤ w.burst) || w.queue.isEmpty)
    then modWcar c (fun w => { w with serve := reads, burst := 0 }) s else s

/-! ### Commands and pins -/

/-- RETRY_HELD (R213). -/
def retryHeldEff (s : State) : State := settle (grantFresh (fun _ => true) s)

/-- WRITE_INHIBIT written (Table 06-5). -/
def writeInhibitEff (on : Bool) (s : State) : State := setFlag Fld.WRP_CTRL_WRITE_INHIBIT on s

/-- LASER_ILK_N asserted (Table 06-5): every WGATE and LEN goes off and all carriages are OFFLINE. -/
def laserIlkEff (s : State) : State :=
  if s.pwr.ilk then s
  else
    let s := { s with pwr := { s.pwr with ilk := true } }
    let s := stopAllNow s
    let s := forEach (fun c s => setLen c false (setGate c false s)) allCars s
    let s := bump Reg.WRP_CNT 11 s
    let s := evt Fld.WRP_EVT_INTERLOCK noUnit [] s
    forEach (fun c s => if (ust s (uCar c)).down then s else change (uCar c) .offline .interlock s) (boundCars s) s

/-- INTERLOCK_RELEASE (R221): after 100 ms each carriage that the interlock took OFFLINE moves to STARTING. -/
def interlockReleaseEff (s : State) : State :=
  if !s.pwr.ilk then s
  else
    let s := { s with pwr := { s.pwr with ilk := false } }
    forEach (fun c s =>
      if ust s (uCar c) = .offline && (unitOf s (uCar c)).reason = .interlock then
        let s := change (uCar c) .starting .interlock s
        if ust s uSpindle = .ready then acquireCar c s else s
      else s) (boundCars s) s

end Sys2Proof.Machine
end

