-- ==== Sys2Proof/Machine/Knots.lean ====
section
/-! DEFINITION. Knots, the map they make, checkpoints, anchors and capacity (R104 to R113, R116, R185, R215 to R217, R237,
R238, R384, R394). -/

namespace Sys2Proof.Machine

/-! ### Records (Tables 03-8 to 03-11) -/

/-- The 32 bytes of a knot entry (Table 03-9). -/
def entryBytes (e : MapEntry) : List Byte :=
  leBytes 5 e.lba ++ leBytes 1 e.count ++ leBytes 1 e.firstDi ++ leBytes 1 ((if e.hank then 1 else 0) + (if e.cont then 2 else 0)) ++
    leBytes 4 e.skein ++ (List.range 4).flatMap (fun c => leBytes 4 (e.place.getD c 0)) ++ leBytes 2 e.offset ++ leBytes 2 0

/-- Pads with zeros to n bytes. -/
def padTo (n : Nat) (bs : List Byte) : List Byte := bs ++ List.replicate (n - bs.length) 0

/-- A 4,096-byte record with its CRC-32C, taken with the field as 0, at offset o. -/
def withCrc (o : Nat) (bs : List Byte) : List Byte := patch bs o (leBytes 4 (crc32c bs))

/-- A knot record (Table 03-8). -/
def knotBytes (n : Knot) : List Byte :=
  let flags := (if n.create then 1 else 0) + (if n.atomic then 2 else 0) + (if n.reloc then 4 else 0) + (if n.close then 8 else 0)
  let head := leBytes 4 0x544F4E4B ++ leBytes 1 n.vol ++ leBytes 1 flags ++ leBytes 1 n.entries.length ++ leBytes 1 n.prevPair ++
    leBytes 8 n.seq ++ leBytes 8 n.generation ++ (List.range 4).flatMap (fun c => leBytes 4 (n.prevPlace.getD c 0)) ++
    leBytes 4 n.prevCheck ++ List.replicate 20 0
  let body := if n.create then slice n.attr 0 32 else n.entries.flatMap entryBytes
  withCrc 60 (padTo 4096 (head ++ body))

/-! ### Taking verified data (R216, R237) -/

/-- A skein has passed verify, and the partner knows it where it is mirrored. -/
def skeinDone (s : State) (key : Nat) : Bool :=
  match skeinOf s key with | some k => k.passed && acked s (.verified key) | none => false

/-- Runs of members that are consecutive in one skein, as (skein key, first data index, count). -/
def memberRuns : List (Nat × Nat) → List (Nat × Nat × Nat)
  | [] => []
  | (k, d) :: rest =>
    match memberRuns rest with
    | (k', d', n) :: rs => if k = k' ∧ d + 1 = d' ∧ n < 12 then (k, d, n + 1) :: rs else (k, d, 1) :: (k', d', n) :: rs
    | [] => [(k, d, 1)]

/-- An entry for a run of members. -/
def runEntry (s : State) (lba gen seq : Nat) (run : Nat × Nat × Nat) (hank cont : Bool) (offset blocks : Nat) : MapEntry :=
  let k := (skeinOf s run.1).getD { key := 0 }
  { lba := lba, count := run.2.2, firstDi := run.2.1, hank := hank, cont := cont, skein := k.number.getD 0, place := placeOf k,
    offset := offset, generation := gen, knotSeq := seq, blocks := blocks }

/-- The entries of a hank (R237). -/
def hankEntries (s : State) (p : HankPlace) (gen seq : Nat) : List MapEntry :=
  match memberRuns p.members with
  | [] => []
  | r :: rs => runEntry s p.lba gen seq r true false p.offset 16 :: rs.map (fun x => runEntry s p.lba gen seq x true true 0 0)

/-- What a knot has taken so far: its entries, and the held blocks covered. -/
structure Taken where
  entries : List MapEntry := []
  ids : List Nat := []
  deriving Inhabited

/-- Adds one block of a data member, extending the last entry where the block and its member follow on. -/
def addBlock (s : State) (gen seq : Nat) (h : Held) (key d : Nat) (a : Taken) : Option Taken :=
  let num := match skeinOf s key with | some k => k.number.getD 0 | none => 0
  match a.entries.getLast? with
  | some e =>
    if !e.hank && e.skein == num && e.firstDi + e.count == d && e.lba + e.count == h.lba && decide (e.count < 12) then
      some { entries := a.entries.dropLast ++ [{ e with count := e.count + 1, blocks := e.blocks + 1 }], ids := a.ids ++ [h.id] }
    else if a.entries.length < 126 then
      some { entries := a.entries ++ [runEntry s h.lba gen seq (key, d, 1) false false 0 1], ids := a.ids ++ [h.id] }
    else none
  | none => some { entries := [runEntry s h.lba gen seq (key, d, 1) false false 0 1], ids := [h.id] }

/-- Takes verified data in order; it stops before data whose skein has not passed verify and before the 127th entry. -/
def takeData (s : State) (gen seq : Nat) : List Held → Taken → Taken
  | [], a => a
  | h :: hs, a =>
    if a.ids.contains h.id then takeData s gen seq hs a
    else match h.stage with
      | .formed key d =>
        if !skeinDone s key then a
        else match addBlock s gen seq h key d a with
          | some a => takeData s gen seq hs a
          | none => a
      | .packed id =>
        match hankOf s id with
        | none => a
        | some p =>
          let es := hankEntries s p gen seq
          if !hankPlaced s p || !p.members.all (fun m => skeinDone s m.1) || decide (126 < a.entries.length + es.length) then a
          else takeData s gen seq hs { entries := a.entries ++ es, ids := a.ids ++ ((h :: hs).filter (fun k => decide (k.stage = .packed id))).map (·.id) }
      | _ => a

/-- The volume's held data not yet applied, in its write stream. -/
def streamOf (s : State) (v : Nat) : List Held := inStream (s.media.held.filter (fun h => h.vol == v && unapplied h))

/-- The header of volume v's next knot. -/
def nextKnot (s : State) (v : Nat) : Knot :=
  let x := volOf s v
  { vol := v, seq := x.knotSeq + 1, generation := x.highGen + 1, prevPlace := if x.knotSeq = 0 then [] else x.lastPlace,
    prevPair := if x.knotSeq = 0 then 0 else x.lastPair, prevCheck := if x.knotSeq = 0 then 0 else x.lastCheck }

/-- A knot of the verified data of a volume; an ATOMIC write has one of its own (R106, R216). -/
def dataKnot (s : State) (v : Nat) : Option Knot :=
  let n := nextKnot s v
  match streamOf s v with
  | [] => none
  | h :: hs =>
    let all := h :: hs
    let mine := if h.atomic then all.filter (fun k => k.seq == h.seq) else all.takeWhile (fun k => !k.atomic)
    let a := takeData s n.generation n.seq mine {}
    if a.ids.isEmpty || unheldBefore s v h.seq || (h.atomic && decide (a.ids.length ≠ mine.length)) then none
    else
      let covered := all.filter (fun k => a.ids.contains k.id)
      let last := covered.foldl (fun m k => max m k.seq) 0
      some { n with atomic := h.atomic, entries := a.entries, heldIds := a.ids, oldest := h.seq, last := last,
                    whole := !(all.any (fun k => k.seq == last && !a.ids.contains k.id)) }

/-- Held data is being committed: QUIESCE, an unmount or a drain for a buffer channel (R76, R505, R580). -/
def committing (s : State) : Bool := decide (getF s Fld.IMG_STATUS_QSTATE ≠ 0) || s.media.disc.commitAll

/-- The trigger of a data knot (R216). -/
def knotDue (s : State) (v : Nat) (elapsed : Bool) (n : Knot) : Bool :=
  elapsed || n.atomic || decide (126 ≤ n.entries.length) || committing s ||
    (streamOf s v).any (fun h => h.atomic) ||
    (cmds s).any (fun e => e.2.state == .running && e.2.cmd.volume == v && (match e.2.waitsKnot with
      | some q => decide (n.oldest ≤ q)
      | none => false))

/-- The CREATE or CLOSE knot that a running command asks for (R106, R362). -/
def commandKnot (s : State) (v : Nat) : Option Knot :=
  let x := volOf s v
  let n := nextKnot s v
  match (cmds s).find? (fun e => e.2.state == .running && e.2.cmd.volume == v && e.2.waitsKnot.isSome &&
      (e.2.cmd.opcode == opCreate || e.2.cmd.opcode == opClose)) with
  | none => none
  | some e =>
    if e.2.cmd.opcode = opCreate then
      if x.knotSeq = 0 then some { n with create := true, generation := 1, attr := e.2.attr, oldest := e.2.seq } else none
    else if !x.closed && durableBefore s v e.2.seq then
      some { n with close := true, oldest := e.2.seq, last := (x.cuts.getLast?.map (·.seq)).getD 0 }
    else none

/-! ### Relocation knots (R185) -/

/-- The entry that maps an old entry's blocks to its copies. -/
def movedEntry (s : State) (r : Reloc) (e : MapEntry) (seq : Nat) : Option MapEntry :=
  match r.moved.find? (fun m => m.1 == memberKey e.skein (memberOfData e.firstDi)) with
  | some (_, key, d) =>
    if skeinDone s key then
      let k := (skeinOf s key).getD { key := 0 }
      some { e with skein := k.number.getD 0, firstDi := d, place := placeOf k, knotSeq := seq }
    else none
  | none => none

/-- The relocation knot of a volume: entries of one generation of one relocated skein, all of whose copies are
verified. -/
def relocKnot (s : State) (v : Nat) : Option Knot :=
  let n := nextKnot s v
  let x := volOf s v
  (s.media.relocs.filter (·.formed)).findSome? (fun r =>
    let olds := (r.entries.filter (fun e => e.1 == v)).filterMap (fun e => x.map[e.2]?)
    match olds with
    | [] => none
    | o :: _ =>
      let g := olds.foldl (fun a e => min a e.generation) o.generation
      let mine := (olds.filter (fun e => e.generation == g)).take 126
      let news := mine.map (fun e => movedEntry s r e n.seq)
      if news.all Option.isSome && (r.moved.all (fun m => skeinDone s m.2.1)) && !x.chainEnded then
        some { n with reloc := true, generation := g, entries := news.filterMap id, oldest := get64 s Reg.HQ_SEQ_LO + 1 }
      else none)

/-! ### Knot skeins (R215, R216) -/

/-- The knot of a volume that is ready, if there is one. At most one is on its way (R217). -/
def readyKnot (s : State) (elapsed : List Nat) (v : Nat) : Option Knot :=
  let x := volOf s v
  if x.knotOut.isSome then none
  else match commandKnot s v with
    | some n => some n
    | none =>
      if !x.present then none
      else match dataKnot s v with
        | some n => if knotDue s v (elapsed.contains v) n then some n else relocKnot s v
        | none => relocKnot s v

/-- Orders knots by the oldest data each covers. -/
def insKnot (n : Knot) : List Knot → List Knot
  | [] => [n]
  | m :: ms => if n.oldest ≤ m.oldest then n :: m :: ms else m :: insKnot n ms

/-- A knot skein of the given knots, one pair each, sealed. -/
def formKnotSkein (ready : List Knot) (s : State) : State :=
  let (key, s) := newSkein s
  let s := modSkein key (fun k => { k with isKnot := true, knots := ready, filled := 12,
                                           oldest := ready.foldl (fun a n => min a n.oldest) (get64 s Reg.HQ_SEQ_LO) }) s
  let s := forEach (fun (q : Nat) s => match ready[q]? with
    | some n =>
      let b := knotBytes n
      let s := setMember key q (.knot n.vol n.seq) b (setMember key (q + 6) (.knot n.vol n.seq) b s)
      mirror (.knot n.vol n.seq) (modVol n.vol (fun x => { x with knotOut := some n }) s)
    | none => s) (List.range 6) s
  sealSkein key s

/-- KNOT_READY: the knots that are ready go into one knot skein, one pair each, in the order of their oldest data; the
skein is sealed at 6 records or when no further knot is ready. elapsed names the volumes for which KNOT_INTERVAL has
passed. -/
def knotReadyEff (elapsed : List Nat) (s : State) : State :=
  let ready := (((List.range 64).filterMap (readyKnot s elapsed)).foldl (fun a n => insKnot n a) []).take 6
  if ready.isEmpty || s.pwr.pfRunning then s else formKnotSkein ready s

/-! ### Anchors (R112, R113) -/

/-- Map-zone slots of a start: those of zone 0 whose first bit lies in turns 24 to 87. -/
def mapSlots : List Nat := (List.range (slotsIn 0)).filter (fun i => decide (24 ≤ turnOfSlot 0 i) && decide (turnOfSlot 0 i ≤ 87))

/-- A placement as four little-endian words. -/
def placeBytes (p : List Nat) : List Byte := (List.range 4).flatMap (fun c => leBytes 4 (p.getD c 0))

/-- The frontier of a carriage as a placement; 0 past the end of its sequence. -/
def frontierPlace (s : State) (c : Nat) : Nat :=
  match blockAt c (wcar s c).frontier with | some (lf, z, b) => placement lf z b 0 | none => 0

/-- An anchor's data (Table 03-11). -/
def anchorBytes (s : State) (a : Nat) : List Byte :=
  let vols := (List.range 64).flatMap (fun v =>
    let x := volOf s v
    placeBytes x.lastPlace ++ leBytes 1 x.lastPair ++ leBytes 1 x.ckptDi ++ List.replicate 6 0 ++ leBytes 8 x.knotSeq ++ placeBytes x.ckptPlace)
  let body := leBytes 4 0x52434E41 ++ leBytes 4 0 ++ leBytes 8 a ++ leBytes 4 s.media.disc.nextSkein ++ leBytes 4 0 ++
    placeBytes (allCars.map (frontierPlace s)) ++ slice s.media.disc.serial 0 16 ++ List.replicate 8 0 ++ vols
  let b := padTo 4092 body
  b ++ leBytes 4 (crc32c b)

/-- Writes the next anchor on carriages A and C while the map zones have room. -/
def writeAnchor (s : State) : State :=
  let a := s.media.disc.anchorSeq + 1
  let m := 8 * mapSlots.length
  let l := (a - 1) / m
  let i := (a - 1) % m
  let s := { s with media := { s.media with disc := { s.media.disc with knotsSinceAnchor := 0 } } }
  if 16 ≤ l then s
  else
    let d := anchorBytes s a
    let p := d ++ metaBytes d 0xFFFFFFFF 0xFF 0x10 0 [] 0xFF 0
    let slot := mapSlots.getD (i / 8) 0
    let s := emit (.sector (slotAddr (16 + l) 0 slot (i % 8)) p) (emit (.sector (slotAddr l 0 slot (i % 8)) p) s)
    { s with media := { s.media with disc := { s.media.disc with anchorSeq := a } } }

/-! ### Checkpoints (R110, R111) -/

/-- Orders entries by FIRST_LBA, then GENERATION, then KNOT_SEQ. -/
def entryLe (a b : MapEntry) : Bool :=
  decide (a.lba < b.lba) || (a.lba == b.lba && (decide (a.generation < b.generation) ||
    (a.generation == b.generation && decide (a.knotSeq ≤ b.knotSeq))))

/-- The entries of knots first to last of a volume, sorted. -/
def ckptEntries (x : Volume) (first last : Nat) : List MapEntry :=
  (x.map.filter (fun e => decide (first ≤ e.knotSeq) && decide (e.knotSeq ≤ last))).insertionSort (fun a b => entryLe a b = true)

/-- A checkpoint page (Table 03-10). -/
def ckptPage (v : Nat) (x : Volume) (j : CkptJob) : List Byte :=
  let es := ((ckptEntries x j.first j.last).drop (100 * j.page)).take 100
  let head := leBytes 4 0x4350414D ++ leBytes 1 v ++ leBytes 1 es.length ++ leBytes 1 j.prevDi ++ leBytes 1 0 ++
    leBytes 8 (x.ckptSeq + 1) ++ leBytes 8 j.first ++ leBytes 8 j.last ++ leBytes 4 j.page ++ leBytes 4 j.pages ++
    placeBytes j.prevPlace ++ leBytes 8 0
  withCrc 60 (padTo 4096 (head ++ es.flatMap (fun e => entryBytes e ++ leBytes 8 e.generation)))

/-- Writes the next page of a volume's checkpoint in a skein of its own, so that its predecessor's placement is known. -/
def ckptForm (v : Nat) (s : State) : State :=
  match (volOf s v).ckpt with
  | some j =>
    let (key, s) := newSkein s
    let s := modSkein key (fun k => { k with isCkpt := true, filled := 12 }) s
    sealSkein key (setMember key 0 (.ckpt v j.page) (ckptPage v (volOf s v) j) s)
  | none => s

/-- Begins a checkpoint of a volume. -/
def ckptBegin (v : Nat) (s : State) : State :=
  let x := volOf s v
  if x.ckpt.isSome then s
  else
    let n := (ckptEntries x (x.ckptKnot + 1) x.knotSeq).length
    ckptForm v (modVol v (fun x => { x with ckpt := some { first := x.ckptKnot + 1, last := x.knotSeq, page := 0, pages := max 1 ((n + 99) / 100),
                                                            prevPlace := x.ckptPlace, prevDi := x.ckptDi } }) s)

/-- Goes on with a volume's checkpoint once its present page has passed verify; the last page makes it count and is
followed by an anchor. -/
def ckptAdvance (v : Nat) (s : State) : State :=
  match (volOf s v).ckpt with
  | none => s
  | some j =>
    match s.media.skeins.find? (fun k => k.isCkpt && k.passed && (k.members.getD 0 {}).kind == .ckpt v j.page) with
    | none => s
    | some k =>
      let s := dropSkein k.key s
      if j.page + 1 < j.pages then
        ckptForm v (modVol v (fun x => { x with ckpt := some { j with page := j.page + 1, prevPlace := placeOf k, prevDi := 0 } }) s)
      else
        writeAnchor (modVol v (fun x => { x with ckpt := none, ckptSeq := x.ckptSeq + 1, ckptKnot := j.last, ckptPlace := placeOf k, ckptDi := 0 }) s)

/-- Goes on with every volume's checkpoint. -/
def ckptAll (s : State) : State := forEach ckptAdvance (s.media.vols.map (·.1)) s

/-! ### Applying knots (R217, R384, R394) -/

/-- Skeins that passed verify and that nothing refers to any more. -/
def gcSkeins (s : State) : State :=
  let used := s.media.held.filterMap (fun h => match h.stage with | .formed k _ => some k | _ => none) ++
    s.media.hank.places.flatMap (fun p => p.members.map (·.1)) ++ s.media.relocs.flatMap (fun r => r.moved.map (·.2.1))
  { s with media := { s.media with skeins := s.media.skeins.filter (fun k =>
      !k.passed || k.isKnot || k.isCkpt || used.contains k.key) } }

/-- Takes the applied entries out of the relocation queue (R185, R194). -/
def relocApplied (n : Knot) (s : State) : State :=
  let x := volOf s n.vol
  let left (r : Reloc) : Reloc :=
    if r.formed then { r with entries := r.entries.filter (fun e => !(e.1 == n.vol && (match x.map[e.2]? with
      | some o => o.generation == n.generation && n.entries.any (fun a => a.lba == o.lba && a.count == o.count && a.offset == o.offset)
      | none => false))) }
    else r
  let rs := s.media.relocs.map left
  let done := rs.filter (fun r => r.formed && r.entries.isEmpty)
  let s := { s with media := { s.media with relocs := rs.filter (fun r => !(r.formed && r.entries.isEmpty)) } }
  let s := bumpBy (Reg.SKN_CNT + 20) done.length s
  if done.isEmpty then s else
  evt Fld.SKN_EVT_RELOC_DONE noUnit [⟨4, match done with | r :: _ => r.skein | [] => 0⟩] s

/-- One knot goes into the map: its entries, and the release of the held data they cover, in one step (R384); the non-owner of a
pair does the same with a knot mirrored as passed (R534). -/
def mapKnot (place : List Nat) (pair : Nat) (n : Knot) (s : State) : State :=
  let hanks := (n.heldIds.filterMap (fun i => (heldOf s i).bind (fun h => match h.stage with | .packed id => some id | _ => none))).eraseDups
  let bytes := sumN (hanks.filterMap (fun i => (hankOf s i).map (·.len)))
  let firsts := (n.entries.filter (fun e => e.hank && !e.cont)).length
  let s := if n.reloc then relocApplied n s else s
  let s := modVol n.vol (fun x => { x with
    map := x.map ++ n.entries, highGen := max x.highGen n.generation, knotSeq := n.seq, lastPlace := place, lastPair := pair,
    lastCheck := crc32c (knotBytes n), knotOut := none,
    cuts := if n.reloc then x.cuts else x.cuts ++ [{ generation := n.generation, seq := n.last, wholly := n.whole }],
    present := x.present || n.create,
    blocks := if n.create then leAt n.attr 0 8 else x.blocks, compMode := if n.create then leAt n.attr 8 1 else x.compMode,
    compLevel := if n.create then leAt n.attr 9 1 else x.compLevel, label := if n.create then slice n.attr 16 16 else x.label,
    closed := x.closed || n.close, readOnly := x.readOnly || n.close,
    hankCount := if n.reloc then x.hankCount else x.hankCount + firsts,
    hankBytes := if n.reloc then x.hankBytes else x.hankBytes + bytes }) s
  { s with media := { s.media with
    held := s.media.held.map (fun h => if n.heldIds.contains h.id then { h with stage := .applied } else h)
    hank := { s.media.hank with places := s.media.hank.places.filter (fun p => !hanks.contains p.id) }
    disc := { s.media.disc with knotsSinceAnchor := s.media.disc.knotsSinceAnchor + 1 } } }

/-- An anchor follows a knot: a CREATE or CLOSE, or the 256th since the last anchor (R113). -/
def anchorDue (n : Knot) (s : State) : Bool := n.create || n.close || decide (256 ≤ s.media.disc.knotsSinceAnchor)

/-- The map engine applies one knot, with the unit change, the checkpoint and the anchor that follow. -/
def applyKnot (place : List Nat) (pair : Nat) (n : Knot) (s : State) : State :=
  let s := mapKnot place pair n s
  let s := if n.create then change (uVol n.vol) (derivedVol s) .derived s else s
  let s := if n.close || decide ((volOf s n.vol).ckptKnot + 2048 ≤ n.seq) then ckptBegin n.vol s else s
  if anchorDue n s then writeAnchor s else s

/-- Applies the knots of a verified knot skein in pair order. -/
def applyKnots (place : List Nat) : Nat → List Knot → State → State
  | _, [], s => s
  | q, n :: ns, s => applyKnots place (q + 1) ns (applyKnot place q n s)

/-- KNOT_VERIFIED: the knots of a knot skein that passed verify are applied once the partner, where it mirrors, knows it,
and the completions that waited are posted. -/
def knotVerifiedEff (key : Nat) (s : State) : State :=
  match skeinOf s key with
  | none => s
  | some k =>
    if !k.isKnot || !k.passed then s
    else
      let s := if k.told then s else mirror (.passed key) (modSkein key (fun k => { k with told := true }) s)
      if !acked s (.passed key) || !acked s (.verified key) then s
      else
        let s := applyKnots (placeOf k) 0 k.knots (dropSkein key s)
        formAll (settle (gcSkeins s))

/-! ### Capacity (R116, R238) -/

/-- Whole blocks of the disc's data areas, and those at or beyond the frontiers. -/
def wholeBlocks : Nat := sumN (allCars.map (fun c => 16 * blocksPerLayer c))
def freeBlocks (s : State) : Nat := sumN (allCars.map (fun c => 16 * blocksPerLayer c - (wcar s c).frontier))

/-- The spare reserve in data members. -/
def spareReserve : Nat := 24 * wholeBlocks - 750000000

/-- Data members that a write will form (R238), under a compression mode. -/
def membersOf (mode : Nat) (c : HostCmd) : Nat :=
  let h := if mode = 0 then 0 else (wholeHanks c).length
  17 * h + (c.count - 16 * h)

/-- The compression mode of a volume; that of the attribute record while it is being created (R385). -/
def modeOf (s : State) (v : Nat) : Nat :=
  match (cmds s).find? (fun e => e.2.cmd.opcode == opCreate && e.2.cmd.volume == v && e.2.state != .ended) with
  | some e => leAt e.2.attr 8 1
  | none => (volOf s v).compMode

/-- Data members still needed by accepted writes whose data is not yet placed in skeins. -/
def membersOwed (s : State) : Nat :=
  sumN (((cmds s).filter (fun e => e.2.cmd.opcode == opWrite && e.2.state != .ended && !e.2.heldPoint && e.2.late.isNone)).map (fun e =>
    membersOf (modeOf s e.2.cmd.volume) e.2.cmd)) +
  17 * (s.media.hank.places.filter (fun p => !p.inBuf)).length +
  (s.media.held.filter (fun h => h.stage == .held && (hankFor s h).isNone &&
    !((cmds s).any (fun e => e.2.seq == h.seq && !e.2.heldPoint && e.2.state != .ended)))).length

/-- A write of the given members would bring the free members below the floor (R116). -/
def capacityFull (s : State) (need : Nat) : Bool :=
  decide ((24 * freeBlocks s : Int) - membersOwed s - need < 0) ||
    decide (1000 * (24 * freeBlocks s - membersOwed s - need) < (policyVal s 8).toNat * spareReserve)

end Sys2Proof.Machine
end

