-- ==== Sys2Proof/Machine/Hank.lean ====
section
/-! DEFINITION. The hank engines: dispatch, coding with its check, decompression for reads, faults and restores (R233 to
R235, R240, R242 to R245). -/

namespace Sys2Proof.Machine

/-- A hank engine. -/
def hengOf (s : State) (n : Nat) : HankEng := s.media.hank.engines.getD n {}

/-- Changes a hank engine. -/
def modHeng (n : Nat) (f : HankEng → HankEng) (s : State) : State :=
  { s with media := { s.media with hank := { s.media.hank with engines := modAt n f s.media.hank.engines } } }

/-- Replaces the queue of requests. -/
def putHankQueue (q : List HankReq) (s : State) : State :=
  { s with media := { s.media with hank := { s.media.hank with queue := q } } }

/-- Engines that may be used now (R243). -/
def hankLimit (s : State) : Nat :=
  let inS := ((List.range 6).filter (hankInService s)).length
  if s.pwr.crit then min 2 inS else inS

/-- The older of two requests: acceptance number, then order in the command. -/
def olderReq (a b : HankReq) : Bool := decide (a.seq < b.seq) || (a.seq == b.seq && decide (a.lba ≤ b.lba))

/-- The oldest request that engine n may take; a second attempt goes to the lowest-numbered other engine in service
(R242). -/
def nextReq (s : State) (n : Nat) : Option HankReq :=
  let may (r : HankReq) : Bool := match r.failedOn with
    | none => true
    | some f => (List.range 6).find? (fun e => e ≠ f && hankInService s e) == some n
  (s.media.hank.queue.filter may).foldl (fun b r => match b with | none => some r | some x => if olderReq x r then some x else some r) none

/-- HANK_DISPATCH on engine n (R243). -/
def hankDispatchEff (n : Nat) (s : State) : State :=
  let busy := (s.media.hank.engines.filter (fun e => e.req.isSome)).length
  if 6 ≤ n || !hankInService s n || (hengOf s n).use ≠ .idle || hankLimit s ≤ busy || bit (getF s Fld.HNK_CTRL_RESTORE) n then s
  else match nextReq s n with
    | none => s
    | some r =>
      let s := putHankQueue (s.media.hank.queue.erase r) s
      modHeng n (fun e => { e with use := if r.decompress then .decompressing else .coding, req := some r }) s

/-! ### Reads of hanks (R240, R241) -/

/-- The entries of the hank that block i of a read resolves to. -/
def hankOfBlock (s : State) (c : Cmd) (i : Nat) : List MapEntry :=
  let map := (volOf s c.cmd.volume).map
  match c.snap.getD i .never with
  | .mapped e _ => match map[e]? with
    | some x => if x.hank then (entryGroup map e).filterMap (fun j => map[j]?) else []
    | none => []
  | _ => []

/-- A request for the hank of this command is queued or running. -/
def hankAsked (s : State) (t lba : Nat) : Bool :=
  let hit (r : HankReq) : Bool := r.decompress && r.tag == t && r.lba == lba
  s.media.hank.queue.any hit || (s.media.hank.engines.filterMap (·.req)).any hit

/-- Queues the decompression of a hank once all its members are in the cache; with no engine in service the command ends
(R235, R240). -/
def hankReadOne (t : Nat) (s : State) : State :=
  match cmdOf s t with
  | none => s
  | some c =>
    if c.cmd.opcode ≠ opRead || c.state ≠ .running then s
    else
      let open_ := (List.range c.cmd.count).filter (fun i => !(hankOfBlock s c i).isEmpty && (Tbl.get [] i c.got).isEmpty &&
        !c.fails.any (fun f => f.1 == i))
      if open_.isEmpty then s
      else if noHankEngine s then noEngineEvt (gcHeld (leaveLadders t (endCmd t .unitNotReady 0 s)))
      else forEach (fun i s =>
        let es := hankOfBlock s c i
        match es with
        | [] => s
        | e :: _ =>
          let ms := es.flatMap entryMembers
          let got := ms.map (fun m => cachedOf s m.1 m.2)
          if got.all Option.isSome && !hankAsked s t e.lba then
            let bytes := (got.filterMap id).flatMap (·.data)
            let r : HankReq := {
              vol := c.cmd.volume, decompress := true, seq := c.seq, lba := e.lba, tag := t, stream := bytes.drop e.offset }
            putHankQueue (s.media.hank.queue ++ [r]) s
          else s) open_ s

/-- Goes over every read. -/
def hankReads (s : State) : State := forEach (fun e s => hankReadOne e.1 s) (cmds s) s

/-! ### Ends of requests -/

/-- An engine becomes FAULTED (R234, R242); NO_ENGINE follows the last one out of service, and what needs an engine ends
(R235). -/
def hankFault (n : Nat) (s : State) : State :=
  let s := modHeng n (fun e => { e with faulted := true }) s
  let s := evt Fld.HNK_EVT_ENGINE_FAULT noUnit [⟨1, n⟩] (bump Reg.HNK_CNT 6 s)
  if noHankEngine s then hankReads (settle (noEngineEvt s)) else s

/-- An engine is free again, or begins the restore test asked of it meanwhile (R242). -/
def hankFree (n : Nat) (s : State) : State :=
  modHeng n (fun e => { e with req := none, use := if bit (getF s Fld.HNK_CTRL_RESTORE) n then .restoring else .idle }) s

/-- HANK_CODE_COMPLETE: sound says that the engine's check and comparison pass (R233, R234). -/
def hankCodeEff (n : Nat) (sound : Bool) (s : State) : State :=
  let e := hengOf s n
  match e.req with
  | none => s
  | some r =>
    if e.use ≠ .coding then s
    else
      let good := sound && !flag s Fld.HNK_CTRL_FORCE_MISMATCH
      let s := setF Fld.HNK_CTRL_FORCE_MISMATCH 0 (hankFree n s)
      if good then
        match hankOf s r.hank with
        | none => s
        | some p =>
          let v := volOf s p.vol
          let data := (inStream (s.media.held.filter (fun h => h.vol == p.vol && h.seq == p.seq && decide (p.lba ≤ h.lba) &&
            decide (h.lba < p.lba + 16)))).flatMap (·.data)
          let (bytes, raw) := codeHank v.compMode v.compLevel data
          let s := bump Reg.HNK_CNT 0 s
          let s := if raw then bump Reg.HNK_CNT 1 s else s
          formAll (modHank r.hank (fun p => { p with stored := some bytes, raw := raw }) s)
      else
        let s := evt Fld.HNK_EVT_COMPARE_MISMATCH noUnit [⟨1, n⟩] (bump Reg.HNK_CNT 3 s)
        let s := if (hankOf s r.hank).isSome then putHankQueue (s.media.hank.queue ++ [r]) s else s
        hankFault n s

/-- The blocks of a read that resolve to the hank with first block lba. -/
def blocksOfHank (s : State) (c : Cmd) (lba : Nat) : List Nat :=
  (List.range c.cmd.count).filter (fun i => match hankOfBlock s c i with | e :: _ => e.lba == lba | [] => false)

/-- A hank that could not be decompressed: its blocks end HANK_CHECK_FAIL (R242, R245). -/
def hankFailed (r : HankReq) (first : Nat) (second : Nat) (s : State) : State :=
  let s := bump Reg.HNK_CNT 5 s
  let s := evt Fld.HNK_EVT_HANK_CHECK_FAIL noUnit [⟨1, first⟩, ⟨1, second⟩, ⟨1, r.vol⟩, ⟨5, r.lba⟩] s
  match cmdOf s r.tag with
  | some c => modCmd r.tag (fun c' => { c' with fails := c'.fails ++ (blocksOfHank s c r.lba).map (fun i => (i, Status.hankCheckFail)) }) s
  | none => s

/-- HANK_DECOMPRESS_COMPLETE: sound says that the engine itself worked (R241, R242). -/
def hankDecompressEff (n : Nat) (sound : Bool) (s : State) : State :=
  let e := hengOf s n
  match e.req with
  | none => s
  | some r =>
    if e.use ≠ .decompressing then s
    else
      let s := hankFree n s
      match (if sound then decodeHank r.stream else none) with
      | some out =>
        let s := bump Reg.HNK_CNT 2 s
        let s := match cmdOf s r.tag with
          | some c =>
            let bs := blocksOfHank s c r.lba
            let ms := (bs.take 1).flatMap (fun i => (hankOfBlock s c i).flatMap entryMembers)
            let cs := ms.filterMap (fun m => cachedOf s m.1 m.2)
            modCmd r.tag (fun c => { c with
              got := bs.foldl (fun t i => Tbl.put [] i (slice out (4096 * (c.cmd.lba + i - r.lba)) 4096) t) c.got,
              media := cs.foldl (fun a m => max a m.media) c.media, step := cs.foldl (fun a m => max a m.recovered) c.step }) s
          | none => s
        match r.failedOn with
        | some f => hankFault f s
        | none => s
      | none =>
        let s := bump Reg.HNK_CNT 4 s
        match r.failedOn with
        | some f => hankFailed r f n s
        | none =>
          if (List.range 6).any (fun x => x ≠ n && hankInService s x)
          then putHankQueue (s.media.hank.queue ++ [{ r with failedOn := some n }]) s
          else hankFailed r n 0xFF s

/-! ### Restores and the forced mismatch -/

/-- HANK_RESTORE of engine n (R242). -/
def hankRestoreEff (n : Nat) (s : State) : State :=
  let en := match s.img.running with | some i => i.bind.hankEnabled | none => 0
  if 6 ≤ n || en ≤ n || (hengOf s n).bistFailed then s
  else
    let s := setF Fld.HNK_CTRL_RESTORE (getF s Fld.HNK_CTRL_RESTORE ||| 2 ^ n) s
    if (hengOf s n).use = .idle then modHeng n (fun e => { e with use := .restoring }) s else s

/-- HANK_RESTORE_DONE: pass says that stream, trailer and output equal the ROM's reference. -/
def hankRestoreDoneEff (n : Nat) (pass : Bool) (s : State) : State :=
  if (hengOf s n).use ≠ .restoring then s
  else
    let m := getF s Fld.HNK_CTRL_RESTORE
    let s := setF Fld.HNK_CTRL_RESTORE (if bit m n then m - 2 ^ n else m) s
    let was := (hengOf s n).faulted
    let s := modHeng n (fun e => { e with use := .idle, faulted := !pass }) s
    if pass then bump Reg.HNK_CNT 7 s
    else
      let s := if was then s else bump Reg.HNK_CNT 6 s
      let s := evt Fld.HNK_EVT_ENGINE_FAULT noUnit [⟨1, n⟩] s
      if noHankEngine s && !was then hankReads (settle (noEngineEvt s)) else s

/-- HANK_FORCE_MISMATCH (R244). -/
def hankForceEff (on : Bool) (s : State) : State := setFlag Fld.HNK_CTRL_FORCE_MISMATCH on s

end Sys2Proof.Machine
end

