-- ==== Sys2Proof/Machine/Pool.lean ====
section
/-! DEFINITION. The decoder pool, the recovery ladder, the skein engines and the relocation queue (R158 to R187). -/

namespace Sys2Proof.Machine

/-! ### Small accessors -/

/-- A ladder by its identity, and the ladder of a member. -/
def ladderOf (s : State) (id : Nat) : Option Ladder := s.pool.ladders.find? (fun l => l.id == id)
def ladderFor (s : State) (skein m : Nat) : Option Ladder := s.pool.ladders.find? (fun l => l.skein == skein && l.member == m)

/-- Changes and removes a ladder. -/
def modLadder (id : Nat) (f : Ladder → Ladder) (s : State) : State :=
  { s with pool := { s.pool with ladders := s.pool.ladders.map (fun l => if l.id = id then f l else l) } }
def dropLadder (id : Nat) (s : State) : State :=
  { s with pool := { s.pool with ladders := s.pool.ladders.filter (fun l => l.id ≠ id) } }

/-- A reconstruction by its identity. -/
def reconOf (s : State) (id : Nat) : Option Recon := s.pool.recons.find? (fun r => r.id == id)

/-- Changes and removes a reconstruction. -/
def modRecon (id : Nat) (f : Recon → Recon) (s : State) : State :=
  { s with pool := { s.pool with recons := s.pool.recons.map (fun r => if r.id = id then f r else r) } }
def dropRecon (id : Nat) (s : State) : State :=
  { s with pool := { s.pool with recons := s.pool.recons.filter (fun r => r.id ≠ id) } }

/-- LADDER_MAX as it stands (R174). -/
def ladderMax (s : State) : Nat := (policyVal s 7).toNat

/-- REDET_ENABLED and DEC_ENABLED of BIND, less units that failed in S4. -/
def redetEnabled (s : State) : Nat := match s.img.running with | some i => i.bind.redetEnabled | none => 0
def decEnabled (s : State) : Nat := match s.img.running with | some i => i.bind.decEnabled | none => 0
def decReserved (s : State) : Nat := match s.img.running with | some i => i.bind.decFirstReserved | none => 0

/-- The carriage and the strand of an address are READY or DEGRADED, a SUSPECT one counting as before (R173). -/
def addrServes (s : State) (a : Nat) : Bool :=
  let g := strandOfAddr a
  (effState s (uCar (g / 8))).serves && (effState s (uStrand g)).serves

/-- The lowest acceptance number of the commands that a ladder serves (R178). -/
def ladderSeq (s : State) (l : Ladder) : Option Nat :=
  (l.tags.filterMap (cmdOf s)).foldl (fun a c => match a with | none => some c.seq | some b => some (min b c.seq)) none

/-- The cache's member, put. -/
def putCached (skein m : Nat) (c : Option CachedMember) (s : State) : State :=
  { s with pool := { s.pool with cached := Tbl.put none (memberKey skein m) c s.pool.cached } }

/-- A DEC event for a strand and a member address. -/
def decEvt (f : Fld) (a : Nat) (s : State) : State := evt f (uStrand (strandOfAddr a)) [⟨1, strandOfAddr a⟩, ⟨4, a⟩] s

/-! ### Relocation queue (R182, R183, R186) -/

/-- Queues a skein for relocation, once; a full queue drops it. A volume whose chain ended is not relocated. -/
def queueReloc (skein : Nat) (place : List Nat) (s : State) : State :=
  let es := relocEntries s skein
  if s.media.relocs.any (fun r => r.skein == skein) || es.isEmpty then s
  else if es.any (fun e => (volOf s e.1).chainEnded) then
    bump Reg.SKN_CNT 6 (evt Fld.SKN_EVT_RELOC_FAIL noUnit [⟨4, skein⟩] s)
  else if 256 ≤ s.media.relocs.length then
    bump Reg.SKN_CNT 6 (evt Fld.SKN_EVT_RELOC_QUEUE_FULL noUnit [⟨4, skein⟩] s)
  else bump Reg.SKN_CNT 4 { s with media := { s.media with relocs := s.media.relocs ++ [{ skein := skein, place := place, entries := es }] } }

/-- A member at media step L3 or higher: its skein is queued; a knot or checkpoint member sets META_WEAK (R182, R183). -/
def mediaWeak (skein : Nat) (place : List Nat) (kind : Nat) (s : State) : State :=
  if kind = 3 || kind = 4 || kind = 0x10 then evt Fld.SKN_EVT_META_WEAK noUnit [⟨4, skein⟩] s else queueReloc skein place s

/-- Counts an L2 success of a skein in the weak-skein table of 1,024 entries (R182). -/
def weakCount (skein : Nat) (place : List Nat) (s : State) : State :=
  let n := (match s.pool.weak.find? (fun e => e.1 == skein) with | some e => e.2 | none => 0) + 1
  let rest := s.pool.weak.filter (fun e => e.1 ≠ skein)
  let rest := if 1024 ≤ rest.length then rest.drop 1 else rest
  let s := { s with pool := { s.pool with weak := rest ++ [(skein, n)] } }
  let lim := getF s Fld.SKN_RELOC_CFG_L2_RELOC
  if lim ≠ 0 && lim ≤ n then queueReloc skein place s else s

/-! ### L4 (R176) -/

/-- Ends the L4 request when no sector is in L4. -/
def l4End (s : State) : State :=
  if s.pool.l4.isSome && !s.pool.ladders.any (fun l => l.step == 4) then
    arbitrate (modSpn (fun p => { p with l4 := none }) { s with pool := { s.pool with l4 := none, l4Ready := false } })
  else s

/-- The first L4 entry asks for the reduced speed; the others share it. -/
def l4Begin (s : State) : State :=
  if s.pool.l4.isSome then s
  else
    let spinMin := match s.img.running with | some i => i.motors.spinMin | none => 0
    let n := max spinMin ((spn s).rateReq * getF s Fld.DEC_LADDER_CFG_L4_PCT / 100)
    let s := { s with pool := { s.pool with l4 := some n, l4Ready := false } }
    evt Fld.DEC_EVT_L4_SPEED uSpindle [⟨2, n⟩] (arbitrate (modSpn (fun p => { p with l4 := some n }) s))

/-- L4_SPEED_REACHED: within 1% of the target, or of the ceiling where that is lower. -/
def l4ReachedEff (s : State) : State :=
  match s.pool.l4 with
  | none => s
  | some n =>
    let t := match s.pwr.ceiling with | some c => min c n | none => n
    let n24 := (spn s).nHat
    if decide (((n24 - (t : Int) * one24).natAbs : Int) * 100 ≤ (t : Int) * one24) then { s with pool := { s.pool with l4Ready := true } } else s

/-! ### Ends of ladders (R172, R175, R178, R181) -/

/-- Takes skein engine work: parity first, then reconstructions by acceptance number (R20). -/
def nextSeng (s : State) : Option EngineJob :=
  match s.pool.sengQueue.find? (fun j => match j with | .parity _ => true | _ => false) with
  | some j => some j
  | none => s.pool.sengQueue.foldl (fun b j => match b with
    | none => some j
    | some k =>
      let q (x : EngineJob) : Nat := match x with
        | .recon id => (match reconOf s id with | some r => r.seq.getD (0x10000000000000000) | none => 0x10000000000000000)
        | .parity _ => 0
      if q j < q k then some j else some k) none

/-- Settles a sibling of a reconstruction; once every one is settled the skein engines get it (R180, R181). -/
def settleSibling (id m : Nat) (v : Sibling) (s : State) : State :=
  match reconOf s id with
  | none => s
  | some r =>
    if r.ready then s
    else
      let ms := modAt m (fun x => if x = .pending then v else x) r.members
      let ready := ms.all (fun x => decide (x ≠ .pending))
      let s := modRecon id (fun r => { r with members := ms, ready := ready }) s
      if ready then { s with pool := { s.pool with sengQueue := s.pool.sengQueue ++ [.recon id] } } else s

/-- Releases the pins of a ladder's slot (R171). -/
def unpinLadder (l : Ladder) (s : State) : State :=
  modLadder l.id (fun l => { l with pinned := false }) (unpinSlot (strandOfAddr l.addr) (pLF l.addr) (pZone l.addr) (slotOf l.addr) s)

/-- A ladder's success: the member goes to the cache with its steps, the reconstructions it serves get it, weak skeins are
queued, and hank reads go on. -/
def ladderSucceed (l : Ladder) (data : List Byte) (kind : Nat) (s : State) : State :=
  let s := bump Reg.DEC_CNT (1 + l.step) s
  let s := putCached l.skein l.member (some { data := data, meta_ := [], media := l.media, recovered := l.recovered }) s
  let s := unpinLadder l s
  let s := forEach (fun r s => settleSibling r l.member (.got data) s) l.recons s
  let s := if 3 ≤ l.media then mediaWeak l.skein l.place kind s else if l.step = 2 then weakCount l.skein l.place s else s
  let s := match l.reconId with | some r => dropRecon r s | none => s
  hankReads (l4End (dropLadder l.id s))

/-- The blocks of a read that a member serves. -/
def blocksOn (s : State) (c : Cmd) (skein m : Nat) : List Nat :=
  let map := (volOf s c.cmd.volume).map
  (List.range c.cmd.count).filter (fun i => match c.snap.getD i .never with
    | .mapped e k => match map[e]? with
      | some en => if en.hank then ((entryGroup map e).filterMap (fun j => map[j]?)).any (fun x => (entryMembers x).contains (skein, m))
                   else en.skein == skein && memberOfData (en.firstDi + k) == m
      | none => false
    | _ => false)

/-- A ladder's end without success: MEDIUM_UNRECOVERED for its commands' blocks, erased for its reconstructions. -/
def ladderFail (l : Ladder) (s : State) : State :=
  let s := decEvt Fld.DEC_EVT_UNRECOVERED l.addr (bump Reg.DEC_CNT 8 s)
  let s := unpinLadder l s
  let s := forEach (fun t s => match cmdOf s t with
    | some c => modCmd t (fun c' => { c' with fails := c'.fails ++ (blocksOn s c l.skein l.member).map (fun i => (i, Status.mediumUnrecovered)) }) s
    | none => s) l.tags s
  let s := forEach (fun r s => settleSibling r l.member .erased s) l.recons s
  let s := if l.relocs.isEmpty then s
    else
      let s := bumpBy (Reg.SKN_CNT + 24) l.relocs.length (evt Fld.SKN_EVT_RELOC_FAIL noUnit [⟨4, l.relocs.headD 0⟩] s)
      { s with media := { s.media with relocs := s.media.relocs.filter (fun r => !l.relocs.contains r.skein) } }
  let s := match l.reconId with | some r => dropRecon r s | none => s
  l4End (dropLadder l.id s)

/-! ### Steps (R172 to R174, R181) -/

/-- Starts a reconstruction for a ladder: cached siblings are had, running ladders at L4 or below are joined, members that
do not serve are erased, and the rest are to be read. -/
def startRecon (l : Ladder) (s : State) : State :=
  let id := s.pool.nextId
  let sib (m : Nat) : Sibling :=
    if m = l.member then .erased
    else match cachedOf s l.skein m with
      | some c => .got c.data
      | none =>
        if !addrServes s (memberAddr l.place m) then .erased
        else match ladderFor s l.skein m with
          | some k => if k.step ≤ 4 then .pending else .erased
          | none => .pending
  let ms := (List.range 16).map sib
  let r : Recon := { id := id, skein := l.skein, place := l.place, target := l.member, ladder := l.id, seq := ladderSeq s l,
                     members := ms, ready := false, r173 := l.byState }
  let s := { s with pool := { s.pool with nextId := id + 1, recons := s.pool.recons ++ [r] } }
  let s := modLadder l.id (fun l => { l with reconId := some id }) s
  let s := { s with pool := { s.pool with ladders := s.pool.ladders.map (fun k =>
      if k.skein = l.skein && k.member ≠ l.member && k.step ≤ 4 then { k with recons := k.recons ++ [id] } else k) } }
  if ms.all (fun x => decide (x ≠ .pending)) then
    { modRecon id (fun r => { r with ready := true }) s with pool := { (modRecon id (fun r => { r with ready := true }) s).pool with
        sengQueue := s.pool.sengQueue ++ [.recon id] } }
  else s

/-- Starts a round of soft combining: the target, and every other member that the last L5 left erased and that serves
(R177). -/
def startCombine (l : Ladder) (s : State) : State :=
  let left := match l.reconId.bind (reconOf s) with | some r => r.members | none => []
  let ms := (List.range 16).filter (fun m => addrServes s (memberAddr l.place m) &&
    (m == l.member || left.getD m .pending == .erased))
  let s := queueReloc l.skein l.place s
  modLadder l.id (fun l => { l with combine := ms.map (fun m => { member := m }), rounds := l.rounds + 1, waiting := true }) s

/-- Enters a ladder step, within LADDER_MAX (R174); a sibling's ladder ends beyond min(L4, LADDER_MAX) (R178, R181). -/
def enterStep (id n : Nat) (s : State) : State :=
  match ladderOf s id with
  | none => s
  | some l =>
    let lim := ladderMax s
    -- reconstructions do not wait beyond min(L4, LADDER_MAX)
    let s := if min 4 lim < n then forEach (fun r s => settleSibling r l.member .erased s) l.recons s else s
    let l := if min 4 lim < n then { l with recons := [] } else l
    let s := modLadder id (fun _ => l) s
    if min 4 lim < n && l.tags.isEmpty && l.relocs.isEmpty && !(n = 5 && l.byState) then l4End (dropLadder id (unpinLadder l s))
    else if lim < n && !(n = 5 && l.byState) then ladderFail l s
    else
      let media := if l.byState && 5 ≤ n then l.media else max l.media n
      let s := modLadder id (fun l => { l with
        step := n, media := media, recovered := max l.recovered n, reads := 0, since := s.pwr.time, trials := [], waiting := false }) s
      let l := (ladderOf s id).getD l
      let s := if n = 3 && !l.recons.isEmpty then queueReloc l.skein l.place s else s
      let s := if 3 ≤ n then unpinLadder l s else s
      if n = 3 then modLadder id (fun l => { l with waiting := true }) s
      else if n = 4 then l4Begin (modLadder id (fun l => { l with waiting := true }) s)
      else if n = 5 then l4End (startRecon l s)
      else if n = 6 then l4End (startCombine l s)
      else s

/-- A ladder of a member that is not there yet, at L0. -/
def newLadder (skein m : Nat) (place : List Nat) (s : State) : Nat × State :=
  let id := s.pool.nextId
  let tags := ((cmds s).filter (fun e => (wantedOf s e.2).any (fun w => w.1 == skein && w.2.1 == m))).map (·.1)
  let recons := (s.pool.recons.filter (fun r => r.skein == skein && r.members.getD m .erased == .pending)).map (·.id)
  let relocs := (s.media.relocs.filter (fun r => !r.formed && (relocMembers s r).any (fun x => x.1 == skein && x.2.1 == m))).map (·.skein)
  let l : Ladder := { id := id, addr := memberAddr place m, skein := skein, member := m, place := place, tags := tags,
                      recons := recons, relocs := relocs, since := s.pwr.time }
  (id, { s with pool := { s.pool with nextId := id + 1, ladders := s.pool.ladders ++ [l] } })

/-- A wanted member whose carriage or strand does not serve enters L5 at once; the same holds for a running ladder
(R173). One whose carriage or strand is SUSPECT holds its command (R509). -/
def sweepMember (t : Nat) (w : Nat × Nat × List Nat) (s : State) : State :=
  let a := memberAddr w.2.2 w.2.1
  let g := strandOfAddr a
  let sus := [uCar (g / 8), uStrand g].find? (fun u => ust s u = .suspect)
  match sus with
  | some u =>
    if (ladderFor s w.1 w.2.1).isSome then s
    else bump Reg.UNT_CNT 5 (modCmd t (fun c => { c with gate := .suspect u (policyVal s 3).toNat }) s)
  | none =>
    match ladderFor s w.1 w.2.1 with
    | some l => modLadder l.id (fun l => { l with tags := addNat t l.tags }) s
    | none =>
      if addrServes s a then s
      else
        let (id, s) := newLadder w.1 w.2.1 w.2.2 s
        enterStep id 5 (modLadder id (fun l => { l with byState := true }) s)

/-- The policy complex's round over reads and ladders. -/
def poolSweep (s : State) : State :=
  let s := forEach (fun e s => forEach (fun w s => sweepMember e.1 w s) (wantedOf s e.2) s) (cmds s) s
  let s := forEach (fun (l : Ladder) s =>
    if l.step ≤ 4 && !addrServes s l.addr then enterStep l.id 5 (modLadder l.id (fun l => { l with byState := true }) s) else s)
    s.pool.ladders s
  let s := forEach (fun (r : Recon) s => forEach (fun m s =>
    if r.members.getD m .erased = .pending && !addrServes s (memberAddr r.place m) then settleSibling r.id m .erased s else s)
    (List.range 16) s) s.pool.recons s
  hankReads s

/-! ### Deliveries (R149, R168, R170, R171, R177) -/

/-- What an address is read for now, with its skein number and member; none where nothing asks for it. A carriage in a
pass cycle reads for its verify alone (R204). -/
def requestFor (s : State) (a : Nat) : Option (ReadFor × Nat × Nat × List Nat) :=
  let c := carOf (pLF a) (pZone a)
  let w := wcar s c
  let m := 4 * c + pJ a
  if inPass w then
    if w.state ≠ .verify then none
    else match w.passSkeins.find? (fun k => match (skeinOf s k).bind (fun k => k.place.getD c none) with
        | some p => p == withJ a 0
        | none => false) with
      | some k => some (.verify k m, ((skeinOf s k).bind (·.number)).getD 0, m, [])
      | none => if decide (w.passStart ≤ (stepLane c a).1) && decide ((stepLane c a).1 < w.passStart + w.passBlocks)
                then some (.verify 0 m, 0xFFFFFFFF, m, []) else none
  else
    let hit (x : Nat × Nat × List Nat) : Bool := memberAddr x.2.2 x.2.1 == a
    let wants := (cmds s).flatMap (fun e => wantedOf s e.2)
    let sibs := s.pool.recons.flatMap (fun r => ((List.range 16).filter (fun k => r.members.getD k .erased == .pending)).map (fun k =>
      (r.skein, k, r.place)))
    let rel := (s.media.relocs.filter (fun r => !r.formed)).flatMap (fun r =>
      (r.entries.filterMap (fun e => (volOf s e.1).map[e.2]?)).flatMap (fun e => (entryMembers e).map (fun x => (x.1, x.2, e.place))))
    -- a knot skein of the old owner is read back after a takeover (R537, step 8)
    match s.media.skeins.find? (fun k => k.readBack && !k.failed && !k.exhausted && decide ((k.members.getD m {}).verify = .pending) &&
        (match k.place.getD c none with | some p => withJ p (pJ a) == a | none => false)) with
    | some k => some (.verify k.key m, k.number.getD 0, m, [])
    | none =>
    match s.pool.ladders.find? (fun l => l.addr == a && l.waiting && l.step ≠ 6 && (l.step ≠ 4 || s.pool.l4Ready)) with
    | some l => some (.member, l.skein, l.member, l.place)
    | none =>
      match s.pool.ladders.find? (fun l => l.step == 6 && l.waiting && l.combine.any (fun x => !x.settled &&
          decide (x.bodies.length < 3) && memberAddr l.place x.member == a)) with
      | some l => some (.combine l.id m, l.skein, m, l.place)
      | none =>
        match (wants ++ sibs ++ rel).find? (fun x => hit x && (cachedOf s x.1 x.2.1).isNone && (ladderFor s x.1 x.2.1).isNone) with
        | some x => some (.member, x.1, x.2.1, x.2.2)
        | none =>
          -- the neighbours of an L4 re-read's slot are read as assist reads
          if s.pool.ladders.any (fun l => l.step == 4 && l.waiting && s.pool.l4Ready && pLF l.addr == pLF a && pZone l.addr == pZone a &&
              slotOf l.addr == slotOf a && (strandOfAddr l.addr + 1 == strandOfAddr a || strandOfAddr a + 1 == strandOfAddr l.addr))
          then some (.assist, 0xFFFFFFFF, m, []) else none

/-- Adds a job to those that wait. -/
def addJob (j : PoolJob) (s : State) : State :=
  { s with pool := { s.pool with nextJob := s.pool.nextJob + 1, waiting := s.pool.waiting ++ [{ j with id := s.pool.nextJob }] } }

/-- The job of a delivered sector. -/
def deliveredJob (s : State) (g a : Nat) (why : ReadFor) (skein : Nat) (lad : Option Nat) (step : Nat) (d : Delivery) : PoolJob :=
  let dlF := s.pwr.time + 1000 * getF s Fld.DEC_SCHED_CFG_FIRST_DL
  let seq := (lad.bind (ladderOf s)).bind (ladderSeq s)
  let rec_ := match lad.bind (ladderOf s) with | some l => decide (0 < l.step) | none => false
  { id := 0, kind := match why with | .verify _ _ => .verify | _ => if rec_ then .recovery else .first
    step := step, strand := g, addr := a, lf := pLF a, zone := pZone a, slot := slotOf a, skein := some skein, seq := seq
    deadline := if rec_ then s.pwr.time + 10000 * getF s Fld.DEC_SCHED_CFG_RECOV_DL else dlF
    forRead := why, ladder := lad, cands := d.cands, body := d.body, blank := d.blank, erased := d.erased, mse := d.mse
    noSync := d.noSync, bodyLlr := d.llr, chan := Config.demap d.llr, maxIter := getF s Fld.DEC_ITER_CFG_L0_ITER }

/-- SECTOR_DELIVERY: strand g reaches the end of the slot of address a (R149). -/
def sectorDeliveryEff (g a : Nat) (p : SlotPass) (s : State) : State :=
  let st := strandOf s g
  if !reading s g || strandOfAddr a ≠ g || st.cur ≠ some (pLF a, pZone a, slotOf a) || st.skip then s
  else
    let (d, s) := deliver g p s
    match requestFor s a with
    | none => s
    | some (why, skein, m, place) =>
      if 48 ≤ s.pool.bufs then decEvt Fld.DEC_EVT_INPUT_FULL a (bump Reg.DEC_CNT 12 s)
      else
        let s := { s with pool := { s.pool with bufs := s.pool.bufs + 1 } }
        match why with
        | .member =>
          let (id, s) := match ladderFor s skein m with | some l => (l.id, s) | none => newLadder skein m place s
          let (pin, s) := pinDelivery g (pLF a) (pZone a) (slotOf a) s
          let s := modLadder id (fun l => { l with
            waiting := false, pinned := pin, cands := d.cands, reads := if l.step = 0 then 0 else l.reads + 1,
            trials := if l.step = 4 && redetEnabled s ≠ 0 && pin then (match d.cands with | c :: _ => [c.pos] | [] => []) ++ trialPositions d.cands else [] }) s
          let l := (ladderOf s id).getD { id := id, addr := a, skein := skein, member := m, place := place }
          if l.step = 4 && redetEnabled s ≠ 0 && pin then
            -- L4: neighbour-assisted trials at cands[1] and at each position of R150
            let j := deliveredJob s g a .member skein (some id) 4 d
            let s := { s with pool := { s.pool with bufs := s.pool.bufs - 1 } }
            match l.trials with
            | q :: qs => addJob { j with mode := some .assisted, adapted := some .assisted, body := q + 64, trial := true }
                (modLadder id (fun l => { l with trials := qs }) s)
            | [] => addJob j s
          else addJob (deliveredJob s g a .member skein (some id) 0 d) s
        | .combine lid _ => addJob { deliveredJob s g a why skein (some lid) 6 d with ladder := some lid } s
        | _ => addJob (deliveredJob s g a why skein none 0 d) s

/-! ### Scheduling (R166, R167, R179) -/

/-- The order of jobs within a class (R167). -/
def jobBefore (a b : PoolJob) : Bool :=
  if a.deadline ≠ b.deadline then decide (a.deadline < b.deadline)
  else
    let q (j : PoolJob) : Nat := j.seq.getD (0x10000000000000000)
    if q a ≠ q b then decide (q a < q b)
    else if a.strand ≠ b.strand then decide (a.strand < b.strand) else decide (a.slot ≤ b.slot)

/-- The first job of a list in that order. -/
def firstJob (l : List PoolJob) : Option PoolJob :=
  l.foldl (fun b j => match b with | none => some j | some k => if jobBefore k j then some k else some j) none

/-- The job that an engine or re-detect unit takes next. -/
def pickJob (s : State) (redet : Bool) (idx : Nat) : Option PoolJob :=
  let rec_ := s.pool.waiting.filter (fun j => j.kind == .recovery && j.mode.isSome == redet)
  let rec_ := if flag s Fld.DEC_CTRL_PAUSE_RECOVERY then [] else rec_
  if redet then firstJob rec_
  else match firstJob (s.pool.waiting.filter (fun j => j.kind != .recovery)) with
    | some j => some j
    | none => if idx < decReserved s then none else firstJob rec_

/-- POOL_JOB_DISPATCH on an engine or a re-detect unit. -/
def poolDispatchEff (redet : Bool) (idx : Nat) (s : State) : State :=
  let s := poolSweep s
  let free := if redet then decide (idx < redetEnabled s) && !bit s.pool.redetDead idx && (s.pool.redets.getD idx none).isNone && decide (idx < 8)
    else decide (idx < decEnabled s) && !bit s.pool.engDead idx && (s.pool.engines.getD idx none).isNone && decide (idx < 12)
  if !free then s
  else match pickJob s redet idx with
    | none => s
    | some j =>
      let s := { s with pool := { s.pool with waiting := s.pool.waiting.filter (fun k => k.id ≠ j.id) } }
      let s := if redet then { s with pool := { s.pool with redets := modAt idx (fun _ => some j) s.pool.redets } }
        else { s with pool := { s.pool with engines := modAt idx (fun _ => some j) s.pool.engines } }
      let s := if j.kind != .recovery && decide (j.deadline < s.pwr.time) then decEvt Fld.DEC_EVT_DEADLINE_MISS j.addr (bump Reg.DEC_CNT 13 s) else s
      if j.kind = .first then bump Reg.DEC_CNT 0 s else if j.kind = .verify then bump Reg.DEC_CNT 14 s else s

/-! ### Re-detection (R153, R163) -/

/-- The sample array of a strand's pinned record of a slot, from position −32; empty where there is none. -/
def recordSamples (s : State) (g lf zone slot : Nat) : Array Int × List (Nat × Nat) :=
  let st := strandOf s g
  match recordOf st lf zone slot with
  | some i =>
    let r := st.records.getD i {}
    if r.pinned then (r.samples.toArray, r.runs) else (#[], [])
  | none => (#[], [])

/-- A neighbour's input to the replay canceller: in assisted mode the channel bits of its decoded sector as ±8. -/
def neighbourInput (s : State) (j : PoolJob) (mode : RedetMode) (h : Nat) : Array Int :=
  let samples := (recordSamples s h j.lf j.zone j.slot).1
  match mode with
  | .assisted =>
    let addr := slotAddr j.lf j.zone j.slot (h % 8)
    match s.pool.assists.find? (fun e => e.1 == addr) with
    | some e => ((List.replicate 416 (0 : Int)) ++ (Config.encodeBody e.2).map (fun b => if b then (8 : Int) else -8)).toArray
    | none => samples
  | _ => samples

/-- The choices of a replay pass (R153). -/
def replayCfg (s : State) (j : PoolJob) (adapt : Bool) : PassCfg :=
  let g := j.strand
  let st := strandOf s g
  { eqMu := if adapt then getF s (chF Fld.CHN_ADAPT_CFG_RPL_EQ_MU g) else 0,
    xtMu := if adapt then getF s (chF Fld.CHN_ADAPT_CFG_XT_MU g) else 0,
    target := seedTarget st.seed, dl := if g % 8 = 0 then 0 else -(seedI (strandOf s (g - 1)).seed 5), dr := seedI st.seed 5,
    left := neighbourServes s g false, right := neighbourServes s g true, scale := id }

/-- A re-detection: the body's LLRs from the pinned record in a mode, with the a-priori values lam. -/
def redetect (s : State) (j : PoolJob) (mode : RedetMode) (lam : Array Int) : List Int :=
  let g := j.strand
  let st := strandOf s g
  let (x, runs) := recordSamples s g j.lf j.zone j.slot
  let yl := if g % 8 = 0 then #[] else neighbourInput s j mode (g - 1)
  let yr := if g % 8 = 7 then #[] else neighbourInput s j mode (g + 1)
  let t0 := unitTaps (seedTaps st.seed)
  let taps := match mode with
    | .fixed => t0
    | _ => (runPass (replayCfg s j true) t0 runs x yl yr (-32)).taps
  let p := runPass (replayCfg s j false) taps runs x yl yr (-32)
  detect (noiseOf s st.seed) p.zs.reverse.toArray p.as_.reverse.toArray (-32) j.body runs lam

/-- The end of a re-detect unit's job: a trial at global 1 starts anew, a later global continues from the retained
messages with lam from the engine's extrinsic values. -/
def redetDone (s : State) (j : PoolJob) (mode : RedetMode) : PoolJob :=
  if j.trial then
    let b := redetect s j mode #[]
    { j with mode := none, bodyLlr := b, chan := Config.demap b, msgs := [], post := [], iter := 0, glob := 1, maxIter := 2 }
  else
    let ext := (List.range 37632).map (fun i => nth j.post i - nth j.chan i)
    let b := redetect s j mode (Config.remap ext).toArray
    { j with mode := none, bodyLlr := b, chan := Config.demap b, iter := 0 }

/-! ### Engine jobs (R162 to R165, R170, R172) -/

/-- Runs a job's inner iterations: from the channel and the retained messages, or on from the present posteriors. -/
def engineRun (s : State) (j : PoolJob) : Decode :=
  let off := getF s Fld.DEC_ITER_CFG_MS_OFFSET
  let lim := getF s Fld.DEC_EF_CFG_EF_LIMIT
  let ef := j.kind != .recovery || j.trial || (j.step == 0 && j.checkEf) || (j.step == 6 && j.checkEf)
  let chan := j.chan.toArray
  let post := if j.iter = 0 && j.msgs.isEmpty then chan
    else if j.iter = 0 then
      -- the channel of a new global, with the retained check-to-variable messages
      (List.range 4608).foldl (fun (p : Array Int) r =>
        let row := Config.ldpcRow r
        (List.range row.length).foldl (fun p i => p.setIfInBounds (row.getD i 0) (sat8 (p.getD (row.getD i 0) 0 + nth (j.msgs.getD r []) i))) p) chan
    else j.post.toArray
  decodeRun off j.addr (if ef && j.glob = 1 && j.iter = 0 then some lim else none) chan (j.maxIter - j.iter) j.iter 0 0 post j.msgs

/-- Metadata and KIND agree with what was asked for (R164). -/
def metaAgrees (j : PoolJob) (p : List Byte) : Bool :=
  let k := mdKind p
  let c := carOf (pLF j.addr) (pZone j.addr)
  let m := 4 * c + pJ j.addr
  let outside := j.skein == some 0xFFFFFFFF
  match j.forRead with
  | .assist => true
  | _ =>
    if outside then k == 5
    else mdSkein p == j.skein.getD 0 && mdMember p == m && mdPlace p c == withJ j.addr 0 && (k == 1 || k == 2 || k == 3 || k == 4 || k == 5)

/-- The outcome of a job's pass. -/
def outcomeOf (j : PoolJob) (d : Decode) : PassOutcome :=
  if d.early then .earlyFail
  else if !d.zeroSyndrome then .failed
  else if !mdCheckOk d.payload then .miscorrected
  else if !metaAgrees j d.payload then .mismatched
  else .decoded

/-- Counts an outcome (R164, R165). -/
def countOutcome (j : PoolJob) (o : PassOutcome) (s : State) : State :=
  match o with
  | .earlyFail => bump Reg.DEC_CNT 9 s
  | .miscorrected => decEvt Fld.DEC_EVT_MISCORRECT j.addr (bump Reg.DEC_CNT 10 s)
  | .mismatched => decEvt Fld.DEC_EVT_ADDR_MISMATCH j.addr (bump Reg.DEC_CNT 11 s)
  | _ => s

/-- A verify read's outcome against the thresholds of R211. -/
def verifyDone (j : PoolJob) (d : Decode) (o : PassOutcome) (key m : Nat) (s : State) : State :=
  let ok := o = .decoded && !j.noSync && decide (d.iters ≤ getF s Fld.WRP_VFY_CFG_VFY_ITER_MAX) &&
    decide (d.unsat1 ≤ 8 * getF s Fld.WRP_VFY_CFG_VFY_UNSAT_MAX) && decide (d.hdiff ≤ 16 * getF s Fld.WRP_VFY_CFG_VFY_HDIFF_MAX) &&
    decide (j.erased ≤ 64 * getF s Fld.WRP_VFY_CFG_VFY_ERASE_MAX) && decide (j.mse ≤ getF s Fld.WRP_VFY_MSE_VFY_MSE_MAX)
  let s := if o = .decoded then s else bump Reg.DEC_CNT 15 s
  ckptAll (verifyOutcome key m ok s)

/-- The next trial of a ladder, or none left. -/
def nextTrial (j : PoolJob) (l : Ladder) (s : State) : Option State :=
  match l.trials with
  | q :: qs =>
    let s := modLadder l.id (fun l => { l with trials := qs }) s
    some (addJob { j with kind := .recovery, mode := j.adapted, body := q + 64, trial := true, glob := 1, iter := 0, deadline := l.since + 10000 * getF s Fld.DEC_SCHED_CFG_RECOV_DL } s)
  | [] => none

/-- The work of the present outer step is exhausted for this read: another re-read, or the next step (Table 05-2). -/
def readExhausted (l : Ladder) (s : State) : State :=
  let again := modLadder l.id (fun l => { l with waiting := true }) s
  if l.step ≤ 2 then enterStep l.id 3 s
  else if l.step = 3 then (if l.reads < getF s Fld.DEC_LADDER_CFG_L3_READS then again else enterStep l.id 4 s)
  else if l.step = 4 then (if l.reads < getF s Fld.DEC_LADDER_CFG_L4_READS then again else enterStep l.id 5 s)
  else s

/-- Enters L2, or does its work within an L3 re-read; exhausted where L2 is unavailable. -/
def tryL2 (fromL1 : Bool) (j : PoolJob) (l : Ladder) (s : State) : State :=
  if !l.pinned || redetEnabled s = 0 || l.step = 4 then readExhausted l s
  else
    let s := if l.step ≤ 1 then enterStep l.id 2 s else s
    match ladderOf s l.id with
    | none => s
    | some l =>
      let first : List Int := if fromL1 then (match l.cands with | c :: _ => [c.pos] | [] => []) else []
      let l := { l with trials := first ++ trialPositions l.cands }
      match nextTrial { j with step := 2, adapted := some .sample } l (modLadder l.id (fun _ => l) s) with
      | some s => s
      | none => readExhausted l s

/-- The next global iteration of a job in its mode, within L1_GLOBAL (R163). -/
def nextGlobal (mode : RedetMode) (j : PoolJob) (s : State) : State :=
  addJob { j with kind := .recovery, mode := some mode, glob := j.glob + 1, trial := false, maxIter := getF s Fld.DEC_ITER_CFG_L1_INNER } s

/-- A failed pass of a member read (Table 05-2). -/
def memberFailed (j : PoolJob) (o : PassOutcome) (l : Ladder) (s : State) : State :=
  let moreGlobals := l.pinned && redetEnabled s ≠ 0 && decide (j.glob < getF s Fld.DEC_ITER_CFG_L1_GLOBAL)
  let inner := getF s Fld.DEC_ITER_CFG_L1_INNER
  if j.trial then
    -- a trial prefix: one that passed its check goes on with the L1 budget
    if o = .earlyFail then (match nextTrial j l s with | some s => s | none => readExhausted l s)
    else addJob { j with kind := .recovery, trial := false, maxIter := inner } s
  else if j.step = 0 then
    if o = .earlyFail then tryL2 false j l s
    else
      let s := if l.step = 0 then enterStep l.id 1 s else s
      match ladderOf s l.id with
      | some l => addJob { j with kind := .recovery, step := 1, maxIter := inner, deadline := l.since + 10000 * getF s Fld.DEC_SCHED_CFG_RECOV_DL } s
      | none => s
  else if j.step = 1 then
    if moreGlobals then nextGlobal .fixed j s else tryL2 true j l s
  else
    if moreGlobals then nextGlobal (j.adapted.getD .sample) j s
    else match nextTrial j l s with
      | some s => s
      | none => readExhausted l s

/-- A combining read's body is taken; the third one is combined and decoded with the L1 budget (R177). -/
def takeBody (j : PoolJob) (l : Ladder) (m : Nat) (body : List Int) (s : State) : State :=
  let s := modLadder l.id (fun l => { l with combine := l.combine.map (fun c =>
    if c.member = m then { c with bodies := c.bodies ++ [body] } else c) }) s
  match (ladderOf s l.id).bind (fun l => l.combine.find? (fun c => c.member == m)) with
  | some c =>
    match c.bodies with
    | [a, b, d] =>
      let x := combineBodies a b d
      addJob { j with kind := .recovery, bodyLlr := x, chan := Config.demap x, msgs := [], post := [], iter := 0, glob := 1, trial := false, checkEf := false, mode := none, maxIter := getF s Fld.DEC_ITER_CFG_L1_INNER } s
    | _ => s
  | none => s

/-- A member under combining is settled; when all are, L5 runs again (R177). -/
def combineSettled (l : Ladder) (m : Nat) (s : State) : State :=
  let s := modLadder l.id (fun l => { l with combine := l.combine.map (fun c => if c.member = m then { c with settled := true } else c) }) s
  match ladderOf s l.id with
  | some l =>
    if l.combine.all (·.settled) then
      let s := match l.reconId with | some r => dropRecon r s | none => s
      startRecon l (modLadder l.id (fun l => { l with combine := [], waiting := false, reconId := none }) s)
    else s
  | none => s

/-- A job of a combining read ends (R177). -/
def combineDone (j : PoolJob) (d : Decode) (o : PassOutcome) (l : Ladder) (m : Nat) (s : State) : State :=
  if o = .decoded then
    let data := mdData d.payload
    if m = l.member then ladderSucceed l data (mdKind d.payload) s
    else combineSettled l m (putCached l.skein m (some { data := data, meta_ := [], media := 6, recovered := 6 }) s)
  else if !j.checkEf then combineSettled l m s
  else if o ≠ .earlyFail then takeBody j l m j.bodyLlr s
  else
    -- positions of R150 until a trial passes the check; else cands[1]
    let rest := if j.trial then j.cands.drop 0 else j.cands
    let ps := trialPositions rest
    let after := if j.trial then (ps.dropWhile (fun q => q ≠ j.body - 64)).drop 1 else ps
    match after with
    | q :: _ =>
      if redetEnabled s = 0 then takeBody j l m j.bodyLlr s
      else addJob { j with kind := .recovery, mode := some .sample, adapted := some .sample, body := q + 64, trial := true, erased := j.erased, post := if j.trial then j.post else j.bodyLlr } s
    | [] => takeBody j l m (if j.trial then j.post else j.bodyLlr) s

/-- POOL_JOB_COMPLETE of a re-detect unit. -/
def redetCompleteEff (idx : Nat) (s : State) : State :=
  match s.pool.redets.getD idx none with
  | none => s
  | some j =>
    let s := { s with pool := { s.pool with redets := modAt idx (fun _ => none) s.pool.redets } }
    match j.ladder.bind (ladderOf s), j.mode with
    | some _, some m =>
      let done := redetDone s j m
      -- a combining trial keeps the body of cands[1] for the case that none passes
      addJob (if j.step = 6 then { done with post := j.post } else done) s
    | _, _ => s

/-- POOL_JOB_COMPLETE of an engine. -/
def engineCompleteEff (idx : Nat) (s : State) : State :=
  match s.pool.engines.getD idx none with
  | none => s
  | some j =>
    let s := { s with pool := { s.pool with engines := modAt idx (fun _ => none) s.pool.engines } }
    let d := engineRun s j
    let forced := j.kind == .first && j.forRead == .member && flag s Fld.DEC_CTRL_FORCE_EF
    let s := if forced then setF Fld.DEC_CTRL_FORCE_EF 0 s else s
    let o := if forced then .earlyFail else outcomeOf j d
    let s := countOutcome j o s
    -- the input buffer is held until the delivered sector's first job ends
    let s := if j.glob = 1 && j.step = 0 || (j.step = 6 && j.checkEf && !j.trial) then { s with pool := { s.pool with bufs := s.pool.bufs - 1 } } else s
    match j.forRead with
    | .verify key m => verifyDone j d o key m s
    | .assist =>
      if o = .decoded then { s with pool := { s.pool with assists := (s.pool.assists.filter (fun e => e.1 ≠ j.addr)) ++ [(j.addr, d.payload)] } } else s
    | .combine lid m =>
      match ladderOf s lid with
      | some l => combineDone j d o l m s
      | none => s
    | .member =>
      match j.ladder.bind (ladderOf s) with
      | none => s
      | some l =>
        if l.step = 5 || l.step = 6 then s
        else if o = .decoded then
          let s := { s with pool := { s.pool with assists := s.pool.assists.filter (fun e => slotOf e.1 ≠ j.slot || pZone e.1 ≠ j.zone || pLF e.1 ≠ j.lf) } }
          ladderSucceed l (mdData d.payload) (mdKind d.payload) s
        else memberFailed { j with post := d.post, msgs := d.msgs, iter := d.iters } o l s

/-- POOL_JOB_COMPLETE. -/
def poolCompleteEff (redet : Bool) (idx : Nat) (s : State) : State :=
  poolSweep (if redet then redetCompleteEff idx s else engineCompleteEff idx s)

/-! ### Skein engines (R180, R181) -/

/-- A parity generation ends: the parity members are set, and the members join the write queues (R197, R198). -/
def parityDone (key : Nat) (s : State) : State :=
  match skeinOf s key with
  | none => s
  | some k =>
    let ps := parityOf ((List.range 12).map (fun d => padTo 4096 (k.members.getD (memberOfData d) {}).data))
    let s := modSkein key (fun k => { k with
      parityDone := true
      members := (k.members.zip (List.range 16)).map (fun e => if isParityMember e.2 then { e.1 with data := ps.getD (e.2 / 4) [] } else e.1) }) s
    joinQueues key (bump Reg.SKN_CNT 0 s)

/-- A reconstruction ends (R181 steps 2 to 4, R174). -/
def reconDone (id : Nat) (s : State) : State :=
  match reconOf s id with
  | none => s
  | some r =>
    let mask := (List.range 16).foldl (fun a m => match r.members.getD m .erased with | .got _ => a | _ => a + 2 ^ m) 0
    let e := ((List.range 16).filter (bit mask)).length
    let all := if 4 < e then none else rebuild (r.members.map (fun x => match x with | .got d => some (padTo 4096 d) | _ => none))
    let mism := decide (e ≤ 4) && all.isNone
    let s := setReg Reg.SKN_LAST_RECON (BitVec.ofNat 32 ((if mism then 0x80000000 else 0) + (if all.isSome then 0x40000000 else 0) + e * 65536 + mask)) s
    let s := bump Reg.SKN_CNT 1 s
    let s := if r.r173 then bump Reg.SKN_CNT 2 s else s
    let s := if mism then evt Fld.SKN_EVT_RECON_MISMATCH noUnit [⟨4, r.skein⟩] (bump Reg.SKN_CNT 3 s) else s
    match ladderOf s r.ladder with
    | none => dropRecon id s
    | some l =>
      match all with
      | some ms => ladderSucceed l (ms.getD r.target []) 1 (bump Reg.SKN_CNT 7 s)
      | none =>
        if l.step = 5 then enterStep l.id 6 s
        else if l.rounds < getF s Fld.DEC_LADDER_CFG_L6_ROUNDS then startCombine l s
        else ladderFail l s

/-- SKEIN_ENGINE_COMPLETE of engine n: its job ends, and it takes the next (R20, R180). -/
def skeinEngineEff (n : Nat) (s : State) : State :=
  if 2 ≤ n || bit s.pool.sengDead n then s
  else
    let take (s : State) : Option EngineJob × State := match nextSeng s with
      | some j => (some j, { s with pool := { s.pool with sengQueue := s.pool.sengQueue.erase j } })
      | none => (none, s)
    let (job, s) := match s.pool.sengs.getD n none with
      | some j => (some j, s)
      | none => take s
    let s := match job with
      | some (.parity key) => parityDone key s
      | some (.recon id) => reconDone id s
      | none => s
    let (nxt, s) := take s
    { s with pool := { s.pool with sengs := modAt n (fun _ => nxt) s.pool.sengs } }

/-! ### Register writes -/

/-- DEC_PAUSE_RECOVERY and DEC_FORCE_EF (R179, R193). -/
def pauseRecoveryEff (on : Bool) (s : State) : State := setFlag Fld.DEC_CTRL_PAUSE_RECOVERY on s
def forceEfEff (on : Bool) (s : State) : State := setFlag Fld.DEC_CTRL_FORCE_EF on s

end Sys2Proof.Machine
end

