-- ==== Sys2Proof/Machine/Rings.lean ====
section
/-! DEFINITION. Host rings (spec chapter 11): functions, doorbells, ring contexts, ring errors, interrupts, completions
and function-level resets. -/

namespace Sys2Proof.Machine

/-! ### Functions (R337, R56) -/

/-- A function's QUEUES record. -/
def fnCfg (s : State) (f : Nat) : Option QueueFn := match s.img.running with | some i => i.queues.fns[f]? | none => none

/-- A function's PCIe state. -/
def fnSt (s : State) (f : Nat) : FnState := Tbl.get {} f s.host.fns

/-- Changes a function's PCIe state. -/
def modFn (f : Nat) (g : FnState → FnState) (s : State) : State :=
  { s with host := { s.host with fns := Tbl.put {} f (g (fnSt s f)) s.host.fns } }

/-- A function has rings: the PF, or VF n with VF Enable set and n at most NumVFs (R337), of a running image. -/
def hasRings (s : State) (f : Nat) : Bool :=
  (fnCfg s f).isSome && !halted s && !holding s && decide (6 ≤ stage s) &&
    (f == 0 || (s.host.vfEnable && decide (f ≤ s.host.numVfs)))

/-- A ring within a function's range. -/
def inRange (s : State) (f r : Nat) : Bool :=
  match fnCfg s f with
  | some q => decide (q.ringBase ≤ r) && decide (r < q.ringBase + q.ringCount)
  | none => false

/-- The function whose range holds a ring; ranges do not overlap (R57). -/
def fnOfRing (s : State) (r : Nat) : Option Nat := (List.range 64).find? (fun f => inRange s f r)

/-- An HQ function register of function f (R375). -/
def fnOff (f : Nat) : Nat := 0x40 * f

/-- The host address of a ring's descriptor (R341). -/
def descAddr (s : State) (f r : Nat) : Nat :=
  let base := match fnCfg s f with | some q => q.ringBase | none => 0
  get64 s (Reg.HQ_FN_DIR_LO + fnOff f) + 64 * (r - base)

/-! ### Contexts -/

/-- The context of a ring. -/
def ctxOf (s : State) (r : Nat) : Option RingCtx := Tbl.get none r s.host.ctx

/-- Replaces the context of a ring. -/
def putCtx (r : Nat) (c : Option RingCtx) (s : State) : State :=
  { s with host := { s.host with ctx := Tbl.put none r c s.host.ctx } }

/-- Changes the context of a ring. -/
def modCtx (r : Nat) (f : RingCtx → RingCtx) (s : State) : State :=
  match ctxOf s r with | some c => putCtx r (some (f c)) s | none => s

/-- The resident contexts, each with its ring. -/
def ctxs (s : State) : List (Nat × RingCtx) := s.host.ctx.filterMap (fun e => e.2.map (fun c => (e.1, c)))

/-- Entries of each area of a ring. -/
def entries (c : RingCtx) : Nat := 2 ^ c.sizeLog2

/-- Commands of a ring of this device in flight. -/
def inFlight (s : State) (r : Nat) : Nat := ((cmds s).filter (fun e => e.2.ring == r && !e.2.remote)).length

/-- Contexts that a function holds, those of loads under way among them. -/
def ctxHeld (s : State) (f : Nat) : Nat :=
  ((ctxs s).filter (fun e => e.2.fn == f)).length + (s.host.loading.filter (fun r => inRange s f r)).length

/-- The record of a ring in the doorbell table (R350). -/
def bellOf (s : State) (r : Nat) : Doorbell := Tbl.get {} r s.host.doorbells

/-- Replaces a doorbell record. -/
def putBell (r : Nat) (d : Doorbell) (s : State) : State :=
  { s with host := { s.host with doorbells := Tbl.put {} r d s.host.doorbells } }

/-- The next count of ring use, for "least recently used" (R344). -/
def touch (r : Nat) (s : State) : State :=
  let n := s.host.clock + 1
  modCtx r (fun c => { c with lastUse := n }) { s with host := { s.host with clock := n } }

/-! ### Interrupts (R373, R374) -/

/-- The key of a function's MSI-X vector. -/
def vecKey (f v : Nat) : Nat := 4096 * f + v

/-- One MSI-X message of a function's vector, or its PBA bit while the vector or the function is masked (R374). -/
def signalVec (f v : Nat) (s : State) : State :=
  let st := fnSt s f
  let mv : MsixVec := Tbl.get {} (vecKey f v) s.host.msix
  if !st.msixEn then s
  else if st.fnMask || mv.masked then
    { s with host := { s.host with msix := Tbl.put {} (vecKey f v) { mv with pending := true } s.host.msix } }
  else bump Reg.HQ_CNT 6 (emit (.msix f v) s)

/-- A ring signals its vector: all its completions are signalled (R373). -/
def ringSignal (r : Nat) (s : State) : State :=
  match ctxOf s r with
  | some c => if c.intEn then signalVec c.fn c.vector (modCtx r (fun c => { c with unsignalled := 0 }) s) else s
  | none => s

/-- What a posted completion does for a ring's vector (R373). -/
def moderate (r : Nat) (good : Bool) (s : State) : State :=
  match ctxOf s r with
  | none => s
  | some c =>
    if !c.intEn then s
    else
      let s := modCtx r (fun c => { c with unsignalled := c.unsignalled + 1 }) s
      if !good || decide (max 1 c.coalCount ≤ c.unsignalled + 1) then ringSignal r s else s

/-- COALESCE_TIMER_EXPIRY: COAL_TIME has passed since a ring's oldest unsignalled completion (R373). -/
def coalesceEff (r : Nat) (s : State) : State :=
  match ctxOf s r with
  | some c => if c.unsignalled = 0 then s else ringSignal r s
  | none => s

/-- Sends the message of a pending vector that nothing masks any more (R374). -/
def unmaskOne (f v : Nat) (s : State) : State :=
  let mv : MsixVec := Tbl.get {} (vecKey f v) s.host.msix
  if mv.pending && !mv.masked && !(fnSt s f).fnMask && (fnSt s f).msixEn then
    bump Reg.HQ_CNT 6 (emit (.msix f v)
      { s with host := { s.host with msix := Tbl.put {} (vecKey f v) { mv with pending := false } s.host.msix } })
  else s

/-- Sends every pending message of a function that nothing masks. -/
def unmaskAll (f : Nat) (s : State) : State :=
  forEach (fun e s => if e.1 / 4096 = f then unmaskOne f (e.1 % 4096) s else s) s.host.msix s

/-- MSIX_UNMASK: a vector (some v) or the whole function (none) is unmasked. -/
def msixUnmaskEff (f : Nat) (v : Option Nat) (s : State) : State :=
  match v with
  | some v =>
    let mv : MsixVec := Tbl.get {} (vecKey f v) s.host.msix
    unmaskOne f v { s with host := { s.host with msix := Tbl.put {} (vecKey f v) { mv with masked := false } s.host.msix } }
  | none => unmaskAll f (modFn f (fun st => { st with fnMask := false }) s)

/-! ### Ring errors (R352) -/

/-- Records a ring error: RING_ERR of the function, the event and its count. -/
def ringError (f r cause : Nat) (s : State) : State :=
  let s := setF (Fld.HQ_FN_RING_ERR_RING.at (fnOff f)) r (setF (Fld.HQ_FN_RING_ERR_CAUSE.at (fnOff f)) cause s)
  evt Fld.HQ_EVT_RING_ERROR noUnit [⟨1, f⟩, ⟨4, r⟩, ⟨1, cause⟩] (bump Reg.HQ_CNT 5 s)

/-- Halts a resident ring. -/
def haltRing (r cause : Nat) (s : State) : State :=
  match ctxOf s r with
  | some c => if c.halted then s else ringError c.fn r cause (modCtx r (fun c => { c with halted := true }) s)
  | none => s

/-- A failed read of host memory (HQ_EVT.HOST_ACCESS). -/
def hostAccess (f r : Nat) (s : State) : State := evt Fld.HQ_EVT_HOST_ACCESS noUnit [⟨1, f⟩, ⟨4, r⟩] s

/-! ### Applying doorbells (R349 to R353) -/

/-- A CPL_HEAD that does not pass CPL_TAIL. -/
def headOk (c : RingCtx) (h : Nat) : Bool :=
  let n := entries c
  decide (h < n) && decide ((h + n - c.cplHead % n) % n ≤ (c.cplTail + n - c.cplHead % n) % n)

/-- Applies CMD_TAIL: a halted ring ignores it (R353). -/
def applyTail (r t : Nat) (s : State) : State :=
  match ctxOf s r with
  | some c => if c.halted then s else if t < entries c then modCtx r (fun c => { c with cmdTail := t }) s else haltRing r 4 s
  | none => s

/-- Applies CPL_HEAD. -/
def applyHead (r h : Nat) (s : State) : State :=
  match ctxOf s r with
  | some c => if headOk c h then modCtx r (fun c => { c with cplHead := h }) s else haltRing r 5 s
  | none => s

/-- Applies the fields of a doorbell that are valid. -/
def applyBell (r : Nat) (tail head : Option Nat) (s : State) : State :=
  let s := match tail with | some t => applyTail r t s | none => s
  match head with | some h => applyHead r h s | none => s

/-- A discarded doorbell (R349). -/
def discardBell (f r : Nat) (s : State) : State :=
  evt Fld.HQ_EVT_DB_DISCARD noUnit [⟨1, f⟩, ⟨4, r⟩] (bump Reg.HQ_CNT 4 s)

/-! ### Loading and evicting contexts (R344 to R346) -/

/-- Contexts of the shared remainder in use, and their number (R57): a function draws on it beyond its CTX_QUOTA. -/
def sharedUsed (s : State) : Nat :=
  match s.img.running with
  | some i => ((List.range i.queues.fns.length).map (fun f => ctxHeld s f - (i.queues.fns.getD f default).ctxQuota)).foldl (· + ·) 0
  | none => 0
def sharedAll (s : State) : Nat :=
  match s.img.running with | some i => 3072 - (i.queues.fns.map (·.ctxQuota)).foldl (· + ·) 0 | none => 0

/-- A context may be evicted (R344): nothing in flight, no completion waiting, no INVALIDATE running. -/
def evictable (s : State) (r : Nat) (c : RingCtx) : Bool := inFlight s r == 0 && !c.invalidating

/-- The least recently used of some contexts; ties go to the lower ring. -/
def lruOf : List (Nat × RingCtx) → Option (Nat × RingCtx)
  | [] => none
  | e :: es => match lruOf es with
    | none => some e
    | some b => if e.2.lastUse < b.2.lastUse || (e.2.lastUse == b.2.lastUse && decide (e.1 < b.1)) then some e else some b

/-- Writes a context's state back to its descriptor and releases it: unsignalled completions are signalled first
(R373), and CPL_HEAD is recorded in the doorbell table (R350). -/
def writeBack (r : Nat) (s : State) : State :=
  match ctxOf s r with
  | none => s
  | some c =>
    let s := if c.intEn && decide (0 < c.unsignalled) then ringSignal r s else s
    let sf := 1 + (if c.phase then 2 else 0) + (if c.wrapped then 4 else 0)
    let s := emit (.hostWrite c.fn (descAddr s c.fn r + 0x30)
      (leBytes 2 c.fetchHead ++ leBytes 2 c.cplTail ++ leBytes 1 sf ++ List.replicate 11 0)) s
    putCtx r none (putBell r { bellOf s r with head := some c.cplHead } s)

/-- Takes a context for a load of function f, evicting where R344 says so; none where none can be had. -/
def takeCtx (f : Nat) (s : State) : Option State :=
  match fnCfg s f with
  | none => none
  | some q =>
    let held := ctxHeld s f
    if held < q.ctxQuota then some s
    else if held < q.ctxLimit && decide (sharedUsed s < sharedAll s) then some s
    else
      let may := (ctxs s).filter (fun e => evictable s e.1 e.2)
      match lruOf (may.filter (fun e => e.2.fn == f)) with
      | some e => some (bump Reg.HQ_CNT 3 (writeBack e.1 s))
      | none =>
        if held < q.ctxLimit then
          match lruOf (may.filter (fun e => match fnCfg s e.2.fn with
              | some g => decide (g.ctxQuota < ctxHeld s e.2.fn) | none => false)) with
          | some e => some (bump Reg.HQ_CNT 3 (writeBack e.1 s))
          | none => none
        else none

/-- Starts the descriptor read of a load that is among the 32 oldest (R345). -/
def readDesc (r : Nat) (s : State) : State :=
  match fnOfRing s r with | some f => emit (.hostRead f (descAddr s f r) 64) s | none => s

/-- Starts a load that can get a context; a starved one waits (R346). -/
def startLoad (r : Nat) (s : State) : State :=
  if s.host.loading.contains r || (ctxOf s r).isSome then s
  else match fnOfRing s r with
    | none => s
    | some f =>
      match takeCtx f s with
      | some s =>
        let s := { s with host := { s.host with loading := s.host.loading ++ [r], starved := s.host.starved.filter (· ≠ r) } }
        if s.host.loading.length ≤ 32 then readDesc r s else s
      | none => evt Fld.HQ_EVT_CTX_STARVED noUnit [⟨1, f⟩, ⟨4, r⟩]
          { s with host := { s.host with starved := addNat r s.host.starved } }

/-- CONTEXT_FREED: the starved loads are tried again, oldest first (R346). -/
def retryStarved (s : State) : State := forEach startLoad s.host.starved s

/-- A load ends: the next one beyond 32 starts its read. -/
def endLoad (r : Nat) (s : State) : State :=
  let next := s.host.loading[32]?
  let s := { s with host := { s.host with loading := s.host.loading.filter (· ≠ r) } }
  match next with | some n => readDesc n s | none => s

/-- DOORBELL: a write of size bytes of v at offset off of function f's BAR4 (R348 to R350). -/
def doorbellEff (f off size v : Nat) (s : State) : State :=
  if size ≠ 8 || off % 8 ≠ 0 then s
  else
    let r := off / 8
    if !hasRings s f || !inRange s f r || (fnSt s f).inFlr || decide (0x400000000 ≤ v) then discardBell f r s
    else
      let tail := if bit v 32 then some (bits v 0 16) else none
      let head := if bit v 33 then some (bits v 16 16) else none
      match ctxOf s r with
      | some _ => applyBell r tail head (touch r s)
      | none =>
        let d := bellOf s r
        let s := putBell r { tail := (match tail with | some t => some t | none => d.tail),
                             head := (match head with | some h => some h | none => d.head), rung := true } s
        startLoad r (retryStarved s)

/-- The first error of a descriptor (Table 11-5, causes 1 to 3). -/
def descError (q : QueueFn) (d : List Byte) : Option Nat :=
  if leAt d 0x13 1 / 4 ≠ 0 || (slice d 0x1A 22).any (· ≠ 0) || leAt d 0x34 1 / 8 ≠ 0 || (slice d 0x35 11).any (· ≠ 0) ||
      leAt d 0x10 1 < 4 || 16 < leAt d 0x10 1 || leAt d 0x12 1 = 0 || leAt d 0 8 % 64 ≠ 0 || leAt d 8 8 % 64 ≠ 0 ||
      (1 < leAt d 0x16 2 && leAt d 0x18 2 = 0) then some 1
  else if 4 ≤ leAt d 0x11 1 || !bit q.classMask (leAt d 0x11 1) then some 2
  else if q.msix ≤ leAt d 0x14 2 then some 3
  else none

/-- The context of a descriptor (R343); rec is the recorded CPL_HEAD. -/
def ctxOfDesc (f : Nat) (d : List Byte) (rec_ : Option Nat) : RingCtx :=
  let n := 2 ^ leAt d 0x10 1
  let valid := bit (leAt d 0x34 1) 0
  let tail := if valid then leAt d 0x32 2 % n else 0
  let head := if valid then leAt d 0x30 2 % n else 0
  { fn := f, cmdBase := leAt d 0 8, cplBase := leAt d 8 8, sizeLog2 := leAt d 0x10 1, cls := leAt d 0x11 1,
    weight := leAt d 0x12 1, intEn := bit (leAt d 0x13 1) 1, vector := leAt d 0x14 2, coalCount := leAt d 0x16 2,
    coalTime := leAt d 0x18 2, fetchHead := head, cplTail := tail,
    phase := if valid then bit (leAt d 0x34 1) 1 else true, wrapped := valid && bit (leAt d 0x34 1) 2, cmdTail := head,
    cplHead := if valid then (match rec_ with | some h => h % n | none => (tail + 1) % n) else 0 }

/-- CONTEXT_LOAD_COMPLETE: the descriptor read of a ring ends, without success where none (R343, R345, R349, R352). -/
def ctxLoadEff (r : Nat) (desc : Option (List Byte)) (s : State) : State :=
  if !(s.host.loading.take 32).contains r then s
  else
    let s := endLoad r s
    match fnOfRing s r with
    | none => s
    | some f =>
      match desc, fnCfg s f with
      | none, _ => retryStarved (ringError f r 7 (hostAccess f r s))
      | _, none => s
      | some d, some q =>
        if !bit (leAt d 0x13 1) 0 then retryStarved (discardBell f r (putBell r {} s))
        else match descError q d with
          | some cause => retryStarved (ringError f r cause s)
          | none =>
            let b := bellOf s r
            let fresh := !bit (leAt d 0x34 1) 0
            let s := bump Reg.HQ_CNT 2 (putCtx r (some (ctxOfDesc f d b.head)) (putBell r {} s))
            applyBell r b.tail (if fresh && b.rung then b.head else none) (touch r s)

/-! ### Ring operations (R347) -/

/-- The report of a ring (HQ_FN_RING_STAT); done as given. -/
def ringStat (f r : Nat) (done : Bool) (s : State) : State :=
  let o := fnOff f
  let c := ctxOf s r
  let s' := setReg (Reg.HQ_FN_RING_STAT + o) 0#32 s
  let s' := setFlag (Fld.HQ_FN_RING_STAT_DONE.at o) done s'
  let s' := setFlag (Fld.HQ_FN_RING_STAT_RESIDENT.at o) c.isSome s'
  let s' := setFlag (Fld.HQ_FN_RING_STAT_HALTED.at o) (match c with | some c => c.halted | none => false) s'
  let s' := setFlag (Fld.HQ_FN_RING_STAT_DB_PENDING.at o) (c.isNone && (bellOf s r).rung) s'
  setF (Fld.HQ_FN_RING_STAT_IN_FLIGHT.at o) (inFlight s r) s'

/-- The report of a refused operation. -/
def ringRefused (f : Nat) (s : State) : State :=
  setReg (Reg.HQ_FN_RING_STAT + fnOff f) 0xC0000000#32 s

/-- RING_INVALIDATE_DONE: an invalidated ring with nothing in flight writes its state back and releases its context. -/
def invalidateDoneEff (r : Nat) (s : State) : State :=
  match ctxOf s r with
  | some c =>
    if c.invalidating && inFlight s r = 0 then retryStarved (ringStat c.fn r true (writeBack r s)) else s
  | none => s

/-- RING_INVALIDATE: fetching from the ring stops at once; a ring without a context ends at once, and a load of it under way
is given up. -/
def invalidateEff (f r : Nat) (s : State) : State :=
  if !inRange s f r then ringRefused f s
  else match ctxOf s r with
    | some _ => ringStat f r false (modCtx r (fun c => { c with invalidating := true }) s)
    | none =>
      let s := if s.host.loading.contains r then endLoad r s else s
      ringStat f r true { s with host := { s.host with starved := s.host.starved.filter (· ≠ r) } }

/-- RING_QUERY. -/
def ringQueryEff (f r : Nat) (s : State) : State :=
  if !inRange s f r then ringRefused f s
  else ringStat f r (match ctxOf s r with | some c => !c.invalidating | none => true) s

/-! ### Completions (R365, R367) -/

/-- Removes a posted command from the queue and frees its tag. -/
def dropPosted (t : Nat) (s : State) : State :=
  freeTag t { s with host := { s.host with posting := s.host.posting.filter (· ≠ t) } }

/-- The outcome of a partner's command goes over the link (R531). -/
def sendOutcome (t : Nat) (c : Cmd) (s : State) : State :=
  dropPosted t (emit (.jokor 0x22 [t, c.seq, c.status.code, c.result, if c.replayed then 1 else 0, if c.relocated then 1 else 0, c.step]) s)

/-- A completion waits for space: the event, and one count for each completion held. -/
def cplFull (t r : Nat) (c : Cmd) (s : State) : State :=
  let s := if c.heldFull then s else bump Reg.HQ_CNT 7 (modCmd t (fun c => { c with heldFull := true }) s)
  evt Fld.HQ_EVT_CPL_FULL noUnit [⟨1, c.fn⟩, ⟨4, r⟩] s

/-- Writes one completion to its ring (R367). -/
def postOne (t : Nat) (c : Cmd) (x : RingCtx) (s : State) : State :=
  let n := entries x
  if (x.cplHead + 2 * n - x.cplTail - 1) % n = 0 then cplFull t c.ring c s
  else
    let tail := (x.cplTail + 1) % n
    let s := emit (.hostWrite c.fn (x.cplBase + 16 * x.cplTail)
      (completionBytes c.seq c.result c.slot c.status.code x.phase c.replayed c.relocated c.step)) s
    let s := modCtx c.ring (fun y => { y with cplTail := tail, phase := if tail = 0 then !y.phase else y.phase }) s
    moderate c.ring c.status.good (dropPosted t (bump Reg.HQ_CNT 1 s))

/-- The first ended command of a ring whose completion is not posted. -/
def nextPost (s : State) (remote : Bool) (r : Nat) : Option (Nat × Cmd) :=
  s.host.posting.findSome? (fun t => match cmdOf s t with
    | some c => if c.ring == r && c.remote == remote then some (t, c) else none
    | none => none)

/-- COMPLETION_POST of a ring: the ended command that comes first is posted once its replay entry is acknowledged, the
function allows it and an entry is free; from a power failure on none is (R367, R472, R534). -/
def completionPostEff (r : Nat) (s : State) : State :=
  if s.pwr.pfRunning then s else
  let s := match nextPost s true r with
    | some (t, c) => if acked s (.replay c.seq) then sendOutcome t c s else s
    | none => s
  match nextPost s false r with
  | none => s
  | some (t, c) =>
    match ctxOf s r with
    | none => s
    | some x =>
      if !acked s (.replay c.seq) || !(fnSt s c.fn).busMaster || (fnSt s c.fn).d3 || (fnSt s c.fn).inFlr then s
      else postOne t c x s

/-! ### Function-level reset (R340) -/

/-- Ends a function's command as an implied abort would: one that the abort cannot end is detached, and no completion is
written. A command still waiting in the unit sequencer ends; one taken runs on. -/
def flrCmd (t : Nat) (s : State) : State :=
  match cmdOf s t with
  | none => s
  | some c =>
    if c.state = .ended then dropPosted t s
    else
      let s := modCmd t (fun c => { c with silent := true }) s
      let (st, s) := abortTarget t s
      if st = .abortTooLate then modCmd t (fun c => { c with detached := true }) s else s

/-- The reset values of a function's registers; a VF keeps its volume mask. -/
def resetFnRegs (f : Nat) (s : State) : State :=
  let o := fnOff f
  let keep := f ≠ 0
  let lo := getReg s (Reg.HQ_FN_VOLMASK_LO + o)
  let hi := getReg s (Reg.HQ_FN_VOLMASK_HI + o)
  let s := { s with regs := s.regs.filter (fun e => !(decide (Reg.HQ_FN_DIR_LO + o ≤ e.1) && decide (e.1 < Reg.HQ_FN_DIR_LO + o + 0x40))) }
  if keep then setReg (Reg.HQ_FN_VOLMASK_HI + o) hi (setReg (Reg.HQ_FN_VOLMASK_LO + o) lo s) else s

/-- Starts the reset of one function: its doorbells go, its loads are given up, its commands end or are detached. -/
def flrStart (f : Nat) (s : State) : State :=
  let mine (r : Nat) : Bool := inRange s f r
  let s := modFn f (fun _ => { inFlr := true }) s
  let s := { s with host := { s.host with
    doorbells := s.host.doorbells.filter (fun e => !mine e.1)
    loading := s.host.loading.filter (fun r => !mine r)
    starved := s.host.starved.filter (fun r => !mine r)
    msix := s.host.msix.filter (fun e => e.1 / 4096 ≠ f) } }
  let s := forEach (fun e s => if e.2.fn = f && !e.2.remote then flrCmd e.1 s else s) (cmds s) s
  resetFnRegs f s

/-- FLR of a function; of the PF, of every function (R340). -/
def flrEff (f : Nat) (s : State) : State :=
  if f = 0 then
    let s := forEach (fun n s => flrStart n s) (upFrom 0 64) s
    { s with host := { s.host with vfEnable := false, numVfs := 0 } }
  else flrStart f s

/-- FLR_END: every command of the function has ended or been detached, so its contexts are released without write-back. -/
def flrEndEff (f : Nat) (s : State) : State :=
  if !(fnSt s f).inFlr then s
  else if (cmds s).any (fun e => e.2.fn == f && !e.2.remote && !e.2.detached && e.2.state != .ended) then s
  else
    let s := { s with host := { s.host with ctx := s.host.ctx.filter (fun e => match e.2 with | some c => c.fn ≠ f | none => true) } }
    let s := modFn f (fun st => { st with inFlr := false }) s
    retryStarved (evt Fld.HQ_EVT_FLR noUnit [⟨1, f⟩] s)

/-- U_TOKEN_REFILL (R370). -/
def tokenRefillEff (s : State) : State := setReg Reg.HQ_U_TOKENS (getReg s Reg.HQ_U_BUDGET) s

end Sys2Proof.Machine
end

