-- ==== Sys2Proof/Machine/Accept.lean ====
section
/-! DEFINITION. Arbitration and acceptance (spec chapters 11, 12 and 18): the arbiter, the checks of Table 11-8, replay
identities, and the acceptance of a command into the order. -/

namespace Sys2Proof.Machine

/-! ### Arbitration (R369 to R371) -/

/-- Fetching is allowed: S7, RUNNING, no FETCH_STOP, no power failure, no buffer-channel drain (R369, R472, R580). -/
def fetching (s : State) : Bool :=
  stage s == 7 && !halted s && !flag s Fld.HQ_CTRL_FETCH_STOP && getF s Fld.IMG_STATUS_QSTATE == 0 && !s.pwr.pfRunning &&
    !s.host.fetchHold && s.unt.bufService.isEmpty

/-- The partner's journal window and standing allow a grant (R530, R532). -/
def pairAllows (s : State) : Bool :=
  if !pairEn s then true
  else if isOwner s then !mirroring s || decide (get64 s Reg.HQ_SEQ_LO + 1 ≤ s.pair.ackedSeq + 4096)
  else (ust s uPartner).serves

/-- A ring is eligible for a grant, a free tag apart (R369). -/
def eligible (s : State) (_r : Nat) (c : RingCtx) : Bool :=
  !c.halted && !c.invalidating && hasRings s c.fn && !(fnSt s c.fn).inFlr && !(fnSt s c.fn).d3 && (fnSt s c.fn).busMaster &&
    !flag s (Fld.HQ_FN_CTRL_FETCH_STOP.at (fnOff c.fn)) && c.cmdTail % entries c != c.fetchHead

/-- A U ring competes as class H while the budget is non-zero and no token is left (R370). -/
def uSpent (s : State) : Bool := getReg s Reg.HQ_U_BUDGET ≠ 0 && getReg s Reg.HQ_U_TOKENS = 0

/-- The effective class: 0 U, 1 H, 2 M, 3 L. -/
def effClass (s : State) (c : RingCtx) : Nat := if c.cls = 0 && uSpent s then 1 else c.cls

/-- The class weights. -/
def weightOf (s : State) (k : Nat) : Int :=
  if k = 1 then getF s Fld.HQ_WEIGHT_W_H else if k = 2 then getF s Fld.HQ_WEIGHT_W_M else getF s Fld.HQ_WEIGHT_W_L

/-- The class credits. -/
def creditOf (h : HostState) (k : Nat) : Int := if k = 1 then h.creditH else if k = 2 then h.creditM else h.creditL
def setCredit (k : Nat) (v : Int) (h : HostState) : HostState :=
  if k = 1 then { h with creditH := v } else if k = 2 then { h with creditM := v } else { h with creditL := v }

/-- The classes among H, M and L with an eligible ring, in that order. -/
def classesIn (s : State) (es : List (Nat × RingCtx)) : List Nat := [1, 2, 3].filter (fun k => es.any (fun e => effClass s e.2 == k))

/-- The credit round of R371: the class chosen, ties to H, then M, then L. -/
def creditRound (w : Nat → Int) (elig : List Nat) (h : HostState) : Nat × HostState :=
  let h := [1, 2, 3].foldl (fun h k => if elig.contains k then setCredit k (creditOf h k + w k) h else setCredit k 0 h) h
  let best := elig.foldl (fun (b : Option Nat) k => match b with
    | none => some k
    | some j => if creditOf h j < creditOf h k then some k else some j) none
  let cls := best.getD 1
  (cls, setCredit cls (creditOf h cls - (elig.map w).foldl (· + ·) 0) h)

/-- The lowest number of a list. -/
def lowest : List Nat → Option Nat
  | [] => none
  | x :: xs => match lowest xs with | none => some x | some y => some (min x y)

/-- pick_ring (R371) over the eligible rings of the class. -/
def pickRing (k : Nat) (es : List (Nat × RingCtx)) (h : HostState) : Nat × HostState :=
  let cur := h.cursor.getD k 0
  let keep := match es.find? (fun e => e.1 == cur) with | some e => decide (h.used.getD k 0 < e.2.weight) | none => false
  if keep then (cur, { h with used := modAt k (· + 1) h.used })
  else
    let rs := es.map (·.1)
    let r := match lowest (rs.filter (fun r => decide (cur < r))) with | some r => r | none => (lowest rs).getD 0
    (r, { h with cursor := modAt k (fun _ => r) h.cursor, used := modAt k (fun _ => 1) h.used })

/-- The arbiter's decision over the eligible rings: the ring, with the tokens, credits and cursors after it. -/
def arbitrateRings (es : List (Nat × RingCtx)) (s : State) : Nat × State :=
  let s := if uSpent s && es.any (fun e => e.2.cls == 0) then evt Fld.HQ_EVT_U_EXHAUSTED noUnit [] s else s
  let us := es.filter (fun e => effClass s e.2 == 0)
  if us.isEmpty then
    let (k, h) := creditRound (weightOf s) (classesIn s es) s.host
    let (r, h) := pickRing k (es.filter (fun e => effClass s e.2 == k)) h
    (r, { s with host := h })
  else
    let (r, h) := pickRing 0 us s.host
    let s := { s with host := h }
    (r, if getReg s Reg.HQ_U_BUDGET = 0 then s else setReg Reg.HQ_U_TOKENS (getReg s Reg.HQ_U_TOKENS - 1#32) s)

/-! ### Step 1 of Table 11-8 (R355 to R357) -/

/-- The row of an opcode in Table 11-7: PF only, least and largest COUNT, permitted CFLAGS, DATA_ADDR is 0, and what
VOLUME names: 0 nothing, 1 a volume, 2 a layer. -/
structure OpRow where
  pf : Bool
  lo : Nat
  hi : Nat
  flags : Nat
  dataZero : Bool
  vol : Nat

/-- Table 11-7. -/
def opRow (op : Nat) : Option OpRow :=
  if op = opNop then some ⟨false, 0, 0, 0x02, true, 0⟩
  else if op = opRead then some ⟨false, 1, 16384, 0x2A, false, 1⟩
  else if op = opWrite then some ⟨false, 1, 16384, 0x37, false, 1⟩
  else if op = opFlush then some ⟨false, 0, 0, 0x12, true, 1⟩
  else if op = opAbort then some ⟨false, 0, 0, 0x00, true, 0⟩
  else if op = opCreate then some ⟨true, 0, 0, 0x10, false, 1⟩
  else if op = opClose then some ⟨true, 0, 0, 0x12, true, 1⟩
  else if op = opInfo then some ⟨false, 0, 0, 0x00, false, 1⟩
  else if op = opImport then some ⟨true, 1, 32768, 0x22, false, 2⟩
  else if op = opUnitRequest then some ⟨true, 0, 0, 0x00, false, 0⟩
  else if op = opUnitQuery then some ⟨false, 0, 0, 0x00, false, 0⟩
  else if op = opCalibrate then some ⟨true, 0, 0, 0x00, false, 0⟩
  else if op = opSelfTest then some ⟨true, 0, 0, 0x00, false, 0⟩
  else none

/-- The offset of the first byte that is not 0 among n bytes from o. -/
def nz (bs : List Byte) (o n : Nat) : Option Nat := (upFrom o n).find? (fun i => leAt bs i 1 != 0)

/-- Where a condition holds, the offset. -/
def badAt (b : Bool) (o : Nat) : Option Nat := if b then some o else none

/-- The first offset of a list. -/
def firstOff : List (Option Nat) → Option Nat
  | [] => none
  | some o :: _ => some o
  | none :: r => firstOff r

/-- A volume that the function may use (HQ_FN_VOLMASK). -/
def volAllowed (s : State) (f v : Nat) : Bool :=
  decide (v < 64) && bit (getReg s ((if v < 32 then Reg.HQ_FN_VOLMASK_LO else Reg.HQ_FN_VOLMASK_HI) + fnOff f)).toNat (v % 32)

/-- The codes of Table 17-5 that a unit accepts. -/
def unitAccepts (u code : Nat) : Bool :=
  if code = 0x01 then u == uDisc || isSide u || isCar u || u == uSpindle || isStrand u || u == uPartner
  else if code = 0x03 then u == uDisc || isSide u || isCar u || u == uSpindle || isStrand u || u == uPartner || isBuf u
  else if code = 0x07 then isCar u || u == uSpindle || isBuf u
  else if code = 0x10 || code = 0x11 then u == uDisc || isCar u || u == uPartner
  else false

/-- The kinds of Table 16-1: listed, and accepting the unit. -/
def calListed (op code : Nat) : Bool :=
  if op = opCalibrate then decide (1 ≤ code) && decide (code ≤ 6) else decide (1 ≤ code) && decide (code ≤ 3)
def calAccepts (op code u : Nat) : Bool :=
  if op = opCalibrate then (if code = 6 then u == uSpindle else isCar u) else isBuf u

/-- Checks of a unit request: the offsets of UNIT, CODE and EXPECT_EPOCH within their record (R26, R477, R505). -/
def unitReqBad (s : State) (op u code epoch : Nat) : Option Nat :=
  if op = opUnitRequest then
    firstOff [badAt (!bound s u) 0, badAt (!unitAccepts u code) 1, badAt (epoch == 0) 4]
  else
    firstOff [badAt (!bound s u || (calListed op code && !calAccepts op code u)) 0, badAt (!calListed op code) 1, badAt (epoch == 0) 4]

/-- BODY of a command (R361, R364). -/
def bodyBad (s : State) (op : Nat) (b : List Byte) : Option Nat :=
  if op = opAbort then
    firstOff [badAt (decide (16 ≤ leAt b 0x32 1)) 0x32, nz b 0x33 1, nz b 0x36 10]
  else if op = opUnitQuery then
    firstOff [badAt (!unitListed (leAt b 0x30 1)) 0x30, nz b 0x31 15]
  else if op = opUnitRequest || op = opCalibrate || op = opSelfTest then
    match unitReqBad s op (leAt b 0x30 1) (leAt b 0x31 1) (leAt b 0x34 4) with
    | some o => if o < 2 then some (0x30 + o) else (match nz b 0x32 2 with | some p => some p | none => some (0x30 + o))
    | none => firstOff [nz b 0x32 2, nz b 0x38 8]
  else nz b 0x30 16

/-- Step 1 on the command's own 64 bytes: the offset of the first offending byte (R356, R357, Table 11-11). -/
def fieldCheck (s : State) (f : Nat) (b : List Byte) : Option Nat :=
  let op := leAt b 0 1
  match opRow op with
  | none => some 0
  | some r =>
    if r.pf && f ≠ 0 then some 0
    else
      let fl := leAt b 1 1
      let v := leAt b 2 1
      let cnt := leAt b 4 4
      let list := bit fl 5
      firstOff [
        badAt (fl != (fl &&& r.flags)) 1,
        badAt (if r.vol = 1 then !volAllowed s f v else if r.vol = 2 then decide (4 ≤ v) else v != 0) 2,
        nz b 3 1,
        if r.hi = 0 then nz b 4 4 else badAt (decide (cnt < r.lo) || decide (r.hi < cnt)) 4,
        if r.hi = 0 then nz b 8 8 else nz b 0x0D 3,
        if r.dataZero then nz b 0x10 8 else badAt (leAt b 0x10 8 % (if list then 16 else 4) != 0) 0x10,
        if list then badAt (leAt b 0x18 4 == 0 || decide (16384 < leAt b 0x18 4)) 0x18 else nz b 0x18 4,
        nz b 0x1C 4,
        if bit fl 3 then badAt (leAt b 0x20 8 == 0) 0x20 else nz b 0x20 8,
        if bit fl 4 then badAt (leAt b 0x28 8 == 0) 0x28 else nz b 0x28 8,
        bodyBad s op b]

/-- The bytes of a command's data. -/
def dataLen (c : HostCmd) : Nat := c.count * (if c.opcode = opImport then 2048 else 4096)

/-- The entries of a data list, as (address, length). -/
def listSegs (c : HostCmd) (l : List Byte) : List (Nat × Nat) :=
  (List.range c.listCount).map (fun i => (leAt l (16 * i) 8, leAt l (16 * i + 8) 4))

/-- The RESULT for a data list that breaks R357: the index of the first bad entry and the byte in it, or a wrong sum. -/
def listBad (c : HostCmd) (l : List Byte) : Option Nat :=
  match (List.range c.listCount).findSome? (fun i =>
      (firstOff [badAt (leAt l (16 * i) 8 % 4 != 0) 0,
        badAt (leAt l (16 * i + 8) 4 % 4 != 0 || decide (leAt l (16 * i + 8) 4 < 4) || decide (67108864 < leAt l (16 * i + 8) 4)) 8,
        (nz (slice l (16 * i) 16) 12 4)]).map (fun o => 0x40000000 + 256 * i + o)) with
  | some r => some r
  | none => if ((listSegs c l).map (·.2)).foldl (· + ·) 0 = dataLen c then none else some (0x40000000 + 256 * c.listCount + 8)

/-- The first offending byte of an attribute record (R362, R224, R105). -/
def recordBad (s : State) (r : List Byte) : Option Nat :=
  let mode := leAt r 8 1
  let lvl := leAt r 9 1
  firstOff [badAt (leAt r 0 8 == 0) 0, nz r 5 3, badAt (decide (2 < mode) || (mode != 0 && policyVal s 11 == 0)) 8,
    badAt (if mode = 0 then lvl != 0 else decide (lvl < 1) || decide (4 < lvl)) 9, nz r 10 6]

/-! ### Steps 2 to 8 -/

/-- The create of a volume that is accepted and not yet ended (R385). -/
def createOf (s : State) (v : Nat) : Option Cmd :=
  ((cmds s).find? (fun e => e.2.cmd.opcode == opCreate && e.2.cmd.volume == v && e.2.state != .ended)).map (·.2)

/-- VOL_BLOCKS of a volume, from the attribute record of a create under way (R385). -/
def blocksOf (s : State) (v : Nat) : Nat :=
  match createOf s v with | some c => leAt c.attr 0 8 | none => (volOf s v).blocks

/-- Step 5 (RANGE_OUT). -/
def rangeOut (s : State) (c : HostCmd) : Bool :=
  if c.opcode = opRead || c.opcode = opWrite then decide (blocksOf s c.volume < c.lba + c.count)
  else if c.opcode = opCreate then decide ((policyVal s 10).toNat ≤ c.volume)
  else if c.opcode = opImport then
    decide (s.pool.disc.layers ≤ c.volume) || decide (s.pool.disc.reach.getD c.volume 0 < c.lba + c.count - 1)
  else false

/-- What steps 4 to 8 of Table 11-8 find beyond the states of the units: a status and a RESULT. -/
def laterChecks (s : State) (c : HostCmd) (aux : Option (List Byte)) : Option (Status × Nat) :=
  if c.opcode = opCreate && !(ust s (uVol c.volume) = .absent && (createOf s c.volume).isNone) then some (.invalidField, 2)
  else if rangeOut s c then some (.rangeOut, 0)
  else if c.opcode = opWrite && writesRefused s c.volume then some (.volumeReadOnly, 0)
  else if c.opcode = opWrite && capacityFull s (membersOf (modeOf s c.volume) c) then some (.mediumFull, 0)
  else if (HostCmd.list c || c.opcode == opCreate) && aux.isNone then some (.invalidField, 0x800000FF)
  else if c.opcode = opCreate then
    match aux with | some r => (recordBad s r).map (fun o => (.invalidField, 0x40000000 + o)) | none => none
  else none

/-- Commands that THERM_CRIT holds (R37). -/
def mediaOp (op : Nat) : Bool :=
  op == opRead || op == opWrite || op == opFlush || op == opCreate || op == opClose || op == opImport

/-- The recorded outcome of a replay identity (R400). -/
def replayOf (s : State) (c : HostCmd) : Option ReplayEntry :=
  if HostCmd.replay c then (volOf s c.volume).replay.find? (fun e => e.id == c.replayId) else none

/-- The command in flight under the same identity (R401): the earliest. -/
def originalOf (s : State) (t : Nat) (c : HostCmd) : Option Cmd :=
  if HostCmd.replay c then
    ((cmds s).filter (fun e => e.1 != t && HostCmd.replay e.2.cmd && e.2.cmd.replayId == c.replayId && e.2.cmd.volume == c.volume)).foldl
      (fun (b : Option Cmd) e => match b with | none => some e.2 | some d => if e.2.seq < d.seq then some e.2 else some d) none
  else none

/-- Ends a repeat with a recorded outcome (R400, R401). -/
def endRepeat (t : Nat) (c : Cmd) (seq : Nat) (st : Status) (result : Nat) (rel : Bool) (step : Nat) (s : State) : State :=
  let s := modCmd t (fun c => { c with replayed := true, relocated := rel, step := step }) s
  evt Fld.ORD_EVT_REPLAY_HIT noUnit [⟨1, c.cmd.volume⟩, ⟨8, c.seq⟩, ⟨8, seq⟩] (bump Reg.ORD_CNT 6 (endCmd t st result s))

/-- Makes the range-lock entry of a command that passed its checks or waits at step 4, and counts its waits (R379, R504). -/
def enterWaiting (t : Nat) (g : Gate) (late : Option (Status × Nat)) (s : State) : State :=
  let s := match g with | .suspect _ _ => bump Reg.UNT_CNT 5 s | _ => s
  let s := modCmd t (fun c => { c with gate := g, late := late, lock := lockFor c.cmd }) s
  match cmdOf s t with
  | none => s
  | some c =>
    let s := if !(lockWaits s c).isEmpty || asOfWait s c then bump Reg.ORD_CNT 0 s else s
    if barred s c then bump Reg.ORD_CNT 2 s else s

/-- The request that a unit-path command puts to the sequencer (R355, R364). -/
def reqOfCmd (t seq : Nat) (c : HostCmd) : UnitReq :=
  let kind : ReqKind := if c.opcode = opUnitRequest then .request else if c.opcode = opCalibrate then .calibrate
    else if c.opcode = opSelfTest then .selfTest else if c.opcode = opUnitQuery then .query else .info
  { kind := kind, unit := if c.opcode = opInfo then uVol c.volume else HostCmd.bodyUnit c, code := HostCmd.bodyCode c,
    epoch := HostCmd.bodyEpoch c, sender := .ring t, acceptSeq := seq }

/-- Steps 2 to 8 for a command on its tag. -/
def checkRest (t : Nat) (aux : Option (List Byte)) (s : State) : State :=
  match cmdOf s t with
  | none => s
  | some c =>
    let h := c.cmd
    if h.opcode = opAbort || h.opcode = opNop then enterWaiting t .open none s
    else if unitPath h.opcode then
      { s with unt := { s.unt with waiting := s.unt.waiting ++ [reqOfCmd t c.seq h] } }
    else if h.opcode = opWrite && HostCmd.atomic h && decide (1024 < h.count) then endCmd t .atomicTooLarge 0 s
    else match replayOf s h with
      | some e => endRepeat t c e.seq e.status e.result e.relocated e.step s
      | none => match originalOf s t h with
        | some o =>
          if o.state = .ended then endRepeat t c o.seq o.status o.result o.relocated o.step s
          else modCmd t (fun c => { c with gate := .original o.seq }) s
        | none =>
          let us := if h.opcode = opWrite && writesRefused s h.volume then [uSpindle] else needs h.opcode h.volume
          match gateOn s h.opcode us with
          | none => endCmd t .unitNotReady 0 s
          | some g =>
            let late := laterChecks s h aux
            if g = .open && !discFits s h.opcode h.volume then endCmd t .unitNotReady 0 s
            else match g, late with
              | .open, some (st, r) => if r = 0x800000FF then hostAccess c.fn c.ring (endCmd t st r s) else endCmd t st r s
              | _, _ => enterWaiting t (if g = .open && s.pwr.crit && mediaOp h.opcode then .thermal else g) late s

/-- The lowest tag that a table of commands leaves free. -/
def firstFree : Nat → Tbl (Option Cmd) → Nat
  | n, [] => n
  | n, (k, _) :: m => if k = n then firstFree (n + 1) m else n

/-- The command of an entry as it stands on its tag; its host segments come from its list, or from DATA_ADDR. -/
def newCmd (remote : Bool) (f ring slot seq : Nat) (b : List Byte) (aux : Option (List Byte)) : Cmd :=
  let h := HostCmd.ofBytes b
  { fn := f, ring := ring, slot := slot, seq := seq, cmd := h, remote := remote, attr := if h.opcode = opCreate then slice (aux.getD []) 0 32 else [],
    segs := if HostCmd.list h then listSegs h (aux.getD []) else [(h.dataAddr, dataLen h)] }

/-- The RESULT of step 1: a field of the command, or a data list that was read and breaks R357. -/
def fieldResult (s : State) (f : Nat) (b : List Byte) (aux : Option (List Byte)) : Option Nat :=
  match fieldCheck s f b with
  | some o => some o
  | none =>
    let h := HostCmd.ofBytes b
    if HostCmd.list h then (match aux with | some l => listBad h l | none => none) else none

/-- Accepts a command at the owner: the next acceptance number, a tag, the journal entry (R372, R532), and the checks.
one is the RESULT of a failed step 1. -/
def acceptAs (remote : Bool) (f ring slot : Nat) (one : Option Nat) (b : List Byte) (aux : Option (List Byte)) (s : State) : State :=
  let seq := get64 s Reg.HQ_SEQ_LO + 1
  let t := firstFree 0 s.host.cmds
  let s := bump Reg.HQ_CNT 0 (set64 Reg.HQ_SEQ_LO seq s)
  let s := if remote then bump Reg.PRL_CNT 3 s else s
  let s := putCmd t (some (newCmd remote f ring slot seq b aux)) s
  let s := if mirroring s then
      mirror (.journal seq) (emit (.jokor 0x01 ([seq, if remote then 1 else 0, f, ring, slot] ++ b.map (·.toNat))) s) else s
  let s := if 8192 ≤ (cmds s).length then evt Fld.HQ_EVT_TAGS_FULL noUnit [] s else s
  match one with
  | some r => endCmd t .invalidField r s
  | none => checkRest t aux s

/-- Forwards a command granted at the non-owner: it holds a tag here until its outcome comes back (R530). -/
def forwardCmd (f ring slot : Nat) (one : Option Nat) (b : List Byte) (aux : Option (List Byte)) (s : State) : State :=
  let t := firstFree 0 s.host.cmds
  let c := newCmd false f ring slot 0 b aux
  let held : Option (Status × Nat) := match one with
    | some o => some (.invalidField, o)
    | none => if (HostCmd.list c.cmd || c.cmd.opcode == opCreate) && aux.isNone then some (.invalidField, 0x800000FF) else none
  let s := putCmd t (some { c with forwarded := true, state := .away, late := held }) s
  let s := { s with pair := { s.pair with fwd := s.pair.fwd ++ [t] } }
  let s := if c.cmd.opcode = opWrite && one.isNone then forEach (fun (g : Nat × Nat) s => emit (.hostRead f g.1 g.2) s) c.segs s else s
  emit (.jokor 0x20 ([f, ring, slot, match one with | some o => o + 1 | none => 0] ++ b.map (·.toNat) ++ (aux.getD []).map (·.toNat)))
    (bump Reg.PRL_CNT 2 s)

/-- The fetch of the chosen ring's next command, and its acceptance. b is what the read of the 64-byte entry returned, aux
that of the data list or attribute record that the command names; none is an unsuccessful completion. -/
def fetchEff (r : Nat) (b aux : Option (List Byte)) (s : State) : State :=
  match ctxOf s r with
  | none => s
  | some c =>
    let slot := c.fetchHead
    if (cmds s).any (fun e => e.2.ring == r && e.2.slot == slot && !e.2.remote) then haltRing r 6 s
    else
      let s := emit (.hostRead c.fn (c.cmdBase + 64 * slot) 64) s
      match b with
      | none => haltRing r 7 (hostAccess c.fn r s)
      | some b =>
        let n := entries c
        let s := touch r (modCtx r (fun c => { c with fetchHead := (slot + 1) % n, wrapped := c.wrapped || (slot + 1) % n == 0 }) s)
        let h := HostCmd.ofBytes b
        let s := if HostCmd.list h then emit (.hostRead c.fn h.dataAddr (16 * h.listCount)) s
          else if h.opcode = opCreate then emit (.hostRead c.fn h.dataAddr 32) s else s
        let one := fieldResult s c.fn b aux
        if isOwner s then acceptAs false c.fn r slot one b aux s else forwardCmd c.fn r slot one b aux s

/-- GRANT: the arbiter grants an eligible ring and accepts its next command (R371, R372). -/
def grantEff (b aux : Option (List Byte)) (s : State) : State :=
  if !fetching s || !pairAllows s then s
  else
    let es := (ctxs s).filter (fun e => eligible s e.1 e.2)
    if es.isEmpty then s
    else if 8192 ≤ (cmds s).length then evt Fld.HQ_EVT_TAGS_FULL noUnit [] s
    else
      let (r, s) := arbitrateRings es s
      fetchEff r b aux s

/-- Inserts a command into a list in acceptance order. -/
def insSeq (e : Nat × Cmd) : List (Nat × Cmd) → List (Nat × Cmd)
  | [] => [e]
  | f :: fs => if e.2.seq ≤ f.2.seq then e :: f :: fs else f :: insSeq e fs

/-- Commands in acceptance order. -/
def bySeq : List (Nat × Cmd) → List (Nat × Cmd)
  | [] => []
  | e :: es => insSeq e (bySeq es)

/-- Ends the hold of THERM_CRIT, in acceptance order (R37): each command takes step 4 again. -/
def releaseThermal (s : State) : State :=
  let held := (cmds s).filter (fun e => e.2.gate == .thermal && e.2.state != .ended)
  forEach (fun e s => match gateFor s e.2.cmd.opcode e.2.cmd.volume with
    | none => endCmd e.1 .unitNotReady 0 s
    | some g => setGate4 e.1 g s) (bySeq held) s

end Sys2Proof.Machine
end

