-- ==== Sys2Proof/Machine/Mount.lean ====
section
/-! DEFINITION. The mount of a disc (R107, R111, R114, R115) and import mode (R188 to R192). -/

namespace Sys2Proof.Machine

/-- Changes the disc record. -/
def modDisc (f : DiscState → DiscState) (s : State) : State :=
  { s with media := { s.media with disc := f s.media.disc } }

/-- A cartridge sensor is active, given its level and its record (Table 02-8). -/
def cartActive (s : State) (p : PinRec) : Bool := (s.pwr.cartSns.getD (p.group - 0x10) false) != bit p.attr 0

/-- The cartridge-sensor records of the running image with a function. -/
def cartRecs (s : State) (fs : List Nat) : List PinRec :=
  match s.img.running with
  | some i => i.bind.pins.filter (fun p => decide (0x10 ≤ p.group) && decide (p.group ≤ 0x13) && fs.contains p.function)
  | none => []

/-- The disc is sensed present (Table 17-7): DISC_PRESENT, and every bound cartridge sensor of function 1 or 3. -/
def discSensed (s : State) : Bool := s.pwr.discActive && (cartRecs s [1, 3]).all (cartActive s)

/-! ### Starting -/

/-- MOUNT_START: with the disc present and the spindle READY the disc and its sides enter STARTING, and chevron fields are
looked for (Table 03-12, step 1). -/
def mountStartEff (s : State) : State :=
  let d := ust s uDisc
  if isOwner s && !s.img.heldBack && discSensed s && (ust s uSpindle).serves && (d = .offline || d = .starting) &&
      s.media.disc.step = .none && !s.media.disc.mounted then
    let s := change uDisc .starting .mount s
    let s := forEach (fun k s => if ust s (uSide k) = .offline then change (uSide k) .starting .mount s else s) [0, 1] s
    modDisc (fun d => { d with step := .s1 }) s
  else s

/-- The mount or the identification fails: disc and sides OFFLINE, and a DISC_FORMAT event. -/
def mountFailed (s : State) : State :=
  let s := modDisc (fun _ => {}) s
  let s := change uDisc .offline .mount s
  let s := forEach (fun k s => if ust s (uSide k) = .starting then change (uSide k) .offline .mount s else s) [0, 1] s
  evt Fld.UNT_EVT_DISC_FORMAT uDisc [] s

/-- The disc unit becomes READY, and its sides with it (Table 17-2). -/
def discReady (s : State) : State :=
  let s := change uDisc .ready .mount s
  forEach (fun k s => if ust s (uSide k) = .starting then change (uSide k) .ready .mount s else s) [0, 1] s

/-! ### Records -/

/-- A DIZ record that passes: MAGIC, DIZ_CRC, FORMAT, DISC_TYPE and SEG_BITS against R86 (Table 03-7). -/
def dizOk (b : List Byte) : Bool :=
  leAt b 0 4 == 0x49444156 && leAt b 4092 4 == crc32c (slice b 0 4092) && leAt b 4 2 == 1 && leAt b 6 2 == 0x3200 &&
    (List.range 64).all (fun z => leAt b (160 + 4 * z) 4 == segBits z)

/-- An entry of a knot or a page (Table 03-9). -/
def parseEntry (b : List Byte) (gen seq : Nat) : MapEntry :=
  let fl := leAt b 7 1
  { lba := leAt b 0 5, count := leAt b 5 1, firstDi := leAt b 6 1, hank := bit fl 0, cont := bit fl 1, skein := leAt b 8 4,
    place := (List.range 4).map (fun c => leAt b (12 + 4 * c) 4), offset := leAt b 28 2, generation := gen, knotSeq := seq,
    blocks := if bit fl 0 then 16 else leAt b 5 1 }

/-- A record whose CRC, taken with the field at offset o as 0, holds. -/
def crcOk (b : List Byte) (o : Nat) : Bool := leAt b o 4 == crc32c (patch b o (leBytes 4 0))

/-- A knot from its record; none where the CRC or MAGIC fails (R107). -/
def parseKnot (r : KnotRead) : Option Knot :=
  let b := r.record
  if crcOk b 60 && leAt b 0 4 == 0x544F4E4B then
    let fl := leAt b 5 1
    let seq := leAt b 8 8
    let gen := leAt b 16 8
    some { vol := leAt b 4 1, create := bit fl 0, atomic := bit fl 1, reloc := bit fl 2, close := bit fl 3, seq := seq,
           generation := gen, prevPlace := (List.range 4).map (fun c => leAt b (24 + 4 * c) 4), prevPair := leAt b 7 1,
           prevCheck := leAt b 40 4,
           entries := if bit fl 0 then [] else (List.range (leAt b 6 1)).map (fun i => parseEntry (slice b (64 + 32 * i) 32) gen seq),
           attr := slice b 64 32 }
  else none

/-- An anchor copy that counts: MAGIC, ANCHOR_CRC and its number (Table 03-11). -/
def anchorOk (a : Nat) (b : List Byte) : Bool :=
  leAt b 0 4 == 0x52434E41 && leAt b 4092 4 == crc32c (slice b 0 4092) && leAt b 8 8 == a

/-- The newest anchor that decodes, from number a down, either copy. -/
def pickAnchor : Nat → List (Option (List Byte) × Option (List Byte)) → Option (List Byte)
  | _, [] => none
  | a, (x, y) :: cs =>
    match x.filter (anchorOk a), y.filter (anchorOk a) with
    | some b, _ => some b
    | none, some b => some b
    | none, none => if a ≤ 1 then none else pickAnchor (a - 1) cs

/-! ### Steps 3 to 6 -/

/-- The volumes of an anchor: their newest knot and checkpoint; the map comes from step 4 on. -/
def anchorVols (b : List Byte) (s : State) : State :=
  forEach (fun v s =>
    let o := 64 + 48 * v
    let seq := leAt b (o + 24) 8
    if seq = 0 then s
    else
      let s := modVol v (fun x => { replay := x.replay, ckptPlace := (List.range 4).map (fun c => leAt b (o + 32 + 4 * c) 4), ckptDi := leAt b (o + 17) 1,
                                    lastCheck := 0x100000000 }) s
      change (uVol v) .starting .mount s) (List.range 64) s

/-- Step 3: the anchor gives NEXT_SKEIN, the frontiers and the volumes; without one the disc is blank. -/
def anchorStep (written : Nat) (copies : List (Option (List Byte) × Option (List Byte))) (s : State) : State :=
  match pickAnchor written copies with
  | none => modDisc (fun d => { d with step := .s4, anchorSeq := written }) s
  | some b =>
    let s := modDisc (fun d => { d with
      step := .s4, anchorSeq := written, nextSkein := leAt b 16 4,
      anchorKnots := (List.range 64).map (fun v => leAt b (64 + 48 * v + 24) 8) }) s
    anchorVols b s

/-- Adds entries to a volume's map that it does not hold yet. -/
def addEntries (es : List MapEntry) (x : Volume) : Volume :=
  { x with map := x.map ++ es.filter (fun e => !x.map.any (fun f => f.lba == e.lba && f.skein == e.skein && f.firstDi == e.firstDi && f.cont == e.cont)) }

/-- Loads a checkpoint page (Table 03-10): an entry's KNOT_SEQ is not on the page, and those of one page keep its order. -/
def loadPage (b : List Byte) (s : State) : State :=
  let last := leAt b 24 8
  let es := (List.range (leAt b 5 1)).map (fun i =>
    parseEntry (slice b (64 + 40 * i) 32) (leAt b (64 + 40 * i + 32) 8) last)
  modVol (leAt b 4 1) (fun x =>
    let x := addEntries es x
    { x with ckptSeq := max x.ckptSeq (leAt b 8 8), ckptKnot := max x.ckptKnot last, knotSeq := max x.knotSeq last,
             highGen := es.foldl (fun m e => max m e.generation) x.highGen }) s

/-- Rebuilds a page that cannot be read from the knots it covers (R111). -/
def rebuildPage (ks : List KnotRead) (s : State) : State :=
  forEach (fun r s => match parseKnot r with
    | some k => modVol k.vol (fun x =>
        let x := addEntries k.entries x
        { x with ckptKnot := max x.ckptKnot k.seq, knotSeq := max x.knotSeq k.seq, highGen := max x.highGen k.generation }) s
    | none => s) ks s

/-- A page, or what stands in for it. -/
def pageStep (p : Option (List Byte) × List KnotRead) (s : State) : State :=
  match p.1 with
  | some b => if leAt b 0 4 = 0x4350414D && crcOk b 60 then loadPage b s else rebuildPage p.2 s
  | none => rebuildPage p.2 s

/-- The attributes of a CREATE knot (R105). -/
def takeAttr (a : List Byte) (x : Volume) : Volume :=
  { x with present := true, blocks := leAt a 0 8, compMode := leAt a 8 1, compLevel := leAt a 9 1, label := slice a 16 16 }

/-- The records of CREATE knots and of the last checkpointed knots: attributes, and where the chain goes on from. -/
def recordStep (r : KnotRead) (s : State) : State :=
  match parseKnot r with
  | none => s
  | some k =>
    let s := if k.create && k.seq = 1 && k.prevCheck = 0 then
        modVol k.vol (fun x => { takeAttr k.attr x with highGen := max x.highGen 1, knotSeq := max x.knotSeq 1 }) s else s
    if (volOf s k.vol).knotSeq = k.seq then
      modVol k.vol (fun x => { x with
        lastCheck := crc32c r.record, lastPlace := r.place, lastPair := r.pair, closed := x.closed || k.close,
        readOnly := x.readOnly || k.close }) s
    else s

/-- valid(n) of R107 for the next knot of a volume's chain. -/
def knotValid (x : Volume) (k : Knot) : Bool :=
  if x.knotSeq = 0 then k.seq == 1 && k.create && k.prevCheck == 0 else k.seq == x.knotSeq + 1 && k.prevCheck == x.lastCheck

/-- Applies the knots of a volume in KNOT_SEQ order, for as long as the chain is valid; n bounds the walk. -/
def walkChain (v : Nat) (ks : List (KnotRead × Knot)) : Nat → State → State
  | 0, s => s
  | n + 1, s =>
    match ks.find? (fun e => knotValid (volOf s v) e.2) with
    | none => s
    | some (r, k) =>
      walkChain v ks n (modVol v (fun x =>
        let x := if k.create then takeAttr k.attr x else x
        { x with map := x.map ++ k.entries, highGen := max x.highGen k.generation, knotSeq := k.seq, lastCheck := crc32c r.record,
                 lastPlace := r.place, lastPair := r.pair, closed := x.closed || k.close, readOnly := x.readOnly || k.close }) s)

/-- CHAIN_VALIDATE of a volume (R107, R115): the chain ends at the first knot that is missing or not valid while a higher one
is known. -/
def validateVol (reads : List (KnotRead × Knot)) (v : Nat) (s : State) : State :=
  let ks := reads.filter (fun e => e.2.vol == v)
  let known := ks.foldl (fun m e => max m e.2.seq) (s.media.disc.anchorKnots.getD v 0)
  if known = 0 then s
  else
    let s := if ust s (uVol v) = .absent || ust s (uVol v) = .offline then change (uVol v) .starting .mount s else s
    let s := walkChain v ks ks.length s
    let x := volOf s v
    if x.knotSeq < known then
      let s := modVol v (fun x => { x with chainEnded := true, readOnly := true }) s
      evt Fld.UNT_EVT_VOLUME_CHAIN (uVol v) [⟨1, v⟩, ⟨8, x.knotSeq + 1⟩] s
    else s

/-- MOUNT_STEP_DONE: the step under way takes what its reads returned, and the next step begins. Data of another step is
not its. -/
def mountStepEff (d : MountData) (s : State) : State :=
  match s.media.disc.step, d with
  | .s1, .chevrons true => modDisc (fun d => { d with step := .s2 }) s
  | .s1, .chevrons false => modDisc (fun d => { d with step := .identify }) s
  | .s2, .diz a b =>
    match a, b with
    | some x, some y =>
      if dizOk x && dizOk y && slice x 8 16 = slice y 8 16 then
        let s := modDisc (fun d => { d with
          step := .s3, serial := slice x 8 16, segBits := (List.range 64).map (fun z => leAt x (160 + 4 * z) 4),
          writeNominal := (List.range 64).map (fun z => leAt x (32 + 2 * z) 2), spare := spareReserve }) s
        discReady s
      else mountFailed s
    | _, _ => mountFailed s
  | .s3, .anchors w cs => anchorStep w cs s
  | .s4, .pages ps rs => modDisc (fun d => { d with step := .s5 }) (forEach recordStep rs (forEach pageStep ps s))
  | .s5, .scan fs ks hi =>
    modDisc (fun d => { d with step := .s6, frontierFound := fs, pendingKnots := ks,
                               nextSkein := match hi with | some n => max d.nextSkein (n + 1) | none => d.nextSkein }) s
  | .s6, .chain =>
    let reads := s.media.disc.pendingKnots.filterMap (fun r => (parseKnot r).map (fun k => (r, k)))
    let s := forEach (validateVol reads) (List.range 64) s
    modDisc (fun d => { d with step := .s7, pendingKnots := [] }) s
  | _, _ => s

/-- A volume's state at the end of the mount: derived where its CREATE knot is valid, ABSENT otherwise. -/
def mountVol (v : Nat) (s : State) : State :=
  if ust s (uVol v) ≠ .starting then s
  else if (volOf s v).present then
    change (uVol v) (derivedVol s) .mount (modVol v (fun x => { x with mountGen := x.highGen, cuts := [], lost := false }) s)
  else change (uVol v) .absent .mount (modVol v (fun _ => {}) s)

/-- MOUNT_COMPLETE: frontiers at the first unwritten blocks, and the volumes READY or DEGRADED (Table 03-12, step 7). The
first pass of every carriage follows a pre-read. -/
def mountCompleteEff (s : State) : State :=
  if s.media.disc.step ≠ .s7 then s
  else
    let fs := s.media.disc.frontierFound
    let s := forEach (fun c s => modWcar c (fun w => { w with frontier := fs.getD c 0, lastEnd := none, preRead := none }) s) allCars s
    let s := modDisc (fun d => { d with step := .none, mounted := true, anchorKnots := [], frontierFound := [0, 0, 0, 0] }) s
    forEach mountVol (List.range 64) s

/-- A disc that is no longer mounted: its volumes' records and the relocation queue go, held data stays (R29, R399). -/
def unmount (s : State) : State :=
  let s := modDisc (fun _ => {}) s
  { s with media := { s.media with vols := [], relocs := [] } }

/-! ### Import (R188 to R192) -/

/-- IMPORT_IDENTIFY: the type, the layers and the highest readable PSN of each layer; none where the disc is not
identified. -/
def importIdentifyEff (found : Option (Nat × List Nat)) (s : State) : State :=
  if s.media.disc.step ≠ .identify then s
  else match found with
    | none => mountFailed s
    | some (typ, reach) =>
      let n := min 4 reach.length
      let s := modDisc (fun d => { d with step := .none, importMode := true }) s
      let s := { s with pool := { s.pool with disc := { active := true, typ := typ, layers := n, reach := reach.take 4 } },
                        chn := { s.chn with importMode := true } }
      let s := setF Fld.DEC_IMP_STATUS_LAYERS n (setF Fld.DEC_IMP_STATUS_TYPE typ (setF Fld.DEC_IMP_STATUS_ACTIVE 1 s))
      let s := forEach (fun i s => setReg (Reg.DEC_IMP_REACH + 4 * i) (BitVec.ofNat 32 (reach.getD i 0)) s) [0, 1, 2, 3] s
      discReady (evt Fld.DEC_EVT_IMPORT_ID uDisc [⟨1, typ⟩, ⟨1, n⟩] s)

/-- The spindle speed of an import read (R190). -/
def importSpeedEff (layer psn : Nat) (s : State) : State :=
  match s.img.running with
  | none => s
  | some i =>
    let n := max i.motors.spinMin (min i.motors.spinMax (Config.importSpeed layer psn (getF s Fld.DEC_IMP_CFG_IMP_SPEED_MAX)))
    let s := setF Fld.DEC_IMP_STATUS_SPEED (Config.importFactor layer psn n) s
    arbitrate (modSpn (fun p => { p with rateReq := n }) s)

/-- The running IMPORT_READs that want a sector of a cluster, each with its tag. -/
def clusterReaders (s : State) (layer cluster : Nat) : List (Nat × Cmd) :=
  (cmds s).filter (fun e => e.2.cmd.opcode == opImport && e.2.state == .running && e.2.cmd.volume == layer &&
    decide (e.2.cmd.lba < 32 * (cluster + 1)) && decide (32 * cluster < e.2.cmd.lba + e.2.cmd.count))

/-- The sector numbers of a command that lie in a cluster, as indices from LBA. -/
def clusterPart (c : HostCmd) (cluster : Nat) : List Nat :=
  (List.range 32).filterMap (fun i =>
    let psn := 32 * cluster + i
    if c.lba ≤ psn && psn < c.lba + c.count then some (psn - c.lba) else none)

/-- Fails the sectors of a cluster for the commands that want them. -/
def clusterFail (layer cluster : Nat) (s : State) : State :=
  let s := forEach (fun e s => modCmd e.1 (fun c => { c with fails := c.fails ++ (clusterPart c.cmd cluster).map (fun i => (i, Status.mediumUnrecovered)) }) s)
    (clusterReaders s layer cluster) s
  evt Fld.DEC_EVT_IMPORT_FAIL uDisc [⟨1, layer⟩, ⟨4, 32 * cluster⟩] s

/-- IMPORT_CLUSTER_DECODE: a cluster is decoded, read again, or failed (R191). -/
def importClusterEff (layer cluster : Nat) (res : ClusterResult) (s : State) : State :=
  if !s.media.disc.importMode || (clusterReaders s layer cluster).isEmpty then s
  else
    let old := s.pool.disc.tries
    let n := match old.find? (fun t => t.1 == layer && t.2.1 == cluster) with | some t => t.2.2 | none => 0
    let rest := old.filter (fun t => !(t.1 == layer && t.2.1 == cluster))
    let put (ts : List (Nat × Nat × Nat)) (s : State) : State := { s with pool := { s.pool with disc := { s.pool.disc with tries := ts } } }
    match res with
    | .good secs =>
      put rest (forEach (fun e s => modCmd e.1 (fun c => { c with
        got := (clusterPart c.cmd cluster).foldl (fun g i => Tbl.put [] i (slice (secs.getD (c.cmd.lba + i - 32 * cluster) []) 0 2048) g) c.got
        step := if 0 < n then max c.step 3 else c.step }) s) (clusterReaders s layer cluster) s)
    | .blank => put rest (clusterFail layer cluster s)
    | .uncorrectable =>
      if n < getF s Fld.DEC_IMP_CFG_IMP_RETRIES then put (rest ++ [(layer, cluster, n + 1)]) s else put rest (clusterFail layer cluster s)

/-- IMPORT_READ: a running one starts its reads at the speed of R190, and ends once every sector is known (R191, R363). -/
def importReadEff (t : Nat) (s : State) : State :=
  match cmdOf s t with
  | none => s
  | some c =>
    if c.cmd.opcode ≠ opImport || c.state ≠ .running || c.gate ≠ .open then s
    else if !c.reading then
      importSpeedEff c.cmd.volume (c.cmd.lba + c.cmd.count - 1) (modCmd t (fun c => { c with reading := true }) s)
    else
      let known (i : Nat) : Bool := (Tbl.get [] i c.got ≠ []) || c.fails.any (fun f => f.1 == i)
      if !(List.range c.cmd.count).all known then s
      else match (List.range c.cmd.count).find? (fun i => c.fails.any (fun f => f.1 == i)) with
        | some i => endCmd t .mediumUnrecovered i s
        | none =>
          let s := sendData t c ((List.range c.cmd.count).flatMap (fun i => Tbl.get [] i c.got)) s
          endCmd t (if c.step = 3 then .successRecovered else .success) 0 s

end Sys2Proof.Machine
end

