-- ==== Sys2Proof/Machine/Mram.lean ====
section
/-! DEFINITION. The MRAM record store (R446 to R450): record writes in two slots, the lifetime counters, and what is read
from the records. -/

namespace Sys2Proof.Machine

/-- The place of a record in the store. -/
def recKey (typ index : Nat) : Nat := typ * 65536 + index

/-- A record of the store. -/
def mramRec (s : State) (typ index : Nat) : MramRec := Tbl.get {} (recKey typ index) s.mram.recs

/-- Writes one slot of a record. -/
def putSlot (typ index : Nat) (slotB : Bool) (x : Option MramSlot) (s : State) : State :=
  let r := mramRec s typ index
  let r := if slotB then { r with b := x } else { r with a := x }
  { s with mram := { s.mram with recs := Tbl.put {} (recKey typ index) r s.mram.recs } }

/-- A record write is asked for; writes are performed one at a time, in the order requested (R448). -/
def askMram (typ index : Nat) (payload : List Byte) (s : State) : State :=
  { s with mram := { s.mram with queue := s.mram.queue ++ [{ typ := typ, index := index, payload := payload }] } }

/-- The slot to be written: one that is invalid, or else the one with the lower GENERATION (R448, step 1). -/
def olderSlot (r : MramRec) : Bool :=
  match r.a, r.b with
  | none, _ => false
  | some _, none => true
  | some a, some b => decide (b.generation < a.generation)

/-- GENERATION one greater than the other slot's, or 1 (R448, step 2). -/
def nextGeneration (r : MramRec) (slotB : Bool) : Nat :=
  match (if slotB then r.a else r.b) with
  | some o => o.generation + 1
  | none => 1

/-- MRAM_RECORD_WRITE: the oldest write asked for begins, if none is under way. -/
def mramWriteEff (s : State) : State :=
  match s.mram.queue with
  | [] => s
  | w :: ws =>
    if 0 < w.tries then s
    else
      let b := olderSlot (mramRec s w.typ w.index)
      { s with mram := { s.mram with queue := { w with slotB := b, tries := 1 } :: ws } }

/-- MRAM_WRITE_DONE: the slot is read back and compared. A failed comparison causes one more attempt on the same slot; a
second one leaves the slot invalid, so that the record keeps its previous content (R448). -/
def mramDoneEff (same : Bool) (s : State) : State :=
  match s.mram.queue with
  | [] => s
  | w :: ws =>
    if w.tries = 0 then s
    else
      let pop (s : State) : State := { s with mram := { s.mram with queue := ws } }
      if same then
        let g := nextGeneration (mramRec s w.typ w.index) w.slotB
        pop (putSlot w.typ w.index w.slotB (some { generation := g, payload := w.payload }) s)
      else
        let s := putSlot w.typ w.index w.slotB none s
        if w.tries < 2 then { s with mram := { s.mram with queue := { w with tries := 2 } :: ws } }
        else evt Fld.INT_EVT_MRAM_WRITE_FAIL noUnit [⟨2, w.typ⟩, ⟨2, w.index⟩] (pop s)

/-- Slots of a record that are not valid. -/
def badSlots (r : MramRec) : Nat := (if r.a.isNone then 1 else 0) + (if r.b.isNone then 1 else 0)

/-- Reads a record for its user: an absent one sets MRAM_INVALID, and INT_CNT[7] counts its invalid slots (R447). -/
def readRec (typ index : Nat) (s : State) : State :=
  let n := badSlots (mramRec s typ index)
  if n = 2 then evt Fld.INT_EVT_MRAM_INVALID noUnit [⟨2, typ⟩, ⟨2, index⟩] (bumpBy (Reg.INT_CNT + 28) n s) else s

/-! ### Lifetime counters -/

/-- The CNT arrays in register-map order: offset, instances with their stride, and words. -/
def cntArrays : List (Nat × Nat × Nat × Nat) :=
  [(Reg.HQ_CNT, 0, 1, 8), (Reg.ORD_CNT, 0, 1, 8), (Reg.CHN_CNT, 0x200, 32, 8), (Reg.DEC_CNT, 0, 1, 16), (Reg.SKN_CNT, 0, 1, 8),
   (Reg.WRP_CNT, 0, 1, 12), (Reg.HNK_CNT, 0, 1, 8), (Reg.LPE_CNT, 0x80, 32, 3), (Reg.SPN_CNT, 0, 1, 8), (Reg.CRG_CNT, 0x200, 4, 16),
   (Reg.BC_CNT, 0, 1, 8), (Reg.BM_CNT, 0, 1, 8), (Reg.INT_CNT, 0, 1, 8), (Reg.CAL_CNT, 0, 1, 8), (Reg.UNT_CNT, 0, 1, 8),
   (Reg.MGT_CNT, 0, 1, 8), (Reg.PRL_CNT, 0, 1, 8)]

/-- The offset of every CNT register, in register-map order. -/
def cntRegs : List Nat :=
  cntArrays.flatMap (fun e => (List.range e.2.2.1).flatMap (fun i => (List.range e.2.2.2).map (fun k => e.1 + e.2.1 * i + 4 * k)))

/-- The counts of a register since the last save: those cleared by reads since then, and what it holds beyond its value at
the save. -/
def accrued (s : State) (off : Nat) : Nat :=
  Tbl.get 0 off s.mram.carry + ((getReg s off).toNat - Tbl.get 0 off s.mram.base)

/-- Keeps what a count had accrued when it is about to be cleared. -/
def carryCount (off : Nat) (s : State) : State :=
  { s with mram := { s.mram with carry := Tbl.put 0 off (accrued s off) s.mram.carry, base := Tbl.put 0 off 0 s.mram.base } }

/-- Whether a register is a word of a CNT array. -/
def isCnt (off : Nat) : Bool := cntRegs.contains off

/-- The counters record: the lifetime totals of the record before it, each increased by the counts accrued since (R446). -/
def counterBytes (s : State) : List Byte :=
  let old := (mramPayload s 0x20 0).getD []
  (cntRegs.zip (List.range cntRegs.length)).flatMap (fun e => leBytes 4 (min 0xFFFFFFFF (leAt old (4 * e.2) 4 + accrued s e.1)))

/-- Asks for a save of the counters record, and counts anew from here. -/
def saveCounters (s : State) : State :=
  let s' := askMram 0x20 0 (counterBytes s) s
  { s' with mram := { s'.mram with carry := [], base := cntRegs.foldl (fun m o => Tbl.put 0 o (getReg s o).toNat m) [] } }

/-- COUNTERS_SAVE_HOURLY: the hourly save in S7 (R450). -/
def countersHourlyEff (s : State) : State := if stage s = 7 && !halted s then saveCounters s else s

/-! ### Zone records -/

/-- The block of a zone: from the MRAM record that carries the image's ZONES_SET_ID, otherwise from the image, otherwise
from the ROM base image (R54, R137). -/
def zoneFor (s : State) (lf zone : Nat) : ZoneBlock :=
  match s.img.running with
  | none => { src := .rom, bytes := Config.romSeed lf zone }
  | some i =>
    let r := (mramPayload s 0x10 (64 * lf + zone)).getD []
    if 536 ≤ r.length && leAt r 0 4 = i.zonesSetId then { src := .mram, bytes := slice r 8 528 }
    else match i.zones.find? (fun z => z.lf == lf && z.zone == zone) with
      | some z => { src := .image, bytes := z.seed }
      | none => { src := .rom, bytes := Config.romSeed lf zone }

/-- Loads one block of the zone table. -/
def loadZone (lf zone : Nat) (s : State) : State :=
  { s with chn := { s.chn with zoneTable := Tbl.put {} (zoneKey lf zone) (zoneFor s lf zone) s.chn.zoneTable } }

/-- Builds the zone table of 2,048 blocks (R137). -/
def buildZones (s : State) : State :=
  forEach (fun k s => loadZone (k / 64) (k % 64) (readRec 0x10 k s)) (List.range 2048) s

end Sys2Proof.Machine
end

