-- ==== Sys2Proof/Machine/Memory.lean ====
section
/-! DEFINITION. Buffer memory (R428 to R445): its address mapping, parity errors by their class, refresh, the operating
point and the roving scrubber. -/

namespace Sys2Proof.Machine

/-- Changes the record of buffer memory. -/
def modMem (f : MemState → MemState) (s : State) : State := { s with mem := f s.mem }

/-- The capacity in GiB (BM_ORG). -/
def memGiB (s : State) : Nat := bits (getReg s Reg.BM_ORG).toNat 16 8

/-- The lines of buffer memory (R444). -/
def memLines (s : State) : Nat := memGiB s * 16777216

/-- The channel bit of a line address (Table 14-2). -/
def channelBit (s : State) : Nat := if getF s Fld.BM_ORG_MAP_ORDER = 0 then 0 else 2

/-- The channel of a line. -/
def channelOf (s : State) (line : Nat) : Nat := bits line (channelBit s) 1

/-- The twin of a line (R431). -/
def twinOf (s : State) (line : Nat) : Nat := line ^^^ (2 ^ channelBit s)

/-- The 64 bytes of a line of buffer memory; a byte that nothing has written reads as 0. -/
def memLine (s : State) (line : Nat) : List Byte := (List.range 64).map (fun i => Tbl.get 0 (64 * line + i) s.mem.bytes)

/-- Writes bytes of buffer memory from a byte address on. -/
def putBytes (addr : Nat) : List Byte → Tbl Byte → Tbl Byte
  | [], m => m
  | b :: bs, m => putBytes (addr + 1) bs (Tbl.put 0 addr b m)

/-- Writes a line of buffer memory (BM_CNT[1]). -/
def memPut (line : Nat) (data : List Byte) (s : State) : State :=
  bump Reg.BM_CNT 1 (modMem (fun m => { m with bytes := putBytes (64 * line) data m.bytes }) s)

/-! ### Fatal outcomes (Table 14-5, last column) -/

/-- Discards a volume's held data from an acceptance number on, with the knots not yet passed that would cover it; the
commands that wait on it end with INTERNAL_PARITY. -/
def discardHeld (vol seq : Nat) (tags : List Nat) (s : State) : State :=
  let lost (h : Held) : Bool := h.vol = vol && decide (seq ≤ h.seq) && decide (h.stage ≠ .applied)
  let ids := (s.media.held.filter lost).map (·.id)
  let seqs := ((s.media.held.filter lost).map (·.seq)).eraseDups
  let hit (e : Nat × Cmd) : Bool :=
    tags.contains e.1 || (e.2.cmd.volume = vol && (match e.2.waitsKnot with | some q => decide (seq ≤ q) | none => false)) ||
      e.2.held.any ids.contains || e.2.snap.any (fun b => match b with | .held i => ids.contains i | _ => false)
  let s := forEach (fun e s => if e.2.state ≠ .ended && hit e then endCmd e.1 .internalParity 0 s else s) (cmds s) s
  let s := forEach dropWrite seqs s
  let s := { s with media := { s.media with
    skeins := s.media.skeins.map (fun k => { k with knots := k.knots.filter (fun n => !(n.vol = vol && decide (seq ≤ n.last))) }) } }
  modVol vol (fun v => { v with lost := true, knotOut := v.knotOut.filter (fun n => decide (n.last < seq)) }) s

/-- Class 1: held data is lost for good (R441). -/
def fatalHeld (vol seq : Nat) (tags : List Nat) (s : State) : State :=
  let s := discardHeld vol seq tags s
  let s := change (uVol vol) .faulted .integrity s
  evt Fld.INT_EVT_DATA_LOST (uVol vol) [⟨1, vol⟩] s

/-- Class 2: the volume becomes STARTING, and its map is rebuilt by the mount steps 4 to 6. -/
def fatalMap (vol : Nat) (s : State) : State :=
  let s := change (uVol vol) .starting .integrity s
  modDisc (fun d => { d with rebuild := addNat vol d.rebuild, step := if d.step = .none then .s4 else d.step }) s

/-- Class 3: the recorded doorbells of 8 rings are lost. -/
def fatalDoorbells (ring : Nat) (s : State) : State :=
  let first := ring / 8 * 8
  let s := { s with host := { s.host with doorbells := (upFrom first 8).foldl (fun m r => Tbl.put {} r {} m) s.host.doorbells } }
  evt Fld.INT_EVT_DB_LOST noUnit [⟨4, first⟩] s

/-- Class 4: the replay entries and the relocations of the line are dropped. -/
def fatalReplay (entries : List (Nat × Nat)) (skeins : List Nat) (s : State) : State :=
  let s := forEach (fun e s => modVol e.1 (fun v => { v with replay := v.replay.filter (fun r => r.id ≠ e.2) }) s) entries s
  { s with media := { s.media with relocs := s.media.relocs.filter (fun r => !skeins.contains r.skein) } }

/-! ### Errors (R441 to R443) -/

/-- The CLASS of a line's content. -/
def LineUse_code : LineUse → Nat
  | .held _ _ _ => 1
  | .map _ => 2
  | .doorbell _ => 3
  | .replay _ _ => 4
  | .zone _ _ => 5
  | .payload _ _ => 6
  | .hostData _ => 7
  | .mirror _ _ _ => 8
  | .staging => 9
  | .way0 _ => 10
  | .unallocated => 11

/-- The items that an error's event names. -/
def errItems (s : State) (addr cls : Nat) : List Item := [⟨1, channelOf s (addr / 64)⟩, ⟨8, addr⟩, ⟨1, cls⟩]

/-- A fatal outcome counts and sets PARITY_FATAL. -/
def parityFatal (addr cls : Nat) (s : State) : State := evt Fld.INT_EVT_PARITY_FATAL noUnit (errItems s addr cls) (bump Reg.INT_CNT 5 s)

/-- Data fetched again. -/
def parityRefetch (addr cls : Nat) (s : State) : State := evt Fld.INT_EVT_PARITY_REFETCH noUnit (errItems s addr cls) (bump Reg.INT_CNT 4 s)

/-- The action of Table 14-5 on a persistent error, with its OUTCOME code; bad says that the twin or the source fails too. -/
def classAction (addr : Nat) (use : LineUse) (bad : Bool) (s : State) : Nat × State :=
  let cls := LineUse_code use
  let repair (s : State) : State := modMem (fun m => { m with repairs := m.repairs ++ [addr] }) s
  match use with
  | .held tags vol seq => if bad then (2, parityFatal addr cls (fatalHeld vol seq tags s)) else (0, repair s)
  | .map vol => if bad then (2, fatalMap vol s) else (0, repair s)
  | .doorbell r => if bad then (2, parityFatal addr cls (fatalDoorbells r s)) else (0, repair s)
  | .replay es ks => if bad then (2, parityFatal addr cls (fatalReplay es ks s)) else (0, repair s)
  | .zone lf z => if bad then (2, parityFatal addr cls (loadZone lf z s)) else (0, repair s)
  | .payload k m =>
    (1, parityRefetch addr cls { s with pool := { s.pool with cached := Tbl.put none (16 * k + m) none s.pool.cached } })
  | .hostData t =>
    if bad then
      match cmdOf s t with
      | some c =>
        let s := if c.state = .ended then s else dropWrite c.seq (endCmd t .invalidField 0x800000FF (hostAccess c.fn c.ring s))
        (2, parityFatal addr cls s)
      | none => (2, parityFatal addr cls s)
    else (1, parityRefetch addr cls s)
  | .mirror c v q =>
    if bad then
      let s := { s with pair := { s.pair with lostLines := s.pair.lostLines ++ [(c, v, q)] } }
      (2, parityFatal addr cls (evt Fld.PRL_EVT_MIRROR_LOST noUnit [⟨8, addr⟩] s))
    else (1, bump Reg.INT_CNT 4 s)
  | .staging =>
    let s := { s with img := { s.img with stagedImage := none } }
    (2, setFlag Fld.IMG_STATUS_STAGED_VALID false s)
  | .way0 slots =>
    if bad then
      let s := evt Fld.BC_EVT_PARITY_FATAL noUnit [⟨8, addr / 64⟩] (bump Reg.BC_CNT 6 s)
      (2, parityFatal addr cls (forEach loopFaultEff slots s))
    else (1, bump Reg.INT_CNT 4 s)
  | .unallocated => (3, memPut (addr / 64) (List.replicate 64 0) s)

/-- The channel of an error counts it over 60 s; the 16th sets the channel FAULTED, and its single lines become unallocated
(R443). -/
def channelError (ch : Nat) (s : State) : State :=
  let now := s.pwr.time
  let s := modMem (fun m => { m with errTimes := (m.errTimes.filter (fun e => decide (now < e.2 + 60000000000))) ++ [(ch, now)] }) s
  let n := (s.mem.errTimes.filter (fun e => e.1 = ch)).length
  let s := setF (Fld.mk (Reg.BM_CH_STATUS + 4 * ch) 15 0) n s
  if 16 ≤ n && ust s (uBuf ch) ≠ .faulted then
    let s := setF (Fld.mk (Reg.BM_CH_STATUS + 4 * ch) 30 30) 1 s
    evt Fld.BM_EVT_CH_FAULT (uBuf ch) [⟨1, ch⟩] (change (uBuf ch) .faulted .integrity s)
  else s

/-- Records the last persistent error (INT_ERR_ADDR, INT_ERR_INFO). -/
def recordError (port addr lanes cls outcome : Nat) (s : State) : State :=
  let s := setReg Reg.INT_ERR_ADDR_HI (BitVec.ofNat 32 (bits addr 32 4)) (setReg Reg.INT_ERR_ADDR_LO (BitVec.ofNat 32 addr) s)
  setReg Reg.INT_ERR_INFO (BitVec.ofNat 32 (cls * 0x10000000 + channelOf s (addr / 64) * 0x8000000 + outcome * 0x1000000 +
    (if port = 5 then 0x800000 else 0) + port * 0x100000 + lanes)) s

/-- After an error found by the scrubber, it reads at once all lines of the aligned 4 MiB block, and resumes at the line
after the one that failed (R445). An error within a burst begins no other one. -/
def beginBurst (line : Nat) (s : State) : State :=
  if 0 < s.mem.burstLeft then s
  else
    let s := modMem (fun m => { m with resume := if line + 1 < memLines s then line + 1 else 0, burstLeft := 65536 }) s
    let s := setReg Reg.INT_SCRUB_POS (BitVec.ofNat 32 (line / 65536 * 65536)) s
    setFlag Fld.INT_STATUS_BURST true s

/-- MEMORY_READ_RETURN: a read of the line at addr by a cache port returns. replays counts the replays of a read that met
an error, and persists says that the second one failed too; lanes are the byte lanes that failed, bad says that the twin or
the source fails. A line of a FAULTED channel is not read (R443). -/
def memReadEff (port addr lanes replays : Nat) (persists : Bool) (use : LineUse) (bad : Bool) (s : State) : State :=
  let line := addr / 64
  let ch := channelOf s line
  if ust s (uBuf ch) = .faulted || memLines s ≤ line then s
  else
    let s := bump Reg.BM_CNT 0 s
    let test := get64 s Reg.INT_TEST_ADDR_LO % 0x1000000000
    let forced := flag s Fld.INT_CTRL_FORCE_PARITY && test / 64 == line
    let s := if forced then setF Fld.INT_CTRL_FORCE_PARITY 0 s else s
    let n := if forced then 2 else min 2 replays
    if n = 0 then s
    else
      let s := bumpBy (Reg.INT_CNT + 4) n (bump Reg.INT_CNT 0 s)
      if !(forced || persists) then bump Reg.INT_CNT 2 s
      else
        let bad' := !forced && (bad || ust s (uBuf (1 - ch)) = .faulted && decide (LineUse_code use ≤ 5))
        let r := classAction addr use bad' s
        let s := recordError port addr (if forced && lanes = 0 then 1 else lanes) (LineUse_code use) r.1 r.2
        let s := if port = 5 then beginBurst line s else s
        channelError ch s

/-- PARITY_REPAIR: the oldest repair reads the bad line again just before it writes. It does nothing where that read is
correct, and is dropped where either line of the pair was written since (R442). -/
def parityRepairEff (rereadOk written : Bool) (s : State) : State :=
  match s.mem.repairs with
  | [] => s
  | addr :: rest =>
    let s := modMem (fun m => { m with repairs := rest }) s
    if written then
      if get64 s Reg.INT_ERR_ADDR_LO = addr then setF Fld.INT_ERR_INFO_OUTCOME 4 s else s
    else if rereadOk then s
    else
      let line := addr / 64
      let s := memPut line (memLine s (twinOf s line)) s
      let cls := if get64 s Reg.INT_ERR_ADDR_LO = addr then getF s Fld.INT_ERR_INFO_CLASS else 0
      evt Fld.INT_EVT_PARITY_REPAIRED noUnit (errItems s addr cls) (bump Reg.INT_CNT 3 s)

/-! ### Refresh (R435) and the operating point (R436 to R438) -/

/-- The refreshes owed. -/
def refOwed : Fld := ⟨Reg.BM_REFRESH, 2, 0⟩
/-- The present tREFI in ns. -/
def refInterval : Fld := ⟨Reg.BM_REFRESH, 31, 16⟩

/-- REFRESH_DUE: postponed while a request of urgency 3 waits for the rank, forced at 4 owed; the owed ones are repaid when
no request of urgency 2 or 3 waits. During a point change the devices are in self-refresh. -/
def refreshDueEff (urgent idle : Bool) (s : State) : State :=
  if stage s < 5 || getF s Fld.BM_STATUS_STATE = 2 then s
  else
    let owed := getF s refOwed
    if urgent then
      let s := bump Reg.BM_CNT 5 s
      if owed + 1 < 4 then setF refOwed (owed + 1) s
      else evt Fld.BM_EVT_REFRESH_FORCED noUnit [] (bump Reg.BM_CNT 6 (bump Reg.BM_CNT 4 (setF refOwed 3 s)))
    else if idle then bumpBy (Reg.BM_CNT + 16) (owed + 1) (setF refOwed 0 s)
    else bump Reg.BM_CNT 4 s

/-- DRAM_TEMP_POLL: any device above 85 °C halves the refresh interval. -/
def dramTempEff (hot : Bool) (s : State) : State :=
  if stage s < 5 then s
  else
    let was := flag s Fld.BM_STATUS_DRAM_HOT
    let s := setF refInterval (if hot then 1950 else 3900) (setFlag Fld.BM_STATUS_DRAM_HOT hot s)
    if hot && !was then evt Fld.BM_EVT_DRAM_HOT noUnit [] s else s

/-- The target operating point: 1 is DDR5-3200 (R436). -/
def pointTarget (s : State) : Nat := if s.pwr.crit || flag s Fld.BM_CTRL_POINT then 1 else 0

/-- POINT_CHANGE_BEGIN: the target differs from the active point, and new requests are held (R436, R437). -/
def pointBeginEff (s : State) : State :=
  if 6 ≤ stage s && getF s Fld.BM_STATUS_STATE = 1 && pointTarget s ≠ getF s Fld.BM_STATUS_POINT then setF Fld.BM_STATUS_STATE 2 s
  else s

/-- POINT_CHANGE_DRAINED: steps 2 to 10 of Table 14-4. A target that changed meanwhile is evaluated anew afterwards (R438). -/
def pointDrainedEff (s : State) : State :=
  if getF s Fld.BM_STATUS_STATE ≠ 2 then s
  else
    let s := setF Fld.BM_STATUS_POINT (1 - getF s Fld.BM_STATUS_POINT) s
    let s := setF Fld.BM_STATUS_SET (1 - getF s Fld.BM_STATUS_SET) s
    let s := setF refOwed 0 s
    let s := setF Fld.BM_STATUS_STATE 1 s
    let s := bump Reg.BM_CNT 2 (bump Reg.BM_CNT 3 s)
    evt Fld.BM_EVT_POINT_DONE noUnit [] s

/-! ### Scrubber (R444, R445) -/

/-- The interval between the scrubber's reads in CLK_PWM cycles. -/
def scrubInterval (s : State) : Nat := if memLines s = 0 then 0 else (policyVal s 9).toNat * 100000000 / memLines s

/-- The walk is active. -/
def scrubRuns (s : State) : Bool := decide (6 ≤ stage s) && !halted s && !flag s Fld.INT_CTRL_SCRUB_PAUSE && decide (0 < memLines s)

/-- SCRUB_READ: the scrubber reads its next line; a line of a FAULTED channel keeps its time slot and is skipped. The
walk wraps with SCRUB_PASS; the last line of a burst resumes it. -/
def scrubReadEff (s : State) : State :=
  if !scrubRuns s then s
  else
    let pos := (getReg s Reg.INT_SCRUB_POS).toNat
    let s := setReg Reg.INT_SCRUB_INTERVAL (BitVec.ofNat 32 (scrubInterval s)) s
    let s := if ust s (uBuf (channelOf s pos)) = .faulted then s else bump Reg.INT_CNT 6 s
    if 1 < s.mem.burstLeft then
      setReg Reg.INT_SCRUB_POS (BitVec.ofNat 32 (pos + 1)) (modMem (fun m => { m with burstLeft := m.burstLeft - 1 }) s)
    else if s.mem.burstLeft = 1 then
      let s := setFlag Fld.INT_STATUS_BURST false (setReg Reg.INT_SCRUB_POS (BitVec.ofNat 32 s.mem.resume) s)
      modMem (fun m => { m with burstLeft := 0, resume := 0 }) s
    else if pos + 1 < memLines s then setReg Reg.INT_SCRUB_POS (BitVec.ofNat 32 (pos + 1)) s
    else
      let s := bumpBy Reg.INT_SCRUB_PASSES 1 (setReg Reg.INT_SCRUB_POS 0#32 s)
      evt Fld.INT_EVT_SCRUB_PASS noUnit [] s

/-- SCRUB_RESTART: the next scrubber read is line 0. -/
def scrubRestartEff (s : State) : State :=
  setReg Reg.INT_SCRUB_POS 0#32 (setFlag Fld.INT_STATUS_BURST false (modMem (fun m => { m with burstLeft := 0, resume := 0 }) s))

/-- INT_FORCE_PARITY: the next read of the line at INT_TEST_ADDR meets a persistent error. -/
def forceParityEff (s : State) : State := setF Fld.INT_CTRL_FORCE_PARITY 1 s

/-! ### The rebuild of a map (Table 14-5, class 2) -/

/-- How far a volume's chain reaches among the knots found, from the checkpoint's last knot on: consecutive numbers, each
naming its predecessor's check where that one was found. -/
def rebuildReach (ks : List (KnotRead × Knot)) : Nat → Nat → Option Nat → Nat
  | 0, seq, _ => seq
  | n + 1, seq, chk =>
    match ks.find? (fun e => e.2.seq == seq + 1 && (match chk with | some c => e.2.prevCheck == c | none => true)) with
    | some e => rebuildReach ks n (seq + 1) (some (crc32c e.1.record))
    | none => seq

/-- A volume whose map is rebuilt: what the chain reaches stays, the chain ends before its last applied knot otherwise. -/
def rebuiltVol (reads : List (KnotRead × Knot)) (v : Nat) (s : State) : State :=
  let x := volOf s v
  let ks := reads.filter (fun e => e.2.vol == v && decide (e.2.seq ≤ x.knotSeq))
  let reach := rebuildReach ks ks.length x.ckptKnot none
  let s := if reach < x.knotSeq then
      evt Fld.UNT_EVT_VOLUME_CHAIN (uVol v) [⟨1, v⟩, ⟨8, reach + 1⟩]
        (modVol v (fun x => { x with chainEnded := true, readOnly := true, knotSeq := reach, map := x.map.filter (fun e => decide (e.knotSeq ≤ reach)) }) s)
    else s
  if ust s (uVol v) = .starting then change (uVol v) (derivedVol s) .integrity s else s

/-- MOUNT_STEP_DONE while a map is rebuilt: steps 4, 5 and 6 read the medium again; nothing else of the disc changes. -/
def rebuildStepEff (d : MountData) (s : State) : State :=
  match s.media.disc.step, d with
  | .s4, .pages _ _ => modDisc (fun d => { d with step := .s5 }) s
  | .s5, .scan _ ks _ => modDisc (fun d => { d with step := .s6, pendingKnots := ks }) s
  | .s6, .chain =>
    let reads := s.media.disc.pendingKnots.filterMap (fun r => (parseKnot r).map (fun k => (r, k)))
    let vs := s.media.disc.rebuild
    let s := modDisc (fun d => { d with step := .none, rebuild := [], pendingKnots := [] }) s
    forEach (rebuiltVol reads) vs s
  | _, _ => s

/-- MOUNT_STEP_DONE (R114): of a rebuild while the disc is mounted, of the mount otherwise. -/
def mountDoneEff (d : MountData) (s : State) : State := if s.media.disc.mounted then rebuildStepEff d s else mountStepEff d s

end Sys2Proof.Machine
end

