-- ==== Sys2Proof/Machine/Cache.lean ====
section
/-! DEFINITION. The buffer cache (R408 to R427): requests, fills, write-backs, twins and victims, range and lock
operations, disabling, parity, and the scratchpad as BAR2 shows it. -/

namespace Sys2Proof.Machine

/-- Changes the cache. -/
def modBc (f : CacheState → CacheState) (s : State) : State := { s with bc := f s.bc }

/-- States of the cache (BC_STATUS.STATE). -/
def bcState (s : State) : Nat := getF s Fld.BC_STATUS_STATE

/-- The cache ways in use; none before S5 partitions them. -/
def cacheWays (s : State) : Nat := getF s Fld.BC_CFG_CACHE_WAYS

/-- The set index of a line (R409). -/
def setOf (s : State) (l : Nat) : Nat := (l % 16384) ^^^ ((l >>> 14) % 16384) ^^^ (l >>> 28) ^^^ getF s Fld.BC_CFG_HASH_SEED

/-- The keys of the cache ways of a set. -/
def wayKeys (s : State) (set_ : Nat) : List Nat := (List.range (cacheWays s)).map (fun w => set_ * 16 + w)

/-- What a way holds. -/
def wayAt (s : State) (key : Nat) : Option CacheLine := Tbl.get none key s.bc.lines

/-- Writes a way. -/
def putWay (key : Nat) (x : Option CacheLine) (s : State) : State := modBc (fun b => { b with lines := Tbl.put none key x b.lines }) s

/-- The way that holds a line, and the line. -/
def findLine (s : State) (l : Nat) : Option (Nat × CacheLine) :=
  (wayKeys s (setOf s l)).findSome? (fun k => match wayAt s k with | some x => if x.line = l then some (k, x) else none | none => none)

/-- The victim entry that serves a line (R416). -/
def findVictim (s : State) (l : Nat) : Option VictimEntry := s.bc.victims.find? (fun v => v.line == l && !v.gone)

/-- A BC event about a line (R427). -/
def bcEvt (f : Fld) (port l : Nat) (s : State) : State := evt f noUnit [⟨1, port⟩, ⟨4, l⟩] s

/-! ### Twins (R413) -/

/-- Removes the oldest twin of a line. -/
def dropFirst (l : Nat) : List (Nat × List Byte) → List (Nat × List Byte)
  | [] => []
  | t :: ts => if t.1 = l then ts else t :: dropFirst l ts

/-- Replaces the data of the newest twin of a line. -/
def updateLast (l : Nat) (d : List Byte) (ts : List (Nat × List Byte)) : List (Nat × List Byte) :=
  let f : List (Nat × List Byte) → List (Nat × List Byte) × Bool := fun l' =>
    l'.foldr (fun t acc => if !acc.2 && t.1 == l then ((l, d) :: acc.1, true) else (t :: acc.1, acc.2)) ([], false)
  (f ts).1

/-- Releases the oldest twin of a line; TWIN_FULL clears when 1,024 entries are free. -/
def releaseTwin (l : Nat) (s : State) : State :=
  let ts := dropFirst l s.bc.twins
  modBc (fun b => { b with twins := ts, twinFull := b.twinFull && decide (15360 < ts.length) }) s

/-- A new twin; TWIN_FULL becomes 1 with the last entry. -/
def addTwin (port l : Nat) (d : List Byte) (s : State) : State :=
  let ts := s.bc.twins ++ [(l, d)]
  let full := decide (16384 ≤ ts.length)
  let s' := modBc (fun b => { b with twins := ts, twinFull := b.twinFull || full }) s
  if full && !s.bc.twinFull then bcEvt Fld.BC_EVT_TWIN_FULL port l s' else s'

/-! ### Write-backs (R415) -/

/-- A write-back of a line that stays where it is is issued (BC_CNT[2]). -/
def issueLine (l : Nat) (d : List Byte) (s : State) : State :=
  bump Reg.BC_CNT 2 (modBc (fun b => { b with wbs := b.wbs ++ [{ line := l, data := d }] }) s)

/-- The write-back of a victim entry is issued to buffer memory. -/
def issueVictim (l : Nat) (s : State) : State :=
  if s.bc.victims.any (fun v => v.line == l && v.dirty && !v.issued) then
    bump Reg.BC_CNT 2 (modBc (fun b => { b with victims := b.victims.map (fun v => if v.line = l && v.dirty then { v with issued := true } else v) }) s)
  else s

/-- An outstanding write-back of a line. -/
def writingBack (s : State) (l : Nat) : Bool := s.bc.wbs.any (fun w => w.line == l) || s.bc.victims.any (fun v => v.line == l && v.dirty && v.issued)

/-- The oldest write-back of a line completes: buffer memory takes it, its twin is released, a victim entry becomes free. -/
def writebackDone (l : Nat) (s : State) : State :=
  let range (s : State) : State := modBc (fun b => { b with range := b.range.map (fun r => { r with waits := r.waits.erase l }) }) s
  match s.bc.victims.find? (fun v => v.line == l && v.dirty && v.gone) with
  | some v =>
    let s := releaseTwin l (memPut l v.data s)
    range (modBc (fun b => { b with victims := b.victims.filter (fun v => !(v.line = l && v.gone)) }) s)
  | none =>
    match s.bc.wbs.find? (fun w => w.line == l) with
    | some w => range (modBc (fun b => { b with wbs := b.wbs.erase w }) (releaseTwin l (memPut l w.data s)))
    | none =>
      match s.bc.victims.find? (fun v => v.line == l && v.dirty) with
      | some v =>
        let s := releaseTwin l (memPut l v.data (issueVictim l s))
        range (modBc (fun b => { b with victims := b.victims.map (fun v => if v.line = l then { v with dirty := false, issued := false } else v) }) s)
      | none => s

/-! ### Allocation (R409, R415) -/

/-- Marks a way as used; when the bits of every unlocked way are set, all but its own are cleared (R409). -/
def touchWay (key : Nat) (s : State) : State :=
  match wayAt s key with
  | none => s
  | some x =>
    let s := putWay key (some { x with nru := true }) s
    let keys := wayKeys s (key / 16)
    let unlocked := keys.filter (fun k => match wayAt s k with | some y => !y.locked | none => true)
    if unlocked.all (fun k => match wayAt s k with | some y => y.nru | none => false) then
      forEach (fun k s => match wayAt s k with
        | some y => if k = key then s else putWay k (some { y with nru := false }) s
        | none => s) unlocked s
    else s

/-- The way that a new line of a set takes. -/
def pickWay (s : State) (set_ : Nat) : Option Nat :=
  let keys := wayKeys s set_
  match keys.find? (fun k => (wayAt s k).isNone) with
  | some k => some k
  | none =>
    match keys.find? (fun k => match wayAt s k with | some y => !y.locked && !y.nru | none => false) with
    | some k => some k
    | none => keys.find? (fun k => match wayAt s k with | some y => !y.locked | none => false)

/-- Room for one more victim entry: a free one, or the oldest clean one is reused. -/
def victimRoom (vs : List VictimEntry) : Option (List VictimEntry) :=
  if vs.length < 32 then some vs
  else match vs.find? (fun v => !v.dirty) with
    | some v => some (vs.erase v)
    | none => none

/-- Allocates a line in its set; none where it would evict and no victim entry is free. The line's twin is the caller's. -/
def allocate (x : CacheLine) (s : State) : Option State :=
  match pickWay s (setOf s x.line) with
  | none => some s
  | some k =>
    match wayAt s k with
    | none => some (touchWay k (putWay k (some x) s))
    | some old =>
      match victimRoom s.bc.victims with
      | none => none
      | some vs =>
        let s := modBc (fun b => { b with victims := vs ++ [{ line := old.line, data := old.data, dirty := old.dirty }] }) s
        some (touchWay k (putWay k (some x) s))

/-! ### Requests (R411 to R416) -/

/-- The bytes of a line after a write request. -/
def mergeReq (r : CacheReq) (d : List Byte) : List Byte :=
  match r.write with
  | none => d
  | some bs => (d.zip (List.range d.length)).map (fun e =>
      if r.addr % 64 ≤ e.2 && e.2 < r.addr % 64 + r.len then (bs.getD (e.2 - r.addr % 64) none).getD e.1 else e.1)

/-- A write of all 64 bytes of a line. -/
def fullWrite (r : CacheReq) : Bool :=
  match r.write with | some bs => r.len == 64 && r.addr % 64 == 0 && (List.range 64).all (fun i => (bs.getD i none).isSome) | none => false

/-- Delivers a read's bytes out of a line. -/
def deliverBytes (r : CacheReq) (d : List Byte) (s : State) : State :=
  if r.write.isSome then s else emit (.cacheData r.port r.addr (slice d (r.addr % 64) r.len)) s

/-- Serves a request from the line in a way. A write dirties it with a new twin, is written through for a locked line and
for want of a twin entry (R413), and in CLEANING (R424). -/
def serveLine (key : Nat) (x : CacheLine) (r : CacheReq) (s : State) : State :=
  let s := touchWay key s
  if r.write.isNone then deliverBytes r x.data s
  else
    let d := mergeReq r x.data
    let put (y : CacheLine) (s : State) : State := putWay key (some { y with nru := true }) s
    if x.dirty then
      let s := modBc (fun b => { b with twins := updateLast x.line d b.twins }) (put { x with data := d } s)
      if bcState s = 2 then memPut x.line d s else s
    else if x.locked || bcState s = 2 then memPut x.line d (put { x with data := d } s)
    else if s.bc.twinFull then bump Reg.BC_CNT 7 (memPut x.line d (put { x with data := d } s))
    else addTwin r.port x.line d (put { x with data := d, dirty := true } s)

/-- Serves a request for a line in the victim buffer, and allocates the line back (Table 13-3); none where it must wait. -/
def serveVictim (v : VictimEntry) (r : CacheReq) (s : State) : Option State :=
  let d := mergeReq r v.data
  let wr := r.write.isSome
  -- the entry goes unless its write-back has been issued, which then completes with the old data
  let left (vs : List VictimEntry) : List VictimEntry :=
    if v.dirty && v.issued then vs.map (fun w => if w = v then { w with gone := true } else w) else vs.erase v
  let out (s : State) : State := modBc (fun b => { b with victims := left b.victims }) s
  let cancelled := v.dirty && !v.issued
  let through := wr && !cancelled && s.bc.twinFull
  let dirty := if wr then !through else cancelled
  let s0 := out s
  match allocate { line := v.line, data := d, dirty := dirty } s0 with
  | none => none
  | some s =>
    let s := bump Reg.BC_CNT 0 s
    let s := if cancelled then bump Reg.BC_CNT 1 s else s
    let s := if through then bump Reg.BC_CNT 7 (memPut v.line d s) else s
    let s := if cancelled then (if wr then modBc (fun b => { b with twins := updateLast v.line d b.twins }) s else s)
             else if dirty then addTwin r.port v.line d s else s
    some (deliverBytes r d s)

/-- A request past the cache: served from buffer memory, port 5 and the states without allocation. -/
def servePast (r : CacheReq) (s : State) : State :=
  let l := r.addr / 64
  if r.write.isSome then memPut l (mergeReq r (memLine s l)) s else deliverBytes r (memLine s l) s

/-- Serves a request; none where it waits at its port. again says that it waited before. -/
def serveReq (r : CacheReq) (s : State) : Option State :=
  let l := r.addr / 64
  if r.port = 5 || bcState s = 0 then some (servePast r s)
  else match findLine s l with
    | some (k, x) => some (serveLine k x r (bump Reg.BC_PORT_HIT r.port s))
    | none =>
      if bcState s = 2 then
        let s := bump Reg.BC_PORT_MISS r.port s
        match s.bc.victims.find? (fun v => v.line == l && !v.gone) with
        | some v =>
          let d := mergeReq r v.data
          if r.write.isSome then some (memPut l d (modBc (fun b => { b with victims := b.victims.map (fun w => if w = v then { w with data := d } else w) }) s))
          else some (deliverBytes r v.data s)
        | none => some (servePast r s)
      else match findVictim s l with
        | some v => serveVictim v r s
        | none =>
          match s.bc.miss.find? (fun m => m.line == l) with
          | some _ =>
            some (bump Reg.BC_PORT_MISS r.port (modBc (fun b => { b with miss := b.miss.map (fun m =>
              if m.line = l then { m with reqs := m.reqs ++ [(r, false)] } else m) }) s))
          | none =>
            if fullWrite r then
              let d := mergeReq r (List.replicate 64 0)
              let through := s.bc.twinFull
              match allocate { line := l, data := d, dirty := !through } s with
              | none => none
              | some s =>
                let s := bump Reg.BC_PORT_MISS r.port s
                some (if through then bump Reg.BC_CNT 7 (memPut l d s) else addTwin r.port l d s)
            else if s.bc.miss.length < 256 then
              some (bump Reg.BC_PORT_MISS r.port (modBc (fun b => { b with miss := b.miss ++ [{ line := l, reqs := [(r, false)] }] }) s))
            else none

/-- Serves a request, or lets it wait at its port; requests to one line keep their order (R412). -/
def grantReq (r : CacheReq) (s : State) : State :=
  let wait (s : State) : State := modBc (fun b => { b with waiting := b.waiting ++ [r] }) s
  if s.bc.waiting.any (fun w => w.addr / 64 == r.addr / 64) then wait s
  else match serveReq r s with
    | some s => s
    | none => wait s

/-- The requests that wait at their ports are tried again, in order. -/
def retryWaiting (s : State) : State :=
  let ws := s.bc.waiting
  forEach grantReq ws (modBc (fun b => { b with waiting := [] }) s)

/-! ### Fills (R411) -/

/-- The 16-byte beats that a request needs. -/
def beatsOf (r : CacheReq) : List Nat :=
  (List.range 4).filter (fun i => decide (r.addr % 64 < 16 * (i + 1)) && decide (16 * i < r.addr % 64 + r.len))

/-- Serves the reads of a miss entry whose beats have come, each over the writes granted before it. -/
def serveMiss (beats : List Nat) : List Byte → List (CacheReq × Bool) → State → List (CacheReq × Bool) × State
  | _, [], s => ([], s)
  | d, (r, done) :: rs, s =>
    let now := !done && r.write.isNone && (beatsOf r).all beats.contains
    let s := if now then deliverBytes r d s else s
    let (rest, s) := serveMiss beats (mergeReq r d) rs s
    ((r, done || now) :: rest, s)

/-- A miss entry with all its beats gives its line to its way; without room in the victim buffer it waits. -/
def finishMiss (m : MissEntry) (s : State) : State :=
  if m.beats.length < 4 then s
  else
    let d := m.reqs.foldl (fun d e => mergeReq e.1 d) (memLine s m.line)
    let wrote := m.reqs.any (fun e => e.1.write.isSome)
    let port := match m.reqs.find? (fun e => e.1.write.isSome) with | some e => e.1.port | none => 0
    let drop (s : State) : State := modBc (fun b => { b with miss := b.miss.filter (fun x => x.line ≠ m.line) }) s
    if bcState s ≠ 1 then drop (if wrote then memPut m.line d s else s)
    else
      let through := wrote && s.bc.twinFull
      match allocate { line := m.line, data := d, dirty := wrote && !through } s with
      | none => s
      | some s =>
        let s := if through then bump Reg.BC_CNT 7 (memPut m.line d s) else if wrote then addTwin port m.line d s else s
        drop s

/-- Lines whose fills are complete, and waiting requests, go on where there is room again. -/
def cacheGoOn (s : State) : State := retryWaiting (forEach finishMiss s.bc.miss s)

/-- FILL_BEAT: a beat of a line's fill arrives. A fill is issued only once every write-back of the line has completed. -/
def fillBeatEff (l beat : Nat) (s : State) : State :=
  match s.bc.miss.find? (fun m => m.line == l) with
  | none => s
  | some m =>
    if 4 ≤ beat || m.beats.contains beat || writingBack s l then s
    else
      let beats := m.beats ++ [beat]
      let (reqs, s) := serveMiss beats (memLine s l) m.reqs s
      let m := { m with beats := beats, reqs := reqs }
      cacheGoOn (modBc (fun b => { b with miss := b.miss.map (fun x => if x.line = l then m else x) }) s)

/-- WRITEBACK_COMPLETE: a write-back completes. -/
def writebackEff (l : Nat) (s : State) : State := cacheGoOn (writebackDone l s)

/-! ### Range operations (R418, R419) -/

/-- Whether a line lies in a range operation's range. -/
def inOp (r : RangeOp) (l : Nat) : Bool := r.whole || (decide (r.lo ≤ l) && decide (l < r.lo + r.len))

/-- Where the walk meets a line: by line for a short range, by set otherwise. -/
def walkPos (r : RangeOp) (key l : Nat) : Nat := if !r.whole && r.len < 16384 then l - r.lo else key / 16

/-- The length of a walk. -/
def walkEnd (r : RangeOp) : Nat := if !r.whole && r.len < 16384 then r.len else 16384

/-- Changes the range operation. -/
def modRange (f : RangeOp → RangeOp) (s : State) : State := modBc (fun b => { b with range := b.range.map f }) s

/-- The walk meets a line: a dirty one is written back, and CLEAN_INV invalidates what is not locked or forced. -/
def walkLine (r : RangeOp) (key : Nat) (s : State) : State :=
  match wayAt s key with
  | none => s
  | some x =>
    let s := if x.dirty then modRange (fun o => { o with waits := o.waits ++ [x.line] }) (issueLine x.line x.data s) else s
    if r.clean then putWay key (some { x with dirty := false }) s
    else if x.locked && !r.force then modRange (fun o => { o with retained := o.retained + 1 }) s
    else putWay key none s

/-- Advances the walk to a position. -/
def walkTo (p : Nat) (s : State) : State :=
  match s.bc.range with
  | none => s
  | some r =>
    let q := max r.pos (min p (walkEnd r))
    let meet (e : Nat × Option CacheLine) : Bool := match e.2 with
      | some x => inOp r x.line && decide (r.pos ≤ walkPos r e.1 x.line) && decide (walkPos r e.1 x.line < q)
      | none => false
    let s := forEach (fun e s => walkLine r e.1 s) (s.bc.lines.filter meet) s
    modRange (fun o => { o with pos := q }) s

/-- A victim entry in the range: a dirty one is written back, and CLEAN_INV drops it. -/
def rangeVictim (r : RangeOp) (v : VictimEntry) (s : State) : State :=
  if !inOp r v.line || v.gone then s
  else
    let s := if v.dirty then modRange (fun o => { o with waits := o.waits ++ [v.line] }) (issueVictim v.line s) else s
    if r.clean then s
    else
      let left (vs : List VictimEntry) : List VictimEntry :=
        if v.dirty then vs.map (fun w => if w.line = v.line then { w with gone := true } else w) else vs.erase v
      modBc (fun b => { b with victims := left b.victims }) s

/-- CACHE_CLEAN and CACHE_CLEAN_INV: a range operation begins over BC_INV_ADDR and BC_INV_LEN, or over every line; a second
one is refused (R419). -/
def rangeStart (clean force whole : Bool) (s : State) : State :=
  if s.bc.range.isSome then setF Fld.BC_INV_STATUS_REFUSED 1 s
  else
    let r : RangeOp := { clean := clean, force := force, whole := whole, lo := get64 s Reg.BC_INV_ADDR_LO % 0x1000000000 / 64,
                         len := (getReg s Reg.BC_INV_LEN).toNat % 0x80000000 }
    let s := setReg Reg.BC_INV_STATUS (BitVec.ofNat 32 (if clean then 1 else 2)) s
    let s := modBc (fun b => { b with range := some r }) s
    forEach (rangeVictim r) s.bc.victims s

/-- INV_DONE: the walk is done and every write-back it issued has completed. -/
def invDoneEff (s : State) : State :=
  match s.bc.range with
  | none => s
  | some r0 =>
    let s := walkTo (walkEnd r0) s
    let s := forEach writebackDone ((s.bc.range.map (·.waits)).getD []) s
    let n := (s.bc.range.map (·.retained)).getD 0
    let s := modBc (fun b => { b with range := none }) s
    let s := setReg Reg.BC_INV_RETAINED (BitVec.ofNat 32 n) s
    let s := setF Fld.BC_INV_STATUS_DONE 1 s
    let s := if r0.whole && !r0.clean && n = 0 then setF Fld.BC_STATUS_STALE_RISK 0 s else s
    let s := evt Fld.BC_EVT_INV_DONE noUnit [] s
    let s := if 0 < n then evt Fld.BC_EVT_LOCK_RETAINED noUnit [⟨4, n⟩] s else s
    cacheGoOn s

/-! ### Locks (R417) -/

/-- The locked lines of a set. -/
def lockedIn (s : State) (set_ : Nat) : Nat :=
  ((wayKeys s set_).filter (fun k => match wayAt s k with | some x => x.locked | none => false)).length

/-- The locked lines of the cache. -/
def lockedLines (s : State) : Nat := (s.bc.lines.filter (fun e => match e.2 with | some x => x.locked | none => false)).length

/-- Makes room in a full victim buffer by completing its oldest write-back. -/
def victimWait (s : State) : State :=
  match victimRoom s.bc.victims with
  | some _ => s
  | none => match s.bc.victims with | v :: _ => writebackDone v.line s | [] => s

/-- Brings a line into the cache, for a lock: out of its miss entry, out of the victim buffer, or from buffer memory. -/
def bringLine (l : Nat) (s : State) : State :=
  let s := victimWait s
  match findLine s l with
  | some _ => s
  | none =>
    match s.bc.miss.find? (fun m => m.line == l) with
    | some m =>
      let rest := serveMiss [0, 1, 2, 3] (memLine s l) m.reqs s
      finishMiss { m with beats := [0, 1, 2, 3], reqs := rest.1 } rest.2
    | none =>
      match findVictim s l with
      | some v => (serveVictim v { port := 0, addr := 64 * l, len := 0 } s).getD s
      | none => (allocate { line := l, data := memLine s l } s).getD s

/-- Locks one line, within the limit of its set; answers whether it was refused. -/
def lockLine (l : Nat) (s : State) : Bool × State :=
  let already : Bool := match findLine s l with | some (_, x) => x.locked | none => false
  if already then (false, s)
  else if cacheWays s - 4 ≤ lockedIn s (setOf s l) then (true, s)
  else
    let s := bringLine l s
    match findLine s l with
    | none => (true, s)
    | some (k, x) =>
      let s := if x.dirty then releaseTwin l (memPut l x.data s) else s
      (false, putWay k (some { x with dirty := false, locked := true }) s)

/-- Locks lines in order, counting those refused and keeping the first. -/
def lockLines : List Nat → Nat × Option Nat × State → Nat × Option Nat × State
  | [], a => a
  | l :: ls, (n, f, s) =>
    let r := lockLine l s
    lockLines ls (if r.1 then (n + 1, (match f with | some x => some x | none => some l), r.2) else (n, f, r.2))

/-- The range of a lock operation. -/
def lockRange (s : State) : Nat × Nat := (get64 s Reg.BC_LOCK_ADDR_LO % 0x1000000000 / 64, (getReg s Reg.BC_LOCK_LEN).toNat % 0x20000)

/-- A lock operation while the cache is not ENABLED is refused as a whole. -/
def lockRefused (s : State) : State := setReg Reg.BC_LOCK_STATUS (BitVec.ofNat 32 (0x20000000)) s

/-- CACHE_LOCK: fills and locks the lines of BC_LOCK_ADDR and BC_LOCK_LEN. -/
def lockEff (s : State) : State :=
  if bcState s ≠ 1 then lockRefused s
  else
    let (lo, len) := lockRange s
    let (n, f, s) := lockLines (upFrom lo len) (0, none, s)
    let s := setReg Reg.BC_LOCK_REFUSED (BitVec.ofNat 32 n) s
    let s := setReg Reg.BC_LOCK_STATUS (BitVec.ofNat 32 (0x80000000)) s
    let s := match f with | some l => evt Fld.BC_EVT_LOCK_REFUSED noUnit [⟨4, l⟩] s | none => s
    cacheGoOn s

/-- CACHE_UNLOCK: unlocks the lines of the range, or every line. -/
def unlockEff (all_ : Bool) (s : State) : State :=
  if bcState s ≠ 1 then lockRefused s
  else
    let (lo, len) := lockRange s
    let s := modBc (fun b => { b with lines := b.lines.map (fun e => (e.1, e.2.map (fun x =>
      if all_ || (decide (lo ≤ x.line) && decide (x.line < lo + len)) then { x with locked := false } else x))) }) s
    setReg Reg.BC_LOCK_STATUS (BitVec.ofNat 32 (0x80000000)) s

/-! ### Disabling (R424, R425) -/

/-- CACHE_DISABLE: an enabled cache stops allocating and writes back every dirty line and entry (CLEANING). -/
def disableEff (s : State) : State :=
  let s := setF Fld.BC_CTRL_ENABLE 0 s
  if bcState s ≠ 1 then s
  else
    let s := setF Fld.BC_STATUS_STATE 2 s
    let s := forEach (fun e s => match e.2 with
      | some x => if x.dirty then putWay e.1 (some { x with dirty := false }) (issueLine x.line x.data s) else s
      | none => s) s.bc.lines s
    forEach (fun v s => issueVictim v.line s) s.bc.victims s

/-- CACHE_CLEANING_DONE: the last write-back completes, the victim buffer is emptied, and the cache is DISABLED. -/
def cleaningDoneEff (s : State) : State :=
  if bcState s ≠ 2 then s
  else
    let s := forEach (fun w s => writebackDone w.line s) s.bc.wbs s
    let s := forEach (fun v s => if v.dirty then writebackDone v.line s else s) s.bc.victims s
    let s := modBc (fun b => { b with victims := [] }) s
    let s := setF Fld.BC_STATUS_STATE 0 (setF Fld.BC_STATUS_STALE_RISK 1 s)
    cacheGoOn (evt Fld.BC_EVT_DISABLED noUnit [] s)

/-- CACHE_ENABLE: back to ENABLED; out of DISABLED the contents are used as they stand, with STALE_ENABLE where they can be
stale. -/
def enableEff (s : State) : State :=
  let s := setF Fld.BC_CTRL_ENABLE 1 s
  if bcState s = 2 then setF Fld.BC_STATUS_STATE 1 s
  else if bcState s = 0 then
    let s := setF Fld.BC_STATUS_STATE 1 s
    if flag s Fld.BC_STATUS_STALE_RISK then evt Fld.BC_EVT_STALE_ENABLE noUnit [] s else s
  else s

/-- Entry to S5: the cache is cleaned and emptied, its ways partitioned, the host's ways zeroed, and ENABLE set (R425). -/
def cacheS5 (scratchWays hashSeed : Nat) (s : State) : State :=
  let s := forEach (fun e s => match e.2 with | some x => if x.dirty then memPut x.line x.data s else s | none => s) s.bc.lines s
  let s := forEach (fun v s => if v.dirty && !v.gone then memPut v.line v.data s else s) s.bc.victims s
  let s := modBc (fun _ => {}) s
  let s := setReg Reg.BC_CFG (BitVec.ofNat 32 (scratchWays * 0x1000000 + (16 - scratchWays) * 0x10000 + hashSeed % 16384)) s
  let s := setReg Reg.BC_LOCK_STATUS 0#32 s
  setReg Reg.BC_STATUS (BitVec.ofNat 32 (0x40000000)) (setF Fld.BC_CTRL_ENABLE 1 s)

/-! ### Parity (R423, Table 13-5) -/

/-- The commands that a failed request serves end with INTERNAL_PARITY. -/
def requestFails (tags : List Nat) (s : State) : State :=
  forEach (fun t s => match cmdOf s t with | some c => if c.state = .ended then s else endCmd t .internalParity 0 s | none => s) tags s

/-- A persistent error of a line or of a victim entry: invalidated and filled again, restored from the twin, or fatal.
Answers whether the request fails. -/
def lineError (r : CacheReq) (tags : List Nat) (sourceBad : Bool) (s : State) : Bool × State :=
  let l := r.addr / 64
  let twin := (s.bc.twins.filter (fun t => t.1 = l)).getLast?
  let dirty : Bool := match findLine s l, findVictim s l with
    | some (_, x), _ => x.dirty
    | none, some v => v.dirty
    | none, none => false
  let drop (s : State) : State :=
    match findLine s l with
    | some (k, _) => putWay k none s
    | none => modBc (fun b => { b with victims := b.victims.filter (fun v => v.line ≠ l || v.gone) }) s
  if !dirty then (false, bcEvt Fld.BC_EVT_PARITY_RECOVERED r.port l (bump Reg.BC_CNT 4 (drop s)))
  else
    let forced := flag s Fld.BC_TEST_FORCE_TWIN_PARITY
    let s := setF Fld.BC_TEST_FORCE_TWIN_PARITY 0 s
    match twin with
    | some t =>
      if sourceBad || forced then
        let s := releaseTwin l (drop s)
        let s := modBc (fun b => { b with bad := addNat l b.bad }) s
        (true, requestFails tags (bcEvt Fld.BC_EVT_PARITY_FATAL r.port l (bump Reg.BC_CNT 6 s)))
      else
        let s := match findLine s l with
          | some (k, x) => putWay k (some { x with data := t.2 }) s
          | none => modBc (fun b => { b with victims := b.victims.map (fun v => if v.line = l && !v.gone then { v with data := t.2 } else v) }) s
        (false, bcEvt Fld.BC_EVT_PARITY_RECOVERED r.port l (bump Reg.BC_CNT 5 s))
    | none => (false, s)

/-- A parity error met by a request; answers whether the request fails. -/
def cacheError (r : CacheReq) (tags : List Nat) (e : CacheErr) (s : State) : Bool × State :=
  let l := r.addr / 64
  let s := bumpBy (Reg.BC_CNT + 12) (min 2 e.replays) s
  if !e.persists then (false, s)
  else match e.place with
    | .line => lineError r tags e.sourceBad s
    | .twin =>
      match findLine s l with
      | some (k, x) => (false, if x.dirty then putWay k (some { x with dirty := false }) (issueLine l x.data s) else s)
      | none => (false, issueVictim l s)
    | .miss => (false, modBc (fun b => { b with miss := b.miss.map (fun m => if m.line = l then { m with beats := [] } else m) }) s)

/-- CACHE_REQUEST: a request is granted. issued names the lines whose queued write-backs buffer memory accepted before it,
walked how far a range operation's walk had come, tags the commands that it serves, and err a parity error that it meets. -/
def cacheRequestEff (r : CacheReq) (issued : List Nat) (walked : Nat) (tags : List Nat) (err : Option CacheErr) (s : State) : State :=
  let s := walkTo walked (forEach issueVictim issued s)
  let l := r.addr / 64
  if s.bc.bad.contains l then requestFails tags s
  else
    let hit := bcState s ≠ 0 && r.port ≠ 5 && (findLine s l).isSome
    let forced := hit && flag s Fld.BC_TEST_FORCE_DATA_PARITY
    let s := if forced then setF Fld.BC_TEST_FORCE_DATA_PARITY 0 s else s
    let e : Option CacheErr := if forced then some { place := .line, replays := 2, persists := true } else err
    let out := match e with | some e => cacheError r tags e s | none => (false, s)
    if out.1 then out.2 else grantReq r out.2

/-- BC_FORCE_DATA_PARITY and BC_FORCE_TWIN_PARITY (BC_TEST). -/
def forceDataEff (s : State) : State := setF Fld.BC_TEST_FORCE_DATA_PARITY 1 s
def forceTwinEff (s : State) : State := setF Fld.BC_TEST_FORCE_TWIN_PARITY 1 s

/-! ### Scratchpad (R420 to R422) -/

/-- A byte of way 0 (Table 13-4): cam active values, policy complex data, whose content the spec leaves to it, and active
coefficient banks. -/
def way0Byte (s : State) (o : Nat) : Byte :=
  if o < 0x40000 then BitVec.ofNat 8 (unsigned 32 (nth (camSt s (o / 0x1000)).active (o % 0x1000 / 4)) >>> (8 * (o % 4)))
  else if o < 0xF8000 then Config.freeByte s.free o
  else
    let i := o - 0xF8000
    BitVec.ofNat 8 (unsigned 32 (nth (activeBank (lslot s (i / 0x400))) (i % 0x400 / 4)) >>> (8 * (o % 4)))

/-- A byte of BAR2: way 0, the host's ways, and 0 beyond them (R59). -/
def bar2Byte (s : State) (o : Nat) : Byte :=
  if o < 0x100000 then way0Byte s o
  else if o < getF s Fld.BC_CFG_SCRATCH_WAYS * 0x100000 then Tbl.get 0 o s.bc.scratch else 0#8

/-- Writes of the host's ways, byte by byte with their enables; way 0 and what lies beyond discard them. -/
def bar2Write (ways o : Nat) : List (Option Byte) → Tbl Byte → Tbl Byte
  | [], m => m
  | b :: bs, m =>
    let m := match b with
      | some v => if 0x100000 ≤ o && o < ways * 0x100000 then Tbl.put 0 o v m else m
      | none => m
    bar2Write ways (o + 1) bs m

/-- BAR2_ACCESS: a memory access of any length and byte enables to the scratchpad; bad says that it meets a persistent
parity error, which way 0 restores from its image and the host's ways return as it is. -/
def bar2Eff (off len : Nat) (write : Option (List (Option Byte))) (bad : Bool) (s : State) : State :=
  if stage s < 6 then (if write.isSome then s else emit (.bar2 false (List.replicate len 0)) s)
  else
    let s := bump Reg.BC_PORT_HIT 0 s
    let s := if bad then bumpBy (Reg.BC_CNT + 12) 2 s else s
    let s := if !bad then s
      else if off < 0x100000 then bcEvt Fld.BC_EVT_PARITY_RECOVERED 0 (off / 64) s
      else evt Fld.BC_EVT_SCRATCH_PARITY noUnit [⟨1, 0⟩, ⟨4, off⟩] s
    match write with
    | some bs => modBc (fun b => { b with scratch := bar2Write (getF s Fld.BC_CFG_SCRATCH_WAYS) off bs b.scratch }) s
    | none => useFree (emit (.bar2 (bad && decide (0x100000 ≤ off)) ((upFrom off len).map (bar2Byte s))) s)

end Sys2Proof.Machine
end

