-- ==== Sys2Proof/Machine/Link.lean ====
section
/-! DEFINITION. The partner unit and the mirror as the rest of the model sees them (R527, R534, R538): its changes, what
they release, the detach, and the resynchronisation's start. -/

namespace Sys2Proof.Machine

/-- Changes the pair record. -/
def modPair (f : PairState → PairState) (s : State) : State := { s with pair := f s.pair }

/-- Codes of PRL_STATUS.OWN_STATE. -/
def ownCode : OwnState → Nat
  | .wait => 0
  | .follower => 1
  | .claiming => 2
  | .owner => 3
  | .handing => 4

/-- A PRL event names the ownership state and the partner's epoch (R541). -/
def prlEvtWith (f : Fld) (more : List Item) (s : State) : State :=
  evt f uPartner ([⟨1, ownCode s.pair.own⟩, ⟨4, (unitOf s uPartner).epoch.toNat⟩] ++ more) s
def prlEvt (f : Fld) (s : State) : State := prlEvtWith f [] s

/-- The step that waited for a mirrored item goes on (Table 18-3): a write's held point, or the knots of a skein; the other
steps look for their acknowledgement when they come. -/
def runItem (m : MirrorItem) (s : State) : State :=
  match m with
  | .held t => reachHeld t s
  | .passed k => knotVerifiedEff k s
  | .verified k => knotVerifiedEff k s
  | _ => s

/-- MIRROR_ACK: the partner has acknowledged an item. -/
def mirrorAckEff (m : MirrorItem) (s : State) : State :=
  if s.pair.unacked.contains m then runItem m (modPair (fun p => { p with unacked := p.unacked.filter (· ≠ m) }) s) else s

/-- JOURNAL_ACK: the journal entry of an accepted command is acknowledged (R532). -/
def journalAckEff (seq : Nat) (s : State) : State :=
  let s := modPair (fun p => { p with ackedSeq := max p.ackedSeq seq }) s
  mirrorAckEff (.journal seq) (set64 Reg.PRL_ACK_SEQ_LO s.pair.ackedSeq s)

/-- The partner no longer acknowledges: what waited for it goes on without it (R538). -/
def dropUnacked (s : State) : State :=
  let ms := s.pair.unacked
  forEach runItem ms (modPair (fun p => { p with unacked := [] }) s)

/-- Forwarded commands without a journal entry end with PAIR_FORWARD_FAIL, number 0 and no effect (R532). -/
def forwardFail (s : State) : State :=
  forEach (fun e s =>
    if e.2.forwarded && e.2.seq = 0 && e.2.state ≠ .ended then
      prlEvt Fld.PRL_EVT_FORWARD_FAIL (bump Reg.PRL_CNT 4 (endCmd e.1 .pairForwardFail 0 s))
    else s) (cmds s) s

/-- A change of the partner unit with what follows: in sync it sets PARTNER_SYNCED, out of it the owner's waiting steps go on,
and at a non-owner that does not claim the forwarded commands fail. -/
def partnerTo (tgt : UState) (why : Reason) (src : Source) (seq : Nat) (claims : Bool) (s : State) : State :=
  let was := (ust s uPartner).serves
  let s := changeUnit uPartner tgt why src seq s
  if was && !tgt.serves then (if isOwner s then dropUnacked s else if claims then s else forwardFail s)
  else if !was && tgt.serves then prlEvt Fld.PRL_EVT_PARTNER_SYNCED s else s

/-- The partner enters STARTING, and the owner begins to copy its state as it is at this cut (R538). -/
def partnerStart (why : Reason) (src : Source) (seq : Nat) (s : State) : State :=
  let s := partnerTo .starting why src seq false s
  let s := modPair (fun p => { p with syncing := true, detached := false, unacked := [] }) s
  if isOwner s then emit (.jokor 0x30 [get64 s Reg.HQ_SEQ_LO]) (bump Reg.PRL_CNT 6 s) else s

/-- An OFFLINE request to the partner, made at the owner: a detach is sent, and mirroring stops (R527). -/
def partnerDetach (src : Source) (seq : Nat) (s : State) : State :=
  let s := if isOwner s then emit (.jokor 0x31 []) s else s
  partnerTo .offline .request src seq false (modPair (fun p => { p with detached := true, syncing := false }) s)

/-- The partner is sensed present (Table 17-7). -/
def partnerSensed (s : State) : Bool := s.pair.linkUp && s.pair.hbEver && !s.pair.lost

/-- READY or DEGRADED, by the lanes in use (Table 18-1). -/
def partnerGrade (s : State) : UState := if s.pair.width = 8 then .ready else .degraded

end Sys2Proof.Machine
end

