-- ==== Sys2Proof/Machine/Units.lean ====
section
/-! DEFINITION. The unit sequencer's requests (R502 to R508, R580): taking and checking them, OFFLINE, READY and SERVICE by
unit, assertions, queries, the policy firmware's requests and its watchdog. -/

namespace Sys2Proof.Machine

/-! ### Taking a request (R478, R502) -/

/-- A request whose command ended before the sequencer took it (R396). -/
def deadReq (s : State) (r : UnitReq) : Bool :=
  match r.sender with
  | .ring t => (match cmdOf s t with | some c => c.state == .ended | none => true)
  | _ => false

/-- The request at the head of the sequencer's queue. -/
def headReq (s : State) : Option UnitReq := (s.unt.waiting.dropWhile (deadReq s)).head?

/-- Takes the request at the head: it is past its point of no return, and UNT_CNT[1] counts it. -/
def takeHead (r : UnitReq) (s : State) : State :=
  let s := { s with unt := { s.unt with waiting := (s.unt.waiting.dropWhile (deadReq s)).drop 1 } }
  let s := match r.sender with
    | .ring t =>
      let s := modCmd t (fun c => { c with taken := true, state := .running, pnr := true }) s
      if mirroring s then emit (.jokor 0x04 [r.acceptSeq]) s else s
    | _ => s
  bump Reg.UNT_CNT 1 s

/-- The source of a change that a request makes (Table 17-9). -/
def srcOf (r : UnitReq) : Source :=
  match r.sender with
  | .ring _ => .ring
  | .dmp _ _ _ _ => .dmp
  | .i3c _ _ => .i3c
  | .policy => .internal
  | .partner i3c _ _ _ _ => if i3c then .i3c else .dmp

/-- A calibration or self-test that belongs to a unit runs on it: PARITY and MRAM hold none (Table 16-1). -/
def calHolds (s : State) (u : Nat) : Bool :=
  s.cal.running.any (fun r => r.unit == u && !(r.op == opSelfTest && (r.code == 1 || r.code == 2)))

/-- Steps 1 and 2 of R478; the MRAM self-test belongs to no unit. -/
def takeCheck (s : State) (r : UnitReq) : Option Status :=
  if BitVec.ofNat 32 r.epoch ≠ (unitOf s r.unit).epoch then some .epochStale
  else if calHolds s r.unit && !(r.kind = .selfTest && r.code = 2) then some .unitService
  else none

/-- A failed check ends the request. -/
def failReq (r : UnitReq) (st : Status) (s : State) : State :=
  let s := if st = .epochStale then evt Fld.UNT_EVT_EPOCH_STALE r.unit [] (bump Reg.UNT_CNT 2 s) else s
  finishReq r st s

/-- Takes the head request where it is of a kind and code, checks it, and goes on with f. -/
def takeReq (k : ReqKind) (code : Nat) (f : UnitReq → State → State) (s : State) : State :=
  match headReq s with
  | some r =>
    if r.kind = k && r.code = code then
      let s := takeHead r s
      match takeCheck s r with
      | some st => failReq r st s
      | none => f r s
    else s
  | none => s

/-- Keeps a request whose unit is still on its way. -/
def openReq (r : UnitReq) (s : State) : State := { s with unt := { s.unt with open_ := s.unt.open_ ++ [r] } }

/-- A change that a request makes. -/
def reqChange (r : UnitReq) (tgt : UState) (s : State) : State := changeUnit r.unit tgt .request (srcOf r) r.acceptSeq s

/-- Makes the change that completes a request, which is settled with it. -/
def reqDone (r : UnitReq) (tgt : UState) (s : State) : State := reqChange r tgt (openReq r s)

/-- A unit held back under R581: a bound disc, side, spindle, carriage or strand while BOOT_SRC 0b01 waits for an image. -/
def heldBackUnit (s : State) (u : Nat) : Bool :=
  s.img.heldBack && (u == uDisc || isSide u || u == uSpindle || isCar u || isStrand u)

/-! ### OFFLINE -/

/-- The strands of a carriage that are neither FAULTED nor ABSENT take a state, each as a change of its own. -/
def strandsTo (c : Nat) (tgt : UState) (why : Reason) (s : State) : State :=
  forEach (fun g s => if ust s (uStrand g) = .faulted || ust s (uStrand g) = .absent then s else change (uStrand g) tgt why s) (strandsOf s c) s

/-- A carriage that goes OFFLINE: its strands with it, its loops disabled and its laser off (R500). -/
def carDown (c : Nat) (s : State) : State := carriageDark c (strandsTo c .offline .request (stopWriteNow c s))

/-- The disc goes OFFLINE: unmounted, its sides with it. -/
def discDown (why : Reason) (s : State) : State :=
  let s := forEach (fun k s => if ust s (uSide k) = .absent then s else change (uSide k) .offline why s) [0, 1] s
  unmount s

/-- Whether a FAULTED unit leaves that state by a reset or a calibration alone (Table 17-2). -/
def faultStays (s : State) (u : Nat) : Bool :=
  u == uDisc || isBuf u || isStrand u || (u == uSpindle && (spn s).fromTrip)

/-- A unit moves to OFFLINE at once. -/
def goOffline (r : UnitReq) (s : State) : State :=
  let u := r.unit
  let s := reqDone r .offline s
  if isCar u then carDown (u - 4) s
  else if u = uSpindle then spnStopEff (flag s Fld.SPN_CTRL_STOP_COAST) s
  else if u = uDisc then discDown .request s
  else s

/-- Whether a SUSPECT unit is sensed present: under a conflict, the opposite of what was claimed (R508). -/
def suspectPresent (s : State) (u : Nat) : Bool :=
  let e := unitOf s u
  if e.doubt = .conflict then !e.asserted else true

/-- UNIT_REQUEST OFFLINE once taken and checked. -/
def offlineReq (r : UnitReq) (s : State) : State :=
  let u := r.unit
  let st := ust s u
  if u = uPartner then (if isOwner s then partnerDetach (srcOf r) r.acceptSeq (openReq r s) else finishReq r .unitNotReady s)
  else if st = .offline || st = .absent then finishReq r .success s
  else if st = .faulted && faultStays s u then finishReq r .unitNotReady s
  else if st = .suspect && !suspectPresent s u then
    let s := reqDone r .absent s
    if isCar u then carDown (u - 4) s else if u = uDisc then discDown .request s else s
  else if st.serves then
    let s := reqChange r .draining (openReq r s)
    if u = uDisc then sealAll (modDisc (fun d => { d with commitAll := true }) s) else s
  else if st = .draining then openReq r s
  else goOffline r s

/-- UNIT_REQUEST_OFFLINE. -/
def unitOfflineEff (s : State) : State := takeReq .request 0x01 offlineReq s

/-! ### READY -/

/-- A carriage starts: its faults cleared, STARTING with its strands, acquisition once the spindle is READY (R500). -/
def startCar (r : UnitReq) (s : State) : State :=
  let c := r.unit - 4
  let s := forEach loopClrFaultEff (slotsOfCar s c) s
  let s := crgClrFaultEff c s
  let s := reqChange r .starting (openReq r s)
  let s := forEach (fun g s => if ust s (uStrand g) = .offline then change (uStrand g) .starting .request s else s) (strandsOf s c) s
  let s := if ust s uSpindle = .ready && !loopsUp s c then acquireCar c s else s
  carReadyCheck c s

/-- The spindle starts; a drive in STOPPED receives a start request (R292). -/
def startSpindle (r : UnitReq) (s : State) : State :=
  let s := spnClrFaultEff s
  let s := forEach (fun o s => match o with | some k => loopClrFaultEff k s | none => s) [speedSlot s, currentSlot s] s
  let s := reqChange r .starting (openReq r s)
  if (spn s).phase = .stopped then spnStartEff s else s

/-- UNIT_REQUEST READY once taken and checked. -/
def readyReq (r : UnitReq) (s : State) : State :=
  let u := r.unit
  let st := ust s u
  if st.serves then finishReq r .success s
  else if st = .suspect then finishReq r .unitSuspect s
  else if heldBackUnit s u then finishReq r .unitNotReady s
  else if u = uPartner then
    if (st = .offline || st = .faulted) && isOwner s && s.pair.linkUp && s.pair.hello.isSome && !s.pair.conflict
    then partnerStart .request (srcOf r) r.acceptSeq (openReq r s)
    else if st = .starting then openReq r s else finishReq r .unitNotReady s
  else if st = .absent || st = .faulted || st = .draining || (isCar u && ust s uDisc = .absent) then finishReq r .unitNotReady s
  else if st = .starting then (if u = uSpindle && (spn s).phase = .stopped then startSpindle r s else openReq r s)
  else if isCar u then startCar r s
  else if u = uSpindle then startSpindle r s
  else if u = uDisc then
    if discSensed s && (ust s uSpindle).serves && s.media.disc.step = .none && !s.media.disc.mounted
    then mountStartEff (openReq r s) else finishReq r .unitNotReady s
  else if isSide u then
    if (ust s uDisc).serves then reqDone r .ready (reqChange r .starting s)
    else if ust s uDisc = .starting then reqChange r .starting (openReq r s)
    else finishReq r .unitNotReady s
  else if isStrand u then
    let c := (u - 0x20) / 8
    if (ust s (uCar c)).serves || ust s (uCar c) = .starting then
      strandReadyCheck (u - 0x20) (reqChange r .starting (openReq r s))
    else finishReq r .unitNotReady s
  else if isBuf u then (if st = .service then reqDone r .ready s else finishReq r .unitNotReady s)
  else finishReq r .unitNotReady s

/-- UNIT_REQUEST_READY. -/
def unitReadyEff (s : State) : State := takeReq .request 0x03 readyReq s

/-! ### SERVICE -/

/-- Held write data that no knot has applied yet. -/
def heldLeft (s : State) : Bool := s.media.held.any (fun h => decide (h.stage ≠ .applied))

/-- A carriage does not serve. -/
def carMissing (s : State) : Bool := allCars.any (fun c => !serving s (uCar c))

/-- UNIT_REQUEST SERVICE once taken and checked: a serving carriage or spindle drains first, a buffer channel as R580
gives. -/
def serviceReq (r : UnitReq) (s : State) : State :=
  let u := r.unit
  let st := ust s u
  if st = .suspect then finishReq r .unitSuspect s
  else if heldBackUnit s u then finishReq r .unitNotReady s
  else if st = .absent || st = .faulted then finishReq r .unitNotReady s
  else if st = .service then finishReq r .success s
  else if isBuf u then
    if heldLeft s && carMissing s then finishReq r .unitNotReady s
    else sealAll (modDisc (fun d => { d with commitAll := true }) { s with unt := { s.unt with bufService := s.unt.bufService ++ [r] } })
  else if st.serves then reqChange r .draining (openReq r s)
  else if st = .draining then openReq r s
  else reqDone r .service s

/-- UNIT_REQUEST_SERVICE. -/
def unitServiceEff (s : State) : State := takeReq .request 0x07 serviceReq s

/-- Every command but the request has ended. -/
def othersEnded (s : State) (r : UnitReq) : Bool :=
  (cmds s).all (fun e => e.2.state == .ended || (match r.sender with | .ring t => e.1 == t | _ => false))

/-- The commit of all held data ends where no drain asks for it any more. -/
def commitOff (s : State) : State :=
  if s.unt.bufService.isEmpty && ust s uDisc ≠ .draining then modDisc (fun d => { d with commitAll := false }) s else s

/-- BUFFER_CHANNEL_SERVICE_READY (R580): once every other command has ended and no write data is held, the channel enters
SERVICE and fetching resumes; held data that cannot be committed ends the request with UNIT_NOT_READY. -/
def bufServiceReadyEff (s : State) : State :=
  match s.unt.bufService with
  | [] => s
  | r :: rest =>
    let pop (s : State) : State := commitOff { s with unt := { s.unt with bufService := rest } }
    if ust s r.unit = .faulted then pop (finishReq r .unitNotReady s)
    else if heldLeft s then (if carMissing s then pop (finishReq r .unitNotReady s) else s)
    else if !othersEnded s r then s
    else pop (reqDone r .service s)

/-! ### The end of a drain (Table 16-2) -/

/-- The pass cycle or pre-read of a carriage has ended. -/
def passOver (s : State) (c : Nat) : Bool := !inPass (wcar s c)

/-- No seek runs on a carriage. -/
def noSeek (s : State) (c : Nat) : Bool := (carOfS s c).seek.isNone && (carOfS s c).pending.isNone

/-- What a draining unit still waits for has ended. -/
def drainOver (s : State) (u : Nat) : Bool :=
  if isCar u then passOver s (u - 4) && noSeek s (u - 4)
  else if u = uSpindle then allCars.all (fun c => passOver s c && noSeek s c)
  else if isStrand u then passOver s ((u - 0x20) / 8)
  else if isSide u then (allCars.filter (fun c => carSide c == u - 1)).all (passOver s)
  else if u = uDisc then allCars.all (passOver s) && (!heldLeft s || carMissing s)
  else true

/-- DRAIN_COMPLETE for requests: the oldest open request of the unit decides between OFFLINE and SERVICE. -/
def drainForReqs (u : Nat) (s : State) : State :=
  match s.unt.open_.find? (fun r => r.unit == u && (r.code == 0x01 || r.code == 0x07)) with
  | some r =>
    if r.code = 0x01 then
      let s := reqChange r .offline s
      if isCar u then carDown (u - 4) s
      else if u = uSpindle then spnStopEff (flag s Fld.SPN_CTRL_STOP_COAST) s
      else if u = uDisc then commitOff (discDown .request s) else s
    else reqChange r .service s
  | none => s

/-! ### SUSPECT (R35, R508) -/

/-- A unit leaves SUSPECT for the state that its sensing and its drives give, through STARTING where it serves. -/
def leaveSuspect (why : Reason) (present : Bool) (u : Nat) (s : State) : State :=
  let prev := (unitOf s u).prev
  if !present then
    let s := change u .absent why s
    if isCar u then carDown (u - 4) s else if u = uDisc then discDown why s else s
  else match prev with
    | .absent => change u .offline why s
    | .offline => change u .offline why s
    | .faulted => change u .faulted why s
    | .service => change u .service why s
    | _ =>
      let s := change u .starting why s
      if isCar u then carReadyCheck (u - 4) s
      else if isStrand u then strandReadyCheck (u - 0x20) s
      else if u = uDisc then (if s.media.disc.mounted || s.media.disc.importMode then change uDisc .ready why s else s)
      else if u = uPartner then partnerTo (partnerGrade s) why .internal 0 false s
      else s

/-- The sensed presence of a unit (Table 17-7); answers says that a carriage answered the DRV_ID read. -/
def sensedNow (s : State) (u : Nat) (answers : Bool) : Bool :=
  if u = uDisc then discSensed s else if isCar u then answers else partnerSensed s

/-- An assertion once taken and checked (R508). -/
def assertReq (claim answers : Bool) (r : UnitReq) (s : State) : State :=
  let u := r.unit
  let st := ust s u
  let e := unitOf s u
  let sensed := sensedNow s u answers
  if st = .suspect && e.doubt = .watchdog then finishReq r .unitSuspect s
  else if st = .suspect then
    if claim = sensed then finishReq r .success (leaveSuspect .conflict sensed u s) else finishReq r .success s
  else if claim = sensed then
    let s := if isCar u && claim && st = .absent then change u .offline .probe s
      else if isCar u && !claim && st ≠ .absent then carDown (u - 4) (change u .absent .sensor s)
      else s
    finishReq r .success s
  else
    let s := suspectUnit u .conflict .conflict claim s
    let s := evt Fld.UNT_EVT_STATE_CONFLICT u [⟨1, u⟩, ⟨1, r.code⟩, ⟨1, if sensed then 1 else 0⟩] (bump Reg.UNT_CNT 4 s)
    finishReq r .success s

/-- ASSERT_PRESENT and ASSERT_ABSENT; answers is the outcome of the DRV_ID read that one for a carriage triggers. -/
def assertPresentEff (answers : Bool) (s : State) : State := takeReq .request 0x10 (assertReq true answers) s
def assertAbsentEff (answers : Bool) (s : State) : State := takeReq .request 0x11 (assertReq false answers) s

/-! ### Queries (R362, R506) -/

/-- UNIT_QUERY: the unit report, whatever the unit. -/
def unitQueryEff (s : State) : State :=
  match headReq s with
  | some r => if r.kind = .query then finishReq r .success (takeHead r s) else s
  | none => s

/-- The volume report (Table 11-9); for an ABSENT volume every field but STATE and EPOCH is 0. -/
def volumeReport (s : State) (v : Nat) : List Byte :=
  let x := if ust s (uVol v) = .absent then ({} : Volume) else volOf s v
  let fl := (if x.readOnly then 1 else 0) + (if x.closed then 2 else 0) + (if x.chainEnded then 4 else 0)
  leBytes 8 x.blocks ++ leBytes 1 x.compMode ++ leBytes 1 x.compLevel ++ leBytes 1 (ust s (uVol v)).code ++ leBytes 1 fl ++
    leBytes 4 (unitOf s (uVol v)).epoch.toNat ++ leBytes 8 x.highGen ++ leBytes 8 x.knotSeq ++ slice x.label 0 16 ++ List.replicate 16 0

/-- VOLUME_INFO: the report goes to DATA_ADDR of the command. -/
def volumeInfoEff (s : State) : State :=
  match headReq s with
  | some r =>
    if r.kind ≠ .info then s
    else
      let s := takeHead r s
      match r.sender with
      | .ring t =>
        match cmdOf s t with
        | some c =>
          let b := volumeReport s (r.unit - 0x40)
          let s := if c.detached || c.silent then s
            else if c.remote then emit (.jokor 0x21 (t :: b.map (·.toNat))) s else emit (.hostWrite c.fn c.cmd.dataAddr b) s
          endCmd t .success 0 s
        | none => s
      | _ => s
  | none => s

/-! ### The policy firmware (R34, R35, R471, R508) -/

/-- The firmware submits a request with the present epoch. -/
def policyReq (u code : Nat) (s : State) : State :=
  { s with unt := { s.unt with waiting := s.unt.waiting ++ [{ kind := .request, unit := u, code := code, epoch := (unitOf s u).epoch.toNat, sender := .policy }] } }

/-- READY requested for the spindle, and for every bound carriage once a disc is present, from S7 on (R471). -/
def policyStarts (s : State) : State :=
  if stage s = 7 && isOwner s && s.pwr.policyRunning && !s.img.heldBack then
    let s := policyReq uSpindle 0x03 s
    if ust s uDisc = .absent then s else forEach (fun c s => policyReq (uCar c) 0x03 s) (boundCars s) s
  else s

/-- SPN_START and SPN_STOP: requests for the spindle with the present epoch (R303). -/
def spnStartReq (s : State) : State := policyReq uSpindle 0x03 s
def spnStopReq (s : State) : State := policyReq uSpindle 0x01 s

/-- The disc is sensed absent: disc and sides ABSENT, the spindle stops coasting, every bound carriage that is not FAULTED
goes OFFLINE with its strands (R500). -/
def discGone (s : State) : State :=
  let was := s.media.disc.mounted
  let s := if ust s uDisc = .faulted then s else change uDisc .absent .sensor s
  let s := forEach (fun k s => change (uSide k) .absent .sensor s) [0, 1] s
  let s := if was then spnStopEff true (spnUnit .offline .sensor s) else s
  let s := forEach (fun c s =>
    if ust s (uCar c) = .faulted || ust s (uCar c) = .absent then s
    else
      let s := change (uCar c) .offline .sensor (stopWriteNow c s)
      carriageDark c (forEach (fun g s => if ust s (uStrand g) = .faulted || ust s (uStrand g) = .absent then s
        else change (uStrand g) .offline .sensor s) (strandsOf s c) s)) (boundCars s) s
  unmount s

/-- DISC_PRESENT_CHANGE: DISC_PRESENT and the cartridge sensors after their 20 ms filter, as active or not and as levels. -/
def discPresentEff (active : Bool) (carts : List Bool) (s : State) : State :=
  let s := { s with pwr := { s.pwr with discActive := active, cartSns := (carts ++ s.pwr.cartSns.drop carts.length).take 4 } }
  if stage s < 6 || halted s || !isOwner s then s
  else
    let now := discSensed s
    let st := ust s uDisc
    if st = .suspect then
      if (unitOf s uDisc).asserted = now then
        let s := leaveSuspect .conflict now uDisc s
        if now then s else discGone s
      else s
    else if !now && st ≠ .absent then discGone s
    else if now && st = .absent then
      let s := change uDisc .offline .sensor s
      let s := forEach (fun k s => change (uSide k) .offline .sensor s) [0, 1] s
      policyStarts s
    else s

/-- POLICY_WATCHDOG_EXPIRY: serving carriages and strands become SUSPECT, write gates stop at the next sector boundary, the
spindle holds its set-point, and the complex restarts, but for a second expiry within 60 s of a restart (R34, R35). -/
def watchdogEff (s : State) : State :=
  if stage s < 6 || halted s || s.pwr.policyHeld then s
  else
    let us := ((boundCars s).map uCar ++ (boundCars s).flatMap (fun c => (strandsOf s c).map uStrand)).filter (fun u => (ust s u).serves)
    let s := forEach (fun u s => suspectUnit u .watchdog .watchdog false s) us s
    let s := forEach stopAtSlot allCars s
    let s := modSpn (fun p => { p with hold := true }) s
    let again : Bool := match s.pwr.wdogLast with | some t => decide (s.pwr.time < t + 60000000000) | none => false
    let s := { s with pwr := { s.pwr with wdogUnits := us, policyHeld := again, policyRunning := !again, wdogLast := some s.pwr.time } }
    evt Fld.UNT_EVT_WATCHDOG noUnit [] s

/-- WATCHDOG_RESTART_REQUEST: the restarted firmware brings back each unit that the watchdog set SUSPECT (R35). -/
def watchdogRestartEff (s : State) : State :=
  if s.pwr.policyHeld then s
  else
    let us := s.pwr.wdogUnits.filter (fun u => decide (ust s u = .suspect) && decide ((unitOf s u).doubt = .watchdog))
    let s := { s with pwr := { s.pwr with wdogUnits := [] } }
    let s := modSpn (fun p => { p with hold := false }) s
    let s := forEach (fun u s => change u .starting .watchdog s) us s
    let s := forEach (fun u s => if isCar u then carReadyCheck (u - 4) s else s) us s
    let s := forEach (fun u s => if isStrand u then strandReadyCheck (u - 0x20) s else s) us s
    arbitrate s

end Sys2Proof.Machine
end

