-- ==== Sys2Proof/Machine/Health.lean ====
section
/-! DEFINITION. Halting, and instances taken out of service by a failed memory or checker (R467, R469, R493). -/

namespace Sys2Proof.Machine

/-- Every safe output goes to high impedance (R462). -/
def releaseOutputs (s : State) : State := { s with pins := { ownN := s.pins.ownN, peerReset := s.pins.peerReset } }

/-- The controller halts: 1 ROM_CHECK, 2 BIST, 3 DDR_TRAIN (R469). -/
def halt (cause : Nat) (s : State) : State :=
  releaseOutputs (setF Fld.GLB_STATUS_HALT_CAUSE cause (setF Fld.GLB_STATUS_HALT 1 s))

/-- A GLB event names the stage (R476). -/
def glbEvt (f : Fld) (more : List Item) (s : State) : State := evt f noUnit (⟨1, stage s⟩ :: more) s

/-- An instance is taken out of service (Table 15-6). -/
def degraded (group inst : Nat) (s : State) : State := glbEvt Fld.GLB_EVT_BIST_DEGRADED [⟨1, group⟩, ⟨1, inst⟩] s

/-- The outcome of a failed memory by its group (Table 15-6): groups 1 to 5 halt; a skein engine leaves its fellow alone; LDPC
engines, re-detect units and hank engines leave service; a strand and the partner are FAULTED from S6 on. -/
def bistOut (group inst : Nat) (s : State) : State :=
  let mask (m : Nat) : Nat := m ||| (2 ^ inst)
  if group ≤ 5 then halt 2 s
  else if group = 6 then
    let s := { s with pool := { s.pool with sengDead := mask s.pool.sengDead } }
    if s.pool.sengDead % 4 = 3 then halt 2 s else degraded group inst s
  else if group = 7 then degraded group inst { s with pool := { s.pool with engDead := mask s.pool.engDead } }
  else if group = 8 then degraded group inst { s with pool := { s.pool with redetDead := mask s.pool.redetDead } }
  else if group = 9 then
    let f (e : HankEng) : HankEng := { e with faulted := true, bistFailed := true }
    degraded group inst { s with media := { s.media with hank := { s.media.hank with engines := modAt inst f s.media.hank.engines } } }
  else if group = 10 then
    let s := degraded group inst s
    if 6 ≤ stage s && bound s (uStrand inst) && ust s (uStrand inst) ≠ .absent then
      carGradeCheck .integrity (inst / 8) (change (uStrand inst) .faulted .integrity s)
    else s
  else
    let s := degraded group inst s
    if 6 ≤ stage s && pairEn s then partnerTo .faulted .integrity .internal 0 false s else s

end Sys2Proof.Machine
end

