-- ==== Sys2Proof/Machine/Calib.lean ====
section
/-! DEFINITION. Calibrations and self-tests (R477 to R496): their taking, their drain, what each kind makes of its
measurements, and their ends. -/

namespace Sys2Proof.Machine

/-! ### Taking (R478, R479) -/

/-- Step 3 of R478: the states of Table 16-1. -/
def calStateOk (s : State) (r : UnitReq) : Bool :=
  let st := ust s r.unit
  if r.kind = .calibrate then
    if r.code = 6 then st = .ready || st = .starting || st = .offline || st = .service else st.serves || st = .service
  else if r.code = 1 then st.serves || st = .service
  else if r.code = 2 then st ≠ .faulted && st ≠ .absent
  else st = .service

/-- Step 4 of R478: for a carriage kind, the other carriages and the spindle serve. -/
def calOthersOk (s : State) (r : UnitReq) : Bool :=
  !(r.kind = .calibrate && r.code ≤ 5) ||
    ((allCars.filter (fun c => uCar c ≠ r.unit)).all (fun c => (ust s (uCar c)).serves) && decide (ust s uSpindle = .ready))

/-- The run that a request begins, with the scope and the limits as they stand. -/
def newRun (s : State) (r : UnitReq) : CalRun :=
  let c := r.unit - 4
  let sc := (getReg s Reg.CAL_SCOPE).toNat
  let zs := (zonesOf c).filter (fun z => ((zonesOf c).headD 0 + bits sc 8 6 % 32 ≤ z) && (z < (zonesOf c).headD 0 + bits sc 8 6 % 32 + bits sc 0 4))
  { op := if r.kind = .calibrate then opCalibrate else opSelfTest, code := r.code, unit := r.unit, req := r,
    byReq := decide (ust s r.unit = .service), lf := 16 * carSide c + bits sc 16 5 % 16, zones := zs,
    chnCfg := getReg s Reg.CAL_CHN_CFG, wpcCfg := getReg s Reg.CAL_WPC_CFG, mechCfg := getReg s Reg.CAL_MECH_CFG }

/-- Adds a run. -/
def addRun (x : CalRun) (s : State) : State := { s with cal := { s.cal with running := s.cal.running ++ [x] } }

/-- Changes a run. -/
def modRun (x : CalRun) (f : CalRun → CalRun) (s : State) : State :=
  { s with cal := { s.cal with running := s.cal.running.map (fun y => if y = x then f y else y) } }

/-- A run starts in SERVICE: its number, its time limit, and the speed or the stop that it asks for (R480 to R482). -/
def startRun (x : CalRun) (s : State) : State :=
  let cal := x.op = opCalibrate
  let s := if cal then bumpBy Reg.CAL_LAST_RUN 1 s else s
  let run := if cal then (getReg s Reg.CAL_LAST_RUN).toNat else 0
  let s := modRun x (fun y => { y with started := true, since := s.pwr.time, run := run }) s
  if !cal then s
  else if x.unit = uSpindle then spnStopEff false s
  else arbitrate (modSpn (fun p => { p with calib := some (nRpm p) }) s)

/-- A calibration or self-test once taken and checked: at once where SERVICE is held or the unit is not drained, and through
DRAINING otherwise (Table 16-2). -/
def calReq (r : UnitReq) (s : State) : State :=
  if !calStateOk s r || heldBackUnit s r.unit || !calOthersOk s r then finishReq r .unitNotReady s
  else
    let x := newRun s r
    let s := addRun x s
    if x.op = opSelfTest then startRun x (if r.code = 3 then setHold r.unit true s else s)
    else if x.byReq then startRun x (setHold r.unit true s)
    else changeUnit r.unit .draining .calibration (srcOf r) r.acceptSeq s

/-- CALIBRATE and SELF_TEST, one row per kind. -/
def calibrateEff (code : Nat) (s : State) : State := takeReq .calibrate code calReq s
def selfTestEff (code : Nat) (s : State) : State := takeReq .selfTest code calReq s

/-- DRAIN_COMPLETE: a draining unit enters SERVICE for the calibration that drains it, or goes where its requests take it. -/
def drainCompleteEff (u : Nat) (s : State) : State :=
  if ust s u ≠ .draining || !drainOver s u then s
  else match s.cal.running.find? (fun x => x.unit == u && !x.started && x.op == opCalibrate) with
    | some x => startRun x (change u .service .calibration (setHold u true s))
    | none => drainForReqs u s

/-! ### Ends (R480, R482, R483) -/

/-- Puts the quality figures (Table 16-7). -/
def figures (q0 q1 : Nat) (s : State) : State :=
  setReg Reg.CAL_LAST_Q1 (BitVec.ofNat 32 q1) (setReg Reg.CAL_LAST_Q0 (BitVec.ofNat 32 q0) s)

/-- A run ends: recorded, its unit out of SERVICE where the calibration had put it there, its completion posted; a SPINDLE
calibration starts the drive, and completes once the spindle is READY. -/
def endRun (x : CalRun) (st : Status) (outcome : Nat) (s : State) : State :=
  let s := setHold x.unit false s
  if x.unit = uSpindle then
    let s := modSpn (fun p => { p with calib := none }) (if (spn s).phase = .fault then s else spnStopped s)
    if x.byReq then finishReq x.req st (calRecord x st outcome (spnStartEff s))
    else
      let s := modRun x (fun y => { y with ending := some (st.good, outcome) }) s
      spnStartEff (change uSpindle .starting .calibration s)
  else
    let s := calRecord x st outcome s
    let s := if x.byReq || x.op = opSelfTest then s else change x.unit .starting .calibration s
    let s := if isCar x.unit then carReadyCheck (x.unit - 4) s else s
    finishReq x.req st (arbitrate s)

/-- Whether results are applied: CAL_CTRL.APPLY_OFF is 0 (R483). -/
def applies (s : State) : Bool := !flag s Fld.CAL_CTRL_APPLY_OFF

/-- Ends a calibration that measured: accepted, or rejected with the status of its kind (Table 16-3). -/
def endMeasured (x : CalRun) (ok : Bool) (reject : Status) (s : State) : State :=
  if ok then endRun x .success (if applies s then 1 else 2) s else endRun x reject 3 s

/-- A record that a calibration writes (CAL_CNT[6]). -/
def calWrite (typ index : Nat) (payload : List Byte) (s : State) : State := bump Reg.CAL_CNT 6 (askMram typ index payload s)

/-! ### CHANNEL (R484, R485) -/

/-- Sum of a value over slots. -/
def sumOver (f : ChanSlot → Int) (l : List ChanSlot) : Int := sumI (l.map f)

/-- A mean of values in 2^-24, times k, rounded to nearest. -/
def meanTimes (k : Int) (l : List Int) : Int := roundDiv (k * sumI l) (0x1000000 * max 1 l.length)

/-- A byte of a seed from a signed value within limits. -/
def seedByte (lo hi v : Int) : List Byte := leBytes 1 (unsigned 8 (clampI lo hi v))

/-- The new seed of a strand (Table 16-4) from the first 64 decoded slots; what is kept comes from the present one. A
condition without bits has no figure of its own: its bytes are free values. -/
def newSeed (s : State) (old : List Byte) (k : Nat) (slots : List ChanSlot) : List Byte :=
  let one (f : ChanSlot → Int) : Int := meanTimes 1 (slots.map f)
  let tap (f : ChanSlot → List Int) (i : Nat) (m : Int) : Int := meanTimes m (slots.map (fun t => nth (f t) i))
  let np (c : Nat) : List Byte :=
    let num := sumOver (fun t => nth t.npNum c) slots
    let den := sumOver (fun t => nth t.npDen c) slots
    let wn := sumN (slots.map (fun t => t.wN.getD c 0))
    let ws := sumN (slots.map (fun t => t.wSq.getD c 0))
    let b0 := if den ≤ 0 then [Config.freeByte s.free (2 * c)] else seedByte (-128) 127 (roundDiv (128 * num) den.toNat)
    let b1 := if wn = 0 then [Config.freeByte s.free (2 * c + 1)]
      else leBytes 1 (min 255 ((2 * sqrtN (256 * ws / wn) + 0x1000000) / 0x2000000))
    b0 ++ b1
  leBytes 1 (clampI 0 240 (one (·.vga))).toNat ++ slice old 1 2 ++ seedByte (-64) 63 (one (·.ofs)) ++
    seedByte (-32) 32 (one (·.asym)) ++ slice old 5 3 ++
    (List.range 17).flatMap (fun i => if i = 8 then slice old 16 1 else seedByte (-128) 127 (tap (·.eq) i 64)) ++ slice old 25 1 ++
    (List.range 5).flatMap (fun i => if k = 0 then [0#8] else seedByte (-128) 127 (tap (·.xtl) i 128)) ++
    (List.range 5).flatMap (fun i => if k = 7 then [0#8] else seedByte (-128) 127 (tap (·.xtr) i 128)) ++
    slice old 36 8 ++ (List.range 8).flatMap np ++ slice old 60 4

/-- The greatest n from lo on, over `steps` halvings of 2^bits, with 10^n · b^k ≤ a^k: floor(k · log10(a / b)). -/
def logSearch (k a b : Nat) : Nat → Int → Int
  | 0, lo => lo
  | n + 1, lo =>
    let mid := lo + (2 ^ n : Nat)
    let fits := if 0 ≤ mid then decide (10 ^ mid.toNat * b ^ k ≤ a ^ k) else decide (b ^ k ≤ a ^ k * 10 ^ (-mid).toNat)
    logSearch k a b n (if fits then mid else lo)

/-- floor(k · log10(a / b)), between -2^14 and 2^14 - 1. -/
def logRatio (k a b : Nat) : Int := logSearch k a b 15 (-16384)

/-- TARGET of a seed, squared and summed. -/
def targetPower (seed : List Byte) : Nat := sumN ((List.range 5).map (fun i => (signed 8 (leAt seed (39 + i) 1)).natAbs ^ 2))

/-- The SNR margin of a strand in 0.01 dB, rounded down (R485); a mean MSE of 0 has no logarithm, and the figure is free. -/
def snrMargin (s : State) (seed : List Byte) (req : Nat) (slots : List ChanSlot) : Int :=
  let m := sumN (slots.map (·.mse))
  if m = 0 then signed 16 (Config.freeWord s.free).toNat
  else logRatio 1000 (16 * slots.length * targetPower seed) m - (req : Int)

/-- The BER exponent with LOWER_BOUND (R485). -/
def berExponent (slots : List ChanSlot) : Nat × Bool :=
  let d := sumN (slots.map (·.diff))
  let n := max 1 (sumN (slots.map (·.bits)))
  if d = 0 then ((logRatio 10 n 1).toNat, true) else ((logRatio 10 n d).toNat, false)

/-- What became of a strand in a zone: its number in the ply, its margin, its exponent and the seed that it takes, or none
where it keeps its present one. -/
structure StrandCal where
  k : Nat
  margin : Int
  ber : Nat × Bool
  seed : Option (List Byte)

/-- The outcome of one strand in one zone; none without 64 decoded slots. -/
def strandCal (s : State) (x : CalRun) (zone : Nat) (m : ChanStrand) : Option StrandCal :=
  let k := m.strand % 8
  if m.first.length < 64 then none
  else
    let old := (seedOf (zoneBlock s x.lf zone) x.lf zone k).1
    let fresh := newSeed s old k (m.first.take 64)
    let sl := m.second.take 64
    let margin := snrMargin s fresh (bits x.chnCfg.toNat 16 16) sl
    some { k := k, margin := margin, ber := berExponent sl,
           seed := if signed 16 x.chnCfg.toNat ≤ margin then some fresh else none }

/-- A zone's new block: the accepted strands' seeds in place of the old ones, with the run number as SEED_TAG. -/
def calBlock (s : State) (x : CalRun) (zone : Nat) (cs : List StrandCal) : List Byte :=
  let b := slice (zoneBlock s x.lf zone).bytes 0 528
  let put (b : List Byte) (c : StrandCal) : List Byte := match c.seed with
    | some sd => patch (patch b (16 + 64 * c.k) sd) 1 (leBytes 1 ((b.getD 1 0).toNat ||| 2 ^ c.k))
    | none => b
  patch (patch (cs.foldl put b) 0 [1#8]) 4 (leBytes 4 x.run)

/-- Applies a zone's block to the zone table and to its MRAM record. -/
def applyZone (x : CalRun) (e : Nat × List StrandCal) (s : State) : State :=
  let b := calBlock s x e.1 e.2
  let s := { s with chn := { s.chn with zoneTable := Tbl.put {} (zoneKey x.lf e.1) { src := .mram, bytes := b } s.chn.zoneTable } }
  let id := match s.img.running with | some i => i.zonesSetId | none => 0
  calWrite 0x10 (64 * x.lf + e.1) (leBytes 4 id ++ leBytes 1 x.lf ++ leBytes 1 e.1 ++ [0#8, 0#8] ++ b) s

/-- The least margin and the least exponent of some strands. -/
def leastOf (cs : List StrandCal) : Option (Int × Nat × Bool) :=
  cs.foldl (fun a c => match a with
    | none => some (c.margin, c.ber)
    | some (m, e) => some (min m c.margin, if c.ber.1 < e.1 then c.ber else e)) none

/-- A strand's figures in CAL_STRAND_Q, and 0 for one without. -/
def strandFigures (cs : List StrandCal) (k : Nat) (s : State) : State :=
  let v := match leastOf (cs.filter (fun c => c.k == k)) with
    | some (m, e) => unsigned 16 m * 0x10000 + (if e.2 then 0x8000 else 0) + e.1 % 0x8000
    | none => 0
  setReg (Reg.CAL_STRAND_Q + 4 * k) (BitVec.ofNat 32 v) s

/-- An accepted strand regains WRITE_OK, and a FAULTED one returns to STARTING (R485). -/
def acceptStrand (c k : Nat) (s : State) : State :=
  let s := modWcar c (fun w => { w with writeBad := if bit w.writeBad k then w.writeBad - 2 ^ k else w.writeBad }) s
  let g := 8 * c + k
  if ust s (uStrand g) = .faulted then change (uStrand g) .starting .calibration s else s

/-- The end of a CHANNEL calibration. -/
def endChannel (x : CalRun) (zs : List (List ChanStrand)) (s : State) : State :=
  let c := x.unit - 4
  let res := (x.zones.zip zs).map (fun e => (e.1, e.2.filterMap (strandCal s x e.1)))
  let all_ := res.flatMap (·.2)
  let ok := res.length == x.zones.length && res.all (fun e => e.2.any (fun c => c.seed.isSome))
  let s' := forEach (strandFigures all_) (List.range 8) (useFree s)
  let s' := match leastOf all_ with
    | some (m, e) => figures (unsigned 16 m) ((if e.2 then 0x8000 else 0) + e.1 % 0x8000) s'
    | none => figures 0 0 s'
  let s' := if ok && applies s then
      let s' := forEach (applyZone x) res s'
      forEach (acceptStrand c) ((List.range 8).filter (fun k => all_.any (fun c => c.k == k && c.seed.isSome))) s'
    else s'
  endMeasured x ok .mediumUnrecovered s'

/-! ### Servo (R486, R491, R492) -/

/-- The index of the least of some values, the first of equals. -/
def argmin (l : List Nat) : Nat :=
  ((l.zip (List.range l.length)).foldl (fun (a : Option (Nat × Nat)) e => match a with
    | none => some e
    | some b => if e.1 < b.1 then some e else some b) none).elim 0 (·.2)

/-- The focus offset and the aberration offset of step i (Q8.24): ±0.08 and ±0.10 over 9 values. -/
def focusStep (i : Nat) : Int := roundDiv ((2 * (i : Int) - 8) * one24) 100
def sabStep (i : Nat) : Int := roundDiv ((25 * (i : Int) - 100) * one24) 1000

/-- The standard cams of a carriage that a servo record names (Table 10-5, Table 16-5): focus and aberration against layer,
twist, tilt and focus against radius, each as (master, loop kind). -/
def servoCams (c : Nat) : List (Nat × Nat) := [(4 + c, 1), (4 + c, 5), (c, 4), (c, 3), (c, 1)]

/-- The image's cam of a master and a carriage's loop kind. -/
def boundCam (s : State) (c : Nat) (mk : Nat × Nat) : Option CamRec :=
  match s.img.running, slotOfKind s mk.2 c with
  | some i, some k => i.cams.find? (fun r => r.master == mk.1 && r.slaveKind == 1 && r.slaveIndex == k)
  | _, _ => none

/-- Linear interpolation over equally spaced values; beyond either end the nearer value. -/
def between (x0 step : Int) (vals : List Int) (x : Int) : Int :=
  let d := x - x0
  if d ≤ 0 || step ≤ 0 then nth vals 0
  else
    let i := (d / step).toNat
    if vals.length ≤ i + 1 then nth vals (vals.length - 1)
    else nth vals i + roundDiv ((nth vals (i + 1) - nth vals i) * (d % step)) step.toNat

/-- Writes a cam's shadow values and commits them: every point from the measured values. -/
def writeCam (r : CamRec) (x0 step : Int) (vals : List Int) (s : State) : State :=
  let pts := (List.range r.points).map (fun (p : Nat) => between x0 step vals (r.xStart + (p : Int) * (r.xStep : Nat)))
  let sh := (pts.zip (List.range r.points)).foldl (fun t e => Tbl.put 0 e.2 e.1 t) []
  modCam r.table (fun m => { m with active := pts, shadow := sh }) s

/-- Writes one part of a servo record into the cams that the image binds; CAM_BINDING marks one that it does not. run and
unit are those of the calibration, 0 at S6. -/
def writeServoCam (c idx : Nat) (x0 step : Int) (vals : List Int) (miss : State → State) (s : State) : State :=
  match boundCam s c ((servoCams c).getD idx (0, 0)) with
  | some r => writeCam r x0 step vals s
  | none => miss s

/-- The cam tables of a carriage's standard cams, 0xFF for none. -/
def servoTables (s : State) (c : Nat) : List Byte :=
  (servoCams c).map (fun mk => match boundCam s c mk with | some r => BitVec.ofNat 8 r.table | none => 0xFF#8)

/-- Values as 4-byte fields. -/
def q24s (l : List Int) : List Byte := l.flatMap (fun v => leBytes 4 (unsigned 32 v))

/-- The largest residual of each loop over the points. -/
def worstRms (ps : List ServoPoint) : List Nat := (List.range 4).map (fun i => (ps.map (fun p => p.rms.getD i 0)).foldl max 0)

/-- A servo record (Table 16-5) with one part rewritten and the other kept. -/
def servoRecord (s : State) (x : CalRun) (ps : List ServoPoint) : List Byte :=
  let c := x.unit - 4
  let old := slice ((mramPayload s 0x12 c).getD []) 0 384
  let layer := x.code == 2
  let parts := ((old.getD 2 0).toNat ||| (if layer then 1 else 2)) % 4
  let b := patch old 0 ([1#8, BitVec.ofNat 8 c, BitVec.ofNat 8 parts, 0#8] ++ leBytes 4 x.run ++ servoTables s c)
  let rms := (worstRms ps).flatMap (fun v => leBytes 2 (min 65535 v))
  let b := patch b 356 rms
  if layer then
    patch b 16 (q24s (ps.map (fun p => focusStep (argmin p.focusMse))) ++ q24s (ps.map (fun p => sabStep (argmin p.sabMse))))
  else
    patch b 144 (q24s [(ps.headD {}).pos, one24] ++ q24s (ps.map (·.twist)) ++ q24s (ps.map (·.tilt)) ++
      q24s (ps.map (fun p => focusStep (argmin p.focusMse))))

/-- The end of a servo calibration: accepted with every residual below 40 nm at every point. -/
def endServo (x : CalRun) (ps : List ServoPoint) (s : State) : State :=
  let c := x.unit - 4
  let ok := ps.length == (if x.code = 2 then 16 else 17) && ps.all (fun p => p.rms.all (fun v => decide (v < 400)))
  let w := worstRms ps
  let s' := figures (min 65535 (w.getD 1 0) * 0x10000 + min 65535 (w.getD 0 0)) (min 65535 (w.getD 3 0) * 0x10000 + min 65535 (w.getD 2 0)) s
  let miss : State → State := calEvt Fld.CAL_EVT_CAM_BINDING x .success
  let foc := ps.map (fun p => focusStep (argmin p.focusMse))
  let x0 := (ps.headD {}).pos
  let s' := if ok && applies s then
      let s' := calWrite 0x12 c (servoRecord s' x ps) s'
      if x.code = 2 then
        writeServoCam c 1 0 one24 (ps.map (fun p => sabStep (argmin p.sabMse))) miss (writeServoCam c 0 0 one24 foc miss s')
      else
        writeServoCam c 4 x0 one24 foc miss (writeServoCam c 3 x0 one24 (ps.map (·.tilt)) miss
          (writeServoCam c 2 x0 one24 (ps.map (·.twist)) miss s'))
    else s'
  endMeasured x ok .mediumUnrecovered s'

/-- The 4-byte values of a record from an offset on. -/
def q24At (b : List Byte) (o n : Nat) : List Int := (List.range n).map (fun i => signed 32 (leAt b (o + 4 * i) 4))

/-- At S6 a valid servo record goes into the cams that it names, where the image binds each to the same master and slave;
CAM_BINDING is set where it does not (R492). -/
def loadServo (c : Nat) (s : State) : State :=
  match mramPayload s 0x12 c with
  | none => readRec 0x12 c s
  | some b =>
    let ok (i : Nat) : Bool := b.getD (8 + i) 0 == 0xFF#8 || b.getD (8 + i) 0 == (servoTables s c).getD i 0xFF#8
    let names (i : Nat) : Bool := b.getD (8 + i) 0 != 0xFF#8
    let parts := (b.getD 2 0).toNat
    let part (on : Bool) (is : List Nat) (x0 : Int) (vals : Nat → List Int) (s : State) : State :=
      if !on then s
      else if is.all ok then forEach (fun i s => if names i then writeServoCam c i x0 one24 (vals i) id s else s) is s
      else evt Fld.CAL_EVT_CAM_BINDING (uCar c) [⟨1, uCar c⟩, ⟨1, 0⟩, ⟨4, leAt b 4 4⟩, ⟨1, 0⟩] s
    let s := part (bit parts 0) [0, 1] 0 (fun i => if i = 0 then q24At b 16 16 else q24At b 80 16) s
    part (bit parts 1) [2, 3, 4] (signed 32 (leAt b 144 4))
      (fun i => if i = 2 then q24At b 152 17 else if i = 3 then q24At b 220 17 else q24At b 288 17) s

/-! ### WRITE_POWER (R487, R488) -/

/-- β of a step in 10^-9; without a difference between top and bottom the spec states none, and it is a free value. -/
def beta9 (s : State) (p : PowerStep) : Int :=
  let d := p.top - p.bottom
  if d = 0 then signed 32 (Config.freeWord s.free).toNat
  else if 0 < d then roundDiv ((p.top + p.bottom) * 1000000000) d.toNat
  else roundDiv (-((p.top + p.bottom) * 1000000000)) (-d).toNat

/-- The power of step i in 10^-11 mW for a nominal power in 0.01 mW: N × (0.70 + 0.075 i). -/
def stepPower (n i : Nat) : Int := ((n * (700 + 75 * i) * 1000000 : Nat) : Int)

/-- A value interpolated between two, at the fraction num / den of the way. -/
def lerp (a b num : Int) (den : Nat) : Int := if den = 0 then a else a + roundDiv ((b - a) * num) den

/-- The first pair of adjacent steps whose β brackets the target, as (i, the way from i as num / den). -/
def bracket (t : Int) : Nat → List Int → Option (Nat × Int × Nat)
  | i, a :: b :: l =>
    if a ≤ t && t ≤ b then some (i, t - a, (b - a).toNat)
    else if b ≤ t && t ≤ a then some (i, a - t, (a - b).toNat)
    else bracket t (i + 1) (b :: l)
  | _, _ => none

/-- The means of some lists, value by value, over 9 steps. -/
def means (ls : List (List Int)) : List Int := (List.range 9).map (fun i => roundDiv (sumI (ls.map (fun l => nth l i))) (max 1 ls.length))

/-- What a write-power calibration finds. -/
structure PowerFound where
  scale : Int
  trims : List Int
  jitter : Int
  beta : Int
  betas : List Int

/-- PEAK_SCALE, the trims, the jitter and β at P, from the steps of each strand (R487, steps 3 to 5); none without a bracket
for every strand. -/
def powerFind (s : State) (t : Int) (n : Nat) (ss : List (List PowerStep)) : Option PowerFound :=
  let bs := ss.map (fun l => l.map (beta9 s))
  let mean := means bs
  match bracket t 0 mean with
  | none => none
  | some (i, num, den) =>
    let p := lerp (stepPower n i) (stepPower n (i + 1)) num den
    let ks := bs.map (fun l => (bracket t 0 l).map (fun e => lerp (stepPower n e.1) (stepPower n (e.1 + 1)) e.2.1 e.2.2))
    if ks.any (·.isNone) || p ≤ 0 || n = 0 then none
    else
      let jit := means (ss.map (fun l => l.map (fun x => (x.jitter : Int))))
      some { scale := roundDiv p (n * 1000000),
             trims := ks.map (fun k => clampI (-40) 40 (roundDiv (200 * (k.getD 0 - p)) p.toNat)),
             jitter := lerp (nth jit i) (nth jit (i + 1)) num den,
             beta := lerp (nth mean i) (nth mean (i + 1)) num den,
             betas := bs.map (fun l => lerp (nth l i) (nth l (i + 1)) num den) }

/-- The end of a write-power calibration. -/
def endPower (x : CalRun) (exhausted : Bool) (ss : List (List PowerStep)) (s : State) : State :=
  let c := x.unit - 4
  let s := bumpBy (Reg.CAL_CNT + 28) (26 * ss.length) s
  if exhausted then endRun x .mediumFull 4 s
  else
    let zone := (zonesOf c).headD 0
    let layer := x.lf % 16
    let rec_ := strategyOf s c layer
    let nom := s.media.disc.writeNominal.getD zone 0
    let n := if nom = 0 then leAt rec_ 4 2 else nom
    let t := signed 16 (bits x.wpcCfg.toNat 16 16) * 1000000
    match powerFind s t n ss with
    | none => endMeasured x false .mediumUnrecovered (useFree s)
    | some f =>
      let ok := decide (500 ≤ f.scale) && decide (f.scale ≤ 1500) && decide (f.jitter ≤ ((bits x.wpcCfg.toNat 8 8 * 100 : Nat) : Int))
      let s := figures (unsigned 16 f.scale * 0x10000 + unsigned 16 (roundDiv f.beta 1000000)) (unsigned 16 (roundDiv f.jitter 100)) (useFree s)
      let s := forEach (fun e s => setReg (Reg.CAL_STRAND_Q + 4 * e.2)
          (BitVec.ofNat 32 (unsigned 16 (roundDiv (nth f.betas e.2) 1000000) * 0x10000 + unsigned 8 e.1)) s)
        (f.trims.zip (List.range 8)) s
      let s := if ok && applies s then
          let b := patch rec_ 2 (leBytes 2 f.scale.toNat)
          let b := (f.trims.zip (List.range 8)).foldl (fun b e => patch b (12 + e.2) (leBytes 1 (unsigned 8 e.1))) b
          settle (grantFresh (fun k => k.failCars.contains c) (calWrite 0x11 (16 * c + layer) b s))
        else s
      endMeasured x ok .mediumUnrecovered s

/-! ### SLED_HOME and SPINDLE (R489, R490, R492) -/

/-- The end of a sled home calibration: r in 2^-24 µm after each homing. -/
def endSled (x : CalRun) (rs : List Int) (s : State) : State :=
  let c := x.unit - 4
  let radius := roundDiv (sumI rs) (max 1 rs.length * 0x1000000)
  let hi := rs.foldl max (nth rs 0)
  let lo := rs.foldl min (nth rs 0)
  let spread := roundDiv ((hi - lo) * 10) 0x1000000
  let old := getReg s (Reg.CRG_HOME_RADIUS + 0x200 * c)
  let s' := setReg (Reg.CRG_HOME_RADIUS + 0x200 * c) (BitVec.ofNat 32 (unsigned 16 radius)) s
  let stroke : Int := match s.img.running with
    | some i => ((i.motors.sleds.getD c default).strokeLimit : Int) * 4294967296
    | none => 0
  let reach (t : Nat) : Bool := decide (0 ≤ seekTarget s' c t) && decide (seekTarget s' c t ≤ stroke)
  let ok := rs.length == 3 && decide (spread ≤ (bits x.mechCfg.toNat 0 8 : Nat)) && reach 0 && reach 10624
  let s' := if ok && applies s then
      calWrite 0x13 (1 + c) ([1#8, BitVec.ofNat 8 c, 0#8, 0#8] ++ leBytes 4 x.run ++ leBytes 4 (unsigned 32 radius) ++
        leBytes 2 (unsigned 16 spread) ++ [0#8, 0#8]) s'
    else setReg (Reg.CRG_HOME_RADIUS + 0x200 * c) old s'
  endMeasured x ok .unitNotReady (figures (unsigned 16 radius) (unsigned 16 spread) s')

/-- The deviation of a measured value from its MOTORS value in %, rounded up. -/
def deviation (m v : Nat) : Nat := if v = 0 then 0 else (((m : Int) - v).natAbs * 100 + v - 1) / v

/-- The end of a spindle calibration. -/
def endSpindle (x : CalRun) (r l ke inertia drag residual : Nat) (s : State) : State :=
  let m := motors s
  let dev := [deviation r m.rPhase, deviation l m.lPhase, deviation ke m.ke, deviation inertia m.inertia].foldl max 0
  let ok := decide (residual ≤ 50)
  let s := figures (min 65535 residual) (min 65535 dev) s
  let s := if bits x.mechCfg.toNat 8 8 < dev then calEvt Fld.CAL_EVT_MOTOR_MISMATCH x (if ok then .success else .unitNotReady) s else s
  let s := if ok && applies s then
      calWrite 0x13 0 ([1#8, 0#8, 0#8, 0#8] ++ leBytes 4 x.run ++ leBytes 4 r ++ leBytes 4 l ++ leBytes 4 ke ++ leBytes 4 inertia ++
        leBytes 4 drag ++ leBytes 2 (min 65535 residual) ++ leBytes 2 (min 65535 dev)) s
    else s
  endMeasured x ok .unitNotReady s

/-! ### Self-tests (R493 to R495) -/

/-- A failed checker: a lane checker faults its channel; one of groups 1 to 5 is left to the next S4, one of 6 to 11 takes its
instance out of service. -/
def checkerFailed (x : CalRun) (e : Nat × Nat) (s : State) : State :=
  let s := bump Reg.CAL_CNT 4 s
  if e.1 ≤ 5 then calEvt Fld.CAL_EVT_CHECKER_FAIL x .internalParity s else bistOut e.1 e.2 s

/-- The end of a PARITY self-test; FORCE_CHECKER_FAIL makes its first checker fail. -/
def endParity (x : CalRun) (failed : List (Nat × Nat)) (lane : Bool) (s : State) : State :=
  let forced := flag s Fld.CAL_CTRL_FORCE_CHECKER_FAIL
  let s := setF Fld.CAL_CTRL_FORCE_CHECKER_FAIL 0 s
  let failed := if forced then [(1, 0)] ++ failed.erase (1, 0) else failed
  let s := forEach (checkerFailed x) failed s
  let s := if lane then
      let s := bump Reg.CAL_CNT 4 s
      let ch := x.unit - uBuf 0
      evt Fld.BM_EVT_CH_FAULT x.unit [⟨1, ch⟩] (setF ⟨Reg.BM_CH_STATUS + 4 * ch, 30, 30⟩ 1 (change x.unit .faulted .integrity s))
    else s
  if failed.isEmpty && !lane then endRun x .success 1 s else endRun x .internalParity 5 s

/-- Every record of Table 14-6 with two slots, as (TYPE, INDEX). -/
def allRecords : List (Nat × Nat) :=
  [(0x01, 0)] ++ (List.range 2048).map (fun i => (0x10, i)) ++ (List.range 64).map (fun i => (0x11, i)) ++
    (List.range 4).map (fun i => (0x12, i)) ++ (List.range 5).map (fun i => (0x13, i)) ++ [(0x20, 0)]

/-- The end of an MRAM self-test: invalid slots are counted and not written. -/
def endMram (x : CalRun) (ok : Bool) (s : State) : State :=
  let s := bumpBy (Reg.INT_CNT + 28) (sumN (allRecords.map (fun e => badSlots (mramRec s e.1 e.2)))) s
  if ok then endRun x .success 1 s else endRun x .internalParity 5 (calEvt Fld.CAL_EVT_MRAM_FAIL x .internalParity s)

/-- The channel is marched: it is left zeroed, but for twin lines, rebuilt from the other channel, and for locked lines,
written back from the cache. Lines that held the same as their twins before count as twin lines. -/
def marchChannel (ch : Nat) (s : State) : State :=
  let s := forEach (fun e s => match e.2 with
    | some l =>
      if channelOf s l.line ≠ ch then s
      else
        let s := if l.dirty then releaseTwin l.line (memPut l.line l.data s) else s
        putWay e.1 (if l.locked then some { l with dirty := false } else none) s
    | none => s) s.bc.lines s
  let keep (a : Nat) : Bool := channelOf s (a / 64) ≠ ch || memLine s (a / 64) = memLine s (twinOf s (a / 64))
  let s := modMem (fun m => { m with bytes := m.bytes.filter (fun e => keep e.1) }) s
  forEach (fun e s => match e.2 with
    | some l => if l.locked && channelOf s l.line = ch then memPut l.line l.data s else s
    | none => s) s.bc.lines s

/-- The end of a MEM_BIST. -/
def endBist (x : CalRun) (ok : Bool) (s : State) : State :=
  let ch := x.unit - uBuf 0
  if ok then endRun x .success 1 (marchChannel ch s)
  else
    let s := bump Reg.CAL_CNT 5 (calEvt Fld.CAL_EVT_BIST_FAIL x .internalParity s)
    -- the run is ended before its unit is FAULTED, so that the failure decides its status
    change x.unit .faulted .integrity (endRun x .internalParity 5 s)

/-! ### Rows -/

/-- CALIBRATION_END: the run of a unit with the measurements of its kind ends. -/
def calEndEff (u : Nat) (d : CalData) (s : State) : State :=
  let find (op : Nat) (codes : List Nat) (f : CalRun → State → State) : State :=
    match s.cal.running.find? (fun x => x.unit == u && x.op == op && codes.contains x.code && x.started && x.ending.isNone) with
    | some x => f x s
    | none => s
  match d with
  | .channel zs => find opCalibrate [1] (fun x => endChannel x zs)
  | .servo ps => find opCalibrate [2, 3] (fun x => endServo x ps)
  | .power e ss => find opCalibrate [4] (fun x => endPower x e ss)
  | .sled rs => find opCalibrate [5] (fun x => endSled x rs)
  | .spindle r l ke i dr res => find opCalibrate [6] (fun x => endSpindle x r l ke i dr res)
  | .parity failed lane => find opSelfTest [1] (fun x => endParity x failed lane)
  | .mram ok => find opSelfTest [2] (fun x => endMram x ok)
  | .bist ok => find opSelfTest [3] (fun x => endBist x ok)

/-- CALIBRATION_TIMEOUT: the time limit in SERVICE of a unit's calibration is reached; nothing is applied. -/
def calTimeoutEff (u : Nat) (s : State) : State :=
  match s.cal.running.find? (fun x => x.unit == u && x.started && x.ending.isNone) with
  | some x => endRun x .mediumUnrecovered 4 (calEvt Fld.CAL_EVT_TIMEOUT x .mediumUnrecovered s)
  | none => s

/-- CAL_FORCE_CHECKER_FAIL: the next PARITY test finds its first checker failed. -/
def forceCheckerEff (s : State) : State := setF Fld.CAL_CTRL_FORCE_CHECKER_FAIL 1 s

end Sys2Proof.Machine
end

