-- ==== Sys2Proof/Machine/ImageCheck.lean ====
section
/-! DEFINITION. The Renov image: the ROM base image (R79), the reading of an image's sections and its validation,
steps 1 to 11 of Table 02-14 (R41 to R65, R73, R74, R135, R136, R251, R253, R329). -/

namespace Sys2Proof.Machine

/-! ### The ROM base image -/

/-- The policy section of the ROM base image: VOLUME_MAX 1 and COMPRESS_ALLOW 0 (Table 02-17). -/
def romPolicy : List (Nat × Int) := [(0x000A, 1), (0x000B, 0)]

/-- PERIOD_DIV at the standard rates (R50). -/
def standardDiv (kind : Nat) : Nat :=
  if kind = 4 then 4 else if kind = 5 then 40 else if kind = 6 then 20 else if kind = 0x10 then 10
  else if kind = 0x11 then 100 else 1

/-- A loop record of the ROM base image; what Table 02-17 leaves to the data file is a constant of Config. -/
def romLoop (slot kind car : Nat) (parent : Option Nat) : LoopRec :=
  let sh := Config.romShape slot
  { slot := slot, kind := kind, carriage := car, nStates := sh.1, nMeas := sh.2.1, nOut := sh.2.2.1,
    periodDiv := standardDiv kind, parent := parent, enableAtArm := Config.romArm slot, priv := false, traceSrc := 0,
    measSrc := sh.2.2.2.1, outDst := sh.2.2.2.2, slew := Config.romSlew slot, matA := Config.romMatrix slot 0,
    matB := Config.romMatrix slot 1, matC := Config.romMatrix slot 2, matK := Config.romMatrix slot 3,
    matL := Config.romMatrix slot 4 }

/-- The loops of the ROM base image (Table 02-17): six to a carriage in slots 8c to 8c + 5, the spindle current loop
in slot 6 and the spindle speed loop in slot 7 on it; a sled loop nests on its tracking loop (R50). -/
def romLoops : List LoopRec :=
  ([0, 1, 2, 3].flatMap (fun c => [1, 2, 3, 4, 5, 6].map (fun k =>
    romLoop (8 * c + k - 1) k c (if k = 6 then some (8 * c + 1) else none)))) ++
  [romLoop 6 0x10 0xFF none, romLoop 7 0x11 0xFF (some 6)]

/-- The ROM base image (Table 02-17). -/
def romImage : Image :=
  { serial := 1,
    pairOk := true,
    size := Config.romSize,
    digest := Config.romDigest,
    isRom := true,
    sigState := 3,
    bind := { carriageMask := 0xF, probe := true, decEnabled := 12, decFirstReserved := 6, redetEnabled := 8,
              hankEnabled := 0, strandMask := 0xFFFFFFFF, pins := [] },
    loops := romLoops,
    cams := Config.romCams,
    zonesSetId := 1,
    zones := (List.range 2048).map (fun i => { lf := i / 64, zone := i % 64, seed := Config.romSeed (i / 64) (i % 64) }),
    motors := { Config.romMotors with
                polePairs := 6, spinMin := 1200, spinMax := 3000,
                sleds := Config.romMotors.sleds.map (fun m =>
                  { m with modeThresh := 2000, vMax := 500000, aMax := 20000, strokeLimit := 18500 }) },
    queues := { vfCount := 0, wH := 8, wM := 4, wL := 1, uBudget := 0,
                fns := [{ classMask := 0xF, msix := 16, ringBase := 0, ringCount := 16, ctxQuota := 16, ctxLimit := 16 }] },
    memory := { mapOrder := 3, ddrPoint := 0, scratchWays := 1, hashSeed := 0x2A5B, dramOrg := 0,
                qos := [2000, 1000, 4000, 500, 2000, 50000, 1000] },
    policy := romPolicy,
    mgmt := { deckId := 0x3FFC0, strapLow := true, udpPort := 0, netFlags := 0x1F, ptpDomain := 0, ipv4 := 0,
              ipv4Prefix := 0, i3cStatic := 0x3A, vlan := 0, ipv4Gw := 0, ipv6 := List.replicate 16 0, ipv6Prefix := 0 },
    firmware := { version := Config.romFwVersion, vendorKey := 0, codeSize := 16, entryOfs := 0 } }

/-! ### Checks -/

/-- A check of a little-endian field: its offset, its size and what it accepts. -/
structure Chk where
  ofs : Nat
  len : Nat
  ok : Nat → Bool

/-- The offset of the first field that fails its check, from base. -/
def firstBad (bs : List Byte) (base : Nat) : List Chk → Option Nat
  | [] => none
  | c :: cs => if c.ok (leAt bs (base + c.ofs) c.len) then firstBad bs base cs else some (base + c.ofs)

/-- Reserved bytes must be 0 (R45). -/
def rsvd (o n : Nat) : Chk := ⟨o, n, fun v => v == 0⟩

/-- A field between lo and hi. -/
def rng (o n lo hi : Nat) : Chk := ⟨o, n, fun v => decide (lo ≤ v) && decide (v ≤ hi)⟩

/-- A signed field of n bytes between lo and hi. -/
def srng (o n : Nat) (lo hi : Int) : Chk := ⟨o, n, fun v => decide (lo ≤ signed (8 * n) v) && decide (signed (8 * n) v ≤ hi)⟩

/-- A failure: code, section and offset (R65). -/
structure Bad where
  code : Nat
  sec : Nat
  ofs : Nat
  deriving DecidableEq, Repr, Inhabited

/-- The first failure of a list. -/
def orElse : Option Bad → Option Bad → Option Bad
  | some b, _ => some b
  | none, b => b

/-- The first failure that a function finds along a list. -/
def firstOf {α : Type} (f : α → Option Bad) : List α → Option Bad
  | [] => none
  | x :: xs => orElse (f x) (firstOf f xs)

/-! ### Header, directory, CRCs and padding: steps 1 to 7 -/

/-- Directory entry i: INHERIT, OFFSET and LENGTH (Table 02-4). -/
def dirInherit (bs : List Byte) (i : Nat) : Bool := bit (leAt bs (0x40 + 16 * i + 2) 2) 0
def dirOfs (bs : List Byte) (i : Nat) : Nat := leAt bs (0x40 + 16 * i + 4) 4
def dirLen (bs : List Byte) (i : Nat) : Nat := leAt bs (0x40 + 16 * i + 8) 4

/-- Step 1 (R41). -/
def step1 (bs : List Byte) : Option Bad :=
  (firstBad bs 0 [⟨0, 4, fun v => v == 0x49564E52⟩, ⟨4, 2, fun v => v == 1⟩, ⟨6, 2, fun v => v == 0x100⟩]).map
    (fun o => ⟨0x01, 0, o⟩)

/-- Step 2: HDR_CRC over bytes 0x000 to 0x0FF with the field taken as 0. -/
def step2 (bs : List Byte) : Option Bad :=
  if crc32c (patch (slice bs 0 256) 0x3C [0, 0, 0, 0]) = leAt bs 0x3C 4 then none else some ⟨0x02, 0, 0x3C⟩

/-- Step 3. -/
def step3 (bs : List Byte) : Option Bad :=
  (firstBad bs 0 [⟨0x0C, 2, fun v => v == 0x9160⟩, ⟨0x0E, 1, fun v => v == 0xB1⟩]).map (fun o => ⟨0x03, 0, o⟩)

/-- Step 4: IMAGE_SIZE, and equality with the bytes delivered. -/
def step4 (bs : List Byte) : Option Bad :=
  let n := leAt bs 8 4
  if n % 64 = 0 && decide (0x100 ≤ n) && decide (n ≤ 0x800000) && n = bs.length then none else some ⟨0x04, 0, 8⟩

/-- Step 5, one directory entry; prev is the end of the section before it (R42, R43). -/
def dirEntry (bs : List Byte) (size prev i : Nat) : Option Bad :=
  let e := 0x40 + 16 * i
  let inh := dirInherit bs i
  let o := dirOfs bs i
  let n := dirLen bs i
  let bad (k : Nat) : Option Bad := some ⟨0x05, i, e + k⟩
  if leAt bs e 1 ≠ i then bad 0
  else if leAt bs (e + 1) 1 ≠ 1 then bad 1
  else if 1 < leAt bs (e + 2) 2 then bad 2
  else if leAt bs (e + 12) 4 ≠ 0 then bad 12
  else if i = 0 then (if inh then bad 2 else if o ≠ 0 then bad 4 else if n ≠ 256 then bad 8 else none)
  else if inh then (if i = 1 then bad 2 else if o ≠ 0 then bad 4 else if n ≠ 0 then bad 8 else none)
  else if n = 0 then (if i = 1 then (if o = 0 then none else bad 4) else bad 8)
  else if n < 16 then bad 8
  else if o % 64 ≠ 0 || decide (o < 0x100) || decide (o < prev) then bad 4
  else if size < o + n + 4 then bad 8
  else none

/-- Step 5. -/
def step5 (bs : List Byte) (size : Nat) : Nat → Nat → Nat → Option Bad
  | 0, _, _ => none
  | k + 1, i, prev =>
    orElse (dirEntry bs size prev i)
      (step5 bs size k (i + 1) (if dirLen bs i = 0 || i = 0 then prev else dirOfs bs i + dirLen bs i + 4))

/-- The sections present in the image itself, in ID order. -/
def present (bs : List Byte) : List Nat := [1, 2, 3, 4, 5, 6, 7, 8, 9, 10, 11].filter (fun i => dirLen bs i ≠ 0)

/-- Step 6: section CRCs, in ID order. -/
def step6 (bs : List Byte) : Option Bad :=
  firstOf (fun i =>
    if crc32c (slice bs (dirOfs bs i) (dirLen bs i)) = leAt bs (dirOfs bs i + dirLen bs i) 4 then none
    else some ⟨0x06, i, dirOfs bs i + dirLen bs i⟩) (present bs)

/-- The offset of the first byte that is not 0, from o. -/
def firstNonZero (o : Nat) : List Byte → Option Nat
  | [] => none
  | b :: bs => if b = 0 then firstNonZero (o + 1) bs else some o

/-- Step 7: zero bytes outside the header, the payloads and their CRCs, from position at_ on. -/
def step7 (bs : List Byte) (at_ : Nat) : List Nat → Option Bad
  | [] => (firstNonZero at_ (bs.drop at_)).map (fun o => ⟨0x07, 0xFF, o⟩)
  | i :: is =>
    orElse ((firstNonZero at_ ((bs.drop at_).take (dirOfs bs i - at_))).map (fun o => ⟨0x07, 0xFF, o⟩))
      (step7 bs (dirOfs bs i + dirLen bs i + 4) is)

/-! ### Authentication: steps 8 and 9 -/

/-- The signed message: every byte but the SIGNATURE payload and its CRC (R47). -/
def signedMessage (bs : List Byte) : List Byte :=
  bs.take (dirOfs bs 1) ++ bs.drop (dirOfs bs 1 + dirLen bs 1 + 4)

/-- A digest's bytes: word i holds bytes 4i to 4i + 3 (Table 02-18). -/
def digestBytes (ws : List Word) : List Byte := ws.flatMap (fun w => leBytes 4 w.toNat)

/-- Whether the SIGNATURE section's signature verifies under its PUBKEY (R46, R47). -/
def sigVerifies (bs : List Byte) : Bool :=
  let o := dirOfs bs 1 + 16
  Config.ecdsaVerify (slice bs (o + 4) 97) (digestBytes (Config.sha384 (signedMessage bs)))
    (slice bs (o + 0x68) 48) (slice bs (o + 0x98) 48)

/-- Step 8 (R73, R74): while IMG_ENFORCE is not blown it never rejects. -/
def step8 (f : Fuses) (bs : List Byte) : Option Bad :=
  if !f.enforce then none
  else if dirLen bs 1 = 0 then some ⟨0x08, 1, 0x50⟩
  else if Config.sha384 (slice bs (dirOfs bs 1 + 20) 97) ≠ f.keyDigest then some ⟨0x09, 1, dirOfs bs 1 + 20⟩
  else if !sigVerifies bs then some ⟨0x0A, 1, dirOfs bs 1 + 16 + 0x68⟩
  else none

/-- IMG_STATUS.SIG_STATE of an image that step 8 accepted. -/
def sigStateOf (f : Fuses) (bs : List Byte) : Nat :=
  if dirLen bs 1 = 0 then 0
  else if !sigVerifies bs then 0
  else if Config.sha384 (slice bs (dirOfs bs 1 + 20) 97) = f.keyDigest then 1
  else 2

/-- Step 9 (R64): an inherited FIRMWARE section is always trusted. -/
def step9 (f : Fuses) (bs : List Byte) : Option Bad :=
  if dirInherit bs 11 then none
  else
    let o := dirOfs bs 11 + 16
    let key := leAt bs (o + 4) 1
    let msg := slice bs o 16 ++ slice bs (o + 128) (leAt bs (o + 8) 4)
    if decide (key < 4) && !bit f.revoke.toNat key &&
        Config.ecdsaVerify (Config.vendorKey key) (digestBytes (Config.sha384 msg)) (slice bs (o + 0x10) 48) (slice bs (o + 0x40) 48)
    then none else some ⟨0x0B, 11, o + 4⟩

/-! ### Section heads and fields: step 10 -/

/-- The section head (R44): the sizes a section must have; a record count outside [lo, hi] fails too. -/
def headBad (bs : List Byte) (i fixed record lo hi : Nat) : Option Bad :=
  let o := dirOfs bs i
  let cnt := leAt bs (o + 8) 4
  let f : Option Nat :=
    if leAt bs o 4 ≠ fixed then some 0
    else if leAt bs (o + 4) 4 ≠ (if cnt = 0 && lo = 0 && leAt bs (o + 4) 4 = 0 then 0 else record) then some 4
    else if cnt < lo || hi < cnt then some 8
    else if leAt bs (o + 12) 4 ≠ 0 then some 12
    else if dirLen bs i ≠ 16 + fixed + leAt bs (o + 4) 4 * cnt then some 8
    else none
  f.map (fun k => ⟨0x0C, i, o + k⟩)

/-- The offset of record r of section i. -/
def recOfs (bs : List Byte) (i r : Nat) : Nat := dirOfs bs i + 16 + leAt bs (dirOfs bs i) 4 + leAt bs (dirOfs bs i + 4) 4 * r

/-- The record numbers of section i. -/
def recs (bs : List Byte) (i : Nat) : List Nat := List.range (leAt bs (dirOfs bs i + 8) 4)

/-- Applies field checks to section i at an offset. -/
def fieldsBad (bs : List Byte) (i base : Nat) (cs : List Chk) : Option Bad :=
  (firstBad bs base cs).map (fun o => ⟨0x0C, i, o⟩)

/-- The first record whose key repeats an earlier record's key. -/
def dupBad (bs : List Byte) (i : Nat) (key : Nat → Nat) : Option Bad :=
  firstOf (fun r => if (List.range r).any (fun q => key (recOfs bs i q) == key (recOfs bs i r))
                    then some ⟨0x0C, i, recOfs bs i r⟩ else none) (recs bs i)

/-- Header fields (R41). -/
def secHeader (bs : List Byte) : Option Bad :=
  fieldsBad bs 0 0 [rsvd 0x0F 1, ⟨0x10, 8, fun v => v != 0⟩, rng 0x18 4 0 1, rsvd 0x1C 4, rsvd 0x30 12]

/-- SIGNATURE (R46). -/
def secSignature (bs : List Byte) : Option Bad :=
  if dirLen bs 1 = 0 then none
  else orElse (headBad bs 1 200 0 0 0)
    (fieldsBad bs 1 (dirOfs bs 1 + 16) [rng 0 1 1 1, rsvd 1 3, rng 4 1 4 4, rsvd 0x65 3])

/-- BIND (R48). -/
def secBind (bs : List Byte) : Option Bad :=
  let o := dirOfs bs 2 + 16
  orElse (headBad bs 2 32 4 0 9)
    (orElse (fieldsBad bs 2 o [rng 0 1 0 15, rng 1 1 0 1, rng 2 1 1 12,
        ⟨3, 1, fun v => decide (v + 1 ≤ leAt bs (o + 2) 1)⟩, rng 4 1 0 8, rng 5 1 0 6, rsvd 6 2, rsvd 0x0C 20])
      (orElse (dupBad bs 2 (fun r => leAt bs r 1))
        (firstOf (fun r =>
          let p := recOfs bs 2 r
          let g := leAt bs p 1
          let fn := leAt bs (p + 1) 1
          let hasRec (x : Nat) : Bool := (recs bs 2).any (fun q => leAt bs (recOfs bs 2 q) 1 == x)
          if g ≤ 3 then
            (if fn = 3 && (g = 1 || g = 3 || hasRec (g + 1)) then some ⟨0x0C, 2, p + 1⟩
             else fieldsBad bs 2 p [rng 1 1 0 3, rng 2 1 0 1, rsvd 3 1])
          else if 0x10 ≤ g && g ≤ 0x13 then fieldsBad bs 2 p [rng 1 1 0 3, rng 2 1 0 1, rsvd 3 1]
          else if g = 0x20 then fieldsBad bs 2 p [rng 1 1 0 1, rsvd 2 2]
          else some ⟨0x0C, 2, p⟩) (recs bs 2))))

/-- Loop kinds (Table 02-9). -/
def loopKind (k : Nat) : Bool := (decide (1 ≤ k) && decide (k ≤ 6)) || k == 0x10 || k == 0x11

/-- The measurement sources a loop may name (R251, Table 08-2). -/
def measSrcOk (spindle : Bool) (v : Nat) : Bool :=
  (decide (0x30 ≤ v) && decide (v ≤ 0x33)) || v == 0x0B || v == 0x0C ||
    (if spindle then v == 0x20 || v == 0x21 || v == 0x22 else decide (1 ≤ v) && decide (v ≤ 0x0A))

/-- The output destinations a loop may name (R253, Table 08-3). -/
def outDstOk (spindle hasParent : Bool) (v : Nat) : Bool :=
  v == 0 || (v == 0x10 && hasParent) || (if spindle then v == 0x20 || v == 0x21 else (decide (1 ≤ v) && decide (v ≤ 5)) || v == 8)

/-- Signed 32-bit entries. -/
def readInts (bs : List Byte) (o n : Nat) : List Int := (List.range n).map (fun k => signed 32 (leAt bs (o + 4 * k) 4))

/-- Matrix entries beyond the declared dimensions must be 0 (R45): the first such entry of a stored matrix with the
given number of columns. -/
def matBad (bs : List Byte) (o cols total rows_ cols_ : Nat) : Option Bad :=
  firstOf (fun k => if (rows_ ≤ k / cols || cols_ ≤ k % cols) && leAt bs (o + 4 * k) 4 != 0 then some ⟨0x0C, 3, o + 4 * k⟩ else none)
    (List.range total)

/-- One LOOPS record (R49). -/
def loopBad (bs : List Byte) (p : Nat) : Option Bad :=
  let kind := leAt bs (p + 1) 1
  let spindle := kind == 0x10 || kind == 0x11
  let n := leAt bs (p + 3) 1
  let m := leAt bs (p + 4) 1
  let q := leAt bs (p + 5) 1
  let hasParent := leAt bs (p + 8) 1 != 0xFF
  orElse (fieldsBad bs 3 p ([rng 0 1 0 31, ⟨1, 1, loopKind⟩,
      ⟨2, 1, fun v => if spindle then v == 0xFF else decide (v ≤ 3)⟩, rng 3 1 1 8, rng 4 1 1 4, rng 5 1 1 2,
      rng 6 2 1 4000, ⟨8, 1, fun v => decide (v ≤ 31) || v == 0xFF⟩, rng 9 1 0 15, rsvd 0x0A 2] ++
      (List.range 4).map (fun j => ⟨0x0C + j, 1, fun v => if j < m then measSrcOk spindle v else v == 0⟩) ++
      (List.range 2).map (fun j => ⟨0x10 + j, 1, fun v => if j < q then outDstOk spindle hasParent v else v == 0⟩) ++
      [rsvd 0x12 2, ⟨0x14, 4, fun v => decide (0 < signed 32 v)⟩, rsvd 0x18 104]))
    (orElse (matBad bs (p + 0x080) 8 64 n n) (orElse (matBad bs (p + 0x180) 2 16 n q)
      (orElse (matBad bs (p + 0x1C0) 8 32 m n) (orElse (matBad bs (p + 0x240) 8 16 q n) (matBad bs (p + 0x280) 4 32 n m)))))

/-- LOOPS (R49). -/
def secLoops (bs : List Byte) : Option Bad :=
  orElse (headBad bs 3 0 768 1 32)
    (orElse (firstOf (fun r => loopBad bs (recOfs bs 3 r)) (recs bs 3)) (dupBad bs 3 (fun r => leAt bs r 1)))

/-- One CAMS record (R51). -/
def camBad (bs : List Byte) (p : Nat) : Option Bad :=
  let pts := leAt bs (p + 4) 2
  orElse (fieldsBad bs 4 p [rng 0 1 0 63, rng 1 1 0 9, rng 2 1 1 2,
      ⟨3, 1, fun v => if leAt bs (p + 2) 1 = 1 then decide (v ≤ 31) else decide (v ≤ 3)⟩, rng 4 2 2 1024,
      ⟨6, 1, fun v => decide (v ≤ 3) && (!bit v 1 || leAt bs (p + 1) 1 == 8)⟩, rsvd 7 1,
      ⟨0x0C, 4, fun v => v != 0⟩, rsvd 0x10 16])
    (firstOf (fun k => if pts ≤ k && leAt bs (p + 0x20 + 4 * k) 4 != 0 then some ⟨0x0C, 4, p + 0x20 + 4 * k⟩ else none)
      (List.range 1024))

/-- CAMS. -/
def secCams (bs : List Byte) : Option Bad :=
  orElse (headBad bs 4 0 4128 0 64)
    (orElse (firstOf (fun r => camBad bs (recOfs bs 4 r)) (recs bs 4)) (dupBad bs 4 (fun r => leAt bs r 1)))

/-- One per-strand seed at offset p (Table 04-6, R136). -/
def seedChecks (k : Nat) (tsum : Nat) : List Chk :=
  [rng 0 1 0 240, rng 1 1 0 63, rng 2 1 0 15, srng 3 1 (-64) 63, srng 4 1 (-32) 32,
   (if k = 7 then rsvd 5 1 else srng 5 1 (-64) 63), rsvd 6 2, srng 0x10 1 32 127, rsvd 0x19 1] ++
  (if k = 0 then [rsvd 0x1A 5] else []) ++ (if k = 7 then [rsvd 0x1F 5] else []) ++
  [⟨0x24, 1, fun _ => decide (32 ≤ tsum) && decide (tsum ≤ 124)⟩, rsvd 0x29 3, rsvd 0x3C 4]

/-- The sum of the absolute values of the five target coefficients of a seed. -/
def targetSum (bs : List Byte) (p : Nat) : Nat :=
  ((List.range 5).map (fun i => (signed 8 (leAt bs (p + 0x24 + i) 1)).natAbs)).foldl (· + ·) 0

/-- A seed block (R135). -/
def seedBad (bs : List Byte) (p : Nat) : Option Bad :=
  orElse (fieldsBad bs 5 p [rng 0 1 1 1, rsvd 2 2, rsvd 8 8])
    (firstOf (fun k => if bit (leAt bs (p + 1) 1) k
                       then fieldsBad bs 5 (p + 0x10 + 64 * k) (seedChecks k (targetSum bs (p + 0x10 + 64 * k))) else none)
      (List.range 8))

/-- ZONES (R53). -/
def secZones (bs : List Byte) : Option Bad :=
  orElse (headBad bs 5 4 532 0 2048)
    (orElse (firstOf (fun r => let p := recOfs bs 5 r
        orElse (fieldsBad bs 5 p [rng 0 1 0 31, rng 1 1 0 63, rsvd 2 2]) (seedBad bs (p + 4))) (recs bs 5))
      (dupBad bs 5 (fun r => leAt bs r 2)))

/-- A sled block of MOTORS (Table 02-11); an unused one must be 0. -/
def sledChecks (o : Nat) (used : Bool) (iQuiet thr : Nat) : List Chk :=
  if used then
    [rng o 4 1 3000, rng (o + 4) 4 iQuiet 3000, rng (o + 8) 4 1 500000, rng (o + 12) 4 1 20000, rng (o + 16) 4 1 10000000,
     rng (o + 20) 2 100 20000, rng (o + 22) 2 0 (thr / 2), rng (o + 24) 4 1 18500, rng (o + 28) 1 0 3, rsvd (o + 29) 3]
  else [rsvd o 32]

/-- ADVANCE entries: speeds strictly increasing, advance 0 to 400. -/
def advBad (bs : List Byte) (o : Nat) : Option Bad :=
  firstOf (fun k =>
    if 400 < leAt bs (o + 4 * k + 2) 2 then some ⟨0x0C, 6, o + 4 * k + 2⟩
    else if 0 < k && leAt bs (o + 4 * k) 2 ≤ leAt bs (o + 4 * (k - 1)) 2 then some ⟨0x0C, 6, o + 4 * k⟩
    else none) (List.range 16)

/-- MOTORS (R55); mask is the CARRIAGE_MASK of the BIND section in force. -/
def secMotors (bs : List Byte) (mask : Nat) : Option Bad :=
  let o := dirOfs bs 6 + 16
  orElse (headBad bs 6 240 0 0 0)
    (orElse (fieldsBad bs 6 o [rng 0 1 1 16, rsvd 1 1, rng 2 2 1200 (leAt bs (o + 4) 2), rng 4 2 (leAt bs (o + 2) 2) 4600,
        rsvd 6 2, rng 8 4 100 30000, rng 0x0C 4 1 1000000, rng 0x10 4 1 100000, rng 0x14 4 1 100000000,
        rng 0x18 4 1 1000000, rng 0x1C 4 1 10000000, rng 0x20 4 1 (leAt bs (o + 8) 4), rng 0x24 4 10 5000, rsvd 0x28 8])
      (orElse (advBad bs (o + 0x30))
        (firstOf (fun c => fieldsBad bs 6 o (sledChecks (0x70 + 32 * c) (bit mask c) (leAt bs (o + 0x70 + 32 * c) 4)
            (leAt bs (o + 0x84 + 32 * c) 2))) (List.range 4))))

/-- QUEUES (R56). -/
def secQueues (bs : List Byte) : Option Bad :=
  let o := dirOfs bs 7 + 16
  let n := leAt bs o 1 + 1
  orElse (headBad bs 7 16 16 n n)
    (orElse (fieldsBad bs 7 o [rng 0 1 0 63, rsvd 1 3, rng 4 1 1 255, rng 5 1 1 255, rng 6 1 1 255, rsvd 7 1, rsvd 12 4])
      (firstOf (fun r => let p := recOfs bs 7 r
        fieldsBad bs 7 p [rng 0 1 r r, rng 1 1 1 15, rng 2 2 1 2048, rng 4 4 0 0xFFFFF,
          rng 8 4 1 (1048576 - leAt bs (p + 4) 4), rng 0x0E 2 (leAt bs (p + 0x0C) 2) 3072]) (recs bs 7)))

/-- DRAM_ORG encodings (Table 14-1); 0 means as found by training. -/
def dramOrgOk (v : Nat) : Bool :=
  v == 0 || (decide (v < 256) && (bits v 6 2 == 1 || bits v 6 2 == 2) && (bits v 4 2 == 1 || bits v 4 2 == 2) &&
    decide (1 ≤ bits v 0 4) && decide (bits v 0 4 ≤ 4))

/-- MEMORY (R58). -/
def secMemory (bs : List Byte) : Option Bad :=
  orElse (headBad bs 8 32 0 0 0)
    (fieldsBad bs 8 (dirOfs bs 8 + 16) ([rng 0 1 0 3, rng 1 1 0 1, rng 2 1 1 8, rsvd 3 1, rng 4 4 0 0x3FFF, ⟨8, 4, dramOrgOk⟩,
      rsvd 0x0C 4] ++ (List.range 7).map (fun k => rng (0x10 + 2 * k) 2 1 65535) ++ [rsvd 0x1E 2]))

/-- The policy values that an image may carry, given its THERM_WARN_OFS (Table 02-13). The upper end of
WRITE_BEHIND_LIMIT is taken at the largest buffer memory here; POLICY_SET takes the fitted one. -/
def policyRangeOk (id : Nat) (v warn quarter : Int) : Bool :=
  if id = 1 then decide (-30 ≤ v) && decide (v ≤ -1)
  else if id = 2 then decide (warn + 1 ≤ v) && decide (v ≤ 0)
  else if id = 3 then decide (0 ≤ v) && decide (v ≤ 60000)
  else if id = 4 then decide (1 ≤ v) && decide (v ≤ 50)
  else if id = 5 then decide (1 ≤ v) && decide (v ≤ 1000)
  else if id = 6 then decide (256 ≤ v) && decide (v ≤ quarter)
  else if id = 7 then decide (1 ≤ v) && decide (v ≤ 6)
  else if id = 8 then decide (0 ≤ v) && decide (v ≤ 500)
  else if id = 9 then decide (3600 ≤ v) && decide (v ≤ 604800)
  else if id = 10 then decide (1 ≤ v) && decide (v ≤ 64)
  else if id = 11 then decide (0 ≤ v) && decide (v ≤ 1)
  else false

/-- The policy records of an image, as (id, value). -/
def policyRecs (bs : List Byte) : List (Nat × Int) :=
  (recs bs 9).map (fun r => (leAt bs (recOfs bs 9 r) 2, signed 32 (leAt bs (recOfs bs 9 r + 4) 4)))

/-- A value of a policy list, or a default. -/
def policyIn (l : List (Nat × Int)) (id : Nat) (d : Int) : Int := match l.find? (fun e => e.1 == id) with | some e => e.2 | none => d

/-- POLICY (R60). -/
def secPolicy (bs : List Byte) : Option Bad :=
  orElse (headBad bs 9 0 8 0 64)
    (orElse (firstOf (fun r => let p := recOfs bs 9 r
        if policyRangeOk (leAt bs p 2) (signed 32 (leAt bs (p + 4) 4)) (policyIn (policyRecs bs) 1 (-5)) 16384
        then fieldsBad bs 9 p [rsvd 2 2] else some ⟨0x0C, 9, p⟩) (recs bs 9))
      (dupBad bs 9 (fun r => leAt bs r 2)))

/-- MGMT (R61). -/
def secMgmt (bs : List Byte) : Option Bad :=
  orElse (headBad bs 10 48 0 0 0)
    (fieldsBad bs 10 (dirOfs bs 10 + 16) [⟨0, 4, fun v => bits v 18 13 == 0⟩, rng 6 1 0 31, rng 7 1 0 127, rng 0x0C 1 0 32,
      rng 0x0D 1 0 127, rng 0x0E 2 0 0xFFF, rng 0x24 1 0 128, rsvd 0x25 11])

/-- FIRMWARE (R63). -/
def secFirmware (bs : List Byte) : Option Bad :=
  let o := dirOfs bs 11 + 16
  let n := leAt bs (o + 8) 4
  orElse (headBad bs 11 128 n 1 1)
    (fieldsBad bs 11 o [rng 4 1 0 3, rsvd 5 3, ⟨8, 4, fun v => decide (16 ≤ v) && decide (v ≤ 1048576) && v % 16 == 0⟩,
      ⟨0x0C, 4, fun v => v % 4 == 0 && decide (v < n)⟩, rsvd 0x70 16])

/-- CARRIAGE_MASK of the image, its own or inherited. -/
def maskOf (bs : List Byte) : Nat := if dirInherit bs 2 then 0xF else leAt bs (dirOfs bs 2 + 16) 1

/-- Step 10: section heads, field ranges and reserved bytes, in ID order; inherited sections hold the ROM base
image's values, which are in range. -/
def step10 (bs : List Byte) : Option Bad :=
  let own (i : Nat) (b : Option Bad) : Option Bad := if dirLen bs i = 0 then none else b
  orElse (secHeader bs) (orElse (secSignature bs) (orElse (own 2 (secBind bs)) (orElse (own 3 (secLoops bs))
    (orElse (own 4 (secCams bs)) (orElse (own 5 (secZones bs)) (orElse (own 6 (secMotors bs (maskOf bs)))
      (orElse (own 7 (secQueues bs)) (orElse (own 8 (secMemory bs)) (orElse (own 9 (secPolicy bs))
        (orElse (own 10 (secMgmt bs)) (own 11 (secFirmware bs))))))))))))

/-! ### Reading the sections -/

/-- BIND as read. -/
def readBind (bs : List Byte) : BindCfg :=
  let o := dirOfs bs 2 + 16
  { carriageMask := leAt bs o 1, probe := bit (leAt bs (o + 1) 1) 0, decEnabled := leAt bs (o + 2) 1,
    decFirstReserved := leAt bs (o + 3) 1, redetEnabled := leAt bs (o + 4) 1, hankEnabled := leAt bs (o + 5) 1,
    strandMask := leAt bs (o + 8) 4,
    pins := (recs bs 2).map (fun r => let p := recOfs bs 2 r
      { group := leAt bs p 1, function := leAt bs (p + 1) 1, attr := leAt bs (p + 2) 1 }) }

/-- LOOPS as read. -/
def readLoops (bs : List Byte) : List LoopRec := (recs bs 3).map (fun r =>
  let p := recOfs bs 3 r
  let fl := leAt bs (p + 9) 1
  let m := leAt bs (p + 4) 1
  let q := leAt bs (p + 5) 1
  { slot := leAt bs p 1, kind := leAt bs (p + 1) 1, carriage := leAt bs (p + 2) 1, nStates := leAt bs (p + 3) 1,
    nMeas := m, nOut := q, periodDiv := leAt bs (p + 6) 2,
    parent := if leAt bs (p + 8) 1 = 0xFF then none else some (leAt bs (p + 8) 1),
    enableAtArm := bit fl 0, priv := bit fl 1, traceSrc := bits fl 2 2,
    measSrc := (List.range m).map (fun j => leAt bs (p + 0x0C + j) 1),
    outDst := (List.range q).map (fun j => leAt bs (p + 0x10 + j) 1),
    slew := signed 32 (leAt bs (p + 0x14) 4), matA := readInts bs (p + 0x080) 64, matB := readInts bs (p + 0x180) 16,
    matC := readInts bs (p + 0x1C0) 32, matK := readInts bs (p + 0x240) 16, matL := readInts bs (p + 0x280) 32 })

/-- CAMS as read. -/
def readCams (bs : List Byte) : List CamRec := (recs bs 4).map (fun r =>
  let p := recOfs bs 4 r
  { table := leAt bs p 1, master := leAt bs (p + 1) 1, slaveKind := leAt bs (p + 2) 1, slaveIndex := leAt bs (p + 3) 1,
    points := leAt bs (p + 4) 2, engageAtArm := bit (leAt bs (p + 6) 1) 0, wrap := bit (leAt bs (p + 6) 1) 1,
    xStart := signed 32 (leAt bs (p + 8) 4), xStep := leAt bs (p + 0x0C) 4,
    values := readInts bs (p + 0x20) (leAt bs (p + 4) 2) })

/-- ZONES as read: its records first, the ROM base image's seed where a pair has none (R53). -/
def readZones (bs : List Byte) : List ZoneRec := (recs bs 5).map (fun r =>
  let p := recOfs bs 5 r
  { lf := leAt bs p 1, zone := leAt bs (p + 1) 1, seed := slice bs (p + 4) 528 })

/-- MOTORS as read. -/
def readMotors (bs : List Byte) : MotorsCfg :=
  let o := dirOfs bs 6 + 16
  { polePairs := leAt bs o 1, spinMin := leAt bs (o + 2) 2, spinMax := leAt bs (o + 4) 2, iLimit := leAt bs (o + 8) 4,
    rShunt := leAt bs (o + 0x0C) 4, rPhase := leAt bs (o + 0x10) 4, lPhase := leAt bs (o + 0x14) 4, ke := leAt bs (o + 0x18) 4,
    inertia := leAt bs (o + 0x1C) 4, innovLim := leAt bs (o + 0x20) 4, injAmpl := leAt bs (o + 0x24) 4,
    advance := (List.range 16).map (fun k => (leAt bs (o + 0x30 + 4 * k) 2, leAt bs (o + 0x32 + 4 * k) 2)),
    sleds := (List.range 4).map (fun c => let p := o + 0x70 + 32 * c
      { iQuiet := leAt bs p 4, iStrong := leAt bs (p + 4) 4, vMax := leAt bs (p + 8) 4, aMax := leAt bs (p + 12) 4,
        jMax := leAt bs (p + 16) 4, modeThresh := leAt bs (p + 20) 2, modeHyst := leAt bs (p + 22) 2,
        strokeLimit := leAt bs (p + 24) 4, homeActiveLow := bit (leAt bs (p + 28) 1) 0, dirInvert := bit (leAt bs (p + 28) 1) 1 }) }

/-- QUEUES as read. -/
def readQueues (bs : List Byte) : QueuesCfg :=
  let o := dirOfs bs 7 + 16
  { vfCount := leAt bs o 1, wH := leAt bs (o + 4) 1, wM := leAt bs (o + 5) 1, wL := leAt bs (o + 6) 1, uBudget := leAt bs (o + 8) 4,
    fns := (recs bs 7).map (fun r => let p := recOfs bs 7 r
      { classMask := leAt bs (p + 1) 1, msix := leAt bs (p + 2) 2, ringBase := leAt bs (p + 4) 4, ringCount := leAt bs (p + 8) 4,
        ctxQuota := leAt bs (p + 0x0C) 2, ctxLimit := leAt bs (p + 0x0E) 2 }) }

/-- MEMORY as read. -/
def readMemory (bs : List Byte) : MemoryCfg :=
  let o := dirOfs bs 8 + 16
  { mapOrder := leAt bs o 1, ddrPoint := leAt bs (o + 1) 1, scratchWays := leAt bs (o + 2) 1, hashSeed := leAt bs (o + 4) 4,
    dramOrg := leAt bs (o + 8) 4, qos := (List.range 7).map (fun k => leAt bs (o + 0x10 + 2 * k) 2) }

/-- The MGMT fixed part as read, from its own bytes. -/
def readMgmtAt (bs : List Byte) (o : Nat) : MgmtCfg :=
  { deckId := bits (leAt bs o 4) 0 18, strapLow := bit (leAt bs o 4) 31, udpPort := leAt bs (o + 4) 2, netFlags := leAt bs (o + 6) 1,
    ptpDomain := leAt bs (o + 7) 1, ipv4 := leAt bs (o + 8) 4, ipv4Prefix := leAt bs (o + 0x0C) 1, i3cStatic := leAt bs (o + 0x0D) 1,
    vlan := leAt bs (o + 0x0E) 2, ipv4Gw := leAt bs (o + 0x10) 4, ipv6 := slice bs (o + 0x14) 16, ipv6Prefix := leAt bs (o + 0x24) 1 }

/-- FIRMWARE as read. -/
def readFirmware (bs : List Byte) : FirmwareCfg :=
  let o := dirOfs bs 11 + 16
  { version := leAt bs o 4, vendorKey := leAt bs (o + 4) 1, codeSize := leAt bs (o + 8) 4, entryOfs := leAt bs (o + 0x0C) 4 }

/-- The image that the bytes describe, inherited sections from the ROM base image. -/
def readImage (f : Fuses) (bs : List Byte) : Image :=
  { serial := leAt bs 0x10 8,
    pairOk := bit (leAt bs 0x18 4) 0,
    size := leAt bs 8 4,
    digest := Config.sha384 bs,
    isRom := false,
    sigState := sigStateOf f bs,
    bind := if dirInherit bs 2 then romImage.bind else readBind bs,
    loops := if dirInherit bs 3 then romImage.loops else readLoops bs,
    cams := if dirInherit bs 4 then romImage.cams else readCams bs,
    zonesSetId := if dirInherit bs 5 then 1 else leAt bs (dirOfs bs 5 + 16) 4,
    zones := if dirInherit bs 5 then romImage.zones else readZones bs,
    motors := if dirInherit bs 6 then romImage.motors else readMotors bs,
    queues := if dirInherit bs 7 then romImage.queues else readQueues bs,
    memory := if dirInherit bs 8 then romImage.memory else readMemory bs,
    policy := if dirInherit bs 9 then romPolicy else policyRecs bs,
    mgmt := if dirInherit bs 10 then romImage.mgmt else readMgmtAt bs (dirOfs bs 10 + 16),
    firmware := if dirInherit bs 11 then romImage.firmware else readFirmware bs,
    memOfs := if dirInherit bs 8 then 0 else dirOfs bs 8 }

/-! ### Cross-section rules: step 11 -/

/-- The loop in a slot. -/
def loopAt (ls : List LoopRec) (slot : Nat) : Option LoopRec := ls.find? (fun l => l.slot == slot)

/-- A TRACE_IN pin's FUNCTION. -/
def traceFn (b : BindCfg) (n : Nat) : Nat := match b.pins.find? (fun p => p.group == n) with | some p => p.function | none => 0

/-- R50: the loop set. -/
def loopSetOk (b : BindCfg) (ls : List LoopRec) : Bool :=
  (List.range 4).all (fun c => if bit b.carriageMask c
    then [1, 2, 3, 4, 5, 6].all (fun k => (ls.filter (fun l => l.kind == k && l.carriage == c)).length == 1)
    else ls.all (fun l => l.carriage != c)) &&
  (ls.filter (fun l => l.kind == 0x10)).length == 1 && (ls.filter (fun l => l.kind == 0x11)).length == 1 &&
  ls.all (fun l => match l.parent with
    | none => l.kind != 6 && l.kind != 0x11
    | some p => match loopAt ls p with
      | none => false
      | some q => q.parent.isNone && l.periodDiv % q.periodDiv == 0 && decide (2 * q.periodDiv ≤ l.periodDiv) &&
          (l.kind != 6 || (q.kind == 2 && q.carriage == l.carriage)) && (l.kind != 0x11 || q.kind == 0x10)) &&
  ls.all (fun l => l.kind != 0x10 || l.periodDiv == 10) &&
  decide ((ls.filter (fun l => l.priv)).length ≤ 4) &&
  ls.all (fun l => !l.priv || ((ls.filter (fun q => q.priv && q.traceSrc == l.traceSrc)).length == 1 && traceFn b l.traceSrc != 0))

/-- R253: the destinations of all loops are distinct. -/
def destsDistinct (ls : List LoopRec) : Bool :=
  let ds := ls.flatMap (fun l => l.outDst.filterMap (fun d =>
    if d = 0 then none else if d = 0x10 then some (d, (l.parent.getD 0xFF)) else some (d, l.carriage)))
  decide ds.Nodup

/-- R52 and R329: the cams. -/
def camSetOk (b : BindCfg) (ls : List LoopRec) (cs : List CamRec) : Bool :=
  cs.all (fun c => if c.slaveKind = 1 then (loopAt ls c.slaveIndex).isSome else bit b.carriageMask c.slaveIndex) &&
  cs.all (fun c => !c.engageAtArm || (cs.filter (fun d => d.engageAtArm && d.slaveKind == c.slaveKind && d.slaveIndex == c.slaveIndex)).length == 1) &&
  (List.range 4).all (fun c =>
    let jump := cs.filter (fun d => d.master == 9 && d.slaveKind == 1 && (match loopAt ls d.slaveIndex with
      | some l => l.kind == 1 && l.carriage == c | none => false))
    decide (jump.length ≤ 1) && jump.all (fun d => !d.engageAtArm))

/-- R57: rings, contexts and vectors of the functions. -/
def queuesOk (q : QueuesCfg) : Bool :=
  let total (f : QueueFn → Nat) : Nat := (q.fns.map f).foldl (· + ·) 0
  decide (total (·.ctxQuota) ≤ 3072) && decide (total (·.msix) ≤ 3072) &&
  decide (q.fns.Pairwise (fun a b => a.ringBase + a.ringCount ≤ b.ringBase ∨ b.ringBase + b.ringCount ≤ a.ringBase))

/-- The engines needed to decode the bound strands at full rate (R65): 775.6 and 548.3 Mbit/s a strand over 4,000. -/
def enginesNeeded (b : BindCfg) : Nat :=
  let tenths := ((List.range 32).map (fun g => if bit b.strandMask g then (if g / 8 = 1 || g / 8 = 3 then 7756 else 5483) else 0)).foldl (· + ·) 0
  (tenths + 39999) / 40000

/-- Step 11, with PAIR_EN as sampled. The offset of a cross-section failure is its section's payload. -/
def step11 (pair : Bool) (bs : List Byte) (i : Image) : Option Bad :=
  let bad (sec : Nat) : Option Bad := some ⟨0x0D, sec, dirOfs bs sec⟩
  if (List.range 32).any (fun g => bit i.bind.strandMask g && !bit i.bind.carriageMask (g / 8)) then bad 2
  else if i.bind.decEnabled < enginesNeeded i.bind then bad 2
  else if !loopSetOk i.bind i.loops || !destsDistinct i.loops then bad 3
  else if !camSetOk i.bind i.loops i.cams then bad 4
  else if !queuesOk i.queues then bad 7
  else if policyIn i.policy 11 1 = 1 && i.bind.hankEnabled = 0 then bad 9
  else if pair && !i.pairOk then bad 0
  else none

/-- Steps 1 to 11 of Table 02-14 in order, stopping at the first failure (R65). -/
def validate (f : Fuses) (pair : Bool) (bs : List Byte) : Verdict :=
  let early := orElse (step1 bs) (orElse (step2 bs) (orElse (step3 bs) (orElse (step4 bs) (orElse (step5 bs bs.length 12 0 0x100)
    (orElse (step6 bs) (orElse (step7 bs 0x100 (present bs)) (orElse (step8 f bs) (orElse (step9 f bs) (step10 bs)))))))))
  match early with
  | some b => .fail b.code b.sec b.ofs
  | none =>
    let i := readImage f bs
    match step11 pair bs i with
    | some b => .fail b.code b.sec b.ofs
    | none => .ok i

end Sys2Proof.Machine
end

