-- ==== Sys2Proof/Machine/RegFile.lean ====
section
/-! DEFINITION. The register map as a whole (R542 to R547): the row of an offset, and which registers each reset keeps. -/

namespace Sys2Proof.Machine

/-- Every register of BAR0. -/
def allRows : List RegRow :=
  regsGLB ++ regsCLK ++ regsRST ++ regsIMG ++ regsHQ ++ regsORD ++ regsCHN ++ regsDEC ++ regsSKN ++ regsWRP ++ regsHNK ++
  regsLPE ++ regsSPN ++ regsCRG ++ regsCAM ++ regsBC ++ regsBM ++ regsINT ++ regsCAL ++ regsUNT ++ regsMGT ++ regsPRL

/-- Whether a row holds the register at an offset. -/
def rowHolds (off : Nat) (r : RegRow) : Bool := decide (r.off ≤ off) && inDims r.dims (off - r.off)

/-- The row of the register at an offset; none where no register lies. -/
def rowOf (off : Nat) : Option RegRow := allRows.find? (rowHolds off)

/-- A register of read-only fields alone. -/
def RegRow.readOnly (r : RegRow) : Bool := r.fields.all (fun f => decide (f.acc = .ro))

/-- What a warm reset keeps (Table 19-2): RWS fields and the acceptance sequence count, the latched straps, and the cause,
which the reset then writes anew. -/
def keptWarm (off : Nat) : Bool :=
  match rowOf off with
  | some r => decide (r.dom = .sticky) || decide (r.dom = .latched)
  | none => false

/-- What APPLY keeps: every row of Table 19-2 but the function registers and the RW and WO fields of the last row. A register
of read-only fields shows the present state, whatever the reset. -/
def keptApply (off : Nat) : Bool :=
  match rowOf off with
  | some r =>
    match r.dom with
    | .hqFn => false
    | .other => r.readOnly
    | _ => true
  | none => false

end Sys2Proof.Machine
end

