-- ==== Sys2Proof/Machine/Boot.lean ====
section
/-! DEFINITION. Image chains and boot stages S3 to S5 (R65 to R68, R77, R465 to R468), and the image operations of IMG_CTRL
(R70 to R76). -/

namespace Sys2Proof.Machine

/-! ### Errors and stages -/

/-- Changes the image record. -/
def modImg (f : ImgState → ImgState) (s : State) : State := { s with img := f s.img }

/-- Records a failure in IMG_ERR and IMG_ERR_OFFSET (R65). -/
def imgErr (op code sec ofs : Nat) (s : State) : State :=
  setReg Reg.IMG_ERR_OFFSET (BitVec.ofNat 32 ofs)
    (setFs [(Fld.IMG_ERR_OP, op), (Fld.IMG_ERR_SECTION, sec), (Fld.IMG_ERR_CODE, code)] s)

/-- A refused command: no section, no offset. -/
def imgRefuse (op code : Nat) (s : State) : State := imgErr op code 0xFF 0 s

/-- Starts or ends the image operation under way; IMG_STATUS.BUSY shows it. -/
def setOp (o : ImageOp) (s : State) : State := setFlag Fld.IMG_STATUS_BUSY (o ≠ .none) (modImg (fun i => { i with op := o }) s)

/-- Enters a boot stage; from S3 on GLB_STAGE_T keeps its time in µs (R465). -/
def enterStage (n : Nat) (s : State) : State :=
  let s := setF Fld.GLB_STATUS_STAGE n (setF Fld.IMG_STATUS_STAGE n s)
  let s := { s with pwr := { s.pwr with stageFrom := s.pwr.time } }
  if 3 ≤ n then setReg (Reg.GLB_STAGE_T + 4 * n) (BitVec.ofNat 32 (s.pwr.time / 1000)) s else s

/-- BOOT_SRC as used: 0b11 without PAIR_EN runs the 0b00 chain (R461). -/
def bootSrc (s : State) : Nat :=
  let b := getF s Fld.GLB_STRAPS_BOOT_SRC
  if b = 3 && !pairEn s then 0 else b

/-! ### The running image -/

/-- The IMG registers of the running image (Table 02-18). -/
def showImage (i : Image) (src : Nat) (fallback : Bool) (s : State) : State :=
  let s := set64 Reg.IMG_SERIAL_LO i.serial s
  let s := setReg Reg.IMG_FW_VERSION (BitVec.ofNat 32 i.firmware.version) s
  let s := forEach (fun k s => setReg (Reg.IMG_DIGEST + 4 * k) (i.digest.getD k 0) s) (List.range 12) s
  setFs [(Fld.IMG_STATUS_SOURCE, src), (Fld.IMG_STATUS_SIG_STATE, i.sigState), (Fld.IMG_STATUS_FALLBACK, if fallback then 1 else 0),
    (Fld.IMG_STATUS_DECKID_ZERO, if deckOf i.mgmt s.pwr.straps = 0 then 1 else 0)] s

/-- An image accepted in S3 becomes the running image, and S4 begins (R38, R67). -/
def runImage (cand : Candidate) (src : Nat) (i : Image) (s : State) : State :=
  let fb := !s.img.firstTried
  let slot (b : Bool) : Bool := decide (cand = if b then .slotB else .slotA)
  let s := modImg (fun m => { m with
    running := some i, source := cand, pairWait := false, flashWait := false,
    slots := [if slot false then some i.digest else m.slots.getD 0 none, if slot true then some i.digest else m.slots.getD 1 none] }) s
  let s := setF Fld.IMG_STATUS_HOLDING 0 s
  let s := if fb then evt Fld.IMG_EVT_BOOT_FALLBACK noUnit [] s else s
  enterStage 4 (showImage i src fb s)

/-- The ROM base image runs; under BOOT_SRC 0b01 the media units are held back (R581). -/
def runRom (held : Bool) (s : State) : State := runImage .rom 2 romImage (modImg (fun m => { m with heldBack := held }) s)

/-- The next candidate of a chain: the ROM base image runs at once, a slot is read; with none left the controller holds in
S3 for a pushed image (R66, R68). -/
def nextCandidate (s : State) : State :=
  match s.img.chain with
  | [] => setF Fld.IMG_STATUS_HOLDING 1 (modImg (fun m => { m with flashWait := false, pairWait := false, running := none }) s)
  | .rom :: _ => runRom false s
  | _ => s

/-- The candidate at the head is rejected (R67). -/
def rejectHead (s : State) : State := nextCandidate (modImg (fun m => { m with chain := m.chain.drop 1, firstTried := false }) s)

/-- IMG_ERR.OP of a candidate. -/
def candOp : Candidate → Nat
  | .slotA => 0
  | .slotB => 1
  | .partner => 2
  | .rom => 5

/-- The 0b00 chain starts with the reads of flash (R69). -/
def startFlash (s : State) : State := modImg (fun m => { m with flashWait := true, chain := [], pairWait := false }) s

/-- Runs the chain of BOOT_SRC from its start (Table 02-15). -/
def startChain (s : State) : State :=
  let s := modImg (fun m => { m with running := none, chain := [], firstTried := true, flashWait := false, pairWait := false, heldBack := false }) s
  match bootSrc s with
  | 0 => startFlash s
  | 1 => runRom true s
  | 2 => runRom false s
  | _ => modImg (fun m => { m with pairWait := true }) (if s.pair.linkUp && s.pair.hello.isSome then emit (.jokor 0x32 []) s else s)

/-- IMAGE_SERIAL of a slot from its header; a header that fails the first two steps holds none. -/
def slotSerial (h : List Byte) : Option Nat := if (step1 h).isNone && (step2 h).isNone then some (leAt h 0x10 8) else none

/-- The candidates of the 0b00 chain in order: the higher IMAGE_SERIAL, slot A if equal, then the ROM base image unless
IMG_NO_ROM is blown (Table 02-15, R74). -/
def flashChain (noRom : Bool) (hdrA hdrB : List Byte) : List Candidate :=
  let bFirst : Bool := match slotSerial hdrA, slotSerial hdrB with
    | some a, some b => decide (a < b)
    | none, some _ => true
    | _, none => false
  (if bFirst then [.slotB, .slotA] else [.slotA, .slotB]) ++ (if noRom then [] else [.rom])

/-- FLASH_READ_COMPLETE: the headers and the bytes of the candidate whose turn it is, none where the read failed. -/
def flashReadEff (hdrA hdrB : List Byte) (bytes : Option (List Byte)) (s : State) : State :=
  if stage s ≠ 3 || !s.img.flashWait || halted s then s
  else
    let s := if s.img.chain.isEmpty then modImg (fun m => { m with chain := flashChain m.fuses.noRom hdrA hdrB }) s else s
    match s.img.chain with
    | [] => s
    | cand :: _ =>
      match bytes with
      | none => rejectHead (imgRefuse (candOp cand) 0x0F s)
      | some b =>
        match validate s.img.fuses (pairEn s) b with
        | .fail code sec ofs => rejectHead (imgErr (candOp cand) code sec ofs s)
        | .ok i => runImage cand (candOp cand) i s

/-- PAIR_IMAGE_RECEIVED: the partner's running image, as a candidate of the pair-follow chain (R66, R525). -/
def pairImageEff (bytes : List Byte) (s : State) : State :=
  if stage s ≠ 3 || !s.img.pairWait || halted s then s
  else match validate s.img.fuses (pairEn s) bytes with
    | .fail code sec ofs => startFlash (modImg (fun m => { m with firstTried := false }) (imgErr 2 code sec ofs s))
    | .ok i => runImage .partner 4 i s

/-- PAIR_FOLLOW_TIMEOUT: no image came within 5 s of RESET_N rising. -/
def pairTimeoutEff (s : State) : State :=
  if stage s ≠ 3 || !s.img.pairWait || halted s then s
  else startFlash (modImg (fun m => { m with firstTried := false }) s)

/-! ### S4 and S5 -/

/-- DRAM_ORG fails step 12: it is not 0 and differs from what was found (R429). -/
def orgDiffers (i : Image) (found : Nat) : Bool := i.memory.dramOrg ≠ 0 && i.memory.dramOrg ≠ found

/-- Step 12 fails: an applied image gives way to the chain of BOOT_SRC, any other to the next candidate of its chain (Table
02-16, R67). -/
def failStep12 (i : Image) (s : State) : State :=
  let ofs := if i.memOfs = 0 then 0 else i.memOfs + 0x18
  let s := enterStage 3 s
  if getF s Fld.IMG_STATUS_QSTATE = 3 then
    let s := setOp .none (setF Fld.IMG_STATUS_QSTATE 0 (imgErr 5 0x0E 8 ofs s))
    startChain (evt Fld.IMG_EVT_APPLY_FAIL noUnit [] s)
  else
    let s := imgErr (candOp s.img.source) 0x0E 8 ofs s
    if s.img.source = .partner then startFlash (modImg (fun m => { m with firstTried := false }) s)
    else
      let s := modImg (fun m => { m with flashWait := true }) s
      rejectHead s

/-- Entry to S5: the cache is emptied and partitioned; after APPLY the training is kept, and step 12 is made against what it
found (R77, R425). -/
def enterS5 (s : State) : State :=
  match s.img.running with
  | none => s
  | some i =>
    let s := cacheS5 i.memory.scratchWays i.memory.hashSeed (enterStage 5 s)
    if s.img.applied then
      if !i.isRom && orgDiffers i (bits (getReg s Reg.BM_ORG).toNat 0 8) then failStep12 i s else setF Fld.BM_STATUS_STATE 1 s
    else s

/-- BIST_DONE: the failed memories by group and instance, in the order found (R466, R467). -/
def bistDoneEff (fails : List (Nat × Nat)) (s : State) : State :=
  if stage s ≠ 4 || halted s then s
  else
    let first := fails.head?.getD (0, 0)
    let s := setFs [(Fld.GLB_BIST_FULL, if s.img.applied then 0 else 1), (Fld.GLB_BIST_FAIL_COUNT, min 255 fails.length),
      (Fld.GLB_BIST_FIRST_GROUP, first.1), (Fld.GLB_BIST_FIRST_INSTANCE, first.2)] s
    let s := { s with pwr := { s.pwr with bistFails := s.pwr.bistFails ++ fails } }
    let s := forEach (fun e s => bistOut e.1 e.2 s) fails s
    if halted s then s else enterS5 s

/-- A state decided before S6, which becomes the unit's first (R499, R512). -/
def decideEarly (u : Nat) (tgt : UState) (why : Reason) (s : State) : State :=
  let e := unitOf s u
  { s with unt := { s.unt with tab := Tbl.put {} u { e with state := tgt, reason := why } s.unt.tab } }

/-- One channel's part of the training's outcome (R434). -/
def channelTrained (ch : Nat) (ok : Bool) (s : State) : State :=
  let d := 4 * ch
  if ok then setFlag (Fld.BM_CH_STATUS_TRAINED.at d) true s
  else
    let s := setFlag (Fld.BM_CH_STATUS_FAULTED.at d) true s
    evt Fld.BM_EVT_TRAIN_FAIL noUnit [⟨1, ch⟩] (decideEarly (uBuf ch) .faulted .integrity s)

/-- Capacity of both channels in GiB by Table 14-1: ranks, devices of 64 bits, and Gbit over 8. -/
def orgGiB (org : Nat) : Nat := 2 * (bits org 6 2) * (if bits org 4 2 = 1 then 8 else 4) * bits org 0 4

/-- DDR_TRAINING_DONE: which channels passed, and the organisation of each (R429, R433, R434). -/
def trainingEff (ok0 ok1 : Bool) (org0 org1 : Nat) (s : State) : State :=
  match s.img.running with
  | none => s
  | some i =>
    if stage s ≠ 5 || s.img.applied || halted s || getF s Fld.BM_STATUS_STATE ≠ 0 then s
    else if !ok0 && !ok1 then halt 3 (channelTrained 1 false (channelTrained 0 false s))
    else
      let org := if ok0 then org0 else org1
      let bad := !i.isRom && ((ok0 && ok1 && org0 ≠ org1) || !dramOrgOk org || org = 0 || orgDiffers i org)
      if bad then failStep12 i s
      else
        let s := channelTrained 1 ok1 (channelTrained 0 ok0 s)
        let s := setReg Reg.BM_ORG (BitVec.ofNat 32 (i.memory.mapOrder * 0x1000000 + orgGiB org * 0x10000 + org)) s
        let s := setFs [(Fld.BM_STATUS_STATE, 1), (Fld.BM_STATUS_POINT, i.memory.ddrPoint % 2), (Fld.BM_STATUS_SET, 0)] s
        setF refInterval 3900 s

/-! ### Quiesce and apply (Table 02-16) -/

/-- A key that the command needs is wrong: the command is ignored, and BAD_KEY recorded. -/
def withKey (key : Nat) (f : State → State) (s : State) : State := if key = 0x5A then f s else imgRefuse 7 0x16 s

/-- An image operation runs already (R71). -/
def whenFree (f : State → State) (s : State) : State := if s.img.op = .none then f s else imgRefuse 7 0x10 s

/-- QUIESCE: fetching stops; held writes are committed. -/
def quiesceEff (s : State) : State :=
  if getF s Fld.IMG_STATUS_QSTATE ≠ 0 then s else sealAll (setF Fld.IMG_STATUS_QSTATE 1 s)

/-- QUIESCE_COMPLETE: the last command has completed and the held writes are committed, or cannot be. -/
def quiesceDoneEff (s : State) : State :=
  if getF s Fld.IMG_STATUS_QSTATE ≠ 1 || !(cmds s).isEmpty then s
  else if heldLeft s && !carMissing s then s
  else
    let lost := heldLeft s
    let cs := (boundCars s).filter (fun c => (ust s (uCar c)).serves)
    let s := modImg (fun m => { m with quiesceTook := cs }) (setF Fld.IMG_STATUS_QSTATE 2 s)
    let s := forEach (fun c s => carDown c (change (uCar c) .offline .request s)) cs s
    let s := if lost then imgRefuse 7 0x13 s else s
    evt Fld.IMG_EVT_QUIESCED noUnit [] s

/-- RESUME: fetching resumes, and READY is requested for the carriages that the quiesce took OFFLINE. -/
def resumeEff (s : State) : State :=
  let q := getF s Fld.IMG_STATUS_QSTATE
  if q = 1 || q = 2 then
    let cs := s.img.quiesceTook
    let s := modImg (fun m => { m with quiesceTook := [] }) (setF Fld.IMG_STATUS_QSTATE 0 s)
    forEach (fun c s => policyReq (uCar c) 0x03 s) cs s
  else s

/-- Towards the host every function behaves as after an FLR, with ring contexts and doorbells discarded (R77). -/
def hostApplied (s : State) : State :=
  let h := s.host
  { s with host := { clock := h.clock, hiHold := [], loHold := [] } }

/-- APPLYING begins: S3 is entered with an image, which passed steps 1 to 11 (R77). -/
def enterApply (src : Nat) (i : Image) (s : State) : State :=
  let was := holding s
  let s := releaseOutputs (setOp .apply (setF Fld.IMG_STATUS_QSTATE 3 s))
  let s := if was then s else
    let keepEng (e : HankEng) : HankEng := { faulted := e.faulted, bistFailed := e.bistFailed }
    let vols := s.media.vols.map (fun e => (e.1, ({ replay := e.2.replay } : Volume)))
    let eng := s.media.hank.engines.map keepEng
    let cars := s.media.cars.map (fun w => ({ queue := w.queue } : WriteCar))
    let homes := s.mot.cars.map (fun m => ({ home := m.home } : CarMotion))
    let s := modDisc (fun _ => {}) { s with media := { s.media with vols := vols, cars := cars, relocs := [], hank := { s.media.hank with engines := eng } } }
    let pl := s.pool
    let s := hostApplied { s with
      mot := { cars := homes }, chn := {}, cal := {},
      pool := { engDead := pl.engDead, redetDead := pl.redetDead, sengDead := pl.sengDead } }
    let s := { s with
      unt := { s.unt with waiting := [], open_ := [], bufService := [] },
      mgt := { s.mgt with policy := [] },
      pwr := { s.pwr with armed := false, policyRunning := false, policyHeld := false, wdogLast := none, wdogUnits := [] } }
    keepRegs keptApply s
  let s := modImg (fun m => { m with firstTried := true, applied := !was, heldBack := false, stagedImage := none, staged := [], quiesceTook := [] }) s
  let s := setF Fld.IMG_STATUS_STAGED_VALID 0 (setF Fld.IMG_STATUS_HOLDING 0 s)
  runImage .partner src i (enterStage 3 s)

/-- APPLY (Table 02-16, R539): in a pair at the owner alone, and with a partner in sync after its validation. -/
def applyEff (key : Nat) (s : State) : State :=
  withKey key (whenFree (fun s =>
    let q := getF s Fld.IMG_STATUS_QSTATE
    let hold := holding s
    if pairEn s && !hold && !isOwner s then imgRefuse 7 0x17 s
    else if q = 3 || (q = 1 && hold) then s
    else if q ≠ 2 && !hold then imgRefuse 7 0x14 s
    else match s.img.stagedImage with
      | none => imgRefuse 7 0x15 s
      | some i =>
        if mirroring s && !hold then emit (.jokor 0x33 (s.img.staged.map (·.toNat))) (setOp .apply s)
        else enterApply (if s.img.stagedByDmp then 5 else 3) i s)) s

/-! ### The staging area (R70) -/

/-- The staging area takes new content: STAGED_VALID is 0. -/
def clearStaged (s : State) : State :=
  setF Fld.IMG_STATUS_STAGED_VALID 0 (modImg (fun m => { m with stagedImage := none }) s)

/-- The staged bytes are validated through step 11. -/
def validateStaged (byDmp : Bool) (bytes : List Byte) (s : State) : State :=
  let s := setOp .none s
  match validate s.img.fuses (pairEn s) bytes with
  | .fail code sec ofs => evt Fld.IMG_EVT_FETCH_FAIL noUnit [] (imgErr 3 code sec ofs s)
  | .ok i =>
    let s := modImg (fun m => { m with staged := bytes, stagedImage := some i, stagedByDmp := byDmp }) s
    evt Fld.IMG_EVT_FETCH_DONE noUnit [] (setF Fld.IMG_STATUS_STAGED_VALID 1 s)

/-- FETCH: a read of host memory, or a refusal with PUSH_ADDR. -/
def fetchImageEff (s : State) : State :=
  whenFree (fun s =>
    let len := (getReg s Reg.IMG_PUSH_LEN).toNat
    let addr := get64 s Reg.IMG_PUSH_ADDR_LO
    if addr % 64 ≠ 0 || len % 64 ≠ 0 || len < 0x100 || 0x800000 < len then imgRefuse 7 0x18 s
    else emit (.hostRead 0 addr len) (setOp .fetch (clearStaged s))) s

/-- FETCH_READ_COMPLETE: the bytes read, none for an unsuccessful completion. -/
def fetchDoneEff (bytes : Option (List Byte)) (s : State) : State :=
  if s.img.op ≠ .fetch then s
  else match bytes with
    | none => evt Fld.IMG_EVT_FETCH_FAIL noUnit [] (imgRefuse 3 0x19 (setOp .none s))
    | some b => validateStaged false b s

/-- PROG_A and PROG_B: steps 1 to 4 of R72. -/
def progEff (slotB : Bool) (key : Nat) (s : State) : State :=
  withKey key (whenFree (fun s =>
    match s.img.stagedImage with
    | none => imgRefuse 7 0x15 s
    | some _ =>
      let inUse : Bool := match s.img.running with
        | some r => s.img.slots.getD (if slotB then 1 else 0) none == some r.digest
        | none => false
      if inUse then imgRefuse 4 0x11 s else emit (.flashWrite slotB s.img.staged) (setOp (.prog slotB) s))) s

/-- PROG_COMPLETE: the outcome of the read-back compare. -/
def progDoneEff (same : Bool) (s : State) : State :=
  match s.img.op with
  | .prog slotB =>
    let d : Option (List Word) := if same then s.img.stagedImage.map (·.digest) else none
    let s := modImg (fun m => { m with slots := modAt (if slotB then 1 else 0) (fun _ => d) m.slots }) (setOp .none s)
    evt (if same then Fld.IMG_EVT_PROG_DONE else Fld.IMG_EVT_PROG_FAIL) noUnit [] s
  | _ => s

/-! ### Fuses (R75) -/

/-- Changes the fuse bank. -/
def burn (f : Fuses → Fuses) (s : State) : State := modImg (fun m => { m with fuses := f m.fuses }) s

/-- A burn: only in S7 while QUIESCED, and only where the fuses allow it. -/
def burnEff (key : Nat) (refused : State → Bool) (f : State → State) (s : State) : State :=
  withKey key (whenFree (fun s =>
    if stage s ≠ 7 || getF s Fld.IMG_STATUS_QSTATE ≠ 2 then imgRefuse 6 0x14 s
    else if refused s then imgRefuse 6 0x12 s else f s)) s

/-- IMG_KEYDIG as it reads: the fuses until it is written, and once KEY_BURNT is blown. -/
def keyDig (s : State) (k : Nat) : Word :=
  if s.img.fuses.keyBurnt then s.img.fuses.keyDigest.getD k 0 else getReg s (Reg.IMG_KEYDIG + 4 * k)

/-- BURN_KEY. -/
def burnKeyEff (key : Nat) (s : State) : State :=
  burnEff key (fun s => s.img.fuses.keyBurnt)
    (fun s => burn (fun x => { x with keyBurnt := true, keyDigest := (List.range 12).map (keyDig s) }) s) s

/-- BURN_ENFORCE. -/
def burnEnforceEff (key : Nat) (s : State) : State :=
  burnEff key (fun s => !s.img.fuses.keyBurnt) (burn (fun x => { x with enforce := true })) s

/-- BURN_NOROM. -/
def burnNoRomEff (key : Nat) (s : State) : State :=
  burnEff key (fun s => !s.img.fuses.enforce) (burn (fun x => { x with noRom := true })) s

/-- BURN_REVOKE of key n, refused for the key of the running firmware. -/
def burnRevokeEff (key n : Nat) (s : State) : State :=
  burnEff key (fun s => match s.img.running with | some i => i.firmware.vendorKey == n % 4 | none => false)
    (burn (fun x => { x with revoke := x.revoke ||| BitVec.ofNat 4 (2 ^ (n % 4)) })) s

end Sys2Proof.Machine
end

