-- ==== Sys2Proof/Machine/Net.lean ====
section
/-! DEFINITION. The management port's settings (R61, R62, R514): what is in use, and how new settings and new addresses take
effect. -/

namespace Sys2Proof.Machine

/-- Bytes 0x04 to 0x24 of the MGMT fixed part, as NET_SET carries them. -/
def netBytes (m : MgmtCfg) : List Byte :=
  leBytes 2 m.udpPort ++ leBytes 1 m.netFlags ++ leBytes 1 m.ptpDomain ++ leBytes 4 m.ipv4 ++ leBytes 1 m.ipv4Prefix ++
    leBytes 1 m.i3cStatic ++ leBytes 2 m.vlan ++ leBytes 4 m.ipv4Gw ++ m.ipv6 ++ leBytes 1 m.ipv6Prefix

/-- Changes the management record. -/
def modMgt (f : MgmtState → MgmtState) (s : State) : State := { s with mgt := f s.mgt }

/-- The management port is enabled: PORT_EN, and a deck ID that is not 0 (R61, R62). -/
def portOn (s : State) : Bool := bit (leAt s.mgt.net 2 1) 4 && deckId s ≠ 0

/-- MGT_EVT.ADDR_CHANGE with the address in use. -/
def addrEvt (s : State) : State :=
  evt Fld.MGT_EVT_ADDR_CHANGE noUnit
    [⟨4, (getReg s Reg.MGT_IPV4).toNat⟩, ⟨8, get64 s Reg.MGT_IPV6⟩, ⟨8, get64 s (Reg.MGT_IPV6 + 8)⟩] s

/-- Puts an IPv4 address, an IPv6 address in use, 0 for none. -/
def putIpv4 (a : Nat) (s : State) : State :=
  setFlag Fld.MGT_STATUS_IPV4_OK (a ≠ 0) (setReg Reg.MGT_IPV4 (BitVec.ofNat 32 a) s)
def putIpv6 (a : List Byte) (s : State) : State :=
  let s := forEach (fun i s => setReg (Reg.MGT_IPV6 + 4 * i) (BitVec.ofNat 32 (leAt a (4 * i) 4)) s) [0, 1, 2, 3] s
  setFlag Fld.MGT_STATUS_IPV6_OK (a.any (fun b => decide (b ≠ 0))) s

/-- Network settings take effect: a static address is in use at once, one from DHCP or SLAAC once it is given. A disabled port
takes no address and runs no PTP clock (R62). -/
def applyNet (net : List Byte) (s : State) : State :=
  let s := modMgt (fun m => { m with net := net }) s
  let on := portOn s
  let fl := leAt net 2 1
  let s := setFlag Fld.MGT_STATUS_PORT_ON on s
  let s := putIpv4 (if on && bit fl 0 && !bit fl 1 then leAt net 4 4 else 0) s
  let s := putIpv6 (if on && bit fl 2 && !bit fl 3 then slice net 16 16 else []) s
  if on then s else setF Fld.MGT_STATUS_PTP 0 (modMgt (fun m => { m with ptpGood := 0 }) s)

/-- ADDR_CHANGE: DHCP or SLAAC gives an address, where the settings ask for it (R514). -/
def addrChangeEff (v6 : Bool) (a : List Byte) (s : State) : State :=
  let fl := leAt s.mgt.net 2 1
  if !portOn s then s
  else if v6 then (if bit fl 2 && bit fl 3 then addrEvt (putIpv6 a s) else s)
  else if bit fl 0 && bit fl 1 then addrEvt (putIpv4 (leAt a 0 4) s) else s

/-- NET_SET_APPLY: the settings of the last NET_SET take effect; an address that changes with them is an ADDR_CHANGE. -/
def netApplyEff (s : State) : State :=
  match s.mgt.netPending with
  | none => s
  | some n =>
    let s' := applyNet n (modMgt (fun m => { m with netPending := none }) s)
    if getReg s Reg.MGT_IPV4 ≠ getReg s' Reg.MGT_IPV4 || get64 s Reg.MGT_IPV6 ≠ get64 s' Reg.MGT_IPV6 ||
        get64 s (Reg.MGT_IPV6 + 8) ≠ get64 s' (Reg.MGT_IPV6 + 8) then addrEvt s' else s'

end Sys2Proof.Machine
end

