-- ==== Sys2Proof/Machine/Power.lean ====
section
/-! DEFINITION. Supplies, resets, clocks and boot stages (R454 to R476), power failure (R472 to R474), the work of S6 and S7
(R471), and thermal responses (R37). -/

namespace Sys2Proof.Machine

/-- Changes the power record. -/
def modPwr (f : PowerState → PowerState) (s : State) : State := { s with pwr := f s.pwr }

/-! ### Resets (Table 15-2) -/

/-- What every reset of the device leaves: fuses, MRAM, the levels of the input pins, and the registers that it keeps; what the
model has sent out, its free values and the commands that wait are not the device's. -/
def resetWith (keep : Nat → Bool) (s : State) : State :=
  let p := s.pwr
  { s with
    regs := s.regs.filter (fun e => keep e.1)
    pwr := { railsGood := p.railsGood, rstLow := p.rstLow, holdDone := p.holdDone, straps := p.straps, refPresent := p.refPresent,
             perst := p.perst, ilk := p.ilk, discActive := p.discActive, cartSns := p.cartSns }
    pins := {}
    img := { fuses := s.img.fuses }
    unt := {}
    cal := {}
    mgt := {}
    mram := { recs := s.mram.recs, hist := s.mram.hist }
    mem := {}
    bc := {}
    host := {}
    media := {}
    mot := { cars := s.mot.cars.map (fun m => { home := m.home }) }
    chn := {}
    pool := {}
    pair := { ownNet := s.pair.ownNet || s.pins.ownN } }

/-- A cold reset: the controller stands in S0 until every rail is good and RESET_N has risen. -/
def coldReset (s : State) : State :=
  let s := resetWith (fun _ => false) s
  let s := modPwr (fun p => { p with railsGood := false, rstLow := true, holdDone := false, straps := 0 }) s
  setReg Reg.RST_CAUSE 1#32 { s with tap := {} }

/-- Deck time starts, and S2 begins, once RESET_N is high, the hold has ended and the PLL is locked (Table 15-5, R518). The
strap conflict of R461 is shown. -/
def enterS2 (s : State) : State :=
  let p := s.pwr
  if stage s = 1 && p.railsGood && p.holdDone && !p.rstLow && p.pllLocked && !p.clockLost then
    let s := modPwr (fun p => { p with time := 0, ticks := 0, counting := true, linkUp := !p.perst && p.refPresent }) s
    let s := enterStage 2 s
    if getF s Fld.GLB_STRAPS_BOOT_SRC = 3 && !pairEn s then
      glbEvt Fld.GLB_EVT_STRAP_CONFLICT [] (setF Fld.GLB_STATUS_STRAP_CONFLICT 1 s)
    else s
  else s

/-- A warm reset with its cause, from S1 on; the PLL of a clock loss has just locked. -/
def warmReset (cause : Nat) (s : State) : State :=
  let s := resetWith keptWarm s
  let s := setReg Reg.RST_CAUSE (BitVec.ofNat 32 cause) (bumpBy Reg.RST_WARM_COUNT 1 s)
  let s := modPwr (fun p => { p with pllLocked := decide (cause = 4) }) s
  enterS2 (enterStage 1 s)

/-- COLD_RESET: power-up, or a rail below its threshold (R457). -/
def coldResetEff (s : State) : State := coldReset s

/-- RAIL_FAIL: a rail below its threshold for more than 2 µs; the safe outputs go to high impedance (R456). -/
def railFailEff (s : State) : State := releaseOutputs (coldReset s)

/-- RAILS_GOOD. -/
def railsGoodEff (s : State) : State :=
  if stage s = 0 && !s.pwr.railsGood then enterStage 1 (modPwr (fun p => { p with railsGood := true }) s) else s

/-- INTERNAL_HOLD_END (R458). -/
def holdEndEff (s : State) : State :=
  if stage s = 1 && s.pwr.railsGood && !s.pwr.holdDone then enterS2 (modPwr (fun p => { p with holdDone := true }) s) else s

/-- PLL_LOCK. -/
def pllLockEff (s : State) : State :=
  if stage s = 1 && s.pwr.railsGood && !s.pwr.clockLost then enterS2 (modPwr (fun p => { p with pllLocked := true }) s) else s

/-- RESET_N_ASSERT: low for at least 10 µs with every rail good (R457, R458). -/
def resetAssertEff (s : State) : State :=
  if s.pwr.railsGood then warmReset 2 (modPwr (fun p => { p with rstLow := true }) s) else modPwr (fun p => { p with rstLow := true }) s

/-- RESET_N_RISE latches the straps, laid out as in GLB_STRAPS (R461). -/
def resetRiseEff (straps : Nat) (s : State) : State :=
  if !s.pwr.rstLow then s
  else
    let w := BitVec.ofNat 32 straps &&& 0x3F33#32
    enterS2 (modPwr (fun p => { p with rstLow := false, straps := w.toNat }) (setReg Reg.GLB_STRAPS w s))

/-- The counters record is written at once, before a reset or at a power failure (R448, R450, R459); a record that cannot be
read back leaves its slot invalid. -/
def saveNow (same : Bool) (s : State) : State :=
  let b := olderSlot (mramRec s 0x20 0)
  let g := nextGeneration (mramRec s 0x20 0) b
  let bytes := counterBytes s
  let s := putSlot 0x20 0 b (if same then some { generation := g, payload := bytes } else none) s
  { s with mram := { s.mram with carry := [], base := cntRegs.foldl (fun m o => Tbl.put 0 o (getReg s o).toNat m) [] } }

/-- SOFT_WARM_RESET: a write of v to RST_CTRL; same says that the counters record reads back the same (R459). -/
def softResetEff (v : Word) (same : Bool) (s : State) : State :=
  if wordBits v 31 24 = 0xA5 && wordBits v 0 0 = 1 then warmReset 3 (saveNow same s) else s

/-- CLOCK_LOSS: the safe outputs are released, and the controller waits in S1 for the PLL (R460). -/
def clockLossEff (s : State) : State :=
  if s.pwr.railsGood then
    let s := releaseOutputs (modPwr (fun p => { p with clockLost := true, pllLocked := false, counting := false }) s)
    setF Fld.GLB_STATUS_STAGE 1 (setF Fld.IMG_STATUS_STAGE 1 s)
  else s

/-- CLOCK_RELOCK: a warm reset with the cause CLOCK. -/
def clockRelockEff (s : State) : State := if s.pwr.clockLost then warmReset 4 s else s

/-! ### Boot stages (R465 to R471) -/

/-- While holding in S3 the management port runs with the values of the ROM base image (R68). -/
def afterChain (s : State) : State :=
  if holding s && s.mgt.net.isEmpty then applyNet (netBytes romImage.mgmt) s else s

/-- ROM_CHECK_DONE: S3, or a halt with ROM_CHECK. -/
def romCheckEff (ok : Bool) (s : State) : State :=
  if stage s ≠ 2 || halted s then s
  else if ok then afterChain (startChain (enterStage 3 s)) else halt 1 s

/-- FLASH_READ_COMPLETE; fast says that the flash's SFDP tables have an 8D-8D-8D entry (R69). -/
def flashReadRow (fast : Bool) (hdrA hdrB : List Byte) (bytes : Option (List Byte)) (s : State) : State :=
  let s := if stage s = 3 && s.img.flashWait && !halted s then setFlag Fld.CLK_STATUS_XSPI_FAST fast s else s
  afterChain (flashReadEff hdrA hdrB bytes s)

/-- BIST_DONE. -/
def bistDoneRow (fails : List (Nat × Nat)) (s : State) : State := afterChain (bistDoneEff fails s)

/-- DDR_TRAINING_DONE. -/
def trainingRow (ok0 ok1 : Bool) (org0 org1 : Nat) (s : State) : State := afterChain (trainingEff ok0 ok1 org0 org1 s)

/-- The owner drives its safe outputs inactive and the actuator DACs at code 0 (R464). -/
def driveOutputs (s : State) : State :=
  { s with
    pins := { s.pins with driven := true, len := List.replicate 4 false, wgate := List.replicate 4 false,
                          dacOn := List.replicate 4 true, sledGates := List.replicate 4 false, spnGates := false }
    mot := { s.mot with dacs := List.replicate 20 {} } }

/-- PAIR_OWN_N is driven low, and this device is the owner (R523, R528). -/
def takeOwnership (s : State) : State :=
  let s := { s with pair := { s.pair with own := .owner, ownNet := if pairEn s then false else s.pair.ownNet }
                    pins := { s.pins with ownN := pairEn s } }
  setF Fld.GLB_STATUS_OWNER 1 s

/-- The partner's hello has come with the other role (R525). -/
def helloPassed (s : State) : Bool :=
  match s.pair.hello with
  | some h => decide (h.1 ≠ getF s Fld.GLB_STRAPS_PAIR_ROLE)
  | none => false

/-- IMG_DIGEST as it reads. -/
def ownDigest (s : State) : List Word := (List.range 12).map (fun k => getReg s (Reg.IMG_DIGEST + 4 * k))

/-- Image digests or deck IDs differ, once both devices have passed S3 (R525). -/
def helloDiffers (s : State) : Bool :=
  match s.pair.hello with
  | some (_, d, k, stg) => decide (4 ≤ stg) && decide (4 ≤ stage s) && (decide (d ≠ ownDigest s) || decide (k ≠ deckId s))
  | none => false

/-- A role conflict bars both devices from claiming (R525). -/
def roleClash (s : State) : Bool := s.pair.hello.isSome && !helloPassed s

/-- The rows of Table 18-2 at entry to S6. -/
def ownAtS6 (s : State) : State :=
  if !pairEn s then takeOwnership s
  else if s.pair.own ≠ .wait || roleClash s then s
  else if !s.pair.ownNet || getF s Fld.GLB_STRAPS_PAIR_ROLE = 1 then { s with pair := { s.pair with own := .follower } }
  else if helloPassed s then takeOwnership s
  else s

/-- PAIR_OWN_N as sampled: high only where this device does not drive it (R528). -/
def sampleNet (high : Bool) (s : State) : State := { s with pair := { s.pair with ownNet := high && !s.pins.ownN } }

/-- BRINGUP_DONE, with the level of PAIR_OWN_N: buffer memory is zeroed, after APPLY its reserved regions alone, and S6 is entered (R468); the early log joins
the event log (R512). -/
def bringupEff (ownHigh : Bool) (s : State) : State :=
  if stage s ≠ 5 || halted s || getF s Fld.BM_STATUS_STATE ≠ 1 then s
  else
    let top := memGiB s * 0x40000000 - 0x2000000
    let s := modMem (fun m => { m with bytes := if s.img.applied then m.bytes.filter (fun e => decide (e.1 < top)) else [] }) s
    let s := enterStage 6 s
    let all := s.mgt.log ++ s.mgt.early
    let s := bumpBy (Reg.MGT_CNT + 24) (all.length - 65536) s
    let s := { s with mgt := { s.mgt with log := all.drop (all.length - 65536), early := [] } }
    let s := modPwr (fun p => { p with linkUp := !p.perst && p.refPresent }) s
    ownAtS6 (sampleNet ownHigh s)

/-- A unit's first state, with what led to it (R471, R499). answers are the carriages' on their Pickup Driver Links. -/
def firstState (answers : List Bool) (s : State) (u : Nat) : UState × Reason :=
  let start : UState := if s.img.heldBack then .offline else .starting
  let now := ust s u
  let probe : Bool := match s.img.running with | some i => i.bind.probe | none => true
  let car (c : Nat) : UState × Reason :=
    if answers.getD c false then (start, .firstState) else (if probe then .absent else .faulted, .probe)
  if now = .faulted then (.faulted, (unitOf s u).reason)
  else if u = uDisc || isSide u then (if discSensed s then .offline else .absent, .firstState)
  else if u = uSpindle then (start, .firstState)
  else if isBuf u then (.ready, .firstState)
  else if u = uPartner then
    if !pairEn s then (.absent, .firstState)
    else if s.pwr.bistFails.any (fun e => e.1 == 11) then (.faulted, .integrity)
    else if s.pair.conflict then (.faulted, .pair)
    else if now ≠ .absent then (now, .firstState)
    else (if s.pair.linkUp && helloPassed s then .starting else .offline, .firstState)
  else if !bound s u then (.absent, .firstState)
  else if isCar u then car (u - 4)
  else if isStrand u then
    let c := (u - 0x20) / 8
    if s.pwr.bistFails.contains (10, u - 0x20) then (.faulted, .integrity)
    else match (if ust s (uCar c) = .faulted then UState.faulted else (car c).1) with
      | .absent => (.absent, .probe)
      | .faulted => (.offline, .firstState)
      | st => (st, .firstState)
  else (if now = .absent then .absent else .offline, .firstState)

/-- The units with an entry, in the order of their numbers, strands before their carriages last. -/
def unitNumbers : List Nat := [0, 1, 2, 8, 10, 11, 12] ++ (List.range 32).map uStrand ++ [4, 5, 6, 7] ++ (List.range 64).map uVol

/-- Records a unit at S6: its first state with epoch 1 after a reset, a change where the state differs after APPLY (R499). -/
def recordFirst (u : Nat) (to_ : UState × Reason) (s : State) : State :=
  if (unitOf s u).epoch = 0#32 then
    let s := { s with unt := { s.unt with tab := Tbl.put {} u {} s.unt.tab } }
    if to_.1 = .absent then
      { s with unt := { s.unt with tab := Tbl.put {} u { reason := to_.2, epoch := 1#32, changed := s.pwr.time } s.unt.tab } }
    else recordChange u .internal 0 (putState u to_.1 to_.2 s)
  else change u to_.1 to_.2 s

/-- The image's Initial items and the fields that the image gives (R39, R546). -/
def loadImage (i : Image) (s : State) : State :=
  let q := i.queues
  let s := setReg Reg.HQ_WEIGHT (BitVec.ofNat 32 (q.wL * 65536 + q.wM * 256 + q.wH)) s
  let s := setReg Reg.HQ_U_BUDGET (BitVec.ofNat 32 q.uBudget) s
  let s := setF Fld.BM_CTRL_POINT (i.memory.ddrPoint % 2) s
  let s := setF Fld.BM_ORG_MAP_ORDER i.memory.mapOrder s
  let s := forEach (fun p s => setReg (Reg.BM_QOS + 4 * p) (BitVec.ofNat 32 (i.memory.qos.getD p 0)) s) (List.range 7) s
  let s := setReg Reg.MGT_DECK_ID (BitVec.ofNat 32 (deckId s)) s
  let s := modMgt (fun m => { m with policy := i.policy.foldl (fun t e => Tbl.put (policyDefault e.1) e.1 e.2 t) [] }) s
  let s := applyNet (netBytes i.mgmt) s
  let s := setReg Reg.SPN_RATE_REQ (BitVec.ofNat 32 i.motors.spinMax) s
  arbitrate (modSpn (fun p => { p with rateReq := i.motors.spinMax }) s)

/-- The cams of the image: both tables of values loaded, those with ENGAGE_AT_ARM engaged at the next base period (R331). -/
def loadCams (i : Image) (s : State) : State :=
  let s := { s with mot := { s.mot with cams := List.replicate 64 {} } }
  let s := forEach (fun c s => modCam c.table (fun x => { x with active := c.values, engage := if c.engageAtArm then some true else none }) s) i.cams s
  forEach (fun c s =>
    let ok : Bool := match layerJumpCam s c with
      | some r => shapeOk r.values
      | none => false
    if ok then s else crgEvt Fld.CRG_EVT_JUMP_SHAPE c (modCar c (fun m => { m with shapeDefault := true }) s)) (boundCars s) s

/-- The record of a sled home, and of the runs of calibrations in the lifetime counters (R492, R496). -/
def loadHomes (s : State) : State :=
  forEach (fun c s => match mramPayload s 0x13 (1 + c) with
    | some b => setReg (cfld ⟨Reg.CRG_HOME_RADIUS, 31, 0⟩ c).off (BitVec.ofNat 32 (leAt b 8 4 % 65536)) s
    | none => s) (boundCars s) s

/-- CAL_LAST_RUN from the lifetime totals. -/
def loadRuns (s : State) : State :=
  let b := (mramPayload s 0x20 0).getD []
  let at_ (k : Nat) : Nat := leAt b (4 * (cntRegs.takeWhile (fun o => decide (o ≠ Reg.CAL_CNT + 4 * k))).length) 4
  setReg Reg.CAL_LAST_RUN (BitVec.ofNat 32 (if b.isEmpty then 0 else at_ 0 + at_ 1 + at_ 2)) s

/-- The loops with ENABLE_AT_ARM are asked for, at an owner. -/
def armLoops (i : Image) (s : State) : State :=
  forEach (fun l s => if l.enableAtArm then askEnable l.slot true s else s) i.loops s

/-- ARM: the work of S6 (R471). answers are the carriages' answers on their Pickup Driver Links. -/
def armEff (answers : List Bool) (s : State) : State :=
  match s.img.running with
  | none => s
  | some i =>
    if stage s ≠ 6 || s.pwr.armed || halted s then s
    else
      let s := modPwr (fun p => { p with policyRunning := true, policyHeld := false }) s
      let s := loadImage i s
      let s := forEach (fun k s => readRec k.1 k.2 s) ((0x01, 0) :: (0x20, 0) :: (List.range 5).map (fun k => (0x13, k)) ++
        (List.range 64).map (fun k => (0x11, k))) s
      let s := buildZones s
      let s := if pairEn s && helloDiffers s && !s.pair.conflict
        then prlEvt Fld.PRL_EVT_IMAGE_MISMATCH (modPair (fun p => { p with conflict := true }) s) else s
      let firsts := unitNumbers.map (fun u => (u, firstState answers s u))
      let s := forEach (fun e s => recordFirst e.1 e.2 s) firsts s
      let s := loadCams i (loadLoops i (setReg Reg.LPE_GSTATUS 0#32 s))
      let s := forEach loadServo (boundCars s) s
      let s := loadRuns (loadHomes s)
      let s := setReg Reg.INT_SCRUB_INTERVAL (BitVec.ofNat 32 (scrubInterval s)) s
      let s := { s with host := { s.host with creditH := 0, creditM := 0, creditL := 0, cursor := [0, 0, 0, 0] } }
      let s := if ust s uPartner = .starting then modPair (fun p => { p with syncing := true }) s else s
      let s := if isOwner s then armLoops i (driveOutputs s) else s
      modPwr (fun p => { p with armed := true }) s

/-- RUN_ENTRY: S7; an applied image has taken over (Table 02-16), and the firmware makes its requests (R471). -/
def runEntryEff (s : State) : State :=
  if stage s ≠ 6 || !s.pwr.armed || halted s then s
  else
    let s := enterStage 7 s
    let s := if getF s Fld.IMG_STATUS_QSTATE = 3 then setOp .none (setF Fld.IMG_STATUS_QSTATE 0 s) else s
    policyStarts s

/-! ### PCIe (R470) -/

/-- PERST_N_ASSERT. -/
def perstEff (s : State) : State :=
  let s := modPwr (fun p => { p with perst := true, linkUp := false }) s
  if 6 ≤ stage s && !halted s then
    flrEff 0 (glbEvt Fld.GLB_EVT_PERST [] (modPwr (fun p => { p with perstFlr := true }) s))
  else s

/-- PERST_N_RELEASE: the link trains again. -/
def perstReleaseEff (s : State) : State :=
  modPwr (fun p => { p with perst := false, linkUp := p.refPresent && decide (2 ≤ stage s) }) s

/-- PCIE_REF_LOST. -/
def refLostEff (s : State) : State :=
  if s.pwr.refPresent then evt Fld.CLK_EVT_PCIE_REF_LOST noUnit [⟨1, stage s⟩] (modPwr (fun p => { p with refPresent := false, linkUp := false }) s) else s

/-- PCIE_REF_PRESENT: link training, which waited for it, starts. -/
def refPresentEff (s : State) : State :=
  modPwr (fun p => { p with refPresent := true, linkUp := !p.perst && decide (2 ≤ stage s) }) s

/-- XTAL_PPM_MEASURE in 0.01 ppm (R475). -/
def xtalEff (v : Int) (s : State) : State :=
  if s.pwr.refPresent then setReg Reg.CLK_XTAL_PPM (BitVec.ofNat 32 (0x80000000 + unsigned 24 v)) s else s

/-! ### Power failure (Table 15-8) -/

/-- Every open skein and packing buffer is discarded; its data stays held (R220, R236). -/
def dropOpen (s : State) : State :=
  let opens := (s.media.skeins.filter (fun k => k.number.isNone)).map (·.key)
  let back (h : Held) : Held := match h.stage with
    | .formed k _ => if opens.contains k then { h with stage := .held } else h
    | _ => h
  let s := { s with media := { s.media with
    held := s.media.held.map back, openSkein := none, openReloc := none, hank := { s.media.hank with bufs := [] } } }
  forEach dropSkein opens s

/-- PWRFAIL_N's sequence at a device in S6 or S7; t5 and t6 are the times of steps 5 and 6 in µs, same the read-back of the
counters record. -/
def pwrSequence (t5 t6 : Nat) (same : Bool) (s : State) : State :=
  let s := modPwr (fun p => { p with pfRunning := true }) s
  let s := glbEvt Fld.GLB_EVT_PWRFAIL [] s
  let own := isOwner s
  let s := if own then spnUnit .offline .powerFail (spnPowerFail (dropOpen s)) else s
  let s := mramDoneEff true s
  let s := if own then
      forEach (fun c s =>
        let s := if ust s (uCar c) = .faulted || ust s (uCar c) = .absent then s else change (uCar c) .offline .powerFail (stopWriteNow c s)
        let s := forEach (fun g s => if ust s (uStrand g) = .faulted || ust s (uStrand g) = .absent then s
          else change (uStrand g) .offline .powerFail s) (strandsOf s c) s
        carriageDark c s) (boundCars s) (stopAllNow s)
    else s
  let s := if own then { s with pins := { s.pins with dacOn := List.replicate 4 false, sledGates := List.replicate 4 false } } else s
  let s := saveNow same s
  let s := setReg Reg.GLB_PWRFAIL_LAST (BitVec.ofNat 32 (min 65535 t5 * 65536 + min 65535 t6)) s
  modPwr (fun p => { p with pfDone := true }) (setF Fld.GLB_STATUS_PWRFAIL_DONE 1 s)

/-- PWRFAIL_ASSERT: before S6 the write under way is completed, and nothing more (R473). -/
def pwrfailEff (t5 t6 : Nat) (same : Bool) (s : State) : State :=
  if s.pwr.pfRunning then s
  else
    let s := modPwr (fun p => { p with pfAsserted := true }) (setF Fld.GLB_STATUS_PWRFAIL 1 s)
    if stage s < 6 || halted s then mramDoneEff true s else pwrSequence t5 t6 same s

/-- PWRFAIL_RECOVER: 100 ms without assertion after the sequence make a warm reset. -/
def pwrRecoverEff (s : State) : State :=
  if s.pwr.pfDone && s.pwr.railsGood then warmReset 5 s else s

/-! ### Thermal responses (Table 01-9) -/

/-- The upper junction limit of the grade in 0.1 °C. -/
def tempLimit (s : State) : Int := if s.img.fuses.grade = 0x45#8 then 1100 else 1000

/-- The trip: write gates, motors, actuators and lasers off at once, disc and spindle FAULTED. -/
def thermalTrip (s : State) : State :=
  let s := modPwr (fun p => { p with trip := true }) s
  if isOwner s then
    let s := forEach carriageDark (boundCars s) (stopAllNow s)
    let s := releaseOutputs (spnTrip s)
    change uSpindle .faulted .thermal (change uDisc .faulted .thermal s)
  else s

/-- THERMAL_SENSOR_READ: the highest of the eight sensors in 0.1 °C. -/
def thermalReadEff (temps : List Int) (s : State) : State :=
  if stage s < 2 then s
  else
    let tj := match temps with | [] => (0 : Int) | t :: ts => ts.foldl max t
    let s := setReg Reg.GLB_TEMP (BitVec.ofNat 32 (0x80000000 + unsigned 16 tj)) s
    if stage s < 6 || halted s then s
    else
      let warnAt := tempLimit s + 10 * policyVal s 1
      let critAt := tempLimit s + 10 * policyVal s 2
      let warn : Bool := if s.pwr.warn then decide (warnAt - 30 < tj) else decide (warnAt < tj)
      let crit : Bool := if s.pwr.crit then decide (critAt - 30 < tj) else decide (critAt < tj)
      let s := if (warn || crit) && !s.pwr.warn && s.pwr.ceiling.isNone then modPwr (fun p => { p with ceiling := some (spn s).arbTarget }) s else s
      let was := s.pwr.crit
      let s := modPwr (fun p => { p with warn := warn || crit, crit := crit }) s
      let s := if crit && !was then evt Fld.UNT_EVT_THERM noUnit [] s else s
      let s := if was && !crit then releaseThermal s else s
      let s := arbitrate s
      if decide (tempLimit s + 100 < tj) && !s.pwr.trip then thermalTrip s else s

/-- THERMAL_CEILING_STEP: 100 rpm down for each second of the condition, up after it, and removed at SPIN_MAX. -/
def ceilingStepEff (s : State) : State :=
  match s.pwr.ceiling, s.img.running with
  | some c, some i =>
    let next : Option Nat := if s.pwr.warn then some (max i.motors.spinMin (c - 100))
      else if i.motors.spinMax ≤ c + 100 then none else some (c + 100)
    arbitrate (modPwr (fun p => { p with ceiling := next }) s)
  | _, _ => s

end Sys2Proof.Machine
end

