-- ==== Sys2Proof/Machine/Pair.lean ====
section
/-! DEFINITION. The redundant pair (spec chapter 18): the Jokor link, hello and heartbeats, ownership, handover and takeover,
forwarding, the journal, mirroring, resynchronisation and the APPLY of a pair. -/

namespace Sys2Proof.Machine

/-! ### The link (R524) -/

/-- The widest of 8, 4 and 2 lanes that some number of good lanes allows; 0 is down. -/
def widthOf (n : Nat) : Nat := if 8 ≤ n then 8 else if 4 ≤ n then 4 else if 2 ≤ n then 2 else 0

/-- The next narrower width. -/
def narrower (w : Nat) : Nat := if w = 8 then 4 else if w = 4 then 2 else 0

/-- The lanes in use show in PRL_LINK, and grade a partner that serves (Table 18-1). -/
def setWidth (w : Nat) (s : State) : State :=
  let s := modPair (fun p => { p with width := w, linkUp := decide (0 < w) }) s
  let s := setFs [(Fld.PRL_LINK_UP, if 0 < w then 1 else 0), (Fld.PRL_LINK_WIDTH, w), (Fld.PRL_LINK_LANE_OK, s.pair.laneOk)] s
  if (ust s uPartner).serves && 0 < w then partnerTo (partnerGrade s) .pair .internal 0 false s else s

/-- The hello of this device (R525): role, stepping, boot stage, deck ID and image digest; the last two are 0 before an image
is accepted. -/
def sendHello (s : State) : State :=
  let past := decide (4 ≤ stage s)
  emit (.jokor 0x40 ([getF s Fld.GLB_STRAPS_PAIR_ROLE, 0xB1, stage s, if past then deckId s else 0] ++
    (ownDigest s).map (fun w => if past then w.toNat else 0))) s

/-- LINK_TRAIN_DONE: a training ends; lanes are those that passed. The hello follows where the link was down. -/
def linkTrainDoneEff (lanes : Nat) (s : State) : State :=
  if !pairEn s || stage s < 2 then s
  else
    let was := s.pair.width
    let ok := lanes % 256
    let w := widthOf ((List.range 8).filter (fun i => bit ok i)).length
    let s := setWidth w (modPair (fun p => { p with laneOk := ok, frameTries := 0 }) s)
    let s := if 0 < w && w < was then prlEvt Fld.PRL_EVT_LANE_DEGRADE s else s
    if was = 0 && 0 < w then sendHello s else s

/-- LINK_TRAIN_RETRY: a down link is trained again. -/
def linkRetryEff (s : State) : State :=
  if pairEn s && 2 ≤ stage s && !s.pair.linkUp then
    emit (.jokor 0x00 []) (setF Fld.PRL_LINK_LANE_OK 0 (modPair (fun p => { p with laneOk := 0 }) s)) else s

/-- LANE_ERROR: the link retrains at the next narrower width. -/
def laneErrorEff (lane : Nat) (s : State) : State :=
  if !s.pair.linkUp || 8 ≤ lane then s
  else
    let w := narrower s.pair.width
    let keep (m : Nat) : Nat := if bit m lane then m - 2 ^ lane else m
    let s := bump Reg.PRL_CNT 7 (setWidth w (modPair (fun p => { p with laneOk := keep p.laneOk }) s))
    if 0 < w then prlEvt Fld.PRL_EVT_LANE_DEGRADE s else s

/-- JOKOR_FRAME: a frame whose check fails is sent again; after 8 sendings the link retrains. -/
def jokorFrameEff (ok : Bool) (s : State) : State :=
  if !s.pair.linkUp then s
  else if ok then modPair (fun p => { p with frameTries := 0 }) s
  else if s.pair.frameTries + 1 < 8 then modPair (fun p => { p with frameTries := p.frameTries + 1 }) s
  else emit (.jokor 0x00 []) (bump Reg.PRL_CNT 7 (modPair (fun p => { p with frameTries := 0 }) s))

/-! ### The partner's states -/

/-- The partner unit is FAULTED; before the first states of S6 it is decided early (R512). -/
def partnerFault (claims : Bool) (s : State) : State :=
  if s.pwr.armed then partnerTo .faulted .pair .internal 0 claims s else decideEarly uPartner .faulted .pair s

/-- This device becomes owner outside a takeover: outputs under R464, and once armed the loops and the firmware's requests. -/
def becomeOwner (s : State) : State :=
  let s := takeOwnership s
  if !s.pwr.armed then s
  else
    let s := driveOutputs s
    let s := match s.img.running with | some i => armLoops i s | none => s
    policyStarts s

/-- The copies of a partner's state go when it is to be copied anew (R538). -/
def clearMirror (s : State) : State :=
  { s with
    media := { s.media with vols := [], held := [], skeins := [], hank := { s.media.hank with places := [] } }
    pair := { s.pair with journal := [], lostLines := [] } }

/-- The partner's hello has passed and it may start (Table 18-1): from OFFLINE unless detached, from FAULTED unless BIST faulted
the link buffers, and anew where it was reset while it served. -/
def helloStarts (stg : Nat) (s : State) : Bool :=
  match ust s uPartner with
  | .offline => !s.pair.detached
  | .faulted => !s.pwr.bistFails.any (fun e => e.1 == 11)
  | .ready => decide (stg < 6)
  | .degraded => decide (stg < 6)
  | _ => false

/-- PAIR_HELLO: the partner's role, image digest, deck ID and boot stage; wants says that it asks for this device's image, ownHigh
is the level of PAIR_OWN_N. -/
def pairHelloEff (role : Nat) (digest : List Word) (deck stg : Nat) (wants ownHigh : Bool) (s : State) : State :=
  if !pairEn s || !s.pair.linkUp then s
  else
    let s := sampleNet ownHigh (modPair (fun p => { p with hello := some (role, digest, deck, stg), conflict := false }) s)
    if roleClash s then
      prlEvt Fld.PRL_EVT_ROLE_CONFLICT (partnerFault false (modPair (fun p => { p with conflict := true }) s))
    else
      let s := if wants && 6 ≤ stage s then emit (.jokor 0x34 ((ownDigest s).map (·.toNat))) s else s
      let s := if s.img.pairWait then emit (.jokor 0x32 []) s else s
      if helloDiffers s then
        prlEvt Fld.PRL_EVT_IMAGE_MISMATCH (partnerFault false (modPair (fun p => { p with conflict := true }) s))
      else
        let s := if s.pwr.armed && 4 ≤ stg && helloStarts stg s
          then partnerStart .pair .internal 0 (if isOwner s then s else clearMirror s) else s
        if s.pair.own = .wait && 6 ≤ stage s && s.pair.ownNet && getF s Fld.GLB_STRAPS_PAIR_ROLE = 0 then becomeOwner s else s

/-! ### Heartbeats (R526) -/

/-- The snapshot of a carriage. -/
def carSnap (s : State) (c : Nat) : CarSnap :=
  let m := carOfS s c
  { p := m.p, angle := m.frac, strong := m.strong, st := m.st, lf := m.lf, turn := m.turn }

/-- HEARTBEAT_SEND: every 50 µs from S6 on. -/
def heartbeatSendEff (s : State) : State :=
  if !pairEn s || stage s < 6 || halted s || !s.pair.linkUp then s
  else
    let snap := if isOwner s then
        ((List.range 4).map (carSnap s)).flatMap (fun m => [unsigned 64 m.p, m.angle, if m.strong then 1 else 0, m.lf, m.turn]) ++
          [unsigned 64 (spn s).nHat]
      else []
    emit (.jokor 0x41 ([stage s, ownCode s.pair.own, get64 s Reg.HQ_SEQ_LO] ++ snap)) (bump Reg.PRL_CNT 0 s)

/-- HEARTBEAT_RECEIVE: a valid heartbeat. The partner is sensed present again, which may end a contradicted assertion (R508), and
an owner's heartbeat ends the suspension of R539. -/
def heartbeatReceiveEff (h : Heartbeat) (s : State) : State :=
  if !pairEn s || !s.pair.linkUp then s
  else
    let s := bump Reg.PRL_CNT 1 (modPair (fun p => { p with hbEver := true, lastHb := s.pwr.time, lost := false }) s)
    let fromOwner := decide (h.own = .owner ∨ h.own = .handing)
    let s := if fromOwner then modPair (fun p => { p with snapCars := h.cars, snapSpeed := h.speed, snapPhase := h.phase, suspended := false }) s else s
    let s := if isOwner s then
        set64 Reg.PRL_ACK_SEQ_LO (max s.pair.ackedSeq h.acked) (modPair (fun p => { p with ackedSeq := max p.ackedSeq h.acked }) s)
      else s
    let e := unitOf s uPartner
    if e.state = .suspect && e.doubt = .conflict && e.asserted then leaveSuspect .conflict true uPartner s else s

/-- PEER_RESET_N is driven low, or released. -/
def drivePeerReset (on : Bool) (s : State) : State := emit (.peerReset on) { s with pins := { s.pins with peerReset := on } }

/-- CLAIMING begins; PEER_RESET_N is asserted except for a handover (Table 18-2). -/
def beginClaim (why : ClaimWhy) (s : State) : State :=
  let s := modPair (fun p => { p with own := .claiming, claimWhy := why }) s
  if why = .handover then s else drivePeerReset true s

/-- PARTNER_LOST: 1,000 µs without a valid heartbeat. -/
def partnerLostEff (s : State) : State :=
  if !pairEn s || stage s < 6 || halted s || !s.pair.hbEver || s.pair.lost || s.pair.suspended then s
  else
    let s := modPair (fun p => { p with lost := true, lossAt := s.pwr.time }) s
    let s := match s.pair.own with
      | .follower => if (ust s uPartner).serves then partnerFault true (beginClaim .loss s) else partnerFault false s
      | .owner => partnerFault false (modPair (fun p => { p with settling := true, syncing := false }) s)
      | _ => partnerFault false s
    prlEvt Fld.PRL_EVT_PARTNER_LOST s

/-! ### Ownership (Table 18-2) -/

/-- BOOT_WAIT_EXPIRY at the secondary: the net is high, and no heartbeat ever came. -/
def bootWaitEff (ownHigh : Bool) (s : State) : State :=
  let s := sampleNet ownHigh s
  if s.pair.own = .follower && getF s Fld.GLB_STRAPS_PAIR_ROLE = 1 && 6 ≤ stage s && s.pair.ownNet && !s.pair.hbEver && !roleClash s
  then beginClaim .boot s else s

/-- OWNER_LINK_WAIT_EXPIRY: at the primary the link is not up within 2 s of S6. -/
def ownerLinkWaitEff (ownHigh : Bool) (s : State) : State :=
  let s := sampleNet ownHigh s
  if pairEn s && s.pair.own = .wait && 6 ≤ stage s && getF s Fld.GLB_STRAPS_PAIR_ROLE = 0 && s.pair.ownNet && !s.pair.linkUp && !roleClash s
  then becomeOwner s else s

/-! ### Takeover (R537) -/

/-- Step 1 and the strands with their carriages: STARTING, reason 0x0E. -/
def takeStarting (s : State) : State :=
  let start (u : Nat) (s : State) : State :=
    if ust s u = .absent || ust s u = .faulted then s else change u .starting .pair s
  let s := start uSpindle s
  forEach (fun c s =>
    let s := forEach (fun g s => if (ust s (uStrand g)).serves then change (uStrand g) .starting .pair s else s) (strandsOf s c) s
    start (uCar c) s) (boundCars s) s

/-- Step 2: a carriage's position and electrical angle from the snapshot, homed; a seek that ran is issued again. -/
def takeCarriage (c : Nat) (s : State) : State :=
  match s.pair.snapCars[c]? with
  | none => s
  | some k =>
    let s := modCar c (fun m => { m with
      p := k.p, frac := k.angle, x := uToX k.p, tgt := uToX k.p, v := 0, a := 0, moving := false, strong := k.strong, homed := true,
      gates := true, st := .idle, lf := k.lf, turn := k.turn }) s
    let s := { s with pins := { s.pins with sledGates := modAt c (fun _ => true) s.pins.sledGates } }
    if k.st = .seek || k.st = .settle || k.st = .capture || k.st = .fine then seekEff c k.lf k.turn s else s

/-- Lines found lost count as fatal errors of their class (R535). -/
def takeLost (s : State) : State :=
  let ls := s.pair.lostLines
  forEach (fun (l : Nat × Nat × Nat) s =>
    if l.1 = 1 then fatalHeld l.2.1 l.2.2 ((cmds s).filterMap (fun e => if e.2.seq = l.2.2 then some e.1 else none)) s
    else if l.1 = 2 then fatalMap l.2.1 s
    else if l.1 = 4 then fatalReplay [l.2] [] s else s) ls (modPair (fun p => { p with lostLines := [] }) s)

/-- Step 7: skeins that passed keep their members; the data of every other skein is held again, to be formed anew without
counting. A knot skein that was placed is kept for step 8. -/
def takeSkeins (s : State) : State :=
  let keep (k : Skein) : Bool := k.passed || (k.isKnot && k.place.all Option.isSome)
  let kept := (s.media.skeins.filter keep).map (fun k => if k.passed then k else
    { k with readBack := true, members := k.members.map (fun m => { m with verify := .pending }) })
  let ok (key : Nat) : Bool := kept.any (fun k => k.key == key && k.passed)
  let places := s.media.hank.places.filter (fun p => !p.members.isEmpty && p.members.all (fun m => ok m.1))
  let stage_ (h : Held) : Held := match h.stage with
    | .formed k _ => if ok k then h else { h with stage := .held }
    | .packed id => if places.any (fun p => p.id == id) then h else { h with stage := .held }
    | _ => h
  let cars := s.media.cars.map (fun w => ({ frontier := w.frontier } : WriteCar))
  { s with media := { s.media with
      skeins := kept, held := s.media.held.map stage_, openSkein := none, openReloc := none, relocs := [], cars := cars,
      vols := s.media.vols.map (fun e => (e.1, { e.2 with ckpt := none })),
      hank := { s.media.hank with places := places, queue := [], bufs := [] } } }

/-- Whole hanks of a compressed volume whose blocks are all held unformed are queued for coding again. -/
def requeueHanks (s : State) : State :=
  let hs := s.media.held.filter (fun h => h.stage == .held && !h.atomic && compressed s h.vol)
  let bases := (hs.filter (fun h => h.lba % 16 == 0)).filter (fun b =>
    (List.range 16).all (fun i => hs.any (fun h => h.vol == b.vol && h.seq == b.seq && h.lba == b.lba + i)))
  forEach (fun (b : Held) s =>
    let id := s.media.hank.nextHank
    { s with media := { s.media with hank := { s.media.hank with
        nextHank := id + 1
        places := s.media.hank.places ++ [{ id := id, vol := b.vol, seq := b.seq, lba := b.lba }]
        queue := s.media.hank.queue ++ [{ vol := b.vol, decompress := false, seq := b.seq, lba := b.lba, hank := id }] } } }) bases s

/-- Step 8: knots formed that lie in no placed skein are written again, with the same records. -/
def takeKnots (s : State) : State :=
  let placed := (s.media.skeins.flatMap (·.knots)).map (fun n => (n.vol, n.seq))
  let loose := (s.media.vols.filterMap (fun e => e.2.knotOut)).filter (fun n => !placed.contains (n.vol, n.seq))
  if loose.isEmpty then s else formKnotSkein (loose.take 6) s

/-- A command of this device stands in WAITING again, or ends where its units cannot serve (R504). -/
def rerun (t : Nat) (c : Cmd) (s : State) : State :=
  let s := modCmd t (fun c => { c with
    forwarded := false, state := .waiting, held := [], heldPoint := false, reading := false, snap := [], taken := false, pnr := false, late := none }) s
  match gateFor s c.cmd.opcode c.cmd.volume with
  | none => endCmd t .unitNotReady 0 s
  | some g => enterWaiting t g none s

/-- The knot of a VOLUME_CREATE or VOLUME_CLOSE of volume v is formed and not yet applied. -/
def commandKnotOut (s : State) (op v : Nat) : Bool :=
  match (volOf s v).knotOut with
  | some n => if op = opCreate then n.create else n.close
  | none => false

/-- Table 18-4, a journaled command of the new owner's own rings. -/
def takeOwn (e : JournalEntry) (t : Nat) (c : Cmd) (s : State) : State :=
  let op := c.cmd.opcode
  match c.late with
  | some (st, r) => if r = 0x800000FF then rerun t c s else endCmd t st r (modCmd t (fun c => { c with forwarded := false }) s)
  | none =>
    if op = opWrite && 0 < c.cmd.count && c.cmd.count ≤ e.held then
      let s := modCmd t (fun c => { c with forwarded := false, state := .running, heldPoint := true, lock := none, pnr := true }) s
      if asFua s c then modCmd t (fun c => { c with waitsKnot := some c.seq }) s else endCmd t .success 0 s
    else if op = opWrite then rerun t c (dropWrite c.seq s)
    else if (op = opCreate || op = opClose) && commandKnotOut s op c.cmd.volume then
      modCmd t (fun c => { c with forwarded := false, state := .running, waitsKnot := some c.seq, pnr := true }) s
    else if unitPath op then
      let s := modCmd t (fun c => { c with forwarded := false, state := .waiting }) s
      if e.taken then endCmd t .unitNotReady 0 s
      else { s with unt := { s.unt with waiting := s.unt.waiting ++ [reqOfCmd t c.seq c.cmd] } }
    else rerun t c s

/-- Table 18-4, a journaled command of the old owner's rings: writes past their held point go on by their held data, a volume
command by its knot, without completion; the others end. -/
def takeOther (e : JournalEntry) (s : State) : State :=
  let c := newCmd true e.fn e.ring e.slot e.seq e.cmd none
  let op := c.cmd.opcode
  if op = opWrite && e.held < c.cmd.count then dropWrite e.seq s
  else if (op = opCreate || op = opClose) && commandKnotOut s op c.cmd.volume then
    putCmd (firstFree 0 s.host.cmds) (some { c with
      state := .running, waitsKnot := some e.seq, pnr := true, detached := true,
      attr := (match (volOf s c.cmd.volume).knotOut with | some n => n.attr | none => []) }) s
  else s

/-- Step 5, for one entry. -/
def takeEntry (e : JournalEntry) (s : State) : State :=
  if e.own then
    match (cmds s).find? (fun x => x.2.forwarded && x.2.seq == e.seq && x.2.state == .away) with
    | some (t, c) => takeOwn e t c s
    | none => s
  else takeOther e s

/-- Step 6: a command of this device without a journal entry is accepted. -/
def takeUnjournaled (t : Nat) (s : State) : State :=
  match cmdOf s t with
  | none => s
  | some c =>
    if !c.forwarded || c.seq ≠ 0 || c.state ≠ .away then s
    else
      let seq := get64 s Reg.HQ_SEQ_LO + 1
      let s := bump Reg.HQ_CNT 0 (set64 Reg.HQ_SEQ_LO seq s)
      let s := modCmd t (fun c => { c with forwarded := false, seq := seq, state := .waiting, late := none }) s
      match c.late with
      | some (st, r) => if r = 0x800000FF then checkRest t none s else endCmd t st r s
      | none => checkRest t (some c.attr) s

/-- Inserts an entry into a list in acceptance order. -/
def insEntry (e : JournalEntry) : List JournalEntry → List JournalEntry
  | [] => [e]
  | f :: fs => if e.seq ≤ f.seq then e :: f :: fs else f :: insEntry e fs

/-- Takeover after a partner loss (R537). -/
def takeover (s : State) : State :=
  let s := modPair (fun p => { p with resumed := true, unacked := [], syncing := false }) s
  let s := takeStarting s
  let s := forEach takeCarriage (boundCars s) s
  let s := modDisc (fun d => { d with mounted := (ust s uDisc).serves }) s
  let s := set64 Reg.HQ_SEQ_LO (get64 s Reg.HQ_SEQ_LO + 4096) s
  let s := takeSkeins s
  let s := takeLost s
  let js := s.pair.journal.foldl (fun a e => insEntry e a) []
  let ts := s.pair.fwd
  let s := forEach takeEntry js (modPair (fun p => { p with journal := [], fwd := [] }) s)
  let s := forEach takeUnjournaled ts s
  let s := settle (formAll (takeKnots (requeueHanks s)))
  let s := if s.pwr.policyRunning then policyReq uSpindle 0x03 s else s
  if s.pwr.policyRunning then forEach (fun c s => policyReq (uCar c) 0x03 s) (boundCars s) s else s

/-- OWN_NET_HIGH: PAIR_OWN_N has been high for 2 µs. late says that 12 µs have passed since PEER_RESET_N was asserted; outUs is the
time from the claim to driven outputs in µs. -/
def ownNetHighEff (late : Bool) (outUs : Nat) (s : State) : State :=
  if s.pair.own ≠ .claiming || !(late || decide (s.pair.claimWhy = .handover)) then s
  else
    let why := s.pair.claimWhy
    let gap := if why = .loss then min 65535 ((s.pwr.time - s.pair.lossAt) / 1000) else 0
    let out := min 65535 outUs
    let s := setReg Reg.PRL_TAKEOVER_T (BitVec.ofNat 32 (gap * 65536 + out)) s
    match why with
    | .boot => becomeOwner s
    | .loss =>
      let s := driveOutputs (takeOwnership s)
      let s := bump Reg.PRL_CNT 5 (takeover s)
      prlEvtWith Fld.PRL_EVT_TAKEOVER [⟨2, gap⟩, ⟨2, out⟩] s
    | .handover =>
      let s := driveOutputs (takeOwnership s)
      let s := modImg (fun m => { m with quiesceTook := boundCars s }) (setF Fld.IMG_STATUS_QSTATE 2 s)
      let s := modDisc (fun d => { d with mounted := (ust s uDisc).serves }) s
      let s := if ust s uSpindle = .absent || ust s uSpindle = .faulted then s else change uSpindle .starting .pair s
      let s := forEach (fun c s => match s.pair.snapCars[c]? with
        | some k => modCar c (fun m => { m with p := k.p, frac := k.angle, x := uToX k.p, tgt := uToX k.p, lf := k.lf, turn := k.turn }) s
        | none => s) (boundCars s) s
      if s.pwr.policyRunning then policyReq uSpindle 0x03 s else s

/-- CLAIM_TIMEOUT: PAIR_OWN_N stayed low for 100 µs. -/
def claimTimeoutEff (s : State) : State :=
  if s.pair.own ≠ .claiming then s
  else
    let s := if s.pins.peerReset then drivePeerReset false s else s
    let s := forwardFail (partnerFault false (modPair (fun p => { p with own := .follower, ownNet := false }) s))
    prlEvt Fld.PRL_EVT_CLAIM_FAIL s

/-- PEER_RESET_RELEASE: 100 µs after the claim. -/
def peerReleaseEff (s : State) : State :=
  if s.pair.own = .owner && s.pins.peerReset && !s.pair.pulse then drivePeerReset false s else s

/-! ### Handover (R528, R529) -/

/-- A write of PRL_CTRL.HANDOVER at a quiesced owner whose partner serves. -/
def handoverEff (key : Nat) (s : State) : State :=
  if key = 0x5A && s.pair.own = .owner && (ust s uPartner).serves && getF s Fld.IMG_STATUS_QSTATE = 2 then
    let s := disableSlots (List.range 32) s
    let s := forEach (fun c s => carriageDark c s) (boundCars s) (spnDisown s)
    let s := { s with mot := { s.mot with cars := s.mot.cars.map (fun m =>
      { m with gates := false, homed := false, st := if m.st = .fault then .fault else .unhomed, seek := none, pending := none, jump := none }) } }
    let s := if (ust s uSpindle).serves then change uSpindle .starting .pair s else s
    emit (.jokor 0x42 []) (releaseOutputs (modPair (fun p => { p with own := .handing }) s))
  else s

/-- HANDOVER_MESSAGE at a follower: it acknowledges and claims. -/
def handoverMessageEff (s : State) : State :=
  if s.pair.own = .follower && (ust s uPartner).serves then emit (.jokor 0x43 []) (beginClaim .handover s) else s

/-- HANDOVER_ACK: the old owner releases PAIR_OWN_N. -/
def handoverAckEff (s : State) : State :=
  if s.pair.own ≠ .handing then s
  else
    let s := { s with pins := { s.pins with ownN := false } }
    let s := setF Fld.IMG_STATUS_QSTATE 0 (setF Fld.GLB_STATUS_OWNER 0 (modPair (fun p => { p with own := .follower, ownNet := true, unacked := [] }) s))
    prlEvt Fld.PRL_EVT_HANDOVER_DONE s

/-- HANDOVER_TIMEOUT: 10 ms without acknowledgement. -/
def handoverTimeoutEff (s : State) : State :=
  if s.pair.own ≠ .handing then s
  else
    let s := driveOutputs (modPair (fun p => { p with own := .owner }) s)
    prlEvt Fld.PRL_EVT_CLAIM_FAIL (policyReq uSpindle 0x03 s)

/-- PEER_RESET: a write of PRL_CTRL.PEER_RESET at the owner. -/
def peerResetEff (key : Nat) (s : State) : State :=
  if key = 0x5A && isOwner s && pairEn s then drivePeerReset true (modPair (fun p => { p with pulse := true }) s) else s

/-- PEER_RESET_END: after 20 µs. -/
def peerResetEndEff (s : State) : State :=
  if s.pair.pulse then drivePeerReset false (modPair (fun p => { p with pulse := false }) s) else s

/-! ### Forwarding and the journal (R530 to R532) -/

/-- FORWARDED_COMMAND at the owner: acceptance in order of arrival; while the owner is quiesced, or the partner's journal lags, the
command waits at the non-owner. -/
def forwardedCommandEff (f : Forwarded) (s : State) : State :=
  if !mirroring s then s
  else match f with
    | .ring fn ring slot one b aux =>
      if stage s ≠ 7 || halted s || s.pwr.pfRunning || getF s Fld.IMG_STATUS_QSTATE ≠ 0 || !pairAllows s || 8192 ≤ (cmds s).length then s
      else acceptAs true fn ring slot (if one = 0 then none else some (one - 1)) b aux s
    | .mgmt i3c addr port reqId typ op unit code epoch =>
      let kind : ReqKind := if op = opUnitRequest then .request else if op = opCalibrate then .calibrate else .selfTest
      let r : UnitReq := { kind := kind, unit := unit, code := code, epoch := epoch, sender := .partner i3c addr port reqId typ }
      if (unitReqBad s op unit code epoch).isSome then finishReq r .invalidField s
      else { s with unt := { s.unt with waiting := s.unt.waiting ++ [r] } }

/-- JOURNAL_ENTRY at the non-owner: it is kept and acknowledged; a command forwarded from here learns its number. -/
def journalEntryEff (e : JournalEntry) (s : State) : State :=
  if !pairEn s || isOwner s then s
  else
    let js := s.pair.journal.filter (fun x => decide (x.seq ≠ e.seq)) ++ [e]
    let s := modPair (fun p => { p with journal := js.drop (js.length - 8192) }) s
    let s := set64 Reg.HQ_SEQ_LO (max (get64 s Reg.HQ_SEQ_LO) e.seq) s
    let s := if !e.own then s
      else match s.pair.fwd.find? (fun t => match cmdOf s t with
          | some c => c.forwarded && c.seq == 0 && c.fn == e.fn && c.ring == e.ring && c.slot == e.slot
          | none => false) with
        | some t => modPair (fun p => { p with fwd := p.fwd.filter (· ≠ t) }) (modCmd t (fun c => { c with seq := e.seq }) s)
        | none => s
    emit (.jokor 0x02 [e.seq]) s

/-- The end of a forwarded command at its own device: the data goes to its host, and the completion is posted here. -/
def endForwarded (t : Nat) (c : Cmd) (st : Status) (result : Nat) (rep rel : Bool) (step : Nat) (d : List Byte) (s : State) : State :=
  let op := c.cmd.opcode
  let s := if op = opRead || op = opImport then writeSegs c.fn c.segs d s
    else if d.isEmpty || c.cmd.dataAddr = 0 then s else emit (.hostWrite c.fn c.cmd.dataAddr d) s
  let s := putCmd t (some { c with state := .ended, status := st, result := result, replayed := rep, relocated := rel, step := step }) s
  let s := if c.silent || c.detached then freeTag t s else { s with host := { s.host with posting := s.host.posting ++ [t] } }
  let s := if st = .aborted && op = opWrite then dropWrite c.seq s else s
  modPair (fun p => { p with journal := p.journal.filter (fun e => decide (e.seq ≠ c.seq)) }) s

/-- FORWARD_RESULT at the non-owner. -/
def forwardResultEff (o : ForwardOutcome) (s : State) : State :=
  match o with
  | .ring seq st result rep rel step d =>
    match (cmds s).find? (fun e => e.2.forwarded && e.2.state == .away && e.2.seq == seq && seq != 0) with
    | some (t, c) => endForwarded t c st result rep rel step d s
    | none => s
  | .mgmt i3c addr port reqId typ st p =>
    if i3c then i3cAnswer typ reqId st p s
    else dmpAnswer addr port typ reqId 0 st p (storeAnswer addr port reqId typ (some (st, p)) s)

/-! ### Mirroring at the non-owner (R534, R535, R538) -/

/-- Held data counts towards its journal entry. -/
def countHeld (seq : Nat) (s : State) : State :=
  modPair (fun p => { p with journal := p.journal.map (fun e => if e.seq = seq then { e with held := e.held + 1 } else e) }) s

/-- A skein's members name the held blocks formed in it. -/
def noteFormed (k : Skein) (held : List Held) : List Held :=
  held.map (fun h => match (List.range 12).find? (fun d => (k.members.getD (memberOfData d) {}).kind == .block h.id h.vol) with
    | some d => { h with stage := .formed k.key d }
    | none => h)

/-- Held blocks of a hank on its way. -/
def notePacked (ps : List HankPlace) (held : List Held) : List Held :=
  held.map (fun h => match ps.find? (fun p => p.vol == h.vol && p.seq == h.seq && decide (p.lba ≤ h.lba) && decide (h.lba < p.lba + 16)) with
    | some p => { h with stage := .packed p.id }
    | none => h)

/-- Applies the knots of a skein mirrored as passed to this device's map; the anchor that the owner writes is counted. -/
def mirrorKnots (place : List Nat) : Nat → List Knot → State → State
  | _, [], s => s
  | q, n :: ns, s =>
    let s := mapKnot place q n s
    let s' := writeAnchor s
    mirrorKnots place (q + 1) ns (if anchorDue n s then { s' with out := s.out } else s)

/-- One item of the owner's state. -/
def takeItem (d : MirrorData) (s : State) : State :=
  match d with
  | .held h =>
    countHeld h.seq { s with media := { s.media with
      held := s.media.held.filter (fun k => k.id ≠ h.id) ++ [h], nextHeld := max s.media.nextHeld (h.id + 1) } }
  | .placed k ps fs =>
    let others := s.media.hank.places.filter (fun p => !ps.any (fun q => q.id == p.id))
    let front (e : WriteCar × Nat) : WriteCar := { e.1 with frontier := fs.getD e.2 e.1.frontier }
    { s with media := { s.media with
      skeins := s.media.skeins.filter (fun x => x.key ≠ k.key) ++ [k], nextKey := max s.media.nextKey (k.key + 1),
      held := notePacked ps (noteFormed k s.media.held),
      cars := (s.media.cars.zip (List.range 4)).map front,
      disc := { s.media.disc with nextSkein := max s.media.disc.nextSkein (match k.number with | some n => n + 1 | none => 0) },
      hank := { s.media.hank with places := others ++ ps, nextHank := ps.foldl (fun a p => max a (p.id + 1)) s.media.hank.nextHank } } }
  | .verified key ms =>
    modSkein key (fun k => { k with
      members := (k.members.zip (List.range 16)).map (fun e => { e.1 with verify := ms.getD e.2 .pending }),
      passed := (List.range 16).all (fun m => decide (ms.getD m .pending = .passed)) }) s
  | .knot n => modVol n.vol (fun x => { x with knotOut := some n }) s
  | .passed key =>
    match skeinOf s key with
    | some k => gcSkeins (gcHeld (mirrorKnots (placeOf k) 0 k.knots (dropSkein key s)))
    | none => s
  | .replay v e =>
    modVol v (fun x =>
      let kept := x.replay.filter (fun r => r.id ≠ e.id)
      { x with replay := (if 65536 ≤ kept.length then kept.drop 1 else kept) ++ [e] }) s
  | .unit u e q =>
    if u = uPartner then s
    else changeEvent u .partner q (putHistory u .partner q { s with unt := { s.unt with tab := Tbl.put {} u e s.unt.tab } })
  | .policy id v => modMgt (fun m => { m with policy := Tbl.put (policyDefault id) id v m.policy }) s
  | .volume v x => modVol v (fun _ => x) s
  | .stream d => modDisc (fun _ => d) s

/-- MIRROR_RECEIVE: the item is stored and acknowledged. -/
def mirrorReceiveEff (d : MirrorData) (s : State) : State :=
  if !pairEn s || isOwner s then s else emit (.jokor 0x03 []) (takeItem d s)

/-- PAIR_SETTLE_END: the owner runs alone (R533); writes whose data is held reach their held point. -/
def settleEndEff (s : State) : State :=
  if !s.pair.settling then s
  else forEach (fun e s => if e.2.cmd.opcode = opWrite then reachHeld e.1 s else s) (cmds s) (modPair (fun p => { p with settling := false }) s)

/-- PARTNER_DETACH at the non-owner: its partner unit is OFFLINE, and it never takes over. -/
def detachEff (s : State) : State :=
  if !pairEn s || isOwner s then s
  else partnerTo .offline .request .partner 0 false (modPair (fun p => { p with detached := true, syncing := false }) s)

/-- RESYNC_COMPLETE: the copy is complete and the stream has caught up. -/
def resyncDoneEff (s : State) : State :=
  if pairEn s && ust s uPartner = .starting && s.pair.syncing then
    partnerTo (partnerGrade s) .pair .internal 0 false (modPair (fun p => { p with syncing := false }) s)
  else s

/-! ### APPLY in a pair (R539) -/

/-- PAIR_APPLY_VALIDATED: at the owner the partner's code, 0 where the image passed; at the partner the bytes that it received,
which it validates through step 11. Both enter S3 with the image, and the partner suspends the partner-loss rule. -/
def pairValidatedEff (code : Nat) (bytes : List Byte) (s : State) : State :=
  if !pairEn s then s
  else if isOwner s then
    match s.img.op, s.img.stagedImage with
    | .apply, some i =>
      if getF s Fld.IMG_STATUS_QSTATE ≠ 2 then s
      else if code = 0 then enterApply (if s.img.stagedByDmp then 5 else 3) i s
      else imgRefuse 7 code (setOp .none s)
    | _, _ => s
  else if stage s < 6 || halted s || s.img.op ≠ .none then s
  else match validate s.img.fuses true bytes with
    | .fail c _ _ => emit (.jokor 0x35 [c]) s
    | .ok i => enterApply 4 i (modPair (fun p => { p with suspended := true }) (emit (.jokor 0x35 [0]) s))

/-- PAIR_APPLY_WAIT_END. -/
def pairWaitEndEff (s : State) : State := modPair (fun p => { p with suspended := false }) s

end Sys2Proof.Machine
end

