-- ==== Sys2Proof/Machine/LiveRead.lean ====
section
/-! DEFINITION. What the status registers of the read channel, the decoder pool, the skein and hank engines and the write
path show (chapters 04 to 07): each is computed from the state it reports (R546). A register that this file does not name
reads as stored. -/

namespace Sys2Proof.Machine

/-- A word made of fields. -/
def packF (l : List (Fld × Nat)) : Word := l.foldl (fun w e => wordPut w e.1.hi e.1.lo e.2) 0#32

/-- 1 for a true condition. -/
def one01 (b : Bool) : Nat := if b then 1 else 0

/-- The bits [hi:lo] of a word with a name of its own. -/
def span (hi lo : Nat) : Fld := ⟨0, hi, lo⟩

/-- The mask of the numbers below n for which a condition holds. -/
def bitMask (n : Nat) (f : Nat → Bool) : Nat := sumN ((List.range n).map (fun i => if f i then 2 ^ i else 0))

/-- An integer as a 32-bit two's complement word. -/
def wordI (v : Int) : Word := BitVec.ofNat 32 (unsigned 32 v)

/-- A count of a 64-bit quantity's half. -/
def half (v : Nat) (hi : Bool) : Word := BitVec.ofNat 32 (if hi then v / 0x100000000 else v)

/-! ### Read channel (Table 04-8) -/

/-- SEED_SRC codes of CHN_ZONE. -/
def seedSrcCode : SeedSrc → Nat
  | .image => 0 | .mram => 1 | .rom => 2 | .none => 3

/-- CHN_STATUS. Whether timing is in acquisition or resume lies in the signal path: a free value while the strand reads. -/
def chnStatus (s : State) (g : Nat) : Word :=
  let st := strandOf s g
  let rd := reading s g && isOwner s
  packF [(Fld.CHN_STATUS_IMPORT, one01 s.chn.importMode), (Fld.CHN_STATUS_POS_VALID, one01 st.posValid),
    (Fld.CHN_STATUS_WEDGE_LOCK, one01 st.wedgeLock), (Fld.CHN_STATUS_ACQ, one01 (rd && Config.freeBool s.free)),
    (Fld.CHN_STATUS_DEFECT, one01 st.defect), (Fld.CHN_STATUS_TIMING_LOST, one01 st.timingLost),
    (Fld.CHN_STATUS_BLANK, one01 st.blank), (Fld.CHN_STATUS_READING, one01 rd)]

/-- The next zone's block is held (R137). -/
def seedReady (s : State) (g : Nat) : Bool :=
  match s.chn.fetch.getD (g / 8) none with
  | some f => f.block.isSome && decide ((strandOf s g).inZone ≠ some (f.lf, f.zone))
  | none => false

/-- CHN_ZONE. -/
def chnZone (s : State) (g : Nat) : Word :=
  let st := strandOf s g
  let z := st.inZone.getD (0, 0)
  packF [(Fld.CHN_ZONE_SEED_SRC, seedSrcCode st.zoneSrc), (Fld.CHN_ZONE_LF, z.1), (Fld.CHN_ZONE_ZONE, z.2),
    (Fld.CHN_ZONE_SEED_READY, one01 (seedReady s g))]

/-- A register of strand g's window, d bytes into it. -/
def liveCHN (s : State) (g d : Nat) : Option Word :=
  let st := strandOf s g
  let r := 0x50000 + d
  if r = Reg.CHN_STATUS then some (chnStatus s g)
  else if r = Reg.CHN_XT_STATUS then
    some (packF [(Fld.CHN_XT_STATUS_XT_DELAY, unsigned 8 (passCfgOf s g).dr), (span 1 1, one01 (termUsed s g true)),
      (span 0 0, one01 (termUsed s g false))])
  else if r = Reg.CHN_ZONE then some (chnZone s g)
  else if r = Reg.CHN_RPL_STATUS then
    some (packF [(Fld.CHN_RPL_STATUS_PINNED, bitMask 4 (fun i => (st.records.getD i {}).pinned)),
      (Fld.CHN_RPL_STATUS_VALID, bitMask 4 (fun i => (st.records.getD i {}).valid))])
  else if Reg.CHN_SEED ≤ r && decide (r < Reg.CHN_SEED + 64) then some (BitVec.ofNat 32 (leAt st.seed (r - Reg.CHN_SEED) 4))
  else none

/-! ### Decoder pool and skein engines (Tables 05-7, 05-8) -/

/-- KIND codes of DEC_ENG_STATUS. -/
def jobKindCode : JobKind → Nat
  | .first => 0 | .verify => 1 | .recovery => 2

/-- MODE codes of DEC_REDET_STATUS. -/
def redetCode : RedetMode → Nat
  | .fixed => 0 | .sample => 1 | .assisted => 2

/-- DEC_ENG_STATUS of engine n. -/
def engStatus (s : State) (n : Nat) : Word :=
  let base := [(Fld.DEC_ENG_STATUS_ENABLED, one01 (decide (n < decEnabled s))),
    (Fld.DEC_ENG_STATUS_FIRST_ONLY, one01 (decide (n < decReserved s)))]
  match s.pool.engines.getD n none with
  | none => packF base
  | some j => packF (base ++ [(Fld.DEC_ENG_STATUS_BUSY, 1), (Fld.DEC_ENG_STATUS_KIND, jobKindCode j.kind),
      (Fld.DEC_ENG_STATUS_STEP, j.step), (Fld.DEC_ENG_STATUS_ITER, j.iter), (Fld.DEC_ENG_STATUS_STRAND, j.strand)])

/-- DEC_REDET_STATUS of unit n. -/
def redetStatus (s : State) (n : Nat) : Word :=
  let base := [(Fld.DEC_REDET_STATUS_ENABLED, one01 (decide (n < redetEnabled s)))]
  match s.pool.redets.getD n none with
  | none => packF base
  | some j => packF (base ++ [(Fld.DEC_REDET_STATUS_BUSY, 1), (Fld.DEC_REDET_STATUS_MODE, redetCode (j.mode.getD .fixed)),
      (Fld.DEC_REDET_STATUS_STEP, j.step), (Fld.DEC_REDET_STATUS_STRAND, j.strand)])

/-- A register of DEC. -/
def liveDEC (s : State) (r : Nat) : Option Word :=
  let busy {α : Type} (l : List (Option α)) : Nat := (l.filter (·.isSome)).length
  if r = Reg.DEC_STATUS then
    some (packF [(Fld.DEC_STATUS_ENG_BUSY, busy s.pool.engines), (Fld.DEC_STATUS_REDET_BUSY, busy s.pool.redets),
      (Fld.DEC_STATUS_FIRST_WAIT, min 48 (s.pool.waiting.filter (fun j => j.kind == .first)).length),
      (Fld.DEC_STATUS_IN_LADDER, min 65535 (s.pool.ladders.filter (fun l => decide (0 < l.step))).length)])
  else if r = Reg.DEC_L4_STATUS then
    some (packF [(Fld.DEC_L4_STATUS_ACTIVE, one01 s.pool.l4.isSome), (span 15 0, s.pool.l4.getD 0)])
  else if Reg.DEC_ENG_STATUS ≤ r && decide (r < Reg.DEC_ENG_STATUS + 48) then some (engStatus s ((r - Reg.DEC_ENG_STATUS) / 4))
  else if Reg.DEC_REDET_STATUS ≤ r && decide (r < Reg.DEC_REDET_STATUS + 32) then
    some (redetStatus s ((r - Reg.DEC_REDET_STATUS) / 4))
  else none

/-- A register of SKN. -/
def liveSKN (s : State) (r : Nat) : Option Word :=
  let isRecon (j : EngineJob) : Bool := match j with | .recon _ => true | .parity _ => false
  if r = Reg.SKN_STATUS then
    some (packF [(Fld.SKN_STATUS_ENG1_BUSY, one01 (s.pool.sengs.getD 1 none).isSome),
      (Fld.SKN_STATUS_ENG0_BUSY, one01 (s.pool.sengs.getD 0 none).isSome),
      (Fld.SKN_STATUS_RELOC_QUEUE, min 256 s.media.relocs.length),
      (Fld.SKN_STATUS_RECON_WAIT, min 65535 (s.pool.sengQueue.filter isRecon).length)])
  else none

/-! ### Write path (Table 06-8) -/

/-- STATE codes of WRP_CAR_STATUS. -/
def passCode : PassState → Nat
  | .idle => 0 | .preRead => 1 | .writing => 2 | .turnJump => 3 | .verify => 4 | .stopped => 5

/-- WRP_CAR_STATUS of carriage c. -/
def carStatus (s : State) (c : Nat) : Word :=
  packF [(Fld.WRP_CAR_STATUS_STATE, passCode (wcar s c).state), (Fld.WRP_CAR_STATUS_WGATE, one01 (s.pins.wgate.getD c false)),
    (Fld.WRP_CAR_STATUS_LEN, one01 (s.pins.len.getD c false)), (Fld.WRP_CAR_STATUS_WRITE_OK, bitMask 8 (strandWrites s c)),
    (Fld.WRP_CAR_STATUS_PASS_BLOCKS, (wcar s c).passBlocks)]

/-- A register of WRP. -/
def liveWRP (s : State) (r : Nat) : Option Word :=
  if r = Reg.WRP_STATUS then
    some (packF [(Fld.WRP_STATUS_HELD_MIB, min 65535 (heldBytes s / 1048576)),
      (Fld.WRP_STATUS_SKEINS_OPEN, min 65535 (s.media.skeins.filter (fun k => k.number.isSome && !k.passed)).length)])
  else if Reg.WRP_CAR_STATUS ≤ r && decide (r < Reg.WRP_CAR_STATUS + 16) then some (carStatus s ((r - Reg.WRP_CAR_STATUS) / 4))
  else if Reg.WRP_FRONTIER ≤ r && decide (r < Reg.WRP_FRONTIER + 16) then
    some (BitVec.ofNat 32 (frontierPlace s ((r - Reg.WRP_FRONTIER) / 4)))
  else none

/-! ### Hank engines (Table 07-4) -/

/-- HNK_ENG_STATUS of engine n. -/
def hankStatus (s : State) (n : Nat) : Word :=
  let e := hengOf s n
  let en := match s.img.running with | some i => i.bind.hankEnabled | none => 0
  let base := [(Fld.HNK_ENG_STATUS_ENABLED, one01 (decide (n < en))), (Fld.HNK_ENG_STATUS_FAULTED, one01 e.faulted),
    (Fld.HNK_ENG_STATUS_BUSY, one01 (decide (e.use ≠ .idle))), (Fld.HNK_ENG_STATUS_OP, one01 (decide (e.use = .decompressing))),
    (Fld.HNK_ENG_STATUS_RESTORE, one01 (decide (e.use = .restoring)))]
  match e.req with
  | some q => if e.use = .restoring then packF base
      else packF (base ++ [(Fld.HNK_ENG_STATUS_MODE, (volOf s q.vol).compMode), (Fld.HNK_ENG_STATUS_LEVEL, (volOf s q.vol).compLevel),
        (Fld.HNK_ENG_STATUS_VOLUME, q.vol)])
  | none => packF base

/-- A register of HNK. -/
def liveHNK (s : State) (r : Nat) : Option Word :=
  let v := volOf s (getF s (⟨Reg.HNK_VOL_SEL, 5, 0⟩))
  if r = Reg.HNK_STATUS then
    some (packF [(Fld.HNK_STATUS_FAULTED, bitMask 6 (fun n => (hengOf s n).faulted)),
      (Fld.HNK_STATUS_IN_SERVICE, bitMask 6 (hankInService s)), (Fld.HNK_STATUS_USE_LIMIT, hankLimit s),
      (Fld.HNK_STATUS_QUEUED, min 4095 s.media.hank.queue.length)])
  else if r = Reg.HNK_VOL_HANKS then some (BitVec.ofNat 32 v.hankCount)
  else if r = Reg.HNK_VOL_UNITS then some (BitVec.ofNat 32 (v.hankBytes / 4096))
  else if Reg.HNK_ENG_STATUS ≤ r && decide (r < Reg.HNK_ENG_STATUS + 24) then some (hankStatus s ((r - Reg.HNK_ENG_STATUS) / 4))
  else none

end Sys2Proof.Machine
end

