-- ==== Sys2Proof/Machine/LiveMotion.lean ====
section
/-! DEFINITION. What the status registers of the loop engine, the spindle drive, the carriages and the cam unit show
(chapters 08 to 10), computed from the state they report (R546). -/

namespace Sys2Proof.Machine

/-! ### Loop engine (Tables 08-7, 08-8) -/

/-- STATE codes of LPE_STATUS. -/
def slotCode : SlotSt → Nat
  | .disabled => 0 | .run => 1 | .hold => 2 | .lost => 3 | .fault => 4

/-- The slot follows the trace (R267). -/
def following (s : State) (k : Nat) : Bool :=
  match recOf s k with
  | some l => l.priv && flag s (Fld.LPE_CTRL_FOLLOW.at (0x80 * k))
  | none => false

/-- LPE_STATUS of slot k. -/
def lpeStatus (s : State) (k : Nat) : Word :=
  let x := lslot s k
  packF [(Fld.LPE_STATUS_STATE, slotCode x.st), (Fld.LPE_STATUS_RAMPING, one01 (decide (x.r ≠ x.t))),
    (Fld.LPE_STATUS_BANK, one01 x.bank), (Fld.LPE_STATUS_FOLLOWING, one01 (following s k)), (Fld.LPE_STATUS_SAT, x.sat),
    (Fld.LPE_STATUS_HELD, x.held), (Fld.LPE_STATUS_OVR_RUN, min 8 x.ovrRun), (Fld.LPE_STATUS_HOLD_LEN, min 255 x.holdLen),
    (Fld.LPE_STATUS_LOCK_RUN, min 255 x.lockRun)]

/-- LPE_CTRL of slot k: MASK, INTERP and FOLLOW as written, the command bits until their actions are done. -/
def lpeCtrl (s : State) (k : Nat) : Word :=
  let x := lslot s k
  packF [(Fld.LPE_CTRL_MASK, getF s (Fld.LPE_CTRL_MASK.at (0x80 * k))), (Fld.LPE_CTRL_INTERP, getF s (Fld.LPE_CTRL_INTERP.at (0x80 * k))),
    (Fld.LPE_CTRL_FOLLOW, getF s (Fld.LPE_CTRL_FOLLOW.at (0x80 * k))), (Fld.LPE_CTRL_PARK, one01 x.park),
    (Fld.LPE_CTRL_SWAP, one01 x.swap), (Fld.LPE_CTRL_ENABLE, one01 (slotStActive x.st))]

/-- A register of slot k's window. -/
def liveSlot (s : State) (k d : Nat) : Option Word :=
  let r := 0x60000 + d
  let x := lslot s k
  if r = Reg.LPE_CTRL then some (lpeCtrl s k)
  else if r = Reg.LPE_STATUS then some (lpeStatus s k)
  else if r = Reg.LPE_SP then some (wordI x.r)
  else if r = Reg.LPE_OUT0 then some (wordI (nth x.out 0))
  else if r = Reg.LPE_OUT1 then some (wordI (nth x.out 1))
  else if r = Reg.LPE_MEAS0 then some (wordI (nth x.meas 0))
  else if r = Reg.LPE_ERR0 then some (wordI x.err0)
  else if r = Reg.LPE_COEF_DATA then some (coefValue k s)
  else if r = Reg.LPE_ERR_RMS then some (BitVec.ofNat 32 (min 65535 x.rms))
  else none

/-- A global register of LPE. -/
def liveLPE (s : State) (r : Nat) : Option Word :=
  if r = Reg.LPE_PERIOD_LO then some (half s.mot.period false)
  else if r = Reg.LPE_PERIOD_HI then some (half s.mot.period true)
  else if Reg.LPE_TRACE_VAL ≤ r && decide (r < Reg.LPE_TRACE_VAL + 16) then
    some (wordI (s.mot.traces.getD ((r - Reg.LPE_TRACE_VAL) / 4) {}).q)
  else none

/-! ### Spindle (Table 09-5) -/

/-- PHASE codes of SPN_STATUS (Table 09-3). -/
def spnCode : SpnPhase → Nat
  | .stopped => 0 | .coastSense => 1 | .catch_ => 2 | .brake => 3 | .align => 4 | .runup => 5 | .run => 6 | .recatch => 7
  | .stopping => 8 | .lockedWait => 9 | .fault => 10

/-- EST of SPN_STATUS: the regime of Table 09-2. -/
def estCode (p : SpnState) : Nat :=
  if !p.valid then 0 else if blendW p = 0 then 1 else if blendW p < one24 then 2 else 3

/-- A quantity in 2^−24 as an integer in thousandths. -/
def milli (v : Int) : Int := roundDiv (v * 1000) 0x1000000

/-- A register of SPN. -/
def liveSPN (s : State) (r : Nat) : Option Word :=
  let p := spn s
  if r = Reg.SPN_CTRL then some (wordPut (getReg s Reg.SPN_CTRL) 8 8 (one01 p.forceLoss))
  else if r = Reg.SPN_STATUS then
    some (packF [(Fld.SPN_STATUS_PHASE, spnCode p.phase), (Fld.SPN_STATUS_EST, estCode p), (Fld.SPN_STATUS_GATES, one01 p.gates),
      (Fld.SPN_STATUS_VLIMIT, one01 p.vlimit), (Fld.SPN_STATUS_RETRIES, min 3 p.retries),
      (Fld.SPN_STATUS_BLEND, if p.valid then (roundDiv (blendW p * 128) 0x1000000).toNat else 0)])
  else if r = Reg.SPN_SPEED then
    some (packF [(Fld.SPN_SPEED_BACKWARD, one01 p.backward), (Fld.SPN_SPEED_VALID, one01 p.valid),
      (span 15 0, min 65535 (roundDiv p.nHat 0x1000000).natAbs)])
  else if r = Reg.SPN_TARGET then
    some (packF [(Fld.SPN_TARGET_SOURCE, p.arbSource), (span 15 0, p.arbTarget)])
  else if r = Reg.SPN_RATE_REQ then some (packF [(span 23 16, p.rateF), (span 15 0, p.rateReq)])
  else if r = Reg.SPN_CURRENT then
    some (packF [(Fld.SPN_CURRENT_I_Q, unsigned 16 (clampI (-32768) 32767 (milli p.iQ))),
      (Fld.SPN_CURRENT_I_D, unsigned 16 (clampI (-32768) 32767 (milli p.iD)))])
  else if r = Reg.SPN_VBUS then some (packF [(Fld.SPN_VBUS_VBUS, min 65535 (p.vbus / 10))])
  else if r = Reg.SPN_ANGLE then some (packF [(span 31 16, p.th / 65536), (span 11 0, p.adv)])
  else none

/-! ### Carriages (Table 10-6) -/

/-- CRG_STATUS of carriage c. -/
def crgStatus (s : State) (c : Nat) : Word :=
  let m := carOfS s c
  packF [(Fld.CRG_STATUS_STATE, motionCode m.st), (Fld.CRG_STATUS_HOMED, one01 m.homed), (Fld.CRG_STATUS_MODE, one01 m.strong),
    (Fld.CRG_STATUS_JUMPING, one01 m.jump.isSome),
    (Fld.CRG_STATUS_JUMP_KIND, one01 (match m.jump with | some j => j.turn | none => false)),
    (Fld.CRG_STATUS_REVERSING, one01 m.reversing), (Fld.CRG_STATUS_GATES, one01 m.gates),
    (Fld.CRG_STATUS_SEEK_PENDING, one01 m.pending.isSome), (Fld.CRG_STATUS_SHAPE_DEFAULT, one01 m.shapeDefault),
    (Fld.CRG_STATUS_RETRY, match m.seek with | some k => k.retry | none => 0)]

/-- A register of carriage c's window. -/
def liveCRG (s : State) (c d : Nat) : Option Word :=
  let r := 0x63000 + d
  let m := carOfS s c
  if r = Reg.CRG_CTRL then some (packF [(Fld.CRG_CTRL_FORCE_SLIP, one01 m.forceSlip)])
  else if r = Reg.CRG_STATUS then some (crgStatus s c)
  else if r = Reg.CRG_POS then some (packF [(Fld.CRG_POS_HOMED, one01 m.homed), (span 17 0, unsigned 18 m.p)])
  else if r = Reg.CRG_TARGET then some (packF [(span 17 0, unsigned 18 (roundDiv m.tgt (25 * 0x1000000)))])
  else if r = Reg.CRG_VEL then some (wordI (roundDiv m.v 0x100000000))
  else if r = Reg.CRG_ACC then some (wordI (roundDiv m.a (1000 * 0x100000000)))
  else if r = Reg.CRG_TRACK_TARGET then
    some (packF [(span 25 0, unsigned 26 (roundDiv (trackTarget s c * 1000) 0x1000000))])
  else if r = Reg.CRG_TURN then some (packF [(Fld.CRG_TURN_LF, m.lf), (span 13 0, m.turn)])
  else if r = Reg.CRG_JUMP_PHASE then some (wordI m.jumpPhase)
  else if r = Reg.CRG_COIL then
    some (packF [(span 31 16, unsigned 16 (clampI (-32768) 32767 (milli m.coil2.i))),
      (span 15 0, unsigned 16 (clampI (-32768) 32767 (milli m.coil1.i)))])
  else none

/-! ### Cams (Table 10-7) -/

/-- A register of CAM. ENGAGE shows what was written before its effect at phase 0 (R330, R552). -/
def liveCAM (s : State) (r : Nat) : Option Word :=
  if r = Reg.CAM_PT_DATA then some (camPtValue s)
  else if r = Reg.CAM_STATUS then
    some (packF [(Fld.CAM_STATUS_COMMIT_PENDING, one01 s.mot.commit.isSome), (span 21 16, s.mot.commit.getD 0),
      (span 6 0, (s.mot.cams.filter (·.engaged)).length)])
  else if Reg.CAM_CTRL ≤ r && decide (r < Reg.CAM_CTRL + 256) then
    let x := camSt s ((r - Reg.CAM_CTRL) / 4)
    some (packF [(Fld.CAM_CTRL_TIME_RESET, one01 x.timeReset), (Fld.CAM_CTRL_ENGAGE, one01 (x.engage.getD x.engaged))])
  else if Reg.CAM_OUT ≤ r && decide (r < Reg.CAM_OUT + 256) then some (wordI (camSt s ((r - Reg.CAM_OUT) / 4)).out)
  else if Reg.CAM_MASTER ≤ r && decide (r < Reg.CAM_MASTER + 256) then some (wordI (camSt s ((r - Reg.CAM_MASTER) / 4)).master)
  else none

end Sys2Proof.Machine
end

