-- ==== Sys2Proof/Machine/LiveHost.lean ====
section
/-! DEFINITION. What the status registers of the host queues, ordering, cache, memory, calibration, units, management, pair,
clock, image and identification blocks show, computed from the state they report (R546); and what a read of any BAR0
register returns. -/

namespace Sys2Proof.Machine

/-! ### Host queues and ordering (Tables 11-14, 11-15, 12-7) -/

/-- Rings with a recorded doorbell and no context (HQ_DB_PEND). -/
def bellsPending (s : State) : Nat := (s.host.doorbells.filter (fun e => e.2.rung && (ctxOf s e.1).isNone)).length

/-- Tags that a function holds. -/
def tagsOf (s : State) (f : Nat) : Nat := ((cmds s).filter (fun e => e.2.fn == f && !e.2.remote)).length

/-- A global register of HQ. -/
def liveHQ (s : State) (r : Nat) : Option Word :=
  if r = Reg.HQ_STATUS then
    some (packF [(Fld.HQ_STATUS_TAGS_USED, (cmds s).length), (Fld.HQ_STATUS_CTX_USED, (ctxs s).length)])
  else if r = Reg.HQ_DB_PEND then some (BitVec.ofNat 32 (bellsPending s % 0x200000))
  else none

/-- A register of function f's set. -/
def liveFn (s : State) (f d : Nat) : Option Word :=
  if Reg.HQ_FN_DIR_LO + d = Reg.HQ_FN_STATUS then
    some (packF [(Fld.HQ_FN_STATUS_HAS_RINGS, one01 (hasRings s f)), (Fld.HQ_FN_STATUS_IN_FLR, one01 (fnSt s f).inFlr),
      (Fld.HQ_FN_STATUS_TAGS_USED, tagsOf s f), (Fld.HQ_FN_STATUS_CTX_HELD, ctxHeld s f)])
  else none

/-- Commands in WAITING. -/
def waitingCmds (s : State) : Nat := ((cmds s).filter (fun e => decide (e.2.state = .waiting))).length

/-- A register of ORD. -/
def liveORD (s : State) (r : Nat) : Option Word :=
  let v := getF s Fld.ORD_VOL_SEL_VOLUME
  if r = Reg.ORD_STATUS then
    some (packF [(Fld.ORD_STATUS_ENTRIES, ((cmds s).filter (fun e => e.2.lock.isSome)).length),
      (Fld.ORD_STATUS_WAITING, waitingCmds s)])
  else if r = Reg.ORD_VOL_STATUS then
    some (packF [(Fld.ORD_VOL_STATUS_HELD, one01 (s.media.held.any (fun h => h.vol == v && unapplied h))),
      (Fld.ORD_VOL_STATUS_CLOSING, one01 (closing s v)), (Fld.ORD_VOL_STATUS_CREATING, one01 (creating s v)),
      (Fld.ORD_VOL_STATUS_REPLAY_ENTRIES, (volOf s v).replay.length)])
  else if r = Reg.ORD_VOL_DURABLE_LO then some (half (durableSeq s v) false)
  else if r = Reg.ORD_VOL_DURABLE_HI then some (half (durableSeq s v) true)
  else none

/-! ### Cache and memory (Tables 13-7, 14-8) -/

/-- A register of BC. -/
def liveBC (s : State) (r : Nat) : Option Word :=
  let st := getReg s r
  if r = Reg.BC_STATUS then
    some (wordPut (wordPut (wordPut st 28 28 (one01 s.bc.range.isSome)) 26 26 (one01 s.bc.twinFull)) 8 0 (min 256 s.bc.miss.length))
  else if r = Reg.BC_OCC then
    some (packF [(Fld.BC_OCC_TWIN_USED, s.bc.twins.length), (Fld.BC_OCC_VICTIM_USED, s.bc.victims.length)])
  else if r = Reg.BC_INV_STATUS then some (wordPut st 30 30 (one01 s.bc.range.isSome))
  else if r = Reg.BC_LOCK_STATUS then some (wordPut st 17 0 (lockedLines s))
  else none

/-- A register of BM. -/
def liveBM (s : State) (r : Nat) : Option Word :=
  if r = Reg.BM_STATUS then
    some (wordPut (getReg s r) 27 27 (one01 (s.pwr.crit && !flag s Fld.BM_CTRL_POINT)))
  else none

/-- A register of INT. -/
def liveINT (s : State) (r : Nat) : Option Word :=
  if r = Reg.INT_STATUS then some (wordPut (getReg s r) 31 31 (one01 (scrubRuns s)))
  else if r = Reg.INT_SCRUB_INTERVAL then some (if scrubRuns s then BitVec.ofNat 32 (scrubInterval s) else getReg s r)
  else none

/-- A register of CAL. -/
def liveCAL (s : State) (r : Nat) : Option Word :=
  let runs (op code u : Nat) : Bool := s.cal.running.any (fun x => x.op == op && (x.code == code || code == 0) && x.unit == u)
  let test (x : CalRun) : Bool := x.op == opSelfTest && decide (x.code ≤ 2)
  if r = Reg.CAL_STATUS then
    some (packF [(Fld.CAL_STATUS_CAR_CAL, bitMask 4 (fun c => runs opCalibrate 0 (uCar c))),
      (Fld.CAL_STATUS_SPN_CAL, one01 (runs opCalibrate 0 uSpindle)), (Fld.CAL_STATUS_BIST, bitMask 2 (fun n => runs opSelfTest 3 (uBuf n))),
      (Fld.CAL_STATUS_TEST, one01 (s.cal.running.any test))])
  else none

/-! ### Units, management and pair (Tables 17-13, 17-14, 18-4) -/

/-- Commands held or waiting for a unit (UNT_HOLD). -/
def heldFor_ (s : State) (u : Nat) : Nat :=
  ((cmds s).filter (fun e => match e.2.gate with
    | .unitWait x => x == u
    | .suspect x _ => x == u
    | _ => false)).length

/-- A register of UNT. -/
def liveUNT (s : State) (r : Nat) : Option Word :=
  let u := getF s ⟨Reg.UNT_SEL, 7, 0⟩
  let e := if unitListed u then unitOf s u else {}
  if r = Reg.UNT_STATE then
    some (packF [(Fld.UNT_STATE_STATE, e.state.code), (Fld.UNT_STATE_PREV, e.prev.code), (Fld.UNT_STATE_REASON, e.reason.code),
      (Fld.UNT_STATE_UNIT, u)])
  else if r = Reg.UNT_EPOCH then some (if unitListed u then e.epoch else 0#32)
  else if r = Reg.UNT_CHANGED_LO then some (half e.changed false)
  else if r = Reg.UNT_CHANGED_HI then some (half e.changed true)
  else if r = Reg.UNT_HOLD then some (BitVec.ofNat 32 (min 65535 (heldFor_ s u)))
  else if r = Reg.UNT_STATUS then
    some (packF [(span 31 16, min 65535 s.unt.waiting.length),
      (span 7 0, ((List.range 128).filter (fun u => unitListed u && decide (ust s u = .suspect))).length)])
  else if Reg.UNT_SERVING ≤ r && decide (r < Reg.UNT_SERVING + 32) then
    some (BitVec.ofNat 32 (bitMask 32 (fun b => let u := 32 * ((r - Reg.UNT_SERVING) / 4) + b; unitListed u && (ust s u).serves)))
  else none

/-- The bytes of MGT_LOG_WIN: the entry with SEQ MGT_LOG_RD. -/
def logWin (s : State) : List Byte :=
  match s.mgt.log.find? (fun e => e.seq == get64 s Reg.MGT_LOG_RD_LO) with
  | some e => e.bytes
  | none => []

/-- A register of MGT. -/
def liveMGT (s : State) (r : Nat) : Option Word :=
  if r = Reg.MGT_STATUS then
    let w := wordPut (wordPut (getReg s r) 25 25 (one01 s.mgt.i3c.da.isSome)) 22 16 (s.mgt.i3c.da.getD 0)
    some (wordPut w 4 0 s.mgt.subs.length)
  else if r = Reg.MGT_TIME_LO then some (half s.pwr.time false)
  else if r = Reg.MGT_TIME_HI then some (half s.pwr.time true)
  else if r = Reg.MGT_LOG_WR_LO then some (half (nextSeq s) false)
  else if r = Reg.MGT_LOG_WR_HI then some (half (nextSeq s) true)
  else if Reg.MGT_LOG_WIN ≤ r && decide (r < Reg.MGT_LOG_WIN + 64) then
    some (BitVec.ofNat 32 (leAt (logWin s) (r - Reg.MGT_LOG_WIN) 4))
  else none

/-- OWN_STATE codes (Table 18-2). -/
def ownState : OwnState → Nat
  | .wait => 0 | .follower => 1 | .claiming => 2 | .owner => 3 | .handing => 4

/-- SYNC of PRL_STATUS. -/
def syncCode (s : State) : Nat :=
  if (ust s uPartner).serves then 3 else if s.pair.syncing then 2 else if s.pair.linkUp && helloPassed s then 1 else 0

/-- Consecutive heartbeats missed, one every 50 µs (R526). -/
def hbMissed (s : State) : Nat :=
  if s.pair.lost then 20 else if s.pair.hbEver then min 19 ((s.pwr.time - s.pair.lastHb) / 50000) else 0

/-- Running alone under R533: SOLO is set, and the partner does not serve. -/
def runsSolo (s : State) : Bool :=
  pairEn s && isOwner s && flag s Fld.PRL_CFG_SOLO && !(ust s uPartner).serves

/-- A register of PRL. -/
def livePRL (s : State) (r : Nat) : Option Word :=
  if r = Reg.PRL_STATUS then
    some (packF [(Fld.PRL_STATUS_OWN_STATE, ownState s.pair.own), (Fld.PRL_STATUS_OWN_NET, one01 s.pair.ownNet),
      (Fld.PRL_STATUS_SYNC, syncCode s), (Fld.PRL_STATUS_ROLE, getF s Fld.GLB_STRAPS_PAIR_ROLE),
      (Fld.PRL_STATUS_PEER_ROLE, match s.pair.hello with | some h => h.1 | none => 0),
      (Fld.PRL_STATUS_SOLO, one01 (runsSolo s)), (Fld.PRL_STATUS_SETTLING, one01 s.pair.settling),
      (Fld.PRL_STATUS_HB_MISS, hbMissed s)])
  else none

/-! ### Image, clocks and identification (Tables 02-18, 15-10, 19-3) -/

/-- A register of GLB, CLK, RST or IMG. -/
def liveGLB (s : State) (r : Nat) : Option Word :=
  let f := s.img.fuses
  if r = Reg.GLB_ID then some (packF [(Fld.GLB_ID_PART, 0x9160), (Fld.GLB_ID_STEP, 0xB1), (Fld.GLB_ID_GRADE, f.grade.toNat)])
  else if Reg.GLB_UID ≤ r && decide (r < Reg.GLB_UID + 16) then some (f.uid.getD ((r - Reg.GLB_UID) / 4) 0)
  else if r = Reg.CLK_STATUS then
    some (wordPut (wordPut (getReg s r) 30 30 (one01 s.pwr.refPresent)) 29 28 (getF s Fld.BM_STATUS_POINT))
  else if r = Reg.IMG_FUSE then
    some (packF [(Fld.IMG_FUSE_VENDOR_KEY_REVOKE, f.revoke.toNat), (Fld.IMG_FUSE_KEY_BURNT, one01 f.keyBurnt),
      (Fld.IMG_FUSE_IMG_NO_ROM, one01 f.noRom), (Fld.IMG_FUSE_IMG_ENFORCE, one01 f.enforce)])
  else if Reg.IMG_KEYDIG ≤ r && decide (r < Reg.IMG_KEYDIG + 48) then some (keyDig s ((r - Reg.IMG_KEYDIG) / 4))
  else none

/-! ### A read of BAR0 -/

/-- The instance of an arrayed block that an offset falls into is absent: a function above VF_COUNT, a strand or a carriage
that BIND leaves unbound (R544). -/
def unbound (s : State) (off : Nat) : Bool :=
  if 0x21000 ≤ off && off < 0x22000 then
    let f := (off - 0x21000) / 0x40
    f ≠ 0 && (match s.img.running with | some i => decide (i.queues.vfCount < f) | none => true)
  else if 0x50000 ≤ off && off < 0x54000 then !bound s (uStrand ((off - 0x50000) / 0x200))
  else if 0x63000 ≤ off && off < 0x63800 then !bound s (uCar ((off - 0x63000) / 0x200))
  else false

/-- The part of BAR0 that is served now: 0 none, 1 the GLB, CLK, RST and IMG blocks, 2 the whole map (R468 to R470, R548,
R549). -/
def bar0Served (s : State) : Nat :=
  if s.pwr.perst then 0
  else if halted s || holding s || (getF s Fld.IMG_STATUS_QSTATE = 3 && decide (stage s < 6)) then 1
  else if 6 ≤ stage s then 2
  else 0

/-- An offset that BAR0 serves now. -/
def servedOff (s : State) (lvl off : Nat) : Bool :=
  (lvl == 2 && !unbound s off) || (lvl == 1 && decide (off < 0x4000))

/-- What a status register shows, where it is computed. The mechanics of a non-owner are idle (R523, R553): their status
fields show their reset values. -/
def liveOf (s : State) (off : Nat) : Option Word :=
  let idle (r : Nat) (v : Option Word) : Option Word :=
    match rowOf r with
    | some row => if row.readOnly && v.isSome && !isOwner s then some (resetValue r) else v
    | none => v
  if off < 0x4000 then liveGLB s off
  else if off < 0x21000 then liveHQ s off
  else if off < 0x22000 then liveFn s ((off - 0x21000) / 0x40) ((off - 0x21000) % 0x40)
  else if off < 0x41000 then liveORD s off
  else if off < 0x54000 then idle off (liveCHN s ((off - 0x50000) / 0x200) ((off - 0x50000) % 0x200))
  else if off < 0x55000 then liveDEC s off
  else if off < 0x56000 then liveSKN s off
  else if off < 0x57000 then liveWRP s off
  else if off < 0x58000 then liveHNK s off
  else if off < 0x61000 then idle off (liveSlot s ((off - 0x60000) / 0x80) ((off - 0x60000) % 0x80))
  else if off < 0x62000 then idle off (liveLPE s off)
  else if off < 0x63000 then idle off (liveSPN s off)
  else if off < 0x64000 then idle off (liveCRG s ((off - 0x63000) / 0x200) ((off - 0x63000) % 0x200))
  else if off < 0x65000 then idle off (liveCAM s off)
  else if off < 0x71000 then liveBC s off
  else if off < 0x72000 then liveBM s off
  else if off < 0x73000 then liveINT s off
  else if off < 0x74000 then idle off (liveCAL s off)
  else if off < 0x81000 then liveUNT s off
  else if off < 0x82000 then liveMGT s off
  else livePRL s off

/-- The fields of a row that read as 0: reserved bits and write-only fields (R10, R11). -/
def readMask (r : RegRow) : Word :=
  r.fields.foldl (fun w f => if f.acc = .wo then w else wordPut w f.hi f.lo (2 ^ (f.hi + 1 - f.lo) - 1)) 0#32

/-- The present value of the register at an offset; 0 where no register lies (R543). -/
def regValue (s : State) (off : Nat) : Word :=
  match rowOf off with
  | none => 0#32
  | some r => match liveOf s off with
    | some w => w
    | none => getReg s off &&& readMask r

end Sys2Proof.Machine
end

