-- ==== Sys2Proof/Machine/Mmio.lean ====
section
/-! DEFINITION. Accesses of BAR0 and VF BAR0 (R10 to R15, R338, R375, R543 to R553): reads with their side effects, writes under
the access types of their fields, the actions of command bits, the MSI-X structures, and PCIe configuration requests. -/

namespace Sys2Proof.Machine

/-! ### Fields under their access types (R10 to R12) -/

/-- Whether a field accepts a value; acc is the register so far, the fields below already written. -/
def limitOk (f : RegField) (v : Nat) (acc : Word) : Bool :=
  match f.lim with
  | .any => true
  | .range lo hi => decide (lo ≤ v) && decide (v ≤ hi)
  | .zeroOr lo hi => v == 0 || (decide (lo ≤ v) && decide (v ≤ hi))
  | .srange neg pos => let x := signed (f.hi + 1 - f.lo) v; decide (-(neg : Int) ≤ x) && decide (x ≤ pos)
  | .upTo lo h l => decide (lo ≤ v) && decide (v ≤ wordBits acc h l)
  | .atLeast h l hi => decide (wordBits acc h l ≤ v) && decide (v ≤ hi)
  | .aligned n => v % 2 ^ n == 0

/-- One field of a written word (Table 00-4). A reserved encoding leaves the field as it is (R12). -/
def storeField (beforeS6 : Bool) (v acc : Word) (f : RegField) : Word :=
  let x := wordBits v f.hi f.lo
  let rw := if limitOk f x acc then wordPut acc f.hi f.lo x else acc
  match f.acc with
  | .rw => rw
  | .rws => rw
  | .rwl => if beforeS6 then rw else acc
  | .w1c => acc &&& ~~~ (wordPut 0#32 f.hi f.lo x)
  | .w1s => acc ||| wordPut 0#32 f.hi f.lo x
  | .ro => acc
  | .rc => acc
  | .wo => acc

/-- What a write of v leaves in a register. -/
def storeWord (s : State) (r : RegRow) (off : Nat) (v : Word) : Word :=
  r.fields.foldl (storeField (decide (stage s < 6)) v) (getReg s off)

/-- A write to a register with no behaviour of its own. -/
def storeReg (off : Nat) (v : Word) (s : State) : State :=
  match rowOf off with
  | some r => setReg off (storeWord s r off v) s
  | none => s

/-! ### 64-bit quantities (R15) -/

/-- The low halves of the 64-bit quantities. -/
def pairLows : List Nat :=
  [Reg.IMG_PUSH_ADDR_LO, Reg.IMG_SERIAL_LO, Reg.LPE_PERIOD_LO, Reg.SPN_REV_LO, Reg.HQ_SEQ_LO, Reg.HQ_FN_DIR_LO,
   Reg.HQ_FN_VOLMASK_LO, Reg.ORD_VOL_DURABLE_LO, Reg.ORD_GEN_ARG_LO, Reg.ORD_GEN_CUT_LO, Reg.BC_INV_ADDR_LO, Reg.BC_LOCK_ADDR_LO,
   Reg.INT_ERR_ADDR_LO, Reg.INT_TEST_ADDR_LO, Reg.UNT_CHANGED_LO, Reg.MGT_TIME_LO, Reg.MGT_LOG_WR_LO, Reg.MGT_LOG_RD_LO,
   Reg.PRL_ACK_SEQ_LO]

/-- The offset of a function register in function 0's set; any other offset as it is. -/
def firstSet (off : Nat) : Nat := if 0x21000 ≤ off && off < 0x22000 then 0x21000 + (off - 0x21000) % 0x40 else off

/-- Low and high halves. -/
def isLow (off : Nat) : Bool := pairLows.contains (firstSet off)
def isHigh (off : Nat) : Bool := decide (4 ≤ off) && isLow (off - 4)

/-- The held low half of a pair. -/
def heldLow (s : State) (off : Nat) : Option Word := Tbl.get none off s.host.loHold

/-- Replaces the held halves of a pair. -/
def putLow (off : Nat) (v : Option Word) (s : State) : State :=
  { s with host := { s.host with loHold := Tbl.put none off v s.host.loHold } }
def putHigh (off : Nat) (v : Option Word) (s : State) : State :=
  { s with host := { s.host with hiHold := Tbl.put none off v s.host.hiHold } }
def markBad (off : Nat) (bad : Bool) (s : State) : State :=
  { s with host := { s.host with loBad := if bad then addNat off s.host.loBad else s.host.loBad.filter (· ≠ off) } }

/-- A write of a low half: held until the high half is written. One of HQ_FN_DIR_LO that is not aligned drops the pair's
write (R341). -/
def writeLow (off : Nat) (v : Word) (s : State) : State :=
  if firstSet off = Reg.HQ_FN_DIR_LO && wordBits v 11 0 ≠ 0 then markBad off true (putLow off none s)
  else markBad off false (putLow off (some v) s)

/-- HQ_FN_DIR is locked while its function holds a context (R341). -/
def dirLocked (s : State) (lo : Nat) : Bool := firstSet lo == Reg.HQ_FN_DIR_LO && decide (0 < ctxHeld s ((lo - 0x21000) / 0x40))

/-- A write of a high half: both halves take effect together; with no low half held, the high half alone. -/
def writeHigh (lo : Nat) (v : Word) (s : State) : State :=
  let held := heldLow s lo
  let bad := s.host.loBad.contains lo
  let s := markBad lo false (putLow lo none s)
  if bad || dirLocked s lo then s
  else
    let s := match held with | some w => storeReg lo w s | none => s
    storeReg (lo + 4) v s

/-! ### Command registers -/

/-- A command of the mechanics and of the other blocks of R553 acts at the owner alone. -/
def atOwner (f : State → State) (s : State) : State := if isOwner s then f s else s

/-- Runs f where a bit of v is set. -/
def ifBit (v : Word) (i : Nat) (f : State → State) (s : State) : State := if v.getLsbD i then f s else s

/-- IMG_CTRL (Table 02-18). -/
def imgCommand (v : Word) (s : State) : State :=
  let key := wordBits v 31 24
  match wordBits v 3 0 with
  | 1 => fetchImageEff s
  | 2 => quiesceEff s
  | 3 => resumeEff s
  | 4 => applyEff key s
  | 5 => progEff false key s
  | 6 => progEff true key s
  | 8 => burnKeyEff key s
  | 9 => burnEnforceEff key s
  | 10 => burnNoRomEff key s
  | 11 => burnRevokeEff key (wordBits v 5 4) s
  | _ => s

/-- LPE_CTRL of slot k (Table 08-6): MASK, INTERP and FOLLOW, then CLR_FAULT, PARK, SWAP and ENABLE. -/
def lpeCommand (k : Nat) (v : Word) (s : State) : State :=
  let d := 0x80 * k
  let s := setF (Fld.LPE_CTRL_MASK.at d) (wordBits v 9 6) (setF (Fld.LPE_CTRL_INTERP.at d) (wordBits v 5 5) s)
  let s := loopFollowEff k (v.getLsbD 4) s
  let s := atOwner (ifBit v 3 (loopClrFaultEff k)) s
  let s := ifBit v 2 (loopParkEff k) s
  let s := ifBit v 1 (loopSwapEff k) s
  loopEnableEff k (v.getLsbD 0) s

/-- SPN_CTRL (Table 09-5). -/
def spnCommand (v : Word) (s : State) : State :=
  let s := setF Fld.SPN_CTRL_RATE_HOLD (wordBits v 4 4) (setF Fld.SPN_CTRL_STOP_COAST (wordBits v 2 2) s)
  atOwner (fun s =>
    ifBit v 8 spnForceLossEff (ifBit v 3 spnClrFaultEff (ifBit v 1 spnStopReq (ifBit v 0 spnStartReq s)))) s

/-- CRG_CTRL of carriage c. -/
def crgControl (c : Nat) (v : Word) (s : State) : State :=
  let s := if v.getLsbD 0 then crgForceSlipEff c s else modCar c (fun m => { m with forceSlip := false }) s
  atOwner (ifBit v 1 (crgClrFaultEff c)) s

/-- CRG_CMD of carriage c (Table 10-6). -/
def crgCommand (c : Nat) (v : Word) (s : State) : State :=
  let s := storeReg (Reg.CRG_CMD + 0x200 * c) v s
  atOwner (fun s =>
    match getF s (cfld Fld.CRG_CMD_CMD c) with
    | 1 => crgCmdEff c (seekEff c (getF s (cfld Fld.CRG_CMD_LF c)) (getF s (cfld Fld.CRG_CMD_TURN c))) s
    | 2 => crgCmdEff c (homeCmd c) s
    | 3 => crgCmdEff c (moveCmd c) s
    | _ => s) s

/-- HNK_CTRL: FORCE_MISMATCH as written, and a restore for each bit written 1. -/
def hnkCommand (v : Word) (s : State) : State :=
  let s := setF Fld.HNK_CTRL_FORCE_MISMATCH (wordBits v 0 0) s
  atOwner (fun s => forEach (fun n s => ifBit v (8 + n) (hankRestoreEff n) s) (List.range 6) s) s

/-- WRP_CTRL. -/
def wrpCommand (v : Word) (s : State) : State :=
  let s := setF Fld.WRP_CTRL_PREREAD_ALWAYS (wordBits v 2 2) (writeInhibitEff (v.getLsbD 0) s)
  atOwner (ifBit v 1 retryHeldEff) s

/-- CHN_TEST of strand g: a bit written 0 before its slot is taken back. -/
def chnTest (g : Nat) (v : Word) (s : State) : State :=
  let s := if v.getLsbD 1 then forceMissEff g s
    else setF (chF Fld.CHN_TEST_FORCE_SYNC_MISS g) 0 (modStrand g (fun st => { st with forceMiss := false }) s)
  if v.getLsbD 0 then forceDefectEff g s
  else setF (chF Fld.CHN_TEST_FORCE_DEFECT g) 0 (modStrand g (fun st => { st with forceDefect := false }) s)

/-- CAM_CTRL of table t. -/
def camControl (t : Nat) (v : Word) (s : State) : State := ifBit v 1 (camTimeResetEff t) (camEngageEff t (v.getLsbD 0) s)

/-- BC_INV_CMD. -/
def invCommand (v : Word) (s : State) : State :=
  match wordBits v 1 0 with
  | 1 => rangeStart true (v.getLsbD 4) (v.getLsbD 3) s
  | 2 => rangeStart false (v.getLsbD 4) (v.getLsbD 3) s
  | _ => s

/-- BC_LOCK_CMD. -/
def lockCommand (v : Word) (s : State) : State :=
  match wordBits v 1 0 with
  | 1 => lockEff s
  | 2 => unlockEff (v.getLsbD 3) s
  | _ => s

/-- HQ_FN_RING_CMD of function f. -/
def ringCommand (f : Nat) (v : Word) (s : State) : State :=
  match wordBits v 31 28 with
  | 1 => invalidateEff f (wordBits v 19 0) s
  | 2 => ringQueryEff f (wordBits v 19 0) s
  | _ => s

/-- INT_CTRL. -/
def intCommand (v : Word) (s : State) : State :=
  let s := setF Fld.INT_CTRL_FORCE_PARITY (wordBits v 8 8) (setF Fld.INT_CTRL_SCRUB_PAUSE (wordBits v 0 0) s)
  ifBit v 1 scrubRestartEff s

/-- PRL_CTRL. -/
def prlCommand (v : Word) (s : State) : State :=
  let key := wordBits v 31 24
  ifBit v 1 (peerResetEff key) (ifBit v 0 (handoverEff key) s)

/-- ORD_CTRL. -/
def ordCommand (v : Word) (s : State) : State := ifBit v 0 genLookupEff (ifBit v 1 replayClearEff s)

/-- MGT_LOG_RD or MGT_LOG_VEC written: the vector may signal again only after a write of MGT_LOG_RD (R520). -/
def logRdWritten (s : State) : State := logSignal { s with mgt := { s.mgt with logArmed := true } }

/-- A write of an offset in the function sets. -/
def writeFn (off : Nat) (v : Word) (s : State) : State :=
  if firstSet off = Reg.HQ_FN_RING_CMD then ringCommand ((off - 0x21000) / 0x40) v s else storeReg off v s

/-- A 32-bit write of a register that is no half of a 64-bit quantity. -/
def writeOne (off : Nat) (v : Word) (s : State) : State :=
  let n32 (base count : Nat) : Bool := decide (base ≤ off) && decide (off < base + 4 * count)
  if off = Reg.IMG_CTRL then imgCommand v s
  else if n32 Reg.IMG_KEYDIG 12 then (if s.img.fuses.keyBurnt then s else storeReg off v s)
  else if off = Reg.RST_CTRL then softResetEff v true s
  else if 0x21000 ≤ off && off < 0x22000 then writeFn off v s
  else if off = Reg.ORD_CTRL then ordCommand v s
  else if 0x50000 ≤ off && off < 0x54000 && off % 0x200 = Reg.CHN_TEST % 0x200 then chnTest ((off - 0x50000) / 0x200) v s
  else if off = Reg.WRP_CTRL then wrpCommand v s
  else if n32 Reg.WRP_PDL_CMD 4 then pdlCmdEff ((off - Reg.WRP_PDL_CMD) / 4) v.toNat s
  else if off = Reg.HNK_CTRL then hnkCommand v s
  else if 0x60000 ≤ off && off < 0x61000 && off % 0x80 = 0 then lpeCommand ((off - 0x60000) / 0x80) v s
  else if 0x60000 ≤ off && off < 0x61000 && off % 0x80 = Reg.LPE_COEF_DATA % 0x80 then coefWrite ((off - 0x60000) / 0x80) v s
  else if off = Reg.SPN_CTRL then spnCommand v s
  else if 0x63000 ≤ off && off < 0x63800 && off % 0x200 = 0 then crgControl ((off - 0x63000) / 0x200) v s
  else if 0x63000 ≤ off && off < 0x63800 && off % 0x200 = Reg.CRG_CMD % 0x200 then crgCommand ((off - 0x63000) / 0x200) v s
  else if off = Reg.CAM_PT_DATA then camPtWrite v s
  else if off = Reg.CAM_COMMIT then atOwner (camCommitEff v) s
  else if n32 Reg.CAM_CTRL 64 then camControl ((off - Reg.CAM_CTRL) / 4) v s
  else if off = Reg.BC_CTRL then (if v.getLsbD 0 then enableEff s else disableEff s)
  else if off = Reg.BC_INV_CMD then invCommand v s
  else if off = Reg.BC_LOCK_CMD then lockCommand v s
  else if off = Reg.INT_CTRL then intCommand v s
  else if off = Reg.MGT_LOG_VEC then logSignal (storeReg off v s)
  else if off = Reg.PRL_CTRL then prlCommand v s
  else storeReg off v s

/-- A 32-bit aligned write of an offset that is served. -/
def writeReg (off : Nat) (v : Word) (s : State) : State :=
  if isLow off then writeLow off v s
  else if isHigh off then
    let s := writeHigh (off - 4) v s
    if off - 4 = Reg.MGT_LOG_RD_LO then logRdWritten s else s
  else writeOne off v s

/-! ### MSI-X structures (R374, R545) -/

/-- The MSI-X vectors of a function (R339). -/
def msixCount (s : State) (f : Nat) : Nat := match fnCfg s f with | some q => q.msix | none => 0

/-- A vector's entry. -/
def vecOf (s : State) (f v : Nat) : MsixVec := Tbl.get {} (vecKey f v) s.host.msix

/-- A 32-bit word of the table (o below 0x8000) or of the PBA, by its offset from the table's start. -/
def msixRead (s : State) (f o : Nat) : Nat :=
  if o < 0x8000 then
    let x := vecOf s f (o / 16)
    if msixCount s f ≤ o / 16 then 0
    else match o % 16 / 4 with
      | 0 => x.addr % 0x100000000
      | 1 => x.addr / 0x100000000
      | 2 => x.data
      | _ => if x.masked then 1 else 0
  else bitMask 32 (fun b => let v := 8 * (o - 0x8000) + b; decide (v < msixCount s f) && (vecOf s f v).pending)

/-- A 32-bit write of the table; the PBA is read-only. -/
def msixWrite (f o : Nat) (v : Word) (s : State) : State :=
  let n := o / 16
  let put (g : MsixVec → MsixVec) (s : State) : State :=
    { s with host := { s.host with msix := Tbl.put {} (vecKey f n) (g (vecOf s f n)) s.host.msix } }
  if 0x8000 ≤ o || msixCount s f ≤ n then s
  else match o % 16 / 4 with
    | 0 => put (fun x => { x with addr := x.addr / 0x100000000 * 0x100000000 + v.toNat / 4 * 4 }) s
    | 1 => put (fun x => { x with addr := x.addr % 0x100000000 + 0x100000000 * v.toNat }) s
    | 2 => put (fun x => { x with data := v.toNat }) s
    | _ => if v.getLsbD 0 then put (fun x => { x with masked := true }) s else msixUnmaskEff f (some n) s

/-- An aligned access of 4 or 8 bytes. -/
def msixSized (o size : Nat) : Bool := (size == 4 || size == 8) && o % size == 0

/-! ### Accesses -/

/-- The PF offset that an access of function f reaches: a register (inl), its MSI-X structures at an offset (inr), or
nothing. A VF is served once it has rings' preconditions: VF Enable with its number at most NumVFs (R337, R338). -/
def target (s : State) (f off : Nat) : Option (Sum Nat Nat) :=
  if f = 0 then
    if 0x30000 ≤ off && off < 0x38100 then (if bar0Served s = 2 then some (.inr (off - 0x30000)) else none)
    else if servedOff s (bar0Served s) off then some (.inl off) else none
  else if bar0Served s ≠ 2 || !s.host.vfEnable || s.host.numVfs < f then none
  else if off < 0x8100 then some (.inr off)
  else if 0x10000 ≤ off && off < 0x10040 then some (.inl (0x21000 + 0x40 * f + (off - 0x10000)))
  else none

/-- A BAR0 write. Of another width or alignment it is discarded (R14). The volume mask is read-only in a VF's view (R375),
and the IMG registers are read-only during a halt (R68, R469). -/
def barWrite (f off size v : Nat) (s : State) : State :=
  match target s f off with
  | none => s
  | some (.inr o) =>
    if !msixSized o size then s
    else
      let s := msixWrite f o (BitVec.ofNat 32 v) s
      if size = 8 then msixWrite f (o + 4) (BitVec.ofNat 32 (v / 0x100000000)) s else s
  | some (.inl r) =>
    if size ≠ 4 || off % 4 ≠ 0 then s
    else if f ≠ 0 && (firstSet r = Reg.HQ_FN_VOLMASK_LO || firstSet r = Reg.HQ_FN_VOLMASK_HI) then s
    else if halted s && 0x3000 ≤ r then s
    else writeReg r (BitVec.ofNat 32 v) s

/-- What a BAR0 read answers. -/
def barValue (s : State) (f off size : Nat) : Nat :=
  match target s f off with
  | none => 0
  | some (.inr o) =>
    if !msixSized o size then 0
    else if size = 8 then msixRead s f o + 0x100000000 * msixRead s f (o + 4) else msixRead s f o
  | some (.inl r) =>
    if size ≠ 4 || off % 4 ≠ 0 then 0
    else if isHigh r then (match Tbl.get none (r - 4) s.host.hiHold with | some w => w.toNat | none => (regValue s r).toNat)
    else (regValue s r).toNat

/-- A register that a read clears (RC). -/
def isRc (off : Nat) : Bool :=
  match rowOf off with | some r => r.fields.any (fun f => decide (f.acc = .rc)) | none => false

/-- What reading the register r does beside answering: an RC count clears (R10, R551), a low half captures its high half
(R15), a data port steps, and a free value shown is used up. -/
def readEffect (r : Nat) (s : State) : State :=
  if isLow r then putHigh r (some (regValue s (r + 4))) s
  else if isHigh r then putHigh (r - 4) none s
  else if isRc r then setReg r 0#32 (if isCnt r then carryCount r s else s)
  else if r = Reg.CAM_PT_DATA then camPtStep s
  else if 0x60000 ≤ r && r < 0x61000 && r % 0x80 = Reg.LPE_COEF_DATA % 0x80 then coefStep ((r - 0x60000) / 0x80) s
  else if 0x50000 ≤ r && r < 0x54000 && r % 0x200 = Reg.CHN_STATUS % 0x200 then useFree s
  else s

/-- A BAR0 read of function f. -/
def barRead (f off size : Nat) (s : State) : State :=
  let v := barValue s f off size
  let s := match target s f off with
    | some (.inl r) => if size = 4 && off % 4 = 0 then readEffect r s else s
    | _ => s
  emit (.regData off v) s

/-! ### Configuration requests (R470) -/

/-- Whether a configuration request is answered with Configuration Request Retry Status: before S5 completes, but for a
halt and the holding of R68, and after PERST_N until the function resets have ended. -/
def crsNow (s : State) : Bool :=
  (decide (stage s < 6) && !halted s && !holding s && getF s Fld.IMG_STATUS_QSTATE ≠ 3) ||
    (s.pwr.perstFlr && s.host.fns.any (fun e => e.2.inFlr))

/-- A function that has a configuration space now. -/
def fnVisible (s : State) (f : Nat) : Bool :=
  f == 0 || (decide (6 ≤ stage s) && s.host.vfEnable && decide (f ≤ s.host.numVfs))

/-- What a configuration read answers: the PF's identity and the subsystem identity (R336, R554, R555); the spec states no
other register's content. -/
def configValue (s : State) (f off : Nat) : Nat :=
  if off = 0 && f = 0 then 0x91601F3B
  else if off = 8 then 0x018000B1
  else if off = 0x2C then (getReg s Reg.GLB_SUBSYS).toNat
  else (Config.freeWord s.free).toNat

/-- The effect of an answered request. -/
def configWrite (f : Nat) (q : ConfigReq) (s : State) : State :=
  match q with
  | .read _ => s
  | .numVfs n =>
    let top := match s.img.running with | some i => i.queues.vfCount | none => 0
    if f ≠ 0 || s.host.vfEnable || top < n then s else { s with host := { s.host with numVfs := n } }
  | .vfEnable on =>
    let top := match s.img.running with | some i => i.queues.vfCount | none => 0
    if f ≠ 0 || top = 0 then s
    else if on then { s with host := { s.host with vfEnable := true } }
    else if s.host.vfEnable then
      let s := forEach (fun n s => flrStart n s) (upFrom 1 63) s
      { s with host := { s.host with vfEnable := false } }
    else s
  | .busMaster on => modFn f (fun x => { x with busMaster := on }) s
  | .msix en mask => unmaskAll f (modFn f (fun x => { x with msixEn := en, fnMask := mask }) s)
  | .power d3 => modFn f (fun x => { x with d3 := d3 }) s

/-- CONFIGURATION_REQUEST to function f. -/
def configEff (f : Nat) (q : ConfigReq) (s : State) : State :=
  if s.pwr.perst || !s.pwr.refPresent || stage s < 2 then s
  else if crsNow s then emit (.config none) s
  else if !fnVisible s f || 64 ≤ f then s
  else
    let v := match q with | .read off => configValue s f off | _ => 0
    emit (.config (some v)) (useFree (configWrite f q s))

end Sys2Proof.Machine
end

