-- ==== Sys2Proof/Machine/Mgmt.lean ====
section
/-! DEFINITION. The management path (R514 to R518): Deck Management Protocol messages from stations and over I3C, the I3C target,
PTP, and the log window. -/

namespace Sys2Proof.Machine

/-! ### Answers (R515, R516) -/

/-- STATUS codes of the protocol's own (Table 17-11), and two of Table 11-12. -/
def notPermitted : Nat := 0x80
def dmpBusy : Nat := 0x81
def notAvailable : Nat := 0x82
def dmpInvalid : Nat := 0x20

/-- Sends a response to where the message came from; NOT_PERMITTED and BUSY are counted. -/
def reply (m : MsgFrom) (typ reqId flags status : Nat) (p : List Byte) (s : State) : State :=
  let s := if status = notPermitted || status = dmpBusy then bump Reg.MGT_CNT 3 s else s
  match m with
  | .station a q => dmpAnswer a q typ reqId flags status p s
  | .i3c => i3cAnswer typ reqId status p s

/-- Types that change state (Table 17-12). -/
def changesState (typ : Nat) : Bool := [0x03, 0x04, 0x05, 0x09, 0x0A, 0x18, 0x19, 0x1A, 0x1B].contains typ

/-- Types served before S7 and while halted (R515). -/
def servedEarly (typ : Nat) : Bool := [0x01, 0x0B, 0x12, 0x18, 0x19, 0x1A, 0x1B].contains typ

/-- Types of Table 17-12 that a station sends. -/
def typListed (typ : Nat) : Bool :=
  [0x01, 0x02, 0x03, 0x04, 0x05, 0x06, 0x08, 0x09, 0x0A, 0x0B, 0x10, 0x12, 0x18, 0x19, 0x1A, 0x1B].contains typ

/-- The stored response of a repeated request (R516); the I3C target keeps none. -/
def storedFor (s : State) (m : MsgFrom) (reqId : Nat) : Option Stored :=
  match m with
  | .station a q => s.mgt.stored.find? (fun x => x.addr == a && x.port == q && x.reqId == reqId)
  | .i3c => none

/-- State-changing requests that run. -/
def runningReqs (s : State) : Nat :=
  (s.mgt.stored.filter (fun x => x.answer.isNone)).length + (if s.mgt.i3c.waiting then 1 else 0)

/-- Keeps the response of a state-changing request. -/
def keepAnswer (m : MsgFrom) (reqId typ : Nat) (a : Option (Nat × List Byte)) (s : State) : State :=
  match m with
  | .station x q => storeAnswer x q reqId typ a s
  | .i3c => { s with mgt := { s.mgt with i3c := { s.mgt.i3c with waiting := a.isNone } } }

/-- Control of the management path by MGT_CTRL. -/
def mayControl (s : State) (m : MsgFrom) : Bool :=
  match m with
  | .station _ _ => flag s ⟨Reg.MGT_CTRL, 0, 0⟩
  | .i3c => flag s ⟨Reg.MGT_CTRL, 1, 1⟩

/-- Answers a state-changing request at once, and keeps the response. -/
def answerKept (m : MsgFrom) (typ reqId status : Nat) (p : List Byte) (s : State) : State :=
  reply m typ reqId 0 status p (keepAnswer m reqId typ (some (status, p)) s)

/-- Serves one message of a listed type. act answers with its STATUS and payload, or with none where the response
follows later. -/
def serveMsg (m : MsgFrom) (typ reqId : Nat) (act : State → Option (Nat × List Byte) × State) (s : State) : State :=
  let closed := !servedEarly typ && (stage s ≠ 7 || halted s)
  if !changesState typ then
    if closed then reply m typ reqId 0 notAvailable [] s
    else match act s with
      | (some (c, p), t) => reply m typ reqId 0 c p t
      | (none, t) => t
  else match storedFor s m reqId with
    | some x =>
      let s := bump Reg.MGT_CNT 2 s
      match x.answer with
      | some (c, p) => reply m typ reqId 2 c p s
      | none => reply m typ reqId 4 0 [] s
    | none =>
      if closed then answerKept m typ reqId notAvailable [] s
      else if !mayControl s m then answerKept m typ reqId notPermitted [] s
      else if 16 ≤ runningReqs s then reply m typ reqId 0 dmpBusy [] s
      else match act s with
        | (some (c, p), t) => answerKept m typ reqId c p t
        | (none, t) => keepAnswer m reqId typ none t

/-- A message reaches the deck over the management port, which is enabled with its link up (R62); it is counted. -/
def onPort (m : MsgFrom) (f : State → State) (s : State) : State :=
  match m with
  | .station _ _ => if portOn s && flag s Fld.MGT_STATUS_LINK then f (bump Reg.MGT_CNT 0 s) else s
  | .i3c => if 2 ≤ stage s then f (bump Reg.MGT_CNT 4 s) else s

/-! ### The types of Table 17-12 -/

/-- The bytes of registers. -/
def wordBytes (l : List Word) : List Byte := l.flatMap (fun w => leBytes 4 w.toNat)

/-- An answer with INVALID_FIELD. -/
def invalid (s : State) : Option (Nat × List Byte) × State := (some (dmpInvalid, []), s)

/-- An answer with SUCCESS. -/
def success (p : List Byte) (s : State) : Option (Nat × List Byte) × State := (some (0, p), s)

/-- The part of the map that an access beside BAR0 reaches: what BAR0 would serve, whatever the link, and from S2 the GLB,
CLK, RST and IMG blocks (R572). -/
def sideServed (s : State) (off : Nat) : Bool :=
  let full := decide (6 ≤ stage s) && !halted s && !holding s
  servedOff s (if full then 2 else if 2 ≤ stage s then 1 else 0) off

/-- The value of a PF BAR0 word as such an access reads it, nothing cleared or captured. -/
def sideValue (s : State) (off : Nat) : Word :=
  if off % 4 ≠ 0 then 0#32
  else if 0x30000 ≤ off && off < 0x38100 then
    (if 6 ≤ stage s && !halted s then BitVec.ofNat 32 (msixRead s 0 (off - 0x30000)) else 0#32)
  else if sideServed s off then regValue s off else 0#32

/-- DISCOVER (R515): the identification words, GLB_STATUS and MGT_STATUS, delayed where DECK_ID was 0. -/
def discoverEff (m : MsgFrom) (reqId : Nat) (zero : Bool) (s : State) : State :=
  let p := wordBytes ([Reg.GLB_ID, Reg.GLB_VENDOR, Reg.GLB_SIZES, Reg.GLB_VERSION, Reg.GLB_STATUS, Reg.MGT_STATUS].map (regValue s))
  onPort m (fun s => match m with
    | .station a q => emit (.dmp a q 0x01 reqId 1 0 p (if zero then (deckId s % 256) * 100 else 0)) s
    | .i3c => i3cAnswer 0x01 reqId 0 p s) s

/-- UNIT_QUERY. -/
def dmpQueryEff (m : MsgFrom) (reqId u : Nat) (s : State) : State :=
  onPort m (serveMsg m 0x02 reqId (fun s => if unitListed u then success (unitReport s u) s else invalid s)) s

/-- A unit request of the management path: to the unit sequencer, or from the non-owner to the owner's (R502, R531). -/
def mgmtReq (m : MsgFrom) (typ reqId op u code epoch : Nat) (s : State) : Option (Nat × List Byte) × State :=
  if (unitReqBad s op u code epoch).isSome then invalid s
  else
    let kind : ReqKind := if op = opUnitRequest then .request else if op = opCalibrate then .calibrate else .selfTest
    let (i3c, a, q) := match m with | .station a q => (false, a, q) | .i3c => (true, 0, 0)
    if pairEn s && !isOwner s then
      if (ust s uPartner).serves then
        (none, emit (.jokor 0x23 [if i3c then 1 else 0, a, q, reqId, typ, op, u, code, epoch]) (bump Reg.PRL_CNT 2 s))
      else (some (Status.pairForwardFail.code, []), bump Reg.PRL_CNT 4 s)
    else
      let from_ : Sender := if i3c then .i3c reqId typ else .dmp a q reqId typ
      (none, { s with unt := { s.unt with
        waiting := s.unt.waiting ++ [{ kind := kind, unit := u, code := code, epoch := epoch, sender := from_ }] } })

/-- UNIT_REQUEST, CALIBRATE and SELF_TEST. -/
def dmpUnitEff (m : MsgFrom) (typ op reqId u code epoch : Nat) (s : State) : State :=
  onPort m (serveMsg m typ reqId (mgmtReq m typ reqId op u code epoch)) s

/-- VOLUME_INFO. -/
def dmpVolumeEff (m : MsgFrom) (reqId v : Nat) (s : State) : State :=
  onPort m (serveMsg m 0x06 reqId (fun s => if v < 64 then success (volumeReport s v) s else invalid s)) s

/-- The payload of a policy answer. -/
def policyBytes (s : State) (id : Nat) : List Byte := leBytes 2 id ++ leBytes 2 0 ++ leBytes 4 (unsigned 32 (policyVal s id))

/-- POLICY_GET. -/
def policyGetEff (m : MsgFrom) (reqId id : Nat) (s : State) : State :=
  onPort m (serveMsg m 0x08 reqId (fun s => if 1 ≤ id && id ≤ 11 then success (policyBytes s id) s else invalid s)) s

/-- A run-time policy value within its range as the values stand (Table 02-13, R515). -/
def policyFits (s : State) (id : Nat) (v : Int) : Bool :=
  decide (1 ≤ id) && decide (id ≤ 9) && policyRangeOk id v (policyVal s 1) ((memGiB s * 256 : Nat) : Int) &&
    (id ≠ 1 || decide (v + 1 ≤ policyVal s 2))

/-- POLICY_SET. -/
def policySetEff (m : MsgFrom) (reqId id : Nat) (v : Int) (s : State) : State :=
  onPort m (serveMsg m 0x09 reqId (fun s =>
    if policyFits s id v then
      let s := modMgt (fun g => { g with policy := Tbl.put (policyDefault id) id v g.policy }) s
      success (policyBytes s id) (if mirroring s then mirror (.policy id) s else s)
    else invalid s)) s

/-- The fields of NET_SET are those of the MGMT fixed part (R61). -/
def netFits (b : List Byte) : Bool :=
  b.length == 33 && decide (leAt b 2 1 < 32) && decide (leAt b 3 1 < 128) && decide (leAt b 8 1 ≤ 32) && decide (leAt b 9 1 < 128) &&
    decide (leAt b 10 2 < 4096) && decide (leAt b 32 1 ≤ 128)

/-- NET_SET: the settings wait for their time. -/
def netSetEff (m : MsgFrom) (reqId : Nat) (b : List Byte) (s : State) : State :=
  onPort m (serveMsg m 0x0A reqId (fun s =>
    if netFits b then success [] (modMgt (fun g => { g with netPending := some b }) s) else invalid s)) s

/-- REG_READ. -/
def regReadEff (m : MsgFrom) (reqId off count : Nat) (s : State) : State :=
  onPort m (serveMsg m 0x0B reqId (fun s =>
    if 1 ≤ count && count ≤ 64 then success (wordBytes ((List.range count).map (fun i => sideValue s (off + 4 * i)))) s
    else invalid s)) s

/-- The kept entries from a SEQ on. -/
def keptFrom (s : State) (q : Nat) : List EventEntry := (s.mgt.log ++ s.mgt.early).filter (fun e => decide (q ≤ e.seq))

/-- EVENT_SUBSCRIBE: up to 4 subscribers; a renewal replaces the mask. The kept entries from FROM_SEQ on that the mask passes are
sent. -/
def subscribeEff (m : MsgFrom) (reqId mask fromSeq : Nat) (s : State) : State :=
  onPort m (serveMsg m 0x10 reqId (fun s => match m with
    | .i3c => (some (notAvailable, []), s)
    | .station a q =>
      let others := s.mgt.subs.filter (fun x => !(x.addr == a && x.port == q))
      if 4 ≤ others.length then (some (dmpBusy, []), s)
      else
        let s := modMgt (fun g => { g with subs := others ++ [{ addr := a, port := q, mask := mask }] }) s
        success [] (forEach (fun e s => if bit mask e.block then emit (.subscriber a q e) s else s) (keptFrom s fromSeq) s))) s

/-- SUBSCRIBER_EXPIRY. -/
def subscriberExpiryEff (a q : Nat) (s : State) : State :=
  modMgt (fun g => { g with subs := g.subs.filter (fun x => !(x.addr == a && x.port == q)) }) s

/-- EVENT_READ. -/
def eventReadEff (m : MsgFrom) (reqId fromSeq count : Nat) (s : State) : State :=
  onPort m (serveMsg m 0x12 reqId (fun s =>
    if 1 ≤ count && count ≤ 16 then success (((keptFrom s fromSeq).take count).flatMap EventEntry.bytes) s else invalid s)) s

/-! ### Image transfer (R70, R71, R515) -/

/-- A transfer is open and its validation has not begun. -/
def transferOpen (s : State) : Bool := s.img.op == .transfer false

/-- IMAGE_BEGIN: an open transfer is abandoned; STAGED_VALID clears. -/
def imageBeginEff (m : MsgFrom) (reqId size : Nat) (s : State) : State :=
  onPort m (serveMsg m 0x18 reqId (fun s =>
    if s.img.op ≠ .none && !transferOpen s then (some (dmpBusy, []), imgRefuse 7 0x10 s)
    else if size % 64 ≠ 0 || size < 0x100 || 0x800000 < size then invalid s
    else
      let s := modImg (fun i => { i with staged := List.replicate size 0, transferSize := size, received := [] }) (clearStaged s)
      success [] (setOp (.transfer false) s))) s

/-- IMAGE_DATA: a piece at a multiple of 1,024, whole but for the last. -/
def imageDataEff (m : MsgFrom) (reqId off : Nat) (b : List Byte) (s : State) : State :=
  onPort m (serveMsg m 0x19 reqId (fun s =>
    if s.img.op ≠ .none && !transferOpen s then (some (dmpBusy, []), imgRefuse 7 0x10 s)
    else if !transferOpen s || s.img.transferSize ≤ off then (some (Status.rangeOut.code, []), s)
    else if off % 1024 ≠ 0 || b.length ≠ min 1024 (s.img.transferSize - off) then invalid s
    else success [] (modImg (fun i => { i with staged := patch i.staged off b, received := addNat off i.received }) s))) s

/-- Every byte of the transfer has arrived. -/
def transferWhole (s : State) : Bool :=
  transferOpen s && (List.range ((s.img.transferSize + 1023) / 1024)).all (fun k => s.img.received.contains (1024 * k))

/-- IMG_STATUS and IMG_ERR. -/
def imgWords (s : State) : List Byte := wordBytes [regValue s Reg.IMG_STATUS, regValue s Reg.IMG_ERR]

/-- IMAGE_END: the validation of R70, once every byte has arrived. -/
def imageEndEff (m : MsgFrom) (reqId : Nat) (s : State) : State :=
  onPort m (serveMsg m 0x1A reqId (fun s =>
    if s.img.op ≠ .none && !transferOpen s then (some (dmpBusy, imgWords (imgRefuse 7 0x10 s)), imgRefuse 7 0x10 s)
    else if !transferWhole s then (some (Status.rangeOut.code, imgWords s), s)
    else let s := validateStaged true s.img.staged s; success (imgWords s) s)) s

/-- The IMG_CTRL commands that IMAGE_CMD may name. -/
def imageCommand (cmd : Nat) (s : State) : State :=
  match cmd with
  | 2 => quiesceEff s
  | 3 => resumeEff s
  | 4 => applyEff 0x5A s
  | 5 => progEff false 0x5A s
  | _ => progEff true 0x5A s

/-- IMAGE_CMD: what the command records in IMG_ERR decides the STATUS. -/
def imageCmdEff (m : MsgFrom) (reqId cmd : Nat) (s : State) : State :=
  onPort m (serveMsg m 0x1B reqId (fun s =>
    if cmd < 2 || 6 < cmd then invalid s
    else if halted s then (some (notPermitted, imgWords s), s)
    else
      let was := getReg s Reg.IMG_ERR
      let t := imageCommand cmd (setReg Reg.IMG_ERR 0xFFFFFFFF#32 s)
      if getReg t Reg.IMG_ERR = 0xFFFFFFFF#32 then let t := setReg Reg.IMG_ERR was t; success (imgWords t) t
      else ((some (if getF t Fld.IMG_ERR_CODE = 0x10 then dmpBusy else notPermitted, imgWords t)), t))) s

/-- DMP_DUPLICATE_EXPIRY: a stored response is dropped. -/
def duplicateExpiryEff (a q reqId : Nat) (s : State) : State :=
  modMgt (fun g => { g with stored := g.stored.filter (fun x => !(x.addr == a && x.port == q && x.reqId == reqId && x.answer.isSome)) }) s

/-! ### Messages as bytes (R514, R517) -/

/-- The reasons to drop a message without reply; over I3C its DECK_ID is ignored. -/
def dropped (s : State) (m : MsgFrom) (b : List Byte) : Bool :=
  let len := leAt b 16 2
  let id := leAt b 4 4
  let check := crc32c (b.take 28 ++ leBytes 4 0 ++ b.drop 32)
  decide (b.length < 32) || leAt b 28 4 != check || leAt b 0 2 != 0x4D44 || leAt b 2 1 != 1 || b.length != 32 + len ||
    decide (1028 < len) || (decide (m ≠ .i3c) && id != deckId s && !(leAt b 3 1 == 0x01 && id == 0)) ||
    bit (leAt b 12 2) 0 || leAt b 3 1 == 0x11

/-- The payload length of a type (Table 17-12); none where it may vary. -/
def payloadLen (typ : Nat) : Option Nat :=
  if typ = 0x01 || typ = 0x1A then some 0
  else if typ = 0x02 || typ = 0x06 || typ = 0x08 || typ = 0x18 || typ = 0x1B then some 4
  else if typ = 0x03 || typ = 0x04 || typ = 0x05 || typ = 0x09 || typ = 0x0B then some 8
  else if typ = 0x0A then some 33
  else if typ = 0x10 || typ = 0x12 then some 12
  else none

/-- A message that is not dropped, of a listed type and with a payload of its type's length, goes to its type. -/
def dispatchMsg (m : MsgFrom) (typ reqId : Nat) (zero : Bool) (p : List Byte) (s : State) : State :=
  if typ = 0x01 then discoverEff m reqId zero s
  else if typ = 0x02 then dmpQueryEff m reqId (leAt p 0 1) s
  else if typ = 0x03 then dmpUnitEff m 0x03 opUnitRequest reqId (leAt p 0 1) (leAt p 1 1) (leAt p 4 4) s
  else if typ = 0x04 then dmpUnitEff m 0x04 opCalibrate reqId (leAt p 0 1) (leAt p 1 1) (leAt p 4 4) s
  else if typ = 0x05 then dmpUnitEff m 0x05 opSelfTest reqId (leAt p 0 1) (leAt p 1 1) (leAt p 4 4) s
  else if typ = 0x06 then dmpVolumeEff m reqId (leAt p 0 1) s
  else if typ = 0x08 then policyGetEff m reqId (leAt p 0 2) s
  else if typ = 0x09 then policySetEff m reqId (leAt p 0 2) (signed 32 (leAt p 4 4)) s
  else if typ = 0x0A then netSetEff m reqId p s
  else if typ = 0x0B then regReadEff m reqId (leAt p 0 4) (leAt p 4 4) s
  else if typ = 0x10 then subscribeEff m reqId (leAt p 0 4) (leAt p 4 8) s
  else if typ = 0x12 then eventReadEff m reqId (leAt p 0 8) (leAt p 8 4) s
  else if typ = 0x18 then imageBeginEff m reqId (leAt p 0 4) s
  else if typ = 0x19 then imageDataEff m reqId (leAt p 0 4) (p.drop 4) s
  else if typ = 0x1A then imageEndEff m reqId s
  else imageCmdEff m reqId (leAt p 0 4) s

/-- A whole message as it arrives. -/
def messageEff (m : MsgFrom) (b : List Byte) (s : State) : State :=
  let typ := leAt b 3 1
  let reqId := leAt b 8 4
  let p := b.drop 32
  let fits : Bool := match payloadLen typ with
    | some n => p.length == n
    | none => decide (5 ≤ p.length)
  if dropped s m b then onPort m (bump Reg.MGT_CNT 1) s
  else if !typListed typ || !fits then onPort m (reply m typ reqId 0 dmpInvalid []) s
  else dispatchMsg m typ reqId (leAt b 4 4 == 0) p s

/-! ### The I3C target (R517) -/

/-- Changes the I3C target, which is available from S2 on. -/
def modI3c (f : I3cState → I3cState) (s : State) : State :=
  if 2 ≤ stage s then { s with mgt := { s.mgt with i3c := f s.mgt.i3c } } else s

/-- I3C_PRIVATE_WRITE: one message; one longer than the maximum write length is not taken. -/
def i3cWriteEff (b : List Byte) (s : State) : State :=
  if s.mgt.i3c.mwl < b.length then s
  else messageEff .i3c b (modI3c (fun x => { x with response := none }) s)

/-- I3C_PRIVATE_READ: the response, or a NACK before it is ready. -/
def i3cReadEff (s : State) : State :=
  if stage s < 2 then s
  else emit (.i3cRead (s.mgt.i3c.response.map (fun r => r.take s.mgt.i3c.mrl))) (modI3c (fun x => { x with response := none }) s)

/-- ENEC and DISEC with their event byte: bit 0 is ENINT. -/
def eventsCccEff (on : Bool) (events : Nat) (s : State) : State :=
  if bit events 0 then modI3c (fun x => { x with eventsOn := on }) s else s

/-- RSTDAA. -/
def rstdaaEff (s : State) : State := modI3c (fun x => { x with da := none }) s

/-- ENTDAA: the target without a dynamic address takes the one that arbitration gives it. -/
def entdaaEff (a : Nat) (s : State) : State := modI3c (fun x => if x.da.isNone then { x with da := some (a % 128) } else x) s

/-- The static address in use. -/
def staticAddr (s : State) : Nat := match s.img.running with | some i => i.mgmt.i3cStatic | none => romImage.mgmt.i3cStatic

/-- SETDASA to a static address. -/
def setdasaEff (static a : Nat) (s : State) : State :=
  if static = staticAddr s then modI3c (fun x => if x.da.isNone then { x with da := some (a % 128) } else x) s else s

/-- A CCC that reads n bytes that the spec does not state. -/
def getFreeEff (n : Nat) (s : State) : State :=
  if stage s < 2 then s else useFree (emit (.i3cCcc ((List.range n).map (Config.freeByte s.free))) s)

/-- GETMWL and GETMRL: two bytes, the higher first. -/
def getLenEff (read : Bool) (s : State) : State :=
  if stage s < 2 then s
  else
    let n := if read then s.mgt.i3c.mrl else s.mgt.i3c.mwl
    emit (.i3cCcc [BitVec.ofNat 8 (n / 256), BitVec.ofNat 8 n]) s

/-- SETMWL and SETMRL: never above 1,060 B. -/
def setLenEff (read : Bool) (n : Nat) (s : State) : State :=
  modI3c (fun x => if read then { x with mrl := min 1060 n } else { x with mwl := min 1060 n }) s

/-! ### PTP (R518) -/

/-- PTP_SYNC: the offset from the master in ns. Above 1 ms it is stepped; below, deck time is slewed by at most 500 ppm, at a
rate that the spec leaves to the servo. -/
def ptpSyncEff (ofs : Int) (s : State) : State :=
  if !portOn s || !flag s Fld.MGT_STATUS_LINK then s
  else
    let s := bump Reg.MGT_CNT 7 (setReg Reg.MGT_PTP_OFS (wordI (clampI (-0x80000000) 0x7FFFFFFF ofs)) s)
    if ofs < -1000000 || 1000000 < ofs then
      let t := (max 0 ((s.pwr.time : Int) - ofs)).toNat
      let s := modMgt (fun g => { g with ptpSynced := true, ptpGood := 0, ptpRate := 0, ptpFrac := 0 }) s
      let items : List Item := [⟨4, (getReg s Reg.MGT_PTP_OFS).toNat⟩]
      evt Fld.MGT_EVT_TIME_STEP noUnit items (setF Fld.MGT_STATUS_PTP 1 { s with pwr := { s.pwr with time := t } })
    else
      let near := decide (-1000 ≤ ofs) && decide (ofs ≤ 1000)
      let n := if near then min 16 (s.mgt.ptpGood + 1) else 0
      let rate : Int := (((Config.freeWord s.free).toNat % 1001 : Nat) : Int) - 500
      let s := useFree (modMgt (fun g => { g with ptpSynced := true, ptpGood := n, ptpRate := rate }) s)
      let was := getF s Fld.MGT_STATUS_PTP
      if n = 16 then
        let s := setF Fld.MGT_STATUS_PTP 2 s
        if was = 2 then s else evt Fld.MGT_EVT_PTP_LOCKED noUnit [] s
      else setF Fld.MGT_STATUS_PTP 1 s

/-- PTP_LOST: the clock has no master; deck time runs on unslewed. -/
def ptpLostEff (s : State) : State :=
  if getF s Fld.MGT_STATUS_PTP = 0 then s
  else
    let s := modMgt (fun g => { g with ptpGood := 0, ptpRate := 0 }) (setF Fld.MGT_STATUS_PTP 0 s)
    evt Fld.MGT_EVT_PTP_LOST noUnit [⟨4, (getReg s Reg.MGT_PTP_OFS).toNat⟩] s

/-! ### The port's link, and the log window -/

/-- SGMII_LINK_CHANGE (R62). -/
def sgmiiEff (up : Bool) (s : State) : State :=
  if flag s Fld.MGT_STATUS_LINK = up || stage s < 2 then s
  else evt Fld.MGT_EVT_LINK_CHANGE noUnit [] (setFlag Fld.MGT_STATUS_LINK up s)

/-- MGT_LOG_RD_WRITE: both halves of MGT_LOG_RD through BAR0 (R520). -/
def logRdEff (v : Nat) (s : State) : State :=
  if bar0Served s = 2 then logRdWritten (set64 Reg.MGT_LOG_RD_LO v s) else s

end Sys2Proof.Machine
end

