-- ==== Sys2Proof/Machine/Tap.lean ====
section
/-! DEFINITION. The test access port (R571, R572), and the conversion and update slots of the analogue channels. -/

namespace Sys2Proof.Machine

/-- The instruction register takes a code (Table 20-11). EXTEST, its two pulse forms and CLAMP drive the pins from the
boundary cells, and HIGHZ takes every output to high impedance. -/
def tapLoad (ir : Nat) (s : State) : State :=
  { s with tap := { s.tap with ir := ir, drives := [0x00, 0x04, 0x05, 0x06].contains ir, highz := decide (ir = 0x03) } }

def extestEff (s : State) : State := tapLoad 0x00 s

/-- IDCODE shifts out version 1, part 0x9160, manufacturer 0x1F5 (R571). -/
def idcodeEff (s : State) : State := emit (.tap 0x191603EB) (tapLoad 0x01 s)

/-- SAMPLE/PRELOAD: the pins' levels are captured and shifted out, and the cells take the preloaded values. -/
def samplePreloadEff (sampled : Nat) (cells : List Bool) (s : State) : State :=
  let s := emit (.tap sampled) (tapLoad 0x02 s)
  { s with tap := { s.tap with cells := cells } }

def highzEff (s : State) : State := tapLoad 0x03 s
def clampEff (s : State) : State := tapLoad 0x04 s
def extestPulseEff (s : State) : State := tapLoad 0x05 s
def extestTrainEff (s : State) : State := tapLoad 0x06 s

/-- BYPASS, or any code that Table 20-11 does not list, which acts as it (R571). -/
def bypassEff (code : Nat) (s : State) : State :=
  if [0x00, 0x01, 0x02, 0x03, 0x04, 0x05, 0x06, 0x20].contains code then tapLoad 0xFF s else tapLoad code s

/-- The value that a REGACC read takes. A HI half reads as the last read of its LO half left it (R14). -/
def regAccValue (s : State) (off : Nat) : Word :=
  if isHigh off then (match Tbl.get none (off - 4) s.host.hiHold with | some w => w | none => sideValue s off)
  else sideValue s off

/-- Whether a REGACC access reaches its offset: the MSI-X structures with the rest of BAR0, and what sideServed serves. -/
def regAccReached (s : State) (off : Nat) : Bool :=
  if 0x30000 ≤ off && off < 0x38100 then decide (6 ≤ stage s) && !halted s && !holding s else sideServed s off

/-- The word that Capture-DR loads (R572): bit 56 whether the last access was performed, and the address and data of the
last read. Bit 57 is not stated there, and is free. -/
def regAccCapture (s : State) : Nat :=
  (if s.tap.performed then 0x100000000000000 else 0) + (s.tap.lastAddr / 4) * 0x100000000 + s.tap.lastData.toNat

/-- A scan of the REGACC register (R572): Capture-DR shifts out the last access, and Update-DR starts the one shifted in,
bit 57 WRITE, bits 55:32 the word address, bits 31:0 the data. An access that reaches nothing is discarded, as is a write of the IMG registers during a halt (R469). -/
def regAccEff (w : BitVec 58) (s : State) : State :=
  let (b57, s) := (Config.freeBool s.free, { s with free := s.free + 1 })
  let s := emit (.tap ((if b57 then 0x200000000000000 else 0) + regAccCapture s)) (tapLoad 0x20 s)
  let off := (w.extractLsb' 32 24).toNat * 4
  let d := w.extractLsb' 0 32
  let msix := decide (0x30000 ≤ off) && decide (off < 0x38100)
  let imgHeld := halted s && w.getLsbD 57 && decide (0x3000 ≤ off)
  if !regAccReached s off || imgHeld then { s with tap := { s.tap with performed := false } }
  else if w.getLsbD 57 then
    let s := { s with tap := { s.tap with performed := true } }
    if msix then msixWrite 0 (off - 0x30000) d s else writeReg off d s
  else
    let v := regAccValue s off
    let s := { s with tap := { s.tap with performed := true, lastAddr := off, lastData := v } }
    if msix then s else readEffect off s

/-- A DAC update slot (R254). -/
def dacUpdateEff (s : State) : State :=
  { s with mot := { s.mot with dacs := s.mot.dacs.map dacStep } }

end Sys2Proof.Machine
end

