-- ==== Sys2Proof/Machine/Access.lean ====
section
/-! DEFINITION. How a command reaches the block and how it ends: the guards of the commands that are writes of one
register, and the levels that hold at the end of every command. -/

namespace Sys2Proof.Machine

/-- A command that is an access of the register at off: nothing happens where the map does not serve it now (R543, R544,
R548, R549, R572). -/
def served (off : Nat) (f : State → State) (s : State) : State := if sideServed s off then f s else s

/-- The same, of a register whose commands act at the owner alone (R553). -/
def servedOwner (off : Nat) (f : State → State) (s : State) : State := served off (atOwner f) s

/-- The same, of IMG_CTRL, whose block is read-only during a halt (R68, R469). -/
def imgServed (f : State → State) (s : State) : State := if halted s then s else served Reg.IMG_CTRL f s

/-- A command that names instance i of n; one that names no instance changes nothing. -/
def instOf (n i : Nat) (f : State → State) (s : State) : State := if i < n then f s else s

/-- An unmask of a vector that the function has, or of the whole function. -/
def msixWithin (f : Nat) (v : Option Nat) (g : State → State) (s : State) : State :=
  match v with
  | some n => if n < msixCount s f then g s else s
  | none => g s

/-- An access of a data port: a write of a word, or a read, which answers and steps the index. -/
def dataPort (off : Nat) (write : Option Word) (s : State) : State :=
  served off (fun s => match write with
    | some v => writeReg off v s
    | none => emit (.regData off (regValue s off).toNat) (readEffect off s)) s

/-- LPE_CTRL of slot k, the CRG register of carriage c, HQ_FN_RING_CMD of function f. -/
def loopCtrl (k : Nat) : Nat := Reg.LPE_CTRL + 0x80 * k
def crgR (off c : Nat) : Nat := off + 0x200 * c
def ringCmdReg (f : Nat) : Nat := Reg.HQ_FN_RING_CMD + 0x40 * f

/-- LPE_TEST.FORCE_OVR for a slot (Table 08-8). -/
def forceOvrEff (k : Nat) (on : Bool) (s : State) : State := setFlag Fld.LPE_TEST_FORCE_OVR on (setF Fld.LPE_TEST_SLOT (k % 32) s)

/-- CRG_CMD SEEK (Table 10-6). -/
def crgSeekEff (c lf turn : Nat) (s : State) : State :=
  crgCommand c (BitVec.ofNat 32 (0x10000000 + (lf % 32) * 0x10000 + turn % 0x4000)) s

/-- What R462 holds in high impedance: no power, a reset, S0 to S5, a halt, or a non-owner. -/
def outputsOff (s : State) : Bool :=
  !s.pwr.railsGood || s.pwr.rstLow || decide (stage s < 6) || halted s || !isOwner s

/-- The levels of the safe outputs: high impedance under R462, and every WGATE and LEN off while the laser interlock is
asserted (R218). -/
def outputStage (s : State) : State :=
  if outputsOff s then releaseOutputs s
  else if s.pwr.ilk then { s with pins := { s.pins with len := List.replicate 4 false, wgate := List.replicate 4 false } }
  else s

/-- A fuse that is blown stays blown, and the key digest is fixed once KEY_BURNT is blown (R63, R75). -/
def holdFuses (old new : Fuses) : Fuses :=
  { old with
    enforce := old.enforce || new.enforce
    noRom := old.noRom || new.noRom
    keyBurnt := old.keyBurnt || new.keyBurnt
    keyDigest := if old.keyBurnt then old.keyDigest else new.keyDigest
    revoke := old.revoke ||| new.revoke }

/-- The end of every command: its effect t, the queue as it was, the fuses and the output levels. -/
def finish (s t : State) : State :=
  outputStage { t with pending := s.pending, img := { t.img with fuses := holdFuses s.img.fuses t.img.fuses } }

/-- The outcome of a command with the effect t. -/
def done (s t : State) : Host.Outcome State Fault Refusal := .next (finish s t)

end Sys2Proof.Machine
end

