-- ==== Sys2Proof/Machine/CmdPower.lean ====
section
/-! DEFINITION. Meanings of the commands: power, clocks, resets and boot (chapters 15, 01, 20). -/

namespace Sys2Proof.Machine

/-- Power-up, or a rail falling below its threshold, restarts the controller at S0 and keeps only fuses and MRAM
content. (R457.) -/
def execColdReset (s : State) : Host.Outcome State Fault Refusal := done s (coldResetEff s)

/-- A rail below its threshold for more than 2 µs makes a cold reset, and the safe outputs go to high impedance within 1
µs. (R456.) -/
def execRailFail (s : State) : Host.Outcome State Fault Refusal := done s (railFailEff s)

/-- Every rail becomes good and the controller leaves S0 for S1. (R465.) -/
def execRailsGood (s : State) : Host.Outcome State Fault Refusal := done s (railsGoodEff s)

/-- The 2 ms internal reset hold after a cold reset ends, and a RESET_N rise that came earlier is acted on. (R458.) -/
def execInternalHoldEnd (s : State) : Host.Outcome State Fault Refusal := done s (holdEndEff s)

/-- The root PLL locks in S1. (R465.) -/
def execPllLock (s : State) : Host.Outcome State Fault Refusal := done s (pllLockEff s)

/-- RESET_N held low for at least 10 µs with every rail good causes a warm reset that restarts at S1. (R457.) -/
def execResetNAssert (s : State) : Host.Outcome State Fault Refusal := done s (resetAssertEff s)

/-- The rising edge of RESET_N latches the straps and, once the hold has ended and the PLL is locked, enters S2, which
starts deck time. (R458.) -/
def execResetNRise (straps : Nat) (s : State) : Host.Outcome State Fault Refusal := done s (resetRiseEff straps s)

/-- A write to RST_CTRL with KEY 0xA5 and WARM set saves the counters record to MRAM and then makes a warm reset.
(R459.) -/
def execSoftWarmReset (v : Word) (same : Bool) (s : State) : Host.Outcome State Fault Refusal :=
  done s (served Reg.RST_CTRL (softResetEff v same) s)

/-- The missing-clock detector finds the crystal stopped or the PLL unlocked and puts the safe outputs in high impedance
within 2 µs. (R460.) -/
def execClockLoss (s : State) : Host.Outcome State Fault Refusal := done s (clockLossEff s)

/-- The PLL locks again after a clock loss and the controller makes a warm reset with the cause CLOCK. (R460.) -/
def execClockRelock (s : State) : Host.Outcome State Fault Refusal := done s (clockRelockEff s)

/-- S2 ends its check of the boot ROM against the ROM's own digest, and either enters S3 or halts with ROM_CHECK.
(R465.) -/
def execRomCheckDone (ok : Bool) (s : State) : Host.Outcome State Fault Refusal := done s (romCheckEff ok s)

/-- The read of a flash slot candidate ends, through SFDP discovery and the header reads, or fails with FLASH_READ.
(R69.) -/
def execFlashReadComplete (fast : Bool) (hdrA hdrB : List Byte) (bytes : Option (List Byte)) (s : State) : Host.Outcome State Fault Refusal :=
  done s (flashReadRow fast hdrA hdrB bytes s)

/-- The image sent by the partner over the Jokor link for a pair-follow boot has been received whole. (R66.) -/
def execPairImageReceived (bytes : List Byte) (s : State) : Host.Outcome State Fault Refusal :=
  done s (afterChain (pairImageEff bytes s))

/-- No partner image arrives within 5 s of RESET_N rising, and the pair-follow chain falls back to the 0b00 chain.
(R66.) -/
def execPairFollowTimeout (s : State) : Host.Outcome State Fault Refusal := done s (afterChain (pairTimeoutEff s))

/-- S4 finishes its march BIST and parity-checker known-pattern tests, and each failure is handled by its memory group.
(R466.) -/
def execBistDone (fails : List (Nat × Nat)) (s : State) : Host.Outcome State Fault Refusal := done s (bistDoneRow fails s)

/-- DDR5 training of both channels at both operating points ends in S5, with a FAULTED channel, or a halt if both
channels fail. (R433.) -/
def execDdrTrainingDone (ok0 ok1 : Bool) (org0 org1 : Nat) (s : State) : Host.Outcome State Fault Refusal :=
  done s (trainingRow ok0 ok1 org0 org1 s)

/-- S5 ends once training, the zero fill, cache initialisation and the PCIe link are done, and the controller enters S6.
(R468.) -/
def execBringupDone (ownHigh : Bool) (s : State) : Host.Outcome State Fault Refusal := done s (bringupEff ownHigh s)

/-- S6 locks the RWL fields, loads the image's Initial items and the MRAM records, builds the zone table, drives the
outputs, probes the carriages and starts the firmware. (R471.) -/
def execArm (answers : List Bool) (s : State) : Host.Outcome State Fault Refusal := done s (armEff answers s)

/-- On entry to S7 ring fetching begins, and the firmware requests READY for the spindle and the carriages and mounts
the disc. (R471.) -/
def execRunEntry (s : State) : Host.Outcome State Fault Refusal := done s (runEntryEff s)

/-- PERST_N asserted in S6 or S7 takes the link down and resets every function as an FLR would, writing no completion.
(R470.) -/
def execPerstNAssert (s : State) : Host.Outcome State Fault Refusal := done s (perstEff s)

/-- PERST_N released starts PCIe link training, with CRS answered until the function resets have ended. (R470.) -/
def execPerstNRelease (s : State) : Host.Outcome State Fault Refusal := done s (perstReleaseEff s)

/-- The 100 MHz PCIe reference stops and CLK_EVT.PCIE_REF_LOST is set. (R475.) -/
def execPcieRefLost (s : State) : Host.Outcome State Fault Refusal := done s (refLostEff s)

/-- Each second while the PCIe reference is present, the crystal deviation is measured into CLK_XTAL_PPM. (R475.) -/
def execXtalPpmMeasure (v : Int) (s : State) : Host.Outcome State Fault Refusal := done s (xtalEff v s)

/-- PWRFAIL_N asserted starts the power-failure sequence: fetching stops, open skeins are discarded, gates and lasers go
off and the counters are saved. (R472.) -/
def execPwrfailAssert (t5 t6 : Nat) (same : Bool) (s : State) : Host.Outcome State Fault Refusal :=
  done s (pwrfailEff t5 t6 same s)

/-- PWRFAIL_N stays deasserted for 100 ms with every rail good after the sequence, and the controller makes a warm
reset. (R473.) -/
def execPwrfailRecover (s : State) : Host.Outcome State Fault Refusal := done s (pwrRecoverEff s)

/-- A stopped policy core lets the 10 ms watchdog expire; carriages and strands go SUSPECT, the write gates stop, the
spindle holds and the complex restarts. (R34.) -/
def execPolicyWatchdogExpiry (s : State) : Host.Outcome State Fault Refusal := done s (watchdogEff s)

/-- The restarted firmware submits, with reason 0x08, a request for each unit that the watchdog set SUSPECT. (R35.) -/
def execWatchdogRestartRequest (s : State) : Host.Outcome State Fault Refusal := done s (watchdogRestartEff s)

/-- Every 1 ms the eight on-die sensors are read and the thermal responses of Table 01-9 begin or end. (R37.) -/
def execThermalSensorRead (temps : List Int) (s : State) : Host.Outcome State Fault Refusal := done s (thermalReadEff temps s)

/-- Each second of a thermal condition lowers the spindle ceiling by 100 rpm, or raises it after the condition ends.
(R37.) -/
def execThermalCeilingStep (s : State) : Host.Outcome State Fault Refusal := done s (ceilingStepEff s)

end Sys2Proof.Machine
end

