-- ==== Sys2Proof/Machine/CmdImage.lean ====
section
/-! DEFINITION. Meanings of the commands: the configuration image and the mount (chapters 02 and 03). -/

namespace Sys2Proof.Machine

/-- IMG_CTRL FETCH reads IMG_PUSH_LEN bytes from host memory into the staging area, or is refused with PUSH_ADDR. (R70.)
-/
def execFetch (s : State) : Host.Outcome State Fault Refusal := done s (imgServed fetchImageEff s)

/-- The host read of a FETCH ends, with PUSH_READ on failure, and the staged image is validated through step 11. (R70.)
-/
def execFetchReadComplete (bytes : Option (List Byte)) (s : State) : Host.Outcome State Fault Refusal :=
  done s (fetchDoneEff bytes s)

/-- IMG_CTRL QUIESCE stops fetching from every ring and lets the commands in flight run to completion. (R76.) -/
def execQuiesce (s : State) : Host.Outcome State Fault Refusal := done s (imgServed quiesceEff s)

/-- The last command completes; held writes are committed, the carriages go OFFLINE and IMG_EVT.QUIESCED is set. (R76.)
-/
def execQuiesceComplete (s : State) : Host.Outcome State Fault Refusal := done s (quiesceDoneEff s)

/-- IMG_CTRL RESUME resumes fetching, and the firmware requests READY for the carriages that the quiesce took OFFLINE.
(R76.) -/
def execResume (s : State) : Host.Outcome State Fault Refusal := done s (imgServed resumeEff s)

/-- IMG_CTRL APPLY with a staged image re-enters S3 with it, or is refused with NOT_QUIESCED, NOT_STAGED or NOT_OWNER.
(R77.) -/
def execApply (key : Nat) (s : State) : Host.Outcome State Fault Refusal := done s (imgServed (applyEff key) s)

/-- IMG_CTRL PROG_A erases slot A and writes the staged image to it, the header last, then reads it back. (R72.) -/
def execProgA (key : Nat) (s : State) : Host.Outcome State Fault Refusal := done s (imgServed (progEff false key) s)

/-- IMG_CTRL PROG_B erases slot B and writes the staged image to it, the header last, then reads it back. (R72.) -/
def execProgB (key : Nat) (s : State) : Host.Outcome State Fault Refusal := done s (imgServed (progEff true key) s)

/-- The read-back compare of a programmed slot ends, and PROG_DONE or PROG_FAIL is set. (R72.) -/
def execProgComplete (same : Bool) (s : State) : Host.Outcome State Fault Refusal := done s (progDoneEff same s)

/-- IMG_CTRL BURN_KEY writes IMG_KEYDIG to OWNER_KEY_DIGEST and blows KEY_BURNT, if quiesced in S7 and not yet burnt.
(R75.) -/
def execBurnKey (key : Nat) (s : State) : Host.Outcome State Fault Refusal := done s (imgServed (burnKeyEff key) s)

/-- IMG_CTRL BURN_ENFORCE blows IMG_ENFORCE, if quiesced in S7 and KEY_BURNT is blown. (R75.) -/
def execBurnEnforce (key : Nat) (s : State) : Host.Outcome State Fault Refusal := done s (imgServed (burnEnforceEff key) s)

/-- IMG_CTRL BURN_NOROM blows IMG_NO_ROM, if quiesced in S7 and IMG_ENFORCE is blown. (R75.) -/
def execBurnNorom (key : Nat) (s : State) : Host.Outcome State Fault Refusal := done s (imgServed (burnNoRomEff key) s)

/-- IMG_CTRL BURN_REVOKE blows VENDOR_KEY_REVOKE[n], unless the running firmware was signed under key n. (R75.) -/
def execBurnRevoke (key n : Nat) (s : State) : Host.Outcome State Fault Refusal :=
  done s (imgServed (burnRevokeEff key (n % 4)) s)

/-- With the disc present and the spindle READY, the controller starts the mount procedure by finding chevron fields on
LF 0 and LF 16. (R114.) -/
def execMountStart (s : State) : Host.Outcome State Fault Refusal := done s (mountStartEff s)

/-- One mount step (DIZ check, anchor search, checkpoint load, frontier scan or chain validation) completes its reads
and the next step begins. (R114.) -/
def execMountStepDone (d : MountData) (s : State) : Host.Outcome State Fault Refusal := done s (mountDoneEff d s)

/-- Mount step 7 sets the frontiers and NEXT_SKEIN, and the volumes become READY or DEGRADED. (R114.) -/
def execMountComplete (s : State) : Host.Outcome State Fault Refusal := done s (mountCompleteEff s)

/-- With no chevron field found, strand A0 reads the wobble information on each layer and identifies a Blu-ray Disc or
sets the disc OFFLINE. (R192.) -/
def execImportIdentify (found : Option (Nat × List Nat)) (s : State) : Host.Outcome State Fault Refusal :=
  done s (importIdentifyEff found s)

end Sys2Proof.Machine
end

