-- ==== Sys2Proof/Machine/CmdRead.lean ====
section
/-! DEFINITION. Meanings of the commands: the read channel, the decoder pool and recovery (chapters 04 and 05). -/

namespace Sys2Proof.Machine

/-- At preamble bit 0 of a slot the strand loads its seeds and timing seed and samples its CHN registers. (R120.) -/
def execSlotStart (g lf zone slot pre : Nat) (prev : SlotPass) (s : State) : Host.Outcome State Fault Refusal :=
  done s (instOf 32 g (slotStartEff g lf zone slot pre prev) s)

/-- The ply fetches the next zone's seed block near the end of its zone, or after a seek or jump. (R137.) -/
def execZoneSeedFetch (c lf zone : Nat) (s : State) : Host.Outcome State Fault Refusal :=
  done s (instOf 4 c (seedFetchEff c lf zone) s)

/-- A fetched seed block arrives, and a strand whose block was late skips the slot with ZONE_LATE. (R137.) -/
def execZoneSeedReady (c : Nat) (s : State) : Host.Outcome State Fault Refusal := done s (instOf 4 c (seedReadyEff c) s)

/-- The frequency integrator has stayed at its limit for 256 channel bits and the strand declares TIMING_LOST for the
slot. (R128.) -/
def execTimingLost (g pos : Nat) (s : State) : Host.Outcome State Fault Refusal := done s (instOf 32 g (timingLostEff g pos) s)

/-- The stream reaches the end of a segment, and the strand holds its loops across the wedge and measures the chevron
field. (R129.) -/
def execSegmentEnd (g : Nat) (s : State) : Host.Outcome State Fault Refusal := done s (instOf 32 g (segmentEndEff g) s)

/-- A strand crosses a chevron wedge, searches for the wedge sync, measures both legs and the address, and reports its
position. (R143.) -/
def execWedgeCrossing (g w ivl : Nat) (m : Option WedgeMeas) (s : State) : Host.Outcome State Fault Refusal :=
  done s (instOf 32 g (wedgeEff g w ivl m) s)

/-- A strand misses every wedge of one revolution while its ply finds them; after 3 such revolutions it is set FAULTED.
(R146.) -/
def execWedgeMissRev (g : Nat) (s : State) : Host.Outcome State Fault Refusal := done s (instOf 32 g (wedgeMissRevEff g) s)

/-- A dropout or bright-defect condition holds for DEF_MIN consecutive bits and a defect flag starts its erasure span.
(R139.) -/
def execDefectFlagStart (g pos : Nat) (s : State) : Host.Outcome State Fault Refusal :=
  done s (instOf 32 g (defectStartEff g pos) s)

/-- The defect condition is absent for DEF_MIN bits, and after DEF_POST the erasure span and defect signal end. (R140.)
-/
def execDefectFlagEnd (g pos : Nat) (s : State) : Host.Outcome State Fault Refusal := done s (instOf 32 g (defectEndEff g pos) s)

/-- A strand reaches the end of a requested sector and delivers its body LLRs, candidates and flags to the decoder pool.
(R149.) -/
def execSectorDelivery (g addr : Nat) (pass : SlotPass) (s : State) : Host.Outcome State Fault Refusal :=
  done s (instOf 32 g (sectorDeliveryEff g addr pass) s)

/-- A write of CHN_TEST.FORCE_SYNC_MISS makes the next slot's live search return nothing. (R156.) -/
def execChnForceSyncMiss (g : Nat) (s : State) : Host.Outcome State Fault Refusal :=
  done s (instOf 32 g (served (chR Reg.CHN_TEST g) (forceMissEff g)) s)

/-- A write of CHN_TEST.FORCE_DEFECT flags the next slot as defective throughout. (R156.) -/
def execChnForceDefect (g : Nat) (s : State) : Host.Outcome State Fault Refusal :=
  done s (instOf 32 g (served (chR Reg.CHN_TEST g) (forceDefectEff g)) s)

/-- A free LDPC engine or re-detect unit takes the next First or Recovery job by class, deadline and tie-breaks. (R167.)
-/
def execPoolJobDispatch (redet : Bool) (idx : Nat) (s : State) : Host.Outcome State Fault Refusal :=
  done s (poolDispatchEff redet idx s)

/-- A pool job ends after its global iteration or trial prefix with success, early failure or failure. (R166.) -/
def execPoolJobComplete (redet : Bool) (idx : Nat) (s : State) : Host.Outcome State Fault Refusal :=
  done s (poolCompleteEff redet idx s)

/-- The measured spindle speed comes within 1% of the L4 target, and the L4 re-reads begin. (R176.) -/
def execL4SpeedReached (s : State) : Host.Outcome State Fault Refusal := done s (l4ReachedEff s)

/-- A skein engine finishes a parity generation or an erasure reconstruction of one skein. (R180.) -/
def execSkeinEngineComplete (n : Nat) (s : State) : Host.Outcome State Fault Refusal := done s (skeinEngineEff n s)

/-- The import decoder reads an ECC cluster, decodes it with LDC and BIS, and retries or fails it. (R191.) -/
def execImportClusterDecode (layer cluster : Nat) (res : ClusterResult) (s : State) : Host.Outcome State Fault Refusal :=
  done s (importClusterEff layer cluster res s)

/-- A write of DEC_CTRL.PAUSE_RECOVERY stops or releases the start of Recovery jobs. (R179.) -/
def execDecPauseRecovery (on : Bool) (s : State) : Host.Outcome State Fault Refusal :=
  done s (served Reg.DEC_CTRL (pauseRecoveryEff on) s)

/-- A write of DEC_CTRL.FORCE_EF makes the next member first pass end as an early failure. (R193.) -/
def execDecForceEf (on : Bool) (s : State) : Host.Outcome State Fault Refusal := done s (served Reg.DEC_CTRL (forceEfEff on) s)

/-- A write of SKN_CTRL.RELOC_PAUSE pauses or releases the writing of relocation skeins. (R186.) -/
def execRelocPause (on : Bool) (s : State) : Host.Outcome State Fault Refusal := done s (served Reg.SKN_CTRL (relocPauseEff on) s)

end Sys2Proof.Machine
end

