-- ==== Sys2Proof/Machine/CmdWrite.lean ====
section
/-! DEFINITION. Meanings of the commands: the write path and the hank coder (chapters 06 and 07). -/

namespace Sys2Proof.Machine

/-- KNOT_INTERVAL elapses since the oldest member of an open skein or packing buffer, and it is sealed. (R197.) -/
def execKnotIntervalExpiry (buf : Option Nat) (s : State) : Host.Outcome State Fault Refusal := done s (knotIntervalEff buf s)

/-- A carriage begins a pass at its frontier, sending driver powers and asserting WGATE over its blocks. (R200.) -/
def execPassStart (c : Nat) (s : State) : Host.Outcome State Fault Refusal := done s (instOf 4 c (passStartEff c) s)

/-- A pre-read revolution reads the slots of the coming pass, and a written slot moves the frontier and replans the
pass. (R202.) -/
def execPreRead (c : Nat) (written : Option (Nat × Nat)) (s : State) : Host.Outcome State Fault Refusal :=
  done s (instOf 4 c (preReadEff c written) s)

/-- The last slot of a pass ends, WGATE is deasserted and the ply jumps back one turn for the verify revolution. (R201.)
-/
def execPassWriteEnd (c : Nat) (s : State) : Host.Outcome State Fault Refusal := done s (instOf 4 c (passWriteEndEff c) s)

/-- The verify revolution of a pass ends, and the next pass, or the waiting member reads, follows. (R201.) -/
def execVerifyRevolutionEnd (c : Nat) (s : State) : Host.Outcome State Fault Refusal := done s (instOf 4 c (verifyRevEndEff c) s)

/-- A Pickup Driver Link frame is exchanged, the driver's response is checked, and it is resent or flags PDL_ERROR.
(R206.) -/
def execPdlFrame (c resp : Nat) (s : State) : Host.Outcome State Fault Refusal := done s (instOf 4 c (pdlFrameEff c resp) s)

/-- After each pass the controller reads DRV_STATUS and handles channel faults and over-temperature. (R208.) -/
def execDrvStatusPoll (c st : Nat) (s : State) : Host.Outcome State Fault Refusal := done s (instOf 4 c (drvPollEff c st) s)

/-- A write of WRP_PDL_CMD sends its frame while the carriage is in SERVICE, and is ignored otherwise. (R222.) -/
def execWrpPdlCmd (c : Nat) (frame : Word) (s : State) : Host.Outcome State Fault Refusal :=
  done s (instOf 4 c (served (Reg.WRP_PDL_CMD + 4 * c) (pdlCmdEff c frame.toNat)) s)

/-- A write of WRP_CTRL.RETRY_HELD grants exhausted data a fresh count of rewrites. (R213.) -/
def execRetryHeld (s : State) : Host.Outcome State Fault Refusal := done s (servedOwner Reg.WRP_CTRL retryHeldEff s)

/-- A write of WRP_CTRL.WRITE_INHIBIT stops new passes at the end of the present cycle, or allows them again. (R218.) -/
def execWriteInhibit (on : Bool) (s : State) : Host.Outcome State Fault Refusal :=
  done s (served Reg.WRP_CTRL (writeInhibitEff on) s)

/-- LASER_ILK_N asserted deasserts every WGATE and LEN within 1 µs and sets all carriages OFFLINE. (R218.) -/
def execLaserIlkAssert (s : State) : Host.Outcome State Fault Refusal := done s (laserIlkEff s)

/-- LASER_ILK_N deasserted for 100 ms moves each bound carriage to STARTING. (R221.) -/
def execInterlockRelease (s : State) : Host.Outcome State Fault Refusal := done s (interlockReleaseEff s)

/-- A knot becomes ready once its data is verified and its trigger holds, and it is placed in a knot skein. (R216.) -/
def execKnotReady (elapsed : List Nat) (s : State) : Host.Outcome State Fault Refusal := done s (knotReadyEff elapsed s)

/-- A knot skein passes verify; the map engine applies its knots and the waiting completions are posted. (R217.) -/
def execKnotVerified (key : Nat) (s : State) : Host.Outcome State Fault Refusal := done s (knotVerifiedEff key s)

/-- A free hank engine takes the oldest coding or decompression request. (R243.) -/
def execHankDispatch (n : Nat) (s : State) : Host.Outcome State Fault Refusal := done s (hankDispatchEff n s)

/-- An engine finishes coding and checking a hank and releases it for packing, or faults on a mismatch. (R233.) -/
def execHankCodeComplete (n : Nat) (sound : Bool) (s : State) : Host.Outcome State Fault Refusal :=
  done s (instOf 6 n (hankCodeEff n sound) s)

/-- A decompression ends, and a check failure retries on another engine or ends with HANK_CHECK_FAIL. (R241.) -/
def execHankDecompressComplete (n : Nat) (sound : Bool) (s : State) : Host.Outcome State Fault Refusal :=
  done s (instOf 6 n (hankDecompressEff n sound) s)

/-- A write of HNK_CTRL.RESTORE bit n starts the restore test of engine n, or clears at once for an ineligible engine.
(R242.) -/
def execHankRestore (n : Nat) (s : State) : Host.Outcome State Fault Refusal :=
  done s (instOf 6 n (servedOwner Reg.HNK_CTRL (hankRestoreEff n)) s)

/-- A restore test ends and returns the engine to service or leaves it FAULTED. (R242.) -/
def execHankRestoreDone (n : Nat) (pass : Bool) (s : State) : Host.Outcome State Fault Refusal :=
  done s (instOf 6 n (hankRestoreDoneEff n pass) s)

/-- A write of HNK_CTRL.FORCE_MISMATCH makes the next coded hank fail its comparison. (R244.) -/
def execHankForceMismatch (on : Bool) (s : State) : Host.Outcome State Fault Refusal :=
  done s (served Reg.HNK_CTRL (hankForceEff on) s)

end Sys2Proof.Machine
end

