-- ==== Sys2Proof/Machine/CmdMotion.lean ====
section
/-! DEFINITION. Meanings of the commands: the loop engine, the spindle, the carriages and the cams (chapters 08 to 10). -/

namespace Sys2Proof.Machine

/-- At phase 0 of each base period every due slot latches, swaps, enables, ramps its set-point and computes. (R261.) -/
def execBasePeriod (volts : List Int) (parity : List (Nat × Bool)) (s : State) : Host.Outcome State Fault Refusal :=
  done s (basePeriodEff volts parity s)

/-- A due loop not finished by phase 380 overruns, keeps its state and writes no output. (R259.) -/
def execLoopOverrun (k : Nat) (s : State) : Host.Outcome State Fault Refusal := done s (instOf 32 k (overrunEff k) s)

/-- At phase 400 each finished due loop writes its outputs to their destinations. (R248.) -/
def execLoopOutputWrite (s : State) : Host.Outcome State Fault Refusal := done s (outputWriteEff s)

/-- A hold lasting 16 base periods, a stale chevron source or a lock-limit run declares lost lock. (R271.) -/
def execLoopLostLock (k : Nat) (s : State) : Host.Outcome State Fault Refusal := done s (instOf 32 k (loopLostEff k) s)

/-- OVR_RUN reaches 8 and the slot faults, with the unit response of R274. (R273.) -/
def execLoopFault (k : Nat) (s : State) : Host.Outcome State Fault Refusal := done s (instOf 32 k (loopFaultEff k) s)

/-- A carriage not READY or DEGRADED within 500 ms of lost lock is set FAULTED. (R274.) -/
def execCarriageReacquireTimeout (c : Nat) (s : State) : Host.Outcome State Fault Refusal :=
  done s (instOf 4 c (reacquireTimeoutEff c) s)

/-- A write of LPE_CTRL.ENABLE 1 enables the slot at its next due phase 0, or is refused. (R273.) -/
def execLoopEnable (k : Nat) (s : State) : Host.Outcome State Fault Refusal :=
  done s (instOf 32 k (served (loopCtrl k) (loopEnableEff k true)) s)

/-- A write of LPE_CTRL.ENABLE 0 disables the slot, with its destinations keeping their values. (R273.) -/
def execLoopDisable (k : Nat) (s : State) : Host.Outcome State Fault Refusal :=
  done s (instOf 32 k (served (loopCtrl k) (loopEnableEff k false)) s)

/-- A write of LPE_CTRL.SWAP exchanges the coefficient banks at the next due phase 0. (R277.) -/
def execLoopSwap (k : Nat) (s : State) : Host.Outcome State Fault Refusal :=
  done s (instOf 32 k (served (loopCtrl k) (loopSwapEff k)) s)

/-- A write of LPE_CTRL.PARK on a disabled slot writes its destinations 0 at phase 400. (R273.) -/
def execLoopPark (k : Nat) (s : State) : Host.Outcome State Fault Refusal :=
  done s (instOf 32 k (served (loopCtrl k) (loopParkEff k)) s)

/-- A write of LPE_CTRL.CLR_FAULT returns a FAULT slot to DISABLED if its unit is in SERVICE or OFFLINE. (R273.) -/
def execLoopClrFault (k : Nat) (s : State) : Host.Outcome State Fault Refusal :=
  done s (instOf 32 k (servedOwner (loopCtrl k) (loopClrFaultEff k)) s)

/-- A write of LPE_CTRL.FOLLOW on a privileged loop makes it follow its trace input or stop following. (R267.) -/
def execLoopFollow (k : Nat) (on : Bool) (s : State) : Host.Outcome State Fault Refusal :=
  done s (instOf 32 k (served (loopCtrl k) (loopFollowEff k on)) s)

/-- An access of LPE_COEF_DATA writes or reads the shadow or active bank at IDX, with auto-increment. (R276.) -/
def execCoefDataAccess (k : Nat) (write : Option Word) (s : State) : Host.Outcome State Fault Refusal :=
  done s (instOf 32 k (dataPort (Reg.LPE_COEF_DATA + 0x80 * k) write) s)

/-- A write of LPE_TEST.FORCE_OVR makes the next due computation of the slot overrun. (R279.) -/
def execLpeForceOvr (k : Nat) (on : Bool) (s : State) : Host.Outcome State Fault Refusal :=
  done s (served Reg.LPE_TEST (forceOvrEff k on) s)

/-- An active edge on a TRACE_IN pin updates its pulse interval or step count. (R268.) -/
def execTraceInEdge (n cycles : Nat) (dirHigh : Bool) (s : State) : Host.Outcome State Fault Refusal :=
  done s (instOf 4 n (traceEdgeEff n cycles dirHigh) s)

/-- No active edge arrives within 655.36 µs, q falls to 0, and TRACE_LOST is set on the following loops. (R268.) -/
def execTraceLost (n : Nat) (s : State) : Host.Outcome State Fault Refusal := done s (instOf 4 n (traceLostEff n) s)

/-- At each PWM top the drive forms the coming period's duties and compare values and samples the bus voltage. (R283.)
-/
def execPwmTop (pinMv : Nat) (s : State) : Host.Outcome State Fault Refusal := done s (pwmTopEff pinMv s)

/-- At each PWM centre the shunts are sampled, the currents are transformed, and the back-EMF observer runs. (R284.) -/
def execPwmCentre (cu cv cw : Nat) (s : State) : Host.Outcome State Fault Refusal := done s (pwmCentreEff cu cv cw s)

/-- Observer innovation or speed error declares rotor loss; the loops are disabled, the gates go off and a re-catch
begins. (R299.) -/
def execRotorLoss (s : State) : Host.Outcome State Fault Refusal := done s (rotorLossEff s)

/-- A phase-voltage comparator edge is collected for coast sense or catch. (R285.) -/
def execSpnComparatorEdge (ph : Nat) (rising : Bool) (s : State) : Host.Outcome State Fault Refusal :=
  done s (edgeEff ph rising s)

/-- A write of SPN_CTRL.START submits a READY request for the spindle. (R303.) -/
def execSpnStart (s : State) : Host.Outcome State Fault Refusal := done s (servedOwner Reg.SPN_CTRL spnStartReq s)

/-- A write of SPN_CTRL.STOP submits an OFFLINE request for the spindle. (R303.) -/
def execSpnStop (s : State) : Host.Outcome State Fault Refusal := done s (servedOwner Reg.SPN_CTRL spnStopReq s)

/-- A write of SPN_CTRL.CLR_FAULT leaves FAULT for STOPPED unless the fault came from the trip. (R291.) -/
def execSpnClrFault (s : State) : Host.Outcome State Fault Refusal := done s (servedOwner Reg.SPN_CTRL spnClrFaultEff s)

/-- A write of SPN_CTRL.FORCE_LOSS declares rotor loss at the next PWM centre. (R299.) -/
def execSpnForceLoss (s : State) : Host.Outcome State Fault Refusal := done s (servedOwner Reg.SPN_CTRL spnForceLossEff s)

/-- After 20 ms of edge collection the finding sends the drive to CATCH, BRAKE or ALIGN. (R293.) -/
def execCoastSenseDone (s : State) : Host.Outcome State Fault Refusal := done s (coastDoneEff s)

/-- Twelve consistent comparator edges make a catch; the observer is seeded and the current loop is enabled. (R297.) -/
def execCatchMade (s : State) : Host.Outcome State Fault Refusal := done s (catchMadeEff s)

/-- No catch is made within 200 ms of entering CATCH, and the drive brakes. (R291.) -/
def execCatchTimeout (s : State) : Host.Outcome State Fault Refusal := done s (catchTimeoutEff s)

/-- The braking current has not changed sign for half an electrical period at 60 rpm, and the drive goes to ALIGN.
(R294.) -/
def execBrakeDone (s : State) : Host.Outcome State Fault Refusal := done s (brakeDoneEff s)

/-- BRAKE_TMAX elapses in BRAKE and the spindle faults. (R291.) -/
def execBrakeTimeout (s : State) : Host.Outcome State Fault Refusal := done s (brakeTimeoutEff s)

/-- The saliency and polarity tests end, and the drive goes to RUNUP or faults. (R295.) -/
def execAlignDone (ampD ampQ peakP peakN : Nat) (s : State) : Host.Outcome State Fault Refusal :=
  done s (alignDoneEff ampD ampQ peakP peakN s)

/-- n̂ reaches 0.98 × target in RUNUP and the speed loop is enabled. (R296.) -/
def execRunupDone (s : State) : Host.Outcome State Fault Refusal := done s (runupDoneEff s)

/-- RUNUP_TMAX elapses since the start request and the spindle faults. (R291.) -/
def execRunupTimeout (s : State) : Host.Outcome State Fault Refusal := done s (runupTimeoutEff s)

/-- n̂ stays within ±1% of r for 50 ms with the speed loop in RUN, and the spindle becomes READY. (R296.) -/
def execSpindleReady (s : State) : Host.Outcome State Fault Refusal := done s (spindleReadyEff s)

/-- 200 ms of high current without a forward electrical revolution declares a locked rotor, which retries or faults.
(R298.) -/
def execLockedRotor (s : State) : Host.Outcome State Fault Refusal := done s (lockedRotorEff s)

/-- 1 s after a locked-rotor detection the drive retries through coast sense. (R291.) -/
def execLockedWaitDone (s : State) : Host.Outcome State Fault Refusal := done s (lockedWaitDoneEff s)

/-- After 10 ms in RUN within bounds following a re-catch, the spindle becomes READY. (R300.) -/
def execRecatchOk (s : State) : Host.Outcome State Fault Refusal := done s (recatchOkEff s)

/-- No catch is made within 200 ms of a rotor loss and the spindle faults. (R300.) -/
def execRecatchTimeout (s : State) : Host.Outcome State Fault Refusal := done s (recatchTimeoutEff s)

/-- A braking stop falls below 60 rpm and the gates go off in STOPPED. (R303.) -/
def execStoppingDone (s : State) : Host.Outcome State Fault Refusal := done s (stoppingDoneEff s)

/-- Every 100 ms while the spindle is READY the policy complex recomputes the rate-matching request. (R305.) -/
def execRateMatchCompute (d c ahead : Nat) (s : State) : Host.Outcome State Fault Refusal := done s (rateMatchEff d c ahead s)

/-- At each sled PWM centre the coil currents are sampled and the duties are updated. (R310.) -/
def execSledPwmSample (c code1 code2 : Nat) (s : State) : Host.Outcome State Fault Refusal :=
  done s (instOf 4 c (sledSampleEff c code1 code2) s)

/-- Every 10 µs the profile generator advances position, velocity and acceleration towards its target. (R314.) -/
def execProfileTick (c : Nat) (s : State) : Host.Outcome State Fault Refusal := done s (instOf 4 c (profileTickEff c) s)

/-- The step timer expires, a microstep is issued, and the next interval is loaded. (R316.) -/
def execStepTimerExpiry (c : Nat) (s : State) : Host.Outcome State Fault Refusal := done s (instOf 4 c (stepTimerEff c) s)

/-- An edge of HOME[c] advances homing, latches p_e, or, if unexpected, stops the profile and clears HOMED. (R317.) -/
def execHomeEdge (c : Nat) (active : Bool) (s : State) : Host.Outcome State Fault Refusal :=
  done s (instOf 4 c (homeEdgeEff c active) s)

/-- No home edge comes within STROKE_LIMIT + 1 mm of travel, and the carriage faults. (R317.) -/
def execHomingFail (c : Nat) (s : State) : Host.Outcome State Fault Refusal := done s (instOf 4 c (homingFailEff c) s)

/-- A seek to a layer-face and turn enters SEEK, masks the tracking and twist loops, and may start a layer jump. (R320.)
-/
def execSeekRequest (c lf turn : Nat) (s : State) : Host.Outcome State Fault Refusal := done s (instOf 4 c (seekEff c lf turn) s)

/-- SETTLE elapses after the sled comes to rest and the carriage enters CAPTURE. (R321.) -/
def execSeekSettleDone (c : Nat) (s : State) : Host.Outcome State Fault Refusal := done s (instOf 4 c (settleDoneEff c) s)

/-- At a wedge with an agreeing position and address the carriage captures, enters FINE, retries, or finds a slip.
(R325.) -/
def execCapture (c : Nat) (s : State) : Host.Outcome State Fault Refusal := done s (instOf 4 c (captureEff c) s)

/-- No capture within CAPTURE_TMAX retries the seek or fails it. (R321.) -/
def execCaptureTimeout (c : Nat) (s : State) : Host.Outcome State Fault Refusal := done s (instOf 4 c (captureTimeoutEff c) s)

/-- The followed turn reaches the seek's target turn, and the carriage enters FOLLOW with SEEK_DONE. (R321.) -/
def execFineDone (c : Nat) (s : State) : Host.Outcome State Fault Refusal := done s (instOf 4 c (fineDoneEff c) s)

/-- A layer jump reaches its duration and, after LJ_SETTLE, ends. (R323.) -/
def execLayerJumpDone (c : Nat) (s : State) : Host.Outcome State Fault Refusal := done s (instOf 4 c (layerJumpDoneEff c) s)

/-- At D_turn the turn jump ends, T decreases by 1 and the tracking hold ends. (R324.) -/
def execTurnJumpDone (c : Nat) (s : State) : Host.Outcome State Fault Refusal := done s (turnJumpEndEff c s)

/-- CRG_CMD SEEK in SERVICE starts a seek to LF and TURN, or is refused outside SERVICE. (R320.) -/
def execCrgCmdSeek (c lf turn : Nat) (s : State) : Host.Outcome State Fault Refusal :=
  done s (instOf 4 c (servedOwner (crgR Reg.CRG_CMD c) (crgSeekEff c lf turn)) s)

/-- CRG_CMD HOME in SERVICE starts a homing run. (R317.) -/
def execCrgCmdHome (c : Nat) (s : State) : Host.Outcome State Fault Refusal :=
  done s (instOf 4 c (servedOwner (crgR Reg.CRG_CMD c) (crgCmdEff c (homeCmd c))) s)

/-- CRG_CMD MOVE in SERVICE moves the sled to CRG_MOVE_TARGET. (R313.) -/
def execCrgCmdMove (c : Nat) (s : State) : Host.Outcome State Fault Refusal :=
  done s (instOf 4 c (servedOwner (crgR Reg.CRG_CMD c) (crgCmdEff c (moveCmd c))) s)

/-- A write of CRG_CTRL.CLR_FAULT returns a FAULT motion engine to UNHOMED in SERVICE or OFFLINE. (R321.) -/
def execCrgClrFault (c : Nat) (s : State) : Host.Outcome State Fault Refusal :=
  done s (instOf 4 c (servedOwner (crgR Reg.CRG_CTRL c) (crgClrFaultEff c)) s)

/-- A write of CRG_CTRL.FORCE_SLIP makes the next capture report a slip. (R333.) -/
def execCrgForceSlip (c : Nat) (s : State) : Host.Outcome State Fault Refusal :=
  done s (instOf 4 c (served (crgR Reg.CRG_CTRL c) (crgForceSlipEff c)) s)

/-- A write of CAM_COMMIT GO applies a table's shadow values at the next phase 0, or defers or refuses it. (R331.) -/
def execCamCommit (v : Word) (s : State) : Host.Outcome State Fault Refusal :=
  done s (servedOwner Reg.CAM_COMMIT (camCommitEff v) s)

/-- A write of CAM_CTRL.ENGAGE engages or disengages a cam at the next phase 0, or is refused. (R330.) -/
def execCamEngage (t : Nat) (on : Bool) (s : State) : Host.Outcome State Fault Refusal :=
  done s (instOf 64 t (served (Reg.CAM_CTRL + 4 * t) (camEngageEff t on)) s)

/-- A write of CAM_CTRL.TIME_RESET sets the cam's TIME master to 0 at the next phase 0. (R334.) -/
def execCamTimeReset (t : Nat) (s : State) : Host.Outcome State Fault Refusal :=
  done s (instOf 64 t (served (Reg.CAM_CTRL + 4 * t) (camTimeResetEff t)) s)

/-- An access of CAM_PT_DATA reads or writes a shadow point, with auto-increment. (R331.) -/
def execCamPtDataAccess (write : Option Word) (s : State) : Host.Outcome State Fault Refusal :=
  done s (dataPort Reg.CAM_PT_DATA write s)

end Sys2Proof.Machine
end

