-- ==== Sys2Proof/Machine/CmdHost.lean ====
section
/-! DEFINITION. Meanings of the commands: the rings, the host commands and the requests of the unit path (chapters 11, 12, 16, 17). -/

namespace Sys2Proof.Machine

/-- An 8-byte doorbell write applies to a resident ring, or is recorded and starts a context load, or is discarded.
(R350.) -/
def execDoorbell (f off size v : Nat) (s : State) : Host.Outcome State Fault Refusal := done s (doorbellEff f off size v s)

/-- A descriptor read completes and the ring context is ready, or the ring is refused with a descriptor error. (R345.)
-/
def execContextLoadComplete (r : Nat) (desc : Option (List Byte)) (s : State) : Host.Outcome State Fault Refusal :=
  done s (ctxLoadEff r desc s)

/-- A context becomes free or evictable and the starved loads are tried again, oldest first. (R346.) -/
def execContextFreed (s : State) : Host.Outcome State Fault Refusal := done s (retryStarved s)

/-- HQ_FN_RING_CMD INVALIDATE stops fetching from a ring. (R347.) -/
def execRingInvalidate (f r : Nat) (s : State) : Host.Outcome State Fault Refusal :=
  done s (served (ringCmdReg f) (invalidateEff f r) s)

/-- An invalidated ring has nothing in flight or waiting; its state is written back and its context is released. (R347.)
-/
def execRingInvalidateDone (r : Nat) (s : State) : Host.Outcome State Fault Refusal := done s (invalidateDoneEff r s)

/-- HQ_FN_RING_CMD QUERY reports the ring in HQ_FN_RING_STAT. (R347.) -/
def execRingQuery (f r : Nat) (s : State) : Host.Outcome State Fault Refusal :=
  done s (served (ringCmdReg f) (ringQueryEff f r) s)

/-- The arbiter grants an eligible ring, accepts its next command with a sequence number and a tag, and fetches it.
(R372.) -/
def execGrant (b aux : Option (List Byte)) (s : State) : Host.Outcome State Fault Refusal := done s (grantEff b aux s)

/-- At each 1 ms boundary HQ_U_TOKENS is set to HQ_U_BUDGET. (R370.) -/
def execUTokenRefill (s : State) : Host.Outcome State Fault Refusal := done s (tokenRefillEff s)

/-- NOP has no effect and completes with SUCCESS, after earlier commands when ORDER_AFTER is set. (R361.) -/
def execNop (t : Nat) (s : State) : Host.Outcome State Fault Refusal := done s (nopEff t s)

/-- READ returns blocks of a volume resolved from a snapshot, at the highest generation or as of a generation. (R359.)
-/
def execRead (t : Nat) (s : State) : Host.Outcome State Fault Refusal := done s (readEff t s)

/-- WRITE holds COUNT blocks from the host for a volume, with FUA, ATOMIC, ORDER_AFTER and REPLAY as given. (R360.) -/
def execWrite (t : Nat) (s : State) : Host.Outcome State Fault Refusal := done s (writeEff t s)

/-- FLUSH completes once every earlier non-aborted write of its volume, and the CREATE knot, is applied. (R389.) -/
def execFlush (t : Nat) (s : State) : Host.Outcome State Fault Refusal := done s (startWait opFlush (fun c => c.seq - 1) t s)

/-- ABORT reaches the command of a target ring and slot and races that command's commit point. (R396.) -/
def execAbort (t : Nat) (s : State) : Host.Outcome State Fault Refusal := done s (abortEff t s)

/-- VOLUME_CREATE reads an attribute record, writes the CREATE knot and completes when it is verified. (R362.) -/
def execVolumeCreate (t : Nat) (s : State) : Host.Outcome State Fault Refusal := done s (startWait opCreate (fun c => c.seq) t s)

/-- VOLUME_CLOSE is ordered as a FLUSH, then writes a verified CLOSE knot that makes the volume read-only. (R362.) -/
def execVolumeClose (t : Nat) (s : State) : Host.Outcome State Fault Refusal := done s (startWait opClose (fun c => c.seq) t s)

/-- VOLUME_INFO writes the 64-byte volume report to DATA_ADDR. (R362.) -/
def execVolumeInfo (s : State) : Host.Outcome State Fault Refusal := done s (volumeInfoEff s)

/-- IMPORT_READ returns physical 2,048-byte sectors from a layer of an import disc. (R363.) -/
def execImportRead (t : Nat) (s : State) : Host.Outcome State Fault Refusal := done s (importReadEff t s)

/-- UNIT_QUERY writes the unit report of a unit. (R506.) -/
def execUnitQuery (s : State) : Host.Outcome State Fault Refusal := done s (unitQueryEff s)

/-- UNIT_REQUEST OFFLINE takes a unit to OFFLINE through DRAINING, or ends a SERVICE hold. (R505.) -/
def execUnitRequestOffline (s : State) : Host.Outcome State Fault Refusal := done s (unitOfflineEff s)

/-- UNIT_REQUEST READY starts a unit through STARTING, clearing a FAULT where the unit allows. (R505.) -/
def execUnitRequestReady (s : State) : Host.Outcome State Fault Refusal := done s (unitReadyEff s)

/-- UNIT_REQUEST SERVICE holds a carriage, the spindle or a buffer channel in SERVICE. (R505.) -/
def execUnitRequestService (s : State) : Host.Outcome State Fault Refusal := done s (unitServiceEff s)

/-- The drain for a buffer-channel SERVICE request ends, and the channel enters SERVICE and fetching resumes. (R580.) -/
def execBufferChannelServiceReady (s : State) : Host.Outcome State Fault Refusal := done s (bufServiceReadyEff s)

/-- ASSERT_PRESENT asserts that a unit is present, and the unit is set SUSPECT if that contradicts the sensing. (R508.)
-/
def execAssertPresent (answers : Bool) (s : State) : Host.Outcome State Fault Refusal := done s (assertPresentEff answers s)

/-- ASSERT_ABSENT asserts that a unit is absent, and the unit is set SUSPECT if that contradicts the sensing. (R508.) -/
def execAssertAbsent (answers : Bool) (s : State) : Host.Outcome State Fault Refusal := done s (assertAbsentEff answers s)

/-- CALIBRATE CHANNEL recomputes a carriage's strand seeds over the zones of its scope. (R484.) -/
def execCalibrateChannel (s : State) : Host.Outcome State Fault Refusal := done s (calibrateEff 1 s)

/-- CALIBRATE SERVO_LAYER finds the focus and aberration offsets of each layer of the carriage's face. (R486.) -/
def execCalibrateServoLayer (s : State) : Host.Outcome State Fault Refusal := done s (calibrateEff 2 s)

/-- CALIBRATE SERVO_RADIUS measures twist, tilt and focus at 17 radii. (R486.) -/
def execCalibrateServoRadius (s : State) : Host.Outcome State Fault Refusal := done s (calibrateEff 3 s)

/-- CALIBRATE WRITE_POWER writes power steps in the test zone and finds PEAK_SCALE and STRAND_TRIM. (R487.) -/
def execCalibrateWritePower (s : State) : Host.Outcome State Fault Refusal := done s (calibrateEff 4 s)

/-- CALIBRATE SLED_HOME homes three times and measures HOME_RADIUS and its spread. (R490.) -/
def execCalibrateSledHome (s : State) : Host.Outcome State Fault Refusal := done s (calibrateEff 5 s)

/-- CALIBRATE SPINDLE measures the motor's parameters through align, run-up, coast and brake. (R489.) -/
def execCalibrateSpindle (s : State) : Host.Outcome State Fault Refusal := done s (calibrateEff 6 s)

/-- SELF_TEST PARITY runs the known-pattern test of every parity checker without touching live data. (R493.) -/
def execSelfTestParity (s : State) : Host.Outcome State Fault Refusal := done s (selfTestEff 1 s)

/-- SELF_TEST MRAM checks every MRAM slot and writes and reads back a test slot. (R494.) -/
def execSelfTestMram (s : State) : Host.Outcome State Fault Refusal := done s (selfTestEff 2 s)

/-- SELF_TEST MEM_BIST marches every line of a buffer channel held in SERVICE and rebuilds its twins. (R495.) -/
def execSelfTestMemBist (s : State) : Host.Outcome State Fault Refusal := done s (selfTestEff 3 s)

/-- A draining unit's pass cycle or pre-read ends, and the unit enters SERVICE and its calibration starts. (R480.) -/
def execDrainComplete (u : Nat) (s : State) : Host.Outcome State Fault Refusal := done s (drainCompleteEff u s)

/-- A calibration or self-test ends, applies or discards its results and records, and posts its outcome. (R483.) -/
def execCalibrationEnd (u : Nat) (d : CalData) (s : State) : Host.Outcome State Fault Refusal := done s (calEndEff u d s)

/-- The SERVICE time limit of a calibration is reached, it ends with nothing applied and TIMEOUT is set. (R480.) -/
def execCalibrationTimeout (u : Nat) (s : State) : Host.Outcome State Fault Refusal := done s (calTimeoutEff u s)

/-- A write of CAL_CTRL.FORCE_CHECKER_FAIL makes the next PARITY test find its first checker failed. (R496.) -/
def execCalForceCheckerFail (s : State) : Host.Outcome State Fault Refusal := done s (served Reg.CAL_CTRL forceCheckerEff s)

/-- A waiting command's last range-lock or barrier wait is removed, it runs, and a read takes its snapshot. (R380.) -/
def execCommandRun (t : Nat) (s : State) : Host.Outcome State Fault Refusal := done s (poolSweep (hankReads (commandRunEff t s)))

/-- All blocks of a write are held in the required form, its range lock is released, and a non-FUA write completes.
(R381.) -/
def execWriteHeldPoint (t : Nat) (data : Option (List Byte)) (s : State) : Host.Outcome State Fault Refusal :=
  done s (writeHeldEff t data s)

/-- Held write data falls below WRITE_BEHIND_LIMIT and a waiting write resumes reading its data. (R381.) -/
def execWriteBehindSpace (s : State) : Host.Outcome State Fault Refusal := done s (writeSpaceEff s)

/-- SUSPECT_HOLD elapses for a held command, which completes with UNIT_SUSPECT. (R509.) -/
def execSuspectHoldExpiry (t : Nat) (s : State) : Host.Outcome State Fault Refusal := done s (suspectExpiryEff t s)

/-- A command stays WAITING longer than WAIT_WARN and LOCK_WAIT_LONG is set. (R406.) -/
def execLockWaitLong (t : Nat) (s : State) : Host.Outcome State Fault Refusal := done s (lockWaitLongEff t s)

/-- A write of ORD_CTRL.GEN_GO looks up the cut of a generation for the selected volume. (R394.) -/
def execGenLookup (s : State) : Host.Outcome State Fault Refusal := done s (served Reg.ORD_CTRL genLookupEff s)

/-- A write of ORD_CTRL.REPLAY_CLEAR empties the selected volume's replay table, or is refused. (R406.) -/
def execReplayClear (s : State) : Host.Outcome State Fault Refusal := done s (served Reg.ORD_CTRL replayClearEff s)

/-- An ended command's completion is written to its ring once an entry is free and the function allows it. (R367.) -/
def execCompletionPost (r : Nat) (s : State) : Host.Outcome State Fault Refusal := done s (completionPostEff r s)

/-- COAL_TIME passes since the oldest unsignalled completion and the ring signals its vector. (R373.) -/
def execCoalesceTimerExpiry (r : Nat) (s : State) : Host.Outcome State Fault Refusal := done s (coalesceEff r s)

/-- A vector or function is unmasked with its PBA bit set and one MSI-X message is sent. (R374.) -/
def execMsixUnmask (f : Nat) (v : Option Nat) (s : State) : Host.Outcome State Fault Refusal :=
  done s (msixWithin f v (msixUnmaskEff f v) s)

/-- A Function Level Reset stops the function's rings, ends or detaches its commands, and releases its contexts. (R340.)
-/
def execFlr (f : Nat) (s : State) : Host.Outcome State Fault Refusal := done s (flrEff f s)

/-- Every command of the function has ended or been detached, its contexts are released, and IN_FLR clears. (R340.) -/
def execFlrEnd (f : Nat) (s : State) : Host.Outcome State Fault Refusal := done s (flrEndEff f s)

end Sys2Proof.Machine
end

