-- ==== Sys2Proof/Machine/CmdStore.lean ====
section
/-! DEFINITION. Meanings of the commands: the buffer cache, the buffer memory, the MRAM and the disc sensors (chapters 13, 14, 17). -/

namespace Sys2Proof.Machine

/-- A port's cache request is granted and served as a hit, a victim hit or a miss. (R411.) -/
def execCacheRequest (r : CacheReq) (issued : List Nat) (walked : Nat) (tags : List Nat) (err : Option CacheErr) (s : State) : Host.Outcome State Fault Refusal :=
  done s (cacheRequestEff r issued walked tags err s)

/-- A fill beat arrives from buffer memory and its bytes are delivered to waiting requests. (R411.) -/
def execFillBeat (l beat : Nat) (s : State) : Host.Outcome State Fault Refusal := done s (fillBeatEff l beat s)

/-- A write-back completes and frees its victim entry and twin. (R415.) -/
def execWritebackComplete (l : Nat) (s : State) : Host.Outcome State Fault Refusal := done s (writebackEff l s)

/-- BC_INV_CMD CLEAN writes back the dirty lines of a range. (R418.) -/
def execCacheClean (force whole : Bool) (s : State) : Host.Outcome State Fault Refusal :=
  done s (served Reg.BC_INV_CMD (rangeStart false force whole) s)

/-- BC_INV_CMD CLEAN_INV writes back and invalidates the lines of a range. (R418.) -/
def execCacheCleanInv (force whole : Bool) (s : State) : Host.Outcome State Fault Refusal :=
  done s (served Reg.BC_INV_CMD (rangeStart true force whole) s)

/-- A range operation's walk and write-backs end, and DONE, INV_DONE and the retained count are set. (R419.) -/
def execInvDone (s : State) : Host.Outcome State Fault Refusal := done s (invDoneEff s)

/-- BC_LOCK_CMD LOCK fills and locks the lines of a range within the per-set limit. (R417.) -/
def execCacheLock (s : State) : Host.Outcome State Fault Refusal := done s (served Reg.BC_LOCK_CMD lockEff s)

/-- BC_LOCK_CMD UNLOCK unlocks the lines of a range, or every line with ALL. (R417.) -/
def execCacheUnlock (all_ : Bool) (s : State) : Host.Outcome State Fault Refusal :=
  done s (served Reg.BC_LOCK_CMD (unlockEff all_) s)

/-- A write of BC_CTRL.ENABLE 0 stops allocation and starts writing back dirty lines. (R424.) -/
def execCacheDisable (s : State) : Host.Outcome State Fault Refusal := done s (served Reg.BC_CTRL disableEff s)

/-- The last write-back of CLEANING completes and the cache becomes DISABLED with STALE_RISK. (R424.) -/
def execCacheCleaningDone (s : State) : Host.Outcome State Fault Refusal := done s (cleaningDoneEff s)

/-- A write of BC_CTRL.ENABLE 1 enables the cache, with STALE_ENABLE if STALE_RISK is 1. (R424.) -/
def execCacheEnable (s : State) : Host.Outcome State Fault Refusal := done s (served Reg.BC_CTRL enableEff s)

/-- A write of BC_TEST.FORCE_DATA_PARITY makes the next cache-line hit meet a persistent data error. (R426.) -/
def execBcForceDataParity (s : State) : Host.Outcome State Fault Refusal := done s (served Reg.BC_TEST forceDataEff s)

/-- A write of BC_TEST.FORCE_TWIN_PARITY makes the next restore from a twin meet a persistent error. (R426.) -/
def execBcForceTwinParity (s : State) : Host.Outcome State Fault Refusal := done s (served Reg.BC_TEST forceTwinEff s)

/-- A host memory access to BAR2 reads or writes scratchpad ways, discarding writes to way 0. (R422.) -/
def execBar2Access (off len : Nat) (write : Option (List (Option Byte))) (bad : Bool) (s : State) : Host.Outcome State Fault Refusal :=
  done s (bar2Eff off len write bad s)

/-- A buffer-memory read returns; parity errors are replayed, and a persistent one is handled by its class. (R441.) -/
def execMemoryReadReturn (port addr lanes replays : Nat) (persists : Bool) (use : LineUse) (bad : Bool) (s : State) : Host.Outcome State Fault Refusal :=
  done s (memReadEff port addr lanes replays persists use bad s)

/-- A repair rereads a bad line and rewrites it from its twin unless newer data has replaced it. (R442.) -/
def execParityRepair (rereadOk written : Bool) (s : State) : Host.Outcome State Fault Refusal :=
  done s (parityRepairEff rereadOk written s)

/-- A refresh falls due, and is issued, postponed or forced at 4 owed refreshes. (R435.) -/
def execRefreshDue (urgent idle : Bool) (s : State) : Host.Outcome State Fault Refusal := done s (refreshDueEff urgent idle s)

/-- Every 16 ms the MR4 temperatures are polled and the refresh interval is halved or restored. (R435.) -/
def execDramTempPoll (hot : Bool) (s : State) : Host.Outcome State Fault Refusal := done s (dramTempEff hot s)

/-- The target operating point differs from the active one and a change begins by holding new requests. (R436.) -/
def execPointChangeBegin (s : State) : Host.Outcome State Fault Refusal := done s (pointBeginEff s)

/-- The last access drains and the self-refresh, divider, relock and ZQ steps run until requests are released. (R437.)
-/
def execPointChangeDrained (s : State) : Host.Outcome State Fault Refusal := done s (pointDrainedEff s)

/-- The scrub interval expires and the scrubber reads its next line, bursting over a block after an error. (R444.) -/
def execScrubRead (s : State) : Host.Outcome State Fault Refusal := done s (scrubReadEff s)

/-- A write of INT_CTRL.SCRUB_RESTART makes the next scrubber read line 0. (R452.) -/
def execScrubRestart (s : State) : Host.Outcome State Fault Refusal := done s (served Reg.INT_CTRL scrubRestartEff s)

/-- A write of INT_CTRL.FORCE_PARITY makes the next read of INT_TEST_ADDR meet a persistent error. (R452.) -/
def execIntForceParity (s : State) : Host.Outcome State Fault Refusal := done s (served Reg.INT_CTRL forceParityEff s)

/-- A record write is requested to the older MRAM slot with the next GENERATION. (R448.) -/
def execMramRecordWrite (s : State) : Host.Outcome State Fault Refusal := done s (mramWriteEff s)

/-- An MRAM slot write and its read-back compare end, with one retry or MRAM_WRITE_FAIL. (R448.) -/
def execMramWriteDone (same : Bool) (s : State) : Host.Outcome State Fault Refusal := done s (mramDoneEff same s)

/-- Every hour in S7 the counters record is written to MRAM. (R450.) -/
def execCountersSaveHourly (s : State) : Host.Outcome State Fault Refusal := done s (countersHourlyEff s)

/-- DISC_PRESENT or a cartridge sensor changes after its 20 ms filter and the disc unit is sensed present or absent.
(R508.) -/
def execDiscPresentChange (active : Bool) (carts : List Bool) (s : State) : Host.Outcome State Fault Refusal :=
  done s (discPresentEff active carts s)

end Sys2Proof.Machine
end

