-- ==== Sys2Proof/Machine/CmdManage.lean ====
section
/-! DEFINITION. Meanings of the commands: the management port, I3C, PTP and the event log (chapter 17). -/

namespace Sys2Proof.Machine

/-- DISCOVER returns the identification words and status, delayed by deck ID when DECK_ID is 0. (R515.) -/
def execDmpDiscover (m : MsgFrom) (reqId : Nat) (zero : Bool) (s : State) : Host.Outcome State Fault Refusal :=
  done s (discoverEff m reqId zero s)

/-- DMP UNIT_QUERY returns the unit report. (R506.) -/
def execDmpUnitQuery (m : MsgFrom) (reqId u : Nat) (s : State) : Host.Outcome State Fault Refusal :=
  done s (dmpQueryEff m reqId u s)

/-- DMP UNIT_REQUEST submits a unit request to the sequencer. (R505.) -/
def execDmpUnitRequest (m : MsgFrom) (reqId u code epoch : Nat) (s : State) : Host.Outcome State Fault Refusal :=
  done s (dmpUnitEff m 0x03 opUnitRequest reqId u code epoch s)

/-- DMP CALIBRATE submits a calibration to the sequencer. (R477.) -/
def execDmpCalibrate (m : MsgFrom) (reqId u code scope : Nat) (s : State) : Host.Outcome State Fault Refusal :=
  done s (dmpUnitEff m 0x04 opCalibrate reqId u code scope s)

/-- DMP SELF_TEST submits a self-test to the sequencer. (R477.) -/
def execDmpSelfTest (m : MsgFrom) (reqId u code scope : Nat) (s : State) : Host.Outcome State Fault Refusal :=
  done s (dmpUnitEff m 0x05 opSelfTest reqId u code scope s)

/-- DMP VOLUME_INFO returns the volume report. (R362.) -/
def execDmpVolumeInfo (m : MsgFrom) (reqId v : Nat) (s : State) : Host.Outcome State Fault Refusal :=
  done s (dmpVolumeEff m reqId v s)

/-- POLICY_GET returns a policy value. (R515.) -/
def execPolicyGet (m : MsgFrom) (reqId id : Nat) (s : State) : Host.Outcome State Fault Refusal :=
  done s (policyGetEff m reqId id s)

/-- POLICY_SET changes a run-time policy value within its range. (R515.) -/
def execPolicySet (m : MsgFrom) (reqId id : Nat) (v : Int) (s : State) : Host.Outcome State Fault Refusal :=
  done s (policySetEff m reqId id v s)

/-- NET_SET takes new network settings, which apply 10 ms after the response. (R515.) -/
def execNetSet (m : MsgFrom) (reqId : Nat) (b : List Byte) (s : State) : Host.Outcome State Fault Refusal :=
  done s (netSetEff m reqId b s)

/-- 10 ms after a NET_SET response the new network settings take effect. (R515.) -/
def execNetSetApply (s : State) : Host.Outcome State Fault Refusal := done s (netApplyEff s)

/-- REG_READ returns up to 64 PF BAR0 register values without clearing RC registers. (R515.) -/
def execRegRead (m : MsgFrom) (reqId off count : Nat) (s : State) : Host.Outcome State Fault Refusal :=
  done s (regReadEff m reqId off count s)

/-- EVENT_SUBSCRIBE registers or renews a subscriber with a BLOCK mask. (R516.) -/
def execEventSubscribe (m : MsgFrom) (reqId mask fromSeq : Nat) (s : State) : Host.Outcome State Fault Refusal :=
  done s (subscribeEff m reqId mask fromSeq s)

/-- A subscriber is dropped 300 s after its last EVENT_SUBSCRIBE. (R516.) -/
def execSubscriberExpiry (a q : Nat) (s : State) : Host.Outcome State Fault Refusal := done s (subscriberExpiryEff a q s)

/-- EVENT_READ returns up to COUNT kept event entries from FROM_SEQ. (R515.) -/
def execEventRead (m : MsgFrom) (reqId fromSeq count : Nat) (s : State) : Host.Outcome State Fault Refusal :=
  done s (eventReadEff m reqId fromSeq count s)

/-- IMAGE_BEGIN opens an image transfer, abandoning an open one and clearing STAGED_VALID. (R71.) -/
def execImageBegin (m : MsgFrom) (reqId size : Nat) (s : State) : Host.Outcome State Fault Refusal :=
  done s (imageBeginEff m reqId size s)

/-- IMAGE_DATA places up to 1,024 bytes of image at OFFSET in the staging area. (R515.) -/
def execImageData (m : MsgFrom) (reqId off : Nat) (b : List Byte) (s : State) : Host.Outcome State Fault Refusal :=
  done s (imageDataEff m reqId off b s)

/-- IMAGE_END validates the transferred image through step 11 once every byte has arrived. (R70.) -/
def execImageEnd (m : MsgFrom) (reqId : Nat) (s : State) : Host.Outcome State Fault Refusal := done s (imageEndEff m reqId s)

/-- IMAGE_CMD performs an IMG_CTRL command from QUIESCE to PROG_B. (R515.) -/
def execImageCmd (m : MsgFrom) (reqId cmd : Nat) (s : State) : Host.Outcome State Fault Refusal :=
  done s (imageCmdEff m reqId cmd s)

/-- A stored response of a state-changing request expires after 10 s. (R516.) -/
def execDmpDuplicateExpiry (a q reqId : Nat) (s : State) : Host.Outcome State Fault Refusal :=
  done s (duplicateExpiryEff a q reqId s)

/-- An I3C private write carries one DMP message to the controller. (R517.) -/
def execI3cPrivateWrite (b : List Byte) (s : State) : Host.Outcome State Fault Refusal := done s (i3cWriteEff b s)

/-- An I3C private read returns the response of the last message, or is NACKed if not ready. (R517.) -/
def execI3cPrivateRead (s : State) : Host.Outcome State Fault Refusal := done s (i3cReadEff s)

/-- The CCC ENEC enables target events such as In-Band Interrupts. (R517.) -/
def execEnec (events : Nat) (s : State) : Host.Outcome State Fault Refusal := done s (eventsCccEff true events s)

/-- The CCC DISEC disables target events. (R517.) -/
def execDisec (events : Nat) (s : State) : Host.Outcome State Fault Refusal := done s (eventsCccEff false events s)

/-- The CCC RSTDAA resets the dynamic address. (R517.) -/
def execRstdaa (s : State) : Host.Outcome State Fault Refusal := done s (rstdaaEff s)

/-- The CCC ENTDAA assigns a dynamic address through arbitration. (R517.) -/
def execEntdaa (a : Nat) (s : State) : Host.Outcome State Fault Refusal := done s (entdaaEff a s)

/-- The CCC SETDASA assigns a dynamic address from the static address. (R517.) -/
def execSetdasa (static a : Nat) (s : State) : Host.Outcome State Fault Refusal := done s (setdasaEff static a s)

/-- The CCC GETPID returns the provisioned ID. (R517.) -/
def execGetpid (s : State) : Host.Outcome State Fault Refusal := done s (getFreeEff 6 s)

/-- The CCC GETBCR returns the bus characteristics register. (R517.) -/
def execGetbcr (s : State) : Host.Outcome State Fault Refusal := done s (getFreeEff 1 s)

/-- The CCC GETDCR returns the device characteristics register. (R517.) -/
def execGetdcr (s : State) : Host.Outcome State Fault Refusal := done s (getFreeEff 1 s)

/-- The CCC GETSTATUS returns the target status. (R517.) -/
def execGetstatus (s : State) : Host.Outcome State Fault Refusal := done s (getFreeEff 2 s)

/-- The CCC GETMWL returns the maximum write length. (R517.) -/
def execGetmwl (s : State) : Host.Outcome State Fault Refusal := done s (getLenEff false s)

/-- The CCC GETMRL returns the maximum read length. (R517.) -/
def execGetmrl (s : State) : Host.Outcome State Fault Refusal := done s (getLenEff true s)

/-- The CCC SETMWL sets the maximum write length. (R517.) -/
def execSetmwl (n : Nat) (s : State) : Host.Outcome State Fault Refusal := done s (setLenEff false n s)

/-- The CCC SETMRL sets the maximum read length. (R517.) -/
def execSetmrl (n : Nat) (s : State) : Host.Outcome State Fault Refusal := done s (setLenEff true n s)

/-- A PTP Sync exchange updates the offset from the master, stepping or slewing deck time. (R518.) -/
def execPtpSync (ofs : Int) (s : State) : Host.Outcome State Fault Refusal := done s (ptpSyncEff ofs s)

/-- A write of MGT_LOG_RD selects the entry shown in MGT_LOG_WIN and re-arms the log vector. (R520.) -/
def execMgtLogRdWrite (v : Nat) (s : State) : Host.Outcome State Fault Refusal := done s (served Reg.MGT_LOG_RD_HI (logRdEff v) s)

end Sys2Proof.Machine
end

