-- ==== Sys2Proof/Machine/CmdPartner.lean ====
section
/-! DEFINITION. Meanings of the commands: the redundant pair (chapter 18). -/

namespace Sys2Proof.Machine

/-- Jokor link training ends at the widest width whose lanes pass, or leaves the link down. (R524.) -/
def execLinkTrainDone (lanes : Nat) (s : State) : Host.Outcome State Fault Refusal := done s (linkTrainDoneEff lanes s)

/-- Every 100 ms a down Jokor link is trained again. (R524.) -/
def execLinkTrainRetry (s : State) : Host.Outcome State Fault Refusal := done s (linkRetryEff s)

/-- A lane's error rate or lock loss retrains the link at the next narrower width. (R524.) -/
def execLaneError (lane : Nat) (s : State) : Host.Outcome State Fault Refusal := done s (laneErrorEff lane s)

/-- A Jokor frame is received and checked, and a failed frame is resent or the link retrained. (R524.) -/
def execJokorFrame (ok : Bool) (s : State) : Host.Outcome State Fault Refusal := done s (jokorFrameEff ok s)

/-- The hello from the partner is compared for role, image digest and deck ID, and a pair-follow image may be requested.
(R525.) -/
def execPairHello (role : Nat) (digest : List Word) (deck stg : Nat) (wants ownHigh : Bool) (s : State) : Host.Outcome State Fault Refusal :=
  done s (pairHelloEff role digest deck stg wants ownHigh s)

/-- Every 50 µs from S6 a device sends a heartbeat, the owner's carrying a mechanics snapshot. (R526.) -/
def execHeartbeatSend (s : State) : Host.Outcome State Fault Refusal := done s (heartbeatSendEff s)

/-- A valid heartbeat from the partner resets the missed count. (R526.) -/
def execHeartbeatReceive (h : Heartbeat) (s : State) : Host.Outcome State Fault Refusal := done s (heartbeatReceiveEff h s)

/-- 1,000 µs pass with no valid heartbeat and the partner is declared lost. (R526.) -/
def execPartnerLost (s : State) : Host.Outcome State Fault Refusal := done s (partnerLostEff s)

/-- BOOT_WAIT elapses at the secondary with no heartbeat and it claims, asserting PEER_RESET_N. (R528.) -/
def execBootWaitExpiry (ownHigh : Bool) (s : State) : Host.Outcome State Fault Refusal := done s (bootWaitEff ownHigh s)

/-- PAIR_OWN_N is sampled high for 2 µs while claiming, and the device claims and takes over. (R528.) -/
def execOwnNetHigh (late : Bool) (outUs : Nat) (s : State) : Host.Outcome State Fault Refusal :=
  done s (ownNetHighEff late outUs s)

/-- PAIR_OWN_N stays low 100 µs after claiming began, and the claim fails. (R528.) -/
def execClaimTimeout (s : State) : Host.Outcome State Fault Refusal := done s (claimTimeoutEff s)

/-- PEER_RESET_N is released 100 µs after a claim. (R528.) -/
def execPeerResetRelease (s : State) : Host.Outcome State Fault Refusal := done s (peerReleaseEff s)

/-- A write of PRL_CTRL.HANDOVER at a quiesced owner releases the outputs and sends the handover message. (R528.) -/
def execHandover (key : Nat) (s : State) : Host.Outcome State Fault Refusal := done s (served Reg.PRL_CTRL (handoverEff key) s)

/-- A follower receives a handover message and begins claiming. (R528.) -/
def execHandoverMessage (s : State) : Host.Outcome State Fault Refusal := done s (handoverMessageEff s)

/-- The partner acknowledges a handover and the old owner releases PAIR_OWN_N. (R528.) -/
def execHandoverAck (s : State) : Host.Outcome State Fault Refusal := done s (handoverAckEff s)

/-- 10 ms pass without acknowledgement and the owner drives its outputs again. (R528.) -/
def execHandoverTimeout (s : State) : Host.Outcome State Fault Refusal := done s (handoverTimeoutEff s)

/-- A write of PRL_CTRL.PEER_RESET at the owner asserts PEER_RESET_N for 20 µs. (R540.) -/
def execPeerReset (key : Nat) (s : State) : Host.Outcome State Fault Refusal := done s (served Reg.PRL_CTRL (peerResetEff key) s)

/-- The 20 µs PEER_RESET_N pulse ends. (R540.) -/
def execPeerResetEnd (s : State) : Host.Outcome State Fault Refusal := done s (peerResetEndEff s)

/-- The owner receives a command forwarded by the non-owner and accepts it into its order. (R530.) -/
def execForwardedCommand (f : Forwarded) (s : State) : Host.Outcome State Fault Refusal := done s (forwardedCommandEff f s)

/-- The non-owner receives a journal entry for an accepted command and acknowledges it. (R532.) -/
def execJournalEntry (e : JournalEntry) (s : State) : Host.Outcome State Fault Refusal := done s (journalEntryEff e s)

/-- The owner receives a journal acknowledgement and the command may leave WAITING. (R532.) -/
def execJournalAck (seq : Nat) (s : State) : Host.Outcome State Fault Refusal := done s (journalAckEff seq s)

/-- The non-owner receives a forwarded command's data and outcome and posts its completion. (R531.) -/
def execForwardResult (o : ForwardOutcome) (s : State) : Host.Outcome State Fault Refusal := done s (forwardResultEff o s)

/-- The non-owner receives a mirrored item, stores it and acknowledges it. (R534.) -/
def execMirrorReceive (d : MirrorData) (s : State) : Host.Outcome State Fault Refusal := done s (mirrorReceiveEff d s)

/-- The owner receives a mirror acknowledgement and the waiting step proceeds. (R534.) -/
def execMirrorAck (m : MirrorItem) (s : State) : Host.Outcome State Fault Refusal := done s (mirrorAckEff m s)

/-- The 5 ms settle after partner loss ends and the owner runs alone. (R533.) -/
def execPairSettleEnd (s : State) : Host.Outcome State Fault Refusal := done s (settleEndEff s)

/-- A detach message from the owner stops mirroring and sets the partner unit OFFLINE at the non-owner. (R527.) -/
def execPartnerDetach (s : State) : Host.Outcome State Fault Refusal := done s (detachEff s)

/-- The copy of the owner's state completes and the stream catches up, and the partner becomes READY or DEGRADED.
(R538.) -/
def execResyncComplete (s : State) : Host.Outcome State Fault Refusal := done s (resyncDoneEff s)

/-- The partner's validation of a pair APPLY image ends, and both devices enter S3 or APPLY is refused. (R539.) -/
def execPairApplyValidated (code : Nat) (bytes : List Byte) (s : State) : Host.Outcome State Fault Refusal :=
  done s (pairValidatedEff code bytes s)

/-- The owner's heartbeats resume, or 10 s pass, ending the suspension of the partner-loss rule. (R539.) -/
def execPairApplyWaitEnd (s : State) : Host.Outcome State Fault Refusal := done s (pairWaitEndEff s)

end Sys2Proof.Machine
end

