-- ==== Sys2Proof/Machine/CmdBus.lean ====
section
/-! DEFINITION. Meanings of the commands: the TAP, the register accesses, the configuration space and the outside events of the ports (chapters 19, 20, 15, 17, 08). -/

namespace Sys2Proof.Machine

/-- An Update-DR of the REGACC data register performs a BAR0 read or write within 2 µs. (R572.) -/
def execRegacc (w : BitVec 58) (s : State) : Host.Outcome State Fault Refusal := done s (regAccEff w s)

/-- The TAP instruction EXTEST drives the pins from the boundary cells. (R571.) -/
def execExtest (s : State) : Host.Outcome State Fault Refusal := done s (extestEff s)

/-- The TAP instruction IDCODE selects the 0x1916_03EB identification register. (R571.) -/
def execIdcode (s : State) : Host.Outcome State Fault Refusal := done s (idcodeEff s)

/-- The TAP instruction SAMPLE/PRELOAD samples the pins and preloads the boundary cells. (R571.) -/
def execSamplePreload (sampled : Nat) (cells : List Bool) (s : State) : Host.Outcome State Fault Refusal :=
  done s (samplePreloadEff sampled cells s)

/-- The TAP instruction HIGHZ puts the outputs in high impedance. (R571.) -/
def execHighz (s : State) : Host.Outcome State Fault Refusal := done s (highzEff s)

/-- The TAP instruction CLAMP holds the outputs from the boundary cells with bypass selected. (R571.) -/
def execClamp (s : State) : Host.Outcome State Fault Refusal := done s (clampEff s)

/-- The TAP instruction EXTEST_PULSE drives IEEE 1149.6 pulses on the AC-coupled lanes. (R571.) -/
def execExtestPulse (s : State) : Host.Outcome State Fault Refusal := done s (extestPulseEff s)

/-- The TAP instruction EXTEST_TRAIN drives IEEE 1149.6 pulse trains on the AC-coupled lanes. (R571.) -/
def execExtestTrain (s : State) : Host.Outcome State Fault Refusal := done s (extestTrainEff s)

/-- The TAP instruction BYPASS, or any unlisted code, selects the bypass register. (R571.) -/
def execBypass (code : Nat) (s : State) : Host.Outcome State Fault Refusal := done s (bypassEff code s)

/-- A BAR0 write to a register with no behaviour of its own updates its fields under their access types. (R14.) -/
def execRegisterWrite (f off size v : Nat) (s : State) : Host.Outcome State Fault Refusal := done s (barWrite f off size v s)

/-- A read of an RC counter returns its value and then clears it. (R10.) -/
def execRcCounterRead (f off size : Nat) (s : State) : Host.Outcome State Fault Refusal := done s (barRead f off size s)

/-- A read of NAME_LO captures NAME_HI into a holding copy for the next read of NAME_HI. (R15.) -/
def execReg64LoRead (f off size : Nat) (s : State) : Host.Outcome State Fault Refusal := done s (barRead f off size s)

/-- A PCIe configuration request is answered with CRS or normally, and its writes set VF Enable, NumVFs, Bus Master
Enable, MSI-X Enable or the D-state, with the effects of R337, R340, R367 and R374. (R470.) -/
def execConfigurationRequest (f : Nat) (q : ConfigReq) (s : State) : Host.Outcome State Fault Refusal := done s (configEff f q s)

/-- The 100 MHz PCIe reference returns, and link training, which waits for it, starts. (R470.) -/
def execPcieRefPresent (s : State) : Host.Outcome State Fault Refusal := done s (refPresentEff s)

/-- The SGMII link comes up or goes down, updating MGT_STATUS.LINK and setting MGT_EVT.LINK_CHANGE. (R62.) -/
def execSgmiiLinkChange (up : Bool) (s : State) : Host.Outcome State Fault Refusal := done s (sgmiiEff up s)

/-- A DHCP or SLAAC exchange gives the management port a new address, updating MGT_IPV4 or MGT_IPV6 and setting
MGT_EVT.ADDR_CHANGE. (R514.) -/
def execAddrChange (v6 : Bool) (a : List Byte) (s : State) : Host.Outcome State Fault Refusal := done s (addrChangeEff v6 a s)

/-- The PTP clock loses its master, MGT_STATUS.PTP falls back and MGT_EVT.PTP_LOST is set. (R518.) -/
def execPtpLost (s : State) : Host.Outcome State Fault Refusal := done s (ptpLostEff s)

/-- At the primary, 2 s pass after S6 with PAIR_OWN_N high and no link up, and it claims ownership. (R528.) -/
def execOwnerLinkWaitExpiry (ownHigh : Bool) (s : State) : Host.Outcome State Fault Refusal := done s (ownerLinkWaitEff ownHigh s)

/-- A DMP message with a bad CHECK, MAGIC, VERSION, length or DECK_ID, or of type EVENT, is dropped, and one of an
unlisted type is answered INVALID_FIELD. (R514.) -/
def execDmpMessageDropped (a q : Nat) (b : List Byte) (s : State) : Host.Outcome State Fault Refusal :=
  done s (messageEff (.station a q) b s)

/-- At every 125 CLK_LOOP cycles a servo ADC conversion slot runs, the holds take place at phases 125 and 625, and the
mid-scale reference check may set LPE_GEVT.ADC_REF. (R249.) -/
def execServoConversionSlot (m : Nat) (codes : List Nat) (s : State) : Host.Outcome State Fault Refusal :=
  done s (conversionEff m codes s)

/-- At phases 400 + 125m each actuator DAC updates, stepping towards the new code when INTERP is 1. (R254.) -/
def execDacUpdate (s : State) : Host.Outcome State Fault Refusal := done s (dacUpdateEff s)

end Sys2Proof.Machine
end

