-- ==== Sys2Proof/Machine/Dispatch.lean ====
section
/-! DEFINITION. The dispatch: one arm per command, each a direct call of its meaning. -/

namespace Sys2Proof.Machine

def exec (i : Instr) (s : State) : Host.Outcome State Fault Refusal :=
  match i with
  | .coldReset => Sys2Proof.Machine.execColdReset s
  | .railFail => Sys2Proof.Machine.execRailFail s
  | .railsGood => Sys2Proof.Machine.execRailsGood s
  | .internalHoldEnd => Sys2Proof.Machine.execInternalHoldEnd s
  | .pllLock => Sys2Proof.Machine.execPllLock s
  | .resetNAssert => Sys2Proof.Machine.execResetNAssert s
  | .resetNRise straps => Sys2Proof.Machine.execResetNRise straps s
  | .softWarmReset v same => Sys2Proof.Machine.execSoftWarmReset v same s
  | .clockLoss => Sys2Proof.Machine.execClockLoss s
  | .clockRelock => Sys2Proof.Machine.execClockRelock s
  | .romCheckDone ok => Sys2Proof.Machine.execRomCheckDone ok s
  | .flashReadComplete fast hdrA hdrB bytes => Sys2Proof.Machine.execFlashReadComplete fast hdrA hdrB bytes s
  | .pairImageReceived bytes => Sys2Proof.Machine.execPairImageReceived bytes s
  | .pairFollowTimeout => Sys2Proof.Machine.execPairFollowTimeout s
  | .bistDone fails => Sys2Proof.Machine.execBistDone fails s
  | .ddrTrainingDone ok0 ok1 org0 org1 => Sys2Proof.Machine.execDdrTrainingDone ok0 ok1 org0 org1 s
  | .bringupDone ownHigh => Sys2Proof.Machine.execBringupDone ownHigh s
  | .arm answers => Sys2Proof.Machine.execArm answers s
  | .runEntry => Sys2Proof.Machine.execRunEntry s
  | .perstNAssert => Sys2Proof.Machine.execPerstNAssert s
  | .perstNRelease => Sys2Proof.Machine.execPerstNRelease s
  | .pcieRefLost => Sys2Proof.Machine.execPcieRefLost s
  | .xtalPpmMeasure v => Sys2Proof.Machine.execXtalPpmMeasure v s
  | .pwrfailAssert t5 t6 same => Sys2Proof.Machine.execPwrfailAssert t5 t6 same s
  | .pwrfailRecover => Sys2Proof.Machine.execPwrfailRecover s
  | .policyWatchdogExpiry => Sys2Proof.Machine.execPolicyWatchdogExpiry s
  | .watchdogRestartRequest => Sys2Proof.Machine.execWatchdogRestartRequest s
  | .thermalSensorRead temps => Sys2Proof.Machine.execThermalSensorRead temps s
  | .thermalCeilingStep => Sys2Proof.Machine.execThermalCeilingStep s
  | .fetch => Sys2Proof.Machine.execFetch s
  | .fetchReadComplete bytes => Sys2Proof.Machine.execFetchReadComplete bytes s
  | .quiesce => Sys2Proof.Machine.execQuiesce s
  | .quiesceComplete => Sys2Proof.Machine.execQuiesceComplete s
  | .resume => Sys2Proof.Machine.execResume s
  | .apply key => Sys2Proof.Machine.execApply key s
  | .progA key => Sys2Proof.Machine.execProgA key s
  | .progB key => Sys2Proof.Machine.execProgB key s
  | .progComplete same => Sys2Proof.Machine.execProgComplete same s
  | .burnKey key => Sys2Proof.Machine.execBurnKey key s
  | .burnEnforce key => Sys2Proof.Machine.execBurnEnforce key s
  | .burnNorom key => Sys2Proof.Machine.execBurnNorom key s
  | .burnRevoke key n => Sys2Proof.Machine.execBurnRevoke key n s
  | .mountStart => Sys2Proof.Machine.execMountStart s
  | .mountStepDone d => Sys2Proof.Machine.execMountStepDone d s
  | .mountComplete => Sys2Proof.Machine.execMountComplete s
  | .importIdentify found => Sys2Proof.Machine.execImportIdentify found s
  | .slotStart g lf zone slot pre prev => Sys2Proof.Machine.execSlotStart g lf zone slot pre prev s
  | .zoneSeedFetch c lf zone => Sys2Proof.Machine.execZoneSeedFetch c lf zone s
  | .zoneSeedReady c => Sys2Proof.Machine.execZoneSeedReady c s
  | .timingLost g pos => Sys2Proof.Machine.execTimingLost g pos s
  | .segmentEnd g => Sys2Proof.Machine.execSegmentEnd g s
  | .wedgeCrossing g w ivl m => Sys2Proof.Machine.execWedgeCrossing g w ivl m s
  | .wedgeMissRev g => Sys2Proof.Machine.execWedgeMissRev g s
  | .defectFlagStart g pos => Sys2Proof.Machine.execDefectFlagStart g pos s
  | .defectFlagEnd g pos => Sys2Proof.Machine.execDefectFlagEnd g pos s
  | .sectorDelivery g addr pass => Sys2Proof.Machine.execSectorDelivery g addr pass s
  | .chnForceSyncMiss g => Sys2Proof.Machine.execChnForceSyncMiss g s
  | .chnForceDefect g => Sys2Proof.Machine.execChnForceDefect g s
  | .poolJobDispatch redet idx => Sys2Proof.Machine.execPoolJobDispatch redet idx s
  | .poolJobComplete redet idx => Sys2Proof.Machine.execPoolJobComplete redet idx s
  | .l4SpeedReached => Sys2Proof.Machine.execL4SpeedReached s
  | .skeinEngineComplete n => Sys2Proof.Machine.execSkeinEngineComplete n s
  | .importClusterDecode layer cluster res => Sys2Proof.Machine.execImportClusterDecode layer cluster res s
  | .decPauseRecovery on => Sys2Proof.Machine.execDecPauseRecovery on s
  | .decForceEf on => Sys2Proof.Machine.execDecForceEf on s
  | .relocPause on => Sys2Proof.Machine.execRelocPause on s
  | .knotIntervalExpiry buf => Sys2Proof.Machine.execKnotIntervalExpiry buf s
  | .passStart c => Sys2Proof.Machine.execPassStart c s
  | .preRead c written => Sys2Proof.Machine.execPreRead c written s
  | .passWriteEnd c => Sys2Proof.Machine.execPassWriteEnd c s
  | .verifyRevolutionEnd c => Sys2Proof.Machine.execVerifyRevolutionEnd c s
  | .pdlFrame c resp => Sys2Proof.Machine.execPdlFrame c resp s
  | .drvStatusPoll c st => Sys2Proof.Machine.execDrvStatusPoll c st s
  | .wrpPdlCmd c frame => Sys2Proof.Machine.execWrpPdlCmd c frame s
  | .retryHeld => Sys2Proof.Machine.execRetryHeld s
  | .writeInhibit on => Sys2Proof.Machine.execWriteInhibit on s
  | .laserIlkAssert => Sys2Proof.Machine.execLaserIlkAssert s
  | .interlockRelease => Sys2Proof.Machine.execInterlockRelease s
  | .knotReady elapsed => Sys2Proof.Machine.execKnotReady elapsed s
  | .knotVerified key => Sys2Proof.Machine.execKnotVerified key s
  | .hankDispatch n => Sys2Proof.Machine.execHankDispatch n s
  | .hankCodeComplete n sound => Sys2Proof.Machine.execHankCodeComplete n sound s
  | .hankDecompressComplete n sound => Sys2Proof.Machine.execHankDecompressComplete n sound s
  | .hankRestore n => Sys2Proof.Machine.execHankRestore n s
  | .hankRestoreDone n pass => Sys2Proof.Machine.execHankRestoreDone n pass s
  | .hankForceMismatch on => Sys2Proof.Machine.execHankForceMismatch on s
  | .basePeriod volts parity => Sys2Proof.Machine.execBasePeriod volts parity s
  | .loopOverrun k => Sys2Proof.Machine.execLoopOverrun k s
  | .loopOutputWrite => Sys2Proof.Machine.execLoopOutputWrite s
  | .loopLostLock k => Sys2Proof.Machine.execLoopLostLock k s
  | .loopFault k => Sys2Proof.Machine.execLoopFault k s
  | .carriageReacquireTimeout c => Sys2Proof.Machine.execCarriageReacquireTimeout c s
  | .loopEnable k => Sys2Proof.Machine.execLoopEnable k s
  | .loopDisable k => Sys2Proof.Machine.execLoopDisable k s
  | .loopSwap k => Sys2Proof.Machine.execLoopSwap k s
  | .loopPark k => Sys2Proof.Machine.execLoopPark k s
  | .loopClrFault k => Sys2Proof.Machine.execLoopClrFault k s
  | .loopFollow k on => Sys2Proof.Machine.execLoopFollow k on s
  | .coefDataAccess k write => Sys2Proof.Machine.execCoefDataAccess k write s
  | .lpeForceOvr k on => Sys2Proof.Machine.execLpeForceOvr k on s
  | .traceInEdge n cycles dirHigh => Sys2Proof.Machine.execTraceInEdge n cycles dirHigh s
  | .traceLost n => Sys2Proof.Machine.execTraceLost n s
  | .pwmTop pinMv => Sys2Proof.Machine.execPwmTop pinMv s
  | .pwmCentre cu cv cw => Sys2Proof.Machine.execPwmCentre cu cv cw s
  | .rotorLoss => Sys2Proof.Machine.execRotorLoss s
  | .spnComparatorEdge ph rising => Sys2Proof.Machine.execSpnComparatorEdge ph rising s
  | .spnStart => Sys2Proof.Machine.execSpnStart s
  | .spnStop => Sys2Proof.Machine.execSpnStop s
  | .spnClrFault => Sys2Proof.Machine.execSpnClrFault s
  | .spnForceLoss => Sys2Proof.Machine.execSpnForceLoss s
  | .coastSenseDone => Sys2Proof.Machine.execCoastSenseDone s
  | .catchMade => Sys2Proof.Machine.execCatchMade s
  | .catchTimeout => Sys2Proof.Machine.execCatchTimeout s
  | .brakeDone => Sys2Proof.Machine.execBrakeDone s
  | .brakeTimeout => Sys2Proof.Machine.execBrakeTimeout s
  | .alignDone ampD ampQ peakP peakN => Sys2Proof.Machine.execAlignDone ampD ampQ peakP peakN s
  | .runupDone => Sys2Proof.Machine.execRunupDone s
  | .runupTimeout => Sys2Proof.Machine.execRunupTimeout s
  | .spindleReady => Sys2Proof.Machine.execSpindleReady s
  | .lockedRotor => Sys2Proof.Machine.execLockedRotor s
  | .lockedWaitDone => Sys2Proof.Machine.execLockedWaitDone s
  | .recatchOk => Sys2Proof.Machine.execRecatchOk s
  | .recatchTimeout => Sys2Proof.Machine.execRecatchTimeout s
  | .stoppingDone => Sys2Proof.Machine.execStoppingDone s
  | .rateMatchCompute d c ahead => Sys2Proof.Machine.execRateMatchCompute d c ahead s
  | .sledPwmSample c code1 code2 => Sys2Proof.Machine.execSledPwmSample c code1 code2 s
  | .profileTick c => Sys2Proof.Machine.execProfileTick c s
  | .stepTimerExpiry c => Sys2Proof.Machine.execStepTimerExpiry c s
  | .homeEdge c active => Sys2Proof.Machine.execHomeEdge c active s
  | .homingFail c => Sys2Proof.Machine.execHomingFail c s
  | .seekRequest c lf turn => Sys2Proof.Machine.execSeekRequest c lf turn s
  | .seekSettleDone c => Sys2Proof.Machine.execSeekSettleDone c s
  | .capture c => Sys2Proof.Machine.execCapture c s
  | .captureTimeout c => Sys2Proof.Machine.execCaptureTimeout c s
  | .fineDone c => Sys2Proof.Machine.execFineDone c s
  | .layerJumpDone c => Sys2Proof.Machine.execLayerJumpDone c s
  | .turnJumpDone c => Sys2Proof.Machine.execTurnJumpDone c s
  | .crgCmdSeek c lf turn => Sys2Proof.Machine.execCrgCmdSeek c lf turn s
  | .crgCmdHome c => Sys2Proof.Machine.execCrgCmdHome c s
  | .crgCmdMove c => Sys2Proof.Machine.execCrgCmdMove c s
  | .crgClrFault c => Sys2Proof.Machine.execCrgClrFault c s
  | .crgForceSlip c => Sys2Proof.Machine.execCrgForceSlip c s
  | .camCommit v => Sys2Proof.Machine.execCamCommit v s
  | .camEngage t on => Sys2Proof.Machine.execCamEngage t on s
  | .camTimeReset t => Sys2Proof.Machine.execCamTimeReset t s
  | .camPtDataAccess write => Sys2Proof.Machine.execCamPtDataAccess write s
  | .doorbell f off size v => Sys2Proof.Machine.execDoorbell f off size v s
  | .contextLoadComplete r desc => Sys2Proof.Machine.execContextLoadComplete r desc s
  | .contextFreed => Sys2Proof.Machine.execContextFreed s
  | .ringInvalidate f r => Sys2Proof.Machine.execRingInvalidate f r s
  | .ringInvalidateDone r => Sys2Proof.Machine.execRingInvalidateDone r s
  | .ringQuery f r => Sys2Proof.Machine.execRingQuery f r s
  | .grant b aux => Sys2Proof.Machine.execGrant b aux s
  | .uTokenRefill => Sys2Proof.Machine.execUTokenRefill s
  | .nop t => Sys2Proof.Machine.execNop t s
  | .read t => Sys2Proof.Machine.execRead t s
  | .write t => Sys2Proof.Machine.execWrite t s
  | .flush t => Sys2Proof.Machine.execFlush t s
  | .abort t => Sys2Proof.Machine.execAbort t s
  | .volumeCreate t => Sys2Proof.Machine.execVolumeCreate t s
  | .volumeClose t => Sys2Proof.Machine.execVolumeClose t s
  | .volumeInfo => Sys2Proof.Machine.execVolumeInfo s
  | .importRead t => Sys2Proof.Machine.execImportRead t s
  | .unitQuery => Sys2Proof.Machine.execUnitQuery s
  | .unitRequestOffline => Sys2Proof.Machine.execUnitRequestOffline s
  | .unitRequestReady => Sys2Proof.Machine.execUnitRequestReady s
  | .unitRequestService => Sys2Proof.Machine.execUnitRequestService s
  | .bufferChannelServiceReady => Sys2Proof.Machine.execBufferChannelServiceReady s
  | .assertPresent answers => Sys2Proof.Machine.execAssertPresent answers s
  | .assertAbsent answers => Sys2Proof.Machine.execAssertAbsent answers s
  | .calibrateChannel => Sys2Proof.Machine.execCalibrateChannel s
  | .calibrateServoLayer => Sys2Proof.Machine.execCalibrateServoLayer s
  | .calibrateServoRadius => Sys2Proof.Machine.execCalibrateServoRadius s
  | .calibrateWritePower => Sys2Proof.Machine.execCalibrateWritePower s
  | .calibrateSledHome => Sys2Proof.Machine.execCalibrateSledHome s
  | .calibrateSpindle => Sys2Proof.Machine.execCalibrateSpindle s
  | .selfTestParity => Sys2Proof.Machine.execSelfTestParity s
  | .selfTestMram => Sys2Proof.Machine.execSelfTestMram s
  | .selfTestMemBist => Sys2Proof.Machine.execSelfTestMemBist s
  | .drainComplete u => Sys2Proof.Machine.execDrainComplete u s
  | .calibrationEnd u d => Sys2Proof.Machine.execCalibrationEnd u d s
  | .calibrationTimeout u => Sys2Proof.Machine.execCalibrationTimeout u s
  | .calForceCheckerFail => Sys2Proof.Machine.execCalForceCheckerFail s
  | .commandRun t => Sys2Proof.Machine.execCommandRun t s
  | .writeHeldPoint t data => Sys2Proof.Machine.execWriteHeldPoint t data s
  | .writeBehindSpace => Sys2Proof.Machine.execWriteBehindSpace s
  | .suspectHoldExpiry t => Sys2Proof.Machine.execSuspectHoldExpiry t s
  | .lockWaitLong t => Sys2Proof.Machine.execLockWaitLong t s
  | .genLookup => Sys2Proof.Machine.execGenLookup s
  | .replayClear => Sys2Proof.Machine.execReplayClear s
  | .completionPost r => Sys2Proof.Machine.execCompletionPost r s
  | .coalesceTimerExpiry r => Sys2Proof.Machine.execCoalesceTimerExpiry r s
  | .msixUnmask f v => Sys2Proof.Machine.execMsixUnmask f v s
  | .flr f => Sys2Proof.Machine.execFlr f s
  | .flrEnd f => Sys2Proof.Machine.execFlrEnd f s
  | .cacheRequest r issued walked tags err => Sys2Proof.Machine.execCacheRequest r issued walked tags err s
  | .fillBeat l beat => Sys2Proof.Machine.execFillBeat l beat s
  | .writebackComplete l => Sys2Proof.Machine.execWritebackComplete l s
  | .cacheClean force whole => Sys2Proof.Machine.execCacheClean force whole s
  | .cacheCleanInv force whole => Sys2Proof.Machine.execCacheCleanInv force whole s
  | .invDone => Sys2Proof.Machine.execInvDone s
  | .cacheLock => Sys2Proof.Machine.execCacheLock s
  | .cacheUnlock all_ => Sys2Proof.Machine.execCacheUnlock all_ s
  | .cacheDisable => Sys2Proof.Machine.execCacheDisable s
  | .cacheCleaningDone => Sys2Proof.Machine.execCacheCleaningDone s
  | .cacheEnable => Sys2Proof.Machine.execCacheEnable s
  | .bcForceDataParity => Sys2Proof.Machine.execBcForceDataParity s
  | .bcForceTwinParity => Sys2Proof.Machine.execBcForceTwinParity s
  | .bar2Access off len write bad => Sys2Proof.Machine.execBar2Access off len write bad s
  | .memoryReadReturn port addr lanes replays persists use bad => Sys2Proof.Machine.execMemoryReadReturn port addr lanes replays persists use bad s
  | .parityRepair rereadOk written => Sys2Proof.Machine.execParityRepair rereadOk written s
  | .refreshDue urgent idle => Sys2Proof.Machine.execRefreshDue urgent idle s
  | .dramTempPoll hot => Sys2Proof.Machine.execDramTempPoll hot s
  | .pointChangeBegin => Sys2Proof.Machine.execPointChangeBegin s
  | .pointChangeDrained => Sys2Proof.Machine.execPointChangeDrained s
  | .scrubRead => Sys2Proof.Machine.execScrubRead s
  | .scrubRestart => Sys2Proof.Machine.execScrubRestart s
  | .intForceParity => Sys2Proof.Machine.execIntForceParity s
  | .mramRecordWrite => Sys2Proof.Machine.execMramRecordWrite s
  | .mramWriteDone same => Sys2Proof.Machine.execMramWriteDone same s
  | .countersSaveHourly => Sys2Proof.Machine.execCountersSaveHourly s
  | .discPresentChange active carts => Sys2Proof.Machine.execDiscPresentChange active carts s
  | .dmpDiscover m reqId zero => Sys2Proof.Machine.execDmpDiscover m reqId zero s
  | .dmpUnitQuery m reqId u => Sys2Proof.Machine.execDmpUnitQuery m reqId u s
  | .dmpUnitRequest m reqId u code epoch => Sys2Proof.Machine.execDmpUnitRequest m reqId u code epoch s
  | .dmpCalibrate m reqId u code scope => Sys2Proof.Machine.execDmpCalibrate m reqId u code scope s
  | .dmpSelfTest m reqId u code scope => Sys2Proof.Machine.execDmpSelfTest m reqId u code scope s
  | .dmpVolumeInfo m reqId v => Sys2Proof.Machine.execDmpVolumeInfo m reqId v s
  | .policyGet m reqId id => Sys2Proof.Machine.execPolicyGet m reqId id s
  | .policySet m reqId id v => Sys2Proof.Machine.execPolicySet m reqId id v s
  | .netSet m reqId b => Sys2Proof.Machine.execNetSet m reqId b s
  | .netSetApply => Sys2Proof.Machine.execNetSetApply s
  | .regRead m reqId off count => Sys2Proof.Machine.execRegRead m reqId off count s
  | .eventSubscribe m reqId mask fromSeq => Sys2Proof.Machine.execEventSubscribe m reqId mask fromSeq s
  | .subscriberExpiry a q => Sys2Proof.Machine.execSubscriberExpiry a q s
  | .eventRead m reqId fromSeq count => Sys2Proof.Machine.execEventRead m reqId fromSeq count s
  | .imageBegin m reqId size => Sys2Proof.Machine.execImageBegin m reqId size s
  | .imageData m reqId off b => Sys2Proof.Machine.execImageData m reqId off b s
  | .imageEnd m reqId => Sys2Proof.Machine.execImageEnd m reqId s
  | .imageCmd m reqId cmd => Sys2Proof.Machine.execImageCmd m reqId cmd s
  | .dmpDuplicateExpiry a q reqId => Sys2Proof.Machine.execDmpDuplicateExpiry a q reqId s
  | .i3cPrivateWrite b => Sys2Proof.Machine.execI3cPrivateWrite b s
  | .i3cPrivateRead => Sys2Proof.Machine.execI3cPrivateRead s
  | .enec events => Sys2Proof.Machine.execEnec events s
  | .disec events => Sys2Proof.Machine.execDisec events s
  | .rstdaa => Sys2Proof.Machine.execRstdaa s
  | .entdaa a => Sys2Proof.Machine.execEntdaa a s
  | .setdasa static a => Sys2Proof.Machine.execSetdasa static a s
  | .getpid => Sys2Proof.Machine.execGetpid s
  | .getbcr => Sys2Proof.Machine.execGetbcr s
  | .getdcr => Sys2Proof.Machine.execGetdcr s
  | .getstatus => Sys2Proof.Machine.execGetstatus s
  | .getmwl => Sys2Proof.Machine.execGetmwl s
  | .getmrl => Sys2Proof.Machine.execGetmrl s
  | .setmwl n => Sys2Proof.Machine.execSetmwl n s
  | .setmrl n => Sys2Proof.Machine.execSetmrl n s
  | .ptpSync ofs => Sys2Proof.Machine.execPtpSync ofs s
  | .mgtLogRdWrite v => Sys2Proof.Machine.execMgtLogRdWrite v s
  | .linkTrainDone lanes => Sys2Proof.Machine.execLinkTrainDone lanes s
  | .linkTrainRetry => Sys2Proof.Machine.execLinkTrainRetry s
  | .laneError lane => Sys2Proof.Machine.execLaneError lane s
  | .jokorFrame ok => Sys2Proof.Machine.execJokorFrame ok s
  | .pairHello role digest deck stg wants ownHigh => Sys2Proof.Machine.execPairHello role digest deck stg wants ownHigh s
  | .heartbeatSend => Sys2Proof.Machine.execHeartbeatSend s
  | .heartbeatReceive h => Sys2Proof.Machine.execHeartbeatReceive h s
  | .partnerLost => Sys2Proof.Machine.execPartnerLost s
  | .bootWaitExpiry ownHigh => Sys2Proof.Machine.execBootWaitExpiry ownHigh s
  | .ownNetHigh late outUs => Sys2Proof.Machine.execOwnNetHigh late outUs s
  | .claimTimeout => Sys2Proof.Machine.execClaimTimeout s
  | .peerResetRelease => Sys2Proof.Machine.execPeerResetRelease s
  | .handover key => Sys2Proof.Machine.execHandover key s
  | .handoverMessage => Sys2Proof.Machine.execHandoverMessage s
  | .handoverAck => Sys2Proof.Machine.execHandoverAck s
  | .handoverTimeout => Sys2Proof.Machine.execHandoverTimeout s
  | .peerReset key => Sys2Proof.Machine.execPeerReset key s
  | .peerResetEnd => Sys2Proof.Machine.execPeerResetEnd s
  | .forwardedCommand f => Sys2Proof.Machine.execForwardedCommand f s
  | .journalEntry e => Sys2Proof.Machine.execJournalEntry e s
  | .journalAck seq => Sys2Proof.Machine.execJournalAck seq s
  | .forwardResult o => Sys2Proof.Machine.execForwardResult o s
  | .mirrorReceive d => Sys2Proof.Machine.execMirrorReceive d s
  | .mirrorAck m => Sys2Proof.Machine.execMirrorAck m s
  | .pairSettleEnd => Sys2Proof.Machine.execPairSettleEnd s
  | .partnerDetach => Sys2Proof.Machine.execPartnerDetach s
  | .resyncComplete => Sys2Proof.Machine.execResyncComplete s
  | .pairApplyValidated code bytes => Sys2Proof.Machine.execPairApplyValidated code bytes s
  | .pairApplyWaitEnd => Sys2Proof.Machine.execPairApplyWaitEnd s
  | .regacc w => Sys2Proof.Machine.execRegacc w s
  | .extest => Sys2Proof.Machine.execExtest s
  | .idcode => Sys2Proof.Machine.execIdcode s
  | .samplePreload sampled cells => Sys2Proof.Machine.execSamplePreload sampled cells s
  | .highz => Sys2Proof.Machine.execHighz s
  | .clamp => Sys2Proof.Machine.execClamp s
  | .extestPulse => Sys2Proof.Machine.execExtestPulse s
  | .extestTrain => Sys2Proof.Machine.execExtestTrain s
  | .bypass code => Sys2Proof.Machine.execBypass code s
  | .registerWrite f off size v => Sys2Proof.Machine.execRegisterWrite f off size v s
  | .rcCounterRead f off size => Sys2Proof.Machine.execRcCounterRead f off size s
  | .reg64LoRead f off size => Sys2Proof.Machine.execReg64LoRead f off size s
  | .configurationRequest f q => Sys2Proof.Machine.execConfigurationRequest f q s
  | .pcieRefPresent => Sys2Proof.Machine.execPcieRefPresent s
  | .sgmiiLinkChange up => Sys2Proof.Machine.execSgmiiLinkChange up s
  | .addrChange v6 a => Sys2Proof.Machine.execAddrChange v6 a s
  | .ptpLost => Sys2Proof.Machine.execPtpLost s
  | .ownerLinkWaitExpiry ownHigh => Sys2Proof.Machine.execOwnerLinkWaitExpiry ownHigh s
  | .dmpMessageDropped a q b => Sys2Proof.Machine.execDmpMessageDropped a q b s
  | .servoConversionSlot m codes => Sys2Proof.Machine.execServoConversionSlot m codes s
  | .dacUpdate => Sys2Proof.Machine.execDacUpdate s

end Sys2Proof.Machine
end

