-- ==== Sys2Proof/Machine/Step.lean ====
section
/-! DEFINITION. A step of the block: the command at the front of the queue, or one tick of CLK_PWM on an empty queue. -/

namespace Sys2Proof.Machine

/-- One tick of the 100 MHz clock that deck time counts in (R518): 10 ns, and the slew of its PTP clock. DESIGN CHOICE: it
stands in place of idling. -/
def tick (s : State) : State :=
  if s.pwr.counting then
    let f := s.mgt.ptpFrac + 10 * s.mgt.ptpRate
    { s with
      pwr := { s.pwr with ticks := s.pwr.ticks + 1, time := ((s.pwr.time : Int) + 10 + f / 1000000).toNat }
      mgt := { s.mgt with ptpFrac := f % 1000000 } }
  else s

/-- One step: the oldest waiting command runs with the rest of the queue; with none waiting, time passes. -/
def step (s : State) : Host.Outcome State Fault Refusal :=
  match s.pending with
  | [] => .next (tick s)
  | c :: cs => exec c { s with pending := cs }

/-- The table gives no row any bits, so a word spells no command and the queue stays as it is. -/
def State.withFetchWord (s : State) (nbits w : Nat) : State :=
  match decodeTableWord nbits w with
  | some c => { s with pending := c :: s.pending }
  | none => s

end Sys2Proof.Machine
end

