-- ==== Sys2Proof/Safety.lean ====
section
/-! DEFINITION. What counts as a safe state, in the terms that the statements use: the levels of the safe outputs (R462,
R218), and what a step may never undo. -/

namespace Sys2Proof.Safety

open Sys2Proof.Machine

/-- Every safe output of Table 15-4 is in high impedance. -/
def released (p : PinState) : Prop :=
  p.driven = false ∧ p.spnGates = false ∧ (∀ b ∈ p.len, b = false) ∧ (∀ b ∈ p.wgate, b = false) ∧
    (∀ b ∈ p.dacOn, b = false) ∧ (∀ b ∈ p.sledGates, b = false)

/-- No laser enable and no write gate is asserted. -/
def lasersOff (p : PinState) : Prop := (∀ b ∈ p.len, b = false) ∧ (∀ b ∈ p.wgate, b = false)

/-- R462 and R218: outputs held off are released, and no laser or write gate is on while the interlock is asserted. -/
def outputsSafe (s : State) : Prop :=
  (outputsOff s = true → released s.pins) ∧ (s.pwr.ilk = true → lasersOff s.pins)

/-- Fuses of a later state keep every fuse of an earlier one (R63, R75). -/
def fusesKept (old new : Fuses) : Prop :=
  (old.keyBurnt = true → new.keyBurnt = true ∧ new.keyDigest = old.keyDigest) ∧
    (old.enforce = true → new.enforce = true) ∧ (old.noRom = true → new.noRom = true) ∧
    (∀ i, old.revoke.getLsbD i = true → new.revoke.getLsbD i = true) ∧ new.uid = old.uid ∧ new.grade = old.grade

/-- Command i, in state s, ends in a next state of which P holds. -/
def completes (i : Instr) (s : State) (P : State → Prop) : Prop := ∃ t, exec i s = .next t ∧ P t

/-- Every register of the file holds in t what it held in s, but for those at the offsets of S. -/
def regsKeptBut (S : List Nat) (s t : State) : Prop := ∀ off, off ∉ S → getReg t off = getReg s off

/-- The registers that raising an event may change beside its EVT register (R511, R520). -/
def eventRegs : List Nat :=
  [Reg.MGT_LOG_WR_LO, Reg.MGT_LOG_WR_LO + 4, Reg.MGT_CNT + 20, Reg.MGT_CNT + 24, Reg.MGT_EVT, Reg.HQ_CNT + 24]

/-- Command c is on tag n, and its completion will be posted: no reset of its function has silenced it. -/
def onTag (s : State) (n : Nat) (c : Cmd) : Prop := cmdOf s n = some c ∧ c.silent = false ∧ c.detached = false

/-- The command on tag n has ended with a status and a RESULT. -/
def endedAs (s : State) (n : Nat) (st : Status) (result : Nat) : Prop :=
  ∃ c, cmdOf s n = some c ∧ c.state = .ended ∧ c.status = st ∧ c.result = result

/-- Every byte of buffer memory and of the scratchpad reads as before. -/
def memoryKept (s t : State) : Prop :=
  (∀ a, Tbl.get 0#8 a t.mem.bytes = Tbl.get 0#8 a s.mem.bytes) ∧ (∀ a, Tbl.get 0#8 a t.bc.scratch = Tbl.get 0#8 a s.bc.scratch)

/-- Everything in t but the register file and the output levels is as in s: no unit, command, medium or memory changed. -/
def onlyRegisters (s t : State) : Prop :=
  t.pwr = s.pwr ∧ t.img = s.img ∧ t.unt = s.unt ∧ t.cal = s.cal ∧ t.tap = s.tap ∧ t.mgt = s.mgt ∧ t.mram = s.mram ∧
    t.mem = s.mem ∧ t.bc = s.bc ∧ t.host = s.host ∧ t.media = s.media ∧ t.mot = s.mot ∧ t.chn = s.chn ∧ t.pool = s.pool ∧
    t.pair = s.pair ∧ t.out = s.out ∧ t.free = s.free ∧ t.pending = s.pending

/-- Every table of the state that has one entry per instance of a unit has its number of entries (Table 01-1), and the
table of the commands in flight lists each tag once. -/
def tablesWhole (s : State) : Prop :=
  s.chn.strands.length = 32 ∧ s.mot.slots.length = 32 ∧ s.mot.cars.length = 4 ∧ s.mot.cams.length = 64 ∧
    s.mot.traces.length = 4 ∧ s.mot.dacs.length = 20 ∧ s.mot.pd1.length = 48 ∧ s.mot.pd2.length = 48 ∧
    s.media.cars.length = 4 ∧ s.media.hank.engines.length = 6 ∧ s.pool.engines.length = 12 ∧ s.pool.redets.length = 8 ∧
    Tbl.sorted s.host.cmds = true

/-- The buffer memory and the scratchpad are in canonical form: addresses rising, no byte equal to what an unlisted one
reads as. -/
def memoryWf (s : State) : Prop := Memory.wf s.mem.bytes = true ∧ Memory.wf s.bc.scratch = true

/-- The CRC-32C by its definition (R9): the register starts all ones, each bit of the bytes, the lowest of a byte first,
is shifted in against the top bit with the polynomial 0x1EDC_6F41, and the register is reflected and inverted. -/
def crcReference (bs : List Byte) : BitVec 32 :=
  ((bs.flatMap (fun b => (List.range 8).map b.getLsbD)).foldl
    (fun (r : BitVec 32) b => if r.getLsbD 31 != b then (r <<< 1) ^^^ 0x1EDC6F41#32 else r <<< 1) 0xFFFFFFFF#32).reverse ^^^ 0xFFFFFFFF#32

/-- The class of a status by Table 00-5. -/
def statusClass : Status → Nat
  | .success => 0 | .successRecovered => 0 | .successRelocated => 0
  | .aborted => 1 | .abortTooLate => 1 | .alreadyComplete => 1 | .abortNoTarget => 1
  | .invalidField => 2 | .rangeOut => 2 | .atomicTooLarge => 2 | .volumeReadOnly => 2
  | .unitNotReady => 3 | .unitSuspect => 3 | .epochStale => 3 | .unitService => 3
  | .mediumUnrecovered => 4 | .mediumFull => 4 | .writeVerifyExhausted => 4
  | .internalParity => 5 | .hankCheckFail => 5
  | .pairForwardFail => 7

end Sys2Proof.Safety
end

