-- ==== Sys2Proof/Certificates/Slice0/Obligations.lean ====
section
/-! DEFINITION. The statements about the block, for the provers. -/

open Sys2Proof Sys2Proof.Machine Sys2Proof.Safety

/-- R462 and R218, over every step: a state whose output levels are safe steps only to states whose levels are safe. -/
def Obligations.OutputsStaySafe : Prop :=
  ∀ s t : State, outputsSafe s → step s = .next t → outputsSafe t

/-- The invariant of OutputsStaySafe holds at reset. -/
def Obligations.OutputsSafeAtReset : Prop := outputsSafe State.reset

/-- A blown fuse stays blown over every step (R73, R75). -/
def Obligations.FusesStayBlown : Prop :=
  ∀ s t : State, step s = .next t → fusesKept s.img.fuses t.img.fuses

/-- The queue discipline: first in, first out. -/
def Obligations.StepRunsTheFront : Prop :=
  ∀ (c : Instr) (s : State) (rest : List Instr), step { s with pending := c :: rest } = exec c { s with pending := rest }

/-- A command's effect is on everything but the queue. -/
def Obligations.QueueIsKept : Prop := ∀ (c : Instr) (s t : State), exec c s = .next t → t.pending = s.pending

/-- Every command completes in every state (chapter 00: a pair absent from a table causes no transition). -/
def Obligations.NoCommandStops : Prop := ∀ (c : Instr) (s : State), ∃ t, exec c s = .next t ∧ t.pending = s.pending

/-- R518: deck time advances in steps of 10 ns. That a step on an empty queue is one such tick is the model's choice (log
entry 5). -/
def Obligations.EmptyQueueTicks : Prop :=
  ∀ s : State, s.pending = [] →
    (s.pwr.counting = false → step s = .next s) ∧
    (s.pwr.counting = true → s.mgt.ptpRate = 0 → s.mgt.ptpFrac = 0 →
      step s = .next { s with pwr := { s.pwr with ticks := s.pwr.ticks + 1, time := s.pwr.time + 10 } })

/-- R457: a cold reset restarts at S0 and keeps fuses and MRAM content alone; R456: a failed rail makes one and releases the
safe outputs. -/
def Obligations.ColdResets : Prop :=
  ∀ s : State, ∀ c ∈ [Instr.coldReset, Instr.railFail], completes c s (fun t =>
    stage t = 0 ∧ t.pwr.railsGood = false ∧ t.pwr.counting = false ∧
    getReg t Reg.RST_CAUSE = 1#32 ∧ (∀ off, off ≠ Reg.RST_CAUSE → getReg t off = resetValue off) ∧
    t.img.fuses = s.img.fuses ∧ t.mram.recs = s.mram.recs ∧ t.mram.hist = s.mram.hist ∧
    t.img.running = none ∧ t.pwr.time = 0 ∧ released t.pins)

/-- What a warm reset with a cause leaves of s (Table 15-2). -/
def warmLeaves (cause : Nat) (s t : State) : Prop :=
  getReg t Reg.RST_CAUSE = BitVec.ofNat 32 cause ∧
    (getReg t Reg.RST_WARM_COUNT).toNat = min 0xFFFFFFFF ((getReg s Reg.RST_WARM_COUNT).toNat + 1) ∧
    t.img.fuses = s.img.fuses ∧ t.img.running = none ∧ t.unt.tab = [] ∧ t.host.cmds = [] ∧ t.media.skeins = []

/-- R457 to R460 and R473: the warm resets and their causes. -/
def Obligations.WarmResets : Prop :=
  ∀ s : State,
    (s.pwr.railsGood = true → completes .resetNAssert s (warmLeaves 2 s)) ∧
    (∀ (v : Word) (same : Bool), sideServed s Reg.RST_CTRL = true → wordBits v 31 24 = 0xA5 → wordBits v 0 0 = 1 →
      completes (.softWarmReset v same) s (warmLeaves 3 s)) ∧
    (s.pwr.clockLost = true → completes .clockRelock s (warmLeaves 4 s)) ∧
    (s.pwr.pfDone = true → s.pwr.railsGood = true → completes .pwrfailRecover s (warmLeaves 5 s))

/-- R458, R460, R461, R465 and R469: from S0 to the ROM check. -/
def Obligations.PowerUpSteps : Prop :=
  ∀ s : State,
    (stage s = 0 → s.pwr.railsGood = false →
      completes .railsGood s (fun t => stage t = 1 ∧ t.pwr.railsGood = true ∧ released t.pins)) ∧
    (stage s = 1 → s.pwr.railsGood = true → s.pwr.holdDone = false → s.pwr.rstLow = true →
      completes .internalHoldEnd s (fun t => stage t = 1 ∧ t.pwr.holdDone = true ∧ released t.pins)) ∧
    (stage s = 1 → s.pwr.railsGood = true → s.pwr.clockLost = false → s.pwr.rstLow = true →
      completes .pllLock s (fun t => stage t = 1 ∧ t.pwr.pllLocked = true ∧ released t.pins)) ∧
    (∀ straps : Nat, stage s = 1 → s.pwr.railsGood = true → s.pwr.holdDone = true → s.pwr.pllLocked = true →
      s.pwr.clockLost = false → s.pwr.rstLow = true →
      completes (.resetNRise straps) s (fun t => stage t = 2 ∧ t.pwr.counting = true ∧ t.pwr.time = 0 ∧
        getReg t Reg.GLB_STRAPS = BitVec.ofNat 32 straps &&& 0x3F33#32 ∧ released t.pins)) ∧
    (stage s = 2 → halted s = false → bootSrc s = 0 →
      completes (.romCheckDone true) s (fun t => stage t = 3 ∧ t.img.flashWait = true ∧ released t.pins)) ∧
    (stage s = 2 → halted s = false →
      completes (.romCheckDone false) s (fun t => halted t = true ∧ getF t Fld.GLB_STATUS_HALT_CAUSE = 1 ∧ released t.pins)) ∧
    (s.pwr.railsGood = true →
      completes .clockLoss s (fun t => stage t = 1 ∧ t.pwr.clockLost = true ∧ t.pwr.counting = false ∧ released t.pins))

/-- R66, R67 and R69: the ends of the reads of the boot chain. -/
def Obligations.BootImages : Prop :=
  ∀ s : State, stage s = 3 → halted s = false →
    (∀ (cand : Candidate) (rest : List Candidate) (fast : Bool) (hdrA hdrB : List Byte),
      s.img.flashWait = true → s.img.chain = cand :: rest →
      completes (.flashReadComplete fast hdrA hdrB none) s (fun t =>
        getF t Fld.IMG_ERR_CODE = 0x0F ∧ getF t Fld.IMG_ERR_OP = candOp cand ∧ getF t Fld.IMG_ERR_SECTION = 0xFF) ∧
      (∀ b : List Byte, completes (.flashReadComplete fast hdrA hdrB (some b)) s (fun t =>
          match validate s.img.fuses (pairEn s) b with
          | .ok i => t.img.running = some i ∧ t.img.source = cand ∧ stage t = 4
          | .fail code _ _ => getF t Fld.IMG_ERR_CODE = code % 256 ∧ getF t Fld.IMG_ERR_OP = candOp cand))) ∧
    (∀ b : List Byte, s.img.pairWait = true →
      completes (.pairImageReceived b) s (fun t => match validate s.img.fuses (pairEn s) b with
        | .ok i => t.img.running = some i ∧ t.img.source = .partner ∧ stage t = 4
        | .fail code _ _ => t.img.flashWait = true ∧ getF t Fld.IMG_ERR_CODE = code % 256 ∧ stage t = 3)) ∧
    (s.img.pairWait = true →
      completes .pairFollowTimeout s (fun t => t.img.flashWait = true ∧ t.img.pairWait = false ∧ stage t = 3))

/-- R434, R466, R468 and R471: from S4 to S7. -/
def Obligations.BringUpStages : Prop :=
  ∀ s : State, halted s = false →
    (∀ i : Image, stage s = 4 → s.img.running = some i → s.img.applied = false →
      completes (.bistDone []) s (fun t => stage t = 5 ∧ getF t Fld.GLB_BIST_FULL = 1 ∧ getF t Fld.GLB_BIST_FAIL_COUNT = 0 ∧
        t.bc = {} ∧ getF t Fld.BC_CTRL_ENABLE = 1 ∧ released t.pins)) ∧
    (∀ (i : Image) (org0 org1 : Nat), stage s = 5 → s.img.running = some i → s.img.applied = false → getF s Fld.BM_STATUS_STATE = 0 →
      completes (.ddrTrainingDone false false org0 org1) s (fun t =>
        halted t = true ∧ getF t Fld.GLB_STATUS_HALT_CAUSE = 3 ∧ released t.pins)) ∧
    (∀ ownHigh : Bool, stage s = 5 → getF s Fld.BM_STATUS_STATE = 1 → pairEn s = false →
      completes (.bringupDone ownHigh) s (fun t => stage t = 6 ∧ isOwner t = true ∧ t.pair.own = .owner)) ∧
    (∀ (i : Image) (answers : List Bool), stage s = 6 → s.img.running = some i → s.pwr.armed = false →
      completes (.arm answers) s (fun t => t.pwr.armed = true)) ∧
    (stage s = 6 → s.pwr.armed = true →
      completes .runEntry s (fun t => stage t = 7 ∧
        (isOwner s = true → s.pwr.policyRunning = true → s.img.heldBack = false →
          ∃ r ∈ t.unt.waiting, r.kind = .request ∧ r.unit = uSpindle ∧ r.code = 0x03)))

/-- R470, R475 and R476: the sideband signals of PCIe. -/
def Obligations.PcieSidebands : Prop :=
  ∀ s : State,
    (stage s < 6 → completes .perstNAssert s (fun t =>
      t.pwr = { s.pwr with perst := true, linkUp := false } ∧ t.host = s.host ∧ t.regs = s.regs)) ∧
    (6 ≤ stage s → halted s = false → completes .perstNAssert s (fun t => t.host.vfEnable = false ∧ t.host.numVfs = 0)) ∧
    completes .perstNRelease s (fun t =>
      t.pwr = { s.pwr with perst := false, linkUp := s.pwr.refPresent && decide (2 ≤ stage s) } ∧ t.regs = s.regs) ∧
    (s.pwr.refPresent = true → completes .pcieRefLost s (fun t =>
      t.pwr = { s.pwr with refPresent := false, linkUp := false } ∧ flag t Fld.CLK_EVT_PCIE_REF_LOST = true)) ∧
    completes .pcieRefPresent s (fun t =>
      t.pwr = { s.pwr with refPresent := true, linkUp := !s.pwr.perst && decide (2 ≤ stage s) } ∧ t.regs = s.regs) ∧
    (∀ v : Int, s.pwr.refPresent = true → completes (.xtalPpmMeasure v) s (fun t =>
      getReg t Reg.CLK_XTAL_PPM = BitVec.ofNat 32 (0x80000000 + unsigned 24 v) ∧ regsKeptBut [Reg.CLK_XTAL_PPM] s t))

/-- R34, R35, R472 and R473: a failing supply and a silent firmware. -/
def Obligations.PowerFailureAndWatchdog : Prop :=
  ∀ s : State,
    (∀ (t5 t6 : Nat) (same : Bool), s.pwr.pfRunning = false → 6 ≤ stage s → halted s = false →
      completes (.pwrfailAssert t5 t6 same) s (fun t => t.pwr.pfDone = true ∧ getF t Fld.GLB_STATUS_PWRFAIL_DONE = 1 ∧
        getReg t Reg.GLB_PWRFAIL_LAST = BitVec.ofNat 32 (min 65535 t5 * 65536 + min 65535 t6))) ∧
    (∀ (t5 t6 : Nat) (same : Bool), s.pwr.pfRunning = false → stage s < 6 →
      completes (.pwrfailAssert t5 t6 same) s (fun t => t.pwr = { s.pwr with pfAsserted := true } ∧
        getF t Fld.GLB_STATUS_PWRFAIL = 1)) ∧
    (6 ≤ stage s → halted s = false → s.pwr.policyHeld = false →
      completes .policyWatchdogExpiry s (fun t => flag t Fld.UNT_EVT_WATCHDOG = true ∧ t.pwr.wdogLast = some s.pwr.time ∧
        (t.pwr.policyHeld = true ↔ ∃ n, s.pwr.wdogLast = some n ∧ s.pwr.time < n + 60000000000) ∧
        t.pwr.policyRunning = !t.pwr.policyHeld)) ∧
    (s.pwr.policyHeld = false → completes .watchdogRestartRequest s (fun t => t.pwr = { s.pwr with wdogUnits := [] }))

/-- R37: Table 01-9. -/
def Obligations.ThermalResponses : Prop :=
  ∀ s : State,
    (∀ (t0 : Int) (ts : List Int), 2 ≤ stage s → stage s < 6 → completes (.thermalSensorRead (t0 :: ts)) s (fun t =>
      getReg t Reg.GLB_TEMP = BitVec.ofNat 32 (0x80000000 + unsigned 16 (ts.foldl max t0)) ∧
      regsKeptBut [Reg.GLB_TEMP] s t ∧ t.pwr = s.pwr)) ∧
    (∀ (t0 : Int) (ts : List Int), 6 ≤ stage s → halted s = false → s.pwr.warn = false → s.pwr.crit = false →
      ts.foldl max t0 ≤ tempLimit s + 100 → completes (.thermalSensorRead (t0 :: ts)) s (fun t =>
        getReg t Reg.GLB_TEMP = BitVec.ofNat 32 (0x80000000 + unsigned 16 (ts.foldl max t0)) ∧
        (t.pwr.crit = true ↔ tempLimit s + 10 * policyVal s 2 < ts.foldl max t0) ∧
        (t.pwr.warn = true ↔ tempLimit s + 10 * policyVal s 1 < ts.foldl max t0 ∨ t.pwr.crit = true))) ∧
    (∀ (t0 : Int) (ts : List Int), 6 ≤ stage s → halted s = false → isOwner s = true → s.pwr.trip = false →
      tempLimit s + 100 < ts.foldl max t0 → completes (.thermalSensorRead (t0 :: ts)) s (fun t =>
        ust t uDisc = .faulted ∧ ust t uSpindle = .faulted)) ∧
    (∀ (c : Nat) (i : Image), s.pwr.ceiling = some c → s.img.running = some i → completes .thermalCeilingStep s (fun t =>
      t.pwr = { s.pwr with ceiling := if s.pwr.warn then some (max i.motors.spinMin (c - 100))
                                       else if i.motors.spinMax ≤ c + 100 then none else some (c + 100) }))

/-- IMG_CTRL acts: the register is served, and no halt makes it read-only. -/
def imgOpen (s : State) : Prop := halted s = false ∧ sideServed s Reg.IMG_CTRL = true

/-- R70 to R72: the staging area and the flash. -/
def Obligations.StagingOperations : Prop :=
  ∀ s : State,
    (imgOpen s → s.img.op = .none → get64 s Reg.IMG_PUSH_ADDR_LO % 64 = 0 → (getReg s Reg.IMG_PUSH_LEN).toNat % 64 = 0 →
      0x100 ≤ (getReg s Reg.IMG_PUSH_LEN).toNat → (getReg s Reg.IMG_PUSH_LEN).toNat ≤ 0x800000 →
      completes .fetch s (fun t => t.img.op = .fetch ∧ t.img.stagedImage = none ∧ flag t Fld.IMG_STATUS_BUSY = true ∧
        getF t Fld.IMG_STATUS_STAGED_VALID = 0 ∧
        t.out = s.out ++ [.hostRead 0 (get64 s Reg.IMG_PUSH_ADDR_LO) (getReg s Reg.IMG_PUSH_LEN).toNat])) ∧
    (∀ b : List Byte, s.img.op = .fetch →
      completes (.fetchReadComplete (some b)) s (fun t => t.img.op = .none ∧ match validate s.img.fuses (pairEn s) b with
        | .ok i => t.img.staged = b ∧ t.img.stagedImage = some i ∧
          flag t Fld.IMG_EVT_FETCH_DONE = true ∧ getF t Fld.IMG_STATUS_STAGED_VALID = 1
        | .fail code _ ofs => flag t Fld.IMG_EVT_FETCH_FAIL = true ∧
          getF t Fld.IMG_ERR_CODE = code % 256 ∧ getReg t Reg.IMG_ERR_OFFSET = BitVec.ofNat 32 ofs)) ∧
    (∀ (i r : Image) (slotB : Bool), imgOpen s → s.img.op = .none → s.img.stagedImage = some i → s.img.running = some r →
      s.img.slots.getD (if slotB then 1 else 0) none ≠ some r.digest →
      completes (if slotB then .progB 0x5A else .progA 0x5A) s (fun t => t.img.op = .prog slotB ∧
        t.out = s.out ++ [.flashWrite slotB s.img.staged] ∧ flag t Fld.IMG_STATUS_BUSY = true)) ∧
    (∀ same slotB : Bool, s.img.op = .prog slotB → completes (.progComplete same) s (fun t => t.img.op = .none ∧
      flag t (if same then Fld.IMG_EVT_PROG_DONE else Fld.IMG_EVT_PROG_FAIL) = true))

/-- R75 to R77: quiescing, applying and the fuses. -/
def Obligations.QuiesceApplyAndFuses : Prop :=
  ∀ s : State,
    (imgOpen s → getF s Fld.IMG_STATUS_QSTATE = 0 → completes .quiesce s (fun t => getF t Fld.IMG_STATUS_QSTATE = 1)) ∧
    (getF s Fld.IMG_STATUS_QSTATE = 1 → (cmds s).isEmpty = true → heldLeft s = false →
      completes .quiesceComplete s (fun t => flag t Fld.IMG_EVT_QUIESCED = true ∧ getF t Fld.IMG_STATUS_QSTATE = 2 ∧
        t.img.quiesceTook = (boundCars s).filter (fun c => (ust s (uCar c)).serves))) ∧
    (∀ q, (q = 1 ∨ q = 2) → imgOpen s → getF s Fld.IMG_STATUS_QSTATE = q → completes .resume s (fun t =>
      getF t Fld.IMG_STATUS_QSTATE = 0 ∧ t.img.quiesceTook = [] ∧
      t.unt.waiting = s.unt.waiting ++ s.img.quiesceTook.map (fun c =>
        { kind := .request, unit := uCar c, code := 0x03, epoch := (unitOf s (uCar c)).epoch.toNat, sender := .policy }))) ∧
    (∀ i : Image, imgOpen s → s.img.op = .none → getF s Fld.IMG_STATUS_QSTATE = 2 → holding s = false →
      (pairEn s = true → isOwner s = true) → mirroring s = false → s.img.stagedImage = some i →
      completes (.apply 0x5A) s (fun t => stage t = 4 ∧ t.img.running = some i ∧ t.img.applied = true ∧
        t.img.stagedImage = none ∧ t.host.ctx = [] ∧ t.host.cmds = [] ∧ released t.pins)) ∧
    (imgOpen s → s.img.op = .none → stage s = 7 → getF s Fld.IMG_STATUS_QSTATE = 2 →
      (s.img.fuses.keyBurnt = false → completes (.burnKey 0x5A) s (fun t =>
        t.img.fuses = { s.img.fuses with keyBurnt := true, keyDigest := (List.range 12).map (keyDig s) })) ∧
      (s.img.fuses.keyBurnt = true → completes (.burnEnforce 0x5A) s (fun t => t.img.fuses = { s.img.fuses with enforce := true })) ∧
      (s.img.fuses.enforce = true → completes (.burnNorom 0x5A) s (fun t => t.img.fuses = { s.img.fuses with noRom := true })) ∧
      (∀ (i : Image) (n : Nat), s.img.running = some i → n < 4 → i.firmware.vendorKey ≠ n →
        completes (.burnRevoke 0x5A n) s (fun t =>
          t.img.fuses = { s.img.fuses with revoke := s.img.fuses.revoke ||| BitVec.ofNat 4 (2 ^ n) })))

/-- R114 and R192: mounting a disc. -/
def Obligations.MountAndImport : Prop :=
  ∀ s : State,
    (isOwner s = true → s.img.heldBack = false → discSensed s = true → (ust s uSpindle).serves = true →
      (ust s uDisc = .offline ∨ ust s uDisc = .starting) → s.media.disc.step = .none → s.media.disc.mounted = false →
      completes .mountStart s (fun t => ust t uDisc = .starting ∧ t.media.disc.step = .s1)) ∧
    (∀ found : Bool, s.media.disc.mounted = false → s.media.disc.step = .s1 → completes (.mountStepDone (.chevrons found)) s (fun t =>
      t.media.disc = { s.media.disc with step := if found then .s2 else .identify } ∧ t.unt = s.unt)) ∧
    (∀ x y : List Byte, s.media.disc.mounted = false → s.media.disc.step = .s2 → dizOk x = true → dizOk y = true → slice x 8 16 = slice y 8 16 →
      completes (.mountStepDone (.diz (some x) (some y))) s (fun t =>
        ust t uDisc = .ready ∧ t.media.disc.step = .s3 ∧ t.media.disc.serial = slice x 8 16)) ∧
    (∀ x y : Option (List Byte), s.media.disc.mounted = false → s.media.disc.step = .s2 → (∀ b ∈ x, dizOk b = false) →
      completes (.mountStepDone (.diz x y)) s (fun t => ust t uDisc = .offline ∧ flag t Fld.UNT_EVT_DISC_FORMAT = true)) ∧
    (∀ (fs : List Nat) (ks : List KnotRead) (n : Nat), s.media.disc.mounted = false → s.media.disc.step = .s5 →
      completes (.mountStepDone (.scan fs ks (some n))) s (fun t => t.media.disc.step = .s6 ∧
        t.media.disc.frontierFound = fs ∧ t.media.disc.nextSkein = max s.media.disc.nextSkein (n + 1))) ∧
    (s.media.disc.step = .s7 → completes .mountComplete s (fun t => t.media.disc.mounted = true ∧ t.media.disc.step = .none)) ∧
    (∀ (typ : Nat) (reach : List Nat), s.media.disc.step = .identify →
      completes (.importIdentify (some (typ, reach))) s (fun t => ust t uDisc = .ready ∧ t.media.disc.step = .none)) ∧
    (s.media.disc.step = .identify →
      completes (.importIdentify none) s (fun t => ust t uDisc = .offline ∧ flag t Fld.UNT_EVT_DISC_FORMAT = true))

/-- R120, R128, R129, R137, R139 and R140, for a strand of the table. -/
def Obligations.SlotsAndSegments : Prop :=
  ∀ (s : State) (g : Nat), g < 32 → s.chn.strands.length = 32 →
    (∀ (lf zone slot pre : Nat) (prev : SlotPass), reading s g = true → carOf lf zone = g / 8 →
      (strandOf s g).inZone = some (lf, zone) →
      completes (.slotStart g lf zone slot pre prev) s (fun t => (strandOf t g).cur = some (lf, zone, slot) ∧
        (strandOf t g).skip = false ∧ (strandOf t g).timingLost = false ∧
        (strandOf t g).seed = (seedOf (zoneBlock s lf zone) lf zone (g % 8)).1)) ∧
    (∀ (lf zone slot pre : Nat) (prev : SlotPass), reading s g = true → carOf lf zone = g / 8 →
      (strandOf s g).inZone ≠ some (lf, zone) → s.chn.fetch.getD (g / 8) none = none →
      completes (.slotStart g lf zone slot pre prev) s (fun t => (strandOf t g).cur = some (lf, zone, slot) ∧
        (strandOf t g).skip = true ∧ flag t (chF Fld.CHN_EVT_ZONE_LATE g) = true)) ∧
    completes (.segmentEnd g) s (fun t => strandOf t g = { strandOf s g with held := (strandOf s g).cur.isSome } ∧ t.unt = s.unt) ∧
    (∀ pos : Nat, (strandOf s g).cur.isSome = true → (strandOf s g).skip = false → (strandOf s g).timingLost = false →
      completes (.timingLost g pos) s (fun t =>
        strandOf t g = { strandOf s g with timingLost := true, runs := (strandOf s g).runs ++ [(pos, 38816 - pos)] } ∧
        flag t (chF Fld.CHN_EVT_TIMING_LOST g) = true)) ∧
    (∀ pos : Nat, (strandOf s g).cur.isSome = true → (strandOf s g).held = false → (strandOf s g).blank = false →
      (strandOf s g).defect = false →
      completes (.defectFlagStart g pos) s (fun t => strandOf t g = { strandOf s g with defect := true, spanFrom := pos })) ∧
    (∀ pos : Nat, (strandOf s g).defect = true → (strandOf s g).defectNow = false →
      completes (.defectFlagEnd g pos) s (fun t => (strandOf t g).defect = false ∧
        ∃ lo hi : Nat, lo = (strandOf s g).spanFrom - cfgF (strandOf s g) Fld.CHN_DEF_CFG_DEF_PRE ∧
          hi = min 38816 (pos + cfgF (strandOf s g) Fld.CHN_DEF_CFG_DEF_POST) ∧
          (strandOf t g).runs = (strandOf s g).runs ++ [(lo, hi - lo)]))

/-- R137, R143, R145, R146 and R149. -/
def Obligations.WedgesSeedsAndDeliveries : Prop :=
  ∀ (s : State) (g : Nat), g < 32 → s.chn.strands.length = 32 →
    (∀ (w ivl : Nat) (m : WedgeMeas), kindActive s 1 (g / 8) = true → bound s (uStrand g) = true →
      completes (.wedgeCrossing g w ivl (some m)) s (fun t => (strandOf t g).wedgeLock = true ∧ (strandOf t g).held = false ∧
        getReg t (chR Reg.CHN_WEDGE_ADDR g) = BitVec.ofNat 32 m.addr)) ∧
    (∀ w ivl : Nat, kindActive s 1 (g / 8) = true → bound s (uStrand g) = true →
      completes (.wedgeCrossing g w ivl none) s (fun t => (strandOf t g).wedgeLock = false ∧ (strandOf t g).posValid = false)) ∧
    ((strandOf s g).lastRev = 0 → bound s (uStrand g) = true →
      4 ≤ ((upFrom (8 * (g / 8)) 8).filter (fun h => h ≠ g && decide (96 ≤ (strandOf s h).lastRev))).length →
      completes (.wedgeMissRev g) s (fun t => (strandOf t g).missRevs = min 3 ((strandOf s g).missRevs + 1) ∧
        flag t (chF Fld.CHN_EVT_WEDGE_MISS_REV g) = true ∧
        (2 ≤ (strandOf s g).missRevs → ust s (uStrand g) = .ready → ust t (uStrand g) = .faulted))) ∧
    (∀ c lf zone : Nat, c < 4 → carOf lf zone = c → completes (.zoneSeedFetch c lf zone) s (fun t =>
      t.chn = { s.chn with fetch := modAt c (fun _ => some { lf := lf, zone := zone }) s.chn.fetch })) ∧
    (∀ (c : Nat) (f : SeedFetch), c < 4 → s.chn.fetch.getD c none = some f → completes (.zoneSeedReady c) s (fun t =>
      t.chn = { s.chn with fetch := modAt c (fun _ => some { f with block := some (zoneBlock s f.lf f.zone) }) s.chn.fetch })) ∧
    (∀ (a : Nat) (p : SlotPass) (w : ReadFor × Nat × Nat × List Nat), reading s g = true → strandOfAddr a = g →
      (strandOf s g).cur = some (pLF a, pZone a, slotOf a) → (strandOf s g).skip = false →
      requestFor (deliver g p s).2 a = some w →
      (s.pool.bufs < 48 → completes (.sectorDelivery g a p) s (fun t =>
        ∃ j : PoolJob, t.pool.waiting = s.pool.waiting ++ [j] ∧ j.addr = a ∧ j.strand = g)) ∧
      (48 ≤ s.pool.bufs → completes (.sectorDelivery g a p) s (fun t =>
        t.pool = s.pool ∧ flag t Fld.DEC_EVT_INPUT_FULL = true)))

/-- R166, R167, R176, R180 and R191. The policy complex's round over reads (poolSweep) comes first at a dispatch. -/
def Obligations.PoolJobsAndSkeinEngines : Prop :=
  ∀ s : State,
    (∀ (idx : Nat) (j : PoolJob), idx < 12 → idx < decEnabled (poolSweep s) → bit (poolSweep s).pool.engDead idx = false →
      (poolSweep s).pool.engines.getD idx none = none → pickJob (poolSweep s) false idx = some j →
      completes (.poolJobDispatch false idx) s (fun t =>
        t.pool.engines = modAt idx (fun _ => some j) (poolSweep s).pool.engines ∧
        t.pool.waiting = (poolSweep s).pool.waiting.filter (fun k => k.id ≠ j.id))) ∧
    (∀ (idx : Nat) (j : PoolJob), idx < 8 → idx < redetEnabled (poolSweep s) → bit (poolSweep s).pool.redetDead idx = false →
      (poolSweep s).pool.redets.getD idx none = none → pickJob (poolSweep s) true idx = some j →
      completes (.poolJobDispatch true idx) s (fun t =>
        t.pool.redets = modAt idx (fun _ => some j) (poolSweep s).pool.redets ∧
        t.pool.waiting = (poolSweep s).pool.waiting.filter (fun k => k.id ≠ j.id))) ∧
    (∀ (idx : Nat) (j : PoolJob), s.pool.engines.getD idx none = some j →
      completes (.poolJobComplete false idx) s (fun t => t.pool.engines = modAt idx (fun _ => none) s.pool.engines)) ∧
    (∀ (idx : Nat) (j : PoolJob), s.pool.redets.getD idx none = some j →
      completes (.poolJobComplete true idx) s (fun t => t.pool.redets = modAt idx (fun _ => none) s.pool.redets)) ∧
    (∀ n : Nat, s.pool.l4 = some n → s.pwr.ceiling = none →
      ((s.mot.spn.nHat - (n : Int) * one24).natAbs : Int) * 100 ≤ (n : Int) * one24 →
      completes .l4SpeedReached s (fun t => t.pool = { s.pool with l4Ready := true })) ∧
    (∀ (n key : Nat) (k : Skein), n < 2 → bit s.pool.sengDead n = false → s.pool.sengs.getD n none = some (.parity key) →
      skeinOf s key = some k →
      completes (.skeinEngineComplete n) s (fun t =>
        (getReg t Reg.SKN_CNT).toNat = min 0xFFFFFFFF ((getReg s Reg.SKN_CNT).toNat + 1))) ∧
    (∀ layer cluster : Nat, s.media.disc.importMode = true → clusterReaders s layer cluster ≠ [] →
      s.pool.disc.tries = [] → 0 < getF s Fld.DEC_IMP_CFG_IMP_RETRIES →
      completes (.importClusterDecode layer cluster .uncorrectable) s (fun t =>
        t.pool.disc.tries = [(layer, cluster, 1)] ∧ t.host = s.host)) ∧
    (∀ (layer cluster tag : Nat) (c : Cmd) (secs : List (List Byte)), s.media.disc.importMode = true →
      clusterReaders s layer cluster = [(tag, c)] → cmdOf s tag = some c → s.pool.disc.tries = [] →
      completes (.importClusterDecode layer cluster (.good secs)) s (fun t => ∃ c', cmdOf t tag = some c' ∧
        c'.got = (clusterPart c.cmd cluster).foldl
          (fun g i => Tbl.put [] i (slice (secs.getD (c.cmd.lba + i - 32 * cluster) []) 0 2048) g) c.got))

/-- The skeins that a pass of carriage c takes at step f of zone z, block b, from its queue (R200). -/
def passPlan (s : State) (c z b : Nat) : List Nat × State :=
  let s1 := dropBadLanes c s
  gather c (wcar s1 c).frontier (passLimit s1 z b) (wcar s1 c).queue.length (wcar s1 c).queue s1

/-- R197, R200, R201, R202, R215, R217 and R236, for a carriage of the table. -/
def Obligations.PassesAndKnots : Prop :=
  ∀ (s : State) (c : Nat), c < 4 → s.media.cars.length = 4 →
    (∀ lf z b : Nat, mayPass s c = true → blockAt c (wcar (dropBadLanes c s) c).frontier = some (lf, z, b) →
      (passPlan s c z b).1 ≠ [] → (carOfS (passPlan s c z b).2 c).lf = lf →
      (carOfS (passPlan s c z b).2 c).turn = turnOfSlot z (4 * b) % 10625 →
      flag (passPlan s c z b).2 Fld.WRP_CTRL_PREREAD_ALWAYS = true →
      (wcar (dropBadLanes c s) c).preRead = none →
      completes (.passStart c) s (fun t => (wcar t c).state = .preRead ∧ (wcar t c).passSkeins = (passPlan s c z b).1)) ∧
    (∀ lf z b : Nat, mayPass s c = true →
      blockAt c (wcar (dropBadLanes c s) c).frontier = some (lf, z, b) →
      (passPlan s c z b).1 ≠ [] → (carOfS (passPlan s c z b).2 c).lf = lf →
      (carOfS (passPlan s c z b).2 c).turn = turnOfSlot z (4 * b) % 10625 →
      (wcar (dropBadLanes c s) c).preRead = some (wcar (dropBadLanes c s) c).frontier →
      (∀ k ∈ (passPlan s c z b).1, pulseAcked (passPlan s c z b).2 k = true) →
      completes (.passStart c) s (fun t => (wcar t c).state = .writing ∧ (wcar t c).passSkeins = (passPlan s c z b).1)) ∧
    ((wcar s c).state = .preRead →
      mayPass (modWcar c (fun w => { w with state := .idle, preRead := some w.frontier }) s) c = false →
      completes (.preRead c none) s (fun t => (wcar t c).state = .idle ∧ (wcar t c).preRead = some (wcar s c).frontier)) ∧
    (∀ k n : Nat, (wcar s c).state = .preRead →
      completes (.preRead c (some (k, n))) s (fun t =>
        (wcar t c).frontier = (wcar s c).frontier + min k ((wcar s c).passBlocks - 1) + 1)) ∧
    ((wcar s c).state = .writing → (wcar s c).stopAtSlotEnd = false →
      completes (.passWriteEnd c) s (fun t => (wcar t c).state = .turnJump ∧
        (wcar t c).frontier = (wcar s c).passStart + (wcar s c).passBlocks ∧ t.pins.wgate.getD c false = false)) ∧
    ((wcar s c).state = .verify →
      completes (.verifyRevolutionEnd c) s (fun t => (wcar t c).state = .idle ∧ (wcar t c).frontier = (wcar s c).frontier)) ∧
    (∀ (key : Nat) (k : Skein), s.media.openSkein = some key → skeinOf s key = some k → k.number = none → s.media.relocs = [] →
      completes (.knotIntervalExpiry none) s (fun t => t.media.openSkein = none ∧
        t.media.disc.nextSkein = s.media.disc.nextSkein + 1 ∧
        ∃ k', skeinOf t key = some k' ∧ k'.number = some s.media.disc.nextSkein)) ∧
    (∀ v : Nat, (bufOf s (v % 64)).bytes ≠ [] →
      completes (.knotIntervalExpiry (some v)) s (fun t => bufOf t (v % 64) = {})) ∧
    (∀ (elapsed : List Nat) (ready : List Knot), s.pwr.pfRunning = false → ready ≠ [] →
      ready = (((List.range 64).filterMap (readyKnot s elapsed)).foldl (fun a n => insKnot n a) []).take 6 →
      completes (.knotReady elapsed) s (fun t => ∃ k ∈ t.media.skeins, k.isKnot = true ∧ k.knots = ready)) ∧
    (∀ (key : Nat) (k : Skein) (n : Knot), skeinOf s key = some k → k.isKnot = true → k.passed = true → k.told = true →
      k.knots = [n] → acked s (.passed key) = true → acked s (.verified key) = true →
      completes (.knotVerified key) s (fun t => (volOf t n.vol).map = (volOf s n.vol).map ++ n.entries ∧
        (volOf t n.vol).knotSeq = n.seq))

/-- R207, R208, R213, R218, R221 and R222. -/
def Obligations.DriverLinkInterlockAndRetry : Prop :=
  ∀ (s : State) (c : Nat), c < 4 → s.media.cars.length = 4 →
    (∀ resp : Nat, bound s (uCar c) = true → bits resp 28 4 = 0xA →
      ((List.range 32).filter (fun i => bit resp i)).length % 2 = 1 → ust s (uCar c) = .service →
      completes (.pdlFrame c resp) s (fun t => (wcar t c).pdlTries = 0 ∧
        getReg t (Reg.WRP_PDL_RESP + 4 * c) = BitVec.ofNat 32 (0x80000000 + bits resp 4 16))) ∧
    (∀ resp : Nat, bound s (uCar c) = true → bits resp 28 4 ≠ 0xA → (wcar s c).pdlTries < 2 →
      completes (.pdlFrame c resp) s (fun t => (wcar t c).pdlTries = (wcar s c).pdlTries + 1 ∧
        t.out = s.out ++ [.pdl c (wcar s c).pdlFrame])) ∧
    (∀ resp : Nat, bound s (uCar c) = true → bits resp 28 4 ≠ 0xA → 2 ≤ (wcar s c).pdlTries →
      completes (.pdlFrame c resp) s (fun t => (wcar t c).drvReady = false ∧ flag t Fld.WRP_EVT_PDL_ERROR = true)) ∧
    (∀ st : Nat, bound s (uCar c) = true →
      completes (.drvStatusPoll c st) s (fun t => (wcar t c).drvReady = (bits st 8 2 == 0))) ∧
    (∀ frame : Word, sideServed s (Reg.WRP_PDL_CMD + 4 * c) = true → ust s (uCar c) = .service →
      completes (.wrpPdlCmd c frame) s (fun t => t.out = s.out ++ [.pdl c frame.toNat] ∧
        getReg t (Reg.WRP_PDL_CMD + 4 * c) = frame ∧ getReg t (Reg.WRP_PDL_RESP + 4 * c) = 0#32)) ∧
    (s.pwr.ilk = false → completes .laserIlkAssert s (fun t => t.pwr.ilk = true ∧ lasersOff t.pins ∧
      flag t Fld.WRP_EVT_INTERLOCK = true)) ∧
    (s.pwr.ilk = true → completes .interlockRelease s (fun t => t.pwr.ilk = false)) ∧
    (sideServed s Reg.WRP_CTRL = true → isOwner s = true →
      completes .retryHeld s (fun t => ∀ k ∈ t.media.skeins, k.exhausted = false))

/-- R233, R234, R240, R242, R243 and R245. -/
def Obligations.HankEngines : Prop :=
  ∀ (s : State) (n : Nat), n < 6 → s.media.hank.engines.length = 6 →
    (∀ r : HankReq, hankInService s n = true → (hengOf s n).use = .idle →
      (s.media.hank.engines.filter (fun e => e.req.isSome)).length < hankLimit s → bit (getF s Fld.HNK_CTRL_RESTORE) n = false →
      nextReq s n = some r →
      completes (.hankDispatch n) s (fun t => t.media.hank.queue = s.media.hank.queue.erase r ∧
        (hengOf t n).req = some r ∧ (hengOf t n).use = (if r.decompress then .decompressing else .coding))) ∧
    (∀ r : HankReq, (hengOf s n).req = some r → (hengOf s n).use = .coding → flag s Fld.HNK_CTRL_FORCE_MISMATCH = false →
      bit (getF s Fld.HNK_CTRL_RESTORE) n = false →
      completes (.hankCodeComplete n true) s (fun t => (hengOf t n).req = none ∧ (hengOf t n).use = .idle)) ∧
    (∀ (r : HankReq) (sound : Bool), (hengOf s n).req = some r → (hengOf s n).use = .coding →
      (sound = false ∨ flag s Fld.HNK_CTRL_FORCE_MISMATCH = true) →
      completes (.hankCodeComplete n sound) s (fun t => (hengOf t n).faulted = true ∧ (hengOf t n).req = none)) ∧
    (∀ (r : HankReq) (out : List Byte) (c : Cmd), (hengOf s n).req = some r → (hengOf s n).use = .decompressing →
      r.failedOn = none → decodeHank r.stream = some out → cmdOf s r.tag = some c →
      completes (.hankDecompressComplete n true) s (fun t => (hengOf t n).req = none ∧
        (getReg t (Reg.HNK_CNT + 8)).toNat = min 0xFFFFFFFF ((getReg s (Reg.HNK_CNT + 8)).toNat + 1) ∧
        ∃ c', cmdOf t r.tag = some c' ∧ c'.got = (blocksOfHank s c r.lba).foldl
          (fun g i => Tbl.put [] i (slice out (4096 * (c.cmd.lba + i - r.lba)) 4096) g) c.got)) ∧
    (∀ (r : HankReq) (m : Nat), (hengOf s n).req = some r → (hengOf s n).use = .decompressing → r.failedOn = none →
      m < 6 → m ≠ n → hankInService s m = true →
      completes (.hankDecompressComplete n false) s (fun t => (hengOf t n).req = none ∧
        t.media.hank.queue = s.media.hank.queue ++ [{ r with failedOn := some n }])) ∧
    (∀ (r : HankReq) (f : Nat), (hengOf s n).req = some r → (hengOf s n).use = .decompressing → r.failedOn = some f →
      completes (.hankDecompressComplete n false) s (fun t => (hengOf t n).req = none ∧
        flag t Fld.HNK_EVT_HANK_CHECK_FAIL = true)) ∧
    (∀ i : Image, sideServed s Reg.HNK_CTRL = true → isOwner s = true → s.img.running = some i →
      n < i.bind.hankEnabled → (hengOf s n).bistFailed = false → (hengOf s n).use = .idle →
      completes (.hankRestore n) s (fun t => (hengOf t n).use = .restoring)) ∧
    ((hengOf s n).use = .restoring →
      completes (.hankRestoreDone n true) s (fun t => (hengOf t n).use = .idle ∧ (hengOf t n).faulted = false ∧
        (getReg t (Reg.HNK_CNT + 28)).toNat = min 0xFFFFFFFF ((getReg s (Reg.HNK_CNT + 28)).toNat + 1))) ∧
    ((hengOf s n).use = .restoring →
      completes (.hankRestoreDone n false) s (fun t => (hengOf t n).use = .idle ∧ (hengOf t n).faulted = true))

/-- The tables of R156, R179, R186, R218, R244, R279, R299, R333, R426, R444 and R496; R553 for SPN_FORCE_LOSS. -/
def Obligations.ControlFieldsAreWritten : Prop :=
  ∀ s : State,
    (∀ g : Nat, g < 32 → s.chn.strands.length = 32 → sideServed s (Reg.CHN_TEST + 0x200 * g) = true →
      completes (.chnForceSyncMiss g) s (fun t => (strandOf t g).forceMiss = true ∧
        flag t (Fld.CHN_TEST_FORCE_SYNC_MISS.at (0x200 * g)) = true)) ∧
    (∀ g : Nat, g < 32 → s.chn.strands.length = 32 → sideServed s (Reg.CHN_TEST + 0x200 * g) = true →
      completes (.chnForceDefect g) s (fun t => (strandOf t g).forceDefect = true ∧
        flag t (Fld.CHN_TEST_FORCE_DEFECT.at (0x200 * g)) = true)) ∧
    (∀ on : Bool, sideServed s Reg.DEC_CTRL = true → completes (.decPauseRecovery on) s (fun t =>
      flag t Fld.DEC_CTRL_PAUSE_RECOVERY = on ∧ regsKeptBut [Reg.DEC_CTRL] s t ∧ onlyRegisters s t)) ∧
    (∀ on : Bool, sideServed s Reg.DEC_CTRL = true → completes (.decForceEf on) s (fun t =>
      flag t Fld.DEC_CTRL_FORCE_EF = on ∧ regsKeptBut [Reg.DEC_CTRL] s t ∧ onlyRegisters s t)) ∧
    (∀ on : Bool, sideServed s Reg.SKN_CTRL = true → completes (.relocPause on) s (fun t =>
      flag t Fld.SKN_CTRL_RELOC_PAUSE = on ∧ regsKeptBut [Reg.SKN_CTRL] s t ∧ onlyRegisters s t)) ∧
    (∀ on : Bool, sideServed s Reg.WRP_CTRL = true → completes (.writeInhibit on) s (fun t =>
      flag t Fld.WRP_CTRL_WRITE_INHIBIT = on ∧ regsKeptBut [Reg.WRP_CTRL] s t ∧ onlyRegisters s t)) ∧
    (∀ on : Bool, sideServed s Reg.HNK_CTRL = true → completes (.hankForceMismatch on) s (fun t =>
      flag t Fld.HNK_CTRL_FORCE_MISMATCH = on ∧ regsKeptBut [Reg.HNK_CTRL] s t ∧ onlyRegisters s t)) ∧
    (∀ (k : Nat) (on : Bool), k < 32 → sideServed s Reg.LPE_TEST = true → completes (.lpeForceOvr k on) s (fun t =>
      flag t Fld.LPE_TEST_FORCE_OVR = on ∧ getF t Fld.LPE_TEST_SLOT = k ∧ regsKeptBut [Reg.LPE_TEST] s t ∧ onlyRegisters s t)) ∧
    (∀ c : Nat, c < 4 → s.mot.cars.length = 4 → sideServed s (Reg.CRG_CTRL + 0x200 * c) = true →
      completes (.crgForceSlip c) s (fun t => (carOfS t c).forceSlip = true ∧
        getF t (Fld.CRG_CTRL_FORCE_SLIP.at (0x200 * c)) = 1)) ∧
    (sideServed s Reg.SPN_CTRL = true → isOwner s = true → completes .spnForceLoss s (fun t =>
      (spn t).forceLoss = true ∧ regsKeptBut [] s t)) ∧
    (sideServed s Reg.CAL_CTRL = true → completes .calForceCheckerFail s (fun t =>
      getF t Fld.CAL_CTRL_FORCE_CHECKER_FAIL = 1 ∧ regsKeptBut [Reg.CAL_CTRL] s t ∧ onlyRegisters s t)) ∧
    (sideServed s Reg.BC_TEST = true → completes .bcForceDataParity s (fun t =>
      getF t Fld.BC_TEST_FORCE_DATA_PARITY = 1 ∧ regsKeptBut [Reg.BC_TEST] s t ∧ onlyRegisters s t)) ∧
    (sideServed s Reg.BC_TEST = true → completes .bcForceTwinParity s (fun t =>
      getF t Fld.BC_TEST_FORCE_TWIN_PARITY = 1 ∧ regsKeptBut [Reg.BC_TEST] s t ∧ onlyRegisters s t)) ∧
    (sideServed s Reg.INT_CTRL = true → completes .intForceParity s (fun t =>
      getF t Fld.INT_CTRL_FORCE_PARITY = 1 ∧ regsKeptBut [Reg.INT_CTRL] s t ∧ onlyRegisters s t)) ∧
    (sideServed s Reg.INT_CTRL = true → completes .scrubRestart s (fun t =>
      getReg t Reg.INT_SCRUB_POS = 0#32 ∧ flag t Fld.INT_STATUS_BURST = false ∧ t.mem.burstLeft = 0 ∧ t.mem.resume = 0 ∧
        regsKeptBut [Reg.INT_SCRUB_POS, Reg.INT_STATUS] s t ∧ memoryKept s t))

/-- Tables 08-6 to 08-8 with R259, R261, R268, R276, R277 and R279. -/
def Obligations.LoopSlotCommands : Prop :=
  ∀ (s : State) (k : Nat), k < 32 → s.mot.slots.length = 32 →
    ((lslot s k).late = true → completes (.loopOverrun k) s (fun t => (lslot t k).late = false ∧
      (lslot t k).next = none ∧ (lslot t k).ovrRun = min 8 ((lslot s k).ovrRun + 1))) ∧
    (∀ (i : Image) (l : LoopRec), s.img.running = some i → l ∈ i.loops → l.slot < 32 →
      completes .loopOutputWrite s (fun t => (lslot t l.slot).next = none)) ∧
    (∀ l : LoopRec, recOf s k = some l → (lslot s k).lost = true → slotActive s k = true → l.carriage ≤ 3 →
      completes (.loopLostLock k) s (fun t => (lslot t k).st = .lost)) ∧
    (∀ l : LoopRec, recOf s k = some l → (8 ≤ (lslot s k).ovrRun ∨ (lslot s k).faulty = true) → slotActive s k = true →
      completes (.loopFault k) s (fun t => (lslot t k).st = .fault)) ∧
    (∀ l : LoopRec, recOf s k = some l → sideServed s (Reg.LPE_CTRL + 0x80 * k) = true →
      completes (.loopEnable k) s (fun t => (lslot t k).enable = some true ∧ regsKeptBut [] s t) ∧
      completes (.loopDisable k) s (fun t => (lslot t k).enable = some false ∧ regsKeptBut [] s t) ∧
      (∀ on : Bool, l.priv = true → completes (.loopFollow k on) s (fun t =>
        flag t (Fld.LPE_CTRL_FOLLOW.at (0x80 * k)) = on ∧ regsKeptBut [Reg.LPE_CTRL + 0x80 * k] s t ∧ onlyRegisters s t)) ∧
      (isOwner s = true → (lslot s k).st = .fault →
        (ust s (loopUnit l) = .service ∨ ust s (loopUnit l) = .offline) →
        completes (.loopClrFault k) s (fun t => (lslot t k).st = .disabled ∧ (lslot t k).ovrRun = 0))) ∧
    (sideServed s (Reg.LPE_CTRL + 0x80 * k) = true →
      completes (.loopSwap k) s (fun t => (lslot t k).swap = true ∧ regsKeptBut [] s t) ∧
      completes (.loopPark k) s (fun t => (lslot t k).park = decide ((lslot s k).st = .disabled) ∧ regsKeptBut [] s t)) ∧
    (∀ v : Word, sideServed s (Reg.LPE_COEF_DATA + 0x80 * k) = true →
      getF s (Fld.LPE_COEF_IDX_IDX.at (0x80 * k)) ≤ 159 → (shadowBank (lslot s k)).length = 160 →
      completes (.coefDataAccess k (some v)) s (fun t =>
        nth (shadowBank (lslot t k)) (getF s (Fld.LPE_COEF_IDX_IDX.at (0x80 * k))) = signed 32 v.toNat ∧
        (flag s (Fld.LPE_COEF_IDX_AUTO_INC.at (0x80 * k)) = true →
          getF t (Fld.LPE_COEF_IDX_IDX.at (0x80 * k)) = getF s (Fld.LPE_COEF_IDX_IDX.at (0x80 * k)) + 1))) ∧
    (sideServed s (Reg.LPE_COEF_DATA + 0x80 * k) = true →
      completes (.coefDataAccess k none) s (fun t =>
        t.out = s.out ++ [.regData (Reg.LPE_COEF_DATA + 0x80 * k) (regValue s (Reg.LPE_COEF_DATA + 0x80 * k)).toNat] ∧
        lslot t k = lslot s k)) ∧
    (∀ (n cycles : Nat) (dirHigh : Bool), n < 4 → s.mot.traces.length = 4 → cycles ≤ 65536 →
      completes (.traceInEdge n cycles dirHigh) s (fun t => (s.mot.traces.getD n {}).steps + (if dirHigh then -1 else 1) =
        (t.mot.traces.getD n {}).steps ∧ (t.mot.traces.getD n {}).interval = cycles ∧ regsKeptBut [] s t)) ∧
    (∀ n : Nat, n < 4 → s.mot.traces.length = 4 → completes (.traceLost n) s (fun t =>
      (t.mot.traces.getD n {}).interval = 0 ∧ (t.mot.traces.getD n {}).q = 0)) ∧
    (∀ (volts : List Int) (parity : List (Nat × Bool)), 6 ≤ stage s → halted s = false →
      completes (.basePeriod volts parity) s (fun t => t.mot.started = true ∧
        t.mot.period = if s.mot.started then s.mot.period + 1 else 0))

/-- Table 10-3 with R314, R316, R318, R321, R323 to R325 and R333. -/
def Obligations.CarriageMotionCommands : Prop :=
  ∀ (s : State) (c : Nat), c < 4 → s.mot.cars.length = 4 → s.media.cars.length = 4 →
    (∀ code1 code2 : Nat, (carOfS s c).gates = true →
      completes (.sledPwmSample c code1 code2) s (fun t =>
        (carOfS t c).coil1 = (coilStep (getF s (cfld Fld.CRG_CUR_CFG_KP_C c)) (getF s (cfld Fld.CRG_CUR_CFG_KI_C c))
          (getF s (cfld Fld.CRG_CUR_CFG_OC_PCT c)) (sledM s c).iQuiet (sledM s c).iStrong (coilTargets s c).1
          (coilCurrent s c code1) (carOfS s c).coil1).1 ∧
        (carOfS t c).coil2 = (coilStep (getF s (cfld Fld.CRG_CUR_CFG_KP_C c)) (getF s (cfld Fld.CRG_CUR_CFG_KI_C c))
          (getF s (cfld Fld.CRG_CUR_CFG_OC_PCT c)) (sledM s c).iQuiet (sledM s c).iStrong (coilTargets s c).2
          (coilCurrent s c code2) (carOfS s c).coil2).1)) ∧
    ((carOfS s c).gates = true → (carOfS s c).interval ≠ 0 → (carOfS s c).v ≠ 0 →
      completes (.stepTimerExpiry c) s (fun t =>
        (carOfS t c).p = (carOfS s c).p + sgn (carOfS s c).v * stepQ (carOfS s c))) ∧
    (∀ active : Bool, (carOfS s c).st ≠ .homing → (carOfS s c).homed = false →
      completes (.homeEdge c active) s (fun t => carOfS t c = { carOfS s c with home := active } ∧ regsKeptBut [] s t)) ∧
    ((carOfS s c).st = .homing → (carOfS s c).homeStep = 3 →
      (((sledM s c).strokeLimit + 1000 : Nat) : Int) * um ≤ (((carOfS s c).x - (carOfS s c).homeFrom).natAbs : Int) →
      completes (.homingFail c) s (fun t => (carOfS t c).st = .fault ∧ (carOfS t c).gates = false ∧ (carOfS t c).homed = false)) ∧
    (∀ lf turn : Nat, lf / 16 = carSide c → turn ≤ 10624 →
      ((carOfS s c).st = .idle → inPass (wcar s c) = false → completes (.seekRequest c lf turn) s (fun t =>
        (carOfS t c).st = .seek ∧ (carOfS t c).seek = some { lf := lf, turn := turn, start := s.pwr.time } ∧
        (carOfS t c).pending = none)) ∧
      ((carOfS s c).st = .homing → completes (.seekRequest c lf turn) s (fun t =>
        (carOfS t c).st = .homing ∧ (carOfS t c).pending = some { lf := lf, turn := turn, start := s.pwr.time }))) ∧
    ((carOfS s c).st = .settle → completes (.seekSettleDone c) s (fun t =>
      carOfS t c = { carOfS s c with st := .capture } ∧ regsKeptBut [] s t)) ∧
    (∀ (k : Seek) (ply : Int) (lf : Nat), (carOfS s c).st = .capture → (carOfS s c).seek = some k → (carOfS s c).ply = some ply →
      agreedLF (carOfS s c) = some lf → lf = k.lf → (carOfS s c).forceSlip = false →
      (((24000 - (bits (getReg s (Reg.CRG_HOME_RADIUS + 0x200 * c)).toNat 0 16 : Int)) * um + ply * 256 - (carOfS s c).x).natAbs : Int) ≤
        ((getF s (cfld Fld.CRG_SEEK_CFG_SLIP_LIM c) * 10 : Nat) : Int) * um →
      ((k.turn : Int) - nearestTurn c (carOfS s c).wedge ply).natAbs ≤ getF s (cfld Fld.CRG_SEEK_CFG_FINE_TURNS c) →
      completes (.capture c) s (fun t => (carOfS t c).st = .fine ∧ (carOfS t c).lf = lf ∧
        (carOfS t c).turn = nearestTurn c (carOfS s c).wedge ply)) ∧
    (∀ k : Seek, (carOfS s c).st = .capture → (carOfS s c).seek = some k → retriesLeft s c k = true →
      completes (.captureTimeout c) s (fun t => (carOfS t c).st = .seek ∧
        (carOfS t c).seek = some { k with retry := k.retry + 1, moved := false })) ∧
    (∀ k : Seek, (carOfS s c).st = .fine → (carOfS s c).seek = some k → (carOfS s c).turn = k.turn →
      (carOfS s c).pending = none →
      completes (.fineDone c) s (fun t => (carOfS t c).st = .follow ∧ (carOfS t c).seek = none)) ∧
    (∀ j : Jump, (carOfS s c).jump = some j → j.turn = false → j.settling = true →
      completes (.layerJumpDone c) s (fun t => (carOfS t c).jump = none ∧ (carOfS t c).jumpPhase = j.tgt)) ∧
    (∀ j : Jump, (carOfS s c).jump = some j → j.turn = true → j.dur ≤ j.age →
      completes (.turnJumpDone c) s (fun t => (carOfS t c).jump = none ∧ (carOfS t c).nTurn = 0 ∧
        (carOfS t c).turn = (carOfS s c).turn - 1 ∧
        (wcar t c).state = if (wcar s c).state = .turnJump then .verify else (wcar s c).state)) ∧
    (isOwner s = true → sideServed s (Reg.CRG_CMD + 0x200 * c) = true →
      (crgServes s c = true → (carOfS s c).st = .idle →
        completes (.crgCmdHome c) s (fun t => (carOfS t c).st = .homing ∧ (carOfS t c).homed = false ∧ (carOfS t c).gates = true) ∧
        completes (.crgCmdMove c) s (fun t => (carOfS t c).moveTarget =
          some (((bits (getReg s (Reg.CRG_MOVE_TARGET + 0x200 * c)).toNat 0 15 : Nat) : Int) * um))) ∧
      (crgServes s c = false →
        completes (.crgCmdHome c) s (fun t => flag t (Fld.CRG_EVT_CMD_REFUSED.at (0x200 * c)) = true) ∧
        completes (.crgCmdMove c) s (fun t => flag t (Fld.CRG_EVT_CMD_REFUSED.at (0x200 * c)) = true))) ∧
    (isOwner s = true → sideServed s (Reg.CRG_CMD + 0x200 * c) = true → crgServes s c = true → (carOfS s c).st = .idle →
      inPass (wcar s c) = false → ∀ lf turn : Nat, lf < 32 → lf / 16 = carSide c → turn ≤ 10624 →
      completes (.crgCmdSeek c lf turn) s (fun t => (carOfS t c).st = .seek ∧
        (carOfS t c).seek = some { lf := lf, turn := turn, start := s.pwr.time })) ∧
    (isOwner s = true → sideServed s (Reg.CRG_CTRL + 0x200 * c) = true → (carOfS s c).st = .fault →
      (ust s (uCar c) = .service ∨ ust s (uCar c) = .offline) →
      completes (.crgClrFault c) s (fun t => carOfS t c = { carOfS s c with st := .unhomed, homed := false } ∧ regsKeptBut [] s t))

/-- Table 09-3 with R283, R284, R291 to R296, R298 to R300 and R303. -/
def Obligations.SpindleDrivePhases : Prop :=
  ∀ s : State,
    (∀ pinMv : Nat, 6 ≤ stage s → halted s = false → (spn s).gatesDue = true → isOwner s = true → (spn s).phase = .brake →
      completes (.pwmTop pinMv) s (fun t => (spn t).gates = true ∧ (spn t).cmp = [1250, 1250, 1250])) ∧
    (∀ cu cv cw : Nat, 6 ≤ stage s → halted s = false → completes (.pwmCentre cu cv cw) s (fun t =>
      (spn t).iU = shuntCurrent s cu - roundDiv (shuntCurrent s cu + shuntCurrent s cv + shuntCurrent s cw) 3)) ∧
    ((spn s).lossDue = true → (spn s).phase = .run → completes .rotorLoss s (fun t =>
      (spn t).phase = .recatch ∧ (spn t).gates = false)) ∧
    (∀ (ph : Nat) (rising : Bool), ph < 3 → (spn s).phase = .coastSense → completes (.spnComparatorEdge ph rising) s (fun t =>
      (spn t).edges = (spn s).edges ++ [(ph, rising, s.pwr.time)])) ∧
    (sideServed s Reg.SPN_CTRL = true → isOwner s = true →
      completes .spnStart s (fun t => ∃ r, t.unt.waiting = s.unt.waiting ++ [r] ∧ r.kind = .request ∧ r.unit = uSpindle ∧ r.code = 3) ∧
      completes .spnStop s (fun t => ∃ r, t.unt.waiting = s.unt.waiting ++ [r] ∧ r.kind = .request ∧ r.unit = uSpindle ∧ r.code = 1) ∧
      ((spn s).phase = .fault → (ust s uSpindle = .offline ∨ ust s uSpindle = .service) → (spn s).fromTrip = false →
        completes .spnClrFault s (fun t => (spn t).phase = .stopped ∧ (spn t).retries = 0))) ∧
    ((spn s).phase = .coastSense → (spn s).edges.length < 3 → completes .coastSenseDone s (fun t =>
      (spn t).phase = .align ∧ (spn t).gatesDue = true)) ∧
    ((spn s).phase = .coastSense → 3 ≤ (spn s).edges.length → inOrder false ((spn s).edges.take 3) = true →
      inOrder true ((spn s).edges.take 3) = false → completes .coastSenseDone s (fun t => (spn t).phase = .brake)) ∧
    ((spn s).phase = .coastSense → 3 ≤ (spn s).edges.length → inOrder false ((spn s).edges.take 3) = false →
      inOrder true ((spn s).edges.take 3) = true → edgesReach s (spn s).edges 480 = true →
      completes .coastSenseDone s (fun t => (spn t).phase = .catch_ ∧ (spn t).edges = [])) ∧
    ((spn s).phase = .recatch → catchOk s = true → completes .catchMade s (fun t => (spn t).phase = .run)) ∧
    ((spn s).phase = .catch_ → catchOk s = true → completes .catchMade s (fun t =>
      (spn t).phase = .run ∨ (spn t).phase = .runup)) ∧
    ((spn s).phase = .catch_ → completes .catchTimeout s (fun t => (spn t).phase = .brake)) ∧
    ((spn s).phase = .brake → belowSixty s = true → completes .brakeDone s (fun t => (spn t).phase = .align)) ∧
    ((spn s).phase = .brake → completes .brakeTimeout s (fun t => (spn t).phase = .fault)) ∧
    (∀ ampD ampQ peakP peakN : Nat, (spn s).phase = .align →
      getF s Fld.SPN_EST_CFG_INJ_MIN ≤ (if ampD ≤ ampQ then ampQ - ampD else ampD - ampQ) →
      2 * max peakP peakN ≤ 100 * (max peakP peakN - min peakP peakN) →
      completes (.alignDone ampD ampQ peakP peakN) s (fun t => (spn t).phase = .runup)) ∧
    ((spn s).phase = .runup → nearTarget s = true → completes .runupDone s (fun t => (spn t).phase = .run)) ∧
    ((spn s).phase = .runup → completes .runupTimeout s (fun t => (spn t).phase = .fault)) ∧
    ((spn s).phase = .run → 8000 ≤ (spn s).lockAcc → (spn s).retries < 3 →
      completes .lockedRotor s (fun t => (spn t).phase = .lockedWait)) ∧
    ((spn s).phase = .lockedWait → completes .lockedWaitDone s (fun t => (spn t).phase = .coastSense)) ∧
    ((spn s).phase = .run → (spn s).recatching = true → 400 ≤ (spn s).goodRun →
      completes .recatchOk s (fun t => flag t Fld.SPN_EVT_RECATCH_OK = true)) ∧
    ((spn s).phase = .recatch → completes .recatchTimeout s (fun t => (spn t).phase = .fault)) ∧
    ((spn s).phase = .stopping → (spn s).regen = false → belowSixty s = true → ust s uSpindle ≠ .starting →
      completes .stoppingDone s (fun t => (spn t).phase = .stopped ∧ (spn t).gates = false)) ∧
    ((spn s).phase = .run → speedSettled s = true → 2000 ≤ (spn s).readyRun → ust s uSpindle = .starting →
      (spn s).recatching = false → completes .spindleReady s (fun t => ust t uSpindle = .ready)) ∧
    (∀ d c ahead : Nat, ust s uSpindle = .ready → flag s Fld.SPN_CTRL_RATE_HOLD = false → getF s Fld.IMG_STATUS_QSTATE ≠ 2 →
      c ≠ 0 → rateF s ahead < 50 + (policyVal s 4).toNat → 50 - (policyVal s 4).toNat < rateF s ahead →
      completes (.rateMatchCompute d c ahead) s (fun t => (spn t).rateReq =
        let n := (clampI (motors s).spinMin (motors s).spinMax
          (10 * roundDiv (((motors s).spinMax * d / c : Nat) + (spn s).rateAdj) 10)).toNat
        if (spn s).rateReq + 10 ≤ n ∨ n + 10 ≤ (spn s).rateReq then n else (spn s).rateReq))

/-- R249, R254, R314, R328, R330 and R331. -/
def Obligations.ProfilesCamsAndConverters : Prop :=
  ∀ s : State,
    (∀ c : Nat, c < 4 → s.mot.cars.length = 4 → (carOfS s c).gates = true → (carOfS s c).st ≠ .unhomed → (carOfS s c).st ≠ .fault →
      completes (.profileTick c) s (fun t => (carOfS t c).x =
        (profileLaw (profileTarget s c) (if (carOfS s c).st = .homing then 0 else (getF s (cfld Fld.CRG_SEEK_CFG_REV_TOL c) * 25 : Nat) * um)
          (vLimit s c) ((sledM s c).aMax * 1000 * um) ((sledM s c).jMax * 1000 * um) (carOfS s c)).1.x)) ∧
    (sideServed s Reg.CAM_COMMIT = true → isOwner s = true → ∀ v : Word, v.getLsbD 8 = true →
      (s.mot.commit = none → (∀ r, camRec s (bits v.toNat 0 6) = some r → layerJumpCar s r = none) →
        completes (.camCommit v) s (fun t => t.mot.commit = some (bits v.toNat 0 6))) ∧
      (s.mot.commit.isSome = true → completes (.camCommit v) s (fun t =>
        flag t Fld.CAM_EVT_BUSY = true ∧ t.mot.commit = s.mot.commit)) ∧
      (∀ (r : CamRec) (c : Nat), s.mot.commit = none → camRec s (bits v.toNat 0 6) = some r → layerJumpCar s r = some c →
        shapeOk (shadowVals s (bits v.toNat 0 6) r.points) = false →
        completes (.camCommit v) s (fun t => flag t Fld.CAM_EVT_SHAPE_REFUSED = true ∧ t.mot.commit = none))) ∧
    (∀ (n : Nat) (r : CamRec), n < 64 → s.mot.cams.length = 64 → sideServed s (Reg.CAM_CTRL + 4 * n) = true → camRec s n = some r →
      layerJumpCar s r = none →
      completes (.camEngage n true) s (fun t => (camSt t n).engage = some true) ∧
      completes (.camEngage n false) s (fun t => (camSt t n).engage = some false) ∧
      completes (.camTimeReset n) s (fun t => (camSt t n).timeReset = true)) ∧
    (∀ v : Word, sideServed s Reg.CAM_PT_DATA = true → s.mot.cams.length = 64 → getF s Fld.CAM_PT_SEL_TABLE < 64 →
      completes (.camPtDataAccess (some v)) s (fun t =>
        Tbl.get 0 (getF s Fld.CAM_PT_SEL_POINT) (camSt t (getF s Fld.CAM_PT_SEL_TABLE)).shadow = signed 32 v.toNat)) ∧
    (sideServed s Reg.CAM_PT_DATA = true → completes (.camPtDataAccess none) s (fun t =>
      t.out = s.out ++ [.regData Reg.CAM_PT_DATA (regValue s Reg.CAM_PT_DATA).toNat] ∧ t.mot = s.mot)) ∧
    (∀ (m : Nat) (codes : List Nat) (a : Nat), codes.length = 16 → a < 16 → s.mot.pd1.length = 48 → s.mot.pd2.length = 48 →
      (m = 1 ∨ m = 2 ∨ m = 3 → completes (.servoConversionSlot m codes) s (fun t =>
        t.mot.pd1.getD (12 * (a / 4) + 3 * (a % 4) + (m - 1)) 0 = codes.getD a 0 % 65536 ∧ t.mot.pd2 = s.mot.pd2)) ∧
      (m = 5 ∨ m = 6 ∨ m = 7 → completes (.servoConversionSlot m codes) s (fun t =>
        t.mot.pd2.getD (12 * (a / 4) + 3 * (a % 4) + (m - 5)) 0 = codes.getD a 0 % 65536 ∧ t.mot.pd1 = s.mot.pd1)) ∧
      (m = 0 ∨ m = 4 → (∀ b, b < 16 → ((codes.getD b 0 : Int) - 32768).natAbs ≤ 64) →
        completes (.servoConversionSlot m codes) s (fun t => t.mot = s.mot ∧ regsKeptBut [] s t))) ∧
    completes .dacUpdate s (fun t => t.mot.dacs = s.mot.dacs.map dacStep ∧ regsKeptBut [] s t)

/-- R9: the parameters, the check value and the stored form of every CRC-32C. -/
def Obligations.Crc32cIsTheReference : Prop :=
  (∀ bs : List Byte, crc32c bs = (crcReference bs).toNat) ∧
  crc32c [0x31#8, 0x32#8, 0x33#8, 0x34#8, 0x35#8, 0x36#8, 0x37#8, 0x38#8, 0x39#8] = 0xE3069283 ∧
  (∀ bs : List Byte, leBytes 4 (crc32c bs) = [BitVec.ofNat 8 (crc32c bs), BitVec.ofNat 8 (crc32c bs / 0x100),
    BitVec.ofNat 8 (crc32c bs / 0x10000), BitVec.ofNat 8 (crc32c bs / 0x1000000)]) ∧
  (∀ (b : List Byte) (o : Nat), crcOk b o = (leAt b o 4 == crc32c (patch b o [0#8, 0#8, 0#8, 0#8])))

/-- R14, for every function's BAR0 outside the MSI-X structures of R545 (0x3_0000 of the PF, 0 of a VF). -/
def Obligations.MissizedAccessesHaveNoEffect : Prop :=
  ∀ (s : State) (f off size v : Nat), (size ≠ 4 ∨ off % 4 ≠ 0) →
    (if f = 0 then off < 0x30000 ∨ 0x38100 ≤ off else 0x8100 ≤ off) →
    completes (.registerWrite f off size v) s (fun t => regsKeptBut [] s t ∧ onlyRegisters s t) ∧
    completes (.rcCounterRead f off size) s (fun t => t.out = s.out ++ [.regData off 0] ∧ regsKeptBut [] s t ∧ t.host = s.host ∧ t.mem = s.mem) ∧
    completes (.reg64LoRead f off size) s (fun t => t.out = s.out ++ [.regData off 0] ∧ regsKeptBut [] s t ∧ t.host = s.host ∧ t.mem = s.mem)

/-- R543: no register, no value and no effect. The restrictions of the halt, the holding and the APPLY window come on top. -/
def Obligations.OffsetsWithoutARegister : Prop :=
  (∀ (s : State) (off v : Nat), off % 4 = 0 → rowOf off = none → (off < 0x30000 ∨ 0x38100 ≤ off) →
    isLow off = false → isHigh off = false → isRc off = false →
    completes (.registerWrite 0 off 4 v) s (fun t => regsKeptBut [] s t ∧ t.unt = s.unt ∧ t.mot = s.mot ∧ t.media = s.media) ∧
    completes (.rcCounterRead 0 off 4) s (fun t => t.out = s.out ++ [.regData off 0] ∧ regsKeptBut [] s t)) ∧
  (∀ off : Nat, 0x83000 ≤ off → off < 0x4000000 → rowOf off = none ∧ isLow off = false ∧ isHigh off = false ∧ isRc off = false)

/-- R16 with Table 00-5, over every status the block posts. -/
def Obligations.StatusClassesOfTheTable : Prop :=
  ∀ st : Status, bits st.code 4 4 = statusClass st ∧ st.cls = statusClass st ∧ st.code < 256

/-- The numbers of instances that the statements about single instances take as a premise. -/
def Obligations.TablesKeepTheirSizes : Prop := ∀ s t : State, tablesWhole s → step s = .next t → tablesWhole t

/-- The invariant of TablesKeepTheirSizes holds at reset. -/
def Obligations.TablesWholeAtReset : Prop := tablesWhole State.reset

/-- Equal memories are equal data: the canonical form over every step. -/
def Obligations.MemoryStaysCanonical : Prop := ∀ s t : State, memoryWf s → step s = .next t → memoryWf t

/-- The invariant of MemoryStaysCanonical holds at reset. -/
def Obligations.MemoryCanonicalAtReset : Prop := memoryWf State.reset

/-- R340, R343, R346, R347, R349, R350, R370 and R372 to R374. A grant's ring is the arbiter's (arbitrateRings). -/
def Obligations.HostRings : Prop :=
  ∀ s : State,
    (∀ (f r v : Nat) (c : RingCtx), hasRings s f = true → inRange s f r = true → (fnSt s f).inFlr = false → ctxOf s r = some c →
      c.halted = false → v < 0x400000000 → bit v 32 = true → bit v 33 = false → bits v 0 16 < entries c →
      completes (.doorbell f (8 * r) 8 v) s (fun t => ∃ c', ctxOf t r = some c' ∧ c'.cmdTail = bits v 0 16 ∧
        c'.cplHead = c.cplHead ∧ c'.fetchHead = c.fetchHead ∧ c'.halted = false)) ∧
    (∀ f r v : Nat, hasRings s f = false → completes (.doorbell f (8 * r) 8 v) s (fun t =>
      flag t Fld.HQ_EVT_DB_DISCARD = true ∧ t.host.ctx = s.host.ctx ∧ t.host.doorbells = s.host.doorbells)) ∧
    (∀ (f r : Nat) (q : QueueFn) (d : List Byte), r ∈ s.host.loading.take 32 → fnOfRing s r = some f → fnCfg s f = some q →
      bit (leAt d 0x13 1) 0 = true → descError q d = none →
      completes (.contextLoadComplete r (some d)) s (fun t => ∃ c, ctxOf t r = some c ∧ c.fn = f ∧ c.cmdBase = leAt d 0 8 ∧
        c.cplBase = leAt d 8 8 ∧ c.sizeLog2 = leAt d 0x10 1 ∧ c.cls = leAt d 0x11 1 ∧ c.weight = leAt d 0x12 1 ∧
        c.vector = leAt d 0x14 2)) ∧
    (∀ (f r : Nat) (q : QueueFn), s.host.starved = [r] → r ∉ s.host.loading → ctxOf s r = none → fnOfRing s r = some f →
      fnCfg s f = some q → ctxHeld s f < q.ctxQuota →
      completes .contextFreed s (fun t => t.host.loading = s.host.loading ++ [r] ∧ t.host.starved = [])) ∧
    (∀ (f r : Nat) (c : RingCtx), sideServed s (ringCmdReg f) = true → inRange s f r = true → ctxOf s r = some c →
      completes (.ringInvalidate f r) s (fun t => ctxOf t r = some { c with invalidating := true } ∧
        flag t (Fld.HQ_FN_RING_STAT_DONE.at (fnOff f)) = false)) ∧
    (∀ (r : Nat) (c : RingCtx), ctxOf s r = some c → c.invalidating = true → inFlight s r = 0 → s.host.starved = [] →
      completes (.ringInvalidateDone r) s (fun t => ctxOf t r = none ∧
        flag t (Fld.HQ_FN_RING_STAT_DONE.at (fnOff c.fn)) = true)) ∧
    (∀ f r : Nat, sideServed s (ringCmdReg f) = true → inRange s f r = true →
      completes (.ringQuery f r) s (fun t => flag t (Fld.HQ_FN_RING_STAT_RESIDENT.at (fnOff f)) = (ctxOf s r).isSome ∧
        regsKeptBut [Reg.HQ_FN_RING_STAT + fnOff f] s t ∧ onlyRegisters s t)) ∧
    (∀ (b : List Byte) (aux : Option (List Byte)) (r : Nat) (s1 : State) (c : RingCtx), fetching s = true →
      pairAllows s = true → (ctxs s).filter (fun e => eligible s e.1 e.2) ≠ [] → (cmds s).length < 8192 →
      arbitrateRings ((ctxs s).filter (fun e => eligible s e.1 e.2)) s = (r, s1) → ctxOf s1 r = some c → isOwner s1 = true →
      (∀ e ∈ cmds s1, ¬ (e.2.ring = r ∧ e.2.slot = c.fetchHead ∧ e.2.remote = false)) →
      completes (.grant (some b) aux) s (fun t =>
        (∃ c', ctxOf t r = some c' ∧ c'.fetchHead = (c.fetchHead + 1) % entries c ∧
          c'.wrapped = (c.wrapped || (c.fetchHead + 1) % entries c == 0)) ∧
        ∃ k, cmdOf t (firstFree 0 s1.host.cmds) = some k ∧ k.ring = r ∧ k.slot = c.fetchHead ∧ k.cmd = HostCmd.ofBytes b ∧
          k.seq = get64 s1 Reg.HQ_SEQ_LO + 1)) ∧
    completes .uTokenRefill s (fun t => getReg t Reg.HQ_U_TOKENS = getReg s Reg.HQ_U_BUDGET ∧
      regsKeptBut [Reg.HQ_U_TOKENS] s t ∧ onlyRegisters s t) ∧
    (∀ (r : Nat) (c : RingCtx), ctxOf s r = some c → c.unsignalled ≠ 0 → c.intEn = true → (fnSt s c.fn).msixEn = true →
      (fnSt s c.fn).fnMask = false → (Tbl.get {} (vecKey c.fn c.vector) s.host.msix : MsixVec).masked = false →
      completes (.coalesceTimerExpiry r) s (fun t => t.out = s.out ++ [.msix c.fn c.vector] ∧
        ctxOf t r = some { c with unsignalled := 0 })) ∧
    (∀ f v : Nat, v < msixCount s f → (fnSt s f).msixEn = true → (fnSt s f).fnMask = false →
      (Tbl.get {} (vecKey f v) s.host.msix : MsixVec).pending = true →
      completes (.msixUnmask f (some v)) s (fun t => t.out = s.out ++ [.msix f v] ∧
        (Tbl.get {} (vecKey f v) t.host.msix : MsixVec).pending = false)) ∧
    (∀ f : Nat, f ≠ 0 → completes (.flr f) s (fun t => (fnSt t f).inFlr = true ∧
      ∀ r, inRange s f r = true → bellOf t r = {})) ∧
    (∀ f : Nat, (fnSt s f).inFlr = true → (∀ e ∈ cmds s, e.2.fn ≠ f) → completes (.flrEnd f) s (fun t =>
      (fnSt t f).inFlr = false ∧ ∀ e ∈ ctxs t, e.2.fn ≠ f))

/-- The data and the steps of a READ's blocks, where every block's outcome is known to be good. -/
def readGood (s : State) (c : Cmd) : List (List Byte × Nat × Nat) :=
  (List.range c.cmd.count).filterMap (fun i => match blockOutcome s c i with | some (.inr d) => some d | _ => none)

/-- R359, R361, R367, R377, R378, R381, R383, R389, R395, R398, R407 and R509. -/
def Obligations.HostCommandEnds : Prop :=
  ∀ (s : State) (n : Nat) (c : Cmd), onTag s n c → Tbl.sorted s.host.cmds = true →
    (mayRun s c = true → c.cmd.opcode ≠ opRead → completes (.commandRun n) s (fun t => ∃ d, cmdOf t n = some d ∧
      (d.state = .running ∨ d.state = .ended))) ∧
    (mayRun s c = true → c.cmd.opcode = opRead → completes (.commandRun n) s (fun t => ∃ d, cmdOf t n = some d ∧
      d.lock = none ∧ (d.state = .running ∧ d.snap = snapshot s c ∨ d.state = .ended))) ∧
    (c.cmd.opcode = opNop → c.state = .running → completes (.nop n) s (fun t => endedAs t n .success 0)) ∧
    (c.cmd.opcode = opRead → c.state = .running → c.gate = .open →
      (∀ i < c.cmd.count, ∃ d, blockOutcome s c i = some (.inr d)) →
      completes (.read n) s (fun t => endedAs t n
          (readStatus ((readGood s c).foldl (fun a d => max a d.2.1) c.media) ((readGood s c).foldl (fun a d => max a d.2.2) c.step))
          (c.snap.filter (fun b => b = .never)).length ∧
        ∀ o ∈ (sendData n c ((readGood s c).flatMap (·.1)) s).out, o ∈ t.out)) ∧
    (∀ (i : Nat) (st : Status), c.cmd.opcode = opRead → c.state = .running → c.gate = .open → i < c.cmd.count →
      (∀ j < c.cmd.count, (blockOutcome s c j).isSome) → blockOutcome s c i = some (.inl st) →
      (∀ j < i, ∃ d, blockOutcome s c j = some (.inr d)) →
      completes (.read n) s (fun t => endedAs t n st i)) ∧
    (c.cmd.opcode = opWrite → c.state = .running → c.reading = false → (formsHank s c.cmd && noHankEngine s) = false →
      belowLimit s = true → c.remote = false →
      completes (.write n) s (fun t => cmdOf t n = some { c with reading := true } ∧
        t.out = s.out ++ c.segs.map (fun g => .hostRead c.fn g.1 g.2)) ∧
      (cmds s = [(n, c)] → completes .writeBehindSpace s (fun t => cmdOf t n = some { c with reading := true } ∧
        t.out = s.out ++ c.segs.map (fun g => .hostRead c.fn g.1 g.2)))) ∧
    (∀ d : List Byte, c.cmd.opcode = opWrite → c.state = .running → c.reading = true → c.heldPoint = false → c.held = [] →
      0 < c.cmd.count → mirroring s = false → s.pair.settling = false → acked s (.held n) = true → asFua s c = false →
      completes (.writeHeldPoint n (some d)) s (fun t => endedAs t n .success 0 ∧
        t.media.nextHeld = s.media.nextHeld + c.cmd.count)) ∧
    (c.state = .running → c.waitsKnot = none → c.gate = .open → cmds s = [(n, c)] →
      (c.cmd.opcode = opFlush → commitReached s c = true → completes (.flush n) s (fun t => endedAs t n .success 0)) ∧
      (c.cmd.opcode = opCreate → commitReached s c = true → completes (.volumeCreate n) s (fun t =>
        endedAs t n .success (unitOf s (uVol c.cmd.volume)).epoch.toNat)) ∧
      (c.cmd.opcode = opClose → commitReached s c = true → completes (.volumeClose n) s (fun t => endedAs t n .success 0)) ∧
      (c.cmd.opcode = opFlush → commitReached s c = false → blockedBy s c.cmd.volume (c.seq - 1) = none →
        hankBlocked s c.cmd.volume (c.seq - 1) = false →
        completes (.flush n) s (fun t => cmdOf t n = some { c with waitsKnot := some (c.seq - 1) }))) ∧
    (∀ (u : Nat) (d : Cmd) (i : Image) (f : QueueFn), c.cmd.opcode = opAbort → c.state ≠ .ended → c.waitsKnot = none → c.gate = .open →
      s.img.running = some i → i.queues.fns[c.fn]? = some f → f.ringBase ≤ HostCmd.targetRing c.cmd →
      HostCmd.targetRing c.cmd < f.ringBase + f.ringCount →
      abortee s c.remote (HostCmd.targetRing c.cmd) (HostCmd.targetSlot c.cmd) = some (u, d) → u ≠ n → onTag s u d →
      d.cmd.opcode ≠ opAbort → unitPath d.cmd.opcode = false → d.state = .waiting →
      completes (.abort n) s (fun t => endedAs t n .success 0 ∧ endedAs t u .aborted 0)) ∧
    (c.cmd.opcode = opImport → c.state = .running → c.gate = .open → c.reading = true → c.fails = [] →
      (∀ i < c.cmd.count, Tbl.get [] i c.got ≠ []) →
      completes (.importRead n) s (fun t => endedAs t n (if c.step = 3 then .successRecovered else .success) 0)) ∧
    (∀ (u h : Nat), c.gate = .suspect u h → c.state ≠ .ended →
      completes (.suspectHoldExpiry n) s (fun t => endedAs t n .unitSuspect 0 ∧ flag t Fld.UNT_EVT_SUSPECT_EXPIRED = true)) ∧
    (c.state = .waiting → c.warned = false → lockWaits s c ≠ [] →
      completes (.lockWaitLong n) s (fun t => cmdOf t n = some { c with warned := true } ∧
        flag t Fld.ORD_EVT_LOCK_WAIT_LONG = true)) ∧
    (∀ x : RingCtx, s.pwr.pfRunning = false → nextPost s true c.ring = none → nextPost s false c.ring = some (n, c) →
      ctxOf s c.ring = some x → acked s (.replay c.seq) = true → (fnSt s c.fn).busMaster = true → (fnSt s c.fn).d3 = false →
      (fnSt s c.fn).inFlr = false → (x.cplHead + 2 * entries x - x.cplTail - 1) % entries x ≠ 0 →
      completes (.completionPost c.ring) s (fun t => cmdOf t n = none ∧
        .hostWrite c.fn (x.cplBase + 16 * x.cplTail) (completionBytes c.seq c.result c.slot c.status.code x.phase c.replayed
          c.relocated c.step) ∈ t.out ∧ ∃ y, ctxOf t c.ring = some y ∧ y.cplTail = (x.cplTail + 1) % entries x))

/-- R394 and R406. -/
def Obligations.GenerationsAndReplayTables : Prop :=
  ∀ s : State, sideServed s Reg.ORD_CTRL = true →
    ((volOf s (getF s Fld.ORD_VOL_SEL_VOLUME)).highGen < get64 s Reg.ORD_GEN_ARG_LO → completes .genLookup s (fun t =>
      getF t Fld.ORD_GEN_RESULT_BEYOND = 1 ∧ getF t Fld.ORD_GEN_RESULT_DONE = 1 ∧ get64 t Reg.ORD_GEN_CUT_LO = 0 ∧
      flag t Fld.ORD_EVT_GEN_DONE = true)) ∧
    (∀ x : Cut, get64 s Reg.ORD_GEN_ARG_LO ≤ (volOf s (getF s Fld.ORD_VOL_SEL_VOLUME)).highGen →
      (volOf s (getF s Fld.ORD_VOL_SEL_VOLUME)).cuts.find? (fun x => x.generation == get64 s Reg.ORD_GEN_ARG_LO) = some x →
      x.seq < 0x10000000000000000 → completes .genLookup s (fun t =>
        get64 t Reg.ORD_GEN_CUT_LO = x.seq ∧ flag t Fld.ORD_GEN_RESULT_PARTIAL = !x.wholly ∧ getF t Fld.ORD_GEN_RESULT_UNKNOWN = 0 ∧
        getF t Fld.ORD_GEN_RESULT_BEYOND = 0 ∧ getF t Fld.ORD_GEN_RESULT_DONE = 1)) ∧
    (get64 s Reg.ORD_GEN_ARG_LO ≤ (volOf s (getF s Fld.ORD_VOL_SEL_VOLUME)).highGen →
      (volOf s (getF s Fld.ORD_VOL_SEL_VOLUME)).cuts.find? (fun x => x.generation == get64 s Reg.ORD_GEN_ARG_LO) = none →
      completes .genLookup s (fun t => getF t Fld.ORD_GEN_RESULT_UNKNOWN = 1 ∧ get64 t Reg.ORD_GEN_CUT_LO = 0 ∧
        getF t Fld.ORD_GEN_RESULT_DONE = 1)) ∧
    ((∀ e ∈ cmds s, e.2.cmd.volume = getF s Fld.ORD_VOL_SEL_VOLUME → HostCmd.replay e.2.cmd = true → e.2.state = .ended) →
      completes .replayClear s (fun t =>
        volOf t (getF s Fld.ORD_VOL_SEL_VOLUME) = { volOf s (getF s Fld.ORD_VOL_SEL_VOLUME) with replay := [] } ∧
        regsKeptBut [] s t)) ∧
    (∀ e ∈ cmds s, e.2.cmd.volume = getF s Fld.ORD_VOL_SEL_VOLUME → HostCmd.replay e.2.cmd = true → e.2.state ≠ .ended →
      completes .replayClear s (fun t => flag t Fld.ORD_EVT_CLEAR_REFUSED = true ∧ t.media = s.media))

/-- The unit sequencer takes request r of a kind and code next, and its epoch and its unit's calibrations let it pass. -/
def taking (s : State) (k : ReqKind) (code : Nat) (r : UnitReq) : Prop :=
  headReq s = some r ∧ r.kind = k ∧ r.code = code ∧ takeCheck s r = none

/-- No calibration or self-test runs. -/
def noRuns (s : State) : Prop := s.cal.running = []

/-- R362, R480, R502, R505, R506, R508 and R580. Units below 0x40 are all but the volumes, which take no request. -/
def Obligations.UnitRequestsAct : Prop :=
  ∀ (s : State) (r : UnitReq),
    (∀ (n : Nat) (c : Cmd), headReq s = some r → r.sender = .ring n → onTag s n c → Tbl.sorted s.host.cmds = true →
      (r.kind = .query → completes .unitQuery s (fun t => endedAs t n .success (unitOf s r.unit).epoch.toNat ∧
        (c.remote = false → c.cmd.dataAddr ≠ 0 → .hostWrite c.fn c.cmd.dataAddr (unitReport s r.unit) ∈ t.out))) ∧
      (r.kind = .info → completes .volumeInfo s (fun t => endedAs t n .success 0 ∧
        (c.remote = false → .hostWrite c.fn c.cmd.dataAddr (volumeReport s (r.unit - 0x40)) ∈ t.out))) ∧
      (taking s .request 0x03 r → (ust s r.unit).serves = true → completes .unitRequestReady s (fun t =>
        endedAs t n .success (unitOf s r.unit).epoch.toNat ∧ t.unt.tab = s.unt.tab))) ∧
    (noRuns s → r.unit < 0x40 →
      (taking s .request 0x01 r → r.unit ≠ uPartner → (ust s r.unit).serves = true →
        completes .unitRequestOffline s (fun t => ust t r.unit = .draining)) ∧
      (taking s .request 0x01 r → (isSide r.unit || isStrand r.unit) = true → ust s r.unit = .starting →
        completes .unitRequestOffline s (fun t => ust t r.unit = .offline)) ∧
      (taking s .request 0x03 r → heldBackUnit s r.unit = false → r.unit = uSpindle → ust s uSpindle = .offline →
        completes .unitRequestReady s (fun t => ust t uSpindle = .starting)) ∧
      (taking s .request 0x03 r → isBuf r.unit = true → ust s r.unit = .service →
        completes .unitRequestReady s (fun t => ust t r.unit = .ready)) ∧
      (taking s .request 0x07 r → heldBackUnit s r.unit = false → isBuf r.unit = false → (ust s r.unit).serves = true →
        completes .unitRequestService s (fun t => ust t r.unit = .draining)) ∧
      (taking s .request 0x07 r → heldBackUnit s r.unit = false → isBuf r.unit = false → ust s r.unit = .offline →
        completes .unitRequestService s (fun t => ust t r.unit = .service)) ∧
      (s.unt.bufService = [r] → isBuf r.unit = true → ust s r.unit = .ready → heldLeft s = false → othersEnded s r = true →
        completes .bufferChannelServiceReady s (fun t => ust t r.unit = .service ∧ t.unt.bufService = [])) ∧
      (∀ answers : Bool, taking s .request 0x10 r → sensedNow s r.unit answers = false → ust s r.unit ≠ .suspect →
        completes (.assertPresent answers) s (fun t => ust t r.unit = .suspect ∧ flag t Fld.UNT_EVT_STATE_CONFLICT = true)) ∧
      (∀ answers : Bool, taking s .request 0x11 r → sensedNow s r.unit answers = true → ust s r.unit ≠ .suspect →
        completes (.assertAbsent answers) s (fun t => ust t r.unit = .suspect ∧ flag t Fld.UNT_EVT_STATE_CONFLICT = true)) ∧
      (ust s r.unit = .draining → drainOver s r.unit = true →
        s.unt.open_.find? (fun q => q.unit == r.unit && (q.code == 0x01 || q.code == 0x07)) = some r →
        completes (.drainComplete r.unit) s (fun t =>
          (r.code = 0x07 → ust t r.unit = .service) ∧ ((isSide r.unit || isStrand r.unit) = true → r.code = 0x01 → ust t r.unit = .offline))))

/-- The commands that take a CALIBRATE, by kind, and those that take a SELF_TEST (Table 16-1). -/
def calRows : List (Nat × Instr) :=
  [(1, .calibrateChannel), (2, .calibrateServoLayer), (3, .calibrateServoRadius), (4, .calibrateWritePower), (5, .calibrateSledHome),
   (6, .calibrateSpindle)]
def testRows : List (Nat × Instr) := [(1, .selfTestParity), (2, .selfTestMram), (3, .selfTestMemBist)]

/-- The word that CAL_LAST takes for a run that ends with a status and an OUTCOME. -/
def lastWord (x : CalRun) (st : Status) (outcome : Nat) : Word :=
  BitVec.ofNat 32 (x.unit * 0x1000000 + x.code * 0x100000 + (if x.op = opCalibrate then 1 else 2) * 0x40000 + st.code * 0x100 + outcome)

/-- A run on a unit in SERVICE has started and waits for its measurements, and is the only one. -/
def runsAlone (s : State) (x : CalRun) (op code : Nat) : Prop :=
  s.cal.running = [x] ∧ x.op = op ∧ x.code = code ∧ x.started = true ∧ x.ending = none ∧ x.unit ≠ uSpindle

/-- R478, R480, R483, R486, R487 and R493 to R495. -/
def Obligations.CalibrationsBeginAndEnd : Prop :=
  ∀ s : State,
    (∀ (r : UnitReq) (e : Nat × Instr), e ∈ calRows → taking s .calibrate e.1 r → (if e.1 = 6 then r.unit = uSpindle else isCar r.unit = true) →
      calStateOk s r = true → heldBackUnit s r.unit = false → calOthersOk s r = true → noRuns s →
      (ust s r.unit ≠ .service → completes e.2 s (fun t => ust t r.unit = .draining ∧ t.cal.running = [newRun s r])) ∧
      (ust s r.unit = .service → completes e.2 s (fun t => ust t r.unit = .service ∧ t.cal.running =
        [{ newRun s r with started := true, since := s.pwr.time, run := min 0xFFFFFFFF ((getReg s Reg.CAL_LAST_RUN).toNat + 1) }]))) ∧
    (∀ (r : UnitReq) (e : Nat × Instr), e ∈ testRows → taking s .selfTest e.1 r → isBuf r.unit = true →
      calStateOk s r = true → noRuns s →
      completes e.2 s (fun t => ust t r.unit = ust s r.unit ∧
        t.cal.running = [{ newRun s r with started := true, since := s.pwr.time, run := 0 }])) ∧
    (∀ x : CalRun, runsAlone s x opSelfTest 2 → completes (.calibrationEnd x.unit (.mram true)) s (fun t =>
      t.cal.running = [] ∧ getReg t Reg.CAL_LAST = lastWord x .success 1)) ∧
    (∀ x : CalRun, runsAlone s x opSelfTest 1 → flag s Fld.CAL_CTRL_FORCE_CHECKER_FAIL = false →
      completes (.calibrationEnd x.unit (.parity [] false)) s (fun t =>
        t.cal.running = [] ∧ getReg t Reg.CAL_LAST = lastWord x .success 1)) ∧
    (∀ (x : CalRun) (ss : List (List PowerStep)), runsAlone s x opCalibrate 4 →
      completes (.calibrationEnd x.unit (.power true ss)) s (fun t =>
        t.cal.running = [] ∧ getReg t Reg.CAL_LAST = lastWord x .mediumFull 4)) ∧
    (∀ (x : CalRun) (ps : List ServoPoint) (p : ServoPoint) (v code : Nat), code = 2 ∨ code = 3 → runsAlone s x opCalibrate code →
      p ∈ ps → v ∈ p.rms → 400 ≤ v → completes (.calibrationEnd x.unit (.servo ps)) s (fun t =>
        t.cal.running = [] ∧ getReg t Reg.CAL_LAST = lastWord x .mediumUnrecovered 3)) ∧
    (∀ (x : CalRun) (op code : Nat), runsAlone s x op code → completes (.calibrationTimeout x.unit) s (fun t =>
      t.cal.running = [] ∧ getReg t Reg.CAL_LAST = lastWord x .mediumUnrecovered 4 ∧ flag t Fld.CAL_EVT_TIMEOUT = true))

/-- R274: 500 ms after a loss the carriage serves again or is FAULTED. -/
def Obligations.ReacquireTimeoutFaults : Prop :=
  ∀ (s : State) (c : Nat), c < 4 → s.mot.cars.length = 4 →
    ((carOfS s c).lostAt.isSome = true → (ust s (uCar c)).serves = false → completes (.carriageReacquireTimeout c) s (fun t =>
      ust t (uCar c) = .faulted ∧ (carOfS t c).lostAt = none ∧ t.pins.len.getD c false = false ∧ t.pins.wgate.getD c false = false)) ∧
    ((ust s (uCar c)).serves = true → completes (.carriageReacquireTimeout c) s (fun t =>
      carOfS t c = { carOfS s c with lostAt := none } ∧ t.unt = s.unt ∧ t.regs = s.regs))

/-- The cache is quiet: no request waits, no range operation runs, no line has failed, and no error is forced. -/
def cacheQuiet (s : State) : Prop :=
  s.bc.waiting = [] ∧ s.bc.range = none ∧ s.bc.bad = [] ∧ flag s Fld.BC_TEST_FORCE_DATA_PARITY = false

/-- R410 to R412, R415, R420 and R422. -/
def Obligations.CacheServesRequests : Prop :=
  ∀ s : State,
    (∀ (r : CacheReq) (walked : Nat) (tags : List Nat), cacheQuiet s → r.write = none →
      (∀ (k : Nat) (x : CacheLine), bcState s ≠ 0 → r.port ≠ 5 → findLine s (r.addr / 64) = some (k, x) →
        completes (.cacheRequest r [] walked tags none) s (fun t => memoryKept s t ∧
          t.out = s.out ++ [.cacheData r.port r.addr (slice x.data (r.addr % 64) r.len)] ∧
          (getReg t (Reg.BC_PORT_HIT + 4 * r.port)).toNat = min 0xFFFFFFFF ((getReg s (Reg.BC_PORT_HIT + 4 * r.port)).toNat + 1))) ∧
      (bcState s = 1 → r.port ≠ 5 → findLine s (r.addr / 64) = none → findVictim s (r.addr / 64) = none → s.bc.miss = [] →
        completes (.cacheRequest r [] walked tags none) s (fun t => memoryKept s t ∧ t.out = s.out ∧
          t.bc = { s.bc with miss := [{ line := r.addr / 64, reqs := [(r, false)] }] } ∧
          (getReg t (Reg.BC_PORT_MISS + 4 * r.port)).toNat = min 0xFFFFFFFF ((getReg s (Reg.BC_PORT_MISS + 4 * r.port)).toNat + 1))) ∧
      (r.port = 5 ∨ bcState s = 0 → completes (.cacheRequest r [] walked tags none) s (fun t => memoryKept s t ∧ t.bc = s.bc ∧
        t.out = s.out ++ [.cacheData r.port r.addr (slice (memLine s (r.addr / 64)) (r.addr % 64) r.len)]))) ∧
    (∀ (r : CacheReq) (walked : Nat) (tags : List Nat), cacheQuiet s → r.write.isSome = true → r.port = 5 ∨ bcState s = 0 →
      completes (.cacheRequest r [] walked tags none) s (fun t => t.bc = s.bc ∧ t.out = s.out ∧
        memLine t (r.addr / 64) = mergeReq r (memLine s (r.addr / 64)) ∧
        ∀ a, a / 64 ≠ r.addr / 64 → Tbl.get 0#8 a t.mem.bytes = Tbl.get 0#8 a s.mem.bytes)) ∧
    (∀ (m : MissEntry) (r : CacheReq) (beat : Nat), s.bc.waiting = [] → s.bc.miss = [m] → m.reqs = [(r, false)] → r.write = none →
      beat < 4 → m.beats.contains beat = false → m.beats.length < 3 → writingBack s m.line = false →
      completes (.fillBeat m.line beat) s (fun t => memoryKept s t ∧
        ((beatsOf r).all (m.beats ++ [beat]).contains = true →
          t.out = s.out ++ [.cacheData r.port r.addr (slice (memLine s m.line) (r.addr % 64) r.len)] ∧
          t.bc.miss = [{ m with beats := m.beats ++ [beat], reqs := [(r, true)] }]) ∧
        ((beatsOf r).all (m.beats ++ [beat]).contains = false →
          t.out = s.out ∧ t.bc.miss = [{ m with beats := m.beats ++ [beat] }]))) ∧
    (∀ w : WriteBack, s.bc.waiting = [] → s.bc.miss = [] → s.bc.victims = [] → s.bc.wbs = [w] → w.data.length = 64 →
      completes (.writebackComplete w.line) s (fun t => t.bc.wbs = [] ∧ t.bc.twins = dropFirst w.line s.bc.twins ∧
        memLine t w.line = w.data ∧ ∀ a, a / 64 ≠ w.line → Tbl.get 0#8 a t.mem.bytes = Tbl.get 0#8 a s.mem.bytes)) ∧
    (∀ off len : Nat, 6 ≤ stage s → completes (.bar2Access off len none false) s (fun t => memoryKept s t ∧
      t.out = s.out ++ [.bar2 false ((upFrom off len).map (bar2Byte s))])) ∧
    (∀ (off : Nat) (bs : List (Option Byte)), 6 ≤ stage s → completes (.bar2Access off bs.length (some bs) false) s (fun t =>
      t.mem = s.mem ∧ t.out = s.out ∧ ∀ a, Tbl.get 0#8 a t.bc.scratch =
        if off ≤ a ∧ a < off + bs.length ∧ 0x100000 ≤ a ∧ a < getF s Fld.BC_CFG_SCRATCH_WAYS * 0x100000
        then (bs.getD (a - off) none).getD (Tbl.get 0#8 a s.bc.scratch) else Tbl.get 0#8 a s.bc.scratch))

/-- The number of locked lines that a range operation has retained, as INV_DONE finds it. -/
def retainedAt (r : RangeOp) (s : State) : Nat := ((walkTo (walkEnd r) s).bc.range.map (·.retained)).getD 0

/-- R417 to R419, R424 and R425. -/
def Obligations.CacheOperations : Prop :=
  ∀ s : State,
    (∀ clean force whole : Bool, sideServed s Reg.BC_INV_CMD = true →
      (s.bc.range = none → completes (if clean then .cacheCleanInv force whole else .cacheClean force whole) s (fun t =>
        (∃ o, t.bc.range = some o ∧ o.clean = clean ∧ o.force = force ∧ o.whole = whole ∧ o.pos = 0 ∧ o.retained = 0) ∧
        t.bc.lines = s.bc.lines ∧ getReg t Reg.BC_INV_STATUS = (if clean then 1#32 else 2#32) ∧ t.mem = s.mem)) ∧
      (s.bc.range.isSome = true → completes (if clean then .cacheCleanInv force whole else .cacheClean force whole) s (fun t =>
        flag t Fld.BC_INV_STATUS_REFUSED = true ∧ t.bc = s.bc ∧ regsKeptBut [Reg.BC_INV_STATUS] s t))) ∧
    (∀ r : RangeOp, s.bc.range = some r → s.bc.waiting = [] → s.bc.miss = [] →
      completes .invDone s (fun t => t.bc.range = none ∧ flag t Fld.BC_INV_STATUS_DONE = true ∧ flag t Fld.BC_EVT_INV_DONE = true ∧
        getReg t Reg.BC_INV_RETAINED = BitVec.ofNat 32 (retainedAt r s))) ∧
    (sideServed s Reg.BC_LOCK_CMD = true → ∀ all_ : Bool,
      (bcState s ≠ 1 →
        completes .cacheLock s (fun t => getReg t Reg.BC_LOCK_STATUS = 0x20000000#32 ∧ t.bc = s.bc ∧ t.mem = s.mem) ∧
        completes (.cacheUnlock all_) s (fun t => getReg t Reg.BC_LOCK_STATUS = 0x20000000#32 ∧ t.bc = s.bc ∧ t.mem = s.mem)) ∧
      (bcState s = 1 →
        (s.bc.waiting = [] → s.bc.miss = [] → completes .cacheLock s (fun t => getReg t Reg.BC_LOCK_STATUS = 0x80000000#32)) ∧
        completes (.cacheUnlock all_) s (fun t => getReg t Reg.BC_LOCK_STATUS = 0x80000000#32 ∧ t.mem = s.mem ∧
          (all_ = true → lockedLines t = 0)))) ∧
    (sideServed s Reg.BC_CTRL = true →
      (bcState s = 1 → Tbl.sorted s.bc.lines = true → completes .cacheDisable s (fun t => getF t Fld.BC_CTRL_ENABLE = 0 ∧ bcState t = 2 ∧
        t.mem = s.mem ∧ ∀ e ∈ t.bc.lines, ∀ x, e.2 = some x → x.dirty = false)) ∧
      (bcState s = 2 → completes .cacheEnable s (fun t => getF t Fld.BC_CTRL_ENABLE = 1 ∧ bcState t = 1 ∧ t.bc = s.bc)) ∧
      (bcState s = 0 → completes .cacheEnable s (fun t => getF t Fld.BC_CTRL_ENABLE = 1 ∧ bcState t = 1 ∧ t.bc = s.bc ∧
        (flag s Fld.BC_STATUS_STALE_RISK = true → flag t Fld.BC_EVT_STALE_ENABLE = true)))) ∧
    (bcState s = 2 → s.bc.waiting = [] → s.bc.miss = [] → completes .cacheCleaningDone s (fun t => bcState t = 0 ∧
      flag t Fld.BC_STATUS_STALE_RISK = true ∧ flag t Fld.BC_EVT_DISABLED = true ∧ t.bc.victims = []))

/-- A counter word in t is that of s plus n, saturating (R551). -/
def countedBy (s t : State) (off n : Nat) : Prop := (getReg t off).toNat = min 0xFFFFFFFF ((getReg s off).toNat + n)

/-- R435 to R437, R441, R442, R444 and R445. -/
def Obligations.BufferMemoryUpkeep : Prop :=
  ∀ s : State,
    (∀ (port addr lanes replays : Nat) (use : LineUse) (bad : Bool), ust s (uBuf (channelOf s (addr / 64))) ≠ .faulted → addr / 64 < memLines s →
      flag s Fld.INT_CTRL_FORCE_PARITY = false →
      completes (.memoryReadReturn port addr lanes 0 false use bad) s (fun t => countedBy s t Reg.BM_CNT 1 ∧ regsKeptBut [Reg.BM_CNT] s t ∧
        memoryKept s t ∧ t.out = s.out) ∧
      (0 < replays → completes (.memoryReadReturn port addr lanes replays false use bad) s (fun t => countedBy s t Reg.BM_CNT 1 ∧
        countedBy s t Reg.INT_CNT 1 ∧ countedBy s t (Reg.INT_CNT + 4) (min 2 replays) ∧ countedBy s t (Reg.INT_CNT + 8) 1 ∧
        memoryKept s t ∧ t.out = s.out))) ∧
    (∀ (addr lanes k m : Nat) (bad : Bool), ust s (uBuf (channelOf s (addr / 64))) ≠ .faulted → addr / 64 < memLines s → s.mem.errTimes = [] → lanes < 0x100 →
      completes (.memoryReadReturn 0 addr lanes 2 true (.payload k m) bad) s (fun t =>
        Tbl.get none (16 * k + m) t.pool.cached = none ∧ countedBy s t (Reg.INT_CNT + 16) 1 ∧ flag t Fld.INT_EVT_PARITY_REFETCH = true ∧
        getF t Fld.INT_ERR_INFO_CLASS = 6 ∧ getF t Fld.INT_ERR_INFO_OUTCOME = 1 ∧ memoryKept s t)) ∧
    (∀ (addr : Nat) (rest : List Nat), s.mem.repairs = addr :: rest →
      completes (.parityRepair false false) s (fun t => t.mem.repairs = rest ∧ memLine t (addr / 64) = memLine s (twinOf s (addr / 64)) ∧
        (∀ a, a / 64 ≠ addr / 64 → Tbl.get 0#8 a t.mem.bytes = Tbl.get 0#8 a s.mem.bytes) ∧ flag t Fld.INT_EVT_PARITY_REPAIRED = true) ∧
      completes (.parityRepair true false) s (fun t => t.mem = { s.mem with repairs := rest } ∧ regsKeptBut [] s t) ∧
      (∀ b : Bool, completes (.parityRepair b true) s (fun t => t.mem = { s.mem with repairs := rest } ∧ regsKeptBut [Reg.INT_ERR_INFO] s t ∧
        (get64 s Reg.INT_ERR_ADDR_LO = addr → getF t Fld.INT_ERR_INFO_OUTCOME = 4)))) ∧
    (5 ≤ stage s → getF s Fld.BM_STATUS_STATE ≠ 2 →
      (∀ idle : Bool, getF s refOwed < 3 → completes (.refreshDue true idle) s (fun t => getF t refOwed = getF s refOwed + 1 ∧
        countedBy s t (Reg.BM_CNT + 20) 1)) ∧
      (∀ idle : Bool, 3 ≤ getF s refOwed → completes (.refreshDue true idle) s (fun t => getF t refOwed = 3 ∧
        countedBy s t (Reg.BM_CNT + 24) 1 ∧ flag t Fld.BM_EVT_REFRESH_FORCED = true)) ∧
      completes (.refreshDue false true) s (fun t => getF t refOwed = 0 ∧ countedBy s t (Reg.BM_CNT + 16) (getF s refOwed + 1)) ∧
      completes (.refreshDue false false) s (fun t => countedBy s t (Reg.BM_CNT + 16) 1 ∧ regsKeptBut [Reg.BM_CNT + 16] s t)) ∧
    (∀ hot : Bool, 5 ≤ stage s → completes (.dramTempPoll hot) s (fun t => getF t refInterval = (if hot then 1950 else 3900) ∧
      flag t Fld.BM_STATUS_DRAM_HOT = hot ∧ (hot = true → flag s Fld.BM_STATUS_DRAM_HOT = false → flag t Fld.BM_EVT_DRAM_HOT = true))) ∧
    (6 ≤ stage s → getF s Fld.BM_STATUS_STATE = 1 → pointTarget s ≠ getF s Fld.BM_STATUS_POINT →
      completes .pointChangeBegin s (fun t => getF t Fld.BM_STATUS_STATE = 2 ∧ regsKeptBut [Reg.BM_STATUS] s t)) ∧
    (getF s Fld.BM_STATUS_STATE = 2 → completes .pointChangeDrained s (fun t => getF t Fld.BM_STATUS_STATE = 1 ∧
      getF t Fld.BM_STATUS_POINT = 1 - getF s Fld.BM_STATUS_POINT ∧ getF t Fld.BM_STATUS_SET = 1 - getF s Fld.BM_STATUS_SET ∧
      getF t refOwed = 0 ∧ flag t Fld.BM_EVT_POINT_DONE = true)) ∧
    (scrubRuns s = true → ust s (uBuf (channelOf s (getReg s Reg.INT_SCRUB_POS).toNat)) ≠ .faulted → s.mem.burstLeft = 0 →
      ((getReg s Reg.INT_SCRUB_POS).toNat + 1 < memLines s → completes .scrubRead s (fun t =>
        (getReg t Reg.INT_SCRUB_POS).toNat = (getReg s Reg.INT_SCRUB_POS).toNat + 1 ∧ countedBy s t (Reg.INT_CNT + 24) 1)) ∧
      (memLines s ≤ (getReg s Reg.INT_SCRUB_POS).toNat + 1 → completes .scrubRead s (fun t => getReg t Reg.INT_SCRUB_POS = 0#32 ∧
        countedBy s t (Reg.INT_CNT + 24) 1 ∧ countedBy s t Reg.INT_SCRUB_PASSES 1 ∧ flag t Fld.INT_EVT_SCRUB_PASS = true)))

/-- R446, R448, R450 and R508. -/
def Obligations.RecordStoreAndSensors : Prop :=
  ∀ s : State,
    (∀ (w : MramWrite) (ws : List MramWrite), s.mram.queue = w :: ws →
      (w.tries = 0 → completes .mramRecordWrite s (fun t =>
        t.mram = { s.mram with queue := { w with slotB := olderSlot (mramRec s w.typ w.index), tries := 1 } :: ws } ∧ t.regs = s.regs)) ∧
      (0 < w.tries → completes (.mramWriteDone true) s (fun t => t.mram.queue = ws ∧
        (if w.slotB then (mramRec t w.typ w.index).b else (mramRec t w.typ w.index).a) =
          some { generation := nextGeneration (mramRec s w.typ w.index) w.slotB, payload := w.payload } ∧
        (∀ typ index : Nat, recKey typ index ≠ recKey w.typ w.index → mramRec t typ index = mramRec s typ index) ∧ t.regs = s.regs)) ∧
      (w.tries = 1 → completes (.mramWriteDone false) s (fun t => t.mram.queue = { w with tries := 2 } :: ws ∧
        (if w.slotB then (mramRec t w.typ w.index).b else (mramRec t w.typ w.index).a) = none ∧ t.regs = s.regs)) ∧
      (2 ≤ w.tries → completes (.mramWriteDone false) s (fun t => t.mram.queue = ws ∧
        (if w.slotB then (mramRec t w.typ w.index).b else (mramRec t w.typ w.index).a) = none ∧
        (if w.slotB then (mramRec t w.typ w.index).a else (mramRec t w.typ w.index).b) =
          (if w.slotB then (mramRec s w.typ w.index).a else (mramRec s w.typ w.index).b) ∧
        flag t Fld.INT_EVT_MRAM_WRITE_FAIL = true))) ∧
    (stage s = 7 → halted s = false → completes .countersSaveHourly s (fun t =>
      t.mram.queue = s.mram.queue ++ [{ typ := 0x20, index := 0, payload := counterBytes s }] ∧ t.mram.carry = [] ∧ t.regs = s.regs)) ∧
    (∀ (active : Bool) (carts : List Bool), stage s < 6 → carts.length = 4 → completes (.discPresentChange active carts) s (fun t =>
      t.pwr.discActive = active ∧ t.pwr.cartSns = carts ∧ t.unt = s.unt ∧ t.regs = s.regs)) ∧
    (∀ (carts : List Bool) (u : State), 6 ≤ stage s → halted s = false → isOwner s = true → ust s uDisc = .absent → carts.length = 4 →
      s.cal.running = [] → u = { s with pwr := { s.pwr with discActive := true, cartSns := carts } } → discSensed u = true →
      completes (.discPresentChange true carts) s (fun t => ust t uDisc = .offline))

/-- The management port is enabled and its link is up. -/
def onNet (s : State) : Prop := portOn s = true ∧ flag s Fld.MGT_STATUS_LINK = true

/-- In S7 and not halted. -/
def inService (s : State) : Prop := stage s = 7 ∧ halted s = false

/-- The one output since s is a response to a station, with its STATUS and payload, sent at once. -/
def answered (s t : State) (a q typ reqId status : Nat) (p : List Byte) : Prop :=
  t.out = s.out ++ [.dmp a q typ reqId 1 status p 0]

/-- R62, R362, R506, R515 and R516. -/
def Obligations.ManagementQueries : Prop :=
  ∀ (s : State) (a q reqId : Nat), onNet s →
    (∀ zero : Bool, completes (.dmpDiscover (.station a q) reqId zero) s (fun t =>
      t.out = s.out ++ [.dmp a q 0x01 reqId 1 0 (wordBytes ([Reg.GLB_ID, Reg.GLB_VENDOR, Reg.GLB_SIZES, Reg.GLB_VERSION, Reg.GLB_STATUS,
        Reg.MGT_STATUS].map (regValue s))) (if zero then deckId s % 256 * 100 else 0)] ∧ countedBy s t Reg.MGT_CNT 1)) ∧
    (∀ off count : Nat, (1 ≤ count → count ≤ 64 → completes (.regRead (.station a q) reqId off count) s (fun t =>
        answered s t a q 0x0B reqId 0 (wordBytes ((List.range count).map (fun i => sideValue (bump Reg.MGT_CNT 0 s) (off + 4 * i)))) ∧
        regsKeptBut [Reg.MGT_CNT] s t)) ∧
      (count = 0 ∨ 64 < count → completes (.regRead (.station a q) reqId off count) s (fun t => answered s t a q 0x0B reqId 0x20 []))) ∧
    (∀ fromSeq count : Nat, (1 ≤ count → count ≤ 16 → completes (.eventRead (.station a q) reqId fromSeq count) s (fun t =>
        answered s t a q 0x12 reqId 0 (((keptFrom s fromSeq).take count).flatMap EventEntry.bytes) ∧ t.mgt = s.mgt)) ∧
      (count = 0 ∨ 16 < count → completes (.eventRead (.station a q) reqId fromSeq count) s (fun t => answered s t a q 0x12 reqId 0x20 []))) ∧
    (inService s → ∀ u v id mask fromSeq : Nat,
      (unitListed u = true → completes (.dmpUnitQuery (.station a q) reqId u) s (fun t => answered s t a q 0x02 reqId 0 (unitReport s u) ∧ t.unt = s.unt)) ∧
      (unitListed u = false → completes (.dmpUnitQuery (.station a q) reqId u) s (fun t => answered s t a q 0x02 reqId 0x20 [])) ∧
      (v < 64 → completes (.dmpVolumeInfo (.station a q) reqId v) s (fun t => answered s t a q 0x06 reqId 0 (volumeReport s v) ∧ t.media = s.media)) ∧
      (64 ≤ v → completes (.dmpVolumeInfo (.station a q) reqId v) s (fun t => answered s t a q 0x06 reqId 0x20 [])) ∧
      (1 ≤ id → id ≤ 11 → completes (.policyGet (.station a q) reqId id) s (fun t => t.mgt = s.mgt ∧
        answered s t a q 0x08 reqId 0 (leBytes 2 id ++ leBytes 2 0 ++ leBytes 4 (unsigned 32 (policyVal s id))))) ∧
      (id = 0 ∨ 11 < id → completes (.policyGet (.station a q) reqId id) s (fun t => answered s t a q 0x08 reqId 0x20 [])) ∧
      ((s.mgt.subs.filter (fun x => !(x.addr == a && x.port == q))).length < 4 →
        completes (.eventSubscribe (.station a q) reqId mask fromSeq) s (fun t =>
          t.mgt.subs = s.mgt.subs.filter (fun x => !(x.addr == a && x.port == q)) ++ [{ addr := a, port := q, mask := mask }] ∧
          t.out = s.out ++ ((keptFrom s fromSeq).filter (fun e => bit mask e.block)).map (fun e => Output.subscriber a q e) ++
            [.dmp a q 0x10 reqId 1 0 [] 0])) ∧
      (4 ≤ (s.mgt.subs.filter (fun x => !(x.addr == a && x.port == q))).length →
        completes (.eventSubscribe (.station a q) reqId mask fromSeq) s (fun t => answered s t a q 0x10 reqId 0x81 [] ∧ t.mgt.subs = s.mgt.subs))) ∧
    (stage s ≠ 7 ∨ halted s = true → ∀ u v id mask fromSeq : Nat,
      completes (.dmpUnitQuery (.station a q) reqId u) s (fun t => answered s t a q 0x02 reqId 0x82 []) ∧
      completes (.dmpVolumeInfo (.station a q) reqId v) s (fun t => answered s t a q 0x06 reqId 0x82 []) ∧
      completes (.policyGet (.station a q) reqId id) s (fun t => answered s t a q 0x08 reqId 0x82 []) ∧
      completes (.eventSubscribe (.station a q) reqId mask fromSeq) s (fun t => answered s t a q 0x10 reqId 0x82 [])) ∧
    completes (.subscriberExpiry a q) s (fun t => t.mgt = { s.mgt with subs := s.mgt.subs.filter (fun x => !(x.addr == a && x.port == q)) } ∧
      t.regs = s.regs ∧ t.out = s.out)

/-- A station's state-changing message reaches its action: the port serves it, it repeats none, and it is permitted. -/
def mayChange (s : State) (a q reqId : Nat) : Prop :=
  onNet s ∧ storedFor s (.station a q) reqId = none ∧ mayControl s (.station a q) = true ∧ runningReqs s < 16

/-- The command of each unit-sequencer message with its TYPE, its opcode and its kind. -/
def dmpRows (a q reqId u code epoch : Nat) : List (Instr × Nat × Nat × ReqKind) :=
  [(.dmpUnitRequest (.station a q) reqId u code epoch, 0x03, opUnitRequest, .request),
   (.dmpCalibrate (.station a q) reqId u code epoch, 0x04, opCalibrate, .calibrate),
   (.dmpSelfTest (.station a q) reqId u code epoch, 0x05, opSelfTest, .selfTest)]

/-- R70, R71, R477, R502 and R514 to R516. -/
def Obligations.ManagementChanges : Prop :=
  ∀ (s : State) (a q reqId : Nat),
    (∀ u code epoch : Nat, ∀ e ∈ dmpRows a q reqId u code epoch, mayChange s a q reqId → inService s →
      ((unitReqBad s e.2.2.1 u code epoch).isNone = true → (pairEn s && !isOwner s) = false → completes e.1 s (fun t =>
        t.unt.waiting = s.unt.waiting ++ [{ kind := e.2.2.2, unit := u, code := code, epoch := epoch, sender := .dmp a q reqId e.2.1 }] ∧
        (storedFor t (.station a q) reqId).map (·.answer) = some none ∧ t.out = s.out)) ∧
      ((unitReqBad s e.2.2.1 u code epoch).isSome = true → completes e.1 s (fun t =>
        answered s t a q e.2.1 reqId 0x20 [] ∧ t.unt = s.unt ∧ (storedFor t (.station a q) reqId).map (·.answer) = some (some (0x20, []))))) ∧
    (∀ (id : Nat) (v : Int), mayChange s a q reqId → inService s →
      (policyFits s id v = true → mirroring s = false → completes (.policySet (.station a q) reqId id v) s (fun t => policyVal t id = v ∧
        (∀ j, j ≠ id → policyVal t j = policyVal s j) ∧
        answered s t a q 0x09 reqId 0 (leBytes 2 id ++ leBytes 2 0 ++ leBytes 4 (unsigned 32 v)))) ∧
      (policyFits s id v = false → completes (.policySet (.station a q) reqId id v) s (fun t => t.mgt.policy = s.mgt.policy ∧
        answered s t a q 0x09 reqId 0x20 []))) ∧
    (∀ b : List Byte, mayChange s a q reqId → inService s → netFits b = true → completes (.netSet (.station a q) reqId b) s (fun t =>
      t.mgt.netPending = some b ∧ t.mgt.net = s.mgt.net ∧ answered s t a q 0x0A reqId 0 [])) ∧
    (∀ n : List Byte, s.mgt.netPending = some n → completes .netSetApply s (fun t => t.mgt.net = n ∧ t.mgt.netPending = none ∧
      flag t Fld.MGT_STATUS_PORT_ON = (bit (leAt n 2 1) 4 && decide (deckId s ≠ 0)))) ∧
    (∀ size : Nat, mayChange s a q reqId → (s.img.op = .none ∨ transferOpen s = true) → size % 64 = 0 → 0x100 ≤ size → size ≤ 0x800000 →
      completes (.imageBegin (.station a q) reqId size) s (fun t => t.img.op = .transfer false ∧ t.img.staged = List.replicate size 0#8 ∧
        t.img.transferSize = size ∧ t.img.received = [] ∧ t.img.stagedImage = none ∧ getF t Fld.IMG_STATUS_STAGED_VALID = 0 ∧
        answered s t a q 0x18 reqId 0 [])) ∧
    (∀ (off : Nat) (b : List Byte), mayChange s a q reqId → transferOpen s = true → off < s.img.transferSize →
      off % 1024 = 0 → b.length = min 1024 (s.img.transferSize - off) →
      completes (.imageData (.station a q) reqId off b) s (fun t => t.img.staged = patch s.img.staged off b ∧
        t.img.received = addNat off s.img.received ∧ t.img.op = s.img.op ∧ answered s t a q 0x19 reqId 0 [])) ∧
    (mayChange s a q reqId → transferOpen s = true →
      (transferWhole s = true → completes (.imageEnd (.station a q) reqId) s (fun t => t.img.op = .none ∧
        match validate s.img.fuses (pairEn s) s.img.staged with
        | .ok i => t.img.stagedImage = some i ∧ t.img.stagedByDmp = true ∧ getF t Fld.IMG_STATUS_STAGED_VALID = 1
        | .fail code _ _ => getF t Fld.IMG_ERR_CODE = code % 256 ∧ flag t Fld.IMG_EVT_FETCH_FAIL = true)) ∧
      (transferWhole s = false → completes (.imageEnd (.station a q) reqId) s (fun t => t.img = s.img ∧
        answered s t a q 0x1A reqId Status.rangeOut.code (imgWords s)))) ∧
    (mayChange s a q reqId → halted s = false →
      (getF s Fld.IMG_STATUS_QSTATE = 0 → completes (.imageCmd (.station a q) reqId 2) s (fun t => getF t Fld.IMG_STATUS_QSTATE = 1 ∧
        getReg t Reg.IMG_ERR = getReg s Reg.IMG_ERR ∧ ∃ p, .dmp a q 0x1B reqId 1 0 p 0 ∈ t.out)) ∧
      (getF s Fld.IMG_STATUS_QSTATE = 2 → completes (.imageCmd (.station a q) reqId 3) s (fun t => getF t Fld.IMG_STATUS_QSTATE = 0 ∧
        t.unt.waiting = s.unt.waiting ++ s.img.quiesceTook.map (fun c =>
          { kind := .request, unit := uCar c, code := 0x03, epoch := (unitOf s (uCar c)).epoch.toNat, sender := .policy }) ∧ ∃ p, .dmp a q 0x1B reqId 1 0 p 0 ∈ t.out))) ∧
    (∀ (x : Stored) (status id : Nat) (p : List Byte) (v : Int), onNet s → storedFor s (.station a q) reqId = some x → x.answer = some (status, p) →
      completes (.policySet (.station a q) reqId id v) s (fun t => t.mgt = s.mgt ∧ countedBy s t (Reg.MGT_CNT + 8) 1 ∧
        t.out = s.out ++ [.dmp a q 0x09 reqId 3 status p 0])) ∧
    completes (.dmpDuplicateExpiry a q reqId) s (fun t => t.mgt =
      { s.mgt with stored := s.mgt.stored.filter (fun x => !(x.addr == a && x.port == q && x.reqId == reqId && x.answer.isSome)) } ∧ t.regs = s.regs ∧ t.out = s.out) ∧
    (∀ b : List Byte, onNet s →
      (dropped s (.station a q) b = true → completes (.dmpMessageDropped a q b) s (fun t => countedBy s t (Reg.MGT_CNT + 4) 1 ∧
        t.out = s.out ∧ t.mgt = s.mgt)) ∧
      (dropped s (.station a q) b = false → typListed (leAt b 3 1) = false → completes (.dmpMessageDropped a q b) s (fun t =>
        answered s t a q (leAt b 3 1) (leAt b 8 4) 0x20 [] ∧ t.mgt = s.mgt)))

/-- The CCCs that read bytes whose values the spec does not state, with how many. -/
def freeCccs : List (Nat × Instr) := [(6, .getpid), (1, .getbcr), (1, .getdcr), (2, .getstatus)]

/-- Nothing but the I3C target differs. -/
def onlyI3c (s t : State) (x : I3cState) : Prop := t.mgt = { s.mgt with i3c := x } ∧ t.regs = s.regs ∧ t.out = s.out

/-- R515 and R517. -/
def Obligations.I3cTargetActs : Prop :=
  ∀ s : State, 2 ≤ stage s →
    (∀ b : List Byte,
      (b.length = 32 → b.length ≤ s.mgt.i3c.mwl → dropped s .i3c b = false → leAt b 3 1 = 0x01 →
        completes (.i3cPrivateWrite b) s (fun t => t.mgt.i3c.response = some (dmpBytes 0x01 (deckId s) (leAt b 8 4) 1 0
          (wordBytes ([Reg.GLB_ID, Reg.GLB_VENDOR, Reg.GLB_SIZES, Reg.GLB_VERSION, Reg.GLB_STATUS, Reg.MGT_STATUS].map (regValue s)))) ∧
          countedBy s t (Reg.MGT_CNT + 16) 1)) ∧
      (s.mgt.i3c.mwl < b.length → completes (.i3cPrivateWrite b) s (fun t => onlyI3c s t s.mgt.i3c))) ∧
    completes .i3cPrivateRead s (fun t => t.mgt.i3c = { s.mgt.i3c with response := none } ∧
      t.out = s.out ++ [.i3cRead (s.mgt.i3c.response.map (fun r => r.take s.mgt.i3c.mrl))]) ∧
    (∀ events : Nat, bit events 0 = true →
      completes (.enec events) s (fun t => onlyI3c s t { s.mgt.i3c with eventsOn := true }) ∧
      completes (.disec events) s (fun t => onlyI3c s t { s.mgt.i3c with eventsOn := false })) ∧
    completes .rstdaa s (fun t => onlyI3c s t { s.mgt.i3c with da := none }) ∧
    (∀ x : Nat, x < 128 → s.mgt.i3c.da = none →
      completes (.entdaa x) s (fun t => onlyI3c s t { s.mgt.i3c with da := some x }) ∧
      completes (.setdasa (staticAddr s) x) s (fun t => onlyI3c s t { s.mgt.i3c with da := some x })) ∧
    (∀ e ∈ freeCccs, completes e.2 s (fun t => ∃ bs : List Byte, bs.length = e.1 ∧ t.out = s.out ++ [.i3cCcc bs] ∧ t.mgt = s.mgt)) ∧
    completes .getmwl s (fun t => t.out = s.out ++ [.i3cCcc [BitVec.ofNat 8 (s.mgt.i3c.mwl / 256), BitVec.ofNat 8 s.mgt.i3c.mwl]]) ∧
    completes .getmrl s (fun t => t.out = s.out ++ [.i3cCcc [BitVec.ofNat 8 (s.mgt.i3c.mrl / 256), BitVec.ofNat 8 s.mgt.i3c.mrl]]) ∧
    (∀ n : Nat, completes (.setmwl n) s (fun t => onlyI3c s t { s.mgt.i3c with mwl := min 1060 n }) ∧
      completes (.setmrl n) s (fun t => onlyI3c s t { s.mgt.i3c with mrl := min 1060 n }))

/-- R62, R514, R518 and R520. -/
def Obligations.ClockAndPortEvents : Prop :=
  ∀ s : State,
    (∀ ofs : Int, onNet s →
      (1000000 < ofs ∨ ofs < -1000000 → completes (.ptpSync ofs) s (fun t => t.pwr.time = (max 0 ((s.pwr.time : Int) - ofs)).toNat ∧
        getF t Fld.MGT_STATUS_PTP = 1 ∧ flag t Fld.MGT_EVT_TIME_STEP = true ∧ t.mgt.ptpGood = 0 ∧ t.mgt.ptpRate = 0)) ∧
      (-1000000 ≤ ofs → ofs ≤ 1000000 → completes (.ptpSync ofs) s (fun t => t.pwr = s.pwr ∧ -500 ≤ t.mgt.ptpRate ∧ t.mgt.ptpRate ≤ 500 ∧
        t.mgt.ptpGood = (if -1000 ≤ ofs ∧ ofs ≤ 1000 then min 16 (s.mgt.ptpGood + 1) else 0) ∧
        getF t Fld.MGT_STATUS_PTP = (if -1000 ≤ ofs ∧ ofs ≤ 1000 ∧ 15 ≤ s.mgt.ptpGood then 2 else 1) ∧
        (-1000 ≤ ofs → ofs ≤ 1000 → 15 ≤ s.mgt.ptpGood → getF s Fld.MGT_STATUS_PTP ≠ 2 → flag t Fld.MGT_EVT_PTP_LOCKED = true)))) ∧
    (getF s Fld.MGT_STATUS_PTP ≠ 0 → completes .ptpLost s (fun t => getF t Fld.MGT_STATUS_PTP = 0 ∧ flag t Fld.MGT_EVT_PTP_LOST = true ∧
      t.mgt.ptpGood = 0 ∧ t.mgt.ptpRate = 0 ∧ t.pwr = s.pwr)) ∧
    (∀ up : Bool, 2 ≤ stage s → flag s Fld.MGT_STATUS_LINK ≠ up → completes (.sgmiiLinkChange up) s (fun t =>
      flag t Fld.MGT_STATUS_LINK = up ∧ flag t Fld.MGT_EVT_LINK_CHANGE = true)) ∧
    (∀ x : List Byte, portOn s = true →
      (bit (leAt s.mgt.net 2 1) 0 = true → bit (leAt s.mgt.net 2 1) 1 = true → x.length = 4 → completes (.addrChange false x) s (fun t =>
        getReg t Reg.MGT_IPV4 = BitVec.ofNat 32 (leAt x 0 4) ∧ flag t Fld.MGT_STATUS_IPV4_OK = decide (leAt x 0 4 ≠ 0) ∧
        flag t Fld.MGT_EVT_ADDR_CHANGE = true)) ∧
      (bit (leAt s.mgt.net 2 1) 2 = true → bit (leAt s.mgt.net 2 1) 3 = true → x.length = 16 → completes (.addrChange true x) s (fun t =>
        (∀ i < 4, getReg t (Reg.MGT_IPV6 + 4 * i) = BitVec.ofNat 32 (leAt x (4 * i) 4)) ∧ flag t Fld.MGT_EVT_ADDR_CHANGE = true))) ∧
    (∀ v : Nat, sideServed s Reg.MGT_LOG_RD_HI = true → bar0Served s = 2 → v < 0x10000000000000000 →
      completes (.mgtLogRdWrite v) s (fun t => get64 t Reg.MGT_LOG_RD_LO = v ∧
        t.mgt.logArmed = !(flag s Fld.MGT_LOG_VEC_EN && decide (v < get64 s Reg.MGT_LOG_WR_LO))))

/-- R524 to R527 and R538. -/
def Obligations.PairLinkAndHello : Prop :=
  ∀ s : State,
    (∀ lanes : Nat, pairEn s = true → 2 ≤ stage s → lanes < 256 → completes (.linkTrainDone lanes) s (fun t =>
      t.pair.laneOk = lanes ∧ t.pair.width = widthOf ((List.range 8).filter (bit lanes)).length ∧ t.pair.linkUp = decide (0 < t.pair.width) ∧
      getF t Fld.PRL_LINK_WIDTH = t.pair.width ∧ flag t Fld.PRL_LINK_UP = t.pair.linkUp ∧ getF t Fld.PRL_LINK_LANE_OK = lanes ∧
      ((ust s uPartner).serves = true → 0 < t.pair.width → ust t uPartner = (if t.pair.width = 8 then .ready else .degraded)) ∧
      (0 < t.pair.width → t.pair.width < s.pair.width → flag t Fld.PRL_EVT_LANE_DEGRADE = true) ∧
      (s.pair.width = 0 → 0 < t.pair.width → ∃ c, .jokor 0x40 c ∈ t.out))) ∧
    (pairEn s = true → 2 ≤ stage s → s.pair.linkUp = false → completes .linkTrainRetry s (fun t => t.out = s.out ++ [.jokor 0x00 []] ∧
      t.pair = { s.pair with laneOk := 0 } ∧ getF t Fld.PRL_LINK_LANE_OK = 0)) ∧
    (∀ lane : Nat, s.pair.linkUp = true → lane < 8 → completes (.laneError lane) s (fun t => t.pair.width = narrower s.pair.width ∧
      t.pair.linkUp = decide (0 < narrower s.pair.width) ∧ bit t.pair.laneOk lane = false ∧
      (0 < narrower s.pair.width → flag t Fld.PRL_EVT_LANE_DEGRADE = true))) ∧
    (s.pair.linkUp = true →
      completes (.jokorFrame true) s (fun t => t.pair = { s.pair with frameTries := 0 } ∧ t.regs = s.regs ∧ t.out = s.out) ∧
      (s.pair.frameTries < 7 → completes (.jokorFrame false) s (fun t => t.pair = { s.pair with frameTries := s.pair.frameTries + 1 } ∧
        t.regs = s.regs ∧ t.out = s.out)) ∧
      (7 ≤ s.pair.frameTries → completes (.jokorFrame false) s (fun t => t.pair = { s.pair with frameTries := 0 } ∧
        countedBy s t (Reg.PRL_CNT + 28) 1 ∧ t.out = s.out ++ [.jokor 0x00 []]))) ∧
    (∀ (role : Nat) (digest : List Word) (deck stg : Nat) (wants ownHigh : Bool), pairEn s = true → s.pair.linkUp = true →
      (role = getF s Fld.GLB_STRAPS_PAIR_ROLE → completes (.pairHello role digest deck stg wants ownHigh) s (fun t =>
        t.pair.hello = some (role, digest, deck, stg) ∧ t.pair.conflict = true ∧ ust t uPartner = .faulted ∧
        flag t Fld.PRL_EVT_ROLE_CONFLICT = true)) ∧
      (role ≠ getF s Fld.GLB_STRAPS_PAIR_ROLE → 4 ≤ stg → 4 ≤ stage s → digest ≠ ownDigest s ∨ deck ≠ deckId s →
        completes (.pairHello role digest deck stg wants ownHigh) s (fun t => t.pair.hello = some (role, digest, deck, stg) ∧
          t.pair.conflict = true ∧ ust t uPartner = .faulted ∧ flag t Fld.PRL_EVT_IMAGE_MISMATCH = true)) ∧
      (role ≠ getF s Fld.GLB_STRAPS_PAIR_ROLE → 4 ≤ stg → digest = ownDigest s → deck = deckId s → s.pwr.armed = true →
        ust s uPartner = .offline → s.pair.detached = false → s.pair.own ≠ .wait →
        completes (.pairHello role digest deck stg wants ownHigh) s (fun t => t.pair.hello = some (role, digest, deck, stg) ∧
          t.pair.conflict = false ∧ ust t uPartner = .starting ∧ t.pair.syncing = true ∧
          (isOwner s = true → .jokor 0x30 [get64 s Reg.HQ_SEQ_LO] ∈ t.out)))) ∧
    (pairEn s = true → 6 ≤ stage s → halted s = false → s.pair.linkUp = true → completes .heartbeatSend s (fun t =>
      countedBy s t Reg.PRL_CNT 1 ∧ t.pair = s.pair ∧
      ∃ snap, t.out = s.out ++ [.jokor 0x41 ([stage s, ownCode s.pair.own, get64 s Reg.HQ_SEQ_LO] ++ snap)] ∧
        (isOwner s = false → snap = []))) ∧
    (∀ h : Heartbeat, pairEn s = true → s.pair.linkUp = true →
      (ust s uPartner ≠ .suspect → completes (.heartbeatReceive h) s (fun t => t.pair.hbEver = true ∧ t.pair.lastHb = s.pwr.time ∧
        t.pair.lost = false ∧ countedBy s t (Reg.PRL_CNT + 4) 1 ∧ t.unt = s.unt ∧
        (isOwner s = true → t.pair.ackedSeq = max s.pair.ackedSeq h.acked) ∧
        (h.own = .owner → t.pair.snapCars = h.cars ∧ t.pair.snapSpeed = h.speed ∧ t.pair.suspended = false))) ∧
      (ust s uPartner = .suspect → (unitOf s uPartner).doubt = .conflict → (unitOf s uPartner).asserted = true →
        (unitOf s uPartner).prev = .offline → completes (.heartbeatReceive h) s (fun t => ust t uPartner = .offline)))

/-- R526 to R529, R533, R537, R538 and R540. -/
def Obligations.PairOwnership : Prop :=
  ∀ s : State,
    (pairEn s = true → 6 ≤ stage s → halted s = false → s.pair.hbEver = true → s.pair.lost = false → s.pair.suspended = false →
      completes .partnerLost s (fun t => t.pair.lost = true ∧ t.pair.lossAt = s.pwr.time ∧ ust t uPartner = .faulted ∧
        flag t Fld.PRL_EVT_PARTNER_LOST = true ∧
        (s.pair.own = .follower → (ust s uPartner).serves = true → t.pair.own = .claiming ∧ t.pair.claimWhy = .loss ∧
          t.pins.peerReset = true ∧ .peerReset true ∈ t.out) ∧
        (s.pair.own = .owner → t.pair.settling = true ∧ t.pair.syncing = false ∧ t.pair.own = .owner))) ∧
    (s.pair.own = .follower → getF s Fld.GLB_STRAPS_PAIR_ROLE = 1 → 6 ≤ stage s → s.pins.ownN = false → s.pair.hbEver = false →
      s.pair.hello = none → completes (.bootWaitExpiry true) s (fun t => t.pair.own = .claiming ∧ t.pair.claimWhy = .boot ∧
        t.pins.peerReset = true ∧ t.out = s.out ++ [.peerReset true])) ∧
    (pairEn s = true → s.pair.own = .wait → 6 ≤ stage s → getF s Fld.GLB_STRAPS_PAIR_ROLE = 0 → s.pins.ownN = false →
      s.pair.linkUp = false → s.pair.hello = none → completes (.ownerLinkWaitExpiry true) s (fun t => t.pair.own = .owner ∧ isOwner t = true ∧
        t.pins.ownN = true)) ∧
    (∀ outUs : Nat, s.pair.own = .claiming → outUs < 0x10000 →
      (s.pair.claimWhy = .boot → completes (.ownNetHigh true outUs) s (fun t => t.pair.own = .owner ∧ isOwner t = true ∧
        getReg t Reg.PRL_TAKEOVER_T = BitVec.ofNat 32 outUs)) ∧
      (s.pair.claimWhy = .loss → completes (.ownNetHigh true outUs) s (fun t => t.pair.own = .owner ∧ isOwner t = true ∧
        flag t Fld.PRL_EVT_TAKEOVER = true ∧ (s.pair.journal = [] → s.pair.fwd = [] → boundCars s = [] →
          getReg t Reg.PRL_TAKEOVER_T = BitVec.ofNat 32 (min 65535 ((s.pwr.time - s.pair.lossAt) / 1000) * 65536 + outUs)))) ∧
      (∀ late : Bool, s.pair.claimWhy = .handover → completes (.ownNetHigh late outUs) s (fun t => t.pair.own = .owner ∧ isOwner t = true ∧
        getF t Fld.IMG_STATUS_QSTATE = 2))) ∧
    (s.pair.own = .claiming → completes .claimTimeout s (fun t => t.pair.own = .follower ∧ t.pins.peerReset = false ∧
      ust t uPartner = .faulted ∧ flag t Fld.PRL_EVT_CLAIM_FAIL = true)) ∧
    (s.pair.own = .owner → s.pins.peerReset = true → s.pair.pulse = false → completes .peerResetRelease s (fun t =>
      t.pins.peerReset = false ∧ t.out = s.out ++ [.peerReset false] ∧ t.pair = s.pair)) ∧
    (sideServed s Reg.PRL_CTRL = true → s.pair.own = .owner → (ust s uPartner).serves = true → getF s Fld.IMG_STATUS_QSTATE = 2 →
      completes (.handover 0x5A) s (fun t => t.pair.own = .handing ∧ .jokor 0x42 [] ∈ t.out ∧ released t.pins)) ∧
    (s.pair.own = .follower → (ust s uPartner).serves = true → completes .handoverMessage s (fun t => t.pair.own = .claiming ∧
      t.pair.claimWhy = .handover ∧ t.out = s.out ++ [.jokor 0x43 []] ∧ t.pins.peerReset = s.pins.peerReset)) ∧
    (s.pair.own = .handing →
      completes .handoverAck s (fun t => t.pair.own = .follower ∧ isOwner t = false ∧ t.pins.ownN = false ∧
        getF t Fld.IMG_STATUS_QSTATE = 0 ∧ flag t Fld.PRL_EVT_HANDOVER_DONE = true) ∧
      completes .handoverTimeout s (fun t => t.pair.own = .owner ∧ flag t Fld.PRL_EVT_CLAIM_FAIL = true ∧
        t.unt.waiting = s.unt.waiting ++ [{ kind := .request, unit := uSpindle, code := 0x03, epoch := (unitOf s uSpindle).epoch.toNat, sender := .policy }])) ∧
    (sideServed s Reg.PRL_CTRL = true → isOwner s = true → pairEn s = true → completes (.peerReset 0x5A) s (fun t =>
      t.pins.peerReset = true ∧ t.pair = { s.pair with pulse := true } ∧ t.out = s.out ++ [.peerReset true])) ∧
    (s.pair.pulse = true → completes .peerResetEnd s (fun t => t.pins.peerReset = false ∧ t.pair = { s.pair with pulse := false } ∧
      t.out = s.out ++ [.peerReset false])) ∧
    (s.pair.settling = true → completes .pairSettleEnd s (fun t => t.pair.settling = false)) ∧
    (∀ (n : Nat) (c : Cmd), s.pair.settling = true → Tbl.sorted s.host.cmds = true → onTag s n c → cmds s = [(n, c)] →
      c.cmd.opcode = opWrite → c.state = .running → c.heldPoint = false → c.held ≠ [] → acked s (.held n) = true → asFua s c = false →
      completes .pairSettleEnd s (fun t => endedAs t n .success 0)) ∧
    (pairEn s = true → isOwner s = false → completes .partnerDetach s (fun t => ust t uPartner = .offline ∧ t.pair.detached = true ∧
      t.pair.syncing = false)) ∧
    (pairEn s = true → ust s uPartner = .starting → s.pair.syncing = true → completes .resyncComplete s (fun t =>
      ust t uPartner = (if s.pair.width = 8 then .ready else .degraded) ∧ t.pair.syncing = false ∧ flag t Fld.PRL_EVT_PARTNER_SYNCED = true))

/-- R530 to R532, R534, R538 and R539. -/
def Obligations.PairCommandsAndMirror : Prop :=
  ∀ s : State,
    (∀ (fn ring slot : Nat) (b : List Byte) (aux : Option (List Byte)), mirroring s = true → inService s → s.pwr.pfRunning = false →
      getF s Fld.IMG_STATUS_QSTATE = 0 → pairAllows s = true → fn < 64 → (cmds s).length < 8192 → get64 s Reg.HQ_SEQ_LO < 0xFFFFFFFFFFFFFFFF →
      completes (.forwardedCommand (.ring fn ring slot 0 b aux)) s (fun t => get64 t Reg.HQ_SEQ_LO = get64 s Reg.HQ_SEQ_LO + 1 ∧
        countedBy s t Reg.HQ_CNT 1 ∧ countedBy s t (Reg.PRL_CNT + 12) 1)) ∧
    (∀ (i3c : Bool) (addr port reqId typ unit code epoch : Nat), mirroring s = true →
      (unitReqBad s opUnitRequest unit code epoch).isNone = true →
      completes (.forwardedCommand (.mgmt i3c addr port reqId typ opUnitRequest unit code epoch)) s (fun t =>
        t.unt.waiting = s.unt.waiting ++ [{ kind := .request, unit := unit, code := code, epoch := epoch, sender := .partner i3c addr port reqId typ }])) ∧
    (∀ e : JournalEntry, pairEn s = true → isOwner s = false → s.pair.journal.length < 8192 → e.seq < 0x10000000000000000 →
      completes (.journalEntry e) s (fun t => t.pair.journal = s.pair.journal.filter (fun x => decide (x.seq ≠ e.seq)) ++ [e] ∧
        get64 t Reg.HQ_SEQ_LO = max (get64 s Reg.HQ_SEQ_LO) e.seq ∧ t.out = s.out ++ [.jokor 0x02 [e.seq]])) ∧
    (∀ seq : Nat, max s.pair.ackedSeq seq < 0x10000000000000000 → completes (.journalAck seq) s (fun t =>
      t.pair.ackedSeq = max s.pair.ackedSeq seq ∧ get64 t Reg.PRL_ACK_SEQ_LO = max s.pair.ackedSeq seq ∧
      t.pair.unacked = s.pair.unacked.filter (fun m => decide (m ≠ .journal seq)))) ∧
    (∀ (n : Nat) (c : Cmd) (st : Status) (result : Nat) (rep rel : Bool) (step : Nat), cmds s = [(n, c)] → Tbl.sorted s.host.cmds = true →
      onTag s n c → c.forwarded = true → c.state = .away → c.seq ≠ 0 →
      completes (.forwardResult (.ring c.seq st result rep rel step [])) s (fun t => endedAs t n st result ∧
        t.host.posting = s.host.posting ++ [n])) ∧
    (∀ (addr port reqId typ status : Nat) (p : List Byte), completes (.forwardResult (.mgmt false addr port reqId typ status p)) s (fun t =>
      t.out = s.out ++ [.dmp addr port typ reqId 1 status p 0] ∧
      (storedFor t (.station addr port) reqId).map (·.answer) = some (some (status, p)))) ∧
    (pairEn s = true → isOwner s = false →
      (∀ (id : Nat) (v : Int), completes (.mirrorReceive (.policy id v)) s (fun t => policyVal t id = v ∧ t.out = s.out ++ [.jokor 0x03 []])) ∧
      (∀ h : Held, completes (.mirrorReceive (.held h)) s (fun t => h ∈ t.media.held ∧ h.id < t.media.nextHeld ∧
        t.out = s.out ++ [.jokor 0x03 []])) ∧
      (∀ k : Knot, completes (.mirrorReceive (.knot k)) s (fun t => (volOf t k.vol).knotOut = some k ∧ t.out = s.out ++ [.jokor 0x03 []])) ∧
      (∀ (u : Nat) (e : UnitEntry) (q : Nat), u ≠ uPartner → completes (.mirrorReceive (.unit u e q)) s (fun t => unitOf t u = e ∧
        .jokor 0x03 [] ∈ t.out)) ∧
      (∀ (v : Nat) (x : Volume), completes (.mirrorReceive (.volume v x)) s (fun t => volOf t v = x ∧ t.out = s.out ++ [.jokor 0x03 []]))) ∧
    (∀ u : Nat, .unit u ∈ s.pair.unacked → completes (.mirrorAck (.unit u)) s (fun t =>
      t.pair = { s.pair with unacked := s.pair.unacked.filter (fun m => decide (m ≠ .unit u)) } ∧ t.regs = s.regs ∧ t.out = s.out)) ∧
    (∀ (n : Nat) (c : Cmd), .held n ∈ s.pair.unacked → Tbl.sorted s.host.cmds = true → onTag s n c → s.pair.settling = false →
      c.cmd.opcode = opWrite → c.state = .running → c.heldPoint = false → c.held ≠ [] → asFua s c = false →
      completes (.mirrorAck (.held n)) s (fun t => endedAs t n .success 0)) ∧
    (∀ (code : Nat) (i : Image), pairEn s = true → isOwner s = true → s.img.op = .apply → s.img.stagedImage = some i →
      getF s Fld.IMG_STATUS_QSTATE = 2 → holding s = false →
      completes (.pairApplyValidated 0 []) s (fun t => stage t = 4 ∧ t.img.running = some i ∧ t.img.applied = true) ∧
      (code ≠ 0 → completes (.pairApplyValidated code []) s (fun t => t.img.op = .none ∧ getF t Fld.IMG_ERR_CODE = code % 256 ∧
        t.img.stagedImage = some i ∧ stage t = stage s))) ∧
    (∀ (code : Nat) (b : List Byte), pairEn s = true → isOwner s = false → 6 ≤ stage s → halted s = false → s.img.op = .none →
      completes (.pairApplyValidated code b) s (fun t => match validate s.img.fuses true b with
        | .ok i => t.img.running = some i ∧ stage t = 4 ∧ t.pair.suspended = true ∧ .jokor 0x35 [0] ∈ t.out
        | .fail c _ _ => t.out = s.out ++ [.jokor 0x35 [c]] ∧ t.img = s.img)) ∧
    completes .pairApplyWaitEnd s (fun t => t.pair = { s.pair with suspended := false } ∧ t.regs = s.regs ∧ t.out = s.out)

/-- The TAP instructions that select no data register of their own with a value, with their codes, whether they drive the pins,
and whether they release the outputs (Table 20-11). -/
def tapRows : List (Instr × Nat × Bool × Bool) :=
  [(.extest, 0x00, true, false), (.highz, 0x03, false, true), (.clamp, 0x04, true, false), (.extestPulse, 0x05, true, false),
   (.extestTrain, 0x06, true, false)]

/-- Nothing but the test access port differs, and the outputs sent are those of s with more. -/
def onlyTap (s t : State) (x : TapState) (more : List Output) : Prop :=
  t.tap = x ∧ t.out = s.out ++ more ∧ t.regs = s.regs ∧ t.mem = s.mem ∧ t.host = s.host ∧ t.unt = s.unt ∧ t.media = s.media ∧ t.mgt = s.mgt

/-- A word that a REGACC scan shifts out in state s: its bits 56 to 0 are fixed, bit 57 is free. -/
def regAccShifted (s : State) (n : Nat) : Prop := n = regAccCapture s ∨ n = 0x200000000000000 + regAccCapture s

/-- R571 and R572. -/
def Obligations.TapInstructionsAct : Prop :=
  ∀ s : State,
    (∀ e ∈ tapRows, completes e.1 s (fun t => onlyTap s t { s.tap with ir := e.2.1, drives := e.2.2.1, highz := e.2.2.2 } [])) ∧
    completes .idcode s (fun t => onlyTap s t { s.tap with ir := 0x01, drives := false, highz := false } [.tap 0x191603EB]) ∧
    (∀ (n : Nat) (cells : List Bool), completes (.samplePreload n cells) s (fun t =>
      onlyTap s t { s.tap with ir := 0x02, drives := false, highz := false, cells := cells } [.tap n])) ∧
    (∀ code : Nat, code ∉ [0x00, 0x01, 0x02, 0x03, 0x04, 0x05, 0x06, 0x20] → completes (.bypass code) s (fun t =>
      onlyTap s t { s.tap with ir := code, drives := false, highz := false } [])) ∧
    (∀ (w : BitVec 58) (off : Nat), off = 4 * (w.extractLsb' 32 24).toNat →
      (regAccReached s off = false → completes (.regacc w) s (fun t => (∃ n, regAccShifted s n ∧ onlyTap s t
        { s.tap with ir := 0x20, drives := false, highz := false, performed := false } [.tap n]))) ∧
      (regAccReached s off = true → w.getLsbD 57 = false → completes (.regacc w) s (fun t =>
        (∃ n, regAccShifted s n ∧ t.out = s.out ++ [.tap n]) ∧ t.tap.performed = true ∧ t.tap.lastAddr = off)) ∧
      (∀ r : RegRow, regAccReached s off = true → w.getLsbD 57 = false → rowOf off = some r → isLow off = false → isHigh off = false →
        liveOf s off = none → completes (.regacc w) s (fun t => t.tap.lastData = getReg s off &&& readMask r)) ∧
      (∀ r : RegRow, regAccReached s off = true → w.getLsbD 57 = true → halted s = false → rowOf off = some r →
        (∀ (v : Word) (u : State), off < 0x30000 → writeReg off v u = storeReg off v u) → off < 0x30000 →
        completes (.regacc w) s (fun t => getReg t off = storeWord s r off (w.extractLsb' 0 32) ∧ regsKeptBut [off] s t ∧
          t.tap.performed = true)))

/-- A register whose writes have no behaviour of their own (R14). -/
def plainReg (off : Nat) : Prop := ∀ (v : Word) (s : State), writeReg off v s = storeReg off v s

/-- An offset of BAR0 that the PF reaches as a register. -/
def reached (s : State) (off : Nat) : Prop := target s 0 off = some (.inl off) ∧ off % 4 = 0

/-- R10, R14, R15, R337, R367, R470 and R551. -/
def Obligations.RegisterAndConfigurationAccesses : Prop :=
  ∀ s : State,
    (∀ (off v : Nat) (r : RegRow), reached s off → halted s = false → plainReg off → rowOf off = some r →
      completes (.registerWrite 0 off 4 v) s (fun t => getReg t off = storeWord s r off (BitVec.ofNat 32 v) ∧ regsKeptBut [off] s t ∧
        t.out = s.out ∧ memoryKept s t ∧ ((∀ f ∈ r.fields, f.acc = .w1c) →
          getReg t off = getReg s off &&& ~~~ (BitVec.ofNat 32 v &&& readMask r)))) ∧
    (∀ off : Nat, reached s off → isLow off = false → isHigh off = false → isRc off = true →
      completes (.rcCounterRead 0 off 4) s (fun t => getReg t off = 0#32 ∧ regsKeptBut [off] s t ∧
        t.out = s.out ++ [.regData off (regValue s off).toNat] ∧ (isCnt off = true → accrued t off = accrued s off))) ∧
    (∀ off : Nat, reached s off → isLow off = true → isHigh off = false →
      completes (.reg64LoRead 0 off 4) s (fun t => t.out = s.out ++ [.regData off (regValue s off).toNat] ∧
        Tbl.get none off t.host.hiHold = some (regValue s (off + 4)) ∧ t.regs = s.regs)) ∧
    (∀ (off : Nat) (w : Word), reached s off → isLow off = false → isHigh off = true → Tbl.get none (off - 4) s.host.hiHold = some w →
      completes (.reg64LoRead 0 off 4) s (fun t => t.out = s.out ++ [.regData off w.toNat] ∧ Tbl.get none (off - 4) t.host.hiHold = none)) ∧
    (∀ (f : Nat) (q : ConfigReq), s.pwr.perst = false → s.pwr.refPresent = true → 2 ≤ stage s → crsNow s = true →
      completes (.configurationRequest f q) s (fun t => t.out = s.out ++ [.config none] ∧ t.host = s.host ∧ t.regs = s.regs)) ∧
    (s.pwr.perst = false → s.pwr.refPresent = true → 2 ≤ stage s → crsNow s = false →
      completes (.configurationRequest 0 (.read 0)) s (fun t => t.out = s.out ++ [.config (some 0x91601F3B)] ∧ t.host = s.host) ∧
      (∀ b : Bool, completes (.configurationRequest 0 (.busMaster b)) s (fun t => (fnSt t 0).busMaster = b ∧ t.regs = s.regs) ∧
        completes (.configurationRequest 0 (.power b)) s (fun t => (fnSt t 0).d3 = b ∧ t.regs = s.regs)) ∧
      (∀ (i : Image) (n : Nat), s.img.running = some i →
        (s.host.vfEnable = false → n ≤ i.queues.vfCount →
          completes (.configurationRequest 0 (.numVfs n)) s (fun t => t.host = { s.host with numVfs := n })) ∧
        (0 < i.queues.vfCount → completes (.configurationRequest 0 (.vfEnable true)) s (fun t => t.host = { s.host with vfEnable := true }) ∧
          completes (.configurationRequest 0 (.vfEnable false)) s (fun t => t.host.vfEnable = false))))
end

