-- ==== Sys2Proof/Laws/State.lean ====
section
/-! SUPPORT. What each shared update of the state leaves alone: one lemma per field per update, each true by rfl, so that no
proof unfolds a record update. -/

namespace Sys2Proof.Machine

@[simp] theorem setReg_pwr (off : Nat) (v : Word) (s : State) : (setReg off v s).pwr = s.pwr := (rfl)
@[simp] theorem setReg_pins (off : Nat) (v : Word) (s : State) : (setReg off v s).pins = s.pins := (rfl)
@[simp] theorem setReg_img (off : Nat) (v : Word) (s : State) : (setReg off v s).img = s.img := (rfl)
@[simp] theorem setReg_unt (off : Nat) (v : Word) (s : State) : (setReg off v s).unt = s.unt := (rfl)
@[simp] theorem setReg_cal (off : Nat) (v : Word) (s : State) : (setReg off v s).cal = s.cal := (rfl)
@[simp] theorem setReg_tap (off : Nat) (v : Word) (s : State) : (setReg off v s).tap = s.tap := (rfl)
@[simp] theorem setReg_mgt (off : Nat) (v : Word) (s : State) : (setReg off v s).mgt = s.mgt := (rfl)
@[simp] theorem setReg_mram (off : Nat) (v : Word) (s : State) : (setReg off v s).mram = s.mram := (rfl)
@[simp] theorem setReg_mem (off : Nat) (v : Word) (s : State) : (setReg off v s).mem = s.mem := (rfl)
@[simp] theorem setReg_bc (off : Nat) (v : Word) (s : State) : (setReg off v s).bc = s.bc := (rfl)
@[simp] theorem setReg_host (off : Nat) (v : Word) (s : State) : (setReg off v s).host = s.host := (rfl)
@[simp] theorem setReg_media (off : Nat) (v : Word) (s : State) : (setReg off v s).media = s.media := (rfl)
@[simp] theorem setReg_mot (off : Nat) (v : Word) (s : State) : (setReg off v s).mot = s.mot := (rfl)
@[simp] theorem setReg_chn (off : Nat) (v : Word) (s : State) : (setReg off v s).chn = s.chn := (rfl)
@[simp] theorem setReg_pool (off : Nat) (v : Word) (s : State) : (setReg off v s).pool = s.pool := (rfl)
@[simp] theorem setReg_pair (off : Nat) (v : Word) (s : State) : (setReg off v s).pair = s.pair := (rfl)
@[simp] theorem setReg_out (off : Nat) (v : Word) (s : State) : (setReg off v s).out = s.out := (rfl)
@[simp] theorem setReg_free (off : Nat) (v : Word) (s : State) : (setReg off v s).free = s.free := (rfl)
@[simp] theorem setReg_pending (off : Nat) (v : Word) (s : State) : (setReg off v s).pending = s.pending := (rfl)

@[simp] theorem setF_pwr (f : Fld) (v : Nat) (s : State) : (setF f v s).pwr = s.pwr := (rfl)
@[simp] theorem setF_pins (f : Fld) (v : Nat) (s : State) : (setF f v s).pins = s.pins := (rfl)
@[simp] theorem setF_img (f : Fld) (v : Nat) (s : State) : (setF f v s).img = s.img := (rfl)
@[simp] theorem setF_unt (f : Fld) (v : Nat) (s : State) : (setF f v s).unt = s.unt := (rfl)
@[simp] theorem setF_cal (f : Fld) (v : Nat) (s : State) : (setF f v s).cal = s.cal := (rfl)
@[simp] theorem setF_tap (f : Fld) (v : Nat) (s : State) : (setF f v s).tap = s.tap := (rfl)
@[simp] theorem setF_mgt (f : Fld) (v : Nat) (s : State) : (setF f v s).mgt = s.mgt := (rfl)
@[simp] theorem setF_mram (f : Fld) (v : Nat) (s : State) : (setF f v s).mram = s.mram := (rfl)
@[simp] theorem setF_mem (f : Fld) (v : Nat) (s : State) : (setF f v s).mem = s.mem := (rfl)
@[simp] theorem setF_bc (f : Fld) (v : Nat) (s : State) : (setF f v s).bc = s.bc := (rfl)
@[simp] theorem setF_host (f : Fld) (v : Nat) (s : State) : (setF f v s).host = s.host := (rfl)
@[simp] theorem setF_media (f : Fld) (v : Nat) (s : State) : (setF f v s).media = s.media := (rfl)
@[simp] theorem setF_mot (f : Fld) (v : Nat) (s : State) : (setF f v s).mot = s.mot := (rfl)
@[simp] theorem setF_chn (f : Fld) (v : Nat) (s : State) : (setF f v s).chn = s.chn := (rfl)
@[simp] theorem setF_pool (f : Fld) (v : Nat) (s : State) : (setF f v s).pool = s.pool := (rfl)
@[simp] theorem setF_pair (f : Fld) (v : Nat) (s : State) : (setF f v s).pair = s.pair := (rfl)
@[simp] theorem setF_out (f : Fld) (v : Nat) (s : State) : (setF f v s).out = s.out := (rfl)
@[simp] theorem setF_free (f : Fld) (v : Nat) (s : State) : (setF f v s).free = s.free := (rfl)
@[simp] theorem setF_pending (f : Fld) (v : Nat) (s : State) : (setF f v s).pending = s.pending := (rfl)

@[simp] theorem setFlag_pwr (f : Fld) (b : Bool) (s : State) : (setFlag f b s).pwr = s.pwr := (rfl)
@[simp] theorem setFlag_pins (f : Fld) (b : Bool) (s : State) : (setFlag f b s).pins = s.pins := (rfl)
@[simp] theorem setFlag_img (f : Fld) (b : Bool) (s : State) : (setFlag f b s).img = s.img := (rfl)
@[simp] theorem setFlag_unt (f : Fld) (b : Bool) (s : State) : (setFlag f b s).unt = s.unt := (rfl)
@[simp] theorem setFlag_cal (f : Fld) (b : Bool) (s : State) : (setFlag f b s).cal = s.cal := (rfl)
@[simp] theorem setFlag_tap (f : Fld) (b : Bool) (s : State) : (setFlag f b s).tap = s.tap := (rfl)
@[simp] theorem setFlag_mgt (f : Fld) (b : Bool) (s : State) : (setFlag f b s).mgt = s.mgt := (rfl)
@[simp] theorem setFlag_mram (f : Fld) (b : Bool) (s : State) : (setFlag f b s).mram = s.mram := (rfl)
@[simp] theorem setFlag_mem (f : Fld) (b : Bool) (s : State) : (setFlag f b s).mem = s.mem := (rfl)
@[simp] theorem setFlag_bc (f : Fld) (b : Bool) (s : State) : (setFlag f b s).bc = s.bc := (rfl)
@[simp] theorem setFlag_host (f : Fld) (b : Bool) (s : State) : (setFlag f b s).host = s.host := (rfl)
@[simp] theorem setFlag_media (f : Fld) (b : Bool) (s : State) : (setFlag f b s).media = s.media := (rfl)
@[simp] theorem setFlag_mot (f : Fld) (b : Bool) (s : State) : (setFlag f b s).mot = s.mot := (rfl)
@[simp] theorem setFlag_chn (f : Fld) (b : Bool) (s : State) : (setFlag f b s).chn = s.chn := (rfl)
@[simp] theorem setFlag_pool (f : Fld) (b : Bool) (s : State) : (setFlag f b s).pool = s.pool := (rfl)
@[simp] theorem setFlag_pair (f : Fld) (b : Bool) (s : State) : (setFlag f b s).pair = s.pair := (rfl)
@[simp] theorem setFlag_out (f : Fld) (b : Bool) (s : State) : (setFlag f b s).out = s.out := (rfl)
@[simp] theorem setFlag_free (f : Fld) (b : Bool) (s : State) : (setFlag f b s).free = s.free := (rfl)
@[simp] theorem setFlag_pending (f : Fld) (b : Bool) (s : State) : (setFlag f b s).pending = s.pending := (rfl)

@[simp] theorem bumpBy_pwr (off n : Nat) (s : State) : (bumpBy off n s).pwr = s.pwr := (rfl)
@[simp] theorem bumpBy_pins (off n : Nat) (s : State) : (bumpBy off n s).pins = s.pins := (rfl)
@[simp] theorem bumpBy_img (off n : Nat) (s : State) : (bumpBy off n s).img = s.img := (rfl)
@[simp] theorem bumpBy_unt (off n : Nat) (s : State) : (bumpBy off n s).unt = s.unt := (rfl)
@[simp] theorem bumpBy_cal (off n : Nat) (s : State) : (bumpBy off n s).cal = s.cal := (rfl)
@[simp] theorem bumpBy_tap (off n : Nat) (s : State) : (bumpBy off n s).tap = s.tap := (rfl)
@[simp] theorem bumpBy_mgt (off n : Nat) (s : State) : (bumpBy off n s).mgt = s.mgt := (rfl)
@[simp] theorem bumpBy_mram (off n : Nat) (s : State) : (bumpBy off n s).mram = s.mram := (rfl)
@[simp] theorem bumpBy_mem (off n : Nat) (s : State) : (bumpBy off n s).mem = s.mem := (rfl)
@[simp] theorem bumpBy_bc (off n : Nat) (s : State) : (bumpBy off n s).bc = s.bc := (rfl)
@[simp] theorem bumpBy_host (off n : Nat) (s : State) : (bumpBy off n s).host = s.host := (rfl)
@[simp] theorem bumpBy_media (off n : Nat) (s : State) : (bumpBy off n s).media = s.media := (rfl)
@[simp] theorem bumpBy_mot (off n : Nat) (s : State) : (bumpBy off n s).mot = s.mot := (rfl)
@[simp] theorem bumpBy_chn (off n : Nat) (s : State) : (bumpBy off n s).chn = s.chn := (rfl)
@[simp] theorem bumpBy_pool (off n : Nat) (s : State) : (bumpBy off n s).pool = s.pool := (rfl)
@[simp] theorem bumpBy_pair (off n : Nat) (s : State) : (bumpBy off n s).pair = s.pair := (rfl)
@[simp] theorem bumpBy_out (off n : Nat) (s : State) : (bumpBy off n s).out = s.out := (rfl)
@[simp] theorem bumpBy_free (off n : Nat) (s : State) : (bumpBy off n s).free = s.free := (rfl)
@[simp] theorem bumpBy_pending (off n : Nat) (s : State) : (bumpBy off n s).pending = s.pending := (rfl)

@[simp] theorem bump_pwr (off i : Nat) (s : State) : (bump off i s).pwr = s.pwr := (rfl)
@[simp] theorem bump_pins (off i : Nat) (s : State) : (bump off i s).pins = s.pins := (rfl)
@[simp] theorem bump_img (off i : Nat) (s : State) : (bump off i s).img = s.img := (rfl)
@[simp] theorem bump_unt (off i : Nat) (s : State) : (bump off i s).unt = s.unt := (rfl)
@[simp] theorem bump_cal (off i : Nat) (s : State) : (bump off i s).cal = s.cal := (rfl)
@[simp] theorem bump_tap (off i : Nat) (s : State) : (bump off i s).tap = s.tap := (rfl)
@[simp] theorem bump_mgt (off i : Nat) (s : State) : (bump off i s).mgt = s.mgt := (rfl)
@[simp] theorem bump_mram (off i : Nat) (s : State) : (bump off i s).mram = s.mram := (rfl)
@[simp] theorem bump_mem (off i : Nat) (s : State) : (bump off i s).mem = s.mem := (rfl)
@[simp] theorem bump_bc (off i : Nat) (s : State) : (bump off i s).bc = s.bc := (rfl)
@[simp] theorem bump_host (off i : Nat) (s : State) : (bump off i s).host = s.host := (rfl)
@[simp] theorem bump_media (off i : Nat) (s : State) : (bump off i s).media = s.media := (rfl)
@[simp] theorem bump_mot (off i : Nat) (s : State) : (bump off i s).mot = s.mot := (rfl)
@[simp] theorem bump_chn (off i : Nat) (s : State) : (bump off i s).chn = s.chn := (rfl)
@[simp] theorem bump_pool (off i : Nat) (s : State) : (bump off i s).pool = s.pool := (rfl)
@[simp] theorem bump_pair (off i : Nat) (s : State) : (bump off i s).pair = s.pair := (rfl)
@[simp] theorem bump_out (off i : Nat) (s : State) : (bump off i s).out = s.out := (rfl)
@[simp] theorem bump_free (off i : Nat) (s : State) : (bump off i s).free = s.free := (rfl)
@[simp] theorem bump_pending (off i : Nat) (s : State) : (bump off i s).pending = s.pending := (rfl)

@[simp] theorem set64_pwr (lo v : Nat) (s : State) : (set64 lo v s).pwr = s.pwr := (rfl)
@[simp] theorem set64_pins (lo v : Nat) (s : State) : (set64 lo v s).pins = s.pins := (rfl)
@[simp] theorem set64_img (lo v : Nat) (s : State) : (set64 lo v s).img = s.img := (rfl)
@[simp] theorem set64_unt (lo v : Nat) (s : State) : (set64 lo v s).unt = s.unt := (rfl)
@[simp] theorem set64_cal (lo v : Nat) (s : State) : (set64 lo v s).cal = s.cal := (rfl)
@[simp] theorem set64_tap (lo v : Nat) (s : State) : (set64 lo v s).tap = s.tap := (rfl)
@[simp] theorem set64_mgt (lo v : Nat) (s : State) : (set64 lo v s).mgt = s.mgt := (rfl)
@[simp] theorem set64_mram (lo v : Nat) (s : State) : (set64 lo v s).mram = s.mram := (rfl)
@[simp] theorem set64_mem (lo v : Nat) (s : State) : (set64 lo v s).mem = s.mem := (rfl)
@[simp] theorem set64_bc (lo v : Nat) (s : State) : (set64 lo v s).bc = s.bc := (rfl)
@[simp] theorem set64_host (lo v : Nat) (s : State) : (set64 lo v s).host = s.host := (rfl)
@[simp] theorem set64_media (lo v : Nat) (s : State) : (set64 lo v s).media = s.media := (rfl)
@[simp] theorem set64_mot (lo v : Nat) (s : State) : (set64 lo v s).mot = s.mot := (rfl)
@[simp] theorem set64_chn (lo v : Nat) (s : State) : (set64 lo v s).chn = s.chn := (rfl)
@[simp] theorem set64_pool (lo v : Nat) (s : State) : (set64 lo v s).pool = s.pool := (rfl)
@[simp] theorem set64_pair (lo v : Nat) (s : State) : (set64 lo v s).pair = s.pair := (rfl)
@[simp] theorem set64_out (lo v : Nat) (s : State) : (set64 lo v s).out = s.out := (rfl)
@[simp] theorem set64_free (lo v : Nat) (s : State) : (set64 lo v s).free = s.free := (rfl)
@[simp] theorem set64_pending (lo v : Nat) (s : State) : (set64 lo v s).pending = s.pending := (rfl)

@[simp] theorem keepRegs_pwr (keep : Nat → Bool) (s : State) : (keepRegs keep s).pwr = s.pwr := (rfl)
@[simp] theorem keepRegs_pins (keep : Nat → Bool) (s : State) : (keepRegs keep s).pins = s.pins := (rfl)
@[simp] theorem keepRegs_img (keep : Nat → Bool) (s : State) : (keepRegs keep s).img = s.img := (rfl)
@[simp] theorem keepRegs_unt (keep : Nat → Bool) (s : State) : (keepRegs keep s).unt = s.unt := (rfl)
@[simp] theorem keepRegs_cal (keep : Nat → Bool) (s : State) : (keepRegs keep s).cal = s.cal := (rfl)
@[simp] theorem keepRegs_tap (keep : Nat → Bool) (s : State) : (keepRegs keep s).tap = s.tap := (rfl)
@[simp] theorem keepRegs_mgt (keep : Nat → Bool) (s : State) : (keepRegs keep s).mgt = s.mgt := (rfl)
@[simp] theorem keepRegs_mram (keep : Nat → Bool) (s : State) : (keepRegs keep s).mram = s.mram := (rfl)
@[simp] theorem keepRegs_mem (keep : Nat → Bool) (s : State) : (keepRegs keep s).mem = s.mem := (rfl)
@[simp] theorem keepRegs_bc (keep : Nat → Bool) (s : State) : (keepRegs keep s).bc = s.bc := (rfl)
@[simp] theorem keepRegs_host (keep : Nat → Bool) (s : State) : (keepRegs keep s).host = s.host := (rfl)
@[simp] theorem keepRegs_media (keep : Nat → Bool) (s : State) : (keepRegs keep s).media = s.media := (rfl)
@[simp] theorem keepRegs_mot (keep : Nat → Bool) (s : State) : (keepRegs keep s).mot = s.mot := (rfl)
@[simp] theorem keepRegs_chn (keep : Nat → Bool) (s : State) : (keepRegs keep s).chn = s.chn := (rfl)
@[simp] theorem keepRegs_pool (keep : Nat → Bool) (s : State) : (keepRegs keep s).pool = s.pool := (rfl)
@[simp] theorem keepRegs_pair (keep : Nat → Bool) (s : State) : (keepRegs keep s).pair = s.pair := (rfl)
@[simp] theorem keepRegs_out (keep : Nat → Bool) (s : State) : (keepRegs keep s).out = s.out := (rfl)
@[simp] theorem keepRegs_free (keep : Nat → Bool) (s : State) : (keepRegs keep s).free = s.free := (rfl)
@[simp] theorem keepRegs_pending (keep : Nat → Bool) (s : State) : (keepRegs keep s).pending = s.pending := (rfl)

@[simp] theorem emit_regs (o : Output) (s : State) : (emit o s).regs = s.regs := (rfl)
@[simp] theorem emit_pwr (o : Output) (s : State) : (emit o s).pwr = s.pwr := (rfl)
@[simp] theorem emit_pins (o : Output) (s : State) : (emit o s).pins = s.pins := (rfl)
@[simp] theorem emit_img (o : Output) (s : State) : (emit o s).img = s.img := (rfl)
@[simp] theorem emit_unt (o : Output) (s : State) : (emit o s).unt = s.unt := (rfl)
@[simp] theorem emit_cal (o : Output) (s : State) : (emit o s).cal = s.cal := (rfl)
@[simp] theorem emit_tap (o : Output) (s : State) : (emit o s).tap = s.tap := (rfl)
@[simp] theorem emit_mgt (o : Output) (s : State) : (emit o s).mgt = s.mgt := (rfl)
@[simp] theorem emit_mram (o : Output) (s : State) : (emit o s).mram = s.mram := (rfl)
@[simp] theorem emit_mem (o : Output) (s : State) : (emit o s).mem = s.mem := (rfl)
@[simp] theorem emit_bc (o : Output) (s : State) : (emit o s).bc = s.bc := (rfl)
@[simp] theorem emit_host (o : Output) (s : State) : (emit o s).host = s.host := (rfl)
@[simp] theorem emit_media (o : Output) (s : State) : (emit o s).media = s.media := (rfl)
@[simp] theorem emit_mot (o : Output) (s : State) : (emit o s).mot = s.mot := (rfl)
@[simp] theorem emit_chn (o : Output) (s : State) : (emit o s).chn = s.chn := (rfl)
@[simp] theorem emit_pool (o : Output) (s : State) : (emit o s).pool = s.pool := (rfl)
@[simp] theorem emit_pair (o : Output) (s : State) : (emit o s).pair = s.pair := (rfl)
@[simp] theorem emit_free (o : Output) (s : State) : (emit o s).free = s.free := (rfl)
@[simp] theorem emit_pending (o : Output) (s : State) : (emit o s).pending = s.pending := (rfl)

@[simp] theorem useFree_regs (s : State) : (useFree s).regs = s.regs := (rfl)
@[simp] theorem useFree_pwr (s : State) : (useFree s).pwr = s.pwr := (rfl)
@[simp] theorem useFree_pins (s : State) : (useFree s).pins = s.pins := (rfl)
@[simp] theorem useFree_img (s : State) : (useFree s).img = s.img := (rfl)
@[simp] theorem useFree_unt (s : State) : (useFree s).unt = s.unt := (rfl)
@[simp] theorem useFree_cal (s : State) : (useFree s).cal = s.cal := (rfl)
@[simp] theorem useFree_tap (s : State) : (useFree s).tap = s.tap := (rfl)
@[simp] theorem useFree_mgt (s : State) : (useFree s).mgt = s.mgt := (rfl)
@[simp] theorem useFree_mram (s : State) : (useFree s).mram = s.mram := (rfl)
@[simp] theorem useFree_mem (s : State) : (useFree s).mem = s.mem := (rfl)
@[simp] theorem useFree_bc (s : State) : (useFree s).bc = s.bc := (rfl)
@[simp] theorem useFree_host (s : State) : (useFree s).host = s.host := (rfl)
@[simp] theorem useFree_media (s : State) : (useFree s).media = s.media := (rfl)
@[simp] theorem useFree_mot (s : State) : (useFree s).mot = s.mot := (rfl)
@[simp] theorem useFree_chn (s : State) : (useFree s).chn = s.chn := (rfl)
@[simp] theorem useFree_pool (s : State) : (useFree s).pool = s.pool := (rfl)
@[simp] theorem useFree_pair (s : State) : (useFree s).pair = s.pair := (rfl)
@[simp] theorem useFree_out (s : State) : (useFree s).out = s.out := (rfl)
@[simp] theorem useFree_pending (s : State) : (useFree s).pending = s.pending := (rfl)

@[simp] theorem modImg_regs (f : ImgState → ImgState) (s : State) : (modImg f s).regs = s.regs := (rfl)
@[simp] theorem modImg_pwr (f : ImgState → ImgState) (s : State) : (modImg f s).pwr = s.pwr := (rfl)
@[simp] theorem modImg_pins (f : ImgState → ImgState) (s : State) : (modImg f s).pins = s.pins := (rfl)
@[simp] theorem modImg_unt (f : ImgState → ImgState) (s : State) : (modImg f s).unt = s.unt := (rfl)
@[simp] theorem modImg_cal (f : ImgState → ImgState) (s : State) : (modImg f s).cal = s.cal := (rfl)
@[simp] theorem modImg_tap (f : ImgState → ImgState) (s : State) : (modImg f s).tap = s.tap := (rfl)
@[simp] theorem modImg_mgt (f : ImgState → ImgState) (s : State) : (modImg f s).mgt = s.mgt := (rfl)
@[simp] theorem modImg_mram (f : ImgState → ImgState) (s : State) : (modImg f s).mram = s.mram := (rfl)
@[simp] theorem modImg_mem (f : ImgState → ImgState) (s : State) : (modImg f s).mem = s.mem := (rfl)
@[simp] theorem modImg_bc (f : ImgState → ImgState) (s : State) : (modImg f s).bc = s.bc := (rfl)
@[simp] theorem modImg_host (f : ImgState → ImgState) (s : State) : (modImg f s).host = s.host := (rfl)
@[simp] theorem modImg_media (f : ImgState → ImgState) (s : State) : (modImg f s).media = s.media := (rfl)
@[simp] theorem modImg_mot (f : ImgState → ImgState) (s : State) : (modImg f s).mot = s.mot := (rfl)
@[simp] theorem modImg_chn (f : ImgState → ImgState) (s : State) : (modImg f s).chn = s.chn := (rfl)
@[simp] theorem modImg_pool (f : ImgState → ImgState) (s : State) : (modImg f s).pool = s.pool := (rfl)
@[simp] theorem modImg_pair (f : ImgState → ImgState) (s : State) : (modImg f s).pair = s.pair := (rfl)
@[simp] theorem modImg_out (f : ImgState → ImgState) (s : State) : (modImg f s).out = s.out := (rfl)
@[simp] theorem modImg_free (f : ImgState → ImgState) (s : State) : (modImg f s).free = s.free := (rfl)
@[simp] theorem modImg_pending (f : ImgState → ImgState) (s : State) : (modImg f s).pending = s.pending := (rfl)

@[simp] theorem modBc_regs (f : CacheState → CacheState) (s : State) : (modBc f s).regs = s.regs := (rfl)
@[simp] theorem modBc_pwr (f : CacheState → CacheState) (s : State) : (modBc f s).pwr = s.pwr := (rfl)
@[simp] theorem modBc_pins (f : CacheState → CacheState) (s : State) : (modBc f s).pins = s.pins := (rfl)
@[simp] theorem modBc_img (f : CacheState → CacheState) (s : State) : (modBc f s).img = s.img := (rfl)
@[simp] theorem modBc_unt (f : CacheState → CacheState) (s : State) : (modBc f s).unt = s.unt := (rfl)
@[simp] theorem modBc_cal (f : CacheState → CacheState) (s : State) : (modBc f s).cal = s.cal := (rfl)
@[simp] theorem modBc_tap (f : CacheState → CacheState) (s : State) : (modBc f s).tap = s.tap := (rfl)
@[simp] theorem modBc_mgt (f : CacheState → CacheState) (s : State) : (modBc f s).mgt = s.mgt := (rfl)
@[simp] theorem modBc_mram (f : CacheState → CacheState) (s : State) : (modBc f s).mram = s.mram := (rfl)
@[simp] theorem modBc_mem (f : CacheState → CacheState) (s : State) : (modBc f s).mem = s.mem := (rfl)
@[simp] theorem modBc_host (f : CacheState → CacheState) (s : State) : (modBc f s).host = s.host := (rfl)
@[simp] theorem modBc_media (f : CacheState → CacheState) (s : State) : (modBc f s).media = s.media := (rfl)
@[simp] theorem modBc_mot (f : CacheState → CacheState) (s : State) : (modBc f s).mot = s.mot := (rfl)
@[simp] theorem modBc_chn (f : CacheState → CacheState) (s : State) : (modBc f s).chn = s.chn := (rfl)
@[simp] theorem modBc_pool (f : CacheState → CacheState) (s : State) : (modBc f s).pool = s.pool := (rfl)
@[simp] theorem modBc_pair (f : CacheState → CacheState) (s : State) : (modBc f s).pair = s.pair := (rfl)
@[simp] theorem modBc_out (f : CacheState → CacheState) (s : State) : (modBc f s).out = s.out := (rfl)
@[simp] theorem modBc_free (f : CacheState → CacheState) (s : State) : (modBc f s).free = s.free := (rfl)
@[simp] theorem modBc_pending (f : CacheState → CacheState) (s : State) : (modBc f s).pending = s.pending := (rfl)

@[simp] theorem modPair_regs (f : PairState → PairState) (s : State) : (modPair f s).regs = s.regs := (rfl)
@[simp] theorem modPair_pwr (f : PairState → PairState) (s : State) : (modPair f s).pwr = s.pwr := (rfl)
@[simp] theorem modPair_pins (f : PairState → PairState) (s : State) : (modPair f s).pins = s.pins := (rfl)
@[simp] theorem modPair_img (f : PairState → PairState) (s : State) : (modPair f s).img = s.img := (rfl)
@[simp] theorem modPair_unt (f : PairState → PairState) (s : State) : (modPair f s).unt = s.unt := (rfl)
@[simp] theorem modPair_cal (f : PairState → PairState) (s : State) : (modPair f s).cal = s.cal := (rfl)
@[simp] theorem modPair_tap (f : PairState → PairState) (s : State) : (modPair f s).tap = s.tap := (rfl)
@[simp] theorem modPair_mgt (f : PairState → PairState) (s : State) : (modPair f s).mgt = s.mgt := (rfl)
@[simp] theorem modPair_mram (f : PairState → PairState) (s : State) : (modPair f s).mram = s.mram := (rfl)
@[simp] theorem modPair_mem (f : PairState → PairState) (s : State) : (modPair f s).mem = s.mem := (rfl)
@[simp] theorem modPair_bc (f : PairState → PairState) (s : State) : (modPair f s).bc = s.bc := (rfl)
@[simp] theorem modPair_host (f : PairState → PairState) (s : State) : (modPair f s).host = s.host := (rfl)
@[simp] theorem modPair_media (f : PairState → PairState) (s : State) : (modPair f s).media = s.media := (rfl)
@[simp] theorem modPair_mot (f : PairState → PairState) (s : State) : (modPair f s).mot = s.mot := (rfl)
@[simp] theorem modPair_chn (f : PairState → PairState) (s : State) : (modPair f s).chn = s.chn := (rfl)
@[simp] theorem modPair_pool (f : PairState → PairState) (s : State) : (modPair f s).pool = s.pool := (rfl)
@[simp] theorem modPair_out (f : PairState → PairState) (s : State) : (modPair f s).out = s.out := (rfl)
@[simp] theorem modPair_free (f : PairState → PairState) (s : State) : (modPair f s).free = s.free := (rfl)
@[simp] theorem modPair_pending (f : PairState → PairState) (s : State) : (modPair f s).pending = s.pending := (rfl)

@[simp] theorem modMem_regs (f : MemState → MemState) (s : State) : (modMem f s).regs = s.regs := (rfl)
@[simp] theorem modMem_pwr (f : MemState → MemState) (s : State) : (modMem f s).pwr = s.pwr := (rfl)
@[simp] theorem modMem_pins (f : MemState → MemState) (s : State) : (modMem f s).pins = s.pins := (rfl)
@[simp] theorem modMem_img (f : MemState → MemState) (s : State) : (modMem f s).img = s.img := (rfl)
@[simp] theorem modMem_unt (f : MemState → MemState) (s : State) : (modMem f s).unt = s.unt := (rfl)
@[simp] theorem modMem_cal (f : MemState → MemState) (s : State) : (modMem f s).cal = s.cal := (rfl)
@[simp] theorem modMem_tap (f : MemState → MemState) (s : State) : (modMem f s).tap = s.tap := (rfl)
@[simp] theorem modMem_mgt (f : MemState → MemState) (s : State) : (modMem f s).mgt = s.mgt := (rfl)
@[simp] theorem modMem_mram (f : MemState → MemState) (s : State) : (modMem f s).mram = s.mram := (rfl)
@[simp] theorem modMem_bc (f : MemState → MemState) (s : State) : (modMem f s).bc = s.bc := (rfl)
@[simp] theorem modMem_host (f : MemState → MemState) (s : State) : (modMem f s).host = s.host := (rfl)
@[simp] theorem modMem_media (f : MemState → MemState) (s : State) : (modMem f s).media = s.media := (rfl)
@[simp] theorem modMem_mot (f : MemState → MemState) (s : State) : (modMem f s).mot = s.mot := (rfl)
@[simp] theorem modMem_chn (f : MemState → MemState) (s : State) : (modMem f s).chn = s.chn := (rfl)
@[simp] theorem modMem_pool (f : MemState → MemState) (s : State) : (modMem f s).pool = s.pool := (rfl)
@[simp] theorem modMem_pair (f : MemState → MemState) (s : State) : (modMem f s).pair = s.pair := (rfl)
@[simp] theorem modMem_out (f : MemState → MemState) (s : State) : (modMem f s).out = s.out := (rfl)
@[simp] theorem modMem_free (f : MemState → MemState) (s : State) : (modMem f s).free = s.free := (rfl)
@[simp] theorem modMem_pending (f : MemState → MemState) (s : State) : (modMem f s).pending = s.pending := (rfl)

@[simp] theorem modMgt_regs (f : MgmtState → MgmtState) (s : State) : (modMgt f s).regs = s.regs := (rfl)
@[simp] theorem modMgt_pwr (f : MgmtState → MgmtState) (s : State) : (modMgt f s).pwr = s.pwr := (rfl)
@[simp] theorem modMgt_pins (f : MgmtState → MgmtState) (s : State) : (modMgt f s).pins = s.pins := (rfl)
@[simp] theorem modMgt_img (f : MgmtState → MgmtState) (s : State) : (modMgt f s).img = s.img := (rfl)
@[simp] theorem modMgt_unt (f : MgmtState → MgmtState) (s : State) : (modMgt f s).unt = s.unt := (rfl)
@[simp] theorem modMgt_cal (f : MgmtState → MgmtState) (s : State) : (modMgt f s).cal = s.cal := (rfl)
@[simp] theorem modMgt_tap (f : MgmtState → MgmtState) (s : State) : (modMgt f s).tap = s.tap := (rfl)
@[simp] theorem modMgt_mram (f : MgmtState → MgmtState) (s : State) : (modMgt f s).mram = s.mram := (rfl)
@[simp] theorem modMgt_mem (f : MgmtState → MgmtState) (s : State) : (modMgt f s).mem = s.mem := (rfl)
@[simp] theorem modMgt_bc (f : MgmtState → MgmtState) (s : State) : (modMgt f s).bc = s.bc := (rfl)
@[simp] theorem modMgt_host (f : MgmtState → MgmtState) (s : State) : (modMgt f s).host = s.host := (rfl)
@[simp] theorem modMgt_media (f : MgmtState → MgmtState) (s : State) : (modMgt f s).media = s.media := (rfl)
@[simp] theorem modMgt_mot (f : MgmtState → MgmtState) (s : State) : (modMgt f s).mot = s.mot := (rfl)
@[simp] theorem modMgt_chn (f : MgmtState → MgmtState) (s : State) : (modMgt f s).chn = s.chn := (rfl)
@[simp] theorem modMgt_pool (f : MgmtState → MgmtState) (s : State) : (modMgt f s).pool = s.pool := (rfl)
@[simp] theorem modMgt_pair (f : MgmtState → MgmtState) (s : State) : (modMgt f s).pair = s.pair := (rfl)
@[simp] theorem modMgt_out (f : MgmtState → MgmtState) (s : State) : (modMgt f s).out = s.out := (rfl)
@[simp] theorem modMgt_free (f : MgmtState → MgmtState) (s : State) : (modMgt f s).free = s.free := (rfl)
@[simp] theorem modMgt_pending (f : MgmtState → MgmtState) (s : State) : (modMgt f s).pending = s.pending := (rfl)

@[simp] theorem modPwr_regs (f : PowerState → PowerState) (s : State) : (modPwr f s).regs = s.regs := (rfl)
@[simp] theorem modPwr_pins (f : PowerState → PowerState) (s : State) : (modPwr f s).pins = s.pins := (rfl)
@[simp] theorem modPwr_img (f : PowerState → PowerState) (s : State) : (modPwr f s).img = s.img := (rfl)
@[simp] theorem modPwr_unt (f : PowerState → PowerState) (s : State) : (modPwr f s).unt = s.unt := (rfl)
@[simp] theorem modPwr_cal (f : PowerState → PowerState) (s : State) : (modPwr f s).cal = s.cal := (rfl)
@[simp] theorem modPwr_tap (f : PowerState → PowerState) (s : State) : (modPwr f s).tap = s.tap := (rfl)
@[simp] theorem modPwr_mgt (f : PowerState → PowerState) (s : State) : (modPwr f s).mgt = s.mgt := (rfl)
@[simp] theorem modPwr_mram (f : PowerState → PowerState) (s : State) : (modPwr f s).mram = s.mram := (rfl)
@[simp] theorem modPwr_mem (f : PowerState → PowerState) (s : State) : (modPwr f s).mem = s.mem := (rfl)
@[simp] theorem modPwr_bc (f : PowerState → PowerState) (s : State) : (modPwr f s).bc = s.bc := (rfl)
@[simp] theorem modPwr_host (f : PowerState → PowerState) (s : State) : (modPwr f s).host = s.host := (rfl)
@[simp] theorem modPwr_media (f : PowerState → PowerState) (s : State) : (modPwr f s).media = s.media := (rfl)
@[simp] theorem modPwr_mot (f : PowerState → PowerState) (s : State) : (modPwr f s).mot = s.mot := (rfl)
@[simp] theorem modPwr_chn (f : PowerState → PowerState) (s : State) : (modPwr f s).chn = s.chn := (rfl)
@[simp] theorem modPwr_pool (f : PowerState → PowerState) (s : State) : (modPwr f s).pool = s.pool := (rfl)
@[simp] theorem modPwr_pair (f : PowerState → PowerState) (s : State) : (modPwr f s).pair = s.pair := (rfl)
@[simp] theorem modPwr_out (f : PowerState → PowerState) (s : State) : (modPwr f s).out = s.out := (rfl)
@[simp] theorem modPwr_free (f : PowerState → PowerState) (s : State) : (modPwr f s).free = s.free := (rfl)
@[simp] theorem modPwr_pending (f : PowerState → PowerState) (s : State) : (modPwr f s).pending = s.pending := (rfl)

@[simp] theorem modSpn_regs (f : SpnState → SpnState) (s : State) : (modSpn f s).regs = s.regs := (rfl)
@[simp] theorem modSpn_pwr (f : SpnState → SpnState) (s : State) : (modSpn f s).pwr = s.pwr := (rfl)
@[simp] theorem modSpn_pins (f : SpnState → SpnState) (s : State) : (modSpn f s).pins = s.pins := (rfl)
@[simp] theorem modSpn_img (f : SpnState → SpnState) (s : State) : (modSpn f s).img = s.img := (rfl)
@[simp] theorem modSpn_unt (f : SpnState → SpnState) (s : State) : (modSpn f s).unt = s.unt := (rfl)
@[simp] theorem modSpn_cal (f : SpnState → SpnState) (s : State) : (modSpn f s).cal = s.cal := (rfl)
@[simp] theorem modSpn_tap (f : SpnState → SpnState) (s : State) : (modSpn f s).tap = s.tap := (rfl)
@[simp] theorem modSpn_mgt (f : SpnState → SpnState) (s : State) : (modSpn f s).mgt = s.mgt := (rfl)
@[simp] theorem modSpn_mram (f : SpnState → SpnState) (s : State) : (modSpn f s).mram = s.mram := (rfl)
@[simp] theorem modSpn_mem (f : SpnState → SpnState) (s : State) : (modSpn f s).mem = s.mem := (rfl)
@[simp] theorem modSpn_bc (f : SpnState → SpnState) (s : State) : (modSpn f s).bc = s.bc := (rfl)
@[simp] theorem modSpn_host (f : SpnState → SpnState) (s : State) : (modSpn f s).host = s.host := (rfl)
@[simp] theorem modSpn_media (f : SpnState → SpnState) (s : State) : (modSpn f s).media = s.media := (rfl)
@[simp] theorem modSpn_chn (f : SpnState → SpnState) (s : State) : (modSpn f s).chn = s.chn := (rfl)
@[simp] theorem modSpn_pool (f : SpnState → SpnState) (s : State) : (modSpn f s).pool = s.pool := (rfl)
@[simp] theorem modSpn_pair (f : SpnState → SpnState) (s : State) : (modSpn f s).pair = s.pair := (rfl)
@[simp] theorem modSpn_out (f : SpnState → SpnState) (s : State) : (modSpn f s).out = s.out := (rfl)
@[simp] theorem modSpn_free (f : SpnState → SpnState) (s : State) : (modSpn f s).free = s.free := (rfl)
@[simp] theorem modSpn_pending (f : SpnState → SpnState) (s : State) : (modSpn f s).pending = s.pending := (rfl)

@[simp] theorem modCar_regs (c : Nat) (f : CarMotion → CarMotion) (s : State) : (modCar c f s).regs = s.regs := (rfl)
@[simp] theorem modCar_pwr (c : Nat) (f : CarMotion → CarMotion) (s : State) : (modCar c f s).pwr = s.pwr := (rfl)
@[simp] theorem modCar_pins (c : Nat) (f : CarMotion → CarMotion) (s : State) : (modCar c f s).pins = s.pins := (rfl)
@[simp] theorem modCar_img (c : Nat) (f : CarMotion → CarMotion) (s : State) : (modCar c f s).img = s.img := (rfl)
@[simp] theorem modCar_unt (c : Nat) (f : CarMotion → CarMotion) (s : State) : (modCar c f s).unt = s.unt := (rfl)
@[simp] theorem modCar_cal (c : Nat) (f : CarMotion → CarMotion) (s : State) : (modCar c f s).cal = s.cal := (rfl)
@[simp] theorem modCar_tap (c : Nat) (f : CarMotion → CarMotion) (s : State) : (modCar c f s).tap = s.tap := (rfl)
@[simp] theorem modCar_mgt (c : Nat) (f : CarMotion → CarMotion) (s : State) : (modCar c f s).mgt = s.mgt := (rfl)
@[simp] theorem modCar_mram (c : Nat) (f : CarMotion → CarMotion) (s : State) : (modCar c f s).mram = s.mram := (rfl)
@[simp] theorem modCar_mem (c : Nat) (f : CarMotion → CarMotion) (s : State) : (modCar c f s).mem = s.mem := (rfl)
@[simp] theorem modCar_bc (c : Nat) (f : CarMotion → CarMotion) (s : State) : (modCar c f s).bc = s.bc := (rfl)
@[simp] theorem modCar_host (c : Nat) (f : CarMotion → CarMotion) (s : State) : (modCar c f s).host = s.host := (rfl)
@[simp] theorem modCar_media (c : Nat) (f : CarMotion → CarMotion) (s : State) : (modCar c f s).media = s.media := (rfl)
@[simp] theorem modCar_chn (c : Nat) (f : CarMotion → CarMotion) (s : State) : (modCar c f s).chn = s.chn := (rfl)
@[simp] theorem modCar_pool (c : Nat) (f : CarMotion → CarMotion) (s : State) : (modCar c f s).pool = s.pool := (rfl)
@[simp] theorem modCar_pair (c : Nat) (f : CarMotion → CarMotion) (s : State) : (modCar c f s).pair = s.pair := (rfl)
@[simp] theorem modCar_out (c : Nat) (f : CarMotion → CarMotion) (s : State) : (modCar c f s).out = s.out := (rfl)
@[simp] theorem modCar_free (c : Nat) (f : CarMotion → CarMotion) (s : State) : (modCar c f s).free = s.free := (rfl)
@[simp] theorem modCar_pending (c : Nat) (f : CarMotion → CarMotion) (s : State) : (modCar c f s).pending = s.pending := (rfl)

@[simp] theorem modSlot_regs (k : Nat) (f : LoopSlot → LoopSlot) (s : State) : (modSlot k f s).regs = s.regs := (rfl)
@[simp] theorem modSlot_pwr (k : Nat) (f : LoopSlot → LoopSlot) (s : State) : (modSlot k f s).pwr = s.pwr := (rfl)
@[simp] theorem modSlot_pins (k : Nat) (f : LoopSlot → LoopSlot) (s : State) : (modSlot k f s).pins = s.pins := (rfl)
@[simp] theorem modSlot_img (k : Nat) (f : LoopSlot → LoopSlot) (s : State) : (modSlot k f s).img = s.img := (rfl)
@[simp] theorem modSlot_unt (k : Nat) (f : LoopSlot → LoopSlot) (s : State) : (modSlot k f s).unt = s.unt := (rfl)
@[simp] theorem modSlot_cal (k : Nat) (f : LoopSlot → LoopSlot) (s : State) : (modSlot k f s).cal = s.cal := (rfl)
@[simp] theorem modSlot_tap (k : Nat) (f : LoopSlot → LoopSlot) (s : State) : (modSlot k f s).tap = s.tap := (rfl)
@[simp] theorem modSlot_mgt (k : Nat) (f : LoopSlot → LoopSlot) (s : State) : (modSlot k f s).mgt = s.mgt := (rfl)
@[simp] theorem modSlot_mram (k : Nat) (f : LoopSlot → LoopSlot) (s : State) : (modSlot k f s).mram = s.mram := (rfl)
@[simp] theorem modSlot_mem (k : Nat) (f : LoopSlot → LoopSlot) (s : State) : (modSlot k f s).mem = s.mem := (rfl)
@[simp] theorem modSlot_bc (k : Nat) (f : LoopSlot → LoopSlot) (s : State) : (modSlot k f s).bc = s.bc := (rfl)
@[simp] theorem modSlot_host (k : Nat) (f : LoopSlot → LoopSlot) (s : State) : (modSlot k f s).host = s.host := (rfl)
@[simp] theorem modSlot_media (k : Nat) (f : LoopSlot → LoopSlot) (s : State) : (modSlot k f s).media = s.media := (rfl)
@[simp] theorem modSlot_chn (k : Nat) (f : LoopSlot → LoopSlot) (s : State) : (modSlot k f s).chn = s.chn := (rfl)
@[simp] theorem modSlot_pool (k : Nat) (f : LoopSlot → LoopSlot) (s : State) : (modSlot k f s).pool = s.pool := (rfl)
@[simp] theorem modSlot_pair (k : Nat) (f : LoopSlot → LoopSlot) (s : State) : (modSlot k f s).pair = s.pair := (rfl)
@[simp] theorem modSlot_out (k : Nat) (f : LoopSlot → LoopSlot) (s : State) : (modSlot k f s).out = s.out := (rfl)
@[simp] theorem modSlot_free (k : Nat) (f : LoopSlot → LoopSlot) (s : State) : (modSlot k f s).free = s.free := (rfl)
@[simp] theorem modSlot_pending (k : Nat) (f : LoopSlot → LoopSlot) (s : State) : (modSlot k f s).pending = s.pending := (rfl)

@[simp] theorem modCam_regs (t : Nat) (f : CamSt → CamSt) (s : State) : (modCam t f s).regs = s.regs := (rfl)
@[simp] theorem modCam_pwr (t : Nat) (f : CamSt → CamSt) (s : State) : (modCam t f s).pwr = s.pwr := (rfl)
@[simp] theorem modCam_pins (t : Nat) (f : CamSt → CamSt) (s : State) : (modCam t f s).pins = s.pins := (rfl)
@[simp] theorem modCam_img (t : Nat) (f : CamSt → CamSt) (s : State) : (modCam t f s).img = s.img := (rfl)
@[simp] theorem modCam_unt (t : Nat) (f : CamSt → CamSt) (s : State) : (modCam t f s).unt = s.unt := (rfl)
@[simp] theorem modCam_cal (t : Nat) (f : CamSt → CamSt) (s : State) : (modCam t f s).cal = s.cal := (rfl)
@[simp] theorem modCam_tap (t : Nat) (f : CamSt → CamSt) (s : State) : (modCam t f s).tap = s.tap := (rfl)
@[simp] theorem modCam_mgt (t : Nat) (f : CamSt → CamSt) (s : State) : (modCam t f s).mgt = s.mgt := (rfl)
@[simp] theorem modCam_mram (t : Nat) (f : CamSt → CamSt) (s : State) : (modCam t f s).mram = s.mram := (rfl)
@[simp] theorem modCam_mem (t : Nat) (f : CamSt → CamSt) (s : State) : (modCam t f s).mem = s.mem := (rfl)
@[simp] theorem modCam_bc (t : Nat) (f : CamSt → CamSt) (s : State) : (modCam t f s).bc = s.bc := (rfl)
@[simp] theorem modCam_host (t : Nat) (f : CamSt → CamSt) (s : State) : (modCam t f s).host = s.host := (rfl)
@[simp] theorem modCam_media (t : Nat) (f : CamSt → CamSt) (s : State) : (modCam t f s).media = s.media := (rfl)
@[simp] theorem modCam_chn (t : Nat) (f : CamSt → CamSt) (s : State) : (modCam t f s).chn = s.chn := (rfl)
@[simp] theorem modCam_pool (t : Nat) (f : CamSt → CamSt) (s : State) : (modCam t f s).pool = s.pool := (rfl)
@[simp] theorem modCam_pair (t : Nat) (f : CamSt → CamSt) (s : State) : (modCam t f s).pair = s.pair := (rfl)
@[simp] theorem modCam_out (t : Nat) (f : CamSt → CamSt) (s : State) : (modCam t f s).out = s.out := (rfl)
@[simp] theorem modCam_free (t : Nat) (f : CamSt → CamSt) (s : State) : (modCam t f s).free = s.free := (rfl)
@[simp] theorem modCam_pending (t : Nat) (f : CamSt → CamSt) (s : State) : (modCam t f s).pending = s.pending := (rfl)

@[simp] theorem modStrand_regs (g : Nat) (f : StrandSt → StrandSt) (s : State) : (modStrand g f s).regs = s.regs := (rfl)
@[simp] theorem modStrand_pwr (g : Nat) (f : StrandSt → StrandSt) (s : State) : (modStrand g f s).pwr = s.pwr := (rfl)
@[simp] theorem modStrand_pins (g : Nat) (f : StrandSt → StrandSt) (s : State) : (modStrand g f s).pins = s.pins := (rfl)
@[simp] theorem modStrand_img (g : Nat) (f : StrandSt → StrandSt) (s : State) : (modStrand g f s).img = s.img := (rfl)
@[simp] theorem modStrand_unt (g : Nat) (f : StrandSt → StrandSt) (s : State) : (modStrand g f s).unt = s.unt := (rfl)
@[simp] theorem modStrand_cal (g : Nat) (f : StrandSt → StrandSt) (s : State) : (modStrand g f s).cal = s.cal := (rfl)
@[simp] theorem modStrand_tap (g : Nat) (f : StrandSt → StrandSt) (s : State) : (modStrand g f s).tap = s.tap := (rfl)
@[simp] theorem modStrand_mgt (g : Nat) (f : StrandSt → StrandSt) (s : State) : (modStrand g f s).mgt = s.mgt := (rfl)
@[simp] theorem modStrand_mram (g : Nat) (f : StrandSt → StrandSt) (s : State) : (modStrand g f s).mram = s.mram := (rfl)
@[simp] theorem modStrand_mem (g : Nat) (f : StrandSt → StrandSt) (s : State) : (modStrand g f s).mem = s.mem := (rfl)
@[simp] theorem modStrand_bc (g : Nat) (f : StrandSt → StrandSt) (s : State) : (modStrand g f s).bc = s.bc := (rfl)
@[simp] theorem modStrand_host (g : Nat) (f : StrandSt → StrandSt) (s : State) : (modStrand g f s).host = s.host := (rfl)
@[simp] theorem modStrand_media (g : Nat) (f : StrandSt → StrandSt) (s : State) : (modStrand g f s).media = s.media := (rfl)
@[simp] theorem modStrand_mot (g : Nat) (f : StrandSt → StrandSt) (s : State) : (modStrand g f s).mot = s.mot := (rfl)
@[simp] theorem modStrand_pool (g : Nat) (f : StrandSt → StrandSt) (s : State) : (modStrand g f s).pool = s.pool := (rfl)
@[simp] theorem modStrand_pair (g : Nat) (f : StrandSt → StrandSt) (s : State) : (modStrand g f s).pair = s.pair := (rfl)
@[simp] theorem modStrand_out (g : Nat) (f : StrandSt → StrandSt) (s : State) : (modStrand g f s).out = s.out := (rfl)
@[simp] theorem modStrand_free (g : Nat) (f : StrandSt → StrandSt) (s : State) : (modStrand g f s).free = s.free := (rfl)
@[simp] theorem modStrand_pending (g : Nat) (f : StrandSt → StrandSt) (s : State) : (modStrand g f s).pending = s.pending := (rfl)

@[simp] theorem modWcar_regs (c : Nat) (f : WriteCar → WriteCar) (s : State) : (modWcar c f s).regs = s.regs := (rfl)
@[simp] theorem modWcar_pwr (c : Nat) (f : WriteCar → WriteCar) (s : State) : (modWcar c f s).pwr = s.pwr := (rfl)
@[simp] theorem modWcar_pins (c : Nat) (f : WriteCar → WriteCar) (s : State) : (modWcar c f s).pins = s.pins := (rfl)
@[simp] theorem modWcar_img (c : Nat) (f : WriteCar → WriteCar) (s : State) : (modWcar c f s).img = s.img := (rfl)
@[simp] theorem modWcar_unt (c : Nat) (f : WriteCar → WriteCar) (s : State) : (modWcar c f s).unt = s.unt := (rfl)
@[simp] theorem modWcar_cal (c : Nat) (f : WriteCar → WriteCar) (s : State) : (modWcar c f s).cal = s.cal := (rfl)
@[simp] theorem modWcar_tap (c : Nat) (f : WriteCar → WriteCar) (s : State) : (modWcar c f s).tap = s.tap := (rfl)
@[simp] theorem modWcar_mgt (c : Nat) (f : WriteCar → WriteCar) (s : State) : (modWcar c f s).mgt = s.mgt := (rfl)
@[simp] theorem modWcar_mram (c : Nat) (f : WriteCar → WriteCar) (s : State) : (modWcar c f s).mram = s.mram := (rfl)
@[simp] theorem modWcar_mem (c : Nat) (f : WriteCar → WriteCar) (s : State) : (modWcar c f s).mem = s.mem := (rfl)
@[simp] theorem modWcar_bc (c : Nat) (f : WriteCar → WriteCar) (s : State) : (modWcar c f s).bc = s.bc := (rfl)
@[simp] theorem modWcar_host (c : Nat) (f : WriteCar → WriteCar) (s : State) : (modWcar c f s).host = s.host := (rfl)
@[simp] theorem modWcar_mot (c : Nat) (f : WriteCar → WriteCar) (s : State) : (modWcar c f s).mot = s.mot := (rfl)
@[simp] theorem modWcar_chn (c : Nat) (f : WriteCar → WriteCar) (s : State) : (modWcar c f s).chn = s.chn := (rfl)
@[simp] theorem modWcar_pool (c : Nat) (f : WriteCar → WriteCar) (s : State) : (modWcar c f s).pool = s.pool := (rfl)
@[simp] theorem modWcar_pair (c : Nat) (f : WriteCar → WriteCar) (s : State) : (modWcar c f s).pair = s.pair := (rfl)
@[simp] theorem modWcar_out (c : Nat) (f : WriteCar → WriteCar) (s : State) : (modWcar c f s).out = s.out := (rfl)
@[simp] theorem modWcar_free (c : Nat) (f : WriteCar → WriteCar) (s : State) : (modWcar c f s).free = s.free := (rfl)
@[simp] theorem modWcar_pending (c : Nat) (f : WriteCar → WriteCar) (s : State) : (modWcar c f s).pending = s.pending := (rfl)

@[simp] theorem modHeng_regs (n : Nat) (f : HankEng → HankEng) (s : State) : (modHeng n f s).regs = s.regs := (rfl)
@[simp] theorem modHeng_pwr (n : Nat) (f : HankEng → HankEng) (s : State) : (modHeng n f s).pwr = s.pwr := (rfl)
@[simp] theorem modHeng_pins (n : Nat) (f : HankEng → HankEng) (s : State) : (modHeng n f s).pins = s.pins := (rfl)
@[simp] theorem modHeng_img (n : Nat) (f : HankEng → HankEng) (s : State) : (modHeng n f s).img = s.img := (rfl)
@[simp] theorem modHeng_unt (n : Nat) (f : HankEng → HankEng) (s : State) : (modHeng n f s).unt = s.unt := (rfl)
@[simp] theorem modHeng_cal (n : Nat) (f : HankEng → HankEng) (s : State) : (modHeng n f s).cal = s.cal := (rfl)
@[simp] theorem modHeng_tap (n : Nat) (f : HankEng → HankEng) (s : State) : (modHeng n f s).tap = s.tap := (rfl)
@[simp] theorem modHeng_mgt (n : Nat) (f : HankEng → HankEng) (s : State) : (modHeng n f s).mgt = s.mgt := (rfl)
@[simp] theorem modHeng_mram (n : Nat) (f : HankEng → HankEng) (s : State) : (modHeng n f s).mram = s.mram := (rfl)
@[simp] theorem modHeng_mem (n : Nat) (f : HankEng → HankEng) (s : State) : (modHeng n f s).mem = s.mem := (rfl)
@[simp] theorem modHeng_bc (n : Nat) (f : HankEng → HankEng) (s : State) : (modHeng n f s).bc = s.bc := (rfl)
@[simp] theorem modHeng_host (n : Nat) (f : HankEng → HankEng) (s : State) : (modHeng n f s).host = s.host := (rfl)
@[simp] theorem modHeng_mot (n : Nat) (f : HankEng → HankEng) (s : State) : (modHeng n f s).mot = s.mot := (rfl)
@[simp] theorem modHeng_chn (n : Nat) (f : HankEng → HankEng) (s : State) : (modHeng n f s).chn = s.chn := (rfl)
@[simp] theorem modHeng_pool (n : Nat) (f : HankEng → HankEng) (s : State) : (modHeng n f s).pool = s.pool := (rfl)
@[simp] theorem modHeng_pair (n : Nat) (f : HankEng → HankEng) (s : State) : (modHeng n f s).pair = s.pair := (rfl)
@[simp] theorem modHeng_out (n : Nat) (f : HankEng → HankEng) (s : State) : (modHeng n f s).out = s.out := (rfl)
@[simp] theorem modHeng_free (n : Nat) (f : HankEng → HankEng) (s : State) : (modHeng n f s).free = s.free := (rfl)
@[simp] theorem modHeng_pending (n : Nat) (f : HankEng → HankEng) (s : State) : (modHeng n f s).pending = s.pending := (rfl)

@[simp] theorem modDisc_regs (f : DiscState → DiscState) (s : State) : (modDisc f s).regs = s.regs := (rfl)
@[simp] theorem modDisc_pwr (f : DiscState → DiscState) (s : State) : (modDisc f s).pwr = s.pwr := (rfl)
@[simp] theorem modDisc_pins (f : DiscState → DiscState) (s : State) : (modDisc f s).pins = s.pins := (rfl)
@[simp] theorem modDisc_img (f : DiscState → DiscState) (s : State) : (modDisc f s).img = s.img := (rfl)
@[simp] theorem modDisc_unt (f : DiscState → DiscState) (s : State) : (modDisc f s).unt = s.unt := (rfl)
@[simp] theorem modDisc_cal (f : DiscState → DiscState) (s : State) : (modDisc f s).cal = s.cal := (rfl)
@[simp] theorem modDisc_tap (f : DiscState → DiscState) (s : State) : (modDisc f s).tap = s.tap := (rfl)
@[simp] theorem modDisc_mgt (f : DiscState → DiscState) (s : State) : (modDisc f s).mgt = s.mgt := (rfl)
@[simp] theorem modDisc_mram (f : DiscState → DiscState) (s : State) : (modDisc f s).mram = s.mram := (rfl)
@[simp] theorem modDisc_mem (f : DiscState → DiscState) (s : State) : (modDisc f s).mem = s.mem := (rfl)
@[simp] theorem modDisc_bc (f : DiscState → DiscState) (s : State) : (modDisc f s).bc = s.bc := (rfl)
@[simp] theorem modDisc_host (f : DiscState → DiscState) (s : State) : (modDisc f s).host = s.host := (rfl)
@[simp] theorem modDisc_mot (f : DiscState → DiscState) (s : State) : (modDisc f s).mot = s.mot := (rfl)
@[simp] theorem modDisc_chn (f : DiscState → DiscState) (s : State) : (modDisc f s).chn = s.chn := (rfl)
@[simp] theorem modDisc_pool (f : DiscState → DiscState) (s : State) : (modDisc f s).pool = s.pool := (rfl)
@[simp] theorem modDisc_pair (f : DiscState → DiscState) (s : State) : (modDisc f s).pair = s.pair := (rfl)
@[simp] theorem modDisc_out (f : DiscState → DiscState) (s : State) : (modDisc f s).out = s.out := (rfl)
@[simp] theorem modDisc_free (f : DiscState → DiscState) (s : State) : (modDisc f s).free = s.free := (rfl)
@[simp] theorem modDisc_pending (f : DiscState → DiscState) (s : State) : (modDisc f s).pending = s.pending := (rfl)

@[simp] theorem modVol_regs (v : Nat) (f : Volume → Volume) (s : State) : (modVol v f s).regs = s.regs := (rfl)
@[simp] theorem modVol_pwr (v : Nat) (f : Volume → Volume) (s : State) : (modVol v f s).pwr = s.pwr := (rfl)
@[simp] theorem modVol_pins (v : Nat) (f : Volume → Volume) (s : State) : (modVol v f s).pins = s.pins := (rfl)
@[simp] theorem modVol_img (v : Nat) (f : Volume → Volume) (s : State) : (modVol v f s).img = s.img := (rfl)
@[simp] theorem modVol_unt (v : Nat) (f : Volume → Volume) (s : State) : (modVol v f s).unt = s.unt := (rfl)
@[simp] theorem modVol_cal (v : Nat) (f : Volume → Volume) (s : State) : (modVol v f s).cal = s.cal := (rfl)
@[simp] theorem modVol_tap (v : Nat) (f : Volume → Volume) (s : State) : (modVol v f s).tap = s.tap := (rfl)
@[simp] theorem modVol_mgt (v : Nat) (f : Volume → Volume) (s : State) : (modVol v f s).mgt = s.mgt := (rfl)
@[simp] theorem modVol_mram (v : Nat) (f : Volume → Volume) (s : State) : (modVol v f s).mram = s.mram := (rfl)
@[simp] theorem modVol_mem (v : Nat) (f : Volume → Volume) (s : State) : (modVol v f s).mem = s.mem := (rfl)
@[simp] theorem modVol_bc (v : Nat) (f : Volume → Volume) (s : State) : (modVol v f s).bc = s.bc := (rfl)
@[simp] theorem modVol_host (v : Nat) (f : Volume → Volume) (s : State) : (modVol v f s).host = s.host := (rfl)
@[simp] theorem modVol_mot (v : Nat) (f : Volume → Volume) (s : State) : (modVol v f s).mot = s.mot := (rfl)
@[simp] theorem modVol_chn (v : Nat) (f : Volume → Volume) (s : State) : (modVol v f s).chn = s.chn := (rfl)
@[simp] theorem modVol_pool (v : Nat) (f : Volume → Volume) (s : State) : (modVol v f s).pool = s.pool := (rfl)
@[simp] theorem modVol_pair (v : Nat) (f : Volume → Volume) (s : State) : (modVol v f s).pair = s.pair := (rfl)
@[simp] theorem modVol_out (v : Nat) (f : Volume → Volume) (s : State) : (modVol v f s).out = s.out := (rfl)
@[simp] theorem modVol_free (v : Nat) (f : Volume → Volume) (s : State) : (modVol v f s).free = s.free := (rfl)
@[simp] theorem modVol_pending (v : Nat) (f : Volume → Volume) (s : State) : (modVol v f s).pending = s.pending := (rfl)

@[simp] theorem modFn_regs (f : Nat) (g : FnState → FnState) (s : State) : (modFn f g s).regs = s.regs := (rfl)
@[simp] theorem modFn_pwr (f : Nat) (g : FnState → FnState) (s : State) : (modFn f g s).pwr = s.pwr := (rfl)
@[simp] theorem modFn_pins (f : Nat) (g : FnState → FnState) (s : State) : (modFn f g s).pins = s.pins := (rfl)
@[simp] theorem modFn_img (f : Nat) (g : FnState → FnState) (s : State) : (modFn f g s).img = s.img := (rfl)
@[simp] theorem modFn_unt (f : Nat) (g : FnState → FnState) (s : State) : (modFn f g s).unt = s.unt := (rfl)
@[simp] theorem modFn_cal (f : Nat) (g : FnState → FnState) (s : State) : (modFn f g s).cal = s.cal := (rfl)
@[simp] theorem modFn_tap (f : Nat) (g : FnState → FnState) (s : State) : (modFn f g s).tap = s.tap := (rfl)
@[simp] theorem modFn_mgt (f : Nat) (g : FnState → FnState) (s : State) : (modFn f g s).mgt = s.mgt := (rfl)
@[simp] theorem modFn_mram (f : Nat) (g : FnState → FnState) (s : State) : (modFn f g s).mram = s.mram := (rfl)
@[simp] theorem modFn_mem (f : Nat) (g : FnState → FnState) (s : State) : (modFn f g s).mem = s.mem := (rfl)
@[simp] theorem modFn_bc (f : Nat) (g : FnState → FnState) (s : State) : (modFn f g s).bc = s.bc := (rfl)
@[simp] theorem modFn_media (f : Nat) (g : FnState → FnState) (s : State) : (modFn f g s).media = s.media := (rfl)
@[simp] theorem modFn_mot (f : Nat) (g : FnState → FnState) (s : State) : (modFn f g s).mot = s.mot := (rfl)
@[simp] theorem modFn_chn (f : Nat) (g : FnState → FnState) (s : State) : (modFn f g s).chn = s.chn := (rfl)
@[simp] theorem modFn_pool (f : Nat) (g : FnState → FnState) (s : State) : (modFn f g s).pool = s.pool := (rfl)
@[simp] theorem modFn_pair (f : Nat) (g : FnState → FnState) (s : State) : (modFn f g s).pair = s.pair := (rfl)
@[simp] theorem modFn_out (f : Nat) (g : FnState → FnState) (s : State) : (modFn f g s).out = s.out := (rfl)
@[simp] theorem modFn_free (f : Nat) (g : FnState → FnState) (s : State) : (modFn f g s).free = s.free := (rfl)
@[simp] theorem modFn_pending (f : Nat) (g : FnState → FnState) (s : State) : (modFn f g s).pending = s.pending := (rfl)

@[simp] theorem tapLoad_regs (ir : Nat) (s : State) : (tapLoad ir s).regs = s.regs := (rfl)
@[simp] theorem tapLoad_pwr (ir : Nat) (s : State) : (tapLoad ir s).pwr = s.pwr := (rfl)
@[simp] theorem tapLoad_pins (ir : Nat) (s : State) : (tapLoad ir s).pins = s.pins := (rfl)
@[simp] theorem tapLoad_img (ir : Nat) (s : State) : (tapLoad ir s).img = s.img := (rfl)
@[simp] theorem tapLoad_unt (ir : Nat) (s : State) : (tapLoad ir s).unt = s.unt := (rfl)
@[simp] theorem tapLoad_cal (ir : Nat) (s : State) : (tapLoad ir s).cal = s.cal := (rfl)
@[simp] theorem tapLoad_mgt (ir : Nat) (s : State) : (tapLoad ir s).mgt = s.mgt := (rfl)
@[simp] theorem tapLoad_mram (ir : Nat) (s : State) : (tapLoad ir s).mram = s.mram := (rfl)
@[simp] theorem tapLoad_mem (ir : Nat) (s : State) : (tapLoad ir s).mem = s.mem := (rfl)
@[simp] theorem tapLoad_bc (ir : Nat) (s : State) : (tapLoad ir s).bc = s.bc := (rfl)
@[simp] theorem tapLoad_host (ir : Nat) (s : State) : (tapLoad ir s).host = s.host := (rfl)
@[simp] theorem tapLoad_media (ir : Nat) (s : State) : (tapLoad ir s).media = s.media := (rfl)
@[simp] theorem tapLoad_mot (ir : Nat) (s : State) : (tapLoad ir s).mot = s.mot := (rfl)
@[simp] theorem tapLoad_chn (ir : Nat) (s : State) : (tapLoad ir s).chn = s.chn := (rfl)
@[simp] theorem tapLoad_pool (ir : Nat) (s : State) : (tapLoad ir s).pool = s.pool := (rfl)
@[simp] theorem tapLoad_pair (ir : Nat) (s : State) : (tapLoad ir s).pair = s.pair := (rfl)
@[simp] theorem tapLoad_out (ir : Nat) (s : State) : (tapLoad ir s).out = s.out := (rfl)
@[simp] theorem tapLoad_free (ir : Nat) (s : State) : (tapLoad ir s).free = s.free := (rfl)
@[simp] theorem tapLoad_pending (ir : Nat) (s : State) : (tapLoad ir s).pending = s.pending := (rfl)

@[simp] theorem releaseOutputs_regs (s : State) : (releaseOutputs s).regs = s.regs := (rfl)
@[simp] theorem releaseOutputs_pwr (s : State) : (releaseOutputs s).pwr = s.pwr := (rfl)
@[simp] theorem releaseOutputs_img (s : State) : (releaseOutputs s).img = s.img := (rfl)
@[simp] theorem releaseOutputs_unt (s : State) : (releaseOutputs s).unt = s.unt := (rfl)
@[simp] theorem releaseOutputs_cal (s : State) : (releaseOutputs s).cal = s.cal := (rfl)
@[simp] theorem releaseOutputs_tap (s : State) : (releaseOutputs s).tap = s.tap := (rfl)
@[simp] theorem releaseOutputs_mgt (s : State) : (releaseOutputs s).mgt = s.mgt := (rfl)
@[simp] theorem releaseOutputs_mram (s : State) : (releaseOutputs s).mram = s.mram := (rfl)
@[simp] theorem releaseOutputs_mem (s : State) : (releaseOutputs s).mem = s.mem := (rfl)
@[simp] theorem releaseOutputs_bc (s : State) : (releaseOutputs s).bc = s.bc := (rfl)
@[simp] theorem releaseOutputs_host (s : State) : (releaseOutputs s).host = s.host := (rfl)
@[simp] theorem releaseOutputs_media (s : State) : (releaseOutputs s).media = s.media := (rfl)
@[simp] theorem releaseOutputs_mot (s : State) : (releaseOutputs s).mot = s.mot := (rfl)
@[simp] theorem releaseOutputs_chn (s : State) : (releaseOutputs s).chn = s.chn := (rfl)
@[simp] theorem releaseOutputs_pool (s : State) : (releaseOutputs s).pool = s.pool := (rfl)
@[simp] theorem releaseOutputs_pair (s : State) : (releaseOutputs s).pair = s.pair := (rfl)
@[simp] theorem releaseOutputs_out (s : State) : (releaseOutputs s).out = s.out := (rfl)
@[simp] theorem releaseOutputs_free (s : State) : (releaseOutputs s).free = s.free := (rfl)
@[simp] theorem releaseOutputs_pending (s : State) : (releaseOutputs s).pending = s.pending := (rfl)

theorem forEach_keeps {α β : Type} (P : State → β) (f : α → State → State) (h : ∀ x s, P (f x s) = P s) :
    ∀ (l : List α) (s : State), P (forEach f l s) = P s
  | [], _ => rfl
  | x :: xs, s => by rw [forEach, forEach_keeps P f h xs, h]

@[simp] theorem forEach_setReg_pwr {α : Type} (g : α → Nat) (v : α → Word) (l : List α) (s : State) :
    (forEach (fun k s => setReg (g k) (v k) s) l s).pwr = s.pwr := forEach_keeps State.pwr (fun k s => setReg (g k) (v k) s) (fun _ _ => rfl) l s
@[simp] theorem forEach_setReg_pins {α : Type} (g : α → Nat) (v : α → Word) (l : List α) (s : State) :
    (forEach (fun k s => setReg (g k) (v k) s) l s).pins = s.pins := forEach_keeps State.pins (fun k s => setReg (g k) (v k) s) (fun _ _ => rfl) l s
@[simp] theorem forEach_setReg_img {α : Type} (g : α → Nat) (v : α → Word) (l : List α) (s : State) :
    (forEach (fun k s => setReg (g k) (v k) s) l s).img = s.img := forEach_keeps State.img (fun k s => setReg (g k) (v k) s) (fun _ _ => rfl) l s
@[simp] theorem forEach_setReg_unt {α : Type} (g : α → Nat) (v : α → Word) (l : List α) (s : State) :
    (forEach (fun k s => setReg (g k) (v k) s) l s).unt = s.unt := forEach_keeps State.unt (fun k s => setReg (g k) (v k) s) (fun _ _ => rfl) l s
@[simp] theorem forEach_setReg_cal {α : Type} (g : α → Nat) (v : α → Word) (l : List α) (s : State) :
    (forEach (fun k s => setReg (g k) (v k) s) l s).cal = s.cal := forEach_keeps State.cal (fun k s => setReg (g k) (v k) s) (fun _ _ => rfl) l s
@[simp] theorem forEach_setReg_tap {α : Type} (g : α → Nat) (v : α → Word) (l : List α) (s : State) :
    (forEach (fun k s => setReg (g k) (v k) s) l s).tap = s.tap := forEach_keeps State.tap (fun k s => setReg (g k) (v k) s) (fun _ _ => rfl) l s
@[simp] theorem forEach_setReg_mgt {α : Type} (g : α → Nat) (v : α → Word) (l : List α) (s : State) :
    (forEach (fun k s => setReg (g k) (v k) s) l s).mgt = s.mgt := forEach_keeps State.mgt (fun k s => setReg (g k) (v k) s) (fun _ _ => rfl) l s
@[simp] theorem forEach_setReg_mram {α : Type} (g : α → Nat) (v : α → Word) (l : List α) (s : State) :
    (forEach (fun k s => setReg (g k) (v k) s) l s).mram = s.mram := forEach_keeps State.mram (fun k s => setReg (g k) (v k) s) (fun _ _ => rfl) l s
@[simp] theorem forEach_setReg_mem {α : Type} (g : α → Nat) (v : α → Word) (l : List α) (s : State) :
    (forEach (fun k s => setReg (g k) (v k) s) l s).mem = s.mem := forEach_keeps State.mem (fun k s => setReg (g k) (v k) s) (fun _ _ => rfl) l s
@[simp] theorem forEach_setReg_bc {α : Type} (g : α → Nat) (v : α → Word) (l : List α) (s : State) :
    (forEach (fun k s => setReg (g k) (v k) s) l s).bc = s.bc := forEach_keeps State.bc (fun k s => setReg (g k) (v k) s) (fun _ _ => rfl) l s
@[simp] theorem forEach_setReg_host {α : Type} (g : α → Nat) (v : α → Word) (l : List α) (s : State) :
    (forEach (fun k s => setReg (g k) (v k) s) l s).host = s.host := forEach_keeps State.host (fun k s => setReg (g k) (v k) s) (fun _ _ => rfl) l s
@[simp] theorem forEach_setReg_media {α : Type} (g : α → Nat) (v : α → Word) (l : List α) (s : State) :
    (forEach (fun k s => setReg (g k) (v k) s) l s).media = s.media := forEach_keeps State.media (fun k s => setReg (g k) (v k) s) (fun _ _ => rfl) l s
@[simp] theorem forEach_setReg_mot {α : Type} (g : α → Nat) (v : α → Word) (l : List α) (s : State) :
    (forEach (fun k s => setReg (g k) (v k) s) l s).mot = s.mot := forEach_keeps State.mot (fun k s => setReg (g k) (v k) s) (fun _ _ => rfl) l s
@[simp] theorem forEach_setReg_chn {α : Type} (g : α → Nat) (v : α → Word) (l : List α) (s : State) :
    (forEach (fun k s => setReg (g k) (v k) s) l s).chn = s.chn := forEach_keeps State.chn (fun k s => setReg (g k) (v k) s) (fun _ _ => rfl) l s
@[simp] theorem forEach_setReg_pool {α : Type} (g : α → Nat) (v : α → Word) (l : List α) (s : State) :
    (forEach (fun k s => setReg (g k) (v k) s) l s).pool = s.pool := forEach_keeps State.pool (fun k s => setReg (g k) (v k) s) (fun _ _ => rfl) l s
@[simp] theorem forEach_setReg_pair {α : Type} (g : α → Nat) (v : α → Word) (l : List α) (s : State) :
    (forEach (fun k s => setReg (g k) (v k) s) l s).pair = s.pair := forEach_keeps State.pair (fun k s => setReg (g k) (v k) s) (fun _ _ => rfl) l s
@[simp] theorem forEach_setReg_out {α : Type} (g : α → Nat) (v : α → Word) (l : List α) (s : State) :
    (forEach (fun k s => setReg (g k) (v k) s) l s).out = s.out := forEach_keeps State.out (fun k s => setReg (g k) (v k) s) (fun _ _ => rfl) l s
@[simp] theorem forEach_setReg_free {α : Type} (g : α → Nat) (v : α → Word) (l : List α) (s : State) :
    (forEach (fun k s => setReg (g k) (v k) s) l s).free = s.free := forEach_keeps State.free (fun k s => setReg (g k) (v k) s) (fun _ _ => rfl) l s
@[simp] theorem forEach_setReg_pending {α : Type} (g : α → Nat) (v : α → Word) (l : List α) (s : State) :
    (forEach (fun k s => setReg (g k) (v k) s) l s).pending = s.pending := forEach_keeps State.pending (fun k s => setReg (g k) (v k) s) (fun _ _ => rfl) l s

@[simp] theorem modImg_img (f : ImgState → ImgState) (s : State) : (modImg f s).img = f s.img := (rfl)
@[simp] theorem modBc_bc (f : CacheState → CacheState) (s : State) : (modBc f s).bc = f s.bc := (rfl)
@[simp] theorem modPair_pair (f : PairState → PairState) (s : State) : (modPair f s).pair = f s.pair := (rfl)
@[simp] theorem modMem_mem (f : MemState → MemState) (s : State) : (modMem f s).mem = f s.mem := (rfl)
@[simp] theorem modMgt_mgt (f : MgmtState → MgmtState) (s : State) : (modMgt f s).mgt = f s.mgt := (rfl)
@[simp] theorem modPwr_pwr (f : PowerState → PowerState) (s : State) : (modPwr f s).pwr = f s.pwr := (rfl)
@[simp] theorem modSpn_spn (f : SpnState → SpnState) (s : State) : (modSpn f s).mot.spn = f s.mot.spn := (rfl)
@[simp] theorem emit_out (o : Output) (s : State) : (emit o s).out = s.out ++ [o] := (rfl)
@[simp] theorem useFree_free (s : State) : (useFree s).free = s.free + 1 := (rfl)

@[simp] theorem getReg_modImg (f : ImgState → ImgState) (s : State) (off : Nat) : getReg (modImg f s) off = getReg s off := (rfl)
@[simp] theorem getReg_modBc (f : CacheState → CacheState) (s : State) (off : Nat) : getReg (modBc f s) off = getReg s off := (rfl)
@[simp] theorem getReg_modPair (f : PairState → PairState) (s : State) (off : Nat) : getReg (modPair f s) off = getReg s off := (rfl)
@[simp] theorem getReg_modMem (f : MemState → MemState) (s : State) (off : Nat) : getReg (modMem f s) off = getReg s off := (rfl)
@[simp] theorem getReg_modMgt (f : MgmtState → MgmtState) (s : State) (off : Nat) : getReg (modMgt f s) off = getReg s off := (rfl)
@[simp] theorem getReg_modPwr (f : PowerState → PowerState) (s : State) (off : Nat) : getReg (modPwr f s) off = getReg s off := (rfl)
@[simp] theorem getReg_modSpn (f : SpnState → SpnState) (s : State) (off : Nat) : getReg (modSpn f s) off = getReg s off := (rfl)
@[simp] theorem getReg_modCar (c : Nat) (f : CarMotion → CarMotion) (s : State) (off : Nat) : getReg (modCar c f s) off = getReg s off := (rfl)
@[simp] theorem getReg_modSlot (k : Nat) (f : LoopSlot → LoopSlot) (s : State) (off : Nat) : getReg (modSlot k f s) off = getReg s off := (rfl)
@[simp] theorem getReg_modCam (t : Nat) (f : CamSt → CamSt) (s : State) (off : Nat) : getReg (modCam t f s) off = getReg s off := (rfl)
@[simp] theorem getReg_modStrand (g : Nat) (f : StrandSt → StrandSt) (s : State) (off : Nat) : getReg (modStrand g f s) off = getReg s off := (rfl)
@[simp] theorem getReg_modWcar (c : Nat) (f : WriteCar → WriteCar) (s : State) (off : Nat) : getReg (modWcar c f s) off = getReg s off := (rfl)
@[simp] theorem getReg_modHeng (n : Nat) (f : HankEng → HankEng) (s : State) (off : Nat) : getReg (modHeng n f s) off = getReg s off := (rfl)
@[simp] theorem getReg_modDisc (f : DiscState → DiscState) (s : State) (off : Nat) : getReg (modDisc f s) off = getReg s off := (rfl)
@[simp] theorem getReg_modVol (v : Nat) (f : Volume → Volume) (s : State) (off : Nat) : getReg (modVol v f s) off = getReg s off := (rfl)
@[simp] theorem getReg_modFn (f : Nat) (g : FnState → FnState) (s : State) (off : Nat) : getReg (modFn f g s) off = getReg s off := (rfl)
@[simp] theorem getReg_tapLoad (ir : Nat) (s : State) (off : Nat) : getReg (tapLoad ir s) off = getReg s off := (rfl)
@[simp] theorem getReg_releaseOutputs  (s : State) (off : Nat) : getReg (releaseOutputs s) off = getReg s off := (rfl)

/-! ### The end of a command -/

/-- What outputStage leaves: everything but the output levels. -/
theorem outputStage_eq (s : State) : ∃ p, outputStage s = { s with pins := p } := by
  unfold outputStage
  split
  · exact ⟨_, rfl⟩
  · split
    · exact ⟨_, rfl⟩
    · exact ⟨s.pins, rfl⟩

@[simp] theorem finish_regs (s t : State) : (finish s t).regs = t.regs := by
  obtain ⟨p, h⟩ := outputStage_eq { t with pending := s.pending, img := { t.img with fuses := holdFuses s.img.fuses t.img.fuses } }
  simp [finish, h]

@[simp] theorem finish_pwr (s t : State) : (finish s t).pwr = t.pwr := by
  obtain ⟨p, h⟩ := outputStage_eq { t with pending := s.pending, img := { t.img with fuses := holdFuses s.img.fuses t.img.fuses } }
  simp [finish, h]

@[simp] theorem finish_unt (s t : State) : (finish s t).unt = t.unt := by
  obtain ⟨p, h⟩ := outputStage_eq { t with pending := s.pending, img := { t.img with fuses := holdFuses s.img.fuses t.img.fuses } }
  simp [finish, h]

@[simp] theorem finish_cal (s t : State) : (finish s t).cal = t.cal := by
  obtain ⟨p, h⟩ := outputStage_eq { t with pending := s.pending, img := { t.img with fuses := holdFuses s.img.fuses t.img.fuses } }
  simp [finish, h]

@[simp] theorem finish_tap (s t : State) : (finish s t).tap = t.tap := by
  obtain ⟨p, h⟩ := outputStage_eq { t with pending := s.pending, img := { t.img with fuses := holdFuses s.img.fuses t.img.fuses } }
  simp [finish, h]

@[simp] theorem finish_mgt (s t : State) : (finish s t).mgt = t.mgt := by
  obtain ⟨p, h⟩ := outputStage_eq { t with pending := s.pending, img := { t.img with fuses := holdFuses s.img.fuses t.img.fuses } }
  simp [finish, h]

@[simp] theorem finish_mram (s t : State) : (finish s t).mram = t.mram := by
  obtain ⟨p, h⟩ := outputStage_eq { t with pending := s.pending, img := { t.img with fuses := holdFuses s.img.fuses t.img.fuses } }
  simp [finish, h]

@[simp] theorem finish_mem (s t : State) : (finish s t).mem = t.mem := by
  obtain ⟨p, h⟩ := outputStage_eq { t with pending := s.pending, img := { t.img with fuses := holdFuses s.img.fuses t.img.fuses } }
  simp [finish, h]

@[simp] theorem finish_bc (s t : State) : (finish s t).bc = t.bc := by
  obtain ⟨p, h⟩ := outputStage_eq { t with pending := s.pending, img := { t.img with fuses := holdFuses s.img.fuses t.img.fuses } }
  simp [finish, h]

@[simp] theorem finish_host (s t : State) : (finish s t).host = t.host := by
  obtain ⟨p, h⟩ := outputStage_eq { t with pending := s.pending, img := { t.img with fuses := holdFuses s.img.fuses t.img.fuses } }
  simp [finish, h]

@[simp] theorem finish_media (s t : State) : (finish s t).media = t.media := by
  obtain ⟨p, h⟩ := outputStage_eq { t with pending := s.pending, img := { t.img with fuses := holdFuses s.img.fuses t.img.fuses } }
  simp [finish, h]

@[simp] theorem finish_mot (s t : State) : (finish s t).mot = t.mot := by
  obtain ⟨p, h⟩ := outputStage_eq { t with pending := s.pending, img := { t.img with fuses := holdFuses s.img.fuses t.img.fuses } }
  simp [finish, h]

@[simp] theorem finish_chn (s t : State) : (finish s t).chn = t.chn := by
  obtain ⟨p, h⟩ := outputStage_eq { t with pending := s.pending, img := { t.img with fuses := holdFuses s.img.fuses t.img.fuses } }
  simp [finish, h]

@[simp] theorem finish_pool (s t : State) : (finish s t).pool = t.pool := by
  obtain ⟨p, h⟩ := outputStage_eq { t with pending := s.pending, img := { t.img with fuses := holdFuses s.img.fuses t.img.fuses } }
  simp [finish, h]

@[simp] theorem finish_pair (s t : State) : (finish s t).pair = t.pair := by
  obtain ⟨p, h⟩ := outputStage_eq { t with pending := s.pending, img := { t.img with fuses := holdFuses s.img.fuses t.img.fuses } }
  simp [finish, h]

@[simp] theorem finish_out (s t : State) : (finish s t).out = t.out := by
  obtain ⟨p, h⟩ := outputStage_eq { t with pending := s.pending, img := { t.img with fuses := holdFuses s.img.fuses t.img.fuses } }
  simp [finish, h]

@[simp] theorem finish_free (s t : State) : (finish s t).free = t.free := by
  obtain ⟨p, h⟩ := outputStage_eq { t with pending := s.pending, img := { t.img with fuses := holdFuses s.img.fuses t.img.fuses } }
  simp [finish, h]

@[simp] theorem finish_pending (s t : State) : (finish s t).pending = s.pending := by
  obtain ⟨p, h⟩ := outputStage_eq { t with pending := s.pending, img := { t.img with fuses := holdFuses s.img.fuses t.img.fuses } }
  simp [finish, h]

@[simp] theorem finish_img (s t : State) : (finish s t).img = { t.img with fuses := holdFuses s.img.fuses t.img.fuses } := by
  obtain ⟨p, h⟩ := outputStage_eq { t with pending := s.pending, img := { t.img with fuses := holdFuses s.img.fuses t.img.fuses } }
  simp [finish, h]

@[simp] theorem getReg_finish (s t : State) (off : Nat) : getReg (finish s t) off = getReg t off := by simp [getReg]
@[simp] theorem getF_finish (s t : State) (f : Fld) : getF (finish s t) f = getF t f := by simp [getF]
@[simp] theorem flag_finish (s t : State) (f : Fld) : flag (finish s t) f = flag t f := by simp [flag]
@[simp] theorem get64_finish (s t : State) (lo : Nat) : get64 (finish s t) lo = get64 t lo := by simp [get64]
@[simp] theorem stage_finish (s t : State) : stage (finish s t) = stage t := by simp [stage]
@[simp] theorem halted_finish (s t : State) : halted (finish s t) = halted t := by simp [halted]
@[simp] theorem holding_finish (s t : State) : holding (finish s t) = holding t := by simp [holding]

/-- Outputs that R462 holds off are released at the end of a command. -/
theorem finish_pins_off (s t : State) (h : outputsOff t = true) : (finish s t).pins = (releaseOutputs t).pins := by
  have : outputsOff { t with pending := s.pending, img := { t.img with fuses := holdFuses s.img.fuses t.img.fuses } } = outputsOff t := rfl
  simp only [finish, outputStage, this, h, if_true]
  rfl

@[simp] theorem holdFuses_self (f : Fuses) : holdFuses f f = f := by simp [holdFuses]

end Sys2Proof.Machine
end

