-- ==== Sys2Proof/Laws/Tbl.lean ====
section
/-! SUPPORT. Laws of the sparse tables: a read after a write, and the canonical form that every write keeps. -/

namespace Sys2Proof.Machine

variable {α : Type}

theorem Tbl.get_nil (d : α) (k : Nat) : Tbl.get d k [] = d := rfl

theorem Tbl.get_ins_same (d v : α) (k : Nat) (m : Tbl α) : Tbl.get d k (Tbl.ins k v m) = v := by
  induction m with
  | nil => simp [Tbl.ins, Tbl.get]
  | cons e m ih =>
    obtain ⟨j, w⟩ := e
    by_cases h : j = k
    · simp [Tbl.ins, Tbl.get, h]
    · by_cases h' : k < j
      · simp [Tbl.ins, Tbl.get, h, h']
      · simp [Tbl.ins, Tbl.get, h, h', ih]

theorem Tbl.get_ins_ne (d v : α) {k k' : Nat} (hk : k ≠ k') (m : Tbl α) :
    Tbl.get d k' (Tbl.ins k v m) = Tbl.get d k' m := by
  induction m with
  | nil => simp [Tbl.ins, Tbl.get, hk]
  | cons e m ih =>
    obtain ⟨j, w⟩ := e
    by_cases h : j = k
    · subst h; simp [Tbl.ins, Tbl.get, hk]
    · by_cases h' : k < j
      · simp [Tbl.ins, Tbl.get, h, h', hk]
      · simp [Tbl.ins, Tbl.get, h, h', ih]

theorem Tbl.get_erase_same (d : α) (k : Nat) (m : Tbl α) : Tbl.get d k (Tbl.erase k m) = d := by
  induction m with
  | nil => rfl
  | cons e m ih =>
    obtain ⟨j, w⟩ := e
    by_cases h : j = k
    · simpa [Tbl.erase, h] using ih
    · simpa [Tbl.erase, Tbl.get, h] using ih

theorem Tbl.get_erase_ne (d : α) {k k' : Nat} (hk : k ≠ k') (m : Tbl α) :
    Tbl.get d k' (Tbl.erase k m) = Tbl.get d k' m := by
  induction m with
  | nil => rfl
  | cons e m ih =>
    obtain ⟨j, w⟩ := e
    by_cases h : j = k
    · subst h; simpa [Tbl.erase, Tbl.get, hk] using ih
    · simp [Tbl.erase, Tbl.get, h] at ih ⊢
      simp [ih]

/-- A read of the key just written. -/
@[simp] theorem Tbl.get_put_same [DecidableEq α] (d v : α) (k : Nat) (m : Tbl α) : Tbl.get d k (Tbl.put d k v m) = v := by
  by_cases h : v = d
  · simp [Tbl.put, h, Tbl.get_erase_same]
  · simp [Tbl.put, h, Tbl.get_ins_same]

/-- A read of another key. -/
theorem Tbl.get_put_ne [DecidableEq α] (d d' v : α) {k k' : Nat} (hk : k ≠ k') (m : Tbl α) :
    Tbl.get d' k' (Tbl.put d k v m) = Tbl.get d' k' m := by
  by_cases h : v = d
  · simp [Tbl.put, h, Tbl.get_erase_ne d' hk]
  · simp [Tbl.put, h, Tbl.get_ins_ne d' v hk]

theorem Tbl.above_iff (b : Nat) (m : Tbl α) : Tbl.above b m = true ↔ (∀ e ∈ m, b < e.1) ∧ Tbl.sorted m = true := by
  induction m generalizing b with
  | nil => simp [Tbl.above, Tbl.sorted]
  | cons e m ih =>
    obtain ⟨k, w⟩ := e
    simp only [Tbl.above, Tbl.sorted, Bool.and_eq_true, decide_eq_true_eq, List.mem_cons, forall_eq_or_imp]
    constructor
    · rintro ⟨h, h'⟩
      exact ⟨⟨h, fun e he => Nat.lt_trans h (((ih k).1 h').1 e he)⟩, h'⟩
    · rintro ⟨⟨h, _⟩, h'⟩
      exact ⟨h, h'⟩

theorem Tbl.mem_ins {k : Nat} {v : α} {m : Tbl α} {e : Nat × α} (h : e ∈ Tbl.ins k v m) : e = (k, v) ∨ e ∈ m := by
  induction m with
  | nil => simpa [Tbl.ins] using h
  | cons a m ih =>
    obtain ⟨j, w⟩ := a
    by_cases h1 : j = k
    · simp only [Tbl.ins, h1, if_true, List.mem_cons] at h
      rcases h with h | h
      · exact .inl h
      · exact .inr (List.mem_cons_of_mem _ h)
    · by_cases h2 : k < j
      · simp only [Tbl.ins, h1, h2, if_true, if_false, List.mem_cons] at h
        rcases h with h | h | h
        · exact .inl h
        · exact .inr (by simp [h])
        · exact .inr (List.mem_cons_of_mem _ h)
      · simp only [Tbl.ins, h1, h2, if_false, List.mem_cons] at h
        rcases h with h | h
        · exact .inr (by simp [h])
        · rcases ih h with h | h
          · exact .inl h
          · exact .inr (List.mem_cons_of_mem _ h)

theorem Tbl.sorted_ins (k : Nat) (v : α) (m : Tbl α) (h : Tbl.sorted m = true) : Tbl.sorted (Tbl.ins k v m) = true := by
  induction m with
  | nil => rfl
  | cons a m ih =>
    obtain ⟨j, w⟩ := a
    have hj := (Tbl.above_iff j m).1 h
    by_cases h1 : j = k
    · subst h1; simpa [Tbl.ins, Tbl.sorted] using h
    · by_cases h2 : k < j
      · simp only [Tbl.ins, h1, h2, if_true, if_false, Tbl.sorted, Tbl.above, decide_true, Bool.true_and]
        exact h
      · simp only [Tbl.ins, h1, h2, if_false, Tbl.sorted]
        refine (Tbl.above_iff j _).2 ⟨fun e he => ?_, ih hj.2⟩
        rcases Tbl.mem_ins he with rfl | he
        · simp only; omega
        · exact hj.1 e he

theorem Tbl.sorted_erase (k : Nat) (m : Tbl α) (h : Tbl.sorted m = true) : Tbl.sorted (Tbl.erase k m) = true := by
  induction m with
  | nil => rfl
  | cons a m ih =>
    obtain ⟨j, w⟩ := a
    have hj := (Tbl.above_iff j m).1 h
    by_cases h1 : j = k
    · simpa [Tbl.erase, h1] using ih hj.2
    · have : Tbl.erase k ((j, w) :: m) = (j, w) :: Tbl.erase k m := by simp [Tbl.erase, h1]
      rw [this]
      refine (Tbl.above_iff j _).2 ⟨fun e he => hj.1 e ?_, ih hj.2⟩
      exact (List.mem_filter.1 he).1

/-- Every write keeps the canonical form of a table whose unlisted keys read as d. -/
theorem Tbl.wf_put [DecidableEq α] (d : Nat → α) (k : Nat) (v : α) (m : Tbl α) (h : Tbl.wf d m = true) :
    Tbl.wf d (Tbl.put (d k) k v m) = true := by
  simp only [Tbl.wf, Bool.and_eq_true, List.all_eq_true, decide_eq_true_eq] at h ⊢
  by_cases hv : v = d k
  · simp only [Tbl.put, hv, if_true]
    exact ⟨Tbl.sorted_erase k m h.1, fun e he => h.2 e (List.mem_filter.1 he).1⟩
  · simp only [Tbl.put, hv, if_false]
    refine ⟨Tbl.sorted_ins k v m h.1, fun e he => ?_⟩
    rcases Tbl.mem_ins he with rfl | he
    · exact hv
    · exact h.2 e he

/-- Leaving entries out keeps the canonical form. -/
theorem Tbl.wf_filter [DecidableEq α] (d : Nat → α) (p : Nat × α → Bool) (m : Tbl α) (h : Tbl.wf d m = true) :
    Tbl.wf d (m.filter p) = true := by
  simp only [Tbl.wf, Bool.and_eq_true, List.all_eq_true, decide_eq_true_eq] at h ⊢
  refine ⟨?_, fun e he => h.2 e (List.mem_filter.1 he).1⟩
  have hs := h.1
  clear h
  induction m with
  | nil => rfl
  | cons a m ih =>
    obtain ⟨j, w⟩ := a
    have hj := (Tbl.above_iff j m).1 hs
    by_cases hp : p (j, w) = true
    · rw [List.filter_cons_of_pos hp]
      exact (Tbl.above_iff j _).2 ⟨fun e he => hj.1 e (List.mem_filter.1 he).1, ih hj.2⟩
    · rw [List.filter_cons_of_neg hp]
      exact ih hj.2

end Sys2Proof.Machine
end

