-- ==== Sys2Proof/Laws/Regs.lean ====
section
/-! SUPPORT. Laws of the register file: reading a register or a field after a write of it or of another. -/

namespace Sys2Proof.Machine

@[simp] theorem getReg_setReg_same (off : Nat) (v : Word) (s : State) : getReg (setReg off v s) off = v := by
  simp [getReg, setReg]

theorem getReg_setReg_ne {off off' : Nat} (h : off ≠ off') (v : Word) (s : State) :
    getReg (setReg off v s) off' = getReg s off' := by
  simp [getReg, setReg, Tbl.get_put_ne _ _ _ h]

theorem getReg_setReg (off off' : Nat) (v : Word) (s : State) :
    getReg (setReg off v s) off' = if off = off' then v else getReg s off' := by
  by_cases h : off = off'
  · subst h; simp
  · simp [h, getReg_setReg_ne h]

/-- Two states with the same registers. -/
theorem getReg_congr {s t : State} (h : t.regs = s.regs) (off : Nat) : getReg t off = getReg s off := by simp [getReg, h]

theorem testBit_bits (x lo n i : Nat) : (bits x lo n).testBit i = (decide (i < n) && x.testBit (lo + i)) := by
  simp [bits, Nat.testBit_mod_two_pow, Nat.testBit_shiftRight]

theorem testBit_wordPut (w : Word) (hi lo v j : Nat) (hj : j < 32) :
    (wordPut w hi lo v).toNat.testBit j =
      if lo ≤ j ∧ j ≤ hi then v.testBit (j - lo) else w.toNat.testBit j := by
  have e : ∀ x : Word, x.toNat.testBit j = x.getLsbD j := fun x => rfl
  simp only [e, wordPut, BitVec.getLsbD_or, BitVec.getLsbD_and, BitVec.getLsbD_not, BitVec.getLsbD_ofNat, hj,
    decide_true, Bool.true_and, Nat.testBit_shiftLeft, Nat.testBit_two_pow_sub_one, Nat.testBit_mod_two_pow]
  by_cases h1 : lo ≤ j
  · by_cases h2 : j ≤ hi
    · have : j - lo < hi + 1 - lo := by omega
      simp [h1, h2, this]
    · have : ¬ (j - lo < hi + 1 - lo) := by omega
      simp [h1, h2, this]
  · simp [h1]

/-- The field just written. -/
theorem wordBits_wordPut (w : Word) (hi lo v : Nat) (h : lo ≤ hi) (h32 : hi < 32) :
    wordBits (wordPut w hi lo v) hi lo = v % 2 ^ (hi + 1 - lo) := by
  apply Nat.eq_of_testBit_eq
  intro i
  simp only [wordBits, testBit_bits, Nat.testBit_mod_two_pow]
  by_cases hi' : i < hi + 1 - lo
  · rw [testBit_wordPut _ _ _ _ _ (by omega)]
    have : lo ≤ lo + i ∧ lo + i ≤ hi := by omega
    simp [hi', this]
  · simp [hi']

/-- A field that does not overlap the one written. -/
theorem wordBits_wordPut_ne (w : Word) (hi lo v hi' lo' : Nat) (h : hi' < lo ∨ hi < lo') (h32 : hi' < 32) :
    wordBits (wordPut w hi lo v) hi' lo' = wordBits w hi' lo' := by
  apply Nat.eq_of_testBit_eq
  intro i
  simp only [wordBits, testBit_bits]
  by_cases hlt : i < hi' + 1 - lo'
  · rw [testBit_wordPut _ _ _ _ _ (by omega)]
    have : ¬ (lo ≤ lo' + i ∧ lo' + i ≤ hi) := by omega
    simp [hlt, this]
  · simp [hlt]

theorem getF_setF_same (f : Fld) (v : Nat) (s : State) (h : f.lo ≤ f.hi) (h32 : f.hi < 32) :
    getF (setF f v s) f = v % 2 ^ (f.hi + 1 - f.lo) := by
  simp [getF, setF, wordBits_wordPut _ _ _ _ h h32]

theorem flag_setFlag_same (f : Fld) (b : Bool) (s : State) (h : f.lo = f.hi) (h32 : f.hi < 32) :
    flag (setFlag f b s) f = b := by
  have h2 : 2 ^ (f.hi + 1 - f.lo) = 2 := by rw [h]; simp
  simp only [flag, setFlag, getF_setF_same f _ s (Nat.le_of_eq h) h32, h2]
  cases b <;> simp

theorem getF_setF_ne (f g : Fld) (v : Nat) (s : State) (h32 : g.hi < 32)
    (h : f.off ≠ g.off ∨ g.hi < f.lo ∨ f.hi < g.lo) : getF (setF f v s) g = getF s g := by
  by_cases ho : f.off = g.off
  · have : g.hi < f.lo ∨ f.hi < g.lo := by tauto
    simp [getF, setF, ho, wordBits_wordPut_ne _ _ _ _ _ _ this h32]
  · simp [getF, setF, getReg_setReg_ne ho]

theorem getReg_setF_ne {f : Fld} {off : Nat} (h : f.off ≠ off) (v : Nat) (s : State) :
    getReg (setF f v s) off = getReg s off := getReg_setReg_ne h _ _

theorem getReg_setFlag_ne {f : Fld} {off : Nat} (h : f.off ≠ off) (b : Bool) (s : State) :
    getReg (setFlag f b s) off = getReg s off := getReg_setReg_ne h _ _

theorem getReg_bumpBy_ne {o off : Nat} (h : o ≠ off) (n : Nat) (s : State) : getReg (bumpBy o n s) off = getReg s off :=
  getReg_setReg_ne h _ _

theorem getReg_bump_ne {o off : Nat} (i : Nat) (h : o + 4 * i ≠ off) (s : State) :
    getReg (bump o i s) off = getReg s off := getReg_setReg_ne h _ _

@[simp] theorem getReg_emit (o : Output) (s : State) (off : Nat) : getReg (emit o s) off = getReg s off := (rfl)
@[simp] theorem getReg_useFree (s : State) (off : Nat) : getReg (useFree s) off = getReg s off := (rfl)
@[simp] theorem getF_emit (o : Output) (s : State) (f : Fld) : getF (emit o s) f = getF s f := (rfl)
@[simp] theorem getF_useFree (s : State) (f : Fld) : getF (useFree s) f = getF s f := (rfl)

theorem Tbl.get_filter {α : Type} (d : α) (p : Nat → Bool) (k : Nat) (m : Tbl α) :
    Tbl.get d k (m.filter (fun e => p e.1)) = if p k then Tbl.get d k m else d := by
  induction m with
  | nil => simp [Tbl.get]
  | cons e m ih =>
    obtain ⟨j, w⟩ := e
    by_cases hp : p j = true
    · by_cases h : j = k
      · subst h; simp [Tbl.get, hp]
      · simp [Tbl.get, hp, h, ih]
    · by_cases h : j = k
      · subst h; simpa [hp] using ih
      · simp [Tbl.get, hp, h, ih]

/-- What a reset keeps of the registers. -/
theorem getReg_keep (keep : Nat → Bool) (s t : State) (off : Nat) (h : t.regs = s.regs.filter (fun e => keep e.1)) :
    getReg t off = if keep off then getReg s off else resetValue off := by
  simp only [getReg, h, Tbl.get_filter]

end Sys2Proof.Machine
end

