-- ==== Sys2Proof/Laws/Events.lean ====
section
/-! SUPPORT. What raising an event can change: the EVT bit, the registers of the event log and its counts, the logs, the
pending bit of the log's vector, and outputs. Everything else is as before. -/

namespace Sys2Proof.Machine

/-- The state without what an event may change. -/
def quiet (s : State) : State :=
  { s with
    regs := []
    out := []
    mgt := { s.mgt with log := [], early := [], logArmed := false }
    host := { s.host with msix := [] } }

/-- The registers that writing an event may change, beside the EVT register. -/
def logRegs : List Nat :=
  [Reg.MGT_LOG_WR_LO, Reg.MGT_LOG_WR_LO + 4, Reg.MGT_CNT + 20, Reg.MGT_CNT + 24, Reg.MGT_EVT, Reg.HQ_CNT + 24]

@[simp] theorem quiet_setReg (off : Nat) (v : Word) (s : State) : quiet (setReg off v s) = quiet s := rfl
@[simp] theorem quiet_setF (f : Fld) (v : Nat) (s : State) : quiet (setF f v s) = quiet s := rfl
@[simp] theorem quiet_set64 (lo v : Nat) (s : State) : quiet (set64 lo v s) = quiet s := rfl
@[simp] theorem quiet_bump (off i : Nat) (s : State) : quiet (bump off i s) = quiet s := rfl
@[simp] theorem quiet_emit (o : Output) (s : State) : quiet (emit o s) = quiet s := rfl

theorem quiet_logSignal (s : State) : quiet (logSignal s) = quiet s := by
  unfold logSignal
  split
  · dsimp only
    split
    · rfl
    · split <;> rfl
  · rfl

theorem quiet_writeEntry (b c u e : Nat) (cont : Bool) (d : List Byte) (s : State) :
    quiet (writeEntry b c u e cont d s) = quiet s := by
  unfold writeEntry
  dsimp only
  rw [quiet_logSignal]
  rw [forEach_keeps quiet _ (by intro x s; split <;> rfl)]
  have h1 : ∀ (k : List EventEntry) (s : State), quiet { s with mgt := { s.mgt with early := k } } = quiet s := fun _ _ => rfl
  have h2 : ∀ (k : List EventEntry) (s : State), quiet { s with mgt := { s.mgt with log := k } } = quiet s := fun _ _ => rfl
  split <;> split <;> split <;> simp only [quiet_bump, quiet_set64, h1, h2]

theorem quiet_writeDetails (b c u e : Nat) : ∀ (ds : List (List Byte)) (cont : Bool) (s : State),
    quiet (writeDetails b c u e cont ds s) = quiet s
  | [], _, _ => rfl
  | d :: ds, cont, s => by rw [writeDetails, quiet_writeDetails b c u e ds, quiet_writeEntry]

theorem quiet_rawEvent (b c u : Nat) (is : List Item) (s : State) : quiet (rawEvent b c u is s) = quiet s := by
  unfold rawEvent
  dsimp only
  split <;> simp [quiet_writeDetails]

theorem quiet_event (b c u : Nat) (is : List Item) (s : State) : quiet (event b c u is s) = quiet s := by
  unfold event
  dsimp only
  split
  · split <;> simp [quiet_rawEvent]
  · exact quiet_rawEvent b c u is s

/-- An event leaves everything but what quiet leaves out. -/
theorem quiet_evtAt (f : Fld) (d u : Nat) (is : List Item) (s : State) : quiet (evtAt f d u is s) = quiet s := by
  unfold evtAt
  dsimp only
  split
  · rfl
  · split
    · rw [quiet_event]; rfl
    · rfl

theorem quiet_evt (f : Fld) (u : Nat) (is : List Item) (s : State) : quiet (evt f u is s) = quiet s := quiet_evtAt f 0 u is s

/-! ### The fields of State that an event leaves alone -/

section
variable (f : Fld) (u : Nat) (is : List Item) (s : State)
@[simp] theorem evt_pwr : (evt f u is s).pwr = s.pwr := by have := congrArg State.pwr (quiet_evt f u is s); simpa [quiet] using this
@[simp] theorem evt_pins : (evt f u is s).pins = s.pins := by have := congrArg State.pins (quiet_evt f u is s); simpa [quiet] using this
@[simp] theorem evt_img : (evt f u is s).img = s.img := by have := congrArg State.img (quiet_evt f u is s); simpa [quiet] using this
@[simp] theorem evt_unt : (evt f u is s).unt = s.unt := by have := congrArg State.unt (quiet_evt f u is s); simpa [quiet] using this
@[simp] theorem evt_cal : (evt f u is s).cal = s.cal := by have := congrArg State.cal (quiet_evt f u is s); simpa [quiet] using this
@[simp] theorem evt_tap : (evt f u is s).tap = s.tap := by have := congrArg State.tap (quiet_evt f u is s); simpa [quiet] using this
@[simp] theorem evt_mram : (evt f u is s).mram = s.mram := by have := congrArg State.mram (quiet_evt f u is s); simpa [quiet] using this
@[simp] theorem evt_mem : (evt f u is s).mem = s.mem := by have := congrArg State.mem (quiet_evt f u is s); simpa [quiet] using this
@[simp] theorem evt_bc : (evt f u is s).bc = s.bc := by have := congrArg State.bc (quiet_evt f u is s); simpa [quiet] using this
@[simp] theorem evt_media : (evt f u is s).media = s.media := by have := congrArg State.media (quiet_evt f u is s); simpa [quiet] using this
@[simp] theorem evt_mot : (evt f u is s).mot = s.mot := by have := congrArg State.mot (quiet_evt f u is s); simpa [quiet] using this
@[simp] theorem evt_chn : (evt f u is s).chn = s.chn := by have := congrArg State.chn (quiet_evt f u is s); simpa [quiet] using this
@[simp] theorem evt_pool : (evt f u is s).pool = s.pool := by have := congrArg State.pool (quiet_evt f u is s); simpa [quiet] using this
@[simp] theorem evt_pair : (evt f u is s).pair = s.pair := by have := congrArg State.pair (quiet_evt f u is s); simpa [quiet] using this
@[simp] theorem evt_free : (evt f u is s).free = s.free := by have := congrArg State.free (quiet_evt f u is s); simpa [quiet] using this
@[simp] theorem evt_pending : (evt f u is s).pending = s.pending := by have := congrArg State.pending (quiet_evt f u is s); simpa [quiet] using this
@[simp] theorem evt_host_ctx : (evt f u is s).host.ctx = s.host.ctx := by have := congrArg (fun t => t.host.ctx) (quiet_evt f u is s); simpa [quiet] using this
@[simp] theorem evt_host_doorbells : (evt f u is s).host.doorbells = s.host.doorbells := by have := congrArg (fun t => t.host.doorbells) (quiet_evt f u is s); simpa [quiet] using this
@[simp] theorem evt_host_loading : (evt f u is s).host.loading = s.host.loading := by have := congrArg (fun t => t.host.loading) (quiet_evt f u is s); simpa [quiet] using this
@[simp] theorem evt_host_starved : (evt f u is s).host.starved = s.host.starved := by have := congrArg (fun t => t.host.starved) (quiet_evt f u is s); simpa [quiet] using this
@[simp] theorem evt_host_cmds : (evt f u is s).host.cmds = s.host.cmds := by have := congrArg (fun t => t.host.cmds) (quiet_evt f u is s); simpa [quiet] using this
@[simp] theorem evt_host_fns : (evt f u is s).host.fns = s.host.fns := by have := congrArg (fun t => t.host.fns) (quiet_evt f u is s); simpa [quiet] using this
end

/-! ### The registers that an event leaves alone -/

theorem getReg_logSignal {off : Nat} (h : off ∉ logRegs) (s : State) : getReg (logSignal s) off = getReg s off := by
  unfold logSignal
  have h6 : Reg.HQ_CNT + 4 * 6 ≠ off := by intro e; apply h; simp [logRegs, ← e]
  split
  · dsimp only
    split
    · rfl
    · split
      · rfl
      · rw [getReg_bump_ne _ h6]; rfl
  · rfl

theorem getReg_writeEntry {off : Nat} (h : off ∉ logRegs) (b c u e : Nat) (cont : Bool) (d : List Byte) (s : State) :
    getReg (writeEntry b c u e cont d s) off = getReg s off := by
  have h1 : Reg.MGT_LOG_WR_LO ≠ off := by intro e; apply h; simp [logRegs, ← e]
  have h2 : Reg.MGT_LOG_WR_LO + 4 ≠ off := by intro e; apply h; simp [logRegs, ← e]
  have h3 : Reg.MGT_CNT + 4 * 5 ≠ off := by intro e; apply h; simp [logRegs, ← e]
  have h4 : Reg.MGT_CNT + 4 * 6 ≠ off := by intro e; apply h; simp [logRegs, ← e]
  unfold writeEntry
  dsimp only
  rw [getReg_logSignal h, forEach_keeps (fun s => getReg s off) _ (by intro x s; split <;> rfl)]
  have set (q : Nat) (s : State) : getReg (set64 Reg.MGT_LOG_WR_LO q s) off = getReg s off := by
    rw [set64, getReg_setReg_ne h2, getReg_setReg_ne h1]
  have k1 : ∀ (k : List EventEntry) (s : State), getReg { s with mgt := { s.mgt with early := k } } off = getReg s off := fun _ _ => rfl
  have k2 : ∀ (k : List EventEntry) (s : State), getReg { s with mgt := { s.mgt with log := k } } off = getReg s off := fun _ _ => rfl
  split <;> split <;> split <;> simp only [getReg_bump_ne _ h3, getReg_bump_ne _ h4, set, k1, k2]

theorem getReg_writeDetails {off : Nat} (h : off ∉ logRegs) (b c u e : Nat) : ∀ (ds : List (List Byte)) (cont : Bool) (s : State),
    getReg (writeDetails b c u e cont ds s) off = getReg s off
  | [], _, _ => rfl
  | d :: ds, cont, s => by rw [writeDetails, getReg_writeDetails h b c u e ds, getReg_writeEntry h]

theorem getReg_rawEvent {off : Nat} (h : off ∉ logRegs) (b c u : Nat) (is : List Item) (s : State) :
    getReg (rawEvent b c u is s) off = getReg s off := by
  unfold rawEvent
  dsimp only
  split <;> simp [getReg_writeDetails h]

theorem getReg_event {off : Nat} (h : off ∉ logRegs) (b c u : Nat) (is : List Item) (s : State) :
    getReg (event b c u is s) off = getReg s off := by
  have h5 : (Fld.MGT_EVT_LOG_WRAP).off ≠ off := by intro e; apply h; simp [logRegs, ← e, Fld.MGT_EVT_LOG_WRAP]
  unfold event
  dsimp only
  split
  · split <;> simp [getReg_rawEvent h, getReg_setF_ne h5]
  · exact getReg_rawEvent h b c u is s

/-- An event changes no register but its EVT register and those of the log. -/
theorem getReg_evt {f : Fld} {off : Nat} (h : off ∉ logRegs) (hf : f.off ≠ off) (u : Nat) (is : List Item) (s : State) :
    getReg (evt f u is s) off = getReg s off := by
  have hf' : (f.at 0).off ≠ off := by simpa [Fld.at] using hf
  unfold evt evtAt
  dsimp only
  split
  · rfl
  · split
    · rw [getReg_event h, getReg_setF_ne hf']
    · rw [getReg_setF_ne hf']

theorem getF_evt {f g : Fld} (h : g.off ∉ logRegs) (hf : f.off ≠ g.off) (u : Nat) (is : List Item) (s : State) :
    getF (evt f u is s) g = getF s g := by simp [getF, getReg_evt h hf]

theorem flag_evt {f g : Fld} (h : g.off ∉ logRegs) (hf : f.off ≠ g.off) (u : Nat) (is : List Item) (s : State) :
    flag (evt f u is s) g = flag s g := by simp [flag, getF_evt h hf]

/-- The EVT bit is 1 afterwards, for a bit outside the event log's own registers. -/
theorem flag_evt_same {f : Fld} (h : f.off ∉ logRegs) (hb : f.lo = f.hi) (h32 : f.hi < 32) (u : Nat) (is : List Item)
    (s : State) : flag (evt f u is s) f = true := by
  have e0 : f.at 0 = f := rfl
  have hset : ∀ t, flag (setF f 1 t) f = true := fun t => by
    have := flag_setFlag_same f true t hb h32
    simpa [setFlag] using this
  unfold evt evtAt
  rw [e0]
  dsimp only
  split
  · assumption
  · split
    · simp only [flag, getF, getReg_event h]
      exact hset s
    · exact hset s

end Sys2Proof.Machine
end

