-- ==== Sys2Proof/Laws/Exec.lean ====
section
/-! SUPPORT. Every command ends through done, whatever it is. -/

namespace Sys2Proof.Machine

/-- Each command's outcome is done of its effect. -/
theorem exec_done (i : Instr) (s : State) : ∃ t, exec i s = done s t := by
  cases i <;> exact ⟨_, rfl⟩

/-- So every command ends in a next state, which finish makes of an effect. -/
theorem exec_next (i : Instr) (s t : State) (h : exec i s = .next t) : ∃ u, t = finish s u := by
  obtain ⟨u, hu⟩ := exec_done i s
  rw [hu] at h
  cases h
  exact ⟨u, rfl⟩

end Sys2Proof.Machine
end

