-- ==== Sys2Proof/Laws/Frames.lean ====
section
/-! SUPPORT. What a change of a unit can reach, said once: everything else is as before (still, calm), and the entry that it
writes is the one of R503. -/

namespace Sys2Proof.Machine

/-- The registers that a change of a unit may write, with all that follows it. -/
def changeRegs : List Nat :=
  logRegs ++ [Reg.UNT_EVT, Reg.UNT_CNT, Reg.UNT_CNT + 4, Reg.UNT_CNT + 8, Reg.UNT_CNT + 12, Reg.UNT_CNT + 16, Reg.UNT_CNT + 20,
    Reg.UNT_CNT + 24, Reg.UNT_CNT + 28, Reg.ORD_CNT + 24, Reg.ORD_CNT + 28, Reg.ORD_EVT, Reg.CAL_LAST, Reg.CAL_CNT, Reg.CAL_CNT + 4,
    Reg.CAL_CNT + 8, Reg.CAL_CNT + 12, Reg.CAL_EVT, Reg.DEC_IMP_STATUS, Reg.DEC_IMP_REACH, Reg.DEC_IMP_REACH + 4,
    Reg.DEC_IMP_REACH + 8, Reg.DEC_IMP_REACH + 12]

/-- The registers that a change leaves alone. -/
def regsApart (s : State) (off : Nat) : Word := if off ∈ changeRegs then 0#32 else getReg s off

/-- The state without what may follow a change of a unit: events, ends of commands, open requests. -/
def still (s : State) : State × (Nat → Word) :=
  ({ s with
    regs := [], unt := { s.unt with open_ := [] }, mgt := {}, mram := {}, host := {}, media := {}, pool := {}, chn := {}, pair := {}, out := [] }, regsApart s)

theorem still_setReg {off : Nat} (h : off ∈ changeRegs) (v : Word) (s : State) : still (setReg off v s) = still s := by
  have : regsApart (setReg off v s) = regsApart s := by
    funext o
    unfold regsApart
    by_cases ho : o ∈ changeRegs
    · simp only [ho, if_true]
    · have : off ≠ o := fun e => ho (e ▸ h)
      simp only [ho, if_false, getReg_setReg_ne this]
  simp only [still, this]
  rfl
theorem still_setF {f : Fld} (h : f.off ∈ changeRegs) (v : Nat) (s : State) : still (setF f v s) = still s := still_setReg h _ _
theorem still_bump {o i : Nat} (h : o + 4 * i ∈ changeRegs) (s : State) : still (bump o i s) = still s := still_setReg h _ _
@[simp] theorem still_emit (o : Output) (s : State) : still (emit o s) = still s := (rfl)
@[simp] theorem still_modVol (v : Nat) (f : Volume → Volume) (s : State) : still (modVol v f s) = still s := (rfl)
@[simp] theorem still_putCmd (t : Nat) (c : Option Cmd) (s : State) : still (putCmd t c s) = still s := (rfl)
@[simp] theorem still_freeTag (t : Nat) (s : State) : still (freeTag t s) = still s := (rfl)

theorem still_of_quiet {s t : State} (h : quiet t = quiet s) (hr : regsApart t = regsApart s) : still t = still s := by
  have e : ∀ x : State, (still x).1 = (still (quiet x)).1 := fun _ => rfl
  refine Prod.ext ?_ hr
  rw [e t, e s, h]

theorem logRegs_change {o : Nat} (h : o ∈ logRegs) : o ∈ changeRegs := List.mem_append_left _ h

@[simp] theorem still_event (b c u : Nat) (is : List Item) (s : State) : still (event b c u is s) = still s := by
  refine still_of_quiet (quiet_event b c u is s) (funext fun o => ?_)
  unfold regsApart
  split
  · rfl
  · exact getReg_event (fun h => ‹¬ o ∈ changeRegs› (logRegs_change h)) b c u is s
theorem still_evt {f : Fld} (h : f.off ∈ changeRegs) (u : Nat) (is : List Item) (s : State) : still (evt f u is s) = still s := by
  refine still_of_quiet (quiet_evt f u is s) (funext fun o => ?_)
  unfold regsApart
  split
  · rfl
  · rename_i ho
    exact getReg_evt (fun h => ho (logRegs_change h)) (fun e => ho (e ▸ h)) u is s

@[simp] theorem still_modCmd (t : Nat) (f : Cmd → Cmd) (s : State) : still (modCmd t f s) = still s := by
  unfold modCmd; split <;> rfl

@[simp] theorem still_mirror (m : MirrorItem) (s : State) : still (mirror m s) = still s := by
  unfold mirror; split <;> rfl

@[simp] theorem still_recordChange (u : Nat) (r : Source) (q : Nat) (s : State) : still (recordChange u r q s) = still s := by
  unfold recordChange
  rw [still_mirror]
  unfold changeEvent
  dsimp only
  split
  · rw [still_event]; simp (disch := decide) only [still_setF]; rfl
  · simp (disch := decide) only [still_setF]; rfl

@[simp] theorem still_recordReplay (c : Cmd) (s : State) : still (recordReplay c s) = still s := by
  unfold recordReplay; split
  · simp
  · rfl

@[simp] theorem still_endOne (t : Nat) (st : Status) (r : Nat) (s : State) : still (endOne t st r s) = still s := by
  unfold endOne
  split
  · rfl
  · split
    · rfl
    · dsimp only
      have h1 : ∀ (t : Nat) (c : Option Cmd) (l : List Nat) (s : State),
          still { putCmd t c s with host := { (putCmd t c s).host with posting := l } } = still s := fun _ _ _ _ => rfl
      split <;> split <;> simp (disch := decide) only [still_freeTag, still_bump, still_recordReplay, h1]

@[simp] theorem still_endCmd (t : Nat) (st : Status) (r : Nat) (s : State) : still (endCmd t st r s) = still s := by
  unfold endCmd
  split
  · rfl
  · split
    · rfl
    · dsimp only
      have h1 : ∀ c s, still (createFailed c st s) = still s := by
        intro c s; unfold createFailed; split
        · refine forEach_keeps still _ ?_ _ _
          intro e s; split
          · simp
          · rfl
        · rfl
      have h2 : ∀ q rel step s, still (endRepeats q st r rel step s) = still s := by
        intro q rel step s; unfold endRepeats
        refine forEach_keeps still _ ?_ _ _
        intro e s; split
        · simp (disch := decide) only [still_evt, still_bump, still_endOne, still_modCmd]
        · rfl
      rw [h1, h2, still_endOne]

@[simp] theorem still_setGate4 (t : Nat) (g : Gate) (s : State) : still (setGate4 t g s) = still s := by
  unfold setGate4
  split
  · rfl
  · dsimp only
    split
    · split
      · simp
      · split <;> simp
    · simp

@[simp] theorem still_regate (s : State) : still (regate s) = still s := by
  have h : ∀ l s, still (forEach regateOne l s) = still s := by
    refine forEach_keeps still _ ?_
    intro e s
    unfold regateOne
    dsimp only
    split
    · rfl
    · rfl
    · split
      · rfl
      · repeat' split
        all_goals first | rfl | simp (disch := decide) [still_bump]
  unfold regate
  dsimp only
  split
  · exact h _ _
  · exact h _ _

@[simp] theorem still_finishReq (r : UnitReq) (st : Status) (s : State) : still (finishReq r st s) = still s := by
  unfold finishReq
  dsimp only
  have h : still (if st = Status.unitSuspect then bump Reg.UNT_CNT 6 (if st = Status.unitService then bump Reg.UNT_CNT 3 s else s) else if st = Status.unitService then bump Reg.UNT_CNT 3 s else s) = still s := by
    split <;> split <;> simp (disch := decide) only [still_bump]
  generalize (if st = Status.unitSuspect then bump Reg.UNT_CNT 6 (if st = Status.unitService then bump Reg.UNT_CNT 3 s else s) else if st = Status.unitService then bump Reg.UNT_CNT 3 s else s) = u at h
  split
  · exact h
  · split
    · exact h
    · rw [still_endCmd]
      split
      · split <;> simp [h]
      · exact h
  · exact h
  · exact h
  · exact h

@[simp] theorem still_settleReqs (u : Nat) (s : State) : still (settleReqs u s) = still s := by
  unfold settleReqs
  dsimp only
  rw [forEach_keeps still]
  · rfl
  · intro r s; split <;> simp

@[simp] theorem still_afterChange (u : Nat) (a b : UState) (s : State) : still (afterChange u a b s) = still s := by
  unfold afterChange
  dsimp only
  rw [still_settleReqs, still_regate]
  have h1 : ∀ s, still (endImport u a s) = still s := by
    intro s; unfold endImport; split
    · dsimp only
      simp (disch := decide) only [forEach, still_setReg]
      rfl
    · rfl
  have h2 : ∀ s, still (endHeldWaits a b s) = still s := by
    intro s; unfold endHeldWaits; split
    · refine forEach_keeps still _ ?_ _ _
      intro e s; split
      · simp
      · rfl
    · rfl
  have h3 : ∀ s, still (carWriteStop u b s) = still s := by
    intro s; unfold carWriteStop; split <;> rfl
  rw [h1]
  split
  · rw [h2, h3]
  · rw [h3]

/-- The state without what a change of a unit may reach. -/
def calm (s : State) : State × (Nat → Word) :=
  ({ (still s).1 with unt := {}, cal := {}, mot := { s.mot with spn := { s.mot.spn with calib := none } } }, regsApart s)

theorem calm_of_still {s t : State} (h : still t = still s) : calm t = calm s := by
  have e : ∀ x : State, calm x = ({ (still x).1 with unt := {}, cal := {}, mot := { (still x).1.mot with spn := { (still x).1.mot.spn with calib := none } } }, (still x).2) := fun _ => rfl
  rw [e t, e s, h]

@[simp] theorem calm_recordChange (u : Nat) (r : Source) (q : Nat) (s : State) : calm (recordChange u r q s) = calm s :=
  calm_of_still (still_recordChange u r q s)
@[simp] theorem calm_finishReq (r : UnitReq) (st : Status) (s : State) : calm (finishReq r st s) = calm s :=
  calm_of_still (still_finishReq r st s)
@[simp] theorem calm_afterChange (u : Nat) (a b : UState) (s : State) : calm (afterChange u a b s) = calm s :=
  calm_of_still (still_afterChange u a b s)
theorem calm_setReg {off : Nat} (h : off ∈ changeRegs) (v : Word) (s : State) : calm (setReg off v s) = calm s :=
  calm_of_still (still_setReg h v s)
theorem calm_bump {o i : Nat} (h : o + 4 * i ∈ changeRegs) (s : State) : calm (bump o i s) = calm s := calm_setReg h _ _
theorem calm_evt {f : Fld} (h : f.off ∈ changeRegs) (u : Nat) (is : List Item) (s : State) : calm (evt f u is s) = calm s :=
  calm_of_still (still_evt h u is s)

@[simp] theorem calm_putState (u : Nat) (t : UState) (w : Reason) (s : State) : calm (putState u t w s) = calm s := by
  unfold putState; dsimp only; split <;> simp (disch := decide) only [calm_bump] <;> rfl

@[simp] theorem calm_recompute (s : State) : calm (recompute s) = calm s := by
  unfold recompute
  split
  · refine forEach_keeps calm _ ?_ _ _
    intro v s
    unfold recomputeVol
    dsimp only
    split
    · simp
    · rfl
  · rfl

@[simp] theorem calm_changeUnit0 (u : Nat) (t : UState) (w : Reason) (r : Source) (q : Nat) (s : State) :
    calm (changeUnit0 u t w r q s) = calm s := by
  unfold changeUnit0
  dsimp only
  split
  · rfl
  · split <;> simp

@[simp] theorem calm_calRecord (r : CalRun) (st : Status) (o : Nat) (s : State) : calm (calRecord r st o s) = calm s := by
  have h1 : ∀ s : State, calm { s with mot := { s.mot with spn := { s.mot.spn with calib := none } } } = calm s := fun _ => rfl
  have h2 : calm { s with cal := { s.cal with running := s.cal.running.filter (fun x => x ≠ r) } } = calm s := rfl
  have h3 : ∀ (p : Prop) [Decidable p] (a b : State), calm a = calm s → calm b = calm s → calm (if p then a else b) = calm s := by
    intro p _ a b ha hb; split
    · exact ha
    · exact hb
  unfold calRecord calEvt
  dsimp only
  generalize { s with cal := { s.cal with running := s.cal.running.filter (fun x => x ≠ r) } } = u at h2
  rw [calm_evt (by decide), h1]
  repeat' (first | with_reducible exact h2 | (simp (disch := decide) only [calm_evt, calm_bump, calm_setReg]) | (with_reducible apply h3))

@[simp] theorem calm_calSweep (s : State) : calm (calSweep s) = calm s := by
  unfold calSweep
  refine forEach_keeps calm _ ?_ _ _
  intro r s
  have hh : ∀ u b s, calm (setHold u b s) = calm s := fun _ _ _ => rfl
  unfold calSweepOne
  dsimp only
  split
  · split
    · simp
    · rfl
  · split
    · rfl
    · split
      · simp [hh]
      · split
        · rw [calm_finishReq]; split <;> simp [hh]
        · rfl

@[simp] theorem calm_changeUnit (u : Nat) (t : UState) (w : Reason) (r : Source) (q : Nat) (s : State) :
    calm (changeUnit u t w r q s) = calm s := by simp [changeUnit]
@[simp] theorem calm_change (u : Nat) (t : UState) (w : Reason) (s : State) : calm (change u t w s) = calm s := by simp [change]
@[simp] theorem calm_suspectUnit (u : Nat) (w : Reason) (d : Doubt) (b : Bool) (s : State) : calm (suspectUnit u w d b s) = calm s := by
  unfold suspectUnit; split
  · rfl
  · dsimp only; rw [calm_change]; rfl

theorem getReg_of_still {s t : State} (h : still t = still s) {off : Nat} (ho : off ∉ changeRegs) : getReg t off = getReg s off := by
  have := congrFun (congrArg Prod.snd h) off
  simpa [still, regsApart, ho] using this
theorem getReg_of_calm {s t : State} (h : calm t = calm s) {off : Nat} (ho : off ∉ changeRegs) : getReg t off = getReg s off := by
  have := congrFun (congrArg Prod.snd h) off
  simpa [calm, regsApart, ho] using this
theorem tab_of_still {s t : State} (h : still t = still s) : t.unt.tab = s.unt.tab := by
  have := congrArg (fun c => c.1.unt.tab) h
  exact this
theorem cal_of_still {s t : State} (h : still t = still s) : t.cal = s.cal := by
  have := congrArg (fun c => c.1.cal) h
  exact this
theorem pins_of_calm {s t : State} (h : calm t = calm s) : t.pins = s.pins := by
  have := congrArg (fun c => c.1.pins) h
  exact this
theorem img_of_calm {s t : State} (h : calm t = calm s) : t.img = s.img := by
  have := congrArg (fun c => c.1.img) h
  exact this
theorem pwr_of_calm {s t : State} (h : calm t = calm s) : t.pwr = s.pwr := by
  have := congrArg (fun c => c.1.pwr) h
  exact this

/-! ### The entry of a unit after its change -/

theorem unitOf_of_still {s t : State} (h : still t = still s) (u : Nat) : unitOf t u = unitOf s u := by
  simp [unitOf, tab_of_still h]

theorem unitOf_putState_ne {u v : Nat} (h : v ≠ u) (tgt : UState) (why : Reason) (s : State) :
    unitOf (putState v tgt why s) u = unitOf s u := by
  unfold putState
  dsimp only
  split <;> exact Tbl.get_put_ne _ _ _ h _

/-- Recomputing the volumes leaves every other unit as it is. -/
theorem unitOf_recompute {u : Nat} (h : u < 0x40) (s : State) : unitOf (recompute s) u = unitOf s u := by
  unfold recompute
  split
  · refine forEach_keeps (fun s => unitOf s u) _ ?_ _ _
    intro v s
    unfold recomputeVol
    dsimp only
    split
    · rw [unitOf_of_still (still_recordChange _ _ _ _)]
      exact unitOf_putState_ne (by unfold uVol; omega) _ _ _
    · rfl
  · rfl

/-- The entry that a change writes (R503). -/
def changedEntry (s : State) (u : Nat) (tgt : UState) (why : Reason) : UnitEntry :=
  let e := unitOf s u
  { state := tgt, prev := e.state, reason := why, epoch := nextEpoch e.epoch, changed := s.pwr.time,
    hold := if tgt = .service then e.hold else false, doubt := if tgt = .suspect then e.doubt else .none,
    asserted := if tgt = .suspect then e.asserted else false }

theorem unitOf_putState_same (u : Nat) (tgt : UState) (why : Reason) (s : State) :
    unitOf (putState u tgt why s) u = changedEntry s u tgt why := by
  unfold putState
  dsimp only
  split <;> exact Tbl.get_put_same _ _ _ _

theorem cal_of_recompute (s : State) : (recompute s).cal = s.cal := by
  unfold recompute
  split
  · refine forEach_keeps State.cal _ ?_ _ _
    intro v s
    unfold recomputeVol
    dsimp only
    split
    · rw [cal_of_still (still_recordChange _ _ _ _)]
      unfold putState; dsimp only; split <;> rfl
    · rfl
  · rfl

theorem cal_changeUnit0 (u : Nat) (t : UState) (w : Reason) (r : Source) (q : Nat) (s : State) :
    (changeUnit0 u t w r q s).cal = s.cal := by
  have hp : (putState u t w s).cal = s.cal := by unfold putState; dsimp only; split <;> rfl
  unfold changeUnit0
  dsimp only
  split
  · rfl
  · rw [cal_of_still (still_afterChange _ _ _ _), cal_of_still (still_recordChange _ _ _ _)]
    split
    · rw [cal_of_recompute, hp]
    · exact hp

/-- With no calibration under way a change of a unit other than a volume leaves just the new entry. -/
theorem unitOf_change {u : Nat} (hu : u < 0x40) {tgt : UState} {s : State} (hc : s.cal.running = []) (hs : ust s u ≠ tgt)
    (why : Reason) (src : Source) (seq : Nat) : unitOf (changeUnit u tgt why src seq s) u = changedEntry s u tgt why := by
  have h0 : calSweep (changeUnit0 u tgt why src seq s) = changeUnit0 u tgt why src seq s := by
    unfold calSweep; rw [cal_changeUnit0, hc]; rfl
  unfold changeUnit
  rw [h0]
  unfold changeUnit0
  dsimp only
  rw [if_neg hs, unitOf_of_still (still_afterChange _ _ _ _), unitOf_of_still (still_recordChange _ _ _ _)]
  split
  · rw [unitOf_recompute hu, unitOf_putState_same]
  · exact unitOf_putState_same _ _ _ _

theorem unitOf_change_ne {u v : Nat} (hu : u < 0x40) (hv : v ≠ u) {tgt : UState} {s : State} (hc : s.cal.running = [])
    (why : Reason) (src : Source) (seq : Nat) : unitOf (changeUnit v tgt why src seq s) u = unitOf s u := by
  have h0 : calSweep (changeUnit0 v tgt why src seq s) = changeUnit0 v tgt why src seq s := by
    unfold calSweep; rw [cal_changeUnit0, hc]; rfl
  unfold changeUnit
  rw [h0]
  unfold changeUnit0
  dsimp only
  split
  · rfl
  · rw [unitOf_of_still (still_afterChange _ _ _ _), unitOf_of_still (still_recordChange _ _ _ _)]
    split
    · rw [unitOf_recompute hu, unitOf_putState_ne hv]
    · exact unitOf_putState_ne hv _ _ _

theorem running_change {u : Nat} {tgt : UState} {s : State} (hc : s.cal.running = [])
    (why : Reason) (src : Source) (seq : Nat) : (changeUnit u tgt why src seq s).cal.running = [] := by
  have h0 : calSweep (changeUnit0 u tgt why src seq s) = changeUnit0 u tgt why src seq s := by
    unfold calSweep; rw [cal_changeUnit0, hc]; rfl
  unfold changeUnit
  rw [h0, cal_changeUnit0, hc]
/-! ### The states of units other than volumes and carriages after a change, whatever calibrations run -/

theorem ust_changeUnit0_same {u : Nat} (hu : u < 0x40) (tgt : UState) (why : Reason) (src : Source) (seq : Nat) (s : State) :
    ust (changeUnit0 u tgt why src seq s) u = tgt := by
  unfold changeUnit0
  dsimp only
  split
  · assumption
  · rw [ust, unitOf_of_still (still_afterChange _ _ _ _), unitOf_of_still (still_recordChange _ _ _ _)]
    split
    · rw [unitOf_recompute hu, unitOf_putState_same]; rfl
    · rw [unitOf_putState_same]; rfl

theorem unitOf_changeUnit0_ne {u v : Nat} (hu : u < 0x40) (hv : v ≠ u) (tgt : UState) (why : Reason) (src : Source) (seq : Nat)
    (s : State) : unitOf (changeUnit0 v tgt why src seq s) u = unitOf s u := by
  unfold changeUnit0
  dsimp only
  split
  · rfl
  · rw [unitOf_of_still (still_afterChange _ _ _ _), unitOf_of_still (still_recordChange _ _ _ _)]
    split
    · rw [unitOf_recompute hu, unitOf_putState_ne hv]
    · exact unitOf_putState_ne hv _ _ _

theorem tab_calRecord (r : CalRun) (st : Status) (o : Nat) (s : State) : (calRecord r st o s).unt.tab = s.unt.tab := by
  have h3 : ∀ (p : Prop) [Decidable p] (a b : State), a.unt.tab = s.unt.tab → b.unt.tab = s.unt.tab → (if p then a else b).unt.tab = s.unt.tab := by
    intro p _ a b ha hb; split
    · exact ha
    · exact hb
  unfold calRecord calEvt
  dsimp only
  rw [evt_unt]
  dsimp only
  repeat' (first | with_reducible rfl | (simp only [evt_unt, bump_unt, setReg_unt]) | (with_reducible apply h3))

theorem unitOf_setHold_ne {u v : Nat} (h : v ≠ u) (b : Bool) (s : State) : unitOf (setHold v b s) u = unitOf s u :=
  Tbl.get_put_ne _ _ _ h _

theorem ust_setHold (u v : Nat) (b : Bool) (s : State) : ust (setHold v b s) u = ust s u := by
  by_cases h : v = u
  · subst h
    show (Tbl.get _ _ (Tbl.put _ _ _ _) : UnitEntry).state = _
    rw [Tbl.get_put_same]; rfl
  · simp only [ust, unitOf_setHold_ne h]

/-- A sweep of the calibrations changes the states of carriages and volumes alone. -/
theorem ust_calSweep {u : Nat} (hu : u < 0x40) (hc : isCar u = false) (s : State) : ust (calSweep s) u = ust s u := by
  have hr : ∀ r st o s, ust (calRecord r st o s) u = ust s u := fun r st o s => by simp only [ust, unitOf, tab_calRecord]
  have hf : ∀ r st s, ust (finishReq r st s) u = ust s u := fun r st s => by simp only [ust, unitOf_of_still (still_finishReq r st s)]
  unfold calSweep
  refine forEach_keeps (fun s => ust s u) _ ?_ _ _
  intro r s
  unfold calSweepOne
  dsimp only
  split
  · split
    · rw [hf, hr]
    · rfl
  · split
    · rfl
    · split
      · rw [hf, hr, ust_setHold]
      · split
        · rename_i h
          rw [hf]
          split
          · rw [hr, ust_setHold]
          · have : r.unit ≠ u := by
              intro e
              rw [e, hc] at h
              simp at h
            rw [ust, unitOf_changeUnit0_ne hu this, ← ust, hr, ust_setHold]
        · rfl

theorem ust_change_same {u : Nat} (hu : u < 0x40) (hc : isCar u = false) (tgt : UState) (why : Reason) (src : Source) (seq : Nat)
    (s : State) : ust (changeUnit u tgt why src seq s) u = tgt := by
  rw [changeUnit, ust_calSweep hu hc, ust_changeUnit0_same hu]

theorem ust_change_ne {u v : Nat} (hu : u < 0x40) (hc : isCar u = false) (hv : v ≠ u) (tgt : UState) (why : Reason) (src : Source)
    (seq : Nat) (s : State) : ust (changeUnit v tgt why src seq s) u = ust s u := by
  rw [changeUnit, ust_calSweep hu hc, ust, unitOf_changeUnit0_ne hu hv]; rfl

/-! ### Groups of changes, and what carries them out -/

@[simp] theorem calm_changeGroup (us : List (Nat × UState)) (w : Reason) (r : Source) (q : Nat) (s : State) :
    calm (changeGroup us w r q s) = calm s := by
  unfold changeGroup
  dsimp only
  rw [calm_calSweep, forEach_keeps calm, calm_recompute, forEach_keeps calm]
  · intro e s; split
    · rfl
    · simp
  · intro e s; split
    · rfl
    · simp

@[simp] theorem calm_carGradeCheck (w : Reason) (c : Nat) (s : State) : calm (carGradeCheck w c s) = calm s := by
  unfold carGradeCheck
  dsimp only
  split
  · simp
  · split <;> simp
@[simp] theorem calm_carReadyCheck (c : Nat) (s : State) : calm (carReadyCheck c s) = calm s := by
  unfold carReadyCheck; split <;> simp
@[simp] theorem calm_strandReadyCheck (g : Nat) (s : State) : calm (strandReadyCheck g s) = calm s := by
  unfold strandReadyCheck
  dsimp only
  split <;> simp

@[simp] theorem arbitrate_pwr (s : State) : (arbitrate s).pwr = s.pwr := by
  unfold arbitrate
  split
  · rfl
  · dsimp only; split <;> simp only [setInt, setReg_pwr, modSpn_pwr]

end Sys2Proof.Machine
end

