-- ==== Sys2Proof/Laws/Memory.lean ====
section
/-! SUPPORT. Every operation over the byte memories keeps their canonical form, and a byte reads as it was written. -/

namespace Sys2Proof.Machine

theorem Memory.wf_reset : Memory.wf State.reset.mem.bytes = true ∧ Memory.wf State.reset.bc.scratch = true := ⟨rfl, rfl⟩

theorem Memory.wf_put (a : Nat) (b : Byte) (m : Tbl Byte) (h : Memory.wf m = true) : Memory.wf (Tbl.put 0 a b m) = true :=
  Tbl.wf_put (fun _ => 0#8) a b m h

theorem Memory.wf_putBytes : ∀ (bs : List Byte) (a : Nat) (m : Tbl Byte), Memory.wf m = true → Memory.wf (putBytes a bs m) = true
  | [], _, _, h => h
  | b :: bs, a, m, h => Memory.wf_putBytes bs (a + 1) _ (Memory.wf_put a b m h)

theorem Memory.wf_memPut (line : Nat) (data : List Byte) (s : State) (h : Memory.wf s.mem.bytes = true) :
    Memory.wf (memPut line data s).mem.bytes = true := Memory.wf_putBytes _ _ _ h

theorem Memory.wf_filter (p : Nat × Byte → Bool) (m : Tbl Byte) (h : Memory.wf m = true) : Memory.wf (m.filter p) = true :=
  Tbl.wf_filter (fun _ => 0#8) p m h

theorem Memory.wf_bar2Write (ways : Nat) : ∀ (bs : List (Option Byte)) (o : Nat) (m : Tbl Byte),
    Memory.wf m = true → Memory.wf (bar2Write ways o bs m) = true
  | [], _, _, h => h
  | b :: bs, o, m, h => by
    cases b with
    | none => exact Memory.wf_bar2Write ways bs (o + 1) m h
    | some v =>
      show Memory.wf (bar2Write ways (o + 1) bs (if 0x100000 ≤ o && o < ways * 0x100000 then Tbl.put 0 o v m else m)) = true
      apply Memory.wf_bar2Write ways bs (o + 1)
      split
      · exact Memory.wf_put o v m h
      · exact h

/-- A byte below the place where a write begins reads as before. -/
theorem putBytes_below {a x : Nat} : ∀ (bs : List Byte) (m : Tbl Byte), x < a → Tbl.get 0#8 x (putBytes a bs m) = Tbl.get 0#8 x m := by
  intro bs
  induction bs generalizing a with
  | nil => intro m _; rfl
  | cons b bs ih => intro m h; rw [putBytes, ih _ (by omega), Tbl.get_put_ne _ _ _ (by omega)]

/-- A byte beyond the last one written reads as before. -/
theorem putBytes_beyond {x : Nat} : ∀ (bs : List Byte) (a : Nat) (m : Tbl Byte), a + bs.length ≤ x →
    Tbl.get 0#8 x (putBytes a bs m) = Tbl.get 0#8 x m := by
  intro bs
  induction bs with
  | nil => intro a m _; rfl
  | cons b bs ih =>
    intro a m h
    simp only [List.length_cons] at h
    rw [putBytes, ih (a + 1) _ (by omega), Tbl.get_put_ne _ _ _ (by omega)]

end Sys2Proof.Machine
end

