-- ==== Sys2Proof/WellFormed.lean ====
section
/-! DEFINITION. Which commands are well formed: each operand within the range of the field, port or instance that it stands
for. -/

namespace Sys2Proof

/-- A command whose operands lie in their ranges. -/
def Instr.wellFormed : Instr → Bool
  | .coldReset => true
  | .railFail => true
  | .railsGood => true
  | .internalHoldEnd => true
  | .pllLock => true
  | .resetNAssert => true
  | .resetNRise straps => decide (straps < 16384)
  | .softWarmReset _ _ => true
  | .clockLoss => true
  | .clockRelock => true
  | .romCheckDone _ => true
  | .flashReadComplete _ _ _ _ => true
  | .pairImageReceived _ => true
  | .pairFollowTimeout => true
  | .bistDone _ => true
  | .ddrTrainingDone _ _ _ _ => true
  | .bringupDone _ => true
  | .arm answers => decide (answers.length = 4)
  | .runEntry => true
  | .perstNAssert => true
  | .perstNRelease => true
  | .pcieRefLost => true
  | .xtalPpmMeasure _ => true
  | .pwrfailAssert _ _ _ => true
  | .pwrfailRecover => true
  | .policyWatchdogExpiry => true
  | .watchdogRestartRequest => true
  | .thermalSensorRead temps => decide (temps.length = 8)
  | .thermalCeilingStep => true
  | .fetch => true
  | .fetchReadComplete _ => true
  | .quiesce => true
  | .quiesceComplete => true
  | .resume => true
  | .apply key => decide (key < 256)
  | .progA key => decide (key < 256)
  | .progB key => decide (key < 256)
  | .progComplete _ => true
  | .burnKey key => decide (key < 256)
  | .burnEnforce key => decide (key < 256)
  | .burnNorom key => decide (key < 256)
  | .burnRevoke key n => decide (key < 256) && decide (n < 4)
  | .mountStart => true
  | .mountStepDone _ => true
  | .mountComplete => true
  | .importIdentify _ => true
  | .slotStart g _ _ _ _ _ => decide (g < 32)
  | .zoneSeedFetch c _ _ => decide (c < 4)
  | .zoneSeedReady c => decide (c < 4)
  | .timingLost g _ => decide (g < 32)
  | .segmentEnd g => decide (g < 32)
  | .wedgeCrossing g w _ _ => decide (g < 32) && decide (w < 96)
  | .wedgeMissRev g => decide (g < 32)
  | .defectFlagStart g _ => decide (g < 32)
  | .defectFlagEnd g _ => decide (g < 32)
  | .sectorDelivery g _ _ => decide (g < 32)
  | .chnForceSyncMiss g => decide (g < 32)
  | .chnForceDefect g => decide (g < 32)
  | .poolJobDispatch _ idx => decide (idx < 12)
  | .poolJobComplete _ idx => decide (idx < 12)
  | .l4SpeedReached => true
  | .skeinEngineComplete n => decide (n < 2)
  | .importClusterDecode _ _ _ => true
  | .decPauseRecovery _ => true
  | .decForceEf _ => true
  | .relocPause _ => true
  | .knotIntervalExpiry _ => true
  | .passStart c => decide (c < 4)
  | .preRead c _ => decide (c < 4)
  | .passWriteEnd c => decide (c < 4)
  | .verifyRevolutionEnd c => decide (c < 4)
  | .pdlFrame c _ => decide (c < 4)
  | .drvStatusPoll c _ => decide (c < 4)
  | .wrpPdlCmd c _ => decide (c < 4)
  | .retryHeld => true
  | .writeInhibit _ => true
  | .laserIlkAssert => true
  | .interlockRelease => true
  | .knotReady _ => true
  | .knotVerified _ => true
  | .hankDispatch n => decide (n < 6)
  | .hankCodeComplete n _ => decide (n < 6)
  | .hankDecompressComplete n _ => decide (n < 6)
  | .hankRestore n => decide (n < 6)
  | .hankRestoreDone n _ => decide (n < 6)
  | .hankForceMismatch _ => true
  | .basePeriod _ _ => true
  | .loopOverrun k => decide (k < 32)
  | .loopOutputWrite => true
  | .loopLostLock k => decide (k < 32)
  | .loopFault k => decide (k < 32)
  | .carriageReacquireTimeout c => decide (c < 4)
  | .loopEnable k => decide (k < 32)
  | .loopDisable k => decide (k < 32)
  | .loopSwap k => decide (k < 32)
  | .loopPark k => decide (k < 32)
  | .loopClrFault k => decide (k < 32)
  | .loopFollow k _ => decide (k < 32)
  | .coefDataAccess k _ => decide (k < 32)
  | .lpeForceOvr k _ => decide (k < 32)
  | .traceInEdge n _ _ => decide (n < 4)
  | .traceLost n => decide (n < 4)
  | .pwmTop _ => true
  | .pwmCentre _ _ _ => true
  | .rotorLoss => true
  | .spnComparatorEdge ph _ => decide (ph < 3)
  | .spnStart => true
  | .spnStop => true
  | .spnClrFault => true
  | .spnForceLoss => true
  | .coastSenseDone => true
  | .catchMade => true
  | .catchTimeout => true
  | .brakeDone => true
  | .brakeTimeout => true
  | .alignDone _ _ _ _ => true
  | .runupDone => true
  | .runupTimeout => true
  | .spindleReady => true
  | .lockedRotor => true
  | .lockedWaitDone => true
  | .recatchOk => true
  | .recatchTimeout => true
  | .stoppingDone => true
  | .rateMatchCompute _ _ _ => true
  | .sledPwmSample c _ _ => decide (c < 4)
  | .profileTick c => decide (c < 4)
  | .stepTimerExpiry c => decide (c < 4)
  | .homeEdge c _ => decide (c < 4)
  | .homingFail c => decide (c < 4)
  | .seekRequest c _ _ => decide (c < 4)
  | .seekSettleDone c => decide (c < 4)
  | .capture c => decide (c < 4)
  | .captureTimeout c => decide (c < 4)
  | .fineDone c => decide (c < 4)
  | .layerJumpDone c => decide (c < 4)
  | .turnJumpDone c => decide (c < 4)
  | .crgCmdSeek c lf turn => decide (c < 4) && decide (lf < 32) && decide (turn < 16384)
  | .crgCmdHome c => decide (c < 4)
  | .crgCmdMove c => decide (c < 4)
  | .crgClrFault c => decide (c < 4)
  | .crgForceSlip c => decide (c < 4)
  | .camCommit _ => true
  | .camEngage t _ => decide (t < 64)
  | .camTimeReset t => decide (t < 64)
  | .camPtDataAccess _ => true
  | .doorbell f _ _ v => decide (f < 64) && decide (v < 0x10000000000000000)
  | .contextLoadComplete _ _ => true
  | .contextFreed => true
  | .ringInvalidate f _ => decide (f < 64)
  | .ringInvalidateDone _ => true
  | .ringQuery f _ => decide (f < 64)
  | .grant _ _ => true
  | .uTokenRefill => true
  | .nop _ => true
  | .read _ => true
  | .write _ => true
  | .flush _ => true
  | .abort _ => true
  | .volumeCreate _ => true
  | .volumeClose _ => true
  | .volumeInfo => true
  | .importRead _ => true
  | .unitQuery => true
  | .unitRequestOffline => true
  | .unitRequestReady => true
  | .unitRequestService => true
  | .bufferChannelServiceReady => true
  | .assertPresent _ => true
  | .assertAbsent _ => true
  | .calibrateChannel => true
  | .calibrateServoLayer => true
  | .calibrateServoRadius => true
  | .calibrateWritePower => true
  | .calibrateSledHome => true
  | .calibrateSpindle => true
  | .selfTestParity => true
  | .selfTestMram => true
  | .selfTestMemBist => true
  | .drainComplete _ => true
  | .calibrationEnd _ _ => true
  | .calibrationTimeout _ => true
  | .calForceCheckerFail => true
  | .commandRun _ => true
  | .writeHeldPoint _ _ => true
  | .writeBehindSpace => true
  | .suspectHoldExpiry _ => true
  | .lockWaitLong _ => true
  | .genLookup => true
  | .replayClear => true
  | .completionPost _ => true
  | .coalesceTimerExpiry _ => true
  | .msixUnmask f _ => decide (f < 64)
  | .flr f => decide (f < 64)
  | .flrEnd f => decide (f < 64)
  | .cacheRequest _ _ _ _ _ => true
  | .fillBeat _ _ => true
  | .writebackComplete _ => true
  | .cacheClean _ _ => true
  | .cacheCleanInv _ _ => true
  | .invDone => true
  | .cacheLock => true
  | .cacheUnlock _ => true
  | .cacheDisable => true
  | .cacheCleaningDone => true
  | .cacheEnable => true
  | .bcForceDataParity => true
  | .bcForceTwinParity => true
  | .bar2Access _ _ _ _ => true
  | .memoryReadReturn _ _ _ _ _ _ _ => true
  | .parityRepair _ _ => true
  | .refreshDue _ _ => true
  | .dramTempPoll _ => true
  | .pointChangeBegin => true
  | .pointChangeDrained => true
  | .scrubRead => true
  | .scrubRestart => true
  | .intForceParity => true
  | .mramRecordWrite => true
  | .mramWriteDone _ => true
  | .countersSaveHourly => true
  | .discPresentChange _ carts => decide (carts.length = 4)
  | .dmpDiscover _ reqId _ => decide (reqId < 0x100000000)
  | .dmpUnitQuery _ reqId u => decide (reqId < 0x100000000) && decide (u < 256)
  | .dmpUnitRequest _ reqId u code epoch => decide (reqId < 0x100000000) && decide (u < 256) && decide (code < 256) && decide (epoch < 0x100000000)
  | .dmpCalibrate _ reqId u code scope => decide (reqId < 0x100000000) && decide (u < 256) && decide (code < 256) && decide (scope < 0x100000000)
  | .dmpSelfTest _ reqId u code scope => decide (reqId < 0x100000000) && decide (u < 256) && decide (code < 256) && decide (scope < 0x100000000)
  | .dmpVolumeInfo _ reqId v => decide (reqId < 0x100000000) && decide (v < 256)
  | .policyGet _ reqId _ => decide (reqId < 0x100000000)
  | .policySet _ reqId _ _ => decide (reqId < 0x100000000)
  | .netSet _ reqId _ => decide (reqId < 0x100000000)
  | .netSetApply => true
  | .regRead _ reqId _ _ => decide (reqId < 0x100000000)
  | .eventSubscribe _ reqId mask fromSeq => decide (reqId < 0x100000000) && decide (mask < 0x100000000) && decide (fromSeq < 0x10000000000000000)
  | .subscriberExpiry _ _ => true
  | .eventRead _ reqId fromSeq _ => decide (reqId < 0x100000000) && decide (fromSeq < 0x10000000000000000)
  | .imageBegin _ reqId _ => decide (reqId < 0x100000000)
  | .imageData _ reqId _ _ => decide (reqId < 0x100000000)
  | .imageEnd _ reqId => decide (reqId < 0x100000000)
  | .imageCmd _ reqId _ => decide (reqId < 0x100000000)
  | .dmpDuplicateExpiry _ _ _ => true
  | .i3cPrivateWrite _ => true
  | .i3cPrivateRead => true
  | .enec events => decide (events < 256)
  | .disec events => decide (events < 256)
  | .rstdaa => true
  | .entdaa a => decide (a < 128)
  | .setdasa static a => decide (static < 128) && decide (a < 128)
  | .getpid => true
  | .getbcr => true
  | .getdcr => true
  | .getstatus => true
  | .getmwl => true
  | .getmrl => true
  | .setmwl n => decide (n < 65536)
  | .setmrl n => decide (n < 65536)
  | .ptpSync _ => true
  | .mgtLogRdWrite v => decide (v < 0x10000000000000000)
  | .linkTrainDone lanes => decide (lanes < 256)
  | .linkTrainRetry => true
  | .laneError lane => decide (lane < 8)
  | .jokorFrame _ => true
  | .pairHello role digest _ _ _ _ => decide (role < 4) && decide (digest.length = 12)
  | .heartbeatSend => true
  | .heartbeatReceive _ => true
  | .partnerLost => true
  | .bootWaitExpiry _ => true
  | .ownNetHigh _ _ => true
  | .claimTimeout => true
  | .peerResetRelease => true
  | .handover key => decide (key < 256)
  | .handoverMessage => true
  | .handoverAck => true
  | .handoverTimeout => true
  | .peerReset key => decide (key < 256)
  | .peerResetEnd => true
  | .forwardedCommand _ => true
  | .journalEntry _ => true
  | .journalAck _ => true
  | .forwardResult _ => true
  | .mirrorReceive _ => true
  | .mirrorAck _ => true
  | .pairSettleEnd => true
  | .partnerDetach => true
  | .resyncComplete => true
  | .pairApplyValidated _ _ => true
  | .pairApplyWaitEnd => true
  | .regacc _ => true
  | .extest => true
  | .idcode => true
  | .samplePreload _ _ => true
  | .highz => true
  | .clamp => true
  | .extestPulse => true
  | .extestTrain => true
  | .bypass code => decide (code < 256)
  | .registerWrite f off _ v => decide (f < 64) && decide (off < 0x4000000) && decide (v < 0x10000000000000000)
  | .rcCounterRead f off _ => decide (f < 64) && decide (off < 0x4000000)
  | .reg64LoRead f off _ => decide (f < 64) && decide (off < 0x4000000)
  | .configurationRequest f _ => decide (f < 64)
  | .pcieRefPresent => true
  | .sgmiiLinkChange _ => true
  | .addrChange v6 a => decide (a.length = (if v6 then 16 else 4))
  | .ptpLost => true
  | .ownerLinkWaitExpiry _ => true
  | .dmpMessageDropped a q _ => decide (a < 0x100000000) && decide (q < 65536)
  | .servoConversionSlot m codes => decide (m < 8) && decide (codes.length = 16)
  | .dacUpdate => true

end Sys2Proof
end

