-- ==== Sys2Proof/Tests/Slice0.lean ====
section
/-! SUPPORT. Tests: the checks of WellFormed, a witness for the premises of each statement, and single steps. -/

namespace Sys2Proof.Tests

open Sys2Proof Sys2Proof.Machine Sys2Proof.Safety

/-! ### WellFormed -/

/-- Each term has one operand at the first value that its check refuses. -/
theorem test_wellFormed_refuses_1 : ([.resetNRise 16384,
    .arm (List.replicate 5 default),
    .thermalSensorRead (List.replicate 9 default),
    .apply 256,
    .progA 256,
    .progB 256,
    .burnKey 256,
    .burnEnforce 256,
    .burnNorom 256,
    .burnRevoke 256 3,
    .burnRevoke 255 4,
    .slotStart 32 0 0 0 0 default,
    .zoneSeedFetch 4 0 0,
    .zoneSeedReady 4,
    .timingLost 32 0,
    .segmentEnd 32,
    .wedgeCrossing 32 95 0 none,
    .wedgeCrossing 31 96 0 none,
    .wedgeMissRev 32,
    .defectFlagStart 32 0] : List Instr).all (fun i => !i.wellFormed) = true := by decide

/-- Each term has one operand at the first value that its check refuses. -/
theorem test_wellFormed_refuses_2 : ([.defectFlagEnd 32 0,
    .sectorDelivery 32 0 default,
    .chnForceSyncMiss 32,
    .chnForceDefect 32,
    .poolJobDispatch false 12,
    .poolJobComplete false 12,
    .skeinEngineComplete 2,
    .passStart 4,
    .preRead 4 none,
    .passWriteEnd 4,
    .verifyRevolutionEnd 4,
    .pdlFrame 4 0,
    .drvStatusPoll 4 0,
    .wrpPdlCmd 4 0,
    .hankDispatch 6,
    .hankCodeComplete 6 false,
    .hankDecompressComplete 6 false,
    .hankRestore 6,
    .hankRestoreDone 6 false,
    .loopOverrun 32] : List Instr).all (fun i => !i.wellFormed) = true := by decide

/-- Each term has one operand at the first value that its check refuses. -/
theorem test_wellFormed_refuses_3 : ([.loopLostLock 32,
    .loopFault 32,
    .carriageReacquireTimeout 4,
    .loopEnable 32,
    .loopDisable 32,
    .loopSwap 32,
    .loopPark 32,
    .loopClrFault 32,
    .loopFollow 32 false,
    .coefDataAccess 32 none,
    .lpeForceOvr 32 false,
    .traceInEdge 4 0 false,
    .traceLost 4,
    .spnComparatorEdge 3 false,
    .sledPwmSample 4 0 0,
    .profileTick 4,
    .stepTimerExpiry 4,
    .homeEdge 4 false,
    .homingFail 4,
    .seekRequest 4 0 0] : List Instr).all (fun i => !i.wellFormed) = true := by decide

/-- Each term has one operand at the first value that its check refuses. -/
theorem test_wellFormed_refuses_4 : ([.seekSettleDone 4,
    .capture 4,
    .captureTimeout 4,
    .fineDone 4,
    .layerJumpDone 4,
    .turnJumpDone 4,
    .crgCmdSeek 4 31 16383,
    .crgCmdSeek 3 32 16383,
    .crgCmdSeek 3 31 16384,
    .crgCmdHome 4,
    .crgCmdMove 4,
    .crgClrFault 4,
    .crgForceSlip 4,
    .camEngage 64 false,
    .camTimeReset 64,
    .doorbell 64 0 0 18446744073709551615,
    .doorbell 63 0 0 18446744073709551616,
    .ringInvalidate 64 0,
    .ringQuery 64 0,
    .msixUnmask 64 none] : List Instr).all (fun i => !i.wellFormed) = true := by decide

/-- Each term has one operand at the first value that its check refuses. -/
theorem test_wellFormed_refuses_5 : ([.flr 64,
    .flrEnd 64,
    .discPresentChange false (List.replicate 5 default),
    .dmpDiscover .i3c 4294967296 false,
    .dmpUnitQuery .i3c 4294967296 255,
    .dmpUnitQuery .i3c 4294967295 256,
    .dmpUnitRequest .i3c 4294967296 255 255 4294967295,
    .dmpUnitRequest .i3c 4294967295 256 255 4294967295,
    .dmpUnitRequest .i3c 4294967295 255 256 4294967295,
    .dmpUnitRequest .i3c 4294967295 255 255 4294967296,
    .dmpCalibrate .i3c 4294967296 255 255 4294967295,
    .dmpCalibrate .i3c 4294967295 256 255 4294967295,
    .dmpCalibrate .i3c 4294967295 255 256 4294967295,
    .dmpCalibrate .i3c 4294967295 255 255 4294967296,
    .dmpSelfTest .i3c 4294967296 255 255 4294967295,
    .dmpSelfTest .i3c 4294967295 256 255 4294967295,
    .dmpSelfTest .i3c 4294967295 255 256 4294967295,
    .dmpSelfTest .i3c 4294967295 255 255 4294967296,
    .dmpVolumeInfo .i3c 4294967296 255,
    .dmpVolumeInfo .i3c 4294967295 256] : List Instr).all (fun i => !i.wellFormed) = true := by decide

/-- Each term has one operand at the first value that its check refuses. -/
theorem test_wellFormed_refuses_6 : ([.policyGet .i3c 4294967296 0,
    .policySet .i3c 4294967296 0 0,
    .netSet .i3c 4294967296 [],
    .regRead .i3c 4294967296 0 0,
    .eventSubscribe .i3c 4294967296 4294967295 18446744073709551615,
    .eventSubscribe .i3c 4294967295 4294967296 18446744073709551615,
    .eventSubscribe .i3c 4294967295 4294967295 18446744073709551616,
    .eventRead .i3c 4294967296 18446744073709551615 0,
    .eventRead .i3c 4294967295 18446744073709551616 0,
    .imageBegin .i3c 4294967296 0,
    .imageData .i3c 4294967296 0 [],
    .imageEnd .i3c 4294967296,
    .imageCmd .i3c 4294967296 0,
    .enec 256,
    .disec 256,
    .entdaa 128,
    .setdasa 128 127,
    .setdasa 127 128,
    .setmwl 65536,
    .setmrl 65536] : List Instr).all (fun i => !i.wellFormed) = true := by decide

/-- Each term has one operand at the first value that its check refuses. -/
theorem test_wellFormed_refuses_7 : ([.mgtLogRdWrite 18446744073709551616,
    .linkTrainDone 256,
    .laneError 8,
    .pairHello 4 (List.replicate 12 default) 0 0 false false,
    .pairHello 3 (List.replicate 13 default) 0 0 false false,
    .handover 256,
    .peerReset 256,
    .bypass 256,
    .registerWrite 64 67108863 0 18446744073709551615,
    .registerWrite 63 67108864 0 18446744073709551615,
    .registerWrite 63 67108863 0 18446744073709551616,
    .rcCounterRead 64 67108863 0,
    .rcCounterRead 63 67108864 0,
    .reg64LoRead 64 67108863 0,
    .reg64LoRead 63 67108864 0,
    .configurationRequest 64 default,
    .addrChange false (List.replicate 5 default),
    .dmpMessageDropped 4294967296 65535 [],
    .dmpMessageDropped 4294967295 65536 [],
    .servoConversionSlot 8 (List.replicate 16 default)] : List Instr).all (fun i => !i.wellFormed) = true := by decide

/-- Each term has one operand at the first value that its check refuses. -/
theorem test_wellFormed_refuses_8 : ([.servoConversionSlot 7 (List.replicate 17 default)] : List Instr).all (fun i => !i.wellFormed) = true := by decide

/-- Each term has its operands at the last values that its checks admit. -/
theorem test_wellFormed_admits_1 : ([.resetNRise 16383,
    .arm (List.replicate 4 default),
    .thermalSensorRead (List.replicate 8 default),
    .apply 255,
    .progA 255,
    .progB 255,
    .burnKey 255,
    .burnEnforce 255,
    .burnNorom 255,
    .burnRevoke 255 3,
    .slotStart 31 0 0 0 0 default,
    .zoneSeedFetch 3 0 0,
    .zoneSeedReady 3,
    .timingLost 31 0,
    .segmentEnd 31,
    .wedgeCrossing 31 95 0 none,
    .wedgeMissRev 31,
    .defectFlagStart 31 0,
    .defectFlagEnd 31 0,
    .sectorDelivery 31 0 default] : List Instr).all (fun i => i.wellFormed) = true := by decide

/-- Each term has its operands at the last values that its checks admit. -/
theorem test_wellFormed_admits_2 : ([.chnForceSyncMiss 31,
    .chnForceDefect 31,
    .poolJobDispatch false 11,
    .poolJobComplete false 11,
    .skeinEngineComplete 1,
    .passStart 3,
    .preRead 3 none,
    .passWriteEnd 3,
    .verifyRevolutionEnd 3,
    .pdlFrame 3 0,
    .drvStatusPoll 3 0,
    .wrpPdlCmd 3 0,
    .hankDispatch 5,
    .hankCodeComplete 5 false,
    .hankDecompressComplete 5 false,
    .hankRestore 5,
    .hankRestoreDone 5 false,
    .loopOverrun 31,
    .loopLostLock 31,
    .loopFault 31] : List Instr).all (fun i => i.wellFormed) = true := by decide

/-- Each term has its operands at the last values that its checks admit. -/
theorem test_wellFormed_admits_3 : ([.carriageReacquireTimeout 3,
    .loopEnable 31,
    .loopDisable 31,
    .loopSwap 31,
    .loopPark 31,
    .loopClrFault 31,
    .loopFollow 31 false,
    .coefDataAccess 31 none,
    .lpeForceOvr 31 false,
    .traceInEdge 3 0 false,
    .traceLost 3,
    .spnComparatorEdge 2 false,
    .sledPwmSample 3 0 0,
    .profileTick 3,
    .stepTimerExpiry 3,
    .homeEdge 3 false,
    .homingFail 3,
    .seekRequest 3 0 0,
    .seekSettleDone 3,
    .capture 3] : List Instr).all (fun i => i.wellFormed) = true := by decide

/-- Each term has its operands at the last values that its checks admit. -/
theorem test_wellFormed_admits_4 : ([.captureTimeout 3,
    .fineDone 3,
    .layerJumpDone 3,
    .turnJumpDone 3,
    .crgCmdSeek 3 31 16383,
    .crgCmdHome 3,
    .crgCmdMove 3,
    .crgClrFault 3,
    .crgForceSlip 3,
    .camEngage 63 false,
    .camTimeReset 63,
    .doorbell 63 0 0 18446744073709551615,
    .ringInvalidate 63 0,
    .ringQuery 63 0,
    .msixUnmask 63 none,
    .flr 63,
    .flrEnd 63,
    .discPresentChange false (List.replicate 4 default),
    .dmpDiscover .i3c 4294967295 false,
    .dmpUnitQuery .i3c 4294967295 255] : List Instr).all (fun i => i.wellFormed) = true := by decide

/-- Each term has its operands at the last values that its checks admit. -/
theorem test_wellFormed_admits_5 : ([.dmpUnitRequest .i3c 4294967295 255 255 4294967295,
    .dmpCalibrate .i3c 4294967295 255 255 4294967295,
    .dmpSelfTest .i3c 4294967295 255 255 4294967295,
    .dmpVolumeInfo .i3c 4294967295 255,
    .policyGet .i3c 4294967295 0,
    .policySet .i3c 4294967295 0 0,
    .netSet .i3c 4294967295 [],
    .regRead .i3c 4294967295 0 0,
    .eventSubscribe .i3c 4294967295 4294967295 18446744073709551615,
    .eventRead .i3c 4294967295 18446744073709551615 0,
    .imageBegin .i3c 4294967295 0,
    .imageData .i3c 4294967295 0 [],
    .imageEnd .i3c 4294967295,
    .imageCmd .i3c 4294967295 0,
    .enec 255,
    .disec 255,
    .entdaa 127,
    .setdasa 127 127,
    .setmwl 65535,
    .setmrl 65535] : List Instr).all (fun i => i.wellFormed) = true := by decide

/-- Each term has its operands at the last values that its checks admit. -/
theorem test_wellFormed_admits_6 : ([.mgtLogRdWrite 18446744073709551615,
    .linkTrainDone 255,
    .laneError 7,
    .pairHello 3 (List.replicate 12 default) 0 0 false false,
    .handover 255,
    .peerReset 255,
    .bypass 255,
    .registerWrite 63 67108863 0 18446744073709551615,
    .rcCounterRead 63 67108863 0,
    .reg64LoRead 63 67108863 0,
    .configurationRequest 63 default,
    .addrChange false (List.replicate 4 default),
    .dmpMessageDropped 4294967295 65535 [],
    .servoConversionSlot 7 (List.replicate 16 default)] : List Instr).all (fun i => i.wellFormed) = true := by decide

end Sys2Proof.Tests
end

section
/-! The scope of chapter 00: the CRC-32C of R9, the status classes of R16, and the accesses of BAR0 and of configuration space
(R10, R14, R15, R337, R367, R470, R551). -/

namespace Sys2Proof.Proofs

open Sys2Proof Sys2Proof.Machine Sys2Proof.Safety

/-- A command completes with whatever holds at the end of its effect. -/
theorem completes_of_done {i : Instr} {s t : State} {P : State → Prop} (h : exec i s = done s t) (hP : P (finish s t)) :
    completes i s P := ⟨finish s t, h, hP⟩

theorem completes_mono {i : Instr} {s : State} {P Q : State → Prop} (h : completes i s P) (hPQ : ∀ t, P t → Q t) :
    completes i s Q := by
  obtain ⟨t, ht, hP⟩ := h
  exact ⟨t, ht, hPQ t hP⟩

/-! ### The CRC-32C against its definition (R9) -/

/-- One message bit into the reflected register. -/
def shiftIn (c : BitVec 32) (b : Bool) : BitVec 32 := if c.getLsbD 0 != b then (c >>> 1) ^^^ 0x82F63B78#32 else c >>> 1

/-- One message bit into the register of the definition, whose top bit leads. -/
def shiftInTop (r : BitVec 32) (b : Bool) : BitVec 32 := if r.getLsbD 31 != b then (r <<< 1) ^^^ 0x1EDC6F41#32 else r <<< 1

/-- The bits of a byte, the lowest first. -/
def byteBits (b : Byte) : List Bool := (List.range 8).map b.getLsbD

theorem crcReference_eq (bs : List Byte) :
    crcReference bs = ((bs.flatMap byteBits).foldl shiftInTop 0xFFFFFFFF#32).reverse ^^^ 0xFFFFFFFF#32 := rfl

/-- Bits above the lowest wait in the register: a bit step consumes the lowest and moves the others down. -/
theorem crcBit_xor (c x : BitVec 32) : crcBit (c ^^^ x) = shiftIn c (x.getLsbD 0) ^^^ (x >>> 1) := by
  have hx : (c ^^^ x) >>> 1 = (c >>> 1) ^^^ (x >>> 1) := BitVec.ushiftRight_xor_distrib c x 1
  have hcomm : (c >>> 1) ^^^ (x >>> 1) ^^^ 0x82F63B78#32 = (c >>> 1) ^^^ 0x82F63B78#32 ^^^ (x >>> 1) := by ac_rfl
  unfold crcBit shiftIn
  rw [hx, BitVec.getLsbD_xor, hcomm]
  change (if (c.getLsbD 0 != x.getLsbD 0) = true then _ else _) = _
  split <;> rfl

/-- The n bit steps of a word XORed into the register take its n low bits in turn. -/
theorem crcBits_xor (n : Nat) (c x : BitVec 32) :
    crcBits n (c ^^^ x) = ((List.range n).map x.getLsbD).foldl shiftIn c ^^^ (x >>> n) := by
  induction n generalizing c x with
  | zero => simp [crcBits]
  | succ n ih =>
    have hbits : (List.range n).map (x >>> 1).getLsbD = (List.range n).map (fun i => x.getLsbD (i + 1)) :=
      List.map_congr_left fun i _ => by rw [BitVec.getLsbD_ushiftRight, Nat.add_comm]
    rw [crcBits, crcBit_xor, ih, hbits, ← BitVec.shiftRight_add, Nat.add_comm 1 n, List.range_succ_eq_map, List.map_cons,
      List.map_map, List.foldl_cons]
    rfl

theorem crcBits_byte (c : BitVec 32) (b : Byte) : crcBits 8 (c ^^^ b.zeroExtend 32) = (byteBits b).foldl shiftIn c := by
  have hbits : (List.range 8).map (b.zeroExtend 32).getLsbD = byteBits b :=
    List.map_congr_left fun i hi => by
      have : i < 32 := by have := List.mem_range.1 hi; omega
      simp [this]
  have hrest : b.zeroExtend 32 >>> 8 = 0#32 := by
    apply BitVec.eq_of_toNat_eq
    have := b.isLt
    simp [BitVec.toNat_ushiftRight, Nat.shiftRight_eq_div_pow]
    omega
  rw [crcBits_xor, hbits, hrest, BitVec.xor_zero]

theorem crcRun_eq_foldl (c : BitVec 32) (bs : List Byte) : crcRun c bs = (bs.flatMap byteBits).foldl shiftIn c := by
  induction bs generalizing c with
  | nil => rfl
  | cons b bs ih => rw [crcRun, crcBits_byte, ih, List.flatMap_cons, List.foldl_append]

theorem reverse_shiftLeft_one (r : BitVec 32) : (r <<< 1).reverse = r.reverse >>> 1 := by
  apply BitVec.eq_of_getLsbD_eq
  intro i hi
  rw [BitVec.getLsbD_reverse, BitVec.getLsbD_ushiftRight, BitVec.getLsbD_reverse, BitVec.getMsbD_shiftLeft, Nat.add_comm]

theorem reverse_xor (x y : BitVec 32) : (x ^^^ y).reverse = x.reverse ^^^ y.reverse := by
  apply BitVec.eq_of_getLsbD_eq
  intro i _
  simp only [BitVec.getLsbD_reverse, BitVec.getLsbD_xor, BitVec.getMsbD_xor]

/-- The polynomial reflected. -/
theorem reverse_polynomial : (0x1EDC6F41#32).reverse = 0x82F63B78#32 := by
  apply BitVec.eq_of_getLsbD_eq
  simp only [BitVec.getLsbD_reverse]
  decide

theorem reverse_ones : (0xFFFFFFFF#32).reverse = 0xFFFFFFFF#32 := by
  apply BitVec.eq_of_getLsbD_eq
  simp only [BitVec.getLsbD_reverse]
  decide

/-- The two registers mirror each other through every bit. -/
theorem reverse_shiftInTop (r : BitVec 32) (b : Bool) : (shiftInTop r b).reverse = shiftIn r.reverse b := by
  have htop : r.reverse.getLsbD 0 = r.getLsbD 31 := by rw [BitVec.getLsbD_reverse, BitVec.getMsbD_eq_getLsbD]; simp
  unfold shiftInTop shiftIn
  rw [htop]
  split
  · rw [reverse_xor, reverse_shiftLeft_one, reverse_polynomial]
  · exact reverse_shiftLeft_one r

theorem reverse_foldl_shiftInTop (l : List Bool) (r : BitVec 32) :
    (l.foldl shiftInTop r).reverse = l.foldl shiftIn r.reverse := by
  induction l generalizing r with
  | nil => rfl
  | cons b l ih => rw [List.foldl_cons, ih, reverse_shiftInTop, List.foldl_cons]

theorem crc32c_eq_crcReference (bs : List Byte) : crc32c bs = (crcReference bs).toNat := by
  rw [crc32c, crcReference_eq, reverse_foldl_shiftInTop, reverse_ones, crcRun_eq_foldl]

theorem crcBits_eight (c : BitVec 32) :
    crcBits 8 c = crcBit (crcBit (crcBit (crcBit (crcBit (crcBit (crcBit (crcBit c))))))) := rfl

/-- The check value: the ASCII bytes 123456789. -/
theorem crc32c_checkValue :
    crc32c [0x31#8, 0x32#8, 0x33#8, 0x34#8, 0x35#8, 0x36#8, 0x37#8, 0x38#8, 0x39#8] = 0xE3069283 := by
  simp only [crc32c, crcRun]
  simp [crcBits_eight, crcBit]

/-- The stored form of a 32-bit quantity (R8). -/
theorem leBytes_four (x : Nat) :
    leBytes 4 x = [BitVec.ofNat 8 x, BitVec.ofNat 8 (x / 0x100), BitVec.ofNat 8 (x / 0x10000), BitVec.ofNat 8 (x / 0x1000000)] := by
  simp only [leBytes, Nat.div_div_eq_div_mul]

/-- Settles O30: the reflected register of the model mirrors the one of the definition at every bit. -/
theorem crc32cIsTheReference : Obligations.Crc32cIsTheReference := by
  unfold Obligations.Crc32cIsTheReference
  exact ⟨crc32c_eq_crcReference, crc32c_checkValue, fun bs => leBytes_four (crc32c bs), fun _ _ => rfl⟩

/-! ### The classes of the statuses (R16) -/

/-- Settles O33: each row of Table 11-12 lies in its class of Table 00-5. -/
theorem statusClassesOfTheTable : Obligations.StatusClassesOfTheTable := by
  unfold Obligations.StatusClassesOfTheTable
  intro st
  cases st <;> decide

/-! ### Accesses of BAR0 of another width or alignment (R14) -/

/-- A command whose effect changes nothing leaves everything but the output levels. -/
theorem onlyRegisters_finish_self (s : State) : onlyRegisters s (finish s s) := by simp [onlyRegisters]

theorem regsKeptBut_of_regs {s t : State} (S : List Nat) (h : t.regs = s.regs) : regsKeptBut S s t := fun off _ => getReg_congr h off

/-- Outside the MSI-X structures an access reaches a register or nothing (R545). -/
theorem target_ne_msix {f off : Nat} (h : if f = 0 then off < 0x30000 ∨ 0x38100 ≤ off else 0x8100 ≤ off) (s : State) (o : Nat) :
    target s f off ≠ some (.inr o) := by
  unfold target
  by_cases hf : f = 0
  · rw [if_pos hf] at h ⊢
    have hout : ¬ (0x30000 ≤ off ∧ off < 0x38100) := by omega
    simp only [Bool.and_eq_true, decide_eq_true_eq, if_neg hout]
    split <;> simp
  · rw [if_neg hf] at h ⊢
    have hout : ¬ off < 0x8100 := by omega
    rw [if_neg hout]
    split
    · simp
    · split <;> simp

section
variable {s : State} {f off size : Nat} (hm : ∀ o, target s f off ≠ some (.inr o)) (hw : size ≠ 4 ∨ off % 4 ≠ 0)
include hm hw

theorem barWrite_missized (v : Nat) : barWrite f off size v s = s := by
  unfold barWrite
  split
  · rfl
  · rename_i o h; exact absurd h (hm o)
  · simp [hw]

theorem barValue_missized : barValue s f off size = 0 := by
  unfold barValue
  split
  · rfl
  · rename_i o h; exact absurd h (hm o)
  · simp [hw]

theorem barRead_missized : barRead f off size s = emit (.regData off 0) s := by
  have hne : ¬ (size = 4 ∧ off % 4 = 0) := by omega
  unfold barRead
  rw [barValue_missized hm hw]
  dsimp only
  split
  · simp only [Bool.and_eq_true, decide_eq_true_eq, if_neg hne]
  · rfl

end

/-- A command that answers a read with n and does nothing else. -/
theorem completes_of_answer {i : Instr} {s : State} {off n : Nat} (h : exec i s = done s (emit (.regData off n) s)) :
    completes i s (fun t => t.out = s.out ++ [.regData off n] ∧ regsKeptBut [] s t ∧ t.host = s.host ∧ t.mem = s.mem) :=
  completes_of_done h ⟨by simp, regsKeptBut_of_regs _ (by simp), by simp, by simp⟩

/-- Settles O31: such an access never passes the width check of barWrite and of barRead. -/
theorem missizedAccessesHaveNoEffect : Obligations.MissizedAccessesHaveNoEffect := by
  unfold Obligations.MissizedAccessesHaveNoEffect
  intro s f off size v hw hout
  have hm := target_ne_msix hout s
  have hread : done s (barRead f off size s) = done s (emit (.regData off 0) s) := by rw [barRead_missized hm hw]
  refine ⟨?write, completes_of_answer hread, completes_of_answer hread⟩
  case write =>
    have heff : exec (.registerWrite f off size v) s = done s s := congrArg (done s) (barWrite_missized hm hw v)
    exact completes_of_done heff ⟨regsKeptBut_of_regs _ (by simp), onlyRegisters_finish_self s⟩

/-! ### A write under the access types (R10) -/

theorem getLsbD_wordPut (w : Word) (hi lo v j : Nat) (hj : j < 32) :
    (wordPut w hi lo v).getLsbD j = if lo ≤ j ∧ j ≤ hi then v.testBit (j - lo) else w.getLsbD j :=
  testBit_wordPut w hi lo v j hj

theorem testBit_wordBits (w : Word) {hi lo j : Nat} (h : lo ≤ j ∧ j ≤ hi) : (wordBits w hi lo).testBit (j - lo) = w.getLsbD j := by
  have hlt : j - lo < hi + 1 - lo := by omega
  have hj : lo + (j - lo) = j := by omega
  rw [wordBits, testBit_bits, hj]
  simp [hlt, BitVec.getLsbD]

/-- The mask of the fields that read back, one field added. -/
def addMask (w : Word) (f : RegField) : Word := if f.acc = .wo then w else wordPut w f.hi f.lo (2 ^ (f.hi + 1 - f.lo) - 1)

theorem readMask_eq (r : RegRow) : readMask r = r.fields.foldl addMask 0#32 := rfl

/-- A write-1-to-clear field widens the set of bits that the written ones clear by its own. -/
theorem storeField_w1c {f : RegField} (hf : f.acc = .w1c) (b : Bool) (v x m : Word) :
    storeField b v (x &&& ~~~(v &&& m)) f = x &&& ~~~(v &&& addMask m f) := by
  apply BitVec.eq_of_getLsbD_eq
  intro j hj
  simp only [storeField, addMask, hf, reduceCtorEq, if_false, BitVec.getLsbD_and, BitVec.getLsbD_not, hj, decide_true,
    Bool.true_and, getLsbD_wordPut _ _ _ _ _ hj, Nat.testBit_two_pow_sub_one]
  by_cases h : f.lo ≤ j ∧ j ≤ f.hi
  · have hlt : j - f.lo < f.hi + 1 - f.lo := by omega
    simp only [if_pos h, testBit_wordBits v h, hlt, decide_true]
    cases x.getLsbD j <;> cases v.getLsbD j <;> cases m.getLsbD j <;> rfl
  · simp [if_neg h]

theorem foldl_storeField_w1c {fs : List RegField} (hfs : ∀ f ∈ fs, f.acc = .w1c) (b : Bool) (v x m : Word) :
    fs.foldl (storeField b v) (x &&& ~~~(v &&& m)) = x &&& ~~~(v &&& fs.foldl addMask m) := by
  induction fs generalizing m with
  | nil => rfl
  | cons f fs ih =>
    obtain ⟨hf, hrest⟩ := List.forall_mem_cons.1 hfs
    rw [List.foldl_cons, storeField_w1c hf, ih hrest, List.foldl_cons]

/-- A register of write-1-to-clear fields alone loses the bits written as 1. -/
theorem storeWord_w1c {r : RegRow} (hr : ∀ f ∈ r.fields, f.acc = .w1c) (s : State) (off : Nat) (v : Word) :
    storeWord s r off v = getReg s off &&& ~~~(v &&& readMask r) := by
  have h := foldl_storeField_w1c hr (decide (stage s < 6)) v (getReg s off) 0#32
  have hnone : getReg s off &&& ~~~(v &&& 0#32) = getReg s off := by rw [BitVec.and_zero, BitVec.not_zero, BitVec.and_allOnes]
  rwa [hnone] at h

theorem barWrite_plain {s : State} {off : Nat} {r : RegRow} (hr : reached s off) (hh : halted s = false) (hp : plainReg off)
    (hrow : rowOf off = some r) (v : Nat) :
    barWrite 0 off 4 v s = setReg off (storeWord s r off (BitVec.ofNat 32 v)) s := by
  obtain ⟨htarget, halign⟩ := hr
  have hstore : ∀ w, storeReg off w s = setReg off (storeWord s r off w) s := fun w => by simp [storeReg, hrow]
  simp [barWrite, htarget, halign, hh, hp _ s, hstore]

theorem regsKeptBut_finish_setReg (off : Nat) (w : Word) (s : State) : regsKeptBut [off] s (finish s (setReg off w s)) := by
  intro o ho
  have hne : off ≠ o := by rintro rfl; simp at ho
  rw [getReg_finish, getReg_setReg_ne hne]

theorem completes_plainWrite {s : State} {off : Nat} {r : RegRow} (hr : reached s off) (hh : halted s = false) (hp : plainReg off)
    (hrow : rowOf off = some r) (v : Nat) :
    completes (.registerWrite 0 off 4 v) s (fun t => getReg t off = storeWord s r off (BitVec.ofNat 32 v) ∧ regsKeptBut [off] s t ∧
      t.out = s.out ∧ memoryKept s t ∧ ((∀ f ∈ r.fields, f.acc = .w1c) →
        getReg t off = getReg s off &&& ~~~ (BitVec.ofNat 32 v &&& readMask r))) := by
  have heff : exec (.registerWrite 0 off 4 v) s = done s (setReg off (storeWord s r off (BitVec.ofNat 32 v)) s) :=
    congrArg (done s) (barWrite_plain hr hh hp hrow v)
  refine completes_of_done heff ⟨by simp, regsKeptBut_finish_setReg off _ s, by simp, by simp [memoryKept], fun hw => ?_⟩
  rw [← storeWord_w1c hw, getReg_finish, getReg_setReg_same]

/-! ### Reads of RC counts and of the halves of 64-bit quantities (R10, R15, R551) -/

theorem barRead_reached {s : State} {off : Nat} (hr : reached s off) :
    barRead 0 off 4 s = emit (.regData off (barValue s 0 off 4)) (readEffect off s) := by
  obtain ⟨htarget, halign⟩ := hr
  simp [barRead, htarget, halign]

theorem barValue_reached {s : State} {off : Nat} (hr : reached s off) (hhigh : isHigh off = false) :
    barValue s 0 off 4 = (regValue s off).toNat := by
  obtain ⟨htarget, halign⟩ := hr
  simp [barValue, htarget, halign, hhigh]

/-- The held copy of the high half is what the next read of it answers (R15). -/
theorem barValue_held {s : State} {off : Nat} {w : Word} (hr : reached s off) (hhigh : isHigh off = true)
    (hw : Tbl.get none (off - 4) s.host.hiHold = some w) : barValue s 0 off 4 = w.toNat := by
  obtain ⟨htarget, halign⟩ := hr
  simp [barValue, htarget, halign, hhigh, hw]

/-- The state in which an RC count is cleared: a CNT register's count is kept for the lifetime totals first (R446). -/
def beforeClear (off : Nat) (s : State) : State := if isCnt off then carryCount off s else s

theorem readEffect_rc {off : Nat} (hlow : isLow off = false) (hhigh : isHigh off = false) (hrc : isRc off = true) (s : State) :
    readEffect off s = setReg off 0#32 (beforeClear off s) := by
  simp [readEffect, hlow, hhigh, hrc, beforeClear]

theorem beforeClear_regs (off : Nat) (s : State) : (beforeClear off s).regs = s.regs := by
  unfold beforeClear; split <;> rfl

theorem beforeClear_out (off : Nat) (s : State) : (beforeClear off s).out = s.out := by
  unfold beforeClear; split <;> rfl

theorem accrued_congr {s t : State} {off : Nat} (hm : t.mram = s.mram) (hr : getReg t off = getReg s off) :
    accrued t off = accrued s off := by simp [accrued, hm, hr]

/-- Clearing a count after it was carried over loses none of it. -/
theorem accrued_setReg_carryCount (off : Nat) (s : State) : accrued (setReg off 0#32 (carryCount off s)) off = accrued s off := by
  have h : ∀ t : State, getReg t off = 0#32 → t.mram = (carryCount off s).mram → accrued t off = accrued s off := by
    intro t hreg hmram
    simp [accrued, hreg, hmram, carryCount]
  exact h _ (by simp) (by simp)

theorem completes_rcRead {s : State} {off : Nat} (hr : reached s off) (hlow : isLow off = false) (hhigh : isHigh off = false)
    (hrc : isRc off = true) :
    completes (.rcCounterRead 0 off 4) s (fun t => getReg t off = 0#32 ∧ regsKeptBut [off] s t ∧
      t.out = s.out ++ [.regData off (regValue s off).toNat] ∧ (isCnt off = true → accrued t off = accrued s off)) := by
  have heff : exec (.rcCounterRead 0 off 4) s =
      done s (emit (.regData off (regValue s off).toNat) (setReg off 0#32 (beforeClear off s))) := by
    rw [← readEffect_rc hlow hhigh hrc, ← barValue_reached hr hhigh, ← barRead_reached hr]
    rfl
  refine completes_of_done heff ⟨by simp, fun o ho => ?kept, by simp [beforeClear_out], fun hc => ?carried⟩
  case kept =>
    have hne : off ≠ o := by rintro rfl; simp at ho
    rw [getReg_finish, getReg_emit, getReg_setReg_ne hne, getReg_congr (beforeClear_regs off s)]
  case carried =>
    rw [← accrued_setReg_carryCount off s, beforeClear, if_pos hc]
    exact accrued_congr (by simp) (by simp)

theorem completes_lowRead {s : State} {off : Nat} (hr : reached s off) (hlow : isLow off = true) (hhigh : isHigh off = false) :
    completes (.reg64LoRead 0 off 4) s (fun t => t.out = s.out ++ [.regData off (regValue s off).toNat] ∧
      Tbl.get none off t.host.hiHold = some (regValue s (off + 4)) ∧ t.regs = s.regs) := by
  have heff : exec (.reg64LoRead 0 off 4) s =
      done s (emit (.regData off (regValue s off).toNat) (putHigh off (some (regValue s (off + 4))) s)) := by
    have hread : readEffect off s = putHigh off (some (regValue s (off + 4))) s := by simp [readEffect, hlow]
    rw [← hread, ← barValue_reached hr hhigh, ← barRead_reached hr]
    rfl
  exact completes_of_done heff ⟨by simp [putHigh], by simp [putHigh], by simp [putHigh]⟩

theorem completes_highRead {s : State} {off : Nat} {w : Word} (hr : reached s off) (hlow : isLow off = false)
    (hhigh : isHigh off = true) (hw : Tbl.get none (off - 4) s.host.hiHold = some w) :
    completes (.reg64LoRead 0 off 4) s (fun t => t.out = s.out ++ [.regData off w.toNat] ∧
      Tbl.get none (off - 4) t.host.hiHold = none) := by
  have heff : exec (.reg64LoRead 0 off 4) s = done s (emit (.regData off w.toNat) (putHigh (off - 4) none s)) := by
    have hread : readEffect off s = putHigh (off - 4) none s := by simp [readEffect, hlow, hhigh]
    rw [← hread, ← barValue_held hr hhigh hw, ← barRead_reached hr]
    rfl
  exact completes_of_done heff ⟨by simp [putHigh], by simp [putHigh]⟩

/-! ### Configuration requests (R337, R367, R470) -/

/-- The link of the PF is up: no PERST_N, a reference, and past S1. -/
def linked (s : State) : Prop := s.pwr.perst = false ∧ s.pwr.refPresent = true ∧ 2 ≤ stage s

theorem configEff_retry {s : State} (hl : linked s) (hc : crsNow s = true) (f : Nat) (q : ConfigReq) :
    configEff f q s = emit (.config none) s := by
  obtain ⟨hperst, href, hstage⟩ := hl
  simp [configEff, hperst, href, hc, Nat.not_lt.2 hstage]

/-- The value that a request of the PF is answered with. -/
def configAnswer (s : State) : ConfigReq → Nat
  | .read off => configValue s 0 off
  | _ => 0

theorem exec_configurationRequest {s : State} (hl : linked s) (hc : crsNow s = false) (q : ConfigReq) :
    exec (.configurationRequest 0 q) s = done s (emit (.config (some (configAnswer s q))) (useFree (configWrite 0 q s))) := by
  obtain ⟨hperst, href, hstage⟩ := hl
  have heff : configEff 0 q s = emit (.config (some (configAnswer s q))) (useFree (configWrite 0 q s)) := by
    cases q <;> simp [configEff, hperst, href, hc, Nat.not_lt.2 hstage, fnVisible, configAnswer]
  exact congrArg (done s) heff

@[simp] theorem fnSt_modFn_same (f : Nat) (g : FnState → FnState) (s : State) : fnSt (modFn f g s) f = g (fnSt s f) :=
  Tbl.get_put_same _ _ _ _

theorem fnSt_congr {s t : State} (h : t.host = s.host) (f : Nat) : fnSt t f = fnSt s f := by simp [fnSt, h]

section
variable {s : State} (hl : linked s)
include hl

theorem completes_configRetry (hc : crsNow s = true) (f : Nat) (q : ConfigReq) :
    completes (.configurationRequest f q) s (fun t => t.out = s.out ++ [.config none] ∧ t.host = s.host ∧ t.regs = s.regs) := by
  have heff : exec (.configurationRequest f q) s = done s (emit (.config none) s) := congrArg (done s) (configEff_retry hl hc f q)
  exact completes_of_done heff (by simp)

variable (hc : crsNow s = false)
include hc

theorem completes_configIdentity : completes (.configurationRequest 0 (.read 0)) s (fun t =>
    t.out = s.out ++ [.config (some 0x91601F3B)] ∧ t.host = s.host) :=
  completes_of_done (exec_configurationRequest hl hc _) (by simp [configAnswer, configValue, configWrite])

/-- A request that changes the PF's PCIe state alone. -/
theorem completes_configModFn {q : ConfigReq} {g : FnState → FnState} (hq : configWrite 0 q s = modFn 0 g s) :
    completes (.configurationRequest 0 q) s (fun t => fnSt t 0 = g (fnSt s 0) ∧ t.regs = s.regs) := by
  refine completes_of_done (exec_configurationRequest hl hc q) ⟨?_, by simp [hq]⟩
  rw [hq, fnSt_congr (s := modFn 0 g s) (by simp), fnSt_modFn_same]

/-- A request leaves of the host's state what configWrite leaves. -/
theorem completes_configHost {q : ConfigReq} {P : HostState → Prop} (hP : P (configWrite 0 q s).host) :
    completes (.configurationRequest 0 q) s (fun t => P t.host) :=
  completes_of_done (exec_configurationRequest hl hc q) (by simpa using hP)

end

theorem configWrite_numVfs {s : State} {i : Image} {n : Nat} (hi : s.img.running = some i) (hv : s.host.vfEnable = false)
    (hn : n ≤ i.queues.vfCount) : (configWrite 0 (.numVfs n) s).host = { s.host with numVfs := n } := by
  simp [configWrite, hi, hv, Nat.not_lt.2 hn]

theorem configWrite_vfEnable {s : State} {i : Image} (hi : s.img.running = some i) (hn : 0 < i.queues.vfCount) :
    (configWrite 0 (.vfEnable true) s).host = { s.host with vfEnable := true } := by
  simp [configWrite, hi, Nat.ne_of_gt hn]

theorem configWrite_vfDisable {s : State} {i : Image} (hi : s.img.running = some i) (hn : 0 < i.queues.vfCount) :
    (configWrite 0 (.vfEnable false) s).host.vfEnable = false := by
  by_cases hv : s.host.vfEnable = true
  · simp [configWrite, hi, Nat.ne_of_gt hn, hv]
  · simp [configWrite, hi, Nat.ne_of_gt hn, hv]

/-- Settles O56: by the effect of each access and of each request. -/
theorem registerAndConfigurationAccesses : Obligations.RegisterAndConfigurationAccesses := by
  unfold Obligations.RegisterAndConfigurationAccesses
  intro s
  refine ⟨fun off v r hr hh hp hrow => completes_plainWrite hr hh hp hrow v,
    fun off hr hlow hhigh hrc => completes_rcRead hr hlow hhigh hrc,
    fun off hr hlow hhigh => completes_lowRead hr hlow hhigh,
    fun off w hr hlow hhigh hw => completes_highRead hr hlow hhigh hw,
    fun f q hperst href hstage hc => completes_configRetry ⟨hperst, href, hstage⟩ hc f q,
    fun hperst href hstage hc => ?answered⟩
  case answered =>
    have hl : linked s := ⟨hperst, href, hstage⟩
    refine ⟨completes_configIdentity hl hc, fun b => ⟨?busMaster, ?power⟩, fun i n hi => ⟨fun hv hn => ?numVfs, fun hn => ⟨?on, ?off⟩⟩⟩
    case busMaster =>
      exact completes_mono (completes_configModFn hl hc (g := fun x => { x with busMaster := b }) rfl)
        fun t ⟨hfn, hregs⟩ => ⟨by rw [hfn], hregs⟩
    case power =>
      exact completes_mono (completes_configModFn hl hc (g := fun x => { x with d3 := b }) rfl)
        fun t ⟨hfn, hregs⟩ => ⟨by rw [hfn], hregs⟩
    case numVfs => exact completes_configHost hl hc (P := (· = _)) (configWrite_numVfs hi hv hn)
    case on => exact completes_configHost hl hc (P := (· = _)) (configWrite_vfEnable hi hn)
    case off => exact completes_configHost hl hc (P := (HostState.vfEnable · = false)) (configWrite_vfDisable hi hn)

end Sys2Proof.Proofs
end

section
/-! Every step keeps the sizes of the tables (O34). Each operation of the model has one lemma, `tablesWhole.f` for the
operation `f`: it takes a state with whole tables to one. The lemmas stand in the namespace of the invariant, so that the
proof for an operation that calls others reads as the operation does, `h.setReg.bump.evt`. Only the lemmas at the head of
the section speak of the state's fields: `frame`, `mot`, `media`, `pool`, `chn` and `host` of changes beside the tables,
`newMot`, `newMedia`, `newPool`, `newChn` and `newHost` of changes of the tables. -/

namespace Sys2Proof.Safety
open Sys2Proof Sys2Proof.Machine

variable {s t : State}

/-- The tables of the motion system have their full sizes. -/
def motionWhole (x : MotionState) : Prop :=
  x.slots.length = 32 ∧ x.cars.length = 4 ∧ x.cams.length = 64 ∧ x.traces.length = 4 ∧ x.dacs.length = 20 ∧
    x.pd1.length = 48 ∧ x.pd2.length = 48

/-- The tables of the write path have their full sizes. -/
def mediaWhole (x : MediaState) : Prop := x.cars.length = 4 ∧ x.hank.engines.length = 6

/-- The tables of the decoder pool have their full sizes. -/
def poolWhole (x : PoolState) : Prop := x.engines.length = 12 ∧ x.redets.length = 8

/-- The invariant, by the parts of the state that hold the tables. -/
theorem tablesWhole_iff : tablesWhole s ↔
    s.chn.strands.length = 32 ∧ motionWhole s.mot ∧ mediaWhole s.media ∧ poolWhole s.pool ∧
      Tbl.sorted s.host.cmds = true := by
  simp only [tablesWhole, motionWhole, mediaWhole, poolWhole, and_assoc]

section
variable {regs : Tbl Word} {pwr : PowerState} {pins : PinState} {img : ImgState} {unt : UnitsState} {cal : CalState}
  {tap : TapState} {mgt : MgmtState} {mram : MramState} {mem : MemState} {bc : CacheState} {pair : PairState}
  {out : List Output} {free : Nat} {pending : List Instr}

/-- The parts of the state that hold no table may change as they like. -/
theorem tablesWhole.frame (h : tablesWhole s) :
    tablesWhole ⟨regs, pwr, pins, img, unt, cal, tap, mgt, mram, mem, bc, s.host, s.media, s.mot, s.chn, s.pool,
      pair, out, free, pending⟩ := h

/-- A change of the motion system that leaves its tables. -/
theorem tablesWhole.mot (h : tablesWhole s) {started period defects sledTarget vq vd commit spn wedge0} :
    tablesWhole ⟨regs, pwr, pins, img, unt, cal, tap, mgt, mram, mem, bc, s.host, s.media,
      ⟨started, period, s.mot.slots, s.mot.pd1, s.mot.pd2, defects, s.mot.traces, s.mot.dacs, sledTarget, vq, vd,
        s.mot.cams, commit, s.mot.cars, spn, wedge0⟩, s.chn, s.pool, pair, out, free, pending⟩ := h

/-- A change of the write path that leaves its tables. -/
theorem tablesWhole.media (h : tablesWhole s) {vols held nextHeld skeins nextKey openSkein openReloc disc queue places
      nextHank bufs relocs} :
    tablesWhole ⟨regs, pwr, pins, img, unt, cal, tap, mgt, mram, mem, bc, s.host,
      ⟨vols, held, nextHeld, skeins, nextKey, openSkein, openReloc, s.media.cars, disc,
        ⟨s.media.hank.engines, queue, places, nextHank, bufs⟩, relocs⟩,
      s.mot, s.chn, s.pool, pair, out, free, pending⟩ := h

/-- A change of the decoder pool that leaves its tables. -/
theorem tablesWhole.pool (h : tablesWhole s) {bufs waiting nextJob ladders recons nextId sengs sengQueue engDead
      redetDead sengDead cached weak assists l4 l4Ready disc} :
    tablesWhole ⟨regs, pwr, pins, img, unt, cal, tap, mgt, mram, mem, bc, s.host, s.media, s.mot, s.chn,
      ⟨s.pool.engines, s.pool.redets, bufs, waiting, nextJob, ladders, recons, nextId, sengs, sengQueue, engDead,
        redetDead, sengDead, cached, weak, assists, l4, l4Ready, disc⟩, pair, out, free, pending⟩ := h

/-- A change of the read channel that leaves its strands. -/
theorem tablesWhole.chn (h : tablesWhole s) {fetch zoneTable importMode} :
    tablesWhole ⟨regs, pwr, pins, img, unt, cal, tap, mgt, mram, mem, bc, s.host, s.media, s.mot,
      ⟨s.chn.strands, fetch, zoneTable, importMode⟩, s.pool, pair, out, free, pending⟩ := h

/-- A change of the host side that leaves the table of commands in flight. -/
theorem tablesWhole.host (h : tablesWhole s) {ctx doorbells loading starved clock fns msix vfEnable numVfs creditH
      creditM creditL cursor used posting fetchHold loHold hiHold loBad} :
    tablesWhole ⟨regs, pwr, pins, img, unt, cal, tap, mgt, mram, mem, bc,
      ⟨ctx, doorbells, loading, starved, clock, fns, msix, vfEnable, numVfs, creditH, creditM, creditL, cursor, used,
        s.host.cmds, posting, fetchHold, loHold, hiHold, loBad⟩,
      s.media, s.mot, s.chn, s.pool, pair, out, free, pending⟩ := h

/-- A change of the table of commands in flight that keeps its order; the lemmas that follow are about changes of the
other tables that keep their sizes. -/
theorem tablesWhole.newHost (h : tablesWhole s) {host : HostState}
    (e : Tbl.sorted s.host.cmds = true → Tbl.sorted host.cmds = true) :
    tablesWhole ⟨regs, pwr, pins, img, unt, cal, tap, mgt, mram, mem, bc, host, s.media, s.mot, s.chn, s.pool,
      pair, out, free, pending⟩ := by
  rw [tablesWhole_iff] at h ⊢
  obtain ⟨strands, motion, media, pool, cmds⟩ := h
  exact ⟨strands, motion, media, pool, e cmds⟩

theorem tablesWhole.newMedia (h : tablesWhole s) {media : MediaState}
    (e : mediaWhole s.media → mediaWhole media) :
    tablesWhole ⟨regs, pwr, pins, img, unt, cal, tap, mgt, mram, mem, bc, s.host, media, s.mot, s.chn, s.pool,
      pair, out, free, pending⟩ := by
  rw [tablesWhole_iff] at h ⊢
  obtain ⟨strands, motion, media, rest⟩ := h
  exact ⟨strands, motion, e media, rest⟩

theorem tablesWhole.newPool (h : tablesWhole s) {pool : PoolState}
    (e : poolWhole s.pool → poolWhole pool) :
    tablesWhole ⟨regs, pwr, pins, img, unt, cal, tap, mgt, mram, mem, bc, s.host, s.media, s.mot, s.chn, pool,
      pair, out, free, pending⟩ := by
  rw [tablesWhole_iff] at h ⊢
  obtain ⟨strands, motion, media, pool, cmds⟩ := h
  exact ⟨strands, motion, media, e pool, cmds⟩

theorem tablesWhole.newMot (h : tablesWhole s) {mot : MotionState}
    (e : motionWhole s.mot → motionWhole mot) :
    tablesWhole ⟨regs, pwr, pins, img, unt, cal, tap, mgt, mram, mem, bc, s.host, s.media, mot, s.chn, s.pool,
      pair, out, free, pending⟩ := by
  rw [tablesWhole_iff] at h ⊢
  obtain ⟨strands, motion, rest⟩ := h
  exact ⟨strands, e motion, rest⟩

theorem tablesWhole.newChn (h : tablesWhole s) {chn : ChannelState}
    (e : s.chn.strands.length = 32 → chn.strands.length = 32) :
    tablesWhole ⟨regs, pwr, pins, img, unt, cal, tap, mgt, mram, mem, bc, s.host, s.media, s.mot, chn, s.pool,
      pair, out, free, pending⟩ := by
  rw [tablesWhole_iff] at h ⊢
  obtain ⟨strands, rest⟩ := h
  exact ⟨e strands, rest⟩

/-- Several of the parts that hold tables change at once. -/
theorem tablesWhole.rebuild (h : tablesWhole s) {host : HostState} {media : MediaState} {mot : MotionState}
    {chn : ChannelState} {pool : PoolState} (ec : s.chn.strands.length = 32 → chn.strands.length = 32)
    (em : motionWhole s.mot → motionWhole mot) (ew : mediaWhole s.media → mediaWhole media)
    (ep : poolWhole s.pool → poolWhole pool) (eh : Tbl.sorted s.host.cmds = true → Tbl.sorted host.cmds = true) :
    tablesWhole ⟨regs, pwr, pins, img, unt, cal, tap, mgt, mram, mem, bc, host, media, mot, chn, pool,
      pair, out, free, pending⟩ := by
  rw [tablesWhole_iff] at h ⊢
  obtain ⟨strands, motion, media, pool, cmds⟩ := h
  exact ⟨ec strands, em motion, ew media, ep pool, eh cmds⟩

end

theorem tablesWhole.ite {c : Prop} {_ : Decidable c} (hs : tablesWhole s) (ht : tablesWhole t) :
    tablesWhole (if c then s else t) := by
  split <;> assumption

theorem tablesWhole.iteSnd {α : Type} {c : Prop} {_ : Decidable c} {p q : α × State} (hp : tablesWhole p.2)
    (hq : tablesWhole q.2) : tablesWhole (if c then p else q).2 := by
  split <;> assumption

/-- Names what holds of a state that the rest of a proof speaks of several times. -/
theorem tablesWhole.andThen (h : tablesWhole s) (f : tablesWhole s → tablesWhole t) : tablesWhole t := f h

theorem tablesWhole.onlyIf (h : tablesWhole s) {c : Prop} {_ : Decidable c} (f : tablesWhole s → tablesWhole t) :
    tablesWhole (if c then t else s) := .ite (f h) h

@[simp] theorem length_modAt {α : Type} {i : Nat} {f : α → α} {l : List α} : (modAt i f l).length = l.length := by
  induction l generalizing i with
  | nil => simp [modAt]
  | cons x l ih => cases i <;> simp [modAt, ih]

theorem Tbl.sorted_put {α : Type} [DecidableEq α] (d : α) (k : Nat) (v : α) {m : Tbl α} (h : Tbl.sorted m = true) :
    Tbl.sorted (Tbl.put d k v m) = true := by
  unfold Tbl.put
  split
  · exact Tbl.sorted_erase k m h
  · exact Tbl.sorted_ins k v m h

/-- Whatever state o holds has its tables whole. -/
def anyWhole (o : Option State) : Prop := ∀ u, o = some u → tablesWhole u

theorem anyWhole.none : anyWhole Option.none := fun _ h => nomatch h

theorem anyWhole.some (h : tablesWhole s) : anyWhole (Option.some s) := fun _ e => Option.some.inj e ▸ h

theorem tablesWhole.some (h : tablesWhole s) : anyWhole (Option.some s) := .some h

theorem anyWhole.ite {c : Prop} {_ : Decidable c} {o p : Option State} (ho : anyWhole o) (hp : anyWhole p) :
    anyWhole (if c then o else p) := by
  split <;> assumption

theorem anyWhole.getD {o : Option State} (h : anyWhole o) (ht : tablesWhole t) : tablesWhole (o.getD t) := by
  cases o with
  | none => exact ht
  | some u => exact h u rfl

theorem anyWhole.orElse {o : Option State} : anyWhole o → tablesWhole t →
    tablesWhole (match o with | Option.some u => u | Option.none => t) := by
  intro h ht
  cases o with
  | none => exact ht
  | some u => exact h u rfl

/-! ### Registers, counters and outputs -/

theorem tablesWhole.setReg (h : tablesWhole s) {off v} : tablesWhole (setReg off v s) := h.frame

theorem tablesWhole.setF (h : tablesWhole s) {f v} : tablesWhole (setF f v s) := h.setReg

theorem tablesWhole.setFlag (h : tablesWhole s) {f b} : tablesWhole (setFlag f b s) := h.setF

theorem tablesWhole.setFs (h : tablesWhole s) {fs} : tablesWhole (setFs fs s) := by
  induction fs generalizing s with
  | nil => exact h
  | cons f fs ih => exact ih h.setF

theorem tablesWhole.bumpBy (h : tablesWhole s) {off n} : tablesWhole (bumpBy off n s) := h.setReg

theorem tablesWhole.bump (h : tablesWhole s) {off i} : tablesWhole (bump off i s) := h.bumpBy

theorem tablesWhole.emit (h : tablesWhole s) {o} : tablesWhole (emit o s) := h.frame

theorem tablesWhole.useFree (h : tablesWhole s) : tablesWhole (useFree s) := h.frame

theorem tablesWhole.keepRegs (h : tablesWhole s) {keep} : tablesWhole (keepRegs keep s) := h.frame

theorem tablesWhole.set64 (h : tablesWhole s) {lo v} : tablesWhole (set64 lo v s) := h.setReg.setReg

theorem tablesWhole.forEach {α : Type} {f : α → State → State} {l : List α} (h : tablesWhole s)
    (hf : ∀ {s} x, tablesWhole s → tablesWhole (f x s)) : tablesWhole (forEach f l s) := by
  induction l generalizing s with
  | nil => exact h
  | cons x l ih => exact ih (hf x h)

/-! ### Event flags and the event log (R511 to R513) -/

theorem tablesWhole.logSignal (h : tablesWhole s) : tablesWhole (logSignal s) :=
  h.onlyIf fun h => h.frame.andThen fun h => .ite h (.ite h.host h.emit.bump)

theorem tablesWhole.writeEntry (h : tablesWhole s) {block code unit epoch cont detail} :
    tablesWhole (writeEntry block code unit epoch cont detail s) :=
  .andThen (.ite h.frame h.frame) fun h => .logSignal (.forEach (.onlyIf (.ite h.set64 h.set64.bump) (·.bump))
    (fun _ h => h.onlyIf (·.emit)))

theorem tablesWhole.writeDetails (h : tablesWhole s) {block code unit epoch cont ds} :
    tablesWhole (writeDetails block code unit epoch cont ds s) := by
  induction ds generalizing cont s with
  | nil => exact h
  | cons d ds ih => exact ih h.writeEntry

theorem tablesWhole.rawEvent (h : tablesWhole s) {block code unit items} :
    tablesWhole (rawEvent block code unit items s) :=
  h.writeDetails.onlyIf (·.emit)

theorem tablesWhole.event (h : tablesWhole s) {block code unit items} : tablesWhole (event block code unit items s) :=
  h.rawEvent.onlyIf fun h => h.setF.onlyIf (·.rawEvent)

theorem tablesWhole.evtAt (h : tablesWhole s) {f d unit items} : tablesWhole (evtAt f d unit items s) :=
  .ite h (h.setF.onlyIf (·.event))

theorem tablesWhole.evt (h : tablesWhole s) {f unit items} : tablesWhole (evt f unit items s) := h.evtAt

/-! ### Units, volumes and the ends of commands -/

theorem tablesWhole.modVol (h : tablesWhole s) {v f} : tablesWhole (modVol v f s) := h.media

theorem tablesWhole.putState (h : tablesWhole s) {u tgt why} : tablesWhole (putState u tgt why s) :=
  h.frame.bump.onlyIf (·.bump)

theorem tablesWhole.putHistory (h : tablesWhole s) {u src seq} : tablesWhole (putHistory u src seq s) :=
  h.frame

theorem tablesWhole.changeEvent (h : tablesWhole s) {u src seq} : tablesWhole (changeEvent u src seq s) :=
  h.setF.onlyIf (·.event)

theorem tablesWhole.mirror (h : tablesWhole s) {m} : tablesWhole (mirror m s) := h.onlyIf (·.frame.emit)

theorem tablesWhole.recordChange (h : tablesWhole s) {u src seq} : tablesWhole (recordChange u src seq s) :=
  h.putHistory.changeEvent.mirror

theorem tablesWhole.recomputeVol (h : tablesWhole s) {tgt v} : tablesWhole (recomputeVol tgt v s) :=
  h.onlyIf (·.putState.recordChange)

theorem tablesWhole.recompute (h : tablesWhole s) : tablesWhole (recompute s) :=
  h.onlyIf fun h => h.forEach (fun _ h => h.recomputeVol)

theorem tablesWhole.putCmd (h : tablesWhole s) {t c} :
    tablesWhole (putCmd t c s) := h.newHost (Tbl.sorted_put none t c)

theorem tablesWhole.modCmd (h : tablesWhole s) {t f} : tablesWhole (modCmd t f s) := by
  unfold Machine.modCmd
  split
  · exact h.putCmd
  · exact h

theorem tablesWhole.recordReplay (h : tablesWhole s) {c} : tablesWhole (recordReplay c s) :=
  h.onlyIf (·.modVol.mirror)

theorem tablesWhole.freeTag (h : tablesWhole s) {t} : tablesWhole (freeTag t s) := h.putCmd

theorem tablesWhole.endOne (h : tablesWhole s) {t st result} : tablesWhole (endOne t st result s) := by
  unfold Machine.endOne
  split
  · exact h
  · exact .ite h ((h.recordReplay.onlyIf (·.bump)).andThen fun h => .ite h.freeTag h.putCmd.host)

theorem tablesWhole.endRepeats (h : tablesWhole s) {seq st result rel step} :
    tablesWhole (endRepeats seq st result rel step s) :=
  h.forEach fun _ h => h.onlyIf (·.modCmd.endOne.bump.evt)

theorem tablesWhole.createFailed (h : tablesWhole s) {c st} : tablesWhole (createFailed c st s) :=
  h.onlyIf fun h => h.forEach (fun _ h => h.onlyIf (·.endOne))

theorem tablesWhole.endCmd (h : tablesWhole s) {t st result} : tablesWhole (endCmd t st result s) := by
  unfold Machine.endCmd
  split
  · exact h
  · exact .ite h h.endOne.endRepeats.createFailed

theorem tablesWhole.setGate4 (h : tablesWhole s) {t g} : tablesWhole (setGate4 t g s) := by
  unfold Machine.setGate4
  split
  · exact h
  · refine .ite (.ite h.modCmd.endCmd ?_) h.modCmd
    split
    · exact h.modCmd.endCmd
    · exact h.modCmd

theorem tablesWhole.regateOne (h : tablesWhole s) {e} : tablesWhole (regateOne e s) := by
  obtain ⟨t, c⟩ := e
  unfold Machine.regateOne
  dsimp only
  split
  · exact h
  · exact h
  · refine .ite h ?_
    split
    · exact h.endCmd
    · refine .ite h ?_
      split
      · exact .ite h h.setGate4.bump
      · exact h.setGate4.bump
      · exact h.setGate4

theorem tablesWhole.regate (h : tablesWhole s) : tablesWhole (regate s) :=
  (h.forEach (fun _ h => h.regateOne)).onlyIf (·.frame)

theorem tablesWhole.dmpAnswer (h : tablesWhole s) {addr port typ reqId flags status payload} :
    tablesWhole (dmpAnswer addr port typ reqId flags status payload s) := h.emit

theorem tablesWhole.storeAnswer (h : tablesWhole s) {addr port reqId typ ans} :
    tablesWhole (storeAnswer addr port reqId typ ans s) := h.frame

theorem tablesWhole.i3cAnswer (h : tablesWhole s) {typ reqId status payload} :
    tablesWhole (i3cAnswer typ reqId status payload s) := h.frame

theorem tablesWhole.finishReq (h : tablesWhole s) {r st} : tablesWhole (finishReq r st s) := by
  unfold Machine.finishReq
  extract_lets s₁ s₂
  have h₂ : tablesWhole s₂ := (h.onlyIf (·.bump)).onlyIf (·.bump)
  split
  · exact h₂
  · split
    · exact h₂
    · exact (h₂.onlyIf fun h => .ite h.emit h.emit).endCmd
  · exact h₂.storeAnswer.dmpAnswer
  · exact h₂.i3cAnswer
  · exact h₂.emit

theorem tablesWhole.settleReqs (h : tablesWhole s) {u} : tablesWhole (settleReqs u s) := by
  unfold Machine.settleReqs
  refine h.frame.forEach fun _ h => ?_
  split
  · exact h.finishReq
  · exact h

theorem tablesWhole.endHeldWaits (h : tablesWhole s) {from_ tgt} : tablesWhole (endHeldWaits from_ tgt s) :=
  h.onlyIf fun h => h.forEach (fun _ h => h.onlyIf (·.endCmd))

theorem tablesWhole.carWriteStop (h : tablesWhole s) {u tgt} : tablesWhole (carWriteStop u tgt s) :=
  h.onlyIf fun h => h.newMedia (by simp [mediaWhole])

theorem tablesWhole.endImport (h : tablesWhole s) {u from_} : tablesWhole (endImport u from_ s) := by
  unfold Machine.endImport
  refine .ite (.forEach (.setReg ?_) fun _ h => h.setReg) h
  exact h

theorem tablesWhole.afterChange (h : tablesWhole s) {u from_ tgt} : tablesWhole (afterChange u from_ tgt s) :=
  (h.carWriteStop.onlyIf (·.endHeldWaits)).endImport.regate.settleReqs

theorem tablesWhole.changeUnit0 (h : tablesWhole s) {u tgt why src seq} :
    tablesWhole (changeUnit0 u tgt why src seq s) :=
  .ite h (h.putState.onlyIf (·.recompute)).recordChange.afterChange

theorem tablesWhole.calEvt (h : tablesWhole s) {f r st} : tablesWhole (calEvt f r st s) := h.evt

theorem tablesWhole.calRecord (h : tablesWhole s) {r st outcome} : tablesWhole (calRecord r st outcome s) :=
  h.frame.setReg.andThen fun h => .calEvt (.mot (.onlyIf (.ite h.bump (.ite h.bump (.ite h.bump (h.onlyIf (·.bump)))))
    (·.calEvt)))

theorem tablesWhole.setHold (h : tablesWhole s) {u b} : tablesWhole (setHold u b s) := h.frame

theorem tablesWhole.calSweepOne (h : tablesWhole s) {r} : tablesWhole (calSweepOne r s) := by
  unfold Machine.calSweepOne
  split
  · exact h.onlyIf (·.calRecord.finishReq)
  · exact .ite h (.ite h.setHold.calRecord.finishReq (h.onlyIf
      (fun h => h.setHold.calRecord.andThen fun h => .finishReq (.ite h h.changeUnit0))))

theorem tablesWhole.calSweep (h : tablesWhole s) : tablesWhole (calSweep s) :=
  h.forEach fun _ h => h.calSweepOne

theorem tablesWhole.changeUnit (h : tablesWhole s) {u tgt why src seq} :
    tablesWhole (changeUnit u tgt why src seq s) :=
  h.changeUnit0.calSweep

theorem tablesWhole.change (h : tablesWhole s) {u tgt why} : tablesWhole (change u tgt why s) := h.changeUnit

theorem tablesWhole.changeGroup (h : tablesWhole s) {us why src seq} : tablesWhole (changeGroup us why src seq s) :=
  ((h.forEach (fun _ h => .ite h h.putState.recordChange)).recompute.forEach
    (fun _ h => .ite h h.afterChange)).calSweep

theorem tablesWhole.suspectUnit (h : tablesWhole s) {u why d claim} : tablesWhole (suspectUnit u why d claim s) :=
  .ite h h.frame.change

/-! ### Access to the loop slots, the cams and the carriages -/

theorem tablesWhole.modCar (h : tablesWhole s) {c f} : tablesWhole (modCar c f s) :=
  h.newMot (by simp [motionWhole])

theorem tablesWhole.modSlot (h : tablesWhole s) {k f} : tablesWhole (modSlot k f s) :=
  h.newMot (by simp [motionWhole])

theorem tablesWhole.modSpn (h : tablesWhole s) {f} : tablesWhole (modSpn f s) := h.mot

theorem tablesWhole.setInt (h : tablesWhole s) {off v} : tablesWhole (setInt off v s) := h.setReg

theorem tablesWhole.modDac (h : tablesWhole s) {i f} : tablesWhole (modDac i f s) :=
  h.newMot (by simp [motionWhole])

theorem tablesWhole.writeDest (h : tablesWhole s) {l o v} : tablesWhole (writeDest l o v s) := by
  unfold Machine.writeDest
  refine .ite h.modSlot.modDac (.ite h.modSlot.mot (.ite ?_ (.ite h.modSlot.mot (h.modSlot.onlyIf (·.mot)))))
  split
  · exact h.modSlot.setInt
  · exact h.modSlot

theorem tablesWhole.lpeEvt (h : tablesWhole s) {f k} : tablesWhole (lpeEvt f k s) := h.evtAt

theorem tablesWhole.leaveActive (h : tablesWhole s) {k st} : tablesWhole (leaveActive k st s) :=
  h.modSlot.forEach fun _ h => h.onlyIf (·.modSlot)

theorem tablesWhole.disableSlot (h : tablesWhole s) {k} : tablesWhole (disableSlot k s) :=
  h.onlyIf (·.leaveActive)

theorem tablesWhole.disableSlots (h : tablesWhole s) {ks} : tablesWhole (disableSlots ks s) :=
  h.forEach fun _ h => h.disableSlot

theorem tablesWhole.disableSpindleLoops (h : tablesWhole s) : tablesWhole (disableSpindleLoops s) :=
  h.disableSlots

theorem tablesWhole.enableNow (h : tablesWhole s) {l y0} : tablesWhole (enableNow l y0 s) :=
  .ite h.modSlot (.ite h.modSlot h.modSlot.lpeEvt)

theorem tablesWhole.askEnable (h : tablesWhole s) {k on} : tablesWhole (askEnable k on s) := h.modSlot

theorem tablesWhole.engineMask (h : tablesWhole s) {k m} : tablesWhole (engineMask k m s) := h.modSlot

/-! ### Skeins by key, sealing and write stops -/

theorem tablesWhole.modSkein (h : tablesWhole s) {key f} : tablesWhole (modSkein key f s) := h.media

theorem tablesWhole.dropSkein (h : tablesWhole s) {key} : tablesWhole (dropSkein key s) := h.media

theorem tablesWhole.modWcar (h : tablesWhole s) {c f} : tablesWhole (modWcar c f s) :=
  h.newMedia (by simp [mediaWhole])

theorem tablesWhole.setGate (h : tablesWhole s) {c on} : tablesWhole (setGate c on s) := h.frame

theorem tablesWhole.setLen (h : tablesWhole s) {c on} : tablesWhole (setLen c on s) := h.frame

theorem tablesWhole.joinQueue (h : tablesWhole s) {key c} : tablesWhole (joinQueue key c s) := h.modWcar

theorem tablesWhole.joinQueues (h : tablesWhole s) {key} : tablesWhole (joinQueues key s) :=
  h.forEach fun _ h => h.joinQueue

theorem tablesWhole.leaveQueues (h : tablesWhole s) {key} : tablesWhole (leaveQueues key s) :=
  h.forEach fun _ h => h.modWcar

theorem tablesWhole.takeNumber (h : tablesWhole s) : tablesWhole (takeNumber s).2 := h.media

theorem tablesWhole.sealSkein (h : tablesWhole s) {key} : tablesWhole (sealSkein key s) := by
  unfold Machine.sealSkein
  split
  · exact h
  · exact .ite h h.takeNumber.modSkein.media.pool

theorem tablesWhole.sealOpen (h : tablesWhole s) : tablesWhole (sealOpen s) := by
  unfold Machine.sealOpen
  split
  · exact h.sealSkein
  · exact h

theorem tablesWhole.endExhausted (h : tablesWhole s) : tablesWhole (endExhausted s) := by
  unfold Machine.endExhausted
  refine h.forEach fun _ h => ?_
  split
  · exact h.onlyIf (·.endCmd)
  · exact h

theorem tablesWhole.moveData (h : tablesWhole s) {old new} : tablesWhole (moveData old new s) := h.media

theorem tablesWhole.reform (h : tablesWhole s) {key counted} : tablesWhole (reform key counted s) := by
  unfold Machine.reform
  split
  · exact h
  · exact .ite h (.ite h.leaveQueues.modSkein.bump.evt.endExhausted
      h.leaveQueues.takeNumber.modSkein.media.moveData.joinQueues)

theorem tablesWhole.grantFresh (h : tablesWhole s) {pick} : tablesWhole (grantFresh pick s) :=
  h.forEach fun _ h => h.onlyIf (·.modSkein.reform)

theorem tablesWhole.abandonPass (h : tablesWhole s) {c} : tablesWhole (abandonPass c s) :=
  .ite h ((h.onlyIf (·.useFree)).modWcar.setGate.onlyIf (fun h => (h.forEach (fun _ h => h.reform)).evt))

theorem tablesWhole.stopWriteNow (h : tablesWhole s) {c} : tablesWhole (stopWriteNow c s) :=
  h.setGate.abandonPass

theorem tablesWhole.stopAtSlot (h : tablesWhole s) {c} : tablesWhole (stopAtSlot c s) := h.modWcar

theorem tablesWhole.stopAllNow (h : tablesWhole s) : tablesWhole (stopAllNow s) :=
  h.forEach fun _ h => h.stopWriteNow

/-! ### The cam unit (R323 to R335) -/

theorem tablesWhole.modCam (h : tablesWhole s) {t f} : tablesWhole (modCam t f s) :=
  h.newMot (by simp [motionWhole])

theorem tablesWhole.camEvt (h : tablesWhole s) {f t} : tablesWhole (camEvt f t s) := h.evt

theorem tablesWhole.camStep (h : tablesWhole s) {r} : tablesWhole (camStep r s) := by
  unfold Machine.camStep
  refine .andThen (.onlyIf ?_ (·.modCam)) fun h => .ite h (.ite h.modCam h.modCam.camEvt)
  split
  · exact .ite h.modCam h.modCam
  · exact h.modCam
  · exact h

theorem tablesWhole.commitStep (h : tablesWhole s) : tablesWhole (commitStep s) := by
  unfold Machine.commitStep
  split
  · exact h
  · exact h.onlyIf (·.mot.modCam.camEvt)

theorem tablesWhole.jumpStep (h : tablesWhole s) {c} : tablesWhole (jumpStep c s) := by
  unfold Machine.jumpStep
  split
  · exact h
  · exact h.modCar

theorem tablesWhole.camPhase (h : tablesWhole s) : tablesWhole (camPhase s) := by
  unfold Machine.camPhase
  extract_lets
  split
  · exact (h.forEach (fun _ h => h.jumpStep)).commitStep.forEach (fun _ h => h.camStep)
  · exact (h.forEach (fun _ h => h.jumpStep)).commitStep

theorem tablesWhole.camCommitEff (h : tablesWhole s) {v} : tablesWhole (camCommitEff v s) := by
  unfold Machine.camCommitEff
  refine .ite h (.ite h.camEvt ?_)
  split
  · exact h.mot
  · exact .ite h.camEvt (.ite h.mot h.mot.camEvt)

theorem tablesWhole.camEngageEff (h : tablesWhole s) {t on} : tablesWhole (camEngageEff t on s) := by
  unfold Machine.camEngageEff
  refine .ite ?_ h.modCam
  split
  · exact h.camEvt
  · exact .ite h.camEvt h.modCam

theorem tablesWhole.camTimeResetEff (h : tablesWhole s) {t} : tablesWhole (camTimeResetEff t s) := h.modCam

theorem tablesWhole.camPtStep (h : tablesWhole s) : tablesWhole (camPtStep s) := h.onlyIf (·.setF)

theorem tablesWhole.camPtWrite (h : tablesWhole s) {v} : tablesWhole (camPtWrite v s) := h.modCam.camPtStep

/-! ### Leaving STARTING -/

theorem tablesWhole.modStrand (h : tablesWhole s) {g f} : tablesWhole (modStrand g f s) := h.newChn (by simp)

theorem tablesWhole.carReadyCheck (h : tablesWhole s) {c} : tablesWhole (carReadyCheck c s) :=
  h.onlyIf (·.changeGroup)

theorem tablesWhole.carGradeCheck (h : tablesWhole s) {why c} : tablesWhole (carGradeCheck why c s) :=
  .ite h.change (h.onlyIf (·.change))

theorem tablesWhole.strandReadyCheck (h : tablesWhole s) {g} : tablesWhole (strandReadyCheck g s) :=
  h.onlyIf (·.change.carGradeCheck)

theorem tablesWhole.acquireLoops (h : tablesWhole s) {c} : tablesWhole (acquireLoops c s) := by
  unfold Machine.acquireLoops
  refine h.forEach fun _ h => ?_
  split
  · exact h.askEnable
  · exact h

theorem tablesWhole.startHoming (h : tablesWhole s) {c} : tablesWhole (startHoming c s) := h.bump.frame.modCar

theorem tablesWhole.acquireCar (h : tablesWhole s) {c} : tablesWhole (acquireCar c s) :=
  .acquireLoops (.onlyIf (.ite h h.setLen) (·.startHoming))

theorem tablesWhole.followCheck (h : tablesWhole s) {c} : tablesWhole (followCheck c s) :=
  .ite h.modCar (h.onlyIf (·.modCar))

theorem tablesWhole.carriageLost (h : tablesWhole s) {c} : tablesWhole (carriageLost c s) :=
  (h.stopWriteNow.onlyIf (fun h => h.change.forEach (fun _ h => h.onlyIf (·.change)))).modCar.onlyIf (·.acquireCar)

theorem tablesWhole.carriageDark (h : tablesWhole s) {c} : tablesWhole (carriageDark c s) :=
  (h.disableSlots.forEach (fun _ h => h.modDac)).setGate.setLen

theorem tablesWhole.carriageFault (h : tablesWhole s) {c why} : tablesWhole (carriageFault c why s) :=
  h.stopWriteNow.change.carriageDark

/-! ### The loop engine at work (R246 to R280) -/

theorem tablesWhole.holdStep (h : tablesWhole s) {l} : tablesWhole (holdStep l s) :=
  .ite h (.ite (.ite h.modSlot h.modSlot.bump.lpeEvt) h.modSlot)

theorem tablesWhole.ageStep (h : tablesWhole s) {k} : tablesWhole (ageStep k s) := h.modSlot

theorem tablesWhole.rampStep (h : tablesWhole s) {l} : tablesWhole (rampStep l s) := h.modSlot

theorem tablesWhole.swapStep (h : tablesWhole s) {k} : tablesWhole (swapStep k s) :=
  h.onlyIf (·.modSlot.lpeEvt)

theorem tablesWhole.enableStep (h : tablesWhole s) {l} : tablesWhole (enableStep l s) := by
  unfold Machine.enableStep
  split
  · exact h.modSlot.disableSlot
  · exact h.enableNow
  · exact h

theorem tablesWhole.rmsStep (h : tablesWhole s) {k e0} : tablesWhole (rmsStep k e0 s) := h.modSlot

theorem tablesWhole.offtrackStep (h : tablesWhole s) {l e0} : tablesWhole (offtrackStep l e0 s) := by
  unfold Machine.offtrackStep
  dsimp only
  split
  · exact h.onlyIf (·.setGate.bump.evt.abandonPass)
  · exact h

theorem tablesWhole.lockStep (h : tablesWhole s) {k e0 masked} : tablesWhole (lockStep k e0 masked s) :=
  h.modSlot

theorem tablesWhole.computeStep (h : tablesWhole s) {l f mirrorBad} : tablesWhole (computeStep l f mirrorBad s) := by
  unfold Machine.computeStep
  extract_lets
  split
  · exact h.modSlot
  · exact h.lpeEvt.modSlot
  · exact ((h.modSlot.bumpBy.onlyIf (·.lpeEvt)).rmsStep.lockStep.onlyIf (·.modSlot)).offtrackStep

theorem tablesWhole.dueStep (h : tablesWhole s) {l f mirrorBad} : tablesWhole (dueStep l f mirrorBad s) :=
  (h.modSlot.onlyIf (·.modSlot)).swapStep.enableStep.rampStep.onlyIf (·.computeStep)

theorem tablesWhole.coreRun (h : tablesWhole s) {forced parity cyc full ls} :
    tablesWhole (coreRun forced parity cyc full ls s) := by
  induction ls generalizing cyc full s with
  | nil => exact h
  | cons l ls ih => exact ih h.dueStep

theorem tablesWhole.traceLatch (h : tablesWhole s) {volts} : tablesWhole (traceLatch volts s) := by
  unfold Machine.traceLatch
  split
  · exact h
  · exact h.newMot (by simp +contextual [motionWhole])

theorem tablesWhole.basePeriodEff (h : tablesWhole s) {volts parity} : tablesWhole (basePeriodEff volts parity s) :=
  .ite h ((((h.mot.traceLatch.camPhase.forEach (fun _ h => h.holdStep.ageStep)).onlyIf (·.setF)).forEach
    (fun _ h => h.coreRun)).forEach (fun _ h => h.followCheck.carReadyCheck))

theorem tablesWhole.overrunEff (h : tablesWhole s) {k} : tablesWhole (overrunEff k s) :=
  h.onlyIf (·.modSlot.bump.lpeEvt)

theorem tablesWhole.outputWriteEff (h : tablesWhole s) : tablesWhole (outputWriteEff s) := by
  unfold Machine.outputWriteEff
  refine h.forEach fun {s} l h => ?_
  extract_lets x s₁
  have h₁ : tablesWhole s₁ := .ite (h.modSlot.forEach fun _ h => .ite h h.writeDest) h.modSlot
  split
  · exact h₁.modSlot.forEach fun _ h => h.writeDest
  · exact h₁

theorem length_convert {ks : List Nat} {input : Nat → Nat} {v : Nat → Nat} {l : List Nat} :
    (ks.foldl (fun l a => modAt (input a) (fun _ => v a) l) l).length = l.length := by
  induction ks generalizing l with
  | nil => rfl
  | cons k ks ih => rw [List.foldl_cons, ih, length_modAt]

theorem tablesWhole.conversionEff (h : tablesWhole s) {m codes} : tablesWhole (conversionEff m codes s) :=
  .ite (h.forEach fun _ h => h.onlyIf (·.evt))
    (.ite (h.newMot (by simp [motionWhole, length_convert])) (h.newMot (by simp [motionWhole, length_convert])))

theorem tablesWhole.traceEdgeEff (h : tablesWhole s) {n cycles dirHigh} :
    tablesWhole (traceEdgeEff n cycles dirHigh s) :=
  h.newMot (by simp [motionWhole])

theorem tablesWhole.traceLostEff (h : tablesWhole s) {n} : tablesWhole (traceLostEff n s) := by
  unfold Machine.traceLostEff
  extract_lets _ s₁
  have h₁ : tablesWhole s₁ := h.newMot fun h => by simpa [motionWhole] using h
  split
  · exact h₁
  · exact h₁.forEach fun _ h => h.onlyIf (·.lpeEvt)

theorem tablesWhole.loopClrFaultEff (h : tablesWhole s) {k} : tablesWhole (loopClrFaultEff k s) := by
  unfold Machine.loopClrFaultEff
  split
  · exact h.onlyIf (·.modSlot)
  · exact h

theorem tablesWhole.loopFollowEff (h : tablesWhole s) {k on} : tablesWhole (loopFollowEff k on s) := by
  unfold Machine.loopFollowEff
  split
  · exact h.onlyIf (·.setFlag)
  · exact h

theorem tablesWhole.loopEnableEff (h : tablesWhole s) {k on} : tablesWhole (loopEnableEff k on s) :=
  h.onlyIf (·.askEnable)

theorem tablesWhole.loopSwapEff (h : tablesWhole s) {k} : tablesWhole (loopSwapEff k s) := h.modSlot

theorem tablesWhole.loopParkEff (h : tablesWhole s) {k} : tablesWhole (loopParkEff k s) := h.modSlot

theorem tablesWhole.coefStep (h : tablesWhole s) {k} : tablesWhole (coefStep k s) := h.onlyIf (·.setF)

theorem tablesWhole.coefWrite (h : tablesWhole s) {k v} : tablesWhole (coefWrite k v s) :=
  .coefStep (.ite h h.modSlot)

theorem tablesWhole.loadLoops (h : tablesWhole s) {i} : tablesWhole (loadLoops i s) :=
  .forEach (.forEach (h.newMot (by simp +contextual [motionWhole])) fun _ h => h.modSlot.setInt.setInt.setInt.setFlag)
    fun _ h => h.setReg.onlyIf (·.setF.evt)

/-! ### The spindle drive (chapter 09) -/

theorem tablesWhole.currentTarget (h : tablesWhole s) {v} : tablesWhole (currentTarget v s) := by
  unfold Machine.currentTarget
  split
  · exact h.setInt
  · exact h

theorem tablesWhole.enableCurrent (h : tablesWhole s) : tablesWhole (enableCurrent s) := by
  unfold Machine.enableCurrent
  split
  · exact h.askEnable
  · exact h

theorem tablesWhole.enableSpeed (h : tablesWhole s) : tablesWhole (enableSpeed s) := by
  unfold Machine.enableSpeed
  split
  · exact h.askEnable
  · exact h

theorem tablesWhole.setV (h : tablesWhole s) {vd vq} : tablesWhole (setV vd vq s) := h.mot

theorem tablesWhole.spnEvt (h : tablesWhole s) {f} : tablesWhole (spnEvt f s) := h.evt

theorem tablesWhole.setGates (h : tablesWhole s) {on} : tablesWhole (setGates on s) := h.modSpn.frame

theorem tablesWhole.setPhase (h : tablesWhole s) {ph} : tablesWhole (setPhase ph s) := h.modSpn

theorem tablesWhole.spnUnit (h : tablesWhole s) {tgt why} : tablesWhole (spnUnit tgt why s) := .ite h h.change

theorem tablesWhole.spnFault (h : tablesWhole s) {why} : tablesWhole (spnFault why s) :=
  h.setGates.disableSpindleLoops.setPhase.spnUnit

theorem tablesWhole.startBraking (h : tablesWhole s) : tablesWhole (startBraking s) :=
  h.disableSpindleLoops.setGates.modSpn.bump

theorem tablesWhole.enterBrake (h : tablesWhole s) : tablesWhole (enterBrake s) := h.setPhase.startBraking

theorem tablesWhole.enterAlign (h : tablesWhole s) : tablesWhole (enterAlign s) :=
  h.setGates.disableSpindleLoops.setPhase.modSpn

theorem tablesWhole.enterCoast (h : tablesWhole s) : tablesWhole (enterCoast s) :=
  h.setGates.disableSpindleLoops.modSpn.setPhase

theorem tablesWhole.spnStartEff (h : tablesWhole s) : tablesWhole (spnStartEff s) :=
  h.onlyIf (·.modSpn.bump.enterCoast)

theorem tablesWhole.spnStopped (h : tablesWhole s) : tablesWhole (spnStopped s) :=
  h.setGates.disableSpindleLoops.setPhase

theorem tablesWhole.spnStopEff (h : tablesWhole s) {coast} : tablesWhole (spnStopEff coast s) := by
  unfold Machine.spnStopEff
  refine .ite h (.ite h.spnStopped (.ite (.modSpn (.currentTarget ?_)) h.setPhase.startBraking))
  split
  · exact h.setPhase.disableSlot
  · exact h.setPhase

theorem tablesWhole.rotorLossResponse (h : tablesWhole s) {why} : tablesWhole (rotorLossResponse why s) := by
  unfold Machine.rotorLossResponse
  exact h.spnEvt.bump.disableSpindleLoops.setGates.stopAllNow.setPhase.modSpn.spnUnit

theorem tablesWhole.arbitrate (h : tablesWhole s) : tablesWhole (arbitrate s) := by
  unfold Machine.arbitrate
  split
  · exact h
  · extract_lets
    split
    · exact h.modSpn.setInt
    · exact h.modSpn

theorem tablesWhole.enterRun (h : tablesWhole s) : tablesWhole (enterRun s) := h.setPhase.modSpn.enableSpeed

theorem tablesWhole.enterRunup (h : tablesWhole s) {fromCatch} : tablesWhole (enterRunup fromCatch s) :=
  .currentTarget (.modSpn (.ite h.setPhase h.setPhase.setV.enableCurrent))

theorem tablesWhole.pwmTopEff (h : tablesWhole s) {pinMv} : tablesWhole (pwmTopEff pinMv s) :=
  .ite h ((h.onlyIf (·.setGates)).andThen fun h => .ite h (.ite h.modSpn h.modSpn))

theorem tablesWhole.observer (h : tablesWhole s) {iA iB} : tablesWhole (observer iA iB s) := h.modSpn

theorem tablesWhole.injector (h : tablesWhole s) : tablesWhole (injector s) := h.modSpn

theorem tablesWhole.countRevs (h : tablesWhole s) {d} : tablesWhole (countRevs d s) :=
  .ite (h.modSpn.onlyIf (·.set64)) h.modSpn

theorem tablesWhole.blendStep (h : tablesWhole s) : tablesWhole (blendStep s) :=
  .ite h.modSpn.countRevs.modSpn (h.modSpn.countRevs.onlyIf (·.modSpn))

theorem tablesWhole.detectors (h : tablesWhole s) : tablesWhole (detectors s) := h.modSpn

theorem tablesWhole.brakeCentre (h : tablesWhole s) : tablesWhole (brakeCentre s) := h.modSpn

theorem tablesWhole.overcurrent (h : tablesWhole s) : tablesWhole (overcurrent s) :=
  .ite h (.ite h.spnFault (h.onlyIf (fun h => h.setGates.spnEvt.bump.andThen fun h => .ite h.modSpn.spnFault
    h.modSpn.rotorLossResponse)))

theorem tablesWhole.regenEnd (h : tablesWhole s) : tablesWhole (regenEnd s) := h.onlyIf (·.startBraking)

theorem tablesWhole.pwmCentreEff (h : tablesWhole s) {cu cv cw} : tablesWhole (pwmCentreEff cu cv cw s) :=
  .ite h (((h.modSpn.onlyIf (·.modSpn)).onlyIf (·.brakeCentre)).onlyIf
    (fun h => (h.observer.onlyIf (·.injector)).blendStep.detectors.regenEnd)).overcurrent

theorem tablesWhole.edgeEff (h : tablesWhole s) {ph rising} : tablesWhole (edgeEff ph rising s) := by
  unfold Machine.edgeEff
  extract_lets
  split
  · exact h.modSpn
  · exact h.modSpn
  · exact .ite h h.modSpn
  · exact h

theorem tablesWhole.coastDoneEff (h : tablesWhole s) : tablesWhole (coastDoneEff s) :=
  .ite h (.ite h.enterAlign (.ite h.enterBrake (.ite h.modSpn.setPhase (.ite h.enterBrake h.enterAlign))))

theorem tablesWhole.catchMadeEff (h : tablesWhole s) : tablesWhole (catchMadeEff s) :=
  .ite h (h.modSpn.setV.currentTarget.enableCurrent.andThen fun h => .ite h.enterRun
    (.ite h.bump.enterRun h.bump.enterRunup))

theorem tablesWhole.catchTimeoutEff (h : tablesWhole s) : tablesWhole (catchTimeoutEff s) :=
  h.onlyIf (·.enterBrake)

theorem tablesWhole.brakeDoneEff (h : tablesWhole s) : tablesWhole (brakeDoneEff s) := h.onlyIf (·.enterAlign)

theorem tablesWhole.brakeTimeoutEff (h : tablesWhole s) : tablesWhole (brakeTimeoutEff s) :=
  h.onlyIf (·.spnEvt.spnFault)

theorem tablesWhole.alignDoneEff (h : tablesWhole s) {ampD ampQ peakP peakN} :
    tablesWhole (alignDoneEff ampD ampQ peakP peakN s) := .ite h (.ite h.spnEvt.spnFault h.modSpn.enterRunup)

theorem tablesWhole.runupDoneEff (h : tablesWhole s) : tablesWhole (runupDoneEff s) := h.onlyIf (·.enterRun)

theorem tablesWhole.runupTimeoutEff (h : tablesWhole s) : tablesWhole (runupTimeoutEff s) :=
  h.onlyIf (·.spnEvt.spnFault)

theorem tablesWhole.spnReady (h : tablesWhole s) : tablesWhole (spnReady s) :=
  h.modSpn.spnUnit.forEach fun _ h => h.onlyIf (·.acquireCar)

theorem tablesWhole.spindleReadyEff (h : tablesWhole s) : tablesWhole (spindleReadyEff s) :=
  h.onlyIf (·.spnReady)

theorem tablesWhole.lockedRotorEff (h : tablesWhole s) : tablesWhole (lockedRotorEff s) :=
  h.onlyIf fun h => h.spnEvt.bump.andThen fun h => .ite h.modSpn.setGates.disableSpindleLoops.setPhase.spnUnit
    h.modSpn.spnFault

theorem tablesWhole.lockedWaitDoneEff (h : tablesWhole s) : tablesWhole (lockedWaitDoneEff s) :=
  h.onlyIf (·.modSpn.enterCoast)

theorem tablesWhole.rotorLossEff (h : tablesWhole s) : tablesWhole (rotorLossEff s) :=
  h.onlyIf (·.rotorLossResponse)

theorem tablesWhole.recatchOkEff (h : tablesWhole s) : tablesWhole (recatchOkEff s) :=
  h.onlyIf (·.spnReady.spnEvt.bump)

theorem tablesWhole.recatchTimeoutEff (h : tablesWhole s) : tablesWhole (recatchTimeoutEff s) :=
  h.onlyIf (·.spnEvt.spnFault)

theorem tablesWhole.stoppingDoneEff (h : tablesWhole s) : tablesWhole (stoppingDoneEff s) :=
  h.onlyIf fun h => h.spnStopped.onlyIf (·.spnStartEff)

theorem tablesWhole.spnClrFaultEff (h : tablesWhole s) : tablesWhole (spnClrFaultEff s) :=
  h.onlyIf (·.modSpn.setPhase)

theorem tablesWhole.spnForceLossEff (h : tablesWhole s) : tablesWhole (spnForceLossEff s) := h.modSpn

theorem tablesWhole.spnTrip (h : tablesWhole s) : tablesWhole (spnTrip s) :=
  h.setGates.disableSpindleLoops.setPhase.modSpn

theorem tablesWhole.spnDisown (h : tablesWhole s) : tablesWhole (spnDisown s) := .ite h.setGates h.spnStopped

theorem tablesWhole.spnPowerFail (h : tablesWhole s) : tablesWhole (spnPowerFail s) :=
  .ite h.setGates h.spnStopped

theorem tablesWhole.rateMatchEff (h : tablesWhole s) {d c ahead} : tablesWhole (rateMatchEff d c ahead s) :=
  .ite h ((h.onlyIf (·.useFree)).modSpn.onlyIf (·.bump)).arbitrate

theorem tablesWhole.spindleLoopDown (h : tablesWhole s) : tablesWhole (spindleLoopDown s) :=
  h.onlyIf (·.rotorLossResponse)

theorem tablesWhole.loopLostEff (h : tablesWhole s) {k} : tablesWhole (loopLostEff k s) := by
  unfold Machine.loopLostEff
  refine .ite h ?_
  split
  · exact h
  · exact h.leaveActive.lpeEvt.andThen fun h => .ite h.carriageLost.followCheck h.spindleLoopDown

theorem tablesWhole.loopFaultEff (h : tablesWhole s) {k} : tablesWhole (loopFaultEff k s) := by
  unfold Machine.loopFaultEff
  refine .ite h ?_
  split
  · exact h
  · exact h.leaveActive.lpeEvt.andThen fun h => .ite h.carriageFault.followCheck h.spindleLoopDown

theorem tablesWhole.reacquireTimeoutEff (h : tablesWhole s) {c} : tablesWhole (reacquireTimeoutEff c s) :=
  .ite h.modCar.carriageFault h.modCar

/-! ### The sleds (chapter 10) -/

theorem tablesWhole.crgEvt (h : tablesWhole s) {f c} : tablesWhole (crgEvt f c s) := h.evtAt

theorem tablesWhole.crgBump (h : tablesWhole s) {c i} : tablesWhole (crgBump c i s) := h.bump

theorem tablesWhole.holdMasks (h : tablesWhole s) {c} : tablesWhole (holdMasks c s) := by
  unfold Machine.holdMasks
  extract_lets s₁
  have h₁ : tablesWhole s₁ := by
    unfold s₁
    split
    · exact h.engineMask
    · exact h
  split
  · exact h₁.engineMask
  · exact h₁

theorem tablesWhole.releaseMasks (h : tablesWhole s) {c} : tablesWhole (releaseMasks c s) := by
  unfold Machine.releaseMasks
  extract_lets s₁
  have h₁ : tablesWhole s₁ := by
    unfold s₁
    split
    · exact h.engineMask
    · exact h
  split
  · exact h₁.engineMask
  · exact h₁

theorem tablesWhole.sledLoop (h : tablesWhole s) {c on} : tablesWhole (sledLoop c on s) := by
  unfold Machine.sledLoop
  split
  · exact .ite h.askEnable h.modSlot.disableSlot
  · exact h

theorem tablesWhole.sledOff (h : tablesWhole s) {c} : tablesWhole (sledOff c s) :=
  (h.frame.onlyIf (·.crgEvt.crgBump)).releaseMasks.modCar

theorem tablesWhole.coilFault (h : tablesWhole s) {f c} : tablesWhole (coilFault f c s) :=
  h.frame.modCar.crgEvt.releaseMasks.change

theorem tablesWhole.sledSampleEff (h : tablesWhole s) {c code1 code2} : tablesWhole (sledSampleEff c code1 code2 s) :=
  .ite h (((h.modCar.onlyIf (·.crgBump)).onlyIf (·.crgBump)).andThen fun h => .ite h.coilFault
    (h.onlyIf (·.coilFault)))

theorem tablesWhole.modeCheck (h : tablesWhole s) {c} : tablesWhole (modeCheck c s) :=
  .ite h (.ite (h.onlyIf (·.modCar.crgBump)) (.ite h.modCar.crgBump (h.onlyIf (·.modCar.crgBump))))

theorem tablesWhole.stepOne (h : tablesWhole s) {c} : tablesWhole (stepOne c s) :=
  .ite h.modCar h.modCar.modeCheck

theorem tablesWhole.loadTimer (h : tablesWhole s) {c} : tablesWhole (loadTimer c s) := h.modCar

theorem tablesWhole.stepTimerEff (h : tablesWhole s) {c} : tablesWhole (stepTimerEff c s) :=
  h.onlyIf (·.stepOne.loadTimer)

theorem tablesWhole.startLayerJump (h : tablesWhole s) {c l l'} : tablesWhole (startLayerJump c l l' s) :=
  .ite h.modCar (.ite h.modCar.crgBump h.modCar)

theorem tablesWhole.enterSeek (h : tablesWhole s) {c k} : tablesWhole (enterSeek c k s) :=
  h.modWcar.holdMasks.sledLoop.modCar.startLayerJump

theorem tablesWhole.seekCheck (h : tablesWhole s) {c} : tablesWhole (seekCheck c s) := by
  unfold Machine.seekCheck
  extract_lets
  split
  · exact h
  · exact .ite h.enterSeek (h.onlyIf (·.startHoming))

theorem tablesWhole.seekEff (h : tablesWhole s) {c lf turn} : tablesWhole (seekEff c lf turn s) := by
  unfold Machine.seekEff
  refine .ite h ?_
  extract_lets k m
  split
  · exact h
  · exact h.enterSeek
  · exact h.enterSeek
  · exact h.enterSeek
  · exact h.enterSeek
  · exact h.modCar.seekCheck

theorem tablesWhole.seekFail (h : tablesWhole s) {c} : tablesWhole (seekFail c s) :=
  h.crgEvt.crgBump.releaseMasks.modCar.carriageLost

theorem tablesWhole.seekRetry (h : tablesWhole s) {c k foundLf dTurn} :
    tablesWhole (seekRetry c k foundLf dTurn s) := by
  unfold Machine.seekRetry
  refine .ite h.seekFail ?_
  split
  · exact h.crgBump.modCar.startLayerJump
  · exact h.crgBump.modCar

theorem tablesWhole.seekRest (h : tablesWhole s) {c} : tablesWhole (seekRest c s) := by
  unfold Machine.seekRest
  extract_lets
  split
  · exact h.onlyIf (·.modCar)
  · exact h

theorem tablesWhole.settleDoneEff (h : tablesWhole s) {c} : tablesWhole (settleDoneEff c s) :=
  h.onlyIf (·.modCar)

theorem tablesWhole.captureEff (h : tablesWhole s) {c} : tablesWhole (captureEff c s) := by
  unfold Machine.captureEff
  extract_lets
  split
  · exact h.modCar.setF.andThen fun h => .ite (h.crgEvt.crgBump.andThen fun h => .ite
      h.crgBump.releaseMasks.modCar.seekCheck h.seekFail)
        (.ite h.seekRetry (.ite h.seekRetry h.releaseMasks.modCar.sledLoop))
  · exact h

theorem tablesWhole.captureTimeoutEff (h : tablesWhole s) {c} : tablesWhole (captureTimeoutEff c s) := by
  unfold Machine.captureTimeoutEff
  extract_lets
  split
  · exact h.seekRetry
  · exact h

theorem tablesWhole.fineDoneEff (h : tablesWhole s) {c} : tablesWhole (fineDoneEff c s) := by
  unfold Machine.fineDoneEff
  extract_lets
  split
  · exact .ite h h.setReg.crgEvt.crgBump.modCar.carReadyCheck.seekCheck
  · exact h

theorem tablesWhole.layerJumpDoneEff (h : tablesWhole s) {c} : tablesWhole (layerJumpDoneEff c s) := by
  unfold Machine.layerJumpDoneEff
  split
  · exact h.onlyIf (·.modCar.seekRest)
  · exact h

theorem tablesWhole.startTurnJump (h : tablesWhole s) {c} : tablesWhole (startTurnJump c s) := by
  unfold Machine.startTurnJump
  refine .ite h (.crgBump (.modCar ?_))
  split
  · exact h.engineMask
  · exact h

theorem tablesWhole.turnJumpDoneEff (h : tablesWhole s) {c} : tablesWhole (turnJumpDoneEff c s) := by
  unfold Machine.turnJumpDoneEff
  split
  · refine .ite (.modCar ?_) h
    split
    · exact h.engineMask
    · exact h
  · exact h

theorem tablesWhole.homingFailEff (h : tablesWhole s) {c} : tablesWhole (homingFailEff c s) :=
  h.onlyIf (·.crgEvt.sledOff.modCar.change)

theorem tablesWhole.homeLatch (h : tablesWhole s) {c} : tablesWhole (homeLatch c s) :=
  h.setReg.modCar.seekCheck

theorem tablesWhole.homeEdgeEff (h : tablesWhole s) {c active} : tablesWhole (homeEdgeEff c active s) :=
  h.modCar.andThen fun h => .ite (.ite h.modCar (.ite h.modCar (h.onlyIf (·.homeLatch))))
    (h.onlyIf (·.crgEvt.crgBump.releaseMasks.modCar.seekCheck))

theorem tablesWhole.homingRest (h : tablesWhole s) {c} : tablesWhole (homingRest c s) :=
  h.onlyIf fun h => .ite h.modCar (h.onlyIf (·.modCar))

theorem tablesWhole.profileTickEff (h : tablesWhole s) {c} : tablesWhole (profileTickEff c s) :=
  .ite h (((h.modCar.onlyIf (·.modCar.crgEvt.crgBump)).onlyIf (·.modCar)).andThen fun h => .seekCheck
    (.seekRest (.homingRest (.onlyIf (.onlyIf (.ite h.stepOne.modCar.loadTimer (h.onlyIf (·.loadTimer)))
      (·.modCar.crgBump)) (·.modCar)))))

theorem tablesWhole.crgCmdEff (h : tablesWhole s) {c act} (hact : ∀ {s}, tablesWhole s → tablesWhole (act s)) :
    tablesWhole (crgCmdEff c act s) := .ite (hact h.setF) h.setF.crgEvt

theorem tablesWhole.homeCmd (h : tablesWhole s) {c} : tablesWhole (homeCmd c s) :=
  .ite h h.releaseMasks.modCar.startHoming

theorem tablesWhole.moveCmd (h : tablesWhole s) {c} : tablesWhole (moveCmd c s) := by
  unfold Machine.moveCmd
  extract_lets
  split
  · exact h.onlyIf (·.modCar.startHoming)
  · exact h.modCar
  · exact h.modCar
  · exact h

theorem tablesWhole.crgClrFaultEff (h : tablesWhole s) {c} : tablesWhole (crgClrFaultEff c s) :=
  h.onlyIf (·.modCar)

theorem tablesWhole.crgForceSlipEff (h : tablesWhole s) {c} : tablesWhole (crgForceSlipEff c s) :=
  h.modCar.setF

/-! ### The strand channels (chapter 04) -/

theorem tablesWhole.chEvt (h : tablesWhole s) {f g} : tablesWhole (chEvt f g s) := h.evtAt

theorem tablesWhole.chBump (h : tablesWhole s) {g i n} : tablesWhole (chBump g i n s) := h.bumpBy

theorem tablesWhole.seedFetchEff (h : tablesWhole s) {c lf zone} : tablesWhole (seedFetchEff c lf zone s) :=
  h.onlyIf (·.chn)

theorem tablesWhole.seedReadyEff (h : tablesWhole s) {c} : tablesWhole (seedReadyEff c s) := by
  unfold Machine.seedReadyEff
  split
  · exact h.chn
  · exact h

theorem tablesWhole.writeRecord (h : tablesWhole s) {g p ps cands relaxed noSync} :
    tablesWhole (writeRecord g p ps cands relaxed noSync s) := by
  unfold Machine.writeRecord
  extract_lets
  split
  · exact h
  · exact h.modStrand

theorem tablesWhole.slotRegs (h : tablesWhole s) {g p} : tablesWhole (slotRegs g p s) := by
  unfold Machine.slotRegs
  extract_lets
  split
  · exact h
  · exact h.setReg.setReg.setReg

theorem tablesWhole.finishSlot (h : tablesWhole s) {g p} : tablesWhole (finishSlot g p s) :=
  h.onlyIf (·.setF.writeRecord.slotRegs)

theorem tablesWhole.slotStartEff (h : tablesWhole s) {g lf zone slot pre prev} :
    tablesWhole (slotStartEff g lf zone slot pre prev s) := by
  unfold Machine.slotStartEff
  extract_lets +onlyGivenNames s₁ old s₂ s₃
  have h₃ : tablesWhole s₃ := (h.finishSlot.onlyIf (·.setF)).onlyIf (·.setF)
  refine .ite h₃.modStrand ?_
  dsimp only
  split
  · exact h₃.modStrand.chEvt
  · exact (h₃.modStrand.setReg.setF.onlyIf (·.chBump)).modStrand

theorem tablesWhole.timingLostEff (h : tablesWhole s) {g pos} : tablesWhole (timingLostEff g pos s) :=
  h.onlyIf (·.modStrand.chBump.chEvt)

theorem tablesWhole.segmentEndEff (h : tablesWhole s) {g} : tablesWhole (segmentEndEff g s) := h.modStrand

theorem tablesWhole.defectStartEff (h : tablesWhole s) {g pos} : tablesWhole (defectStartEff g pos s) :=
  h.onlyIf (·.modStrand)

theorem tablesWhole.defectEndEff (h : tablesWhole s) {g pos} : tablesWhole (defectEndEff g pos s) :=
  h.onlyIf (·.modStrand)

theorem tablesWhole.revEnd (h : tablesWhole s) {g} : tablesWhole (revEnd g s) := h.modStrand

theorem tablesWhole.plyWedge (h : tablesWhole s) {c w ivl} : tablesWhole (plyWedge c w ivl s) :=
  h.modCar.onlyIf fun h => (h.modCar.mot.forEach (fun _ h => h.revEnd)).onlyIf (·.set64)

theorem tablesWhole.chevronFresh (h : tablesWhole s) {c} : tablesWhole (chevronFresh c s) := by
  unfold Machine.chevronFresh
  split
  · exact h
  · exact h.forEach fun _ h => h.modSlot

theorem tablesWhole.plyPosition (h : tablesWhole s) {c} : tablesWhole (plyPosition c s) :=
  .ite h.modCar.chevronFresh h.modCar

theorem tablesWhole.wedgeMissed (h : tablesWhole s) {g} : tablesWhole (wedgeMissed g s) := h.modStrand.chBump

theorem tablesWhole.wedgeFound (h : tablesWhole s) {g m} : tablesWhole (wedgeFound g m s) := by
  unfold Machine.wedgeFound
  extract_lets c st leg s₁ s₂ s₃ good s₄ pos
  have h₄ : tablesWhole s₄ := h.setReg.setReg.setReg.modCar
  clear_value pos
  split
  · exact h₄.setReg.modCar.modStrand
  · exact h₄.setF.modStrand

theorem tablesWhole.wedgeEff (h : tablesWhole s) {g w ivl m} : tablesWhole (wedgeEff g w ivl m s) := by
  unfold Machine.wedgeEff
  refine .ite h (.strandReadyCheck (.plyPosition ?_))
  split
  · exact .wedgeFound (.modStrand (.ite h h.plyWedge))
  · exact .wedgeMissed (.modStrand (.ite h h.plyWedge))

theorem tablesWhole.wedgeMissRevEff (h : tablesWhole s) {g} : tablesWhole (wedgeMissRevEff g s) :=
  .ite h (h.chEvt.modStrand.onlyIf (·.change.evt.carGradeCheck))

theorem tablesWhole.pinRecord (h : tablesWhole s) {g lf zone slot} : tablesWhole (pinRecord g lf zone slot s).2 := by
  unfold Machine.pinRecord
  extract_lets
  split
  · exact h
  · exact .iteSnd h (.iteSnd h.chBump.chEvt h.modStrand)

theorem tablesWhole.unpinSlot (h : tablesWhole s) {g lf zone slot} : tablesWhole (unpinSlot g lf zone slot s) :=
  h.forEach fun _ h => h.onlyIf (·.modStrand)

theorem tablesWhole.pinDelivery (h : tablesWhole s) {g lf zone slot} : tablesWhole (pinDelivery g lf zone slot s).2 :=
  (h.pinRecord.onlyIf (·.pinRecord)).onlyIf (·.pinRecord)

theorem tablesWhole.lastRegs (h : tablesWhole s) {g p ps cands relaxed noSync erased mse} :
    tablesWhole (lastRegs g p ps cands relaxed noSync erased mse s) :=
  .ite h ((((h.forEach (fun _ h => h.setReg)).forEach (fun _ h => h.setReg)).forEach
    (fun _ h => h.setReg)).setReg.setReg.forEach (fun _ h => h.setReg)).setReg

theorem tablesWhole.deliver (h : tablesWhole s) {g p} : tablesWhole (deliver g p s).2 :=
  (h.setF.writeRecord.slotRegs.lastRegs.chBump.chBump.onlyIf (·.chBump.chEvt)).onlyIf (·.chBump.chEvt)

theorem tablesWhole.forceMissEff (h : tablesWhole s) {g} : tablesWhole (forceMissEff g s) := h.modStrand.setF

theorem tablesWhole.forceDefectEff (h : tablesWhole s) {g} : tablesWhole (forceDefectEff g s) :=
  h.modStrand.setF

/-! ### Ordering, atomicity and durability (chapter 12) -/

theorem tablesWhole.gcHeld (h : tablesWhole s) : tablesWhole (gcHeld s) := h.media

theorem tablesWhole.passPnr (h : tablesWhole s) {ids} : tablesWhole (passPnr ids s) :=
  h.forEach fun _ h => h.onlyIf (·.modCmd)

theorem tablesWhole.noEngineEvt (h : tablesWhole s) : tablesWhole (noEngineEvt s) := h.evt

theorem tablesWhole.settleOne (h : tablesWhole s) {e} : tablesWhole (settleOne e s) := by
  unfold Machine.settleOne
  refine .ite ?_ (.ite (.ite h ?_) h)
  · split
    · exact h
    · refine .ite h.endCmd ?_
      split
      · exact h.endCmd
      · exact h.onlyIf (·.endCmd.noEngineEvt)
  · split
    · exact h.endCmd
    · exact h

theorem tablesWhole.settle (h : tablesWhole s) : tablesWhole (settle s) :=
  (h.forEach (fun _ h => h.settleOne)).gcHeld

theorem tablesWhole.commandRunEff (h : tablesWhole s) {t} : tablesWhole (commandRunEff t s) := by
  unfold Machine.commandRunEff
  split
  · exact h
  · exact .ite h (.ite h.modCmd.passPnr.bump h.modCmd)

theorem tablesWhole.writeSegs (h : tablesWhole s) {fn segs d} : tablesWhole (writeSegs fn segs d s) := by
  induction segs generalizing d s with
  | nil => exact h
  | cons seg segs ih => exact .ite h (ih h.emit)

theorem tablesWhole.sendData (h : tablesWhole s) {t c d} : tablesWhole (sendData t c d s) :=
  .ite h.emit h.writeSegs

theorem tablesWhole.readEff (h : tablesWhole s) {t} : tablesWhole (readEff t s) := by
  unfold Machine.readEff
  split
  · exact h
  · refine .ite h (.ite h ?_)
    split
    · exact h.endCmd.gcHeld
    · exact h.sendData.modCmd.endCmd.gcHeld

theorem tablesWhole.nopEff (h : tablesWhole s) {t} : tablesWhole (nopEff t s) := by
  unfold Machine.nopEff
  split
  · exact h.onlyIf (·.endCmd)
  · exact h

theorem tablesWhole.startWait (h : tablesWhole s) {op upTo t} : tablesWhole (startWait op upTo t s) := by
  unfold Machine.startWait
  split
  · exact h.onlyIf (·.modCmd.settle)
  · exact h

theorem tablesWhole.leaveLadders (h : tablesWhole s) {t} : tablesWhole (leaveLadders t s) :=
  h.pool.forEach fun _ h => h.unpinSlot

theorem tablesWhole.dropWrite (h : tablesWhole s) {seq} : tablesWhole (dropWrite seq s) := h.media

theorem tablesWhole.abortTarget (h : tablesWhole s) {t} : tablesWhole (abortTarget t s).2 := by
  unfold Machine.abortTarget
  split
  · exact h
  · exact .iteSnd h.bump (.iteSnd h.bump.evt (h.endCmd.onlyIf (·.dropWrite)).leaveLadders.bump.evt.settle)

theorem tablesWhole.abortEff (h : tablesWhole s) {t} : tablesWhole (abortEff t s) := by
  unfold Machine.abortEff
  split
  · exact h
  · refine .ite h (.ite h.endCmd ?_)
    split
    · exact .ite h.endCmd h.abortTarget.endCmd
    · exact .ite h.bump.endCmd h.endCmd

theorem tablesWhole.lockWaitLongEff (h : tablesWhole s) {t} : tablesWhole (lockWaitLongEff t s) := by
  unfold Machine.lockWaitLongEff
  split
  · exact h.onlyIf (·.modCmd.evt)
  · exact h

theorem tablesWhole.genLookupEff (h : tablesWhole s) : tablesWhole (genLookupEff s) := by
  unfold Machine.genLookupEff
  refine .evt (.setF (.setF (.ite h.setReg.setF.set64 ?_)))
  split
  · exact h.setReg.setFlag.set64
  · exact h.setReg.setF.set64

theorem tablesWhole.replayClearEff (h : tablesWhole s) : tablesWhole (replayClearEff s) := .ite h.evt h.modVol

theorem tablesWhole.suspectExpiryEff (h : tablesWhole s) {t} : tablesWhole (suspectExpiryEff t s) := by
  unfold Machine.suspectExpiryEff
  split
  · split
    · exact .ite h h.bump.endCmd.leaveLadders.gcHeld.evt
    · exact h
  · exact h

/-! ### Forming held data and packing hanks -/

theorem tablesWhole.newSkein (h : tablesWhole s) : tablesWhole (newSkein s).2 := h.media

theorem tablesWhole.openData (h : tablesWhole s) : tablesWhole (openData s).2 := by
  unfold Machine.openData
  split
  · exact h
  · exact h.newSkein.media

theorem tablesWhole.setMember (h : tablesWhole s) {key d kind data} : tablesWhole (setMember key d kind data s) :=
  h.modSkein

theorem tablesWhole.putMember (h : tablesWhole s) {kind data seq} : tablesWhole (putMember kind data seq s).2 :=
  h.openData.setMember.modSkein.onlyIf (·.sealSkein)

theorem tablesWhole.modHank (h : tablesWhole s) {id f} : tablesWhole (modHank id f s) := h.media

theorem tablesWhole.putBuf (h : tablesWhole s) {v b} : tablesWhole (putBuf v b s) := h.media

theorem tablesWhole.packMember (h : tablesWhole s) {v seq hanks data} : tablesWhole (packMember v seq hanks data s) :=
  h.putMember.forEach fun _ h => h.modHank

theorem tablesWhole.packFull (h : tablesWhole s) {v seq n hanks since bs} :
    tablesWhole (packFull v seq n hanks since bs s) := by
  induction n generalizing hanks since bs s with
  | zero => exact h.putBuf
  | succ n ih => exact .ite h.putBuf (ih h.packMember)

theorem tablesWhole.appendHank (h : tablesWhole s) {p stored} : tablesWhole (appendHank p stored s) :=
  h.modHank.media.packFull

theorem tablesWhole.flushBuf (h : tablesWhole s) {v} : tablesWhole (flushBuf v s) :=
  .ite h h.packMember.putBuf

theorem tablesWhole.formGo (h : tablesWhole s) {hs blocked} : tablesWhole (formGo hs blocked s) := by
  induction hs generalizing blocked s with
  | nil => exact h
  | cons k hs ih =>
    refine .ite (ih h) (.ite (ih h) (.ite (ih h) ?_))
    split
    · split
      · exact ih h.appendHank
      · exact ih h
    · exact ih (h.putMember.media.onlyIf (·.sealOpen))

theorem tablesWhole.sealFor (h : tablesWhole s) {e} : tablesWhole (sealFor e s) := by
  unfold Machine.sealFor
  split
  · exact h.onlyIf fun h => h.flushBuf.onlyIf (·.sealOpen)
  · exact h

theorem tablesWhole.formAll (h : tablesWhole s) : tablesWhole (formAll s) :=
  h.formGo.forEach fun _ h => h.sealFor

theorem tablesWhole.sealAll (h : tablesWhole s) : tablesWhole (sealAll s) :=
  (h.formAll.forEach (fun _ h => h.flushBuf)).sealOpen

theorem tablesWhole.readHost (h : tablesWhole s) {t c} : tablesWhole (readHost t c s) :=
  .ite h.modCmd (h.modCmd.forEach (fun _ h => h.emit))

theorem tablesWhole.writeEff (h : tablesWhole s) {t} : tablesWhole (writeEff t s) := by
  unfold Machine.writeEff
  split
  · exact h
  · exact .ite h (.ite h.endCmd.noEngineEvt (h.onlyIf (·.readHost)))

theorem tablesWhole.writeSpaceEff (h : tablesWhole s) : tablesWhole (writeSpaceEff s) :=
  h.forEach fun _ h => h.writeEff

theorem tablesWhole.queueHanks (h : tablesWhole s) {c} : tablesWhole (queueHanks c s) :=
  .ite h (h.forEach (fun _ h => h.media))

theorem tablesWhole.holdBlocks (h : tablesWhole s) {c data} : tablesWhole (holdBlocks c data s) := h.media

theorem tablesWhole.reachHeld (h : tablesWhole s) {t} : tablesWhole (reachHeld t s) := by
  unfold Machine.reachHeld
  split
  · exact h
  · exact .ite h (.settle (.formAll (.ite h.modCmd.queueHanks.modCmd h.modCmd.queueHanks.endCmd)))

theorem tablesWhole.writeHeldEff (h : tablesWhole s) {t data} : tablesWhole (writeHeldEff t data s) := by
  unfold Machine.writeHeldEff
  split
  · exact h
  · refine .ite h ?_
    split
    · exact h.evt.endCmd.dropWrite.formAll.settle
    · exact h.holdBlocks.modCmd.mirror.reachHeld

theorem tablesWhole.openRelocFor (h : tablesWhole s) {n} : tablesWhole (openRelocFor n s).2 := by
  unfold Machine.openRelocFor
  extract_lets
  split
  · split
    · exact .iteSnd h h.sealSkein.newSkein.media.modSkein
    · exact h.newSkein.media.modSkein
  · exact h.newSkein.media.modSkein

theorem tablesWhole.copyMembers (h : tablesWhole s) {old ms skein} : tablesWhole (copyMembers old ms skein s) :=
  h.openRelocFor.forEach fun _ h => h.setMember.modSkein.media

theorem tablesWhole.formReloc (h : tablesWhole s) {r} : tablesWhole (formReloc r s) :=
  .ite h (h.forEach (fun _ h => h.copyMembers)).media

theorem tablesWhole.sealReloc (h : tablesWhole s) : tablesWhole (sealReloc s) := by
  unfold Machine.sealReloc
  split
  · exact h.sealSkein
  · exact h

theorem tablesWhole.formRelocs (h : tablesWhole s) : tablesWhole (formRelocs s) :=
  .ite h (.ite h (h.forEach (fun _ h => h.formReloc)).sealReloc)

theorem tablesWhole.knotIntervalEff (h : tablesWhole s) {buf} : tablesWhole (knotIntervalEff buf s) := by
  unfold Machine.knotIntervalEff
  split
  · exact h.sealOpen.formRelocs
  · exact h.flushBuf

theorem tablesWhole.relocPauseEff (h : tablesWhole s) {on} : tablesWhole (relocPauseEff on s) := h.setFlag

/-! ### Passes of the carriages (chapter 06) -/

theorem tablesWhole.sendPdl (h : tablesWhole s) {c frame} : tablesWhole (sendPdl c frame s) := h.modWcar.emit

theorem tablesWhole.sendPowers (h : tablesWhole s) {c addr vals} : tablesWhole (sendPowers c addr vals s) :=
  .ite h.sendPdl (h.forEach (fun _ h => h.sendPdl))

theorem tablesWhole.setPowers (h : tablesWhole s) {c lf zone} : tablesWhole (setPowers c lf zone s) :=
  .ite h h.sendPowers.sendPowers.sendPdl.modWcar

theorem tablesWhole.pdlFrameEff (h : tablesWhole s) {c resp} : tablesWhole (pdlFrameEff c resp s) :=
  .ite h (.ite (h.modWcar.onlyIf (·.setReg)) (.ite h.modWcar.emit
    (h.modWcar.bump.onlyIf (·.setReg)).stopAtSlot.evt.carGradeCheck))

theorem tablesWhole.drvPollEff (h : tablesWhole s) {c st} : tablesWhole (drvPollEff c st s) :=
  .ite h ((h.onlyIf (·.modWcar.evt)).modWcar.onlyIf (·.stopAtSlot)).carGradeCheck

theorem tablesWhole.pdlCmdEff (h : tablesWhole s) {c frame} : tablesWhole (pdlCmdEff c frame s) :=
  .ite h (h.setReg.onlyIf (·.setReg.sendPdl))

theorem tablesWhole.placeSkein (h : tablesWhole s) {key} : tablesWhole (placeSkein key s) := by
  unfold Machine.placeSkein
  refine .ite (.settle (.modSkein ?_)) (h.onlyIf (·.modSkein.mirror))
  split
  · exact h.onlyIf (·.evt.bump)
  · exact h

theorem tablesWhole.gather (h : tablesWhole s) {c f lim n keys} : tablesWhole (gather c f lim n keys s).2 := by
  induction n generalizing keys s with
  | zero => exact h
  | succ n ih =>
    cases keys with
    | nil => exact h
    | cons key rest =>
      have hp : ∀ {b : Prop} {_ : Decidable b}, tablesWhole (if b then s else Machine.placeSkein key s) := .ite h
        h.placeSkein
      exact .iteSnd (ih hp) hp

theorem tablesWhole.dropBadLanes (h : tablesWhole s) {c} : tablesWhole (dropBadLanes c s) := by
  unfold Machine.dropBadLanes
  refine h.forEach fun _ h => ?_
  split
  · exact .ite h h.reform
  · exact h

theorem tablesWhole.firePulse (h : tablesWhole s) {key} : tablesWhole (firePulse key s) := by
  unfold Machine.firePulse
  split
  · exact h
  · exact .ite h (h.modSkein.forEach (fun _ h => h.onlyIf (·.modCmd)))

theorem tablesWhole.beginPass (h : tablesWhole s) {c lf z ks} : tablesWhole (beginPass c lf z ks s) :=
  (h.setPowers.modWcar.setGate.forEach (fun _ h => h.firePulse)).bump

theorem tablesWhole.planPass (h : tablesWhole s) {c} : tablesWhole (planPass c s) := by
  unfold Machine.planPass
  extract_lets
  split
  · exact h.dropBadLanes
  · exact .ite h.dropBadLanes.gather (h.dropBadLanes.gather.modWcar.andThen fun h => .ite h.modWcar
      (h.onlyIf (·.beginPass)))

theorem tablesWhole.passStartEff (h : tablesWhole s) {c} : tablesWhole (passStartEff c s) := .ite h h.planPass

theorem tablesWhole.preReadEff (h : tablesWhole s) {c written} : tablesWhole (preReadEff c written s) := by
  unfold Machine.preReadEff
  refine .ite h ?_
  split
  · exact h.modWcar.onlyIf (·.planPass)
  · exact (h.modWcar.forEach (fun _ h => h.reform)).bumpBy.evt.onlyIf (·.planPass)

theorem tablesWhole.passWriteEndEff (h : tablesWhole s) {c} : tablesWhole (passWriteEndEff c s) := by
  unfold Machine.passWriteEndEff
  refine .ite h (.ite h.abandonPass (((h.setGate.forEach (fun _ h => ?_)).forEach (fun _ h => h.emit)).forEach
    (fun _ h => h.modSkein)).bumpBy.bumpBy.bumpBy.modWcar.startTurnJump)
  split
  · exact h.forEach fun _ h => h.emit
  · exact h

theorem tablesWhole.turnJumpEndEff (h : tablesWhole s) {c} : tablesWhole (turnJumpEndEff c s) :=
  .ite h (h.turnJumpDoneEff.onlyIf (·.modWcar))

theorem tablesWhole.verifyOutcome (h : tablesWhole s) {key m ok} : tablesWhole (verifyOutcome key m ok s) := by
  unfold Machine.verifyOutcome
  extract_lets
  split
  · exact h.bump
  · refine .ite h.bump.modSkein (.ite h.bump.modSkein.bump.evt.reform.settle ?_)
    split
    · exact h.bump.modSkein.onlyIf (·.modSkein.mirror)
    · exact h.bump.modSkein

theorem tablesWhole.verifyRevEndEff (h : tablesWhole s) {c} : tablesWhole (verifyRevEndEff c s) := by
  unfold Machine.verifyRevEndEff
  refine .ite h ((h.modWcar.forEach (fun _ h => h.forEach (fun _ h => ?_))).onlyIf (·.modWcar))
  split
  · exact h.onlyIf (·.verifyOutcome)
  · exact h

theorem tablesWhole.retryHeldEff (h : tablesWhole s) : tablesWhole (retryHeldEff s) := h.grantFresh.settle

theorem tablesWhole.writeInhibitEff (h : tablesWhole s) {on} : tablesWhole (writeInhibitEff on s) := h.setFlag

theorem tablesWhole.laserIlkEff (h : tablesWhole s) : tablesWhole (laserIlkEff s) :=
  .ite h ((h.frame.stopAllNow.forEach (fun _ h => h.setGate.setLen)).bump.evt.forEach (fun _ h => .ite h h.change))

theorem tablesWhole.interlockReleaseEff (h : tablesWhole s) : tablesWhole (interlockReleaseEff s) :=
  .ite h (h.frame.forEach (fun _ h => h.onlyIf (fun h => h.change.onlyIf (·.acquireCar))))

/-! ### Knots and the map they make -/

theorem tablesWhole.formKnotSkein (h : tablesWhole s) {ready} : tablesWhole (formKnotSkein ready s) := by
  unfold Machine.formKnotSkein
  refine (h.newSkein.modSkein.forEach (fun _ h => ?_)).sealSkein
  split
  · exact h.setMember.setMember.modVol.mirror
  · exact h

theorem tablesWhole.knotReadyEff (h : tablesWhole s) {elapsed} : tablesWhole (knotReadyEff elapsed s) :=
  .ite h h.formKnotSkein

theorem tablesWhole.writeAnchor (h : tablesWhole s) : tablesWhole (writeAnchor s) :=
  .ite h.media h.media.emit.emit.media

theorem tablesWhole.ckptForm (h : tablesWhole s) {v} : tablesWhole (ckptForm v s) := by
  unfold Machine.ckptForm
  split
  · exact h.newSkein.modSkein.setMember.sealSkein
  · exact h

theorem tablesWhole.ckptBegin (h : tablesWhole s) {v} : tablesWhole (ckptBegin v s) :=
  .ite h h.modVol.ckptForm

theorem tablesWhole.ckptAdvance (h : tablesWhole s) {v} : tablesWhole (ckptAdvance v s) := by
  unfold Machine.ckptAdvance
  split
  · exact h
  · split
    · exact h
    · exact .ite h.dropSkein.modVol.ckptForm h.dropSkein.modVol.writeAnchor

theorem tablesWhole.ckptAll (h : tablesWhole s) : tablesWhole (ckptAll s) :=
  h.forEach fun _ h => h.ckptAdvance

theorem tablesWhole.gcSkeins (h : tablesWhole s) : tablesWhole (gcSkeins s) := h.media

theorem tablesWhole.relocApplied (h : tablesWhole s) {n} : tablesWhole (relocApplied n s) :=
  .ite h.media.bumpBy h.media.bumpBy.evt

theorem tablesWhole.mapKnot (h : tablesWhole s) {place pair n} : tablesWhole (mapKnot place pair n s) :=
  (h.onlyIf (·.relocApplied)).modVol.media

theorem tablesWhole.applyKnot (h : tablesWhole s) {place pair n} : tablesWhole (applyKnot place pair n s) :=
  ((h.mapKnot.onlyIf (·.change)).onlyIf (·.ckptBegin)).onlyIf (·.writeAnchor)

theorem tablesWhole.applyKnots (h : tablesWhole s) {place q ns} : tablesWhole (applyKnots place q ns s) := by
  induction ns generalizing q s with
  | nil => exact h
  | cons n ns ih => exact ih h.applyKnot

theorem tablesWhole.knotVerifiedEff (h : tablesWhole s) {key} : tablesWhole (knotVerifiedEff key s) := by
  unfold Machine.knotVerifiedEff
  split
  · exact h
  · exact .ite h (.andThen (.ite h h.modSkein.mirror) fun h => .ite h h.dropSkein.applyKnots.gcSkeins.settle.formAll)

/-! ### The hank engines (R233 to R245) -/

theorem tablesWhole.modHeng (h : tablesWhole s) {n f} : tablesWhole (modHeng n f s) :=
  h.newMedia (by simp [mediaWhole])

theorem tablesWhole.putHankQueue (h : tablesWhole s) {q} : tablesWhole (putHankQueue q s) := h.media

theorem tablesWhole.hankDispatchEff (h : tablesWhole s) {n} : tablesWhole (hankDispatchEff n s) := by
  unfold Machine.hankDispatchEff
  refine .ite h ?_
  split
  · exact h
  · exact h.putHankQueue.modHeng

theorem tablesWhole.hankReadOne (h : tablesWhole s) {t} : tablesWhole (hankReadOne t s) := by
  unfold Machine.hankReadOne
  split
  · exact h
  · refine .ite h (.ite h (.ite h.endCmd.leaveLadders.gcHeld.noEngineEvt (h.forEach fun _ h => ?_)))
    dsimp only
    split
    · exact h
    · exact h.onlyIf (·.putHankQueue)

theorem tablesWhole.hankReads (h : tablesWhole s) : tablesWhole (hankReads s) :=
  h.forEach fun _ h => h.hankReadOne

theorem tablesWhole.hankFault (h : tablesWhole s) {n} : tablesWhole (hankFault n s) :=
  h.modHeng.bump.evt.onlyIf (·.noEngineEvt.settle.hankReads)

theorem tablesWhole.hankFree (h : tablesWhole s) {n} : tablesWhole (hankFree n s) := h.modHeng

theorem tablesWhole.hankCodeEff (h : tablesWhole s) {n sound} : tablesWhole (hankCodeEff n sound s) := by
  unfold Machine.hankCodeEff
  extract_lets
  split
  · exact h
  · refine .ite h (.ite ?_ (h.hankFree.setF.bump.evt.onlyIf (·.putHankQueue)).hankFault)
    split
    · exact h.hankFree.setF
    · exact (h.hankFree.setF.bump.onlyIf (·.bump)).modHank.formAll

theorem tablesWhole.hankFailed (h : tablesWhole s) {r first second} : tablesWhole (hankFailed r first second s) := by
  unfold Machine.hankFailed
  extract_lets
  split
  · exact h.bump.evt.modCmd
  · exact h.bump.evt

theorem tablesWhole.hankDecompressEff (h : tablesWhole s) {n sound} : tablesWhole (hankDecompressEff n sound s) := by
  unfold Machine.hankDecompressEff
  extract_lets e s₁ s₂ s₃
  have h₁ : tablesWhole s₁ := h.hankFree
  split
  · exact h
  · refine .ite h ?_
    split
    · extract_lets s₄
      have h₄ : tablesWhole s₄ := by
        unfold s₄
        split
        · exact h₁.bump.modCmd
        · exact h₁.bump
      split
      · exact h₄.hankFault
      · exact h₄
    · split
      · exact h₁.bump.hankFailed
      · exact .ite h₁.bump.putHankQueue h₁.bump.hankFailed

theorem tablesWhole.hankRestoreEff (h : tablesWhole s) {n} : tablesWhole (hankRestoreEff n s) :=
  .ite h (h.setF.onlyIf (·.modHeng))

theorem tablesWhole.hankRestoreDoneEff (h : tablesWhole s) {n pass} : tablesWhole (hankRestoreDoneEff n pass s) :=
  .ite h (h.setF.modHeng.andThen fun h => .ite h.bump (.onlyIf (.evt (.ite h h.bump))
    (·.noEngineEvt.settle.hankReads)))

theorem tablesWhole.hankForceEff (h : tablesWhole s) {on} : tablesWhole (hankForceEff on s) := h.setFlag

/-! ### The decoder pool, the ladder and the skein engines (R158 to R187) -/

theorem tablesWhole.modLadder (h : tablesWhole s) {id f} : tablesWhole (modLadder id f s) := h.pool

theorem tablesWhole.dropLadder (h : tablesWhole s) {id} : tablesWhole (dropLadder id s) := h.pool

theorem tablesWhole.modRecon (h : tablesWhole s) {id f} : tablesWhole (modRecon id f s) := h.pool

theorem tablesWhole.dropRecon (h : tablesWhole s) {id} : tablesWhole (dropRecon id s) := h.pool

theorem tablesWhole.putCached (h : tablesWhole s) {skein m c} : tablesWhole (putCached skein m c s) := h.pool

theorem tablesWhole.decEvt (h : tablesWhole s) {f a} : tablesWhole (decEvt f a s) := h.evt

theorem tablesWhole.queueReloc (h : tablesWhole s) {skein place} : tablesWhole (queueReloc skein place s) :=
  .ite h (.ite h.evt.bump (.ite h.evt.bump h.media.bump))

theorem tablesWhole.mediaWeak (h : tablesWhole s) {skein place kind} : tablesWhole (mediaWeak skein place kind s) :=
  .ite h.evt h.queueReloc

theorem tablesWhole.weakCount (h : tablesWhole s) {skein place} : tablesWhole (weakCount skein place s) :=
  h.pool.onlyIf (·.queueReloc)

theorem tablesWhole.l4End (h : tablesWhole s) : tablesWhole (l4End s) := h.onlyIf (·.pool.modSpn.arbitrate)

theorem tablesWhole.l4Begin (h : tablesWhole s) : tablesWhole (l4Begin s) :=
  .ite h h.pool.modSpn.arbitrate.evt

theorem tablesWhole.l4ReachedEff (h : tablesWhole s) : tablesWhole (l4ReachedEff s) := by
  unfold Machine.l4ReachedEff
  split
  · exact h
  · exact h.onlyIf (·.pool)

theorem tablesWhole.settleSibling (h : tablesWhole s) {id m v} : tablesWhole (settleSibling id m v s) := by
  unfold Machine.settleSibling
  split
  · exact h
  · exact .ite h (h.modRecon.onlyIf (·.pool))

theorem tablesWhole.unpinLadder (h : tablesWhole s) {l} : tablesWhole (unpinLadder l s) :=
  h.unpinSlot.modLadder

theorem tablesWhole.ladderSucceed (h : tablesWhole s) {l data kind} : tablesWhole (ladderSucceed l data kind s) := by
  unfold Machine.ladderSucceed
  extract_lets s₁ s₂ s₃ s₄ s₅ s₆
  have h₄ : tablesWhole s₄ := h.bump.putCached.unpinLadder.forEach fun _ h => h.settleSibling
  have h₅ : tablesWhole s₅ := .ite h₄.mediaWeak (h₄.onlyIf (·.weakCount))
  refine .hankReads (.l4End (.dropLadder ?_))
  unfold s₆
  split
  · exact h₅.dropRecon
  · exact h₅

theorem tablesWhole.ladderFail (h : tablesWhole s) {l} : tablesWhole (ladderFail l s) := by
  unfold Machine.ladderFail
  extract_lets s₁ s₂ s₃ s₄ _ _ s₅ s₆
  have h₃ : tablesWhole s₃ := h.bump.decEvt.unpinLadder.forEach fun _ h => by
    split
    · exact h.modCmd
    · exact h
  have h₄ : tablesWhole s₄ := h₃.forEach fun _ h => h.settleSibling
  have h₅ : tablesWhole s₅ := .ite h₄ h₄.evt.bumpBy.media
  refine .l4End (.dropLadder ?_)
  unfold s₆
  split
  · exact h₅.dropRecon
  · exact h₅

theorem tablesWhole.startRecon (h : tablesWhole s) {l} : tablesWhole (startRecon l s) :=
  h.pool.modLadder.pool.onlyIf (·.modRecon.pool)

theorem tablesWhole.startCombine (h : tablesWhole s) {l} : tablesWhole (startCombine l s) :=
  h.queueReloc.modLadder

theorem tablesWhole.enterStep (h : tablesWhole s) {id n} : tablesWhole (enterStep id n s) := by
  unfold Machine.enterStep
  split
  · exact h
  · exact (h.onlyIf (fun h => h.forEach (fun _ h => h.settleSibling))).modLadder.andThen fun h => .ite
      h.unpinLadder.dropLadder.l4End (.ite h.ladderFail
        (((h.modLadder.onlyIf (·.queueReloc)).onlyIf (·.unpinLadder)).andThen fun h => .ite h.modLadder
          (.ite h.modLadder.l4Begin (.ite h.startRecon.l4End (h.onlyIf (·.startCombine.l4End))))))

theorem tablesWhole.newLadder (h : tablesWhole s) {skein m place} : tablesWhole (newLadder skein m place s).2 :=
  h.pool

theorem tablesWhole.sweepMember (h : tablesWhole s) {t w} : tablesWhole (sweepMember t w s) := by
  unfold Machine.sweepMember
  extract_lets a g sus
  clear_value sus
  split
  · exact .ite h h.modCmd.bump
  · split
    · exact h.modLadder
    · exact .ite h h.newLadder.modLadder.enterStep

theorem tablesWhole.poolSweep (h : tablesWhole s) : tablesWhole (poolSweep s) :=
  (((h.forEach (fun _ h => h.forEach (fun _ h => h.sweepMember))).forEach
    (fun _ h => h.onlyIf (·.modLadder.enterStep))).forEach
      (fun _ h => h.forEach (fun _ h => h.onlyIf (·.settleSibling)))).hankReads

theorem tablesWhole.addJob (h : tablesWhole s) {j} : tablesWhole (addJob j s) := h.pool

theorem tablesWhole.sectorDeliveryEff (h : tablesWhole s) {g a p} : tablesWhole (sectorDeliveryEff g a p s) := by
  unfold Machine.sectorDeliveryEff
  refine .ite h ?_
  generalize hd : Machine.deliver g p s = r
  have h : tablesWhole r.2 := hd ▸ h.deliver
  obtain ⟨d, s⟩ := r
  dsimp -zeta only
  split
  · exact h
  · refine .ite h.bump.decEvt ?_
    extract_lets _ s₁
    have h₁ : tablesWhole s₁ := h.pool
    clear_value s₁
    split
    · rename_i s₂ l j _ s₃ _ _
      have h₂ : tablesWhole s₂ := by
        unfold s₂
        refine .modLadder ?_
        refine .pinDelivery ?_
        split
        · exact h₁
        · exact h₁.newLadder
      have h₃ : tablesWhole s₃ := h₂.pool
      clear_value s₃ j l s₂
      refine .ite ?_ h₂.addJob
      split
      · exact h₃.modLadder.addJob
      · exact h₃.addJob
    · exact h₁.addJob
    · exact h₁.addJob

theorem tablesWhole.poolDispatchEff (h : tablesWhole s) {redet idx} : tablesWhole (poolDispatchEff redet idx s) := by
  unfold Machine.poolDispatchEff
  refine .ite h.poolSweep ?_
  split
  · exact h.poolSweep
  · exact .andThen (.onlyIf (.ite (h.poolSweep.pool.newPool (by simp [poolWhole]))
      (h.poolSweep.pool.newPool (by simp [poolWhole]))) (·.bump.decEvt)) fun h => .ite h.bump (h.onlyIf (·.bump))

theorem tablesWhole.countOutcome (h : tablesWhole s) {j o} : tablesWhole (countOutcome j o s) := by
  unfold Machine.countOutcome
  split
  · exact h.bump
  · exact h.bump.decEvt
  · exact h.bump.decEvt
  · exact h

theorem tablesWhole.verifyDone (h : tablesWhole s) {j d o key m} : tablesWhole (verifyDone j d o key m s) :=
  .ckptAll (.verifyOutcome (.ite h h.bump))

theorem tablesWhole.nextTrial (h : tablesWhole s) {j l} : anyWhole (nextTrial j l s) := by
  unfold Machine.nextTrial
  split
  · exact h.modLadder.addJob.some
  · exact .none

theorem tablesWhole.readExhausted (h : tablesWhole s) {l} : tablesWhole (readExhausted l s) :=
  .ite h.enterStep (.ite (.ite h.modLadder h.enterStep) (.ite (.ite h.modLadder h.enterStep) h))

theorem tablesWhole.tryL2 (h : tablesWhole s) {fromL1 j l} : tablesWhole (tryL2 fromL1 j l s) := by
  unfold Machine.tryL2
  refine .ite h.readExhausted ?_
  dsimp only
  have h₁ : tablesWhole (if l.step ≤ 1 then Machine.enterStep l.id 2 s else s) := h.onlyIf (·.enterStep)
  split
  · exact h₁
  · exact h₁.modLadder.nextTrial.orElse h₁.readExhausted

theorem tablesWhole.nextGlobal (h : tablesWhole s) {mode j} : tablesWhole (nextGlobal mode j s) := h.addJob

theorem tablesWhole.memberFailed (h : tablesWhole s) {j o l} : tablesWhole (memberFailed j o l s) := by
  unfold Machine.memberFailed
  refine .ite (.ite (h.nextTrial.orElse h.readExhausted) h.addJob)
    (.ite (.ite h.tryL2 ?_)
      (.ite (.ite h.nextGlobal h.tryL2) (.ite h.nextGlobal (h.nextTrial.orElse h.readExhausted))))
  dsimp only
  have h₁ : tablesWhole (if l.step = 0 then Machine.enterStep l.id 1 s else s) := h.onlyIf (·.enterStep)
  split
  · exact h₁.addJob
  · exact h₁

theorem tablesWhole.takeBody (h : tablesWhole s) {j l m body} : tablesWhole (takeBody j l m body s) := by
  unfold Machine.takeBody
  extract_lets
  split
  · split
    · exact h.modLadder.addJob
    · exact h.modLadder
  · exact h.modLadder

theorem tablesWhole.combineSettled (h : tablesWhole s) {l m} : tablesWhole (combineSettled l m s) := by
  unfold Machine.combineSettled
  extract_lets
  split
  · refine .ite (.startRecon (.modLadder ?_)) h.modLadder
    split
    · exact h.modLadder.dropRecon
    · exact h.modLadder
  · exact h.modLadder

theorem tablesWhole.combineDone (h : tablesWhole s) {j d o l m} : tablesWhole (combineDone j d o l m s) := by
  unfold Machine.combineDone
  refine .ite (.ite h.ladderSucceed h.putCached.combineSettled) (.ite h.combineSettled (.ite h.takeBody ?_))
  dsimp only
  split
  · exact .ite h.takeBody h.addJob
  · exact h.takeBody

theorem tablesWhole.redetCompleteEff (h : tablesWhole s) {idx} : tablesWhole (redetCompleteEff idx s) := by
  unfold Machine.redetCompleteEff
  split
  · exact h
  · dsimp only
    split
    · exact .addJob (h.newPool (by simp [poolWhole]))
    · exact h.newPool (by simp [poolWhole])

theorem tablesWhole.engineCompleteEff (h : tablesWhole s) {idx} : tablesWhole (engineCompleteEff idx s) := by
  unfold Machine.engineCompleteEff
  split
  · exact h
  · extract_lets +onlyGivenNames _ s₁ d forced s₂ o s₃ _ s₄
    have h₁ : tablesWhole s₁ := h.newPool fun h => by simpa [poolWhole] using h
    have h₄ : tablesWhole s₄ := (h₁.onlyIf (·.setF)).countOutcome.onlyIf (·.pool)
    split
    · exact h₄.verifyDone
    · exact h₄.onlyIf (·.pool)
    · split
      · exact h₄.combineDone
      · exact h₄
    · split
      · exact h₄
      · exact .ite h₄ (.ite h₄.pool.ladderSucceed h₄.memberFailed)

theorem tablesWhole.poolCompleteEff (h : tablesWhole s) {redet idx} : tablesWhole (poolCompleteEff redet idx s) :=
  .poolSweep (.ite h.redetCompleteEff h.engineCompleteEff)

theorem tablesWhole.parityDone (h : tablesWhole s) {key} : tablesWhole (parityDone key s) := by
  unfold Machine.parityDone
  split
  · exact h
  · exact h.modSkein.bump.joinQueues

theorem tablesWhole.reconDone (h : tablesWhole s) {id} : tablesWhole (reconDone id s) := by
  unfold Machine.reconDone
  split
  · exact h
  · extract_lets mask e all mism s₁ s₂ s₃ s₄
    have h₄ : tablesWhole s₄ := (h.setReg.bump.onlyIf (·.bump)).onlyIf (·.bump.evt)
    clear_value all s₄
    split
    · exact h₄.dropRecon
    · split
      · exact h₄.bump.ladderSucceed
      · exact .ite h₄.enterStep (.ite h₄.startCombine h₄.ladderFail)

theorem tablesWhole.skeinEngineEff (h : tablesWhole s) {n} : tablesWhole (skeinEngineEff n s) := by
  unfold Machine.skeinEngineEff
  refine .ite h ?_
  extract_lets take
  have htake {s : State} (h : tablesWhole s) : tablesWhole (take s).2 := by
    unfold take
    split
    · exact h.pool
    · exact h
  clear_value take
  have hp : tablesWhole (match s.pool.sengs.getD n none with
      | Option.some j => (Option.some j, s)
      | Option.none => take s).2 := by
    split
    · exact h
    · exact htake h
  refine .pool (htake ?_)
  split
  · exact hp.parityDone
  · exact hp.reconDone
  · exact hp

theorem tablesWhole.pauseRecoveryEff (h : tablesWhole s) {on} : tablesWhole (pauseRecoveryEff on s) :=
  h.setFlag

theorem tablesWhole.forceEfEff (h : tablesWhole s) {on} : tablesWhole (forceEfEff on s) := h.setFlag

/-! ### Host rings (chapter 11) -/

theorem tablesWhole.modFn (h : tablesWhole s) {f g} : tablesWhole (modFn f g s) := h.host

theorem tablesWhole.putCtx (h : tablesWhole s) {r c} : tablesWhole (putCtx r c s) := h.host

theorem tablesWhole.modCtx (h : tablesWhole s) {r f} : tablesWhole (modCtx r f s) := by
  unfold Machine.modCtx
  split
  · exact h.putCtx
  · exact h

theorem tablesWhole.putBell (h : tablesWhole s) {r d} : tablesWhole (putBell r d s) := h.host

theorem tablesWhole.touch (h : tablesWhole s) {r} : tablesWhole (touch r s) := h.host.modCtx

theorem tablesWhole.signalVec (h : tablesWhole s) {f v} : tablesWhole (signalVec f v s) :=
  .ite h (.ite h.host h.emit.bump)

theorem tablesWhole.ringSignal (h : tablesWhole s) {r} : tablesWhole (ringSignal r s) := by
  unfold Machine.ringSignal
  split
  · exact h.onlyIf (·.modCtx.signalVec)
  · exact h

theorem tablesWhole.moderate (h : tablesWhole s) {r good} : tablesWhole (moderate r good s) := by
  unfold Machine.moderate
  split
  · exact h
  · exact .ite h (h.modCtx.onlyIf (·.ringSignal))

theorem tablesWhole.coalesceEff (h : tablesWhole s) {r} : tablesWhole (coalesceEff r s) := by
  unfold Machine.coalesceEff
  split
  · exact .ite h h.ringSignal
  · exact h

theorem tablesWhole.unmaskOne (h : tablesWhole s) {f v} : tablesWhole (unmaskOne f v s) :=
  h.onlyIf (·.host.emit.bump)

theorem tablesWhole.unmaskAll (h : tablesWhole s) {f} : tablesWhole (unmaskAll f s) :=
  h.forEach fun _ h => h.onlyIf (·.unmaskOne)

theorem tablesWhole.msixUnmaskEff (h : tablesWhole s) {f v} : tablesWhole (msixUnmaskEff f v s) := by
  unfold Machine.msixUnmaskEff
  split
  · exact h.host.unmaskOne
  · exact h.modFn.unmaskAll

theorem tablesWhole.ringError (h : tablesWhole s) {f r cause} : tablesWhole (ringError f r cause s) :=
  h.setF.setF.bump.evt

theorem tablesWhole.haltRing (h : tablesWhole s) {r cause} : tablesWhole (haltRing r cause s) := by
  unfold Machine.haltRing
  split
  · exact .ite h h.modCtx.ringError
  · exact h

theorem tablesWhole.hostAccess (h : tablesWhole s) {f r} : tablesWhole (hostAccess f r s) := h.evt

theorem tablesWhole.applyTail (h : tablesWhole s) {r t} : tablesWhole (applyTail r t s) := by
  unfold Machine.applyTail
  split
  · exact .ite h (.ite h.modCtx h.haltRing)
  · exact h

theorem tablesWhole.applyHead (hs : tablesWhole s) {r h} : tablesWhole (applyHead r h s) := by
  unfold Machine.applyHead
  split
  · exact .ite hs.modCtx hs.haltRing
  · exact hs

theorem tablesWhole.applyBell (h : tablesWhole s) {r tail head} : tablesWhole (applyBell r tail head s) := by
  unfold Machine.applyBell
  extract_lets s₁
  have h₁ : tablesWhole s₁ := by
    unfold s₁
    split
    · exact h.applyTail
    · exact h
  split
  · exact h₁.applyHead
  · exact h₁

theorem tablesWhole.discardBell (h : tablesWhole s) {f r} : tablesWhole (discardBell f r s) := h.bump.evt

theorem tablesWhole.writeBack (h : tablesWhole s) {r} : tablesWhole (writeBack r s) := by
  unfold Machine.writeBack
  split
  · exact h
  · exact (h.onlyIf (·.ringSignal)).emit.putBell.putCtx

theorem tablesWhole.takeCtx (h : tablesWhole s) {f} : anyWhole (takeCtx f s) := by
  unfold Machine.takeCtx
  split
  · exact .none
  · refine .ite h.some (.ite h.some ?_)
    dsimp only
    split
    · exact h.writeBack.bump.some
    · refine .ite ?_ .none
      split
      · exact h.writeBack.bump.some
      · exact .none

theorem tablesWhole.readDesc (h : tablesWhole s) {r} : tablesWhole (readDesc r s) := by
  unfold Machine.readDesc
  split
  · exact h.emit
  · exact h

theorem tablesWhole.startLoad (h : tablesWhole s) {r} : tablesWhole (startLoad r s) := by
  unfold Machine.startLoad
  refine .ite h ?_
  split
  · exact h
  · split
    next u e => exact (h.takeCtx u e).host.onlyIf (·.readDesc)
    next => exact h.host.evt

theorem tablesWhole.retryStarved (h : tablesWhole s) : tablesWhole (retryStarved s) :=
  h.forEach fun _ h => h.startLoad

theorem tablesWhole.endLoad (h : tablesWhole s) {r} : tablesWhole (endLoad r s) := by
  unfold Machine.endLoad
  dsimp only
  split
  · exact h.host.readDesc
  · exact h.host

theorem tablesWhole.doorbellEff (h : tablesWhole s) {f off size v} : tablesWhole (doorbellEff f off size v s) := by
  unfold Machine.doorbellEff
  refine .ite h (.ite h.discardBell ?_)
  dsimp only
  split
  · exact h.touch.applyBell
  · exact h.putBell.retryStarved.startLoad

theorem tablesWhole.ctxLoadEff (h : tablesWhole s) {r desc} : tablesWhole (ctxLoadEff r desc s) := by
  unfold Machine.ctxLoadEff
  refine .ite h ?_
  dsimp only
  split
  · exact h.endLoad
  · split
    · exact h.endLoad.hostAccess.ringError.retryStarved
    · exact h.endLoad
    · refine .ite h.endLoad.putBell.discardBell.retryStarved ?_
      split
      · exact h.endLoad.ringError.retryStarved
      · exact h.endLoad.putBell.putCtx.bump.touch.applyBell

theorem tablesWhole.ringStat (h : tablesWhole s) {f r done} : tablesWhole (ringStat f r done s) :=
  h.setReg.setFlag.setFlag.setFlag.setFlag.setF

theorem tablesWhole.ringRefused (h : tablesWhole s) {f} : tablesWhole (ringRefused f s) := h.setReg

theorem tablesWhole.invalidateDoneEff (h : tablesWhole s) {r} : tablesWhole (invalidateDoneEff r s) := by
  unfold Machine.invalidateDoneEff
  split
  · exact h.onlyIf (·.writeBack.ringStat.retryStarved)
  · exact h

theorem tablesWhole.invalidateEff (h : tablesWhole s) {f r} : tablesWhole (invalidateEff f r s) := by
  unfold Machine.invalidateEff
  refine .ite h.ringRefused ?_
  split
  · exact h.modCtx.ringStat
  · exact (h.onlyIf (·.endLoad)).host.ringStat

theorem tablesWhole.ringQueryEff (h : tablesWhole s) {f r} : tablesWhole (ringQueryEff f r s) :=
  .ite h.ringRefused h.ringStat

theorem tablesWhole.dropPosted (h : tablesWhole s) {t} : tablesWhole (dropPosted t s) := h.host.freeTag

theorem tablesWhole.sendOutcome (h : tablesWhole s) {t c} : tablesWhole (sendOutcome t c s) :=
  h.emit.dropPosted

theorem tablesWhole.cplFull (h : tablesWhole s) {t r c} : tablesWhole (cplFull t r c s) :=
  .evt (.ite h h.modCmd.bump)

theorem tablesWhole.postOne (h : tablesWhole s) {t c x} : tablesWhole (postOne t c x s) :=
  .ite h.cplFull h.emit.modCtx.bump.dropPosted.moderate

theorem tablesWhole.completionPostEff (h : tablesWhole s) {r} : tablesWhole (completionPostEff r s) := by
  unfold Machine.completionPostEff
  refine .ite h ?_
  extract_lets s₁
  have h₁ : tablesWhole s₁ := by
    unfold s₁
    split
    · exact h.onlyIf (·.sendOutcome)
    · exact h
  split
  · exact h₁
  · split
    · exact h₁
    · exact .ite h₁ h₁.postOne

theorem tablesWhole.flrCmd (h : tablesWhole s) {t} : tablesWhole (flrCmd t s) := by
  unfold Machine.flrCmd
  split
  · exact h
  · exact .ite h.dropPosted (.ite h.modCmd.abortTarget.modCmd h.modCmd.abortTarget)

theorem tablesWhole.resetFnRegs (h : tablesWhole s) {f} : tablesWhole (resetFnRegs f s) :=
  h.frame.onlyIf (·.setReg.setReg)

theorem tablesWhole.flrStart (h : tablesWhole s) {f} : tablesWhole (flrStart f s) :=
  (h.modFn.host.forEach (fun _ h => h.onlyIf (·.flrCmd))).resetFnRegs

theorem tablesWhole.flrEff (h : tablesWhole s) {f} : tablesWhole (flrEff f s) := by
  unfold Machine.flrEff
  refine .ite ?_ h.flrStart
  extract_lets s₁
  have h₁ : tablesWhole s₁ := h.forEach fun _ h => h.flrStart
  clear_value s₁
  exact h₁.host

theorem tablesWhole.flrEndEff (h : tablesWhole s) {f} : tablesWhole (flrEndEff f s) :=
  .ite h (.ite h h.host.modFn.evt.retryStarved)

theorem tablesWhole.tokenRefillEff (h : tablesWhole s) : tablesWhole (tokenRefillEff s) := h.setReg

/-! ### Arbitration and acceptance -/

theorem setCredit_cmds (k : Nat) (v : Int) (h : HostState) : (setCredit k v h).cmds = h.cmds := by
  unfold setCredit
  split
  · rfl
  · split <;> rfl

theorem creditRound_cmds (w : Nat → Int) (elig : List Nat) (h : HostState) :
    (creditRound w elig h).2.cmds = h.cmds := by
  have step (k : Nat) (h : HostState) :
      (if elig.contains k then setCredit k (creditOf h k + w k) h else setCredit k 0 h).cmds = h.cmds := by
    split <;> exact setCredit_cmds ..
  simp only [creditRound, setCredit_cmds, List.foldl_cons, List.foldl_nil, step]

theorem pickRing_cmds (k : Nat) (es : List (Nat × RingCtx)) (h : HostState) : (pickRing k es h).2.cmds = h.cmds := by
  unfold pickRing
  dsimp only
  split
  · split <;> rfl
  · rfl

theorem tablesWhole.arbitrateRings (h : tablesWhole s) {es} : tablesWhole (arbitrateRings es s).2 := by
  unfold Machine.arbitrateRings
  extract_lets s₁
  have h₁ : tablesWhole s₁ := h.onlyIf (·.evt)
  refine .iteSnd (h₁.newHost ?_) (.ite ?_ (.setReg ?_))
  · simp [pickRing_cmds, creditRound_cmds]
  · exact h₁.newHost (by simp [pickRing_cmds])
  · exact h₁.newHost (by simp [pickRing_cmds])

theorem tablesWhole.endRepeat (h : tablesWhole s) {t c seq st result rel step} :
    tablesWhole (endRepeat t c seq st result rel step s) := h.modCmd.endCmd.bump.evt

theorem tablesWhole.enterWaiting (h : tablesWhole s) {t g late} : tablesWhole (enterWaiting t g late s) := by
  unfold Machine.enterWaiting
  extract_lets s₁ s₂
  have h₂ : tablesWhole s₂ := by
    refine .modCmd ?_
    unfold s₁
    split
    · exact h.bump
    · exact h
  split
  · exact h₂
  · exact (h₂.onlyIf (·.bump)).onlyIf (·.bump)

theorem tablesWhole.checkRest (h : tablesWhole s) {t aux} : tablesWhole (checkRest t aux s) := by
  unfold Machine.checkRest
  split
  · exact h
  · refine .ite h.enterWaiting (.ite h.frame (.ite h.endCmd ?_))
    split
    · exact h.endRepeat
    · split
      · exact .ite h.endRepeat h.modCmd
      · extract_lets us late
        clear_value us late
        split
        · exact h.endCmd
        · refine .ite h.endCmd ?_
          split
          · exact .ite h.endCmd.hostAccess h.endCmd
          · exact h.enterWaiting

theorem tablesWhole.acceptAs (h : tablesWhole s) {remote f ring slot one b aux} :
    tablesWhole (acceptAs remote f ring slot one b aux s) := by
  unfold Machine.acceptAs
  extract_lets
  split
  · exact (((h.set64.bump.onlyIf (·.bump)).putCmd.onlyIf (·.emit.mirror)).onlyIf (·.evt)).endCmd
  · exact (((h.set64.bump.onlyIf (·.bump)).putCmd.onlyIf (·.emit.mirror)).onlyIf (·.evt)).checkRest

theorem tablesWhole.forwardCmd (h : tablesWhole s) {f ring slot one b aux} :
    tablesWhole (forwardCmd f ring slot one b aux s) :=
  (h.putCmd.frame.onlyIf (fun h => h.forEach (fun _ h => h.emit))).bump.emit

theorem tablesWhole.fetchEff (h : tablesWhole s) {r b aux} : tablesWhole (fetchEff r b aux s) := by
  unfold Machine.fetchEff
  split
  · exact h
  · refine .ite h.haltRing ?_
    split
    · exact h.emit.hostAccess.haltRing
    · exact h.emit.modCtx.touch.andThen fun h => .andThen (.ite h.emit (h.onlyIf (·.emit))) fun h => .ite h.acceptAs
        h.forwardCmd

theorem tablesWhole.grantEff (h : tablesWhole s) {b aux} : tablesWhole (grantEff b aux s) :=
  .ite h (.ite h (.ite h.evt h.arbitrateRings.fetchEff))

theorem tablesWhole.releaseThermal (h : tablesWhole s) : tablesWhole (releaseThermal s) := by
  unfold Machine.releaseThermal
  refine h.forEach fun _ h => ?_
  split
  · exact h.endCmd
  · exact h.setGate4

/-! ### The mount of a disc and import mode -/

theorem tablesWhole.modDisc (h : tablesWhole s) {f} : tablesWhole (modDisc f s) := h.media

theorem tablesWhole.mountStartEff (h : tablesWhole s) : tablesWhole (mountStartEff s) :=
  h.onlyIf fun h => (h.change.forEach (fun _ h => h.onlyIf (·.change))).modDisc

theorem tablesWhole.mountFailed (h : tablesWhole s) : tablesWhole (mountFailed s) :=
  (h.modDisc.change.forEach (fun _ h => h.onlyIf (·.change))).evt

theorem tablesWhole.discReady (h : tablesWhole s) : tablesWhole (discReady s) :=
  h.change.forEach fun _ h => h.onlyIf (·.change)

theorem tablesWhole.anchorVols (h : tablesWhole s) {b} : tablesWhole (anchorVols b s) :=
  h.forEach fun _ h => .ite h h.modVol.change

theorem tablesWhole.anchorStep (h : tablesWhole s) {written copies} : tablesWhole (anchorStep written copies s) := by
  unfold Machine.anchorStep
  split
  · exact h.modDisc
  · exact h.modDisc.anchorVols

theorem tablesWhole.loadPage (h : tablesWhole s) {b} : tablesWhole (loadPage b s) := h.modVol

theorem tablesWhole.rebuildPage (h : tablesWhole s) {ks} : tablesWhole (rebuildPage ks s) := by
  unfold Machine.rebuildPage
  refine h.forEach fun _ h => ?_
  split
  · exact h.modVol
  · exact h

theorem tablesWhole.pageStep (h : tablesWhole s) {p} : tablesWhole (pageStep p s) := by
  unfold Machine.pageStep
  split
  · exact .ite h.loadPage h.rebuildPage
  · exact h.rebuildPage

theorem tablesWhole.recordStep (h : tablesWhole s) {r} : tablesWhole (recordStep r s) := by
  unfold Machine.recordStep
  split
  · exact h
  · exact (h.onlyIf (·.modVol)).onlyIf (·.modVol)

theorem tablesWhole.walkChain (h : tablesWhole s) {v ks n} : tablesWhole (walkChain v ks n s) := by
  induction n generalizing s with
  | zero => exact h
  | succ n ih =>
    unfold Machine.walkChain
    split
    · exact h
    · exact ih h.modVol

theorem tablesWhole.validateVol (h : tablesWhole s) {reads v} : tablesWhole (validateVol reads v s) :=
  .ite h ((h.onlyIf (·.change)).walkChain.onlyIf (·.modVol.evt))

theorem tablesWhole.mountStepEff (h : tablesWhole s) {d} : tablesWhole (mountStepEff d s) := by
  unfold Machine.mountStepEff
  split
  · exact h.modDisc
  · exact h.modDisc
  · split
    · exact .ite h.modDisc.discReady h.mountFailed
    · exact h.mountFailed
  · exact h.anchorStep
  · exact ((h.forEach (fun _ h => h.pageStep)).forEach (fun _ h => h.recordStep)).modDisc
  · exact h.modDisc
  · exact (h.forEach (fun _ h => h.validateVol)).modDisc
  · exact h

theorem tablesWhole.mountVol (h : tablesWhole s) {v} : tablesWhole (mountVol v s) :=
  .ite h (.ite h.modVol.change h.modVol.change)

theorem tablesWhole.mountCompleteEff (h : tablesWhole s) : tablesWhole (mountCompleteEff s) :=
  .ite h ((h.forEach (fun _ h => h.modWcar)).modDisc.forEach (fun _ h => h.mountVol))

theorem tablesWhole.unmount (h : tablesWhole s) : tablesWhole (unmount s) := h.modDisc.media

theorem tablesWhole.importIdentifyEff (h : tablesWhole s) {found} : tablesWhole (importIdentifyEff found s) := by
  unfold Machine.importIdentifyEff
  refine .ite h ?_
  split
  · exact h.mountFailed
  · extract_lets +onlyGivenNames n s₁ _ _ s₂
    have h₁ : tablesWhole s₁ := h.modDisc
    have h₂ : tablesWhole s₂ := h₁
    exact (h₂.setF.setF.setF.forEach fun _ h => h.setReg).evt.discReady

theorem tablesWhole.importSpeedEff (h : tablesWhole s) {layer psn} : tablesWhole (importSpeedEff layer psn s) := by
  unfold Machine.importSpeedEff
  split
  · exact h
  · exact h.setF.modSpn.arbitrate

theorem tablesWhole.clusterFail (h : tablesWhole s) {layer cluster} : tablesWhole (clusterFail layer cluster s) :=
  (h.forEach (fun _ h => h.modCmd)).evt

theorem tablesWhole.importClusterEff (h : tablesWhole s) {layer cluster res} :
    tablesWhole (importClusterEff layer cluster res s) := by
  unfold Machine.importClusterEff
  refine .ite h ?_
  split
  · exact (h.forEach (fun _ h => h.modCmd)).pool
  · exact h.clusterFail.pool
  · exact .ite h.pool h.clusterFail.pool

theorem tablesWhole.importReadEff (h : tablesWhole s) {t} : tablesWhole (importReadEff t s) := by
  unfold Machine.importReadEff
  split
  · exact h
  · refine .ite h (.ite h.modCmd.importSpeedEff (.ite h ?_))
    split
    · exact h.endCmd
    · exact h.sendData.endCmd

/-! ### The MRAM record store (R446 to R450) -/

theorem tablesWhole.putSlot (h : tablesWhole s) {typ index slotB x} : tablesWhole (putSlot typ index slotB x s) :=
  h.frame

theorem tablesWhole.askMram (h : tablesWhole s) {typ index payload} : tablesWhole (askMram typ index payload s) :=
  h.frame

theorem tablesWhole.mramWriteEff (h : tablesWhole s) : tablesWhole (mramWriteEff s) := by
  unfold Machine.mramWriteEff
  split
  · exact h
  · exact .ite h h.frame

theorem tablesWhole.mramDoneEff (h : tablesWhole s) {same} : tablesWhole (mramDoneEff same s) := by
  unfold Machine.mramDoneEff
  split
  · exact h
  · exact .ite h (.ite h.putSlot.frame (.ite h.putSlot.frame h.putSlot.frame.evt))

theorem tablesWhole.readRec (h : tablesWhole s) {typ index} : tablesWhole (readRec typ index s) :=
  h.onlyIf (·.bumpBy.evt)

theorem tablesWhole.carryCount (h : tablesWhole s) {off} : tablesWhole (carryCount off s) := h.frame

theorem tablesWhole.saveCounters (h : tablesWhole s) : tablesWhole (saveCounters s) := h.askMram.frame

theorem tablesWhole.countersHourlyEff (h : tablesWhole s) : tablesWhole (countersHourlyEff s) :=
  h.onlyIf (·.saveCounters)

theorem tablesWhole.loadZone (h : tablesWhole s) {lf zone} : tablesWhole (loadZone lf zone s) := h.chn

theorem tablesWhole.buildZones (h : tablesWhole s) : tablesWhole (buildZones s) :=
  h.forEach fun _ h => h.readRec.loadZone

/-! ### Buffer memory (R428 to R445) -/

theorem tablesWhole.modMem (h : tablesWhole s) {f} : tablesWhole (modMem f s) := h.frame

theorem tablesWhole.memPut (h : tablesWhole s) {line data} : tablesWhole (memPut line data s) := h.modMem.bump

theorem tablesWhole.discardHeld (h : tablesWhole s) {vol seq tags} : tablesWhole (discardHeld vol seq tags s) :=
  ((h.forEach (fun _ h => h.onlyIf (·.endCmd))).forEach (fun _ h => h.dropWrite)).media.modVol

theorem tablesWhole.fatalHeld (h : tablesWhole s) {vol seq tags} : tablesWhole (fatalHeld vol seq tags s) :=
  h.discardHeld.change.evt

theorem tablesWhole.fatalMap (h : tablesWhole s) {vol} : tablesWhole (fatalMap vol s) := h.change.modDisc

theorem tablesWhole.fatalDoorbells (h : tablesWhole s) {ring} : tablesWhole (fatalDoorbells ring s) :=
  h.host.evt

theorem tablesWhole.fatalReplay (h : tablesWhole s) {entries skeins} : tablesWhole (fatalReplay entries skeins s) :=
  (h.forEach (fun _ h => h.modVol)).media

theorem tablesWhole.parityFatal (h : tablesWhole s) {addr cls} : tablesWhole (parityFatal addr cls s) :=
  h.bump.evt

theorem tablesWhole.parityRefetch (h : tablesWhole s) {addr cls} : tablesWhole (parityRefetch addr cls s) :=
  h.bump.evt

theorem tablesWhole.classAction (h : tablesWhole s) {addr use bad} : tablesWhole (classAction addr use bad s).2 := by
  unfold Machine.classAction
  extract_lets
  split
  · exact .iteSnd h.fatalHeld.parityFatal h.modMem
  · exact .iteSnd h.fatalMap h.modMem
  · exact .iteSnd h.fatalDoorbells.parityFatal h.modMem
  · exact .iteSnd h.fatalReplay.parityFatal h.modMem
  · exact .iteSnd h.loadZone.parityFatal h.modMem
  · exact h.pool.parityRefetch
  · refine .iteSnd ?_ h.parityRefetch
    split
    · exact .parityFatal (.ite h h.hostAccess.endCmd.dropWrite)
    · exact h.parityFatal
  · exact .iteSnd h.frame.evt.parityFatal h.bump
  · exact h.frame.setFlag
  · exact .iteSnd (h.bump.evt.forEach (fun _ h => h.loopFaultEff)).parityFatal h.bump
  · exact h.memPut

theorem tablesWhole.channelError (h : tablesWhole s) {ch} : tablesWhole (channelError ch s) :=
  h.modMem.setF.onlyIf (·.setF.change.evt)

theorem tablesWhole.recordError (h : tablesWhole s) {port addr lanes cls outcome} :
    tablesWhole (recordError port addr lanes cls outcome s) := h.setReg.setReg.setReg

theorem tablesWhole.beginBurst (h : tablesWhole s) {line} : tablesWhole (beginBurst line s) :=
  .ite h h.modMem.setReg.setFlag

theorem tablesWhole.memReadEff (h : tablesWhole s) {port addr lanes replays persists use bad} :
    tablesWhole (memReadEff port addr lanes replays persists use bad s) :=
  .ite h ((h.bump.onlyIf (·.setF)).andThen fun h => .ite h
    (h.bump.bumpBy.andThen fun h => .ite h.bump (h.classAction.recordError.onlyIf (·.beginBurst)).channelError))

theorem tablesWhole.parityRepairEff (h : tablesWhole s) {rereadOk written} :
    tablesWhole (parityRepairEff rereadOk written s) := by
  unfold Machine.parityRepairEff
  split
  · exact h
  · exact h.modMem.andThen fun h => .ite (h.onlyIf (·.setF)) (.ite h h.memPut.bump.evt)

theorem tablesWhole.refreshDueEff (h : tablesWhole s) {urgent idle} : tablesWhole (refreshDueEff urgent idle s) :=
  .ite h (.ite (.ite h.bump.setF h.bump.setF.bump.bump.evt) (.ite h.setF.bumpBy h.bump))

theorem tablesWhole.dramTempEff (h : tablesWhole s) {hot} : tablesWhole (dramTempEff hot s) :=
  .ite h (h.setFlag.setF.onlyIf (·.evt))

theorem tablesWhole.pointBeginEff (h : tablesWhole s) : tablesWhole (pointBeginEff s) := h.onlyIf (·.setF)

theorem tablesWhole.pointDrainedEff (h : tablesWhole s) : tablesWhole (pointDrainedEff s) :=
  .ite h h.setF.setF.setF.setF.bump.bump.evt

theorem tablesWhole.scrubReadEff (h : tablesWhole s) : tablesWhole (scrubReadEff s) :=
  .ite h (.andThen (.ite h.setReg h.setReg.bump) fun h => .ite h.modMem.setReg
    (.ite h.setReg.setFlag.modMem (.ite h.setReg h.setReg.bumpBy.evt)))

theorem tablesWhole.scrubRestartEff (h : tablesWhole s) : tablesWhole (scrubRestartEff s) :=
  h.modMem.setFlag.setReg

theorem tablesWhole.forceParityEff (h : tablesWhole s) : tablesWhole (forceParityEff s) := h.setF

theorem tablesWhole.rebuiltVol (h : tablesWhole s) {reads v} : tablesWhole (rebuiltVol reads v s) :=
  (h.onlyIf (·.modVol.evt)).onlyIf (·.change)

theorem tablesWhole.rebuildStepEff (h : tablesWhole s) {d} : tablesWhole (rebuildStepEff d s) := by
  unfold Machine.rebuildStepEff
  split
  · exact h.modDisc
  · exact h.modDisc
  · exact h.modDisc.forEach fun _ h => h.rebuiltVol
  · exact h

theorem tablesWhole.mountDoneEff (h : tablesWhole s) {d} : tablesWhole (mountDoneEff d s) :=
  .ite h.rebuildStepEff h.mountStepEff

/-! ### The buffer cache (R408 to R427) -/

theorem tablesWhole.modBc (h : tablesWhole s) {f} : tablesWhole (modBc f s) := h.frame

theorem tablesWhole.putWay (h : tablesWhole s) {key x} : tablesWhole (putWay key x s) := h.modBc

theorem tablesWhole.bcEvt (h : tablesWhole s) {f port l} : tablesWhole (bcEvt f port l s) := h.evt

theorem tablesWhole.releaseTwin (h : tablesWhole s) {l} : tablesWhole (releaseTwin l s) := h.modBc

theorem tablesWhole.addTwin (h : tablesWhole s) {port l d} : tablesWhole (addTwin port l d s) :=
  h.modBc.onlyIf (·.bcEvt)

theorem tablesWhole.issueLine (h : tablesWhole s) {l d} : tablesWhole (issueLine l d s) := h.modBc.bump

theorem tablesWhole.issueVictim (h : tablesWhole s) {l} : tablesWhole (issueVictim l s) :=
  h.onlyIf (·.modBc.bump)

theorem tablesWhole.writebackDone (h : tablesWhole s) {l} : tablesWhole (writebackDone l s) := by
  unfold Machine.writebackDone
  extract_lets
  split
  · exact h.memPut.releaseTwin.modBc.modBc
  · split
    · exact h.memPut.releaseTwin.modBc.modBc
    · split
      · exact h.issueVictim.memPut.releaseTwin.modBc.modBc
      · exact h

theorem tablesWhole.touchWay (h : tablesWhole s) {key} : tablesWhole (touchWay key s) := by
  unfold Machine.touchWay
  split
  · exact h
  · refine .ite (h.putWay.forEach (fun _ h => ?_)) h.putWay
    split
    · exact .ite h h.putWay
    · exact h

theorem tablesWhole.allocate (h : tablesWhole s) {x} : anyWhole (allocate x s) := by
  unfold Machine.allocate
  split
  · exact h.some
  · split
    · exact h.putWay.touchWay.some
    · split
      · exact .none
      · exact h.modBc.putWay.touchWay.some

theorem tablesWhole.deliverBytes (h : tablesWhole s) {r d} : tablesWhole (deliverBytes r d s) := .ite h h.emit

theorem tablesWhole.serveLine (h : tablesWhole s) {key x r} : tablesWhole (serveLine key x r s) :=
  h.touchWay.andThen fun h => .ite h.deliverBytes (.ite (h.putWay.modBc.onlyIf (·.memPut))
    (.ite h.putWay.memPut (.ite h.putWay.memPut.bump h.putWay.addTwin)))

theorem tablesWhole.serveVictim (h : tablesWhole s) {v r} : anyWhole (serveVictim v r s) := by
  unfold Machine.serveVictim
  extract_lets d wr left out cancelled through dirty s₀
  have h₀ : tablesWhole s₀ := h.modBc
  split
  next => exact .none
  next u e =>
    extract_lets s₁ s₂ s₃
    have h₃ : tablesWhole s₃ := ((h₀.allocate u e).bump.onlyIf (·.bump)).onlyIf (·.memPut.bump)
    exact .some (.deliverBytes (.ite (h₃.onlyIf (·.modBc)) (h₃.onlyIf (·.addTwin))))

theorem tablesWhole.servePast (h : tablesWhole s) {r} : tablesWhole (servePast r s) :=
  .ite h.memPut h.deliverBytes

theorem tablesWhole.serveReq (h : tablesWhole s) {r} : anyWhole (serveReq r s) := by
  unfold Machine.serveReq
  refine .ite h.servePast.some ?_
  dsimp only
  split
  · exact h.bump.serveLine.some
  · refine .ite ?_ ?_
    · split
      · exact .ite h.bump.modBc.memPut.some h.bump.deliverBytes.some
      · exact h.bump.servePast.some
    · split
      · exact h.serveVictim
      · split
        · exact h.modBc.bump.some
        · refine .ite ?_ (.ite h.modBc.bump.some .none)
          split
          next => exact .none
          next u e => exact .some (.ite (h.allocate u e).bump.memPut.bump (h.allocate u e).bump.addTwin)

theorem tablesWhole.grantReq (h : tablesWhole s) {r} : tablesWhole (grantReq r s) :=
  .ite h.modBc (h.serveReq.orElse h.modBc)

theorem tablesWhole.retryWaiting (h : tablesWhole s) : tablesWhole (retryWaiting s) :=
  h.modBc.forEach fun _ h => h.grantReq

theorem tablesWhole.serveMiss (h : tablesWhole s) {beats d reqs} : tablesWhole (serveMiss beats d reqs s).2 := by
  induction reqs generalizing d s with
  | nil => exact h
  | cons r reqs ih => exact ih (h.onlyIf (·.deliverBytes))

theorem tablesWhole.finishMiss (h : tablesWhole s) {m} : tablesWhole (finishMiss m s) := by
  unfold Machine.finishMiss
  refine .ite h (.ite (h.onlyIf (·.memPut)).modBc ?_)
  dsimp only
  split
  next => exact h
  next u e => exact .modBc (.ite (h.allocate u e).memPut.bump ((h.allocate u e).onlyIf (·.addTwin)))

theorem tablesWhole.cacheGoOn (h : tablesWhole s) : tablesWhole (cacheGoOn s) :=
  (h.forEach (fun _ h => h.finishMiss)).retryWaiting

theorem tablesWhole.fillBeatEff (h : tablesWhole s) {l beat} : tablesWhole (fillBeatEff l beat s) := by
  unfold Machine.fillBeatEff
  split
  · exact h
  · exact .ite h h.serveMiss.modBc.cacheGoOn

theorem tablesWhole.writebackEff (h : tablesWhole s) {l} : tablesWhole (writebackEff l s) :=
  h.writebackDone.cacheGoOn

theorem tablesWhole.modRange (h : tablesWhole s) {f} : tablesWhole (modRange f s) := h.modBc

theorem tablesWhole.walkLine (h : tablesWhole s) {r key} : tablesWhole (walkLine r key s) := by
  unfold Machine.walkLine
  split
  · exact h
  · exact (h.onlyIf (·.issueLine.modRange)).andThen fun h => .ite h.putWay (.ite h.modRange h.putWay)

theorem tablesWhole.walkTo (h : tablesWhole s) {p} : tablesWhole (walkTo p s) := by
  unfold Machine.walkTo
  split
  · exact h
  · exact (h.forEach (fun _ h => h.walkLine)).modRange

theorem tablesWhole.rangeVictim (h : tablesWhole s) {r v} : tablesWhole (rangeVictim r v s) :=
  .ite h ((h.onlyIf (·.issueVictim.modRange)).andThen fun h => .ite h h.modBc)

theorem tablesWhole.rangeStart (h : tablesWhole s) {clean force whole} :
    tablesWhole (rangeStart clean force whole s) :=
  .ite h.setF (h.setReg.modBc.forEach (fun _ h => h.rangeVictim))

theorem tablesWhole.invDoneEff (h : tablesWhole s) : tablesWhole (invDoneEff s) := by
  unfold Machine.invDoneEff
  split
  · exact h
  · exact (((h.walkTo.forEach (fun _ h => h.writebackDone)).modBc.setReg.setF.onlyIf (·.setF)).evt.onlyIf
      (·.evt)).cacheGoOn

theorem tablesWhole.victimWait (h : tablesWhole s) : tablesWhole (victimWait s) := by
  unfold Machine.victimWait
  split
  · exact h
  · split
    · exact h.writebackDone
    · exact h

theorem tablesWhole.bringLine (h : tablesWhole s) {l} : tablesWhole (bringLine l s) := by
  unfold Machine.bringLine
  extract_lets s₁
  have h₁ : tablesWhole s₁ := h.victimWait
  split
  · exact h₁
  · split
    · exact h₁.serveMiss.finishMiss
    · split
      · exact h₁.serveVictim.getD h₁
      · exact h₁.allocate.getD h₁

theorem tablesWhole.lockLine (h : tablesWhole s) {l} : tablesWhole (lockLine l s).2 := by
  unfold Machine.lockLine
  refine .iteSnd h (.iteSnd h ?_)
  dsimp only
  split
  · exact h.bringLine
  · exact (h.bringLine.onlyIf (·.memPut.releaseTwin)).putWay

theorem tablesWhole.lockLines (h : tablesWhole s) {ls n f} : tablesWhole (lockLines ls (n, f, s)).2.2 := by
  induction ls generalizing n f s with
  | nil => exact h
  | cons l ls ih =>
    unfold Machine.lockLines
    dsimp only
    split
    · exact ih h.lockLine
    · exact ih h.lockLine

theorem tablesWhole.lockRefused (h : tablesWhole s) : tablesWhole (lockRefused s) := h.setReg

theorem tablesWhole.lockEff (h : tablesWhole s) : tablesWhole (lockEff s) := by
  unfold Machine.lockEff
  refine .ite h.lockRefused (.cacheGoOn ?_)
  split
  · exact h.lockLines.setReg.setReg.evt
  · exact h.lockLines.setReg.setReg

theorem tablesWhole.unlockEff (h : tablesWhole s) {all_} : tablesWhole (unlockEff all_ s) :=
  .ite h.lockRefused h.modBc.setReg

theorem tablesWhole.disableEff (h : tablesWhole s) : tablesWhole (disableEff s) := by
  unfold Machine.disableEff
  refine .ite h.setF ((h.setF.setF.forEach (fun _ h => ?_)).forEach (fun _ h => h.issueVictim))
  split
  · exact h.onlyIf (·.issueLine.putWay)
  · exact h

theorem tablesWhole.cleaningDoneEff (h : tablesWhole s) : tablesWhole (cleaningDoneEff s) :=
  .ite h ((h.forEach (fun _ h => h.writebackDone)).forEach
    (fun _ h => h.onlyIf (·.writebackDone))).modBc.setF.setF.evt.cacheGoOn

theorem tablesWhole.enableEff (h : tablesWhole s) : tablesWhole (enableEff s) :=
  .ite h.setF.setF (h.setF.onlyIf (fun h => h.setF.onlyIf (·.evt)))

theorem tablesWhole.cacheS5 (h : tablesWhole s) {scratchWays hashSeed} :
    tablesWhole (cacheS5 scratchWays hashSeed s) := by
  unfold Machine.cacheS5
  refine ((h.forEach (fun _ h => ?_)).forEach (fun _ h => h.onlyIf (·.memPut))).modBc.setReg.setReg.setF.setReg
  split
  · exact h.onlyIf (·.memPut)
  · exact h

theorem tablesWhole.requestFails (h : tablesWhole s) {tags} : tablesWhole (requestFails tags s) := by
  unfold Machine.requestFails
  refine h.forEach fun _ h => ?_
  split
  · exact .ite h h.endCmd
  · exact h

theorem tablesWhole.lineError (h : tablesWhole s) {r tags sourceBad} :
    tablesWhole (lineError r tags sourceBad s).2 := by
  unfold Machine.lineError
  extract_lets +onlyGivenNames l twin dirty drop
  have hdrop {s : State} (h : tablesWhole s) : tablesWhole (drop s) := by
    unfold drop
    split
    · exact h.putWay
    · exact h.modBc
  clear_value drop dirty twin
  refine .iteSnd (hdrop h).bump.bcEvt ?_
  dsimp only
  split
  · refine .iteSnd (hdrop h.setF).releaseTwin.modBc.bump.bcEvt.requestFails (.bcEvt (.bump ?_))
    split
    · exact h.setF.putWay
    · exact h.setF.modBc
  · exact h.setF

theorem tablesWhole.cacheError (h : tablesWhole s) {r tags e} : tablesWhole (cacheError r tags e s).2 := by
  unfold Machine.cacheError
  refine .iteSnd h.bumpBy ?_
  split
  · exact h.bumpBy.lineError
  · split
    · exact h.bumpBy.onlyIf (·.issueLine.putWay)
    · exact h.bumpBy.issueVictim
  · exact h.bumpBy.modBc

theorem tablesWhole.cacheRequestEff (h : tablesWhole s) {r issued walked tags err} :
    tablesWhole (cacheRequestEff r issued walked tags err s) := by
  unfold Machine.cacheRequestEff
  refine (h.forEach (fun _ h => h.issueVictim)).walkTo.andThen fun h => .ite h.requestFails (.ite ?_ (.grantReq ?_))
  · split
    · exact (h.onlyIf (·.setF)).cacheError
    · exact h.onlyIf (·.setF)
  · split
    · exact (h.onlyIf (·.setF)).cacheError
    · exact h.onlyIf (·.setF)

theorem tablesWhole.forceDataEff (h : tablesWhole s) : tablesWhole (forceDataEff s) := h.setF

theorem tablesWhole.forceTwinEff (h : tablesWhole s) : tablesWhole (forceTwinEff s) := h.setF

theorem tablesWhole.bar2Eff (h : tablesWhole s) {off len write bad} : tablesWhole (bar2Eff off len write bad s) := by
  unfold Machine.bar2Eff
  refine .ite (.ite h h.emit) ?_
  extract_lets s₁ s₂ s₃
  have h₂ : tablesWhole s₂ := h.bump.onlyIf (·.bumpBy)
  have h₃ : tablesWhole s₃ := .ite h₂ (.ite h₂.bcEvt h₂.evt)
  split
  · exact h₃.modBc
  · exact h₃.emit.useFree

/-! ### The partner unit and the mirror -/

theorem tablesWhole.modPair (h : tablesWhole s) {f} : tablesWhole (modPair f s) := h.frame

theorem tablesWhole.prlEvtWith (h : tablesWhole s) {f more} : tablesWhole (prlEvtWith f more s) := h.evt

theorem tablesWhole.prlEvt (h : tablesWhole s) {f} : tablesWhole (prlEvt f s) := h.prlEvtWith

theorem tablesWhole.runItem (h : tablesWhole s) {m} : tablesWhole (runItem m s) := by
  unfold Machine.runItem
  split
  · exact h.reachHeld
  · exact h.knotVerifiedEff
  · exact h.knotVerifiedEff
  · exact h

theorem tablesWhole.mirrorAckEff (h : tablesWhole s) {m} : tablesWhole (mirrorAckEff m s) :=
  h.onlyIf (·.modPair.runItem)

theorem tablesWhole.journalAckEff (h : tablesWhole s) {seq} : tablesWhole (journalAckEff seq s) :=
  h.modPair.set64.mirrorAckEff

theorem tablesWhole.dropUnacked (h : tablesWhole s) : tablesWhole (dropUnacked s) :=
  h.modPair.forEach fun _ h => h.runItem

theorem tablesWhole.forwardFail (h : tablesWhole s) : tablesWhole (forwardFail s) :=
  h.forEach fun _ h => h.onlyIf (·.endCmd.bump.prlEvt)

theorem tablesWhole.partnerTo (h : tablesWhole s) {tgt why src seq claims} :
    tablesWhole (partnerTo tgt why src seq claims s) :=
  h.changeUnit.andThen fun h => .ite (.ite h.dropUnacked (.ite h h.forwardFail)) (h.onlyIf (·.prlEvt))

theorem tablesWhole.partnerStart (h : tablesWhole s) {why src seq} : tablesWhole (partnerStart why src seq s) :=
  h.partnerTo.modPair.onlyIf (·.bump.emit)

theorem tablesWhole.partnerDetach (h : tablesWhole s) {src seq} : tablesWhole (partnerDetach src seq s) :=
  (h.onlyIf (·.emit)).modPair.partnerTo

/-! ### The sequencer's requests (R502 to R508) -/

theorem tablesWhole.takeHead (h : tablesWhole s) {r} : tablesWhole (takeHead r s) := by
  unfold Machine.takeHead
  refine .bump ?_
  split
  · exact h.frame.modCmd.onlyIf (·.emit)
  · exact h.frame

theorem tablesWhole.failReq (h : tablesWhole s) {r st} : tablesWhole (failReq r st s) :=
  (h.onlyIf (·.bump.evt)).finishReq

theorem tablesWhole.takeReq (h : tablesWhole s) {k code f} (hf : ∀ {s} x, tablesWhole s → tablesWhole (f x s)) :
    tablesWhole (takeReq k code f s) := by
  unfold Machine.takeReq
  split
  · refine .ite ?_ h
    dsimp only
    split
    · exact h.takeHead.failReq
    · exact hf _ h.takeHead
  · exact h

theorem tablesWhole.openReq (h : tablesWhole s) {r} : tablesWhole (openReq r s) := h.frame

theorem tablesWhole.reqChange (h : tablesWhole s) {r tgt} : tablesWhole (reqChange r tgt s) := h.changeUnit

theorem tablesWhole.reqDone (h : tablesWhole s) {r tgt} : tablesWhole (reqDone r tgt s) := h.openReq.reqChange

theorem tablesWhole.strandsTo (h : tablesWhole s) {c tgt why} : tablesWhole (strandsTo c tgt why s) :=
  h.forEach fun _ h => .ite h h.change

theorem tablesWhole.carDown (h : tablesWhole s) {c} : tablesWhole (carDown c s) :=
  h.stopWriteNow.strandsTo.carriageDark

theorem tablesWhole.discDown (h : tablesWhole s) {why} : tablesWhole (discDown why s) :=
  (h.forEach (fun _ h => .ite h h.change)).unmount

theorem tablesWhole.goOffline (h : tablesWhole s) {r} : tablesWhole (goOffline r s) :=
  h.reqDone.andThen fun h => .ite h.carDown (.ite h.spnStopEff (h.onlyIf (·.discDown)))

theorem tablesWhole.offlineReq (h : tablesWhole s) {r} : tablesWhole (offlineReq r s) :=
  .ite (.ite h.openReq.partnerDetach h.finishReq) (.ite h.finishReq
    (.ite h.finishReq (.ite (.ite h.reqDone.carDown (h.reqDone.onlyIf (·.discDown)))
      (.ite (h.openReq.reqChange.onlyIf (·.modDisc.sealAll)) (.ite h.openReq h.goOffline)))))

theorem tablesWhole.unitOfflineEff (h : tablesWhole s) : tablesWhole (unitOfflineEff s) :=
  h.takeReq fun _ h => h.offlineReq

theorem tablesWhole.startCar (h : tablesWhole s) {r} : tablesWhole (startCar r s) :=
  (((h.forEach (fun _ h => h.loopClrFaultEff)).crgClrFaultEff.openReq.reqChange.forEach
    (fun _ h => h.onlyIf (·.change))).onlyIf (·.acquireCar)).carReadyCheck

theorem tablesWhole.startSpindle (h : tablesWhole s) {r} : tablesWhole (startSpindle r s) := by
  unfold Machine.startSpindle
  refine (h.spnClrFaultEff.forEach (fun _ h => ?_)).openReq.reqChange.onlyIf (·.spnStartEff)
  split
  · exact h.loopClrFaultEff
  · exact h

theorem tablesWhole.readyReq (h : tablesWhole s) {r} : tablesWhole (readyReq r s) :=
  .ite h.finishReq (.ite h.finishReq (.ite h.finishReq
    (.ite (.ite h.openReq.partnerStart (.ite h.openReq h.finishReq))
      (.ite h.finishReq (.ite (.ite h.startSpindle h.openReq)
        (.ite h.startCar (.ite h.startSpindle (.ite (.ite h.openReq.mountStartEff h.finishReq)
          (.ite (.ite h.reqChange.reqDone (.ite h.openReq.reqChange h.finishReq))
            (.ite (.ite h.openReq.reqChange.strandReadyCheck h.finishReq)
              (.ite (.ite h.reqDone h.finishReq) h.finishReq)))))))))))

theorem tablesWhole.unitReadyEff (h : tablesWhole s) : tablesWhole (unitReadyEff s) :=
  h.takeReq fun _ h => h.readyReq

theorem tablesWhole.serviceReq (h : tablesWhole s) {r} : tablesWhole (serviceReq r s) :=
  .ite h.finishReq (.ite h.finishReq (.ite h.finishReq
    (.ite h.finishReq (.ite (.ite h.finishReq h.frame.modDisc.sealAll)
      (.ite h.openReq.reqChange (.ite h.openReq h.reqDone))))))

theorem tablesWhole.unitServiceEff (h : tablesWhole s) : tablesWhole (unitServiceEff s) :=
  h.takeReq fun _ h => h.serviceReq

theorem tablesWhole.commitOff (h : tablesWhole s) : tablesWhole (commitOff s) := h.onlyIf (·.modDisc)

theorem tablesWhole.bufServiceReadyEff (h : tablesWhole s) : tablesWhole (bufServiceReadyEff s) := by
  unfold Machine.bufServiceReadyEff
  split
  · exact h
  · exact .ite h.finishReq.frame.commitOff (.ite (h.onlyIf (·.finishReq.frame.commitOff))
      (.ite h h.reqDone.frame.commitOff))

theorem tablesWhole.drainForReqs (h : tablesWhole s) {u} : tablesWhole (drainForReqs u s) := by
  unfold Machine.drainForReqs
  split
  · exact .ite (h.reqChange.andThen fun h => .ite h.carDown (.ite h.spnStopEff (h.onlyIf (·.discDown.commitOff))))
      h.reqChange
  · exact h

theorem tablesWhole.leaveSuspect (h : tablesWhole s) {why present u} :
    tablesWhole (leaveSuspect why present u s) := by
  unfold Machine.leaveSuspect
  refine .ite (.ite h.change.carDown (h.change.onlyIf (·.discDown))) ?_
  split
  · exact h.change
  · exact h.change
  · exact h.change
  · exact h.change
  · exact h.change.andThen fun h => .ite h.carReadyCheck
      (.ite h.strandReadyCheck (.ite (h.onlyIf (·.change)) (h.onlyIf (·.partnerTo))))

theorem tablesWhole.assertReq (h : tablesWhole s) {claim answers r} : tablesWhole (assertReq claim answers r s) :=
  .ite h.finishReq (.ite (.ite h.leaveSuspect.finishReq h.finishReq)
    (.ite (.finishReq (.ite h.change (h.onlyIf (·.change.carDown)))) h.suspectUnit.bump.evt.finishReq))

theorem tablesWhole.assertPresentEff (h : tablesWhole s) {answers} : tablesWhole (assertPresentEff answers s) :=
  h.takeReq fun _ h => h.assertReq

theorem tablesWhole.assertAbsentEff (h : tablesWhole s) {answers} : tablesWhole (assertAbsentEff answers s) :=
  h.takeReq fun _ h => h.assertReq

theorem tablesWhole.unitQueryEff (h : tablesWhole s) : tablesWhole (unitQueryEff s) := by
  unfold Machine.unitQueryEff
  split
  · exact h.onlyIf (·.takeHead.finishReq)
  · exact h

theorem tablesWhole.volumeInfoEff (h : tablesWhole s) : tablesWhole (volumeInfoEff s) := by
  unfold Machine.volumeInfoEff
  split
  · refine .ite h ?_
    dsimp only
    split
    · split
      · exact .endCmd (.ite h.takeHead (.ite h.takeHead.emit h.takeHead.emit))
      · exact h.takeHead
    · exact h.takeHead
  · exact h

theorem tablesWhole.policyReq (h : tablesWhole s) {u code} : tablesWhole (policyReq u code s) := h.frame

theorem tablesWhole.policyStarts (h : tablesWhole s) : tablesWhole (policyStarts s) :=
  h.onlyIf fun h => .ite h.policyReq (h.policyReq.forEach (fun _ h => h.policyReq))

theorem tablesWhole.spnStartReq (h : tablesWhole s) : tablesWhole (spnStartReq s) := h.policyReq

theorem tablesWhole.spnStopReq (h : tablesWhole s) : tablesWhole (spnStopReq s) := h.policyReq

theorem tablesWhole.discGone (h : tablesWhole s) : tablesWhole (discGone s) :=
  .unmount (.forEach (.onlyIf (.forEach (.ite h h.change) (fun _ h => h.change)) (·.spnUnit.spnStopEff))
    (fun _ h => .ite h (h.stopWriteNow.change.forEach (fun _ h => .ite h h.change)).carriageDark))

theorem tablesWhole.discPresentEff (h : tablesWhole s) {active carts} : tablesWhole (discPresentEff active carts s) :=
  h.frame.andThen fun h => .ite h (.ite (h.onlyIf (fun h => .ite h.leaveSuspect h.leaveSuspect.discGone))
    (.ite h.discGone (h.onlyIf (fun h => (h.change.forEach (fun _ h => h.change)).policyStarts))))

theorem tablesWhole.watchdogEff (h : tablesWhole s) : tablesWhole (watchdogEff s) :=
  .ite h ((h.forEach (fun _ h => h.suspectUnit)).forEach (fun _ h => h.stopAtSlot)).modSpn.frame.evt

theorem tablesWhole.watchdogRestartEff (h : tablesWhole s) : tablesWhole (watchdogRestartEff s) :=
  .ite h (((h.frame.modSpn.forEach (fun _ h => h.change)).forEach (fun _ h => h.onlyIf (·.carReadyCheck))).forEach
    (fun _ h => h.onlyIf (·.strandReadyCheck))).arbitrate

/-! ### Halting and units out of service -/

theorem tablesWhole.releaseOutputs (h : tablesWhole s) : tablesWhole (releaseOutputs s) := h.frame

theorem tablesWhole.halt (h : tablesWhole s) {cause} : tablesWhole (halt cause s) :=
  h.setF.setF.releaseOutputs

theorem tablesWhole.glbEvt (h : tablesWhole s) {f more} : tablesWhole (glbEvt f more s) := h.evt

theorem tablesWhole.degraded (h : tablesWhole s) {group inst} : tablesWhole (degraded group inst s) :=
  h.glbEvt

theorem tablesWhole.bistOut (h : tablesWhole s) {group inst} : tablesWhole (bistOut group inst s) :=
  .ite h.halt (.ite (.ite h.pool.halt h.pool.degraded)
    (.ite h.pool.degraded (.ite h.pool.degraded (.ite (h.newMedia (by simp [mediaWhole])).degraded
      (.ite (h.degraded.onlyIf (·.change.carGradeCheck)) (h.degraded.onlyIf (·.partnerTo)))))))

/-! ### Calibrations and self-tests (R477 to R496) -/

theorem tablesWhole.addRun (h : tablesWhole s) {x} : tablesWhole (addRun x s) := h.frame

theorem tablesWhole.modRun (h : tablesWhole s) {x f} : tablesWhole (modRun x f s) := h.frame

theorem tablesWhole.startRun (h : tablesWhole s) {x} : tablesWhole (startRun x s) :=
  (h.onlyIf (·.bumpBy)).modRun.andThen fun h => .ite h (.ite h.spnStopEff h.modSpn.arbitrate)

theorem tablesWhole.calReq (h : tablesWhole s) {r} : tablesWhole (calReq r s) :=
  .ite h.finishReq (h.addRun.andThen fun h => .ite (h.onlyIf (·.setHold)).startRun
    (.ite h.setHold.startRun h.changeUnit))

theorem tablesWhole.calibrateEff (h : tablesWhole s) {code} : tablesWhole (calibrateEff code s) :=
  h.takeReq fun _ h => h.calReq

theorem tablesWhole.selfTestEff (h : tablesWhole s) {code} : tablesWhole (selfTestEff code s) :=
  h.takeReq fun _ h => h.calReq

theorem tablesWhole.drainCompleteEff (h : tablesWhole s) {u} : tablesWhole (drainCompleteEff u s) := by
  unfold Machine.drainCompleteEff
  refine .ite h ?_
  split
  · exact h.setHold.change.startRun
  · exact h.drainForReqs

theorem tablesWhole.figures (h : tablesWhole s) {q0 q1} : tablesWhole (figures q0 q1 s) := h.setReg.setReg

theorem tablesWhole.endRun (h : tablesWhole s) {x st outcome} : tablesWhole (endRun x st outcome s) :=
  h.setHold.andThen fun h => .ite (.andThen (.modSpn (.ite h h.spnStopped)) fun h => .ite
    h.spnStartEff.calRecord.finishReq h.modRun.change.spnStartEff)
      (.finishReq (.arbitrate (.onlyIf (.ite h.calRecord h.calRecord.change) (·.carReadyCheck))))

theorem tablesWhole.endMeasured (h : tablesWhole s) {x ok reject} : tablesWhole (endMeasured x ok reject s) :=
  .ite h.endRun h.endRun

theorem tablesWhole.calWrite (h : tablesWhole s) {typ index payload} : tablesWhole (calWrite typ index payload s) :=
  h.askMram.bump

theorem tablesWhole.applyZone (h : tablesWhole s) {x e} : tablesWhole (applyZone x e s) := h.chn.calWrite

theorem tablesWhole.strandFigures (h : tablesWhole s) {cs k} : tablesWhole (strandFigures cs k s) := h.setReg

theorem tablesWhole.acceptStrand (h : tablesWhole s) {c k} : tablesWhole (acceptStrand c k s) :=
  h.modWcar.onlyIf (·.change)

theorem tablesWhole.endChannel (h : tablesWhole s) {x zs} : tablesWhole (endChannel x zs s) := by
  unfold Machine.endChannel
  extract_lets c res all_ ok s₁ s₂ s₃
  have h₁ : tablesWhole s₁ := h.useFree.forEach fun _ h => h.strandFigures
  have h₂ : tablesWhole s₂ := by
    unfold s₂
    split
    · exact h₁.figures
    · exact h₁.figures
  exact .endMeasured (h₂.onlyIf fun h => (h.forEach fun _ h => h.applyZone).forEach fun _ h => h.acceptStrand)

theorem tablesWhole.writeCam (h : tablesWhole s) {r x0 step vals} : tablesWhole (writeCam r x0 step vals s) :=
  h.modCam

theorem tablesWhole.writeServoCam (h : tablesWhole s) {c idx x0 step vals miss}
    (hmiss : ∀ {s}, tablesWhole s → tablesWhole (miss s)) :
    tablesWhole (writeServoCam c idx x0 step vals miss s) := by
  unfold Machine.writeServoCam
  split
  · exact h.writeCam
  · exact hmiss h

theorem tablesWhole.endServo (h : tablesWhole s) {x ps} : tablesWhole (endServo x ps s) :=
  (h.figures.onlyIf (fun h => .ite ((h.calWrite.writeServoCam (·.calEvt)).writeServoCam (·.calEvt))
    (((h.calWrite.writeServoCam (·.calEvt)).writeServoCam (·.calEvt)).writeServoCam (·.calEvt)))).endMeasured

theorem tablesWhole.loadServo (h : tablesWhole s) {c} : tablesWhole (loadServo c s) := by
  unfold Machine.loadServo
  split
  · exact h.readRec
  · have part {s : State} (h : tablesWhole s) {on sound : Bool} {is : List Nat} {names : Nat → Bool} {x0 : Int}
        {vals : Nat → List Int} {items : List Item} :
        tablesWhole (if !on then s else if sound then
          Machine.forEach (fun i s => if names i then Machine.writeServoCam c i x0 one24 (vals i) id s else s) is s
          else Machine.evt Fld.CAL_EVT_CAM_BINDING (uCar c) items s) :=
      .ite h (.ite (h.forEach fun _ h => h.onlyIf (·.writeServoCam id)) h.evt)
    exact part (part h)

theorem tablesWhole.endPower (h : tablesWhole s) {x exhausted ss} : tablesWhole (endPower x exhausted ss s) := by
  unfold Machine.endPower
  refine .ite h.bumpBy.endRun ?_
  dsimp only
  split
  · exact h.bumpBy.useFree.endMeasured
  · exact ((h.bumpBy.useFree.figures.forEach fun _ h => h.setReg).onlyIf (·.calWrite.grantFresh.settle)).endMeasured

theorem tablesWhole.endSled (h : tablesWhole s) {x rs} : tablesWhole (endSled x rs s) :=
  .endMeasured (.figures (.ite h.setReg.calWrite h.setReg.setReg))

theorem tablesWhole.endSpindle (h : tablesWhole s) {x r l ke inertia drag residual} :
    tablesWhole (endSpindle x r l ke inertia drag residual s) :=
  ((h.figures.onlyIf (·.calEvt)).onlyIf (·.calWrite)).endMeasured

theorem tablesWhole.checkerFailed (h : tablesWhole s) {x e} : tablesWhole (checkerFailed x e s) :=
  .ite h.bump.calEvt h.bump.bistOut

theorem tablesWhole.endParity (h : tablesWhole s) {x failed lane} : tablesWhole (endParity x failed lane s) :=
  ((h.setF.forEach (fun _ h => h.checkerFailed)).onlyIf (·.bump.change.setF.evt)).andThen fun h => .ite h.endRun
    h.endRun

theorem tablesWhole.endMram (h : tablesWhole s) {x ok} : tablesWhole (endMram x ok s) :=
  .ite h.bumpBy.endRun h.bumpBy.calEvt.endRun

theorem tablesWhole.marchChannel (h : tablesWhole s) {ch} : tablesWhole (marchChannel ch s) := by
  unfold Machine.marchChannel
  refine (h.forEach (fun _ h => ?_)).modMem.forEach (fun _ h => ?_)
  · split
    · exact .ite h (h.onlyIf (·.memPut.releaseTwin)).putWay
    · exact h
  · split
    · exact h.onlyIf (·.memPut)
    · exact h

theorem tablesWhole.endBist (h : tablesWhole s) {x ok} : tablesWhole (endBist x ok s) :=
  .ite h.marchChannel.endRun h.calEvt.bump.endRun.change

theorem tablesWhole.calEndEff (h : tablesWhole s) {u d} : tablesWhole (calEndEff u d s) := by
  unfold Machine.calEndEff
  extract_lets find
  have hfind {op codes f} (hf : ∀ x, tablesWhole (f x s)) : tablesWhole (find op codes f) := by
    unfold find
    split
    · exact hf _
    · exact h
  split
  · exact hfind fun _ => h.endChannel
  · exact hfind fun _ => h.endServo
  · exact hfind fun _ => h.endPower
  · exact hfind fun _ => h.endSled
  · exact hfind fun _ => h.endSpindle
  · exact hfind fun _ => h.endParity
  · exact hfind fun _ => h.endMram
  · exact hfind fun _ => h.endBist

theorem tablesWhole.calTimeoutEff (h : tablesWhole s) {u} : tablesWhole (calTimeoutEff u s) := by
  unfold Machine.calTimeoutEff
  split
  · exact h.calEvt.endRun
  · exact h

theorem tablesWhole.forceCheckerEff (h : tablesWhole s) : tablesWhole (forceCheckerEff s) := h.setF

/-! ### Image chains and the boot stages (R65 to R77, R465 to R468) -/

theorem tablesWhole.modImg (h : tablesWhole s) {f} : tablesWhole (modImg f s) := h.frame

theorem tablesWhole.imgErr (h : tablesWhole s) {op code sec ofs} : tablesWhole (imgErr op code sec ofs s) :=
  h.setFs.setReg

theorem tablesWhole.imgRefuse (h : tablesWhole s) {op code} : tablesWhole (imgRefuse op code s) := h.imgErr

theorem tablesWhole.setOp (h : tablesWhole s) {o} : tablesWhole (setOp o s) := h.modImg.setFlag

theorem tablesWhole.enterStage (h : tablesWhole s) {n} : tablesWhole (enterStage n s) :=
  h.setF.setF.frame.onlyIf (·.setReg)

theorem tablesWhole.showImage (h : tablesWhole s) {i src fallback} : tablesWhole (showImage i src fallback s) :=
  (h.set64.setReg.forEach (fun _ h => h.setReg)).setFs

theorem tablesWhole.runImage (h : tablesWhole s) {cand src i} : tablesWhole (runImage cand src i s) :=
  (h.modImg.setF.onlyIf (·.evt)).showImage.enterStage

theorem tablesWhole.runRom (h : tablesWhole s) {held} : tablesWhole (runRom held s) := h.modImg.runImage

theorem tablesWhole.nextCandidate (h : tablesWhole s) : tablesWhole (nextCandidate s) := by
  unfold Machine.nextCandidate
  split
  · exact h.modImg.setF
  · exact h.runRom
  · exact h

theorem tablesWhole.rejectHead (h : tablesWhole s) : tablesWhole (rejectHead s) := h.modImg.nextCandidate

theorem tablesWhole.startFlash (h : tablesWhole s) : tablesWhole (startFlash s) := h.modImg

theorem tablesWhole.startChain (h : tablesWhole s) : tablesWhole (startChain s) := by
  unfold Machine.startChain
  extract_lets
  split
  · exact h.modImg.startFlash
  · exact h.modImg.runRom
  · exact h.modImg.runRom
  · exact (h.modImg.onlyIf (·.emit)).modImg

theorem tablesWhole.flashReadEff (h : tablesWhole s) {hdrA hdrB bytes} :
    tablesWhole (flashReadEff hdrA hdrB bytes s) := by
  unfold Machine.flashReadEff
  refine .ite h ?_
  extract_lets s₁
  have h₁ : tablesWhole s₁ := h.onlyIf (·.modImg)
  split
  · exact h₁
  · split
    · exact h₁.imgRefuse.rejectHead
    · split
      · exact h₁.imgErr.rejectHead
      · exact h₁.runImage

theorem tablesWhole.pairImageEff (h : tablesWhole s) {bytes} : tablesWhole (pairImageEff bytes s) := by
  unfold Machine.pairImageEff
  refine .ite h ?_
  split
  · exact h.imgErr.modImg.startFlash
  · exact h.runImage

theorem tablesWhole.pairTimeoutEff (h : tablesWhole s) : tablesWhole (pairTimeoutEff s) :=
  .ite h h.modImg.startFlash

theorem tablesWhole.failStep12 (h : tablesWhole s) {i} : tablesWhole (failStep12 i s) :=
  h.enterStage.andThen fun h => .ite h.imgErr.setF.setOp.evt.startChain
    (.ite h.imgErr.modImg.startFlash h.imgErr.modImg.rejectHead)

theorem tablesWhole.enterS5 (h : tablesWhole s) : tablesWhole (enterS5 s) := by
  unfold Machine.enterS5
  split
  · exact h
  · exact h.enterStage.cacheS5.onlyIf fun h => .ite h.failStep12 h.setF

theorem tablesWhole.bistDoneEff (h : tablesWhole s) {fails} : tablesWhole (bistDoneEff fails s) :=
  .ite h ((h.setFs.frame.forEach (fun _ h => h.bistOut)).andThen fun h => .ite h h.enterS5)

theorem tablesWhole.decideEarly (h : tablesWhole s) {u tgt why} : tablesWhole (decideEarly u tgt why s) :=
  h.frame

theorem tablesWhole.channelTrained (h : tablesWhole s) {ch ok} : tablesWhole (channelTrained ch ok s) :=
  .ite h.setFlag h.setFlag.decideEarly.evt

theorem tablesWhole.trainingEff (h : tablesWhole s) {ok0 ok1 org0 org1} :
    tablesWhole (trainingEff ok0 ok1 org0 org1 s) := by
  unfold Machine.trainingEff
  split
  · exact h
  · exact .ite h (.ite h.channelTrained.channelTrained.halt
      (.ite h.failStep12 h.channelTrained.channelTrained.setReg.setFs.setF))

theorem tablesWhole.withKey (h : tablesWhole s) {key f} (hf : ∀ {s}, tablesWhole s → tablesWhole (f s)) :
    tablesWhole (withKey key f s) := .ite (hf h) h.imgRefuse

theorem tablesWhole.whenFree (h : tablesWhole s) {f} (hf : ∀ {s}, tablesWhole s → tablesWhole (f s)) :
    tablesWhole (whenFree f s) := .ite (hf h) h.imgRefuse

theorem tablesWhole.quiesceEff (h : tablesWhole s) : tablesWhole (quiesceEff s) := .ite h h.setF.sealAll

theorem tablesWhole.quiesceDoneEff (h : tablesWhole s) : tablesWhole (quiesceDoneEff s) :=
  .ite h (.ite h ((h.setF.modImg.forEach (fun _ h => h.change.carDown)).onlyIf (·.imgRefuse)).evt)

theorem tablesWhole.resumeEff (h : tablesWhole s) : tablesWhole (resumeEff s) :=
  h.onlyIf fun h => h.setF.modImg.forEach (fun _ h => h.policyReq)

theorem tablesWhole.hostApplied (h : tablesWhole s) : tablesWhole (hostApplied s) := by
  obtain ⟨strands, slots, cars, cams, traces, dacs, pd1, pd2, wcars, engines, pool, redets, _⟩ := h
  exact ⟨strands, slots, cars, cams, traces, dacs, pd1, pd2, wcars, engines, pool, redets, rfl⟩

theorem tablesWhole.enterApply (h : tablesWhole s) {src i} : tablesWhole (enterApply src i s) := by
  unfold Machine.enterApply
  extract_lets +onlyGivenNames was s₁
  have h₁ : tablesWhole s₁ := h.setF.setOp.releaseOutputs
  refine .runImage (.enterStage (.setF (.setF (.modImg (.ite h₁ (.keepRegs (.frame (.hostApplied ?_))))))))
  exact .rebuild (.modDisc (h₁.newMedia (by simp [mediaWhole]))) (fun _ => rfl) (by simp +contextual [motionWhole]) id
    (fun _ => ⟨rfl, rfl⟩) id

theorem tablesWhole.applyEff (h : tablesWhole s) {key} : tablesWhole (applyEff key s) := by
  unfold Machine.applyEff
  refine h.withKey fun h => h.whenFree (fun h => .ite h.imgRefuse (.ite h (.ite h.imgRefuse ?_)))
  split
  · exact h.imgRefuse
  · exact .ite h.setOp.emit h.enterApply

theorem tablesWhole.clearStaged (h : tablesWhole s) : tablesWhole (clearStaged s) := h.modImg.setF

theorem tablesWhole.validateStaged (h : tablesWhole s) {byDmp bytes} :
    tablesWhole (validateStaged byDmp bytes s) := by
  unfold Machine.validateStaged
  extract_lets
  split
  · exact h.setOp.imgErr.evt
  · exact h.setOp.modImg.setF.evt

theorem tablesWhole.fetchImageEff (h : tablesWhole s) : tablesWhole (fetchImageEff s) :=
  h.whenFree fun h => .ite h.imgRefuse h.clearStaged.setOp.emit

theorem tablesWhole.fetchDoneEff (h : tablesWhole s) {bytes} : tablesWhole (fetchDoneEff bytes s) := by
  unfold Machine.fetchDoneEff
  refine .ite h ?_
  split
  · exact h.setOp.imgRefuse.evt
  · exact h.validateStaged

theorem tablesWhole.progEff (h : tablesWhole s) {slotB key} : tablesWhole (progEff slotB key s) := by
  unfold Machine.progEff
  refine h.withKey fun h => h.whenFree (fun h => ?_)
  split
  · exact h.imgRefuse
  · exact .ite h.imgRefuse h.setOp.emit

theorem tablesWhole.progDoneEff (h : tablesWhole s) {same} : tablesWhole (progDoneEff same s) := by
  unfold Machine.progDoneEff
  split
  · exact h.setOp.modImg.evt
  · exact h

theorem tablesWhole.burn (h : tablesWhole s) {f} : tablesWhole (burn f s) := h.modImg

theorem tablesWhole.burnEff (h : tablesWhole s) {key refused f} (hf : ∀ {s}, tablesWhole s → tablesWhole (f s)) :
    tablesWhole (burnEff key refused f s) :=
  h.withKey fun h => h.whenFree (fun h => .ite h.imgRefuse (.ite h.imgRefuse (hf h)))

theorem tablesWhole.burnKeyEff (h : tablesWhole s) {key} : tablesWhole (burnKeyEff key s) :=
  h.burnEff (·.burn)

theorem tablesWhole.burnEnforceEff (h : tablesWhole s) {key} : tablesWhole (burnEnforceEff key s) :=
  h.burnEff (·.burn)

theorem tablesWhole.burnNoRomEff (h : tablesWhole s) {key} : tablesWhole (burnNoRomEff key s) :=
  h.burnEff (·.burn)

theorem tablesWhole.burnRevokeEff (h : tablesWhole s) {key n} : tablesWhole (burnRevokeEff key n s) :=
  h.burnEff (·.burn)

/-! ### The management port's settings -/

theorem tablesWhole.modMgt (h : tablesWhole s) {f} : tablesWhole (modMgt f s) := h.frame

theorem tablesWhole.addrEvt (h : tablesWhole s) : tablesWhole (addrEvt s) := h.evt

theorem tablesWhole.putIpv4 (h : tablesWhole s) {a} : tablesWhole (putIpv4 a s) := h.setReg.setFlag

theorem tablesWhole.putIpv6 (h : tablesWhole s) {a} : tablesWhole (putIpv6 a s) :=
  (h.forEach (fun _ h => h.setReg)).setFlag

theorem tablesWhole.applyNet (h : tablesWhole s) {net} : tablesWhole (applyNet net s) :=
  .ite h.modMgt.setFlag.putIpv4.putIpv6 h.modMgt.setFlag.putIpv4.putIpv6.modMgt.setF

theorem tablesWhole.addrChangeEff (h : tablesWhole s) {v6 a} : tablesWhole (addrChangeEff v6 a s) :=
  .ite h (.ite (h.onlyIf (·.putIpv6.addrEvt)) (h.onlyIf (·.putIpv4.addrEvt)))

theorem tablesWhole.netApplyEff (h : tablesWhole s) : tablesWhole (netApplyEff s) := by
  unfold Machine.netApplyEff
  split
  · exact h
  · exact h.modMgt.applyNet.onlyIf (·.addrEvt)

/-! ### Supplies, resets, power failure and the work of S6 and S7 (R454 to R476) -/

theorem tablesWhole.modPwr (h : tablesWhole s) {f} : tablesWhole (modPwr f s) := h.frame

theorem tablesWhole.resetWith (h : tablesWhole s) {keep} : tablesWhole (resetWith keep s) := by
  obtain ⟨-, -, cars, -⟩ := h
  simpa [tablesWhole, Machine.resetWith, Tbl.sorted] using cars

theorem tablesWhole.coldReset (h : tablesWhole s) : tablesWhole (coldReset s) :=
  h.resetWith.modPwr.frame.setReg

theorem tablesWhole.enterS2 (h : tablesWhole s) : tablesWhole (enterS2 s) :=
  h.onlyIf fun h => h.modPwr.enterStage.onlyIf (·.setF.glbEvt)

theorem tablesWhole.warmReset (h : tablesWhole s) {cause} : tablesWhole (warmReset cause s) :=
  h.resetWith.bumpBy.setReg.modPwr.enterStage.enterS2

theorem tablesWhole.coldResetEff (h : tablesWhole s) : tablesWhole (coldResetEff s) := h.coldReset

theorem tablesWhole.railFailEff (h : tablesWhole s) : tablesWhole (railFailEff s) :=
  h.coldReset.releaseOutputs

theorem tablesWhole.railsGoodEff (h : tablesWhole s) : tablesWhole (railsGoodEff s) :=
  h.onlyIf (·.modPwr.enterStage)

theorem tablesWhole.holdEndEff (h : tablesWhole s) : tablesWhole (holdEndEff s) := h.onlyIf (·.modPwr.enterS2)

theorem tablesWhole.pllLockEff (h : tablesWhole s) : tablesWhole (pllLockEff s) := h.onlyIf (·.modPwr.enterS2)

theorem tablesWhole.resetAssertEff (h : tablesWhole s) : tablesWhole (resetAssertEff s) :=
  .ite h.modPwr.warmReset h.modPwr

theorem tablesWhole.resetRiseEff (h : tablesWhole s) {straps} : tablesWhole (resetRiseEff straps s) :=
  .ite h h.setReg.modPwr.enterS2

theorem tablesWhole.saveNow (h : tablesWhole s) {same} : tablesWhole (saveNow same s) := h.putSlot.frame

theorem tablesWhole.softResetEff (h : tablesWhole s) {v same} : tablesWhole (softResetEff v same s) :=
  h.onlyIf (·.saveNow.warmReset)

theorem tablesWhole.clockLossEff (h : tablesWhole s) : tablesWhole (clockLossEff s) :=
  h.onlyIf (·.modPwr.releaseOutputs.setF.setF)

theorem tablesWhole.clockRelockEff (h : tablesWhole s) : tablesWhole (clockRelockEff s) :=
  h.onlyIf (·.warmReset)

theorem tablesWhole.afterChain (h : tablesWhole s) : tablesWhole (afterChain s) := h.onlyIf (·.applyNet)

theorem tablesWhole.romCheckEff (h : tablesWhole s) {ok} : tablesWhole (romCheckEff ok s) :=
  .ite h (.ite h.enterStage.startChain.afterChain h.halt)

theorem tablesWhole.flashReadRow (h : tablesWhole s) {fast hdrA hdrB bytes} :
    tablesWhole (flashReadRow fast hdrA hdrB bytes s) := (h.onlyIf (·.setFlag)).flashReadEff.afterChain

theorem tablesWhole.bistDoneRow (h : tablesWhole s) {fails} : tablesWhole (bistDoneRow fails s) :=
  h.bistDoneEff.afterChain

theorem tablesWhole.trainingRow (h : tablesWhole s) {ok0 ok1 org0 org1} :
    tablesWhole (trainingRow ok0 ok1 org0 org1 s) :=
  h.trainingEff.afterChain

theorem tablesWhole.driveOutputs (h : tablesWhole s) : tablesWhole (driveOutputs s) :=
  h.newMot (by simp +contextual [motionWhole])

theorem tablesWhole.takeOwnership (h : tablesWhole s) : tablesWhole (takeOwnership s) := h.frame.setF

theorem tablesWhole.ownAtS6 (h : tablesWhole s) : tablesWhole (ownAtS6 s) :=
  .ite h.takeOwnership (.ite h (.ite h.frame (h.onlyIf (·.takeOwnership))))

theorem tablesWhole.sampleNet (h : tablesWhole s) {high} : tablesWhole (sampleNet high s) := h.frame

theorem tablesWhole.bringupEff (h : tablesWhole s) {ownHigh} : tablesWhole (bringupEff ownHigh s) :=
  .ite h h.modMem.enterStage.bumpBy.frame.modPwr.sampleNet.ownAtS6

theorem tablesWhole.recordFirst (h : tablesWhole s) {u to_} : tablesWhole (recordFirst u to_ s) :=
  .ite (.ite h.frame.frame h.frame.putState.recordChange) h.change

theorem tablesWhole.loadImage (h : tablesWhole s) {i} : tablesWhole (loadImage i s) :=
  (h.setReg.setReg.setF.setF.forEach (fun _ h => h.setReg)).setReg.modMgt.applyNet.setReg.modSpn.arbitrate

theorem tablesWhole.loadCams (h : tablesWhole s) {i} : tablesWhole (loadCams i s) := by
  unfold Machine.loadCams
  refine .forEach (.forEach (h.newMot ?_) fun _ h => h.modCam) fun _ h => .ite h h.modCar.crgEvt
  simp +contextual [motionWhole]

theorem tablesWhole.loadHomes (h : tablesWhole s) : tablesWhole (loadHomes s) := by
  unfold Machine.loadHomes
  refine h.forEach fun _ h => ?_
  split
  · exact h.setReg
  · exact h

theorem tablesWhole.loadRuns (h : tablesWhole s) : tablesWhole (loadRuns s) := h.setReg

theorem tablesWhole.armLoops (h : tablesWhole s) {i} : tablesWhole (armLoops i s) :=
  h.forEach fun _ h => h.onlyIf (·.askEnable)

theorem tablesWhole.armEff (h : tablesWhole s) {answers} : tablesWhole (armEff answers s) := by
  unfold Machine.armEff
  split
  · exact h
  · exact .ite h ((((((h.modPwr.loadImage.forEach (fun _ h => h.readRec)).buildZones.onlyIf
      (·.modPair.prlEvt)).forEach (fun _ h => h.recordFirst)).setReg.loadLoops.loadCams.forEach
        (fun _ h => h.loadServo)).loadHomes.loadRuns.setReg.host.onlyIf (·.modPair)).onlyIf
          (·.driveOutputs.armLoops)).modPwr

theorem tablesWhole.runEntryEff (h : tablesWhole s) : tablesWhole (runEntryEff s) :=
  .ite h (h.enterStage.onlyIf (·.setF.setOp)).policyStarts

theorem tablesWhole.perstEff (h : tablesWhole s) : tablesWhole (perstEff s) :=
  h.modPwr.onlyIf (·.modPwr.glbEvt.flrEff)

theorem tablesWhole.perstReleaseEff (h : tablesWhole s) : tablesWhole (perstReleaseEff s) := h.modPwr

theorem tablesWhole.refLostEff (h : tablesWhole s) : tablesWhole (refLostEff s) := h.onlyIf (·.modPwr.evt)

theorem tablesWhole.refPresentEff (h : tablesWhole s) : tablesWhole (refPresentEff s) := h.modPwr

theorem tablesWhole.xtalEff (h : tablesWhole s) {v} : tablesWhole (xtalEff v s) := h.onlyIf (·.setReg)

theorem tablesWhole.dropOpen (h : tablesWhole s) : tablesWhole (dropOpen s) :=
  h.media.forEach fun _ h => h.dropSkein

theorem tablesWhole.pwrSequence (h : tablesWhole s) {t5 t6 same} : tablesWhole (pwrSequence t5 t6 same s) :=
  (((h.modPwr.glbEvt.onlyIf (·.dropOpen.spnPowerFail.spnUnit)).mramDoneEff.onlyIf
    (fun h => h.stopAllNow.forEach (fun _ h => .carriageDark
      (.forEach (.ite h h.stopWriteNow.change) (fun _ h => .ite h h.change))))).onlyIf
        (·.frame)).saveNow.setReg.setF.modPwr

theorem tablesWhole.pwrfailEff (h : tablesWhole s) {t5 t6 same} : tablesWhole (pwrfailEff t5 t6 same s) :=
  .ite h (h.setF.modPwr.andThen fun h => .ite h.mramDoneEff h.pwrSequence)

theorem tablesWhole.pwrRecoverEff (h : tablesWhole s) : tablesWhole (pwrRecoverEff s) :=
  h.onlyIf (·.warmReset)

theorem tablesWhole.thermalTrip (h : tablesWhole s) : tablesWhole (thermalTrip s) :=
  h.modPwr.onlyIf fun h => (h.stopAllNow.forEach (fun _ h => h.carriageDark)).spnTrip.releaseOutputs.change.change

theorem tablesWhole.thermalReadEff (h : tablesWhole s) {temps} : tablesWhole (thermalReadEff temps s) :=
  .ite h (.ite h.setReg ((((h.setReg.onlyIf (·.modPwr)).modPwr.onlyIf (·.evt)).onlyIf
    (·.releaseThermal)).arbitrate.onlyIf (·.thermalTrip)))

theorem tablesWhole.ceilingStepEff (h : tablesWhole s) : tablesWhole (ceilingStepEff s) := by
  unfold Machine.ceilingStepEff
  split
  · exact h.modPwr.arbitrate
  · exact h

/-! ### The redundant pair (chapter 18) -/

theorem tablesWhole.setWidth (h : tablesWhole s) {w} : tablesWhole (setWidth w s) :=
  h.modPair.setFs.onlyIf (·.partnerTo)

theorem tablesWhole.sendHello (h : tablesWhole s) : tablesWhole (sendHello s) := h.emit

theorem tablesWhole.linkTrainDoneEff (h : tablesWhole s) {lanes} : tablesWhole (linkTrainDoneEff lanes s) :=
  .ite h ((h.modPair.setWidth.onlyIf (·.prlEvt)).onlyIf (·.sendHello))

theorem tablesWhole.linkRetryEff (h : tablesWhole s) : tablesWhole (linkRetryEff s) :=
  h.onlyIf (·.modPair.setF.emit)

theorem tablesWhole.laneErrorEff (h : tablesWhole s) {lane} : tablesWhole (laneErrorEff lane s) :=
  .ite h (h.modPair.setWidth.bump.onlyIf (·.prlEvt))

theorem tablesWhole.jokorFrameEff (h : tablesWhole s) {ok} : tablesWhole (jokorFrameEff ok s) :=
  .ite h (.ite h.modPair (.ite h.modPair h.modPair.bump.emit))

theorem tablesWhole.partnerFault (h : tablesWhole s) {claims} : tablesWhole (partnerFault claims s) :=
  .ite h.partnerTo h.decideEarly

theorem tablesWhole.becomeOwner (h : tablesWhole s) : tablesWhole (becomeOwner s) := by
  unfold Machine.becomeOwner
  refine .ite h.takeOwnership (.policyStarts ?_)
  split
  · exact h.takeOwnership.driveOutputs.armLoops
  · exact h.takeOwnership.driveOutputs

theorem tablesWhole.clearMirror (h : tablesWhole s) : tablesWhole (clearMirror s) := h.media

theorem tablesWhole.pairHelloEff (h : tablesWhole s) {role digest deck stg wants ownHigh} :
    tablesWhole (pairHelloEff role digest deck stg wants ownHigh s) :=
  .ite h (h.modPair.sampleNet.andThen fun h => .ite h.modPair.partnerFault.prlEvt
    (((h.onlyIf (·.emit)).onlyIf (·.emit)).andThen fun h => .ite h.modPair.partnerFault.prlEvt
      ((h.onlyIf (fun h => .partnerStart (.ite h h.clearMirror))).onlyIf (·.becomeOwner))))

theorem tablesWhole.heartbeatSendEff (h : tablesWhole s) : tablesWhole (heartbeatSendEff s) :=
  .ite h h.bump.emit

theorem tablesWhole.heartbeatReceiveEff (hs : tablesWhole s) {h} : tablesWhole (heartbeatReceiveEff h s) :=
  .ite hs (((hs.modPair.bump.onlyIf (·.modPair)).onlyIf (·.modPair.set64)).onlyIf (·.leaveSuspect))

theorem tablesWhole.drivePeerReset (h : tablesWhole s) {on} : tablesWhole (drivePeerReset on s) :=
  h.frame.emit

theorem tablesWhole.beginClaim (h : tablesWhole s) {why} : tablesWhole (beginClaim why s) :=
  .ite h.modPair h.modPair.drivePeerReset

theorem tablesWhole.partnerLostEff (h : tablesWhole s) : tablesWhole (partnerLostEff s) := by
  unfold Machine.partnerLostEff
  refine .ite h (.prlEvt ?_)
  split
  · exact .ite h.modPair.beginClaim.partnerFault h.modPair.partnerFault
  · exact h.modPair.modPair.partnerFault
  · exact h.modPair.partnerFault

theorem tablesWhole.bootWaitEff (h : tablesWhole s) {ownHigh} : tablesWhole (bootWaitEff ownHigh s) :=
  h.sampleNet.onlyIf (·.beginClaim)

theorem tablesWhole.ownerLinkWaitEff (h : tablesWhole s) {ownHigh} : tablesWhole (ownerLinkWaitEff ownHigh s) :=
  h.sampleNet.onlyIf (·.becomeOwner)

theorem tablesWhole.takeStarting (h : tablesWhole s) : tablesWhole (takeStarting s) :=
  .forEach (.ite h h.change) fun _ h => (h.forEach (fun _ h => h.onlyIf (·.change))).andThen fun h => .ite h h.change

theorem tablesWhole.takeCarriage (h : tablesWhole s) {c} : tablesWhole (takeCarriage c s) := by
  unfold Machine.takeCarriage
  split
  · exact h
  · exact h.modCar.frame.onlyIf (·.seekEff)

theorem tablesWhole.takeLost (h : tablesWhole s) : tablesWhole (takeLost s) :=
  h.modPair.forEach fun _ h => .ite h.fatalHeld (.ite h.fatalMap (h.onlyIf (·.fatalReplay)))

theorem tablesWhole.takeSkeins (h : tablesWhole s) : tablesWhole (takeSkeins s) :=
  h.newMedia (by simp [mediaWhole])

theorem tablesWhole.requeueHanks (h : tablesWhole s) : tablesWhole (requeueHanks s) :=
  h.forEach fun _ h => h.media

theorem tablesWhole.takeKnots (h : tablesWhole s) : tablesWhole (takeKnots s) := .ite h h.formKnotSkein

theorem tablesWhole.rerun (h : tablesWhole s) {t c} : tablesWhole (rerun t c s) := by
  unfold Machine.rerun
  extract_lets
  split
  · exact h.modCmd.endCmd
  · exact h.modCmd.enterWaiting

theorem tablesWhole.takeOwn (h : tablesWhole s) {e t c} : tablesWhole (takeOwn e t c s) := by
  unfold Machine.takeOwn
  extract_lets
  split
  · exact .ite h.rerun h.modCmd.endCmd
  · exact .ite (.ite h.modCmd.modCmd h.modCmd.endCmd) (.ite h.dropWrite.rerun
      (.ite h.modCmd (.ite (.ite h.modCmd.endCmd h.modCmd.frame) h.rerun)))

theorem tablesWhole.takeOther (h : tablesWhole s) {e} : tablesWhole (takeOther e s) :=
  .ite h.dropWrite (h.onlyIf (·.putCmd))

theorem tablesWhole.takeEntry (h : tablesWhole s) {e} : tablesWhole (takeEntry e s) := by
  unfold Machine.takeEntry
  refine .ite ?_ h.takeOther
  split
  · exact h.takeOwn
  · exact h

theorem tablesWhole.takeUnjournaled (h : tablesWhole s) {t} : tablesWhole (takeUnjournaled t s) := by
  unfold Machine.takeUnjournaled
  split
  · exact h
  · refine .ite h ?_
    split
    · exact .ite h.set64.bump.modCmd.checkRest h.set64.bump.modCmd.endCmd
    · exact h.set64.bump.modCmd.checkRest

theorem tablesWhole.takeover (h : tablesWhole s) : tablesWhole (takeover s) := by
  unfold Machine.takeover
  extract_lets s₁ s₂ s₃ s₄ s₅ s₆ s₇ js ts s₈ s₉ s₁₀
  have h₃ : tablesWhole s₃ := h.modPair.takeStarting.forEach fun _ h => h.takeCarriage
  have h₇ : tablesWhole s₇ := h₃.modDisc.set64.takeSkeins.takeLost
  have h₉ : tablesWhole s₉ := (h₇.modPair.forEach fun _ h => h.takeEntry).forEach fun _ h => h.takeUnjournaled
  exact (h₉.requeueHanks.takeKnots.formAll.settle.onlyIf (·.policyReq)).onlyIf (·.forEach fun _ h => h.policyReq)

theorem tablesWhole.ownNetHighEff (h : tablesWhole s) {late outUs} : tablesWhole (ownNetHighEff late outUs s) := by
  unfold Machine.ownNetHighEff
  refine .ite h ?_
  dsimp only
  split
  · exact h.setReg.becomeOwner
  · exact h.setReg.takeOwnership.driveOutputs.takeover.bump.prlEvtWith
  · refine .onlyIf (.forEach ?_ fun _ h => ?_) (·.policyReq)
    · exact .ite h.setReg.takeOwnership.driveOutputs.setF.modImg.modDisc
        h.setReg.takeOwnership.driveOutputs.setF.modImg.modDisc.change
    · split
      · exact h.modCar
      · exact h

theorem tablesWhole.claimTimeoutEff (h : tablesWhole s) : tablesWhole (claimTimeoutEff s) :=
  .ite h (h.onlyIf (·.drivePeerReset)).modPair.partnerFault.forwardFail.prlEvt

theorem tablesWhole.peerReleaseEff (h : tablesWhole s) : tablesWhole (peerReleaseEff s) :=
  h.onlyIf (·.drivePeerReset)

theorem tablesWhole.handoverEff (h : tablesWhole s) {key} : tablesWhole (handoverEff key s) :=
  h.onlyIf fun h => (((h.disableSlots.spnDisown.forEach (fun _ h => h.carriageDark)).newMot
    (by simp [motionWhole])).onlyIf (·.change)).modPair.releaseOutputs.emit

theorem tablesWhole.handoverMessageEff (h : tablesWhole s) : tablesWhole (handoverMessageEff s) :=
  h.onlyIf (·.beginClaim.emit)

theorem tablesWhole.handoverAckEff (h : tablesWhole s) : tablesWhole (handoverAckEff s) :=
  .ite h h.frame.modPair.setF.setF.prlEvt

theorem tablesWhole.handoverTimeoutEff (h : tablesWhole s) : tablesWhole (handoverTimeoutEff s) :=
  .ite h h.modPair.driveOutputs.policyReq.prlEvt

theorem tablesWhole.peerResetEff (h : tablesWhole s) {key} : tablesWhole (peerResetEff key s) :=
  h.onlyIf (·.modPair.drivePeerReset)

theorem tablesWhole.peerResetEndEff (h : tablesWhole s) : tablesWhole (peerResetEndEff s) :=
  h.onlyIf (·.modPair.drivePeerReset)

theorem tablesWhole.forwardedCommandEff (h : tablesWhole s) {f} : tablesWhole (forwardedCommandEff f s) := by
  unfold Machine.forwardedCommandEff
  refine .ite h ?_
  split
  · exact .ite h h.acceptAs
  · exact .ite h.finishReq h.frame

theorem tablesWhole.journalEntryEff (h : tablesWhole s) {e} : tablesWhole (journalEntryEff e s) := by
  unfold Machine.journalEntryEff
  refine .ite h (.emit (.ite h.modPair.set64 ?_))
  split
  · exact h.modPair.set64.modCmd.modPair
  · exact h.modPair.set64

theorem tablesWhole.endForwarded (h : tablesWhole s) {t c st result rep rel step d} :
    tablesWhole (endForwarded t c st result rep rel step d s) :=
  .andThen (.ite h.writeSegs (.ite h h.emit)) fun h => .modPair
    (.onlyIf (.ite h.putCmd.freeTag h.putCmd.host) (·.dropWrite))

theorem tablesWhole.forwardResultEff (h : tablesWhole s) {o} : tablesWhole (forwardResultEff o s) := by
  unfold Machine.forwardResultEff
  split
  · split
    · exact h.endForwarded
    · exact h
  · exact .ite h.i3cAnswer h.storeAnswer.dmpAnswer

theorem tablesWhole.countHeld (h : tablesWhole s) {seq} : tablesWhole (countHeld seq s) := h.modPair

theorem tablesWhole.mirrorKnots (h : tablesWhole s) {place q ns} : tablesWhole (mirrorKnots place q ns s) := by
  induction ns generalizing q s with
  | nil => exact h
  | cons n ns ih => exact ih (h.mapKnot.andThen fun h => .ite h.writeAnchor.frame h)

theorem tablesWhole.takeItem (h : tablesWhole s) {d} : tablesWhole (takeItem d s) := by
  unfold Machine.takeItem
  split
  · exact h.media.countHeld
  · have cars : s.media.cars.length = 4 := by obtain ⟨-, -, -, -, -, -, -, -, cars, -⟩ := h; exact cars
    exact h.newMedia (by simp [mediaWhole, cars])
  · exact h.modSkein
  · exact h.modVol
  · split
    · exact h.dropSkein.mirrorKnots.gcHeld.gcSkeins
    · exact h
  · exact h.modVol
  · exact .ite h h.frame.putHistory.changeEvent
  · exact h.modMgt
  · exact h.modVol
  · exact h.modDisc

theorem tablesWhole.mirrorReceiveEff (h : tablesWhole s) {d} : tablesWhole (mirrorReceiveEff d s) :=
  .ite h h.takeItem.emit

theorem tablesWhole.settleEndEff (h : tablesWhole s) : tablesWhole (settleEndEff s) :=
  .ite h (h.modPair.forEach (fun _ h => h.onlyIf (·.reachHeld)))

theorem tablesWhole.detachEff (h : tablesWhole s) : tablesWhole (detachEff s) := .ite h h.modPair.partnerTo

theorem tablesWhole.resyncDoneEff (h : tablesWhole s) : tablesWhole (resyncDoneEff s) :=
  h.onlyIf (·.modPair.partnerTo)

theorem tablesWhole.pairValidatedEff (h : tablesWhole s) {code bytes} :
    tablesWhole (pairValidatedEff code bytes s) := by
  unfold Machine.pairValidatedEff
  refine .ite h (.ite ?_ (.ite h ?_))
  · split
    · exact .ite h (.ite h.enterApply h.setOp.imgRefuse)
    · exact h
  · split
    · exact h.emit
    · exact h.emit.modPair.enterApply

theorem tablesWhole.pairWaitEndEff (h : tablesWhole s) : tablesWhole (pairWaitEndEff s) := h.modPair

/-! ### Register accesses (R543 to R553) -/

theorem tablesWhole.storeReg (h : tablesWhole s) {off v} : tablesWhole (storeReg off v s) := by
  unfold Machine.storeReg
  split
  · exact h.setReg
  · exact h

theorem tablesWhole.putLow (h : tablesWhole s) {off v} : tablesWhole (putLow off v s) := h.host

theorem tablesWhole.putHigh (h : tablesWhole s) {off v} : tablesWhole (putHigh off v s) := h.host

theorem tablesWhole.markBad (h : tablesWhole s) {off bad} : tablesWhole (markBad off bad s) := h.host

theorem tablesWhole.writeLow (h : tablesWhole s) {off v} : tablesWhole (writeLow off v s) :=
  .ite h.putLow.markBad h.putLow.markBad

theorem tablesWhole.writeHigh (h : tablesWhole s) {lo v} : tablesWhole (writeHigh lo v s) := by
  unfold Machine.writeHigh
  refine .ite h.putLow.markBad (.storeReg ?_)
  split
  · exact h.putLow.markBad.storeReg
  · exact h.putLow.markBad

theorem tablesWhole.atOwner (h : tablesWhole s) {f} (hf : ∀ {s}, tablesWhole s → tablesWhole (f s)) :
    tablesWhole (atOwner f s) := h.onlyIf fun h => hf h

theorem tablesWhole.ifBit (h : tablesWhole s) {v i f} (hf : ∀ {s}, tablesWhole s → tablesWhole (f s)) :
    tablesWhole (ifBit v i f s) := h.onlyIf fun h => hf h

theorem tablesWhole.imgCommand (h : tablesWhole s) {v} : tablesWhole (imgCommand v s) := by
  unfold Machine.imgCommand
  extract_lets
  split
  · exact h.fetchImageEff
  · exact h.quiesceEff
  · exact h.resumeEff
  · exact h.applyEff
  · exact h.progEff
  · exact h.progEff
  · exact h.burnKeyEff
  · exact h.burnEnforceEff
  · exact h.burnNoRomEff
  · exact h.burnRevokeEff
  · exact h

theorem tablesWhole.lpeCommand (h : tablesWhole s) {k v} : tablesWhole (lpeCommand k v s) :=
  (((h.setF.setF.loopFollowEff.atOwner (fun h => h.ifBit (·.loopClrFaultEff))).ifBit (·.loopParkEff)).ifBit
    (·.loopSwapEff)).loopEnableEff

theorem tablesWhole.spnCommand (h : tablesWhole s) {v} : tablesWhole (spnCommand v s) :=
  h.setF.setF.atOwner fun h => (((h.ifBit (·.spnStartReq)).ifBit (·.spnStopReq)).ifBit (·.spnClrFaultEff)).ifBit
    (·.spnForceLossEff)

theorem tablesWhole.crgControl (h : tablesWhole s) {c v} : tablesWhole (crgControl c v s) :=
  .atOwner (.ite h.crgForceSlipEff h.modCar) fun h => h.ifBit (·.crgClrFaultEff)

theorem tablesWhole.crgCommand (h : tablesWhole s) {c v} : tablesWhole (crgCommand c v s) := by
  unfold Machine.crgCommand
  refine h.storeReg.atOwner fun h => ?_
  split
  · exact h.crgCmdEff (·.seekEff)
  · exact h.crgCmdEff (·.homeCmd)
  · exact h.crgCmdEff (·.moveCmd)
  · exact h

theorem tablesWhole.hnkCommand (h : tablesWhole s) {v} : tablesWhole (hnkCommand v s) :=
  h.setF.atOwner fun h => h.forEach (fun _ h => h.ifBit (·.hankRestoreEff))

theorem tablesWhole.wrpCommand (h : tablesWhole s) {v} : tablesWhole (wrpCommand v s) :=
  h.writeInhibitEff.setF.atOwner fun h => h.ifBit (·.retryHeldEff)

theorem tablesWhole.chnTest (h : tablesWhole s) {g v} : tablesWhole (chnTest g v s) :=
  .andThen (.ite h.forceMissEff h.modStrand.setF) fun h => .ite h.forceDefectEff h.modStrand.setF

theorem tablesWhole.camControl (h : tablesWhole s) {t v} : tablesWhole (camControl t v s) :=
  h.camEngageEff.ifBit (·.camTimeResetEff)

theorem tablesWhole.invCommand (h : tablesWhole s) {v} : tablesWhole (invCommand v s) := by
  unfold Machine.invCommand
  split
  · exact h.rangeStart
  · exact h.rangeStart
  · exact h

theorem tablesWhole.lockCommand (h : tablesWhole s) {v} : tablesWhole (lockCommand v s) := by
  unfold Machine.lockCommand
  split
  · exact h.lockEff
  · exact h.unlockEff
  · exact h

theorem tablesWhole.ringCommand (h : tablesWhole s) {f v} : tablesWhole (ringCommand f v s) := by
  unfold Machine.ringCommand
  split
  · exact h.invalidateEff
  · exact h.ringQueryEff
  · exact h

theorem tablesWhole.intCommand (h : tablesWhole s) {v} : tablesWhole (intCommand v s) :=
  h.setF.setF.ifBit (·.scrubRestartEff)

theorem tablesWhole.prlCommand (h : tablesWhole s) {v} : tablesWhole (prlCommand v s) :=
  (h.ifBit (·.handoverEff)).ifBit (·.peerResetEff)

theorem tablesWhole.ordCommand (h : tablesWhole s) {v} : tablesWhole (ordCommand v s) :=
  (h.ifBit (·.replayClearEff)).ifBit (·.genLookupEff)

theorem tablesWhole.logRdWritten (h : tablesWhole s) : tablesWhole (logRdWritten s) := h.frame.logSignal

theorem tablesWhole.writeFn (h : tablesWhole s) {off v} : tablesWhole (writeFn off v s) :=
  .ite h.ringCommand h.storeReg

theorem tablesWhole.writeOne (h : tablesWhole s) {off v} : tablesWhole (writeOne off v s) :=
  .ite h.imgCommand (.ite (.ite h h.storeReg) (.ite h.softResetEff
    (.ite h.writeFn (.ite h.ordCommand (.ite h.chnTest
      (.ite h.wrpCommand (.ite h.pdlCmdEff (.ite h.hnkCommand
        (.ite h.lpeCommand (.ite h.coefWrite (.ite h.spnCommand
          (.ite h.crgControl (.ite h.crgCommand (.ite h.camPtWrite
            (.ite (h.atOwner (·.camCommitEff)) (.ite h.camControl
              (.ite (.ite h.enableEff h.disableEff) (.ite h.invCommand
                (.ite h.lockCommand (.ite h.intCommand
                  (.ite h.storeReg.logSignal (.ite h.prlCommand h.storeReg))))))))))))))))))))))

theorem tablesWhole.writeReg (h : tablesWhole s) {off v} : tablesWhole (writeReg off v s) :=
  .ite h.writeLow (.ite (h.writeHigh.onlyIf (·.logRdWritten)) h.writeOne)

theorem tablesWhole.msixWrite (h : tablesWhole s) {f o v} : tablesWhole (msixWrite f o v s) := by
  unfold Machine.msixWrite
  refine .ite h ?_
  split
  · exact h.host
  · exact h.host
  · exact h.host
  · exact .ite h.host h.msixUnmaskEff

theorem tablesWhole.barWrite (h : tablesWhole s) {f off size v} : tablesWhole (barWrite f off size v s) := by
  unfold Machine.barWrite
  split
  · exact h
  · exact .ite h (h.msixWrite.onlyIf (·.msixWrite))
  · exact .ite h (.ite h (.ite h h.writeReg))

theorem tablesWhole.readEffect (h : tablesWhole s) {r} : tablesWhole (readEffect r s) :=
  .ite h.putHigh (.ite h.putHigh (.ite (h.onlyIf (·.carryCount)).setReg
    (.ite h.camPtStep (.ite h.coefStep (h.onlyIf (·.useFree))))))

theorem tablesWhole.barRead (h : tablesWhole s) {f off size} : tablesWhole (barRead f off size s) := by
  unfold Machine.barRead
  refine .emit ?_
  split
  · exact h.onlyIf (·.readEffect)
  · exact h

theorem tablesWhole.configWrite (h : tablesWhole s) {f q} : tablesWhole (configWrite f q s) := by
  unfold Machine.configWrite
  split
  · exact h
  · exact .ite h h.host
  · refine .ite h (.ite h.host (.ite ?_ h))
    extract_lets s₁
    have h₁ : tablesWhole s₁ := h.forEach fun _ h => h.flrStart
    clear_value s₁
    exact h₁.host
  · exact h.modFn
  · exact h.modFn.unmaskAll
  · exact h.modFn

theorem tablesWhole.configEff (h : tablesWhole s) {f q} : tablesWhole (configEff f q s) :=
  .ite h (.ite h.emit (.ite h h.configWrite.useFree.emit))

/-! ### The management path (R514 to R518) -/

theorem tablesWhole.reply (h : tablesWhole s) {m typ reqId flags status p} :
    tablesWhole (reply m typ reqId flags status p s) := by
  unfold Machine.reply
  extract_lets
  split
  · exact (h.onlyIf (·.bump)).dmpAnswer
  · exact (h.onlyIf (·.bump)).i3cAnswer

theorem tablesWhole.keepAnswer (h : tablesWhole s) {m reqId typ a} : tablesWhole (keepAnswer m reqId typ a s) := by
  unfold Machine.keepAnswer
  split
  · exact h.storeAnswer
  · exact h.frame

theorem tablesWhole.answerKept (h : tablesWhole s) {m typ reqId status p} :
    tablesWhole (answerKept m typ reqId status p s) :=
  h.keepAnswer.reply

theorem tablesWhole.serveMsg (h : tablesWhole s) {m typ reqId act}
    (hact : ∀ {s}, tablesWhole s → tablesWhole (act s).2) : tablesWhole (serveMsg m typ reqId act s) := by
  have ha := hact h
  unfold Machine.serveMsg
  refine .ite (.ite h.reply ?_) ?_
  · split <;> rename_i e <;> rw [e] at ha
    · exact ha.reply
    · exact ha
  · split
    · split
      · exact h.bump.reply
      · exact h.bump.reply
    · refine .ite h.answerKept (.ite h.answerKept (.ite h.reply ?_))
      split <;> rename_i e <;> rw [e] at ha
      · exact ha.answerKept
      · exact ha.keepAnswer

theorem tablesWhole.onPort (h : tablesWhole s) {m f} (hf : ∀ {s}, tablesWhole s → tablesWhole (f s)) :
    tablesWhole (onPort m f s) := by
  unfold Machine.onPort
  split
  · exact h.onlyIf fun h => hf h.bump
  · exact h.onlyIf fun h => hf h.bump

theorem tablesWhole.invalid (h : tablesWhole s) : tablesWhole (invalid s).2 := h

theorem tablesWhole.success (h : tablesWhole s) {p} : tablesWhole (success p s).2 := h

theorem tablesWhole.discoverEff (h : tablesWhole s) {m reqId zero} : tablesWhole (discoverEff m reqId zero s) := by
  unfold Machine.discoverEff
  refine h.onPort fun h => ?_
  split
  · exact h.emit
  · exact h.i3cAnswer

theorem tablesWhole.dmpQueryEff (h : tablesWhole s) {m reqId u} : tablesWhole (dmpQueryEff m reqId u s) :=
  h.onPort fun h => h.serveMsg (fun h => .iteSnd h.success h.invalid)

theorem tablesWhole.mgmtReq (h : tablesWhole s) {m typ reqId op u code epoch} :
    tablesWhole (mgmtReq m typ reqId op u code epoch s).2 := by
  unfold Machine.mgmtReq
  refine .iteSnd h.invalid ?_
  dsimp only
  cases m with
  | station a q => exact .iteSnd (.iteSnd h.bump.emit h.bump) h.frame
  | i3c => exact .iteSnd (.iteSnd h.bump.emit h.bump) h.frame

theorem tablesWhole.dmpUnitEff (h : tablesWhole s) {m typ op reqId u code epoch} :
    tablesWhole (dmpUnitEff m typ op reqId u code epoch s) := h.onPort fun h => h.serveMsg (·.mgmtReq)

theorem tablesWhole.dmpVolumeEff (h : tablesWhole s) {m reqId v} : tablesWhole (dmpVolumeEff m reqId v s) :=
  h.onPort fun h => h.serveMsg (fun h => .iteSnd h.success h.invalid)

theorem tablesWhole.policyGetEff (h : tablesWhole s) {m reqId id} : tablesWhole (policyGetEff m reqId id s) :=
  h.onPort fun h => h.serveMsg (fun h => .iteSnd h.success h.invalid)

theorem tablesWhole.policySetEff (h : tablesWhole s) {m reqId id v} : tablesWhole (policySetEff m reqId id v s) :=
  h.onPort fun h => h.serveMsg (fun h => .iteSnd (h.modMgt.onlyIf (·.mirror)).success h.invalid)

theorem tablesWhole.netSetEff (h : tablesWhole s) {m reqId b} : tablesWhole (netSetEff m reqId b s) :=
  h.onPort fun h => h.serveMsg (fun h => .iteSnd h.modMgt.success h.invalid)

theorem tablesWhole.regReadEff (h : tablesWhole s) {m reqId off count} :
    tablesWhole (regReadEff m reqId off count s) :=
  h.onPort fun h => h.serveMsg (fun h => .iteSnd h.success h.invalid)

theorem tablesWhole.subscribeEff (h : tablesWhole s) {m reqId mask fromSeq} :
    tablesWhole (subscribeEff m reqId mask fromSeq s) := by
  unfold Machine.subscribeEff
  refine h.onPort fun h => h.serveMsg (fun h => ?_)
  split
  · exact h
  · exact .iteSnd h (h.modMgt.forEach (fun _ h => h.onlyIf (·.emit))).success

theorem tablesWhole.subscriberExpiryEff (h : tablesWhole s) {a q} : tablesWhole (subscriberExpiryEff a q s) :=
  h.modMgt

theorem tablesWhole.eventReadEff (h : tablesWhole s) {m reqId fromSeq count} :
    tablesWhole (eventReadEff m reqId fromSeq count s) :=
  h.onPort fun h => h.serveMsg (fun h => .iteSnd h.success h.invalid)

theorem tablesWhole.imageBeginEff (h : tablesWhole s) {m reqId size} : tablesWhole (imageBeginEff m reqId size s) :=
  h.onPort fun h => h.serveMsg (fun h => .iteSnd h.imgRefuse (.iteSnd h.invalid h.clearStaged.modImg.setOp.success))

theorem tablesWhole.imageDataEff (h : tablesWhole s) {m reqId off b} : tablesWhole (imageDataEff m reqId off b s) :=
  h.onPort fun h => h.serveMsg (fun h => .iteSnd h.imgRefuse (.iteSnd h (.iteSnd h.invalid h.modImg.success)))

theorem tablesWhole.imageEndEff (h : tablesWhole s) {m reqId} : tablesWhole (imageEndEff m reqId s) :=
  h.onPort fun h => h.serveMsg (fun h => .iteSnd h.imgRefuse (.iteSnd h h.validateStaged.success))

theorem tablesWhole.imageCommand (h : tablesWhole s) {cmd} : tablesWhole (imageCommand cmd s) := by
  unfold Machine.imageCommand
  split
  · exact h.quiesceEff
  · exact h.resumeEff
  · exact h.applyEff
  · exact h.progEff
  · exact h.progEff

theorem tablesWhole.imageCmdEff (h : tablesWhole s) {m reqId cmd} : tablesWhole (imageCmdEff m reqId cmd s) :=
  h.onPort fun h => h.serveMsg (fun h => .iteSnd h.invalid
    (.iteSnd h (h.setReg.imageCommand.andThen fun h => .iteSnd h.setReg.success h)))

theorem tablesWhole.duplicateExpiryEff (h : tablesWhole s) {a q reqId} :
    tablesWhole (duplicateExpiryEff a q reqId s) :=
  h.modMgt

theorem tablesWhole.dispatchMsg (h : tablesWhole s) {m typ reqId zero p} :
    tablesWhole (dispatchMsg m typ reqId zero p s) :=
  .ite h.discoverEff (.ite h.dmpQueryEff (.ite h.dmpUnitEff
    (.ite h.dmpUnitEff (.ite h.dmpUnitEff (.ite h.dmpVolumeEff
      (.ite h.policyGetEff (.ite h.policySetEff (.ite h.netSetEff
        (.ite h.regReadEff (.ite h.subscribeEff (.ite h.eventReadEff
          (.ite h.imageBeginEff (.ite h.imageDataEff (.ite h.imageEndEff h.imageCmdEff))))))))))))))

theorem tablesWhole.messageEff (h : tablesWhole s) {m b} : tablesWhole (messageEff m b s) :=
  .ite (h.onPort (·.bump)) (.ite (h.onPort (·.reply)) h.dispatchMsg)

theorem tablesWhole.modI3c (h : tablesWhole s) {f} : tablesWhole (modI3c f s) := h.onlyIf (·.frame)

theorem tablesWhole.i3cWriteEff (h : tablesWhole s) {b} : tablesWhole (i3cWriteEff b s) :=
  .ite h h.modI3c.messageEff

theorem tablesWhole.i3cReadEff (h : tablesWhole s) : tablesWhole (i3cReadEff s) := .ite h h.modI3c.emit

theorem tablesWhole.eventsCccEff (h : tablesWhole s) {on events} : tablesWhole (eventsCccEff on events s) :=
  h.onlyIf (·.modI3c)

theorem tablesWhole.rstdaaEff (h : tablesWhole s) : tablesWhole (rstdaaEff s) := h.modI3c

theorem tablesWhole.entdaaEff (h : tablesWhole s) {a} : tablesWhole (entdaaEff a s) := h.modI3c

theorem tablesWhole.setdasaEff (h : tablesWhole s) {static a} : tablesWhole (setdasaEff static a s) :=
  h.onlyIf (·.modI3c)

theorem tablesWhole.getFreeEff (h : tablesWhole s) {n} : tablesWhole (getFreeEff n s) := .ite h h.emit.useFree

theorem tablesWhole.getLenEff (h : tablesWhole s) {read} : tablesWhole (getLenEff read s) := .ite h h.emit

theorem tablesWhole.setLenEff (h : tablesWhole s) {read n} : tablesWhole (setLenEff read n s) := h.modI3c

theorem tablesWhole.ptpSyncEff (h : tablesWhole s) {ofs} : tablesWhole (ptpSyncEff ofs s) :=
  .ite h (h.setReg.bump.andThen fun h => .ite h.modMgt.frame.setF.evt
    (h.modMgt.useFree.andThen fun h => .ite (.ite h.setF h.setF.evt) h.setF))

theorem tablesWhole.ptpLostEff (h : tablesWhole s) : tablesWhole (ptpLostEff s) := .ite h h.setF.modMgt.evt

theorem tablesWhole.sgmiiEff (h : tablesWhole s) {up} : tablesWhole (sgmiiEff up s) := .ite h h.setFlag.evt

theorem tablesWhole.logRdEff (h : tablesWhole s) {v} : tablesWhole (logRdEff v s) :=
  h.onlyIf (·.set64.logRdWritten)

/-! ### The test access port -/

theorem tablesWhole.tapLoad (h : tablesWhole s) {ir} : tablesWhole (tapLoad ir s) := h.frame

theorem tablesWhole.extestEff (h : tablesWhole s) : tablesWhole (extestEff s) := h.tapLoad

theorem tablesWhole.idcodeEff (h : tablesWhole s) : tablesWhole (idcodeEff s) := h.tapLoad.emit

theorem tablesWhole.samplePreloadEff (h : tablesWhole s) {sampled cells} :
    tablesWhole (samplePreloadEff sampled cells s) :=
  h.tapLoad.emit.frame

theorem tablesWhole.highzEff (h : tablesWhole s) : tablesWhole (highzEff s) := h.tapLoad

theorem tablesWhole.clampEff (h : tablesWhole s) : tablesWhole (clampEff s) := h.tapLoad

theorem tablesWhole.extestPulseEff (h : tablesWhole s) : tablesWhole (extestPulseEff s) := h.tapLoad

theorem tablesWhole.extestTrainEff (h : tablesWhole s) : tablesWhole (extestTrainEff s) := h.tapLoad

theorem tablesWhole.bypassEff (h : tablesWhole s) {code} : tablesWhole (bypassEff code s) :=
  .ite h.tapLoad h.tapLoad

theorem tablesWhole.regAccEff (h : tablesWhole s) {w} : tablesWhole (regAccEff w s) :=
  h.frame.tapLoad.emit.andThen fun h => .ite h.frame (.ite (.ite h.frame.msixWrite h.frame.writeReg)
    (.ite h.frame h.frame.readEffect))

theorem tablesWhole.dacUpdateEff (h : tablesWhole s) : tablesWhole (dacUpdateEff s) :=
  h.newMot (by simp [motionWhole])

/-! ### How a command reaches the block -/

theorem tablesWhole.served (h : tablesWhole s) {off f} (hf : ∀ {s}, tablesWhole s → tablesWhole (f s)) :
    tablesWhole (served off f s) := h.onlyIf fun h => hf h

theorem tablesWhole.servedOwner (h : tablesWhole s) {off f} (hf : ∀ {s}, tablesWhole s → tablesWhole (f s)) :
    tablesWhole (servedOwner off f s) := h.served fun h => h.atOwner hf

theorem tablesWhole.imgServed (h : tablesWhole s) {f} (hf : ∀ {s}, tablesWhole s → tablesWhole (f s)) :
    tablesWhole (imgServed f s) := .ite h (h.served hf)

theorem tablesWhole.instOf (h : tablesWhole s) {n i f} (hf : ∀ {s}, tablesWhole s → tablesWhole (f s)) :
    tablesWhole (instOf n i f s) := h.onlyIf fun h => hf h

theorem tablesWhole.msixWithin (h : tablesWhole s) {f v g} (hg : ∀ {s}, tablesWhole s → tablesWhole (g s)) :
    tablesWhole (msixWithin f v g s) := by
  unfold Machine.msixWithin
  split
  · exact h.onlyIf fun h => hg h
  · exact hg h

theorem tablesWhole.dataPort (h : tablesWhole s) {off write} : tablesWhole (dataPort off write s) := by
  unfold Machine.dataPort
  refine h.served fun h => ?_
  split
  · exact h.writeReg
  · exact h.readEffect.emit

theorem tablesWhole.forceOvrEff (h : tablesWhole s) {k on} : tablesWhole (forceOvrEff k on s) :=
  h.setF.setFlag

theorem tablesWhole.crgSeekEff (h : tablesWhole s) {c lf turn} : tablesWhole (crgSeekEff c lf turn s) :=
  h.crgCommand

theorem tablesWhole.outputStage (h : tablesWhole s) : tablesWhole (outputStage s) :=
  .ite h.releaseOutputs (h.onlyIf (·.frame))

theorem tablesWhole.finish (h : tablesWhole s) {s₀} : tablesWhole (finish s₀ s) := h.frame.outputStage

/-! ### The passing of time -/

theorem tablesWhole.tick (h : tablesWhole s) : tablesWhole (tick s) := h.onlyIf (·.frame)

/-! ### The commands and the steps -/

/-- Every next state that the outcome holds has its tables whole. -/
def wholeNext (o : Host.Outcome State Fault Refusal) : Prop := ∀ u, o = .next u → tablesWhole u

theorem tablesWhole.done (h : tablesWhole t) : wholeNext (done s t) := by
  intro u e
  cases e
  exact h.finish

/-- Every command keeps the tables whole: its effect does, as the lemma of that effect says, and so does its end. -/
theorem tablesWhole.exec (h : tablesWhole s) (i : Instr) : wholeNext (exec i s) := by
  cases i with
  | coldReset => exact h.coldResetEff.done
  | railFail => exact h.railFailEff.done
  | railsGood => exact h.railsGoodEff.done
  | internalHoldEnd => exact h.holdEndEff.done
  | pllLock => exact h.pllLockEff.done
  | resetNAssert => exact h.resetAssertEff.done
  | resetNRise _ => exact h.resetRiseEff.done
  | softWarmReset _ _ => exact (h.served (·.softResetEff)).done
  | clockLoss => exact h.clockLossEff.done
  | clockRelock => exact h.clockRelockEff.done
  | romCheckDone _ => exact h.romCheckEff.done
  | flashReadComplete _ _ _ _ => exact h.flashReadRow.done
  | pairImageReceived _ => exact h.pairImageEff.afterChain.done
  | pairFollowTimeout => exact h.pairTimeoutEff.afterChain.done
  | bistDone _ => exact h.bistDoneRow.done
  | ddrTrainingDone _ _ _ _ => exact h.trainingRow.done
  | bringupDone _ => exact h.bringupEff.done
  | arm _ => exact h.armEff.done
  | runEntry => exact h.runEntryEff.done
  | perstNAssert => exact h.perstEff.done
  | perstNRelease => exact h.perstReleaseEff.done
  | pcieRefLost => exact h.refLostEff.done
  | xtalPpmMeasure _ => exact h.xtalEff.done
  | pwrfailAssert _ _ _ => exact h.pwrfailEff.done
  | pwrfailRecover => exact h.pwrRecoverEff.done
  | policyWatchdogExpiry => exact h.watchdogEff.done
  | watchdogRestartRequest => exact h.watchdogRestartEff.done
  | thermalSensorRead _ => exact h.thermalReadEff.done
  | thermalCeilingStep => exact h.ceilingStepEff.done
  | fetch => exact (h.imgServed (·.fetchImageEff)).done
  | fetchReadComplete _ => exact h.fetchDoneEff.done
  | quiesce => exact (h.imgServed (·.quiesceEff)).done
  | quiesceComplete => exact h.quiesceDoneEff.done
  | resume => exact (h.imgServed (·.resumeEff)).done
  | apply _ => exact (h.imgServed (·.applyEff)).done
  | progA _ => exact (h.imgServed (·.progEff)).done
  | progB _ => exact (h.imgServed (·.progEff)).done
  | progComplete _ => exact h.progDoneEff.done
  | burnKey _ => exact (h.imgServed (·.burnKeyEff)).done
  | burnEnforce _ => exact (h.imgServed (·.burnEnforceEff)).done
  | burnNorom _ => exact (h.imgServed (·.burnNoRomEff)).done
  | burnRevoke _ _ => exact (h.imgServed (·.burnRevokeEff)).done
  | mountStart => exact h.mountStartEff.done
  | mountStepDone _ => exact h.mountDoneEff.done
  | mountComplete => exact h.mountCompleteEff.done
  | importIdentify _ => exact h.importIdentifyEff.done
  | slotStart _ _ _ _ _ _ => exact (h.instOf (·.slotStartEff)).done
  | zoneSeedFetch _ _ _ => exact (h.instOf (·.seedFetchEff)).done
  | zoneSeedReady _ => exact (h.instOf (·.seedReadyEff)).done
  | timingLost _ _ => exact (h.instOf (·.timingLostEff)).done
  | segmentEnd _ => exact (h.instOf (·.segmentEndEff)).done
  | wedgeCrossing _ _ _ _ => exact (h.instOf (·.wedgeEff)).done
  | wedgeMissRev _ => exact (h.instOf (·.wedgeMissRevEff)).done
  | defectFlagStart _ _ => exact (h.instOf (·.defectStartEff)).done
  | defectFlagEnd _ _ => exact (h.instOf (·.defectEndEff)).done
  | sectorDelivery _ _ _ => exact (h.instOf (·.sectorDeliveryEff)).done
  | chnForceSyncMiss _ => exact (h.instOf (fun h => h.served (·.forceMissEff))).done
  | chnForceDefect _ => exact (h.instOf (fun h => h.served (·.forceDefectEff))).done
  | poolJobDispatch _ _ => exact h.poolDispatchEff.done
  | poolJobComplete _ _ => exact h.poolCompleteEff.done
  | l4SpeedReached => exact h.l4ReachedEff.done
  | skeinEngineComplete _ => exact h.skeinEngineEff.done
  | importClusterDecode _ _ _ => exact h.importClusterEff.done
  | decPauseRecovery _ => exact (h.served (·.pauseRecoveryEff)).done
  | decForceEf _ => exact (h.served (·.forceEfEff)).done
  | relocPause _ => exact (h.served (·.relocPauseEff)).done
  | knotIntervalExpiry _ => exact h.knotIntervalEff.done
  | passStart _ => exact (h.instOf (·.passStartEff)).done
  | preRead _ _ => exact (h.instOf (·.preReadEff)).done
  | passWriteEnd _ => exact (h.instOf (·.passWriteEndEff)).done
  | verifyRevolutionEnd _ => exact (h.instOf (·.verifyRevEndEff)).done
  | pdlFrame _ _ => exact (h.instOf (·.pdlFrameEff)).done
  | drvStatusPoll _ _ => exact (h.instOf (·.drvPollEff)).done
  | wrpPdlCmd _ _ => exact (h.instOf (fun h => h.served (·.pdlCmdEff))).done
  | retryHeld => exact (h.servedOwner (·.retryHeldEff)).done
  | writeInhibit _ => exact (h.served (·.writeInhibitEff)).done
  | laserIlkAssert => exact h.laserIlkEff.done
  | interlockRelease => exact h.interlockReleaseEff.done
  | knotReady _ => exact h.knotReadyEff.done
  | knotVerified _ => exact h.knotVerifiedEff.done
  | hankDispatch _ => exact h.hankDispatchEff.done
  | hankCodeComplete _ _ => exact (h.instOf (·.hankCodeEff)).done
  | hankDecompressComplete _ _ => exact (h.instOf (·.hankDecompressEff)).done
  | hankRestore _ => exact (h.instOf (fun h => h.servedOwner (·.hankRestoreEff))).done
  | hankRestoreDone _ _ => exact (h.instOf (·.hankRestoreDoneEff)).done
  | hankForceMismatch _ => exact (h.served (·.hankForceEff)).done
  | basePeriod _ _ => exact h.basePeriodEff.done
  | loopOverrun _ => exact (h.instOf (·.overrunEff)).done
  | loopOutputWrite => exact h.outputWriteEff.done
  | loopLostLock _ => exact (h.instOf (·.loopLostEff)).done
  | loopFault _ => exact (h.instOf (·.loopFaultEff)).done
  | carriageReacquireTimeout _ => exact (h.instOf (·.reacquireTimeoutEff)).done
  | loopEnable _ => exact (h.instOf (fun h => h.served (·.loopEnableEff))).done
  | loopDisable _ => exact (h.instOf (fun h => h.served (·.loopEnableEff))).done
  | loopSwap _ => exact (h.instOf (fun h => h.served (·.loopSwapEff))).done
  | loopPark _ => exact (h.instOf (fun h => h.served (·.loopParkEff))).done
  | loopClrFault _ => exact (h.instOf (fun h => h.servedOwner (·.loopClrFaultEff))).done
  | loopFollow _ _ => exact (h.instOf (fun h => h.served (·.loopFollowEff))).done
  | coefDataAccess _ _ => exact (h.instOf (·.dataPort)).done
  | lpeForceOvr _ _ => exact (h.served (·.forceOvrEff)).done
  | traceInEdge _ _ _ => exact (h.instOf (·.traceEdgeEff)).done
  | traceLost _ => exact (h.instOf (·.traceLostEff)).done
  | pwmTop _ => exact h.pwmTopEff.done
  | pwmCentre _ _ _ => exact h.pwmCentreEff.done
  | rotorLoss => exact h.rotorLossEff.done
  | spnComparatorEdge _ _ => exact h.edgeEff.done
  | spnStart => exact (h.servedOwner (·.spnStartReq)).done
  | spnStop => exact (h.servedOwner (·.spnStopReq)).done
  | spnClrFault => exact (h.servedOwner (·.spnClrFaultEff)).done
  | spnForceLoss => exact (h.servedOwner (·.spnForceLossEff)).done
  | coastSenseDone => exact h.coastDoneEff.done
  | catchMade => exact h.catchMadeEff.done
  | catchTimeout => exact h.catchTimeoutEff.done
  | brakeDone => exact h.brakeDoneEff.done
  | brakeTimeout => exact h.brakeTimeoutEff.done
  | alignDone _ _ _ _ => exact h.alignDoneEff.done
  | runupDone => exact h.runupDoneEff.done
  | runupTimeout => exact h.runupTimeoutEff.done
  | spindleReady => exact h.spindleReadyEff.done
  | lockedRotor => exact h.lockedRotorEff.done
  | lockedWaitDone => exact h.lockedWaitDoneEff.done
  | recatchOk => exact h.recatchOkEff.done
  | recatchTimeout => exact h.recatchTimeoutEff.done
  | stoppingDone => exact h.stoppingDoneEff.done
  | rateMatchCompute _ _ _ => exact h.rateMatchEff.done
  | sledPwmSample _ _ _ => exact (h.instOf (·.sledSampleEff)).done
  | profileTick _ => exact (h.instOf (·.profileTickEff)).done
  | stepTimerExpiry _ => exact (h.instOf (·.stepTimerEff)).done
  | homeEdge _ _ => exact (h.instOf (·.homeEdgeEff)).done
  | homingFail _ => exact (h.instOf (·.homingFailEff)).done
  | seekRequest _ _ _ => exact (h.instOf (·.seekEff)).done
  | seekSettleDone _ => exact (h.instOf (·.settleDoneEff)).done
  | capture _ => exact (h.instOf (·.captureEff)).done
  | captureTimeout _ => exact (h.instOf (·.captureTimeoutEff)).done
  | fineDone _ => exact (h.instOf (·.fineDoneEff)).done
  | layerJumpDone _ => exact (h.instOf (·.layerJumpDoneEff)).done
  | turnJumpDone _ => exact h.turnJumpEndEff.done
  | crgCmdSeek _ _ _ => exact (h.instOf (fun h => h.servedOwner (·.crgSeekEff))).done
  | crgCmdHome _ => exact (h.instOf (fun h => h.servedOwner (fun h => h.crgCmdEff (·.homeCmd)))).done
  | crgCmdMove _ => exact (h.instOf (fun h => h.servedOwner (fun h => h.crgCmdEff (·.moveCmd)))).done
  | crgClrFault _ => exact (h.instOf (fun h => h.servedOwner (·.crgClrFaultEff))).done
  | crgForceSlip _ => exact (h.instOf (fun h => h.served (·.crgForceSlipEff))).done
  | camCommit _ => exact (h.servedOwner (·.camCommitEff)).done
  | camEngage _ _ => exact (h.instOf (fun h => h.served (·.camEngageEff))).done
  | camTimeReset _ => exact (h.instOf (fun h => h.served (·.camTimeResetEff))).done
  | camPtDataAccess _ => exact h.dataPort.done
  | doorbell _ _ _ _ => exact h.doorbellEff.done
  | contextLoadComplete _ _ => exact h.ctxLoadEff.done
  | contextFreed => exact h.retryStarved.done
  | ringInvalidate _ _ => exact (h.served (·.invalidateEff)).done
  | ringInvalidateDone _ => exact h.invalidateDoneEff.done
  | ringQuery _ _ => exact (h.served (·.ringQueryEff)).done
  | grant _ _ => exact h.grantEff.done
  | uTokenRefill => exact h.tokenRefillEff.done
  | nop _ => exact h.nopEff.done
  | read _ => exact h.readEff.done
  | write _ => exact h.writeEff.done
  | flush _ => exact h.startWait.done
  | abort _ => exact h.abortEff.done
  | volumeCreate _ => exact h.startWait.done
  | volumeClose _ => exact h.startWait.done
  | volumeInfo => exact h.volumeInfoEff.done
  | importRead _ => exact h.importReadEff.done
  | unitQuery => exact h.unitQueryEff.done
  | unitRequestOffline => exact h.unitOfflineEff.done
  | unitRequestReady => exact h.unitReadyEff.done
  | unitRequestService => exact h.unitServiceEff.done
  | bufferChannelServiceReady => exact h.bufServiceReadyEff.done
  | assertPresent _ => exact h.assertPresentEff.done
  | assertAbsent _ => exact h.assertAbsentEff.done
  | calibrateChannel => exact h.calibrateEff.done
  | calibrateServoLayer => exact h.calibrateEff.done
  | calibrateServoRadius => exact h.calibrateEff.done
  | calibrateWritePower => exact h.calibrateEff.done
  | calibrateSledHome => exact h.calibrateEff.done
  | calibrateSpindle => exact h.calibrateEff.done
  | selfTestParity => exact h.selfTestEff.done
  | selfTestMram => exact h.selfTestEff.done
  | selfTestMemBist => exact h.selfTestEff.done
  | drainComplete _ => exact h.drainCompleteEff.done
  | calibrationEnd _ _ => exact h.calEndEff.done
  | calibrationTimeout _ => exact h.calTimeoutEff.done
  | calForceCheckerFail => exact (h.served (·.forceCheckerEff)).done
  | commandRun _ => exact h.commandRunEff.hankReads.poolSweep.done
  | writeHeldPoint _ _ => exact h.writeHeldEff.done
  | writeBehindSpace => exact h.writeSpaceEff.done
  | suspectHoldExpiry _ => exact h.suspectExpiryEff.done
  | lockWaitLong _ => exact h.lockWaitLongEff.done
  | genLookup => exact (h.served (·.genLookupEff)).done
  | replayClear => exact (h.served (·.replayClearEff)).done
  | completionPost _ => exact h.completionPostEff.done
  | coalesceTimerExpiry _ => exact h.coalesceEff.done
  | msixUnmask _ _ => exact (h.msixWithin (·.msixUnmaskEff)).done
  | flr _ => exact h.flrEff.done
  | flrEnd _ => exact h.flrEndEff.done
  | cacheRequest _ _ _ _ _ => exact h.cacheRequestEff.done
  | fillBeat _ _ => exact h.fillBeatEff.done
  | writebackComplete _ => exact h.writebackEff.done
  | cacheClean _ _ => exact (h.served (·.rangeStart)).done
  | cacheCleanInv _ _ => exact (h.served (·.rangeStart)).done
  | invDone => exact h.invDoneEff.done
  | cacheLock => exact (h.served (·.lockEff)).done
  | cacheUnlock _ => exact (h.served (·.unlockEff)).done
  | cacheDisable => exact (h.served (·.disableEff)).done
  | cacheCleaningDone => exact h.cleaningDoneEff.done
  | cacheEnable => exact (h.served (·.enableEff)).done
  | bcForceDataParity => exact (h.served (·.forceDataEff)).done
  | bcForceTwinParity => exact (h.served (·.forceTwinEff)).done
  | bar2Access _ _ _ _ => exact h.bar2Eff.done
  | memoryReadReturn _ _ _ _ _ _ _ => exact h.memReadEff.done
  | parityRepair _ _ => exact h.parityRepairEff.done
  | refreshDue _ _ => exact h.refreshDueEff.done
  | dramTempPoll _ => exact h.dramTempEff.done
  | pointChangeBegin => exact h.pointBeginEff.done
  | pointChangeDrained => exact h.pointDrainedEff.done
  | scrubRead => exact h.scrubReadEff.done
  | scrubRestart => exact (h.served (·.scrubRestartEff)).done
  | intForceParity => exact (h.served (·.forceParityEff)).done
  | mramRecordWrite => exact h.mramWriteEff.done
  | mramWriteDone _ => exact h.mramDoneEff.done
  | countersSaveHourly => exact h.countersHourlyEff.done
  | discPresentChange _ _ => exact h.discPresentEff.done
  | dmpDiscover _ _ _ => exact h.discoverEff.done
  | dmpUnitQuery _ _ _ => exact h.dmpQueryEff.done
  | dmpUnitRequest _ _ _ _ _ => exact h.dmpUnitEff.done
  | dmpCalibrate _ _ _ _ _ => exact h.dmpUnitEff.done
  | dmpSelfTest _ _ _ _ _ => exact h.dmpUnitEff.done
  | dmpVolumeInfo _ _ _ => exact h.dmpVolumeEff.done
  | policyGet _ _ _ => exact h.policyGetEff.done
  | policySet _ _ _ _ => exact h.policySetEff.done
  | netSet _ _ _ => exact h.netSetEff.done
  | netSetApply => exact h.netApplyEff.done
  | regRead _ _ _ _ => exact h.regReadEff.done
  | eventSubscribe _ _ _ _ => exact h.subscribeEff.done
  | subscriberExpiry _ _ => exact h.subscriberExpiryEff.done
  | eventRead _ _ _ _ => exact h.eventReadEff.done
  | imageBegin _ _ _ => exact h.imageBeginEff.done
  | imageData _ _ _ _ => exact h.imageDataEff.done
  | imageEnd _ _ => exact h.imageEndEff.done
  | imageCmd _ _ _ => exact h.imageCmdEff.done
  | dmpDuplicateExpiry _ _ _ => exact h.duplicateExpiryEff.done
  | i3cPrivateWrite _ => exact h.i3cWriteEff.done
  | i3cPrivateRead => exact h.i3cReadEff.done
  | enec _ => exact h.eventsCccEff.done
  | disec _ => exact h.eventsCccEff.done
  | rstdaa => exact h.rstdaaEff.done
  | entdaa _ => exact h.entdaaEff.done
  | setdasa _ _ => exact h.setdasaEff.done
  | getpid => exact h.getFreeEff.done
  | getbcr => exact h.getFreeEff.done
  | getdcr => exact h.getFreeEff.done
  | getstatus => exact h.getFreeEff.done
  | getmwl => exact h.getLenEff.done
  | getmrl => exact h.getLenEff.done
  | setmwl _ => exact h.setLenEff.done
  | setmrl _ => exact h.setLenEff.done
  | ptpSync _ => exact h.ptpSyncEff.done
  | mgtLogRdWrite _ => exact (h.served (·.logRdEff)).done
  | linkTrainDone _ => exact h.linkTrainDoneEff.done
  | linkTrainRetry => exact h.linkRetryEff.done
  | laneError _ => exact h.laneErrorEff.done
  | jokorFrame _ => exact h.jokorFrameEff.done
  | pairHello _ _ _ _ _ _ => exact h.pairHelloEff.done
  | heartbeatSend => exact h.heartbeatSendEff.done
  | heartbeatReceive _ => exact h.heartbeatReceiveEff.done
  | partnerLost => exact h.partnerLostEff.done
  | bootWaitExpiry _ => exact h.bootWaitEff.done
  | ownNetHigh _ _ => exact h.ownNetHighEff.done
  | claimTimeout => exact h.claimTimeoutEff.done
  | peerResetRelease => exact h.peerReleaseEff.done
  | handover _ => exact (h.served (·.handoverEff)).done
  | handoverMessage => exact h.handoverMessageEff.done
  | handoverAck => exact h.handoverAckEff.done
  | handoverTimeout => exact h.handoverTimeoutEff.done
  | peerReset _ => exact (h.served (·.peerResetEff)).done
  | peerResetEnd => exact h.peerResetEndEff.done
  | forwardedCommand _ => exact h.forwardedCommandEff.done
  | journalEntry _ => exact h.journalEntryEff.done
  | journalAck _ => exact h.journalAckEff.done
  | forwardResult _ => exact h.forwardResultEff.done
  | mirrorReceive _ => exact h.mirrorReceiveEff.done
  | mirrorAck _ => exact h.mirrorAckEff.done
  | pairSettleEnd => exact h.settleEndEff.done
  | partnerDetach => exact h.detachEff.done
  | resyncComplete => exact h.resyncDoneEff.done
  | pairApplyValidated _ _ => exact h.pairValidatedEff.done
  | pairApplyWaitEnd => exact h.pairWaitEndEff.done
  | regacc _ => exact h.regAccEff.done
  | extest => exact h.extestEff.done
  | idcode => exact h.idcodeEff.done
  | samplePreload _ _ => exact h.samplePreloadEff.done
  | highz => exact h.highzEff.done
  | clamp => exact h.clampEff.done
  | extestPulse => exact h.extestPulseEff.done
  | extestTrain => exact h.extestTrainEff.done
  | bypass _ => exact h.bypassEff.done
  | registerWrite _ _ _ _ => exact h.barWrite.done
  | rcCounterRead _ _ _ => exact h.barRead.done
  | reg64LoRead _ _ _ => exact h.barRead.done
  | configurationRequest _ _ => exact h.configEff.done
  | pcieRefPresent => exact h.refPresentEff.done
  | sgmiiLinkChange _ => exact h.sgmiiEff.done
  | addrChange _ _ => exact h.addrChangeEff.done
  | ptpLost => exact h.ptpLostEff.done
  | ownerLinkWaitExpiry _ => exact h.ownerLinkWaitEff.done
  | dmpMessageDropped _ _ _ => exact h.messageEff.done
  | servoConversionSlot _ _ => exact h.conversionEff.done
  | dacUpdate => exact h.dacUpdateEff.done

theorem tablesWhole.step (h : tablesWhole s) : wholeNext (step s) := by
  unfold Machine.step
  split
  · intro u e
    cases e
    exact h.tick
  · next c cs _ => exact h.frame.exec c

/-- Settles O34: each of the model's operations leaves the sizes of the tables and the order of the table of commands in
flight, so every command does, and with the passing of time every step. -/
theorem tablesKeepTheirSizes : Obligations.TablesKeepTheirSizes := by
  unfold Obligations.TablesKeepTheirSizes
  intro s t h e
  exact h.step t e

/-- Settles O35. -/
theorem tablesWholeAtReset : Obligations.TablesWholeAtReset := by
  unfold Obligations.TablesWholeAtReset
  exact ⟨rfl, rfl, rfl, rfl, rfl, rfl, rfl, rfl, rfl, rfl, rfl, rfl, rfl⟩

end Sys2Proof.Safety
end

section
/-! A failing supply, a silent firmware and the junction temperature (R34, R35, R37, R472, R473). -/

namespace Sys2Proof.Proofs

open Sys2Proof Sys2Proof.Machine Sys2Proof.Safety

theorem getF_congr {s t : State} (h : t.regs = s.regs) (f : Fld) : getF t f = getF s f := by simp [getF, getReg_congr h]

/-! ### The power-failure sequence (R472, R473) -/

/-- The state in which PWRFAIL_ASSERT acts: it shows the assertion. -/
def pwrfailShown (s : State) : State := modPwr (fun p => { p with pfAsserted := true }) (setF Fld.GLB_STATUS_PWRFAIL 1 s)

theorem stage_pwrfailShown (s : State) : stage (pwrfailShown s) = stage s :=
  getF_setF_ne _ _ _ s (by decide) (by decide)

theorem halted_pwrfailShown (s : State) : halted (pwrfailShown s) = halted s :=
  congrArg (decide <| · ≠ 0) (getF_setF_ne Fld.GLB_STATUS_PWRFAIL Fld.GLB_STATUS_HALT 1 s (by decide) (by decide))

theorem pwrfailEff_running {s : State} (hpf : s.pwr.pfRunning = false) (hs : 6 ≤ stage s) (hh : halted s = false)
    (t5 t6 : Nat) (same : Bool) : pwrfailEff t5 t6 same s = pwrSequence t5 t6 same (pwrfailShown s) := by
  have hstage : ¬ stage (pwrfailShown s) < 6 := by rw [stage_pwrfailShown]; omega
  have hhalt : halted (pwrfailShown s) = false := by rw [halted_pwrfailShown, hh]
  simp only [pwrfailShown] at hstage hhalt ⊢
  simp [pwrfailEff, hpf, hstage, hhalt]

theorem pwrfailEff_early {s : State} (hpf : s.pwr.pfRunning = false) (hs : stage s < 6) (t5 t6 : Nat) (same : Bool) :
    pwrfailEff t5 t6 same s = mramDoneEff true (pwrfailShown s) := by
  have hstage : stage (pwrfailShown s) < 6 := by rwa [stage_pwrfailShown]
  simp only [pwrfailShown] at hstage ⊢
  simp [pwrfailEff, hpf, hstage]

/-- Whatever the steps of the sequence do, it ends by showing the times of steps 5 and 6 and that it is done. -/
theorem pwrSequence_end (t5 t6 : Nat) (same : Bool) (s : State) : ∃ u, pwrSequence t5 t6 same s =
    modPwr (fun p => { p with pfDone := true }) (setF Fld.GLB_STATUS_PWRFAIL_DONE 1
      (setReg Reg.GLB_PWRFAIL_LAST (BitVec.ofNat 32 (min 65535 t5 * 65536 + min 65535 t6)) u)) :=
  ⟨_, rfl⟩

/-- The MRAM write under way ends in the record store alone. -/
theorem mramDoneEff_regs (s : State) : (mramDoneEff true s).regs = s.regs := by
  unfold mramDoneEff
  split
  · rfl
  · split <;> rfl

theorem mramDoneEff_pwr (s : State) : (mramDoneEff true s).pwr = s.pwr := by
  unfold mramDoneEff
  split
  · rfl
  · split <;> rfl

theorem completes_pwrfail_running {s : State} (hpf : s.pwr.pfRunning = false) (hs : 6 ≤ stage s) (hh : halted s = false)
    (t5 t6 : Nat) (same : Bool) : completes (.pwrfailAssert t5 t6 same) s (fun t => t.pwr.pfDone = true ∧
      getF t Fld.GLB_STATUS_PWRFAIL_DONE = 1 ∧
      getReg t Reg.GLB_PWRFAIL_LAST = BitVec.ofNat 32 (min 65535 t5 * 65536 + min 65535 t6)) := by
  obtain ⟨u, hu⟩ := pwrSequence_end t5 t6 same (pwrfailShown s)
  refine completes_of_done (congrArg (done s) ((pwrfailEff_running hpf hs hh t5 t6 same).trans hu)) ⟨?done, ?shown, ?times⟩
  case done => simp
  case shown =>
    rw [getF_congr (finish_regs s _), getF_congr (modPwr_regs _ _), getF_setF_same _ _ _ (by decide) (by decide)]
    rfl
  case times =>
    rw [getReg_congr (finish_regs s _), getReg_congr (modPwr_regs _ _), getReg_setF_ne (by decide), getReg_setReg_same]

theorem completes_pwrfail_early {s : State} (hpf : s.pwr.pfRunning = false) (hs : stage s < 6) (t5 t6 : Nat) (same : Bool) :
    completes (.pwrfailAssert t5 t6 same) s (fun t => t.pwr = { s.pwr with pfAsserted := true } ∧
      getF t Fld.GLB_STATUS_PWRFAIL = 1) := by
  refine completes_of_done (congrArg (done s) (pwrfailEff_early hpf hs t5 t6 same)) ⟨?power, ?shown⟩
  case power => simp [mramDoneEff_pwr, pwrfailShown]
  case shown =>
    rw [getF_congr (finish_regs s _), getF_congr (mramDoneEff_regs _), pwrfailShown, getF_congr (modPwr_regs _ _),
      getF_setF_same _ _ _ (by decide) (by decide)]
    rfl

/-! ### The policy watchdog (R34, R35) -/

/-- The units that a silent firmware puts in doubt: the serving carriages and their strands. -/
def watchdogUnits (s : State) : List Nat :=
  ((boundCars s).map uCar ++ (boundCars s).flatMap (fun c => (strandsOf s c).map uStrand)).filter (fun u => (ust s u).serves)

/-- What the expiry stops before it records itself. -/
def watchdogStops (s : State) : State :=
  modSpn (fun p => { p with hold := true })
    (forEach stopAtSlot allCars (forEach (fun u s => suspectUnit u .watchdog .watchdog false s) (watchdogUnits s) s))

/-- A second expiry within 60 s of a restart. -/
def watchdogAgain (s : State) : Bool :=
  match s.pwr.wdogLast with | some t => decide (s.pwr.time < t + 60000000000) | none => false

theorem watchdogAgain_iff (s : State) :
    watchdogAgain s = true ↔ ∃ n, s.pwr.wdogLast = some n ∧ s.pwr.time < n + 60000000000 := by
  unfold watchdogAgain
  cases s.pwr.wdogLast <;> simp

theorem watchdogStops_pwr (s : State) : (watchdogStops s).pwr = s.pwr := by
  rw [watchdogStops, modSpn_pwr, forEach_keeps State.pwr stopAtSlot (fun _ _ => rfl)]
  exact forEach_keeps State.pwr _ (fun _ _ => pwr_of_calm (calm_suspectUnit _ _ _ _ _)) _ _

theorem watchdogEff_eq {s : State} (hs : 6 ≤ stage s) (hh : halted s = false) (hp : s.pwr.policyHeld = false) :
    watchdogEff s = evt Fld.UNT_EVT_WATCHDOG noUnit [] (modPwr (fun _ => { s.pwr with
      wdogUnits := watchdogUnits s, policyHeld := watchdogAgain s, policyRunning := !watchdogAgain s,
      wdogLast := some s.pwr.time }) (watchdogStops s)) := by
  have hpwr := watchdogStops_pwr s
  have hc : (decide (stage s < 6) || halted s || s.pwr.policyHeld) = false := by simp [hh, hp]; omega
  simp only [watchdogStops, watchdogAgain, watchdogUnits, modPwr] at hpwr ⊢
  simp only [watchdogEff, hc, hpwr]
  rfl

theorem completes_watchdogExpiry {s : State} (hs : 6 ≤ stage s) (hh : halted s = false) (hp : s.pwr.policyHeld = false) :
    completes .policyWatchdogExpiry s (fun t => flag t Fld.UNT_EVT_WATCHDOG = true ∧ t.pwr.wdogLast = some s.pwr.time ∧
      (t.pwr.policyHeld = true ↔ ∃ n, s.pwr.wdogLast = some n ∧ s.pwr.time < n + 60000000000) ∧
      t.pwr.policyRunning = !t.pwr.policyHeld) := by
  refine completes_of_done (congrArg (done s) (watchdogEff_eq hs hh hp)) ?_
  rw [← watchdogAgain_iff]
  refine ⟨?_, by simp, by simp, by simp⟩
  simp only [flag, getF, getReg_congr (finish_regs s _)]
  exact flag_evt_same (by decide) (by decide) (by decide) _ _ _

/-- The restarted firmware takes up the units in doubt; of the power state only their list changes. -/
theorem watchdogRestartEff_pwr {s : State} (hp : s.pwr.policyHeld = false) :
    (watchdogRestartEff s).pwr = { s.pwr with wdogUnits := [] } := by
  have hchange (u : Nat) (s : State) : (change u .starting .watchdog s).pwr = s.pwr := pwr_of_calm (calm_change _ _ _ _)
  have hcar (u : Nat) (s : State) : (if isCar u then carReadyCheck (u - 4) s else s).pwr = s.pwr := by
    split
    · exact pwr_of_calm (calm_carReadyCheck _ _)
    · rfl
  have hstrand (u : Nat) (s : State) : (if isStrand u then strandReadyCheck (u - 0x20) s else s).pwr = s.pwr := by
    split
    · exact pwr_of_calm (calm_strandReadyCheck _ _)
    · rfl
  unfold watchdogRestartEff
  rw [if_neg (by simp [hp])]
  dsimp only
  rw [arbitrate_pwr, forEach_keeps State.pwr _ hstrand, forEach_keeps State.pwr _ hcar, forEach_keeps State.pwr _ hchange]
  rfl

/-- Settles O14: the sequence ends by showing its times, and the watchdog's effects touch the power state in its own fields
alone. -/
theorem powerFailureAndWatchdog : Obligations.PowerFailureAndWatchdog := by
  unfold Obligations.PowerFailureAndWatchdog
  intro s
  refine ⟨fun t5 t6 same hpf hs hh => completes_pwrfail_running hpf hs hh t5 t6 same,
    fun t5 t6 same hpf hs => completes_pwrfail_early hpf hs t5 t6 same,
    fun hs hh hp => completes_watchdogExpiry hs hh hp, fun hp => completes_of_done (t := watchdogRestartEff s) rfl ?_⟩
  rw [finish_pwr, watchdogRestartEff_pwr hp]

/-! ### The junction temperature (R37) -/

theorem getReg_arbitrate {off : Nat} (h : off < Reg.LPE_SP_TARGET) (s : State) : getReg (arbitrate s) off = getReg s off := by
  unfold arbitrate
  split
  · rfl
  · dsimp only
    split
    · exact getReg_setReg_ne (by simp only [lreg]; omega) _ _
    · rfl

theorem arbitrate_img (s : State) : (arbitrate s).img = s.img := by
  unfold arbitrate
  split
  · rfl
  · dsimp only
    split <;> simp only [setInt, setReg_img, modSpn_img]

theorem still_releaseThermal (s : State) : still (releaseThermal s) = still s := by
  unfold releaseThermal
  refine forEach_keeps still _ (fun e s => ?_) _ _
  split
  · exact still_endCmd _ _ _ _
  · exact still_setGate4 _ _ _

/-- Whether a reading of tj leaves CRIT, or makes it. -/
def critAfter (tj : Int) (s : State) : Bool :=
  if s.pwr.crit then decide (tempLimit s + 10 * policyVal s 2 - 30 < tj) else decide (tempLimit s + 10 * policyVal s 2 < tj)

/-- Whether a reading of tj leaves WARN, or makes it; CRIT implies it. -/
def warnAfter (tj : Int) (s : State) : Bool :=
  (if s.pwr.warn then decide (tempLimit s + 10 * policyVal s 1 - 30 < tj) else decide (tempLimit s + 10 * policyVal s 1 < tj)) ||
    critAfter tj s

/-- The conditions that a reading of tj makes, and what follows them: a ceiling with the first of them, the event of CRIT and
the release of the commands that waited for its end. -/
def thermalConditions (tj : Int) (s : State) : State :=
  let c := if warnAfter tj s && !s.pwr.warn && s.pwr.ceiling.isNone then
    modPwr (fun p => { p with ceiling := some (spn s).arbTarget }) s else s
  let t := modPwr (fun p => { p with warn := warnAfter tj s, crit := critAfter tj s }) c
  let t := if critAfter tj s && !c.pwr.crit then evt Fld.UNT_EVT_THERM noUnit [] t else t
  if c.pwr.crit && !critAfter tj s then releaseThermal t else t

/-- The state in which a reading of tj is shown. -/
def temperatureShown (tj : Int) (s : State) : State := setReg Reg.GLB_TEMP (BitVec.ofNat 32 (0x80000000 + unsigned 16 tj)) s

/-- The state after the conditions and the new arbitration, in which a trip is decided. -/
def thermalArbitrated (tj : Int) (s : State) : State := arbitrate (thermalConditions tj (temperatureShown tj s))

theorem stage_temperatureShown (tj : Int) (s : State) : stage (temperatureShown tj s) = stage s :=
  congrArg (wordBits · _ _) (getReg_setReg_ne (by decide) _ s)

theorem halted_temperatureShown (tj : Int) (s : State) : halted (temperatureShown tj s) = halted s :=
  congrArg (fun w => decide (wordBits w _ _ ≠ 0)) (getReg_setReg_ne (by decide) _ s)

theorem thermalReadEff_shown {s : State} (h2 : 2 ≤ stage s) (h6 : stage s < 6) (t0 : Int) (ts : List Int) :
    thermalReadEff (t0 :: ts) s = temperatureShown (ts.foldl max t0) s := by
  have hc : (decide (stage (temperatureShown (ts.foldl max t0) s) < 6) ||
      halted (temperatureShown (ts.foldl max t0) s)) = true := by
    simp [stage_temperatureShown, h6]
  unfold thermalReadEff
  rw [if_neg (by omega)]
  exact if_pos hc

theorem thermalReadEff_active {s : State} (h6 : 6 ≤ stage s) (hh : halted s = false) (t0 : Int) (ts : List Int) :
    thermalReadEff (t0 :: ts) s =
      if decide (tempLimit (thermalArbitrated (ts.foldl max t0) s) + 100 < ts.foldl max t0) &&
          !(thermalArbitrated (ts.foldl max t0) s).pwr.trip
      then thermalTrip (thermalArbitrated (ts.foldl max t0) s) else thermalArbitrated (ts.foldl max t0) s := by
  have hc : ¬ (decide (stage (temperatureShown (ts.foldl max t0) s) < 6) ||
      halted (temperatureShown (ts.foldl max t0) s)) = true := by
    simp [stage_temperatureShown, halted_temperatureShown, hh, h6]
  unfold thermalReadEff
  rw [if_neg (by omega)]
  exact if_neg hc

/-! What the conditions change of the state: the power state by them, and registers of events and ends of commands. -/

theorem thermalConditions_pwr (tj : Int) (s : State) : ∃ c, (thermalConditions tj s).pwr =
    { s.pwr with warn := warnAfter tj s, crit := critAfter tj s, ceiling := c } := by
  unfold thermalConditions
  extract_lets c t u
  have hc : ∃ l, c.pwr = { s.pwr with ceiling := l } := by
    unfold c
    split
    · exact ⟨_, rfl⟩
    · exact ⟨_, rfl⟩
  obtain ⟨l, hl⟩ := hc
  have hu : u.pwr = { s.pwr with warn := warnAfter tj s, crit := critAfter tj s, ceiling := l } := by
    unfold u
    split <;> simp [t, hl]
  refine ⟨l, ?_⟩
  split
  · exact (congrArg (fun x => x.1.pwr) (still_releaseThermal u)).trans hu
  · exact hu

theorem thermalConditions_img (tj : Int) (s : State) : (thermalConditions tj s).img = s.img := by
  unfold thermalConditions
  extract_lets c t u
  have hc : c.img = s.img := by
    unfold c
    split <;> rfl
  have hu : u.img = s.img := by
    unfold u
    split <;> simp [t, hc]
  split
  · exact (congrArg (fun x => x.1.img) (still_releaseThermal u)).trans hu
  · exact hu

theorem getReg_thermalConditions {off : Nat} (h : off ∉ changeRegs) (tj : Int) (s : State) :
    getReg (thermalConditions tj s) off = getReg s off := by
  unfold thermalConditions
  extract_lets c t u
  have hc : getReg c off = getReg s off := by
    unfold c
    split <;> rfl
  have hu : getReg u off = getReg s off := by
    have hlog : off ∉ logRegs := fun hl => h (logRegs_change hl)
    have hevt : Fld.UNT_EVT_THERM.off ≠ off := fun e => h (e ▸ by decide)
    unfold u
    split
    · rw [getReg_evt hlog hevt]
      exact hc
    · exact hc
  split
  · exact (getReg_of_still (still_releaseThermal u) h).trans hu
  · exact hu

theorem thermalArbitrated_pwr (tj : Int) (s : State) : ∃ c, (thermalArbitrated tj s).pwr =
    { s.pwr with warn := warnAfter tj s, crit := critAfter tj s, ceiling := c } := by
  obtain ⟨c, h⟩ := thermalConditions_pwr tj (temperatureShown tj s)
  exact ⟨c, (arbitrate_pwr _).trans h⟩

theorem tempLimit_thermalArbitrated (tj : Int) (s : State) : tempLimit (thermalArbitrated tj s) = tempLimit s := by
  have h : (thermalArbitrated tj s).img = s.img := (arbitrate_img _).trans (thermalConditions_img tj _)
  simp only [tempLimit, h]

theorem getReg_thermalArbitrated {off : Nat} (h : off ∉ changeRegs) (hlow : off < Reg.LPE_SP_TARGET) (tj : Int) (s : State) :
    getReg (thermalArbitrated tj s) off = getReg (temperatureShown tj s) off :=
  (getReg_arbitrate hlow _).trans (getReg_thermalConditions h tj _)

theorem thermalReadEff_conditions {s : State} (h6 : 6 ≤ stage s) (hh : halted s = false) (t0 : Int) (ts : List Int)
    (hcool : ts.foldl max t0 ≤ tempLimit s + 100) :
    thermalReadEff (t0 :: ts) s = thermalArbitrated (ts.foldl max t0) s := by
  refine (thermalReadEff_active h6 hh t0 ts).trans (if_neg ?_)
  simp only [tempLimit_thermalArbitrated, Bool.and_eq_true, decide_eq_true_eq]
  omega

theorem thermalReadEff_trip {s : State} (h6 : 6 ≤ stage s) (hh : halted s = false) (t0 : Int) (ts : List Int)
    (ht : s.pwr.trip = false) (hhot : tempLimit s + 100 < ts.foldl max t0) :
    thermalReadEff (t0 :: ts) s = thermalTrip (thermalArbitrated (ts.foldl max t0) s) := by
  refine (thermalReadEff_active h6 hh t0 ts).trans (if_pos ?_)
  obtain ⟨c, hpwr⟩ := thermalArbitrated_pwr (ts.foldl max t0) s
  simp [tempLimit_thermalArbitrated, hpwr, ht, hhot]

theorem ust_thermalTrip {s : State} (ho : isOwner s = true) :
    ust (thermalTrip s) uDisc = .faulted ∧ ust (thermalTrip s) uSpindle = .faulted := by
  have howner : isOwner (modPwr (fun p => { p with trip := true }) s) = true := ho
  unfold thermalTrip
  rw [if_pos howner]
  constructor
  · exact (ust_change_ne (by decide) (by decide) (by decide) _ _ _ _ _).trans
      (ust_change_same (by decide) (by decide) _ _ _ _ _)
  · exact ust_change_same (by decide) (by decide) _ _ _ _ _

theorem completes_thermalRead_early {s : State} (h2 : 2 ≤ stage s) (h6 : stage s < 6) (t0 : Int) (ts : List Int) :
    completes (.thermalSensorRead (t0 :: ts)) s (fun t =>
      getReg t Reg.GLB_TEMP = BitVec.ofNat 32 (0x80000000 + unsigned 16 (ts.foldl max t0)) ∧
      regsKeptBut [Reg.GLB_TEMP] s t ∧ t.pwr = s.pwr) := by
  refine completes_of_done (congrArg (done s) (thermalReadEff_shown h2 h6 t0 ts)) ⟨?shown, fun off hoff => ?kept, ?power⟩
  case shown => rw [getReg_congr (finish_regs s _), temperatureShown, getReg_setReg_same]
  case kept =>
    have hne : Reg.GLB_TEMP ≠ off := fun e => hoff (e ▸ List.mem_singleton_self _)
    rw [getReg_congr (finish_regs s _), temperatureShown, getReg_setReg_ne hne]
  case power => rw [finish_pwr, temperatureShown, setReg_pwr]

theorem completes_thermalRead_conditions {s : State} (h6 : 6 ≤ stage s) (hh : halted s = false) (hw : s.pwr.warn = false)
    (hc : s.pwr.crit = false) (t0 : Int) (ts : List Int) (hcool : ts.foldl max t0 ≤ tempLimit s + 100) :
    completes (.thermalSensorRead (t0 :: ts)) s (fun t =>
      getReg t Reg.GLB_TEMP = BitVec.ofNat 32 (0x80000000 + unsigned 16 (ts.foldl max t0)) ∧
      (t.pwr.crit = true ↔ tempLimit s + 10 * policyVal s 2 < ts.foldl max t0) ∧
      (t.pwr.warn = true ↔ tempLimit s + 10 * policyVal s 1 < ts.foldl max t0 ∨ t.pwr.crit = true)) := by
  refine completes_of_done (congrArg (done s) (thermalReadEff_conditions h6 hh t0 ts hcool)) ⟨?shown, ?_⟩
  case shown =>
    rw [getReg_congr (finish_regs s _), getReg_thermalArbitrated (by decide) (by decide), temperatureShown, getReg_setReg_same]
  obtain ⟨c, hpwr⟩ := thermalArbitrated_pwr (ts.foldl max t0) s
  simp [hpwr, warnAfter, critAfter, hw, hc]

theorem completes_thermalRead_trip {s : State} (h6 : 6 ≤ stage s) (hh : halted s = false) (ho : isOwner s = true)
    (ht : s.pwr.trip = false) (t0 : Int) (ts : List Int) (hhot : tempLimit s + 100 < ts.foldl max t0) :
    completes (.thermalSensorRead (t0 :: ts)) s (fun t => ust t uDisc = .faulted ∧ ust t uSpindle = .faulted) := by
  have howner : isOwner (thermalArbitrated (ts.foldl max t0) s) = true := by
    have h := (getReg_thermalArbitrated (by decide) (by decide) (ts.foldl max t0) s).trans
      (getReg_setReg_ne (show Reg.GLB_TEMP ≠ Reg.GLB_STATUS by decide) _ s)
    exact (congrArg (fun w => decide (wordBits w Fld.GLB_STATUS_OWNER.hi Fld.GLB_STATUS_OWNER.lo ≠ 0)) h).trans ho
  refine completes_of_done (congrArg (done s) (thermalReadEff_trip h6 hh t0 ts ht hhot)) ?_
  simpa only [ust, unitOf, finish_unt] using ust_thermalTrip howner

theorem completes_ceilingStep {s : State} {c : Nat} {i : Image} (hc : s.pwr.ceiling = some c) (hi : s.img.running = some i) :
    completes .thermalCeilingStep s (fun t => t.pwr = { s.pwr with
      ceiling := if s.pwr.warn then some (max i.motors.spinMin (c - 100))
        else if i.motors.spinMax ≤ c + 100 then none else some (c + 100) }) := by
  refine completes_of_done (t := ceilingStepEff s) rfl ?_
  simp only [finish_pwr, ceilingStepEff, hc, hi, arbitrate_pwr, modPwr_pwr]

/-- Settles O15: a reading shows itself, makes the conditions of the two limits, and above the trip ends in the trip; the
ceiling steps by itself. -/
theorem thermalResponses : Obligations.ThermalResponses := by
  unfold Obligations.ThermalResponses
  intro s
  exact ⟨fun t0 ts h2 h6 => completes_thermalRead_early h2 h6 t0 ts,
    fun t0 ts h6 hh hw hc hcool => completes_thermalRead_conditions h6 hh hw hc t0 ts hcool,
    fun t0 ts h6 hh ho ht hhot => completes_thermalRead_trip h6 hh ho ht t0 ts hhot,
    fun c i hc hi => completes_ceilingStep hc hi⟩

end Sys2Proof.Proofs
end

section
/-! What the image operations and the management port share: fields of the register file that a write or an event leaves alone,
the records of IMG_ERR, and the fuses (R63, R65, R73, R75). -/

namespace Sys2Proof.Proofs

open Sys2Proof Sys2Proof.Machine Sys2Proof.Safety

/-! ### Fields of the register file -/

theorem getF_of_getReg {s t : State} {f : Fld} (h : getReg t f.off = getReg s f.off) : getF t f = getF s f := by simp [getF, h]

theorem flag_of_getF {s t : State} {f : Fld} (h : getF t f = getF s f) : flag t f = flag s f := by simp [flag, h]

theorem flag_congr {s t : State} (h : t.regs = s.regs) (f : Fld) : flag t f = flag s f := flag_of_getF (getF_congr h f)

theorem getF_setReg_ne {off : Nat} {f : Fld} (h : off ≠ f.off) (v : Word) (s : State) : getF (setReg off v s) f = getF s f :=
  getF_of_getReg (getReg_setReg_ne h v s)

theorem getF_bump_ne {off i : Nat} {f : Fld} (h : off + 4 * i ≠ f.off) (s : State) : getF (bump off i s) f = getF s f :=
  getF_of_getReg (getReg_bump_ne i h s)

theorem getF_setFlag_ne {f g : Fld} (h32 : g.hi < 32) (h : f.off ≠ g.off ∨ g.hi < f.lo ∨ f.hi < g.lo) (b : Bool) (s : State) :
    getF (setFlag f b s) g = getF s g := getF_setF_ne f g _ s h32 h

theorem flag_setF_ne {f g : Fld} (h32 : g.hi < 32) (h : f.off ≠ g.off ∨ g.hi < f.lo ∨ f.hi < g.lo) (v : Nat) (s : State) :
    flag (setF f v s) g = flag s g := flag_of_getF (getF_setF_ne f g v s h32 h)

theorem flag_setFlag_ne {f g : Fld} (h32 : g.hi < 32) (h : f.off ≠ g.off ∨ g.hi < f.lo ∨ f.hi < g.lo) (b : Bool) (s : State) :
    flag (setFlag f b s) g = flag s g := flag_setF_ne h32 h _ s

theorem getReg_set64_ne {lo off : Nat} (hlo : lo ≠ off) (hhi : lo + 4 ≠ off) (v : Nat) (s : State) :
    getReg (set64 lo v s) off = getReg s off := by rw [set64, getReg_setReg_ne hhi, getReg_setReg_ne hlo]

theorem getReg_forEach_setReg_ne {α : Type} {g : α → Nat} {off : Nat} (v : α → Word) :
    ∀ (l : List α) (s : State), (∀ k ∈ l, g k ≠ off) → getReg (forEach (fun k s => setReg (g k) (v k) s) l s) off = getReg s off
  | [], _, _ => rfl
  | k :: ks, s, h => by
    obtain ⟨hk, hks⟩ := List.forall_mem_cons.1 h
    rw [forEach, getReg_forEach_setReg_ne v ks _ hks, getReg_setReg_ne hk]

/-- A stage is a field of GLB_STATUS, and so is a halt. -/
theorem stage_of_getReg {s t : State} (h : getReg t Reg.GLB_STATUS = getReg s Reg.GLB_STATUS) : stage t = stage s :=
  getF_of_getReg (f := Fld.GLB_STATUS_STAGE) h

theorem halted_of_getReg {s t : State} (h : getReg t Reg.GLB_STATUS = getReg s Reg.GLB_STATUS) : halted t = halted s :=
  flag_of_getF (getF_of_getReg (f := Fld.GLB_STATUS_HALT) h)

/-- PAIR_EN is a strap, latched in GLB_STRAPS. -/
theorem pairEn_of_getReg {s t : State} (h : getReg t Reg.GLB_STRAPS = getReg s Reg.GLB_STRAPS) : pairEn t = pairEn s :=
  flag_of_getF (getF_of_getReg (f := Fld.GLB_STRAPS_PAIR_EN) h)

/-! ### The records of IMG_ERR (R65) -/

@[simp] theorem imgErr_img (op code sec ofs : Nat) (s : State) : (imgErr op code sec ofs s).img = s.img := rfl

theorem getReg_imgErr_ne {off : Nat} (he : Reg.IMG_ERR ≠ off) (ho : Reg.IMG_ERR_OFFSET ≠ off) (op code sec ofs : Nat) (s : State) :
    getReg (imgErr op code sec ofs s) off = getReg s off := by
  have hop : (Fld.IMG_ERR_OP).off ≠ off := he
  have hsec : (Fld.IMG_ERR_SECTION).off ≠ off := he
  have hcode : (Fld.IMG_ERR_CODE).off ≠ off := he
  simp only [imgErr, setFs, getReg_setReg_ne ho, getReg_setF_ne hop, getReg_setF_ne hsec, getReg_setF_ne hcode]

theorem getReg_imgErr_offset (op code sec ofs : Nat) (s : State) :
    getReg (imgErr op code sec ofs s) Reg.IMG_ERR_OFFSET = BitVec.ofNat 32 ofs := getReg_setReg_same _ _ _

theorem getF_imgErr_code (op code sec ofs : Nat) (s : State) : getF (imgErr op code sec ofs s) Fld.IMG_ERR_CODE = code % 256 := by
  rw [imgErr, getF_setReg_ne (by decide)]
  exact getF_setF_same Fld.IMG_ERR_CODE code _ (by decide) (by decide)

theorem getF_imgErr_section (op code sec ofs : Nat) (s : State) :
    getF (imgErr op code sec ofs s) Fld.IMG_ERR_SECTION = sec % 256 := by
  simp (disch := decide) only [imgErr, setFs, getF_setReg_ne, getF_setF_ne]
  exact getF_setF_same Fld.IMG_ERR_SECTION sec _ (by decide) (by decide)

theorem getF_imgErr_op (op code sec ofs : Nat) (s : State) : getF (imgErr op code sec ofs s) Fld.IMG_ERR_OP = op % 16 := by
  simp (disch := decide) only [imgErr, setFs, getF_setReg_ne, getF_setF_ne]
  exact getF_setF_same Fld.IMG_ERR_OP op _ (by decide) (by decide)

/-! ### The fuses (R63, R73, R75) -/

/-- What the end of every command makes of the fuse bank keeps each blown fuse. -/
theorem fusesKept_holdFuses (old new : Fuses) : fusesKept old (holdFuses old new) := by
  refine ⟨fun h => ?key, fun h => ?enforce, fun h => ?noRom, fun i h => ?revoke, rfl, rfl⟩
  case key => simp [holdFuses, h]
  case enforce => simp [holdFuses, h]
  case noRom => simp [holdFuses, h]
  case revoke => simp [holdFuses, h]

theorem fusesKept_refl (f : Fuses) : fusesKept f f := by simpa using fusesKept_holdFuses f f

theorem tick_img (s : State) : (tick s).img = s.img := by
  unfold tick
  split <;> rfl

/-- Settles O3: every command ends through finish, which holds the fuses, and a tick leaves the image record alone. -/
theorem fusesStayBlown : Obligations.FusesStayBlown := by
  unfold Obligations.FusesStayBlown
  intro s t h
  cases hq : s.pending with
  | nil =>
    have ht : t = tick s := by simp only [step, hq] at h; cases h; rfl
    rw [ht, tick_img]
    exact fusesKept_refl _
  | cons c cs =>
    have hexec : exec c { s with pending := cs } = .next t := by simpa only [step, hq] using h
    obtain ⟨u, rfl⟩ := exec_next c _ t hexec
    rw [finish_img]
    exact fusesKept_holdFuses s.img.fuses u.img.fuses

end Sys2Proof.Proofs
end

section
/-! The boot chain (R66, R67, R69): what the operations of S3 leave alone, and the ends of its reads. -/

namespace Sys2Proof.Proofs

open Sys2Proof Sys2Proof.Machine Sys2Proof.Safety

/-! ### Entering a stage with an image -/

@[simp] theorem enterStage_img (n : Nat) (s : State) : (enterStage n s).img = s.img := by
  unfold enterStage
  split <;> rfl

@[simp] theorem enterStage_host (n : Nat) (s : State) : (enterStage n s).host = s.host := by
  unfold enterStage
  split <;> rfl

theorem getReg_enterStage_ne {n off : Nat} (hg : Reg.GLB_STATUS ≠ off) (hi : Reg.IMG_STATUS ≠ off)
    (ht : Reg.GLB_STAGE_T + 4 * n ≠ off) (s : State) : getReg (enterStage n s) off = getReg s off := by
  have hshown : getReg (setF Fld.GLB_STATUS_STAGE n (setF Fld.IMG_STATUS_STAGE n s)) off = getReg s off := by
    rw [getReg_setF_ne (f := Fld.GLB_STATUS_STAGE) hg, getReg_setF_ne (f := Fld.IMG_STATUS_STAGE) hi]
  unfold enterStage
  split
  · rw [getReg_setReg_ne ht]
    exact hshown
  · exact hshown

theorem stage_enterStage {n : Nat} (hn : n < 8) (s : State) : stage (enterStage n s) = n := by
  have hshown : stage (setF Fld.GLB_STATUS_STAGE n (setF Fld.IMG_STATUS_STAGE n s)) = n :=
    (getF_setF_same Fld.GLB_STATUS_STAGE n _ (by decide) (by decide)).trans (Nat.mod_eq_of_lt hn)
  have hstageT : Reg.GLB_STAGE_T + 4 * n ≠ Reg.GLB_STATUS := by simp only [Reg.GLB_STAGE_T, Reg.GLB_STATUS]; omega
  unfold enterStage
  split
  · exact (stage_of_getReg (getReg_setReg_ne hstageT _ _)).trans hshown
  · exact hshown

@[simp] theorem showImage_img (i : Image) (src : Nat) (fb : Bool) (s : State) : (showImage i src fb s).img = s.img := rfl
@[simp] theorem showImage_host (i : Image) (src : Nat) (fb : Bool) (s : State) : (showImage i src fb s).host = s.host := rfl

/-- The registers that show an image lie from IMG_SERIAL on, but for IMG_STATUS. -/
theorem getReg_showImage_ne {off : Nat} (hi : Reg.IMG_STATUS ≠ off) (hlow : off < Reg.IMG_SERIAL_LO) (i : Image) (src : Nat)
    (fb : Bool) (s : State) : getReg (showImage i src fb s) off = getReg s off := by
  simp only [Reg.IMG_SERIAL_LO] at hlow
  have hserial : Reg.IMG_SERIAL_LO ≠ off ∧ Reg.IMG_SERIAL_LO + 4 ≠ off ∧ Reg.IMG_FW_VERSION ≠ off := by
    simp only [Reg.IMG_SERIAL_LO, Reg.IMG_FW_VERSION]; omega
  have hdigest : ∀ k ∈ List.range 12, Reg.IMG_DIGEST + 4 * k ≠ off := by
    intro k _; simp only [Reg.IMG_DIGEST]; omega
  obtain ⟨hlo, hhi, hfw⟩ := hserial
  have hfields (a b c d : Nat) (s : State) : getReg (setFs [(Fld.IMG_STATUS_SOURCE, a), (Fld.IMG_STATUS_SIG_STATE, b),
      (Fld.IMG_STATUS_FALLBACK, c), (Fld.IMG_STATUS_DECKID_ZERO, d)] s) off = getReg s off := by
    simp only [setFs]
    rw [getReg_setF_ne (f := Fld.IMG_STATUS_DECKID_ZERO) hi, getReg_setF_ne (f := Fld.IMG_STATUS_FALLBACK) hi,
      getReg_setF_ne (f := Fld.IMG_STATUS_SIG_STATE) hi, getReg_setF_ne (f := Fld.IMG_STATUS_SOURCE) hi]
  unfold showImage
  dsimp only
  rw [hfields, getReg_forEach_setReg_ne _ _ _ hdigest, getReg_setReg_ne hfw, getReg_set64_ne hlo hhi]

/-- The image record once an image is accepted. -/
def accepted (cand : Candidate) (i : Image) (m : ImgState) : ImgState :=
  { m with
    running := some i, source := cand, pairWait := false, flashWait := false,
    slots := [if decide (cand = .slotA) then some i.digest else m.slots.getD 0 none,
              if decide (cand = .slotB) then some i.digest else m.slots.getD 1 none] }

/-- The state in which an accepted image is shown: a fallback has had its event. -/
def beforeShown (cand : Candidate) (i : Image) (s : State) : State :=
  if s.img.firstTried then setF Fld.IMG_STATUS_HOLDING 0 (modImg (accepted cand i) s)
  else evt Fld.IMG_EVT_BOOT_FALLBACK noUnit [] (setF Fld.IMG_STATUS_HOLDING 0 (modImg (accepted cand i) s))

theorem runImage_eq (cand : Candidate) (src : Nat) (i : Image) (s : State) :
    runImage cand src i s = enterStage 4 (showImage i src (!s.img.firstTried) (beforeShown cand i s)) := by
  unfold runImage beforeShown
  cases s.img.firstTried <;> rfl

theorem runImage_img (cand : Candidate) (src : Nat) (i : Image) (s : State) :
    (runImage cand src i s).img = accepted cand i s.img := by
  rw [runImage_eq, enterStage_img, showImage_img, beforeShown]
  split <;> simp

theorem stage_runImage (cand : Candidate) (src : Nat) (i : Image) (s : State) : stage (runImage cand src i s) = 4 := by
  rw [runImage_eq, stage_enterStage (by decide)]

theorem getReg_runImage_err (cand : Candidate) (src : Nat) (i : Image) (s : State) :
    getReg (runImage cand src i s) Reg.IMG_ERR = getReg s Reg.IMG_ERR := by
  have hhold : getReg (setF Fld.IMG_STATUS_HOLDING 0 (modImg (accepted cand i) s)) Reg.IMG_ERR = getReg s Reg.IMG_ERR :=
    getReg_setF_ne (by decide) _ _
  have hbefore : getReg (beforeShown cand i s) Reg.IMG_ERR = getReg s Reg.IMG_ERR := by
    unfold beforeShown
    split
    · exact hhold
    · exact (getReg_evt (by decide) (by decide) _ _ _).trans hhold
  rw [runImage_eq, getReg_enterStage_ne (by decide) (by decide) (by decide), getReg_showImage_ne (by decide) (by decide), hbefore]

/-! ### The next candidate, and the settings of a hold -/

/-- Passing to the next candidate leaves the record of the failure. -/
theorem getReg_rejectHead_err (s : State) : getReg (rejectHead s) Reg.IMG_ERR = getReg s Reg.IMG_ERR := by
  unfold rejectHead nextCandidate
  split
  · exact getReg_setF_ne (f := Fld.IMG_STATUS_HOLDING) (by decide) _ _
  · exact getReg_runImage_err _ _ _ _
  · rfl

theorem getReg_applyNet_low {off : Nat} (h : off < Reg.MGT_STATUS) (net : List Byte) (s : State) :
    getReg (applyNet net s) off = getReg s off := by
  simp only [Reg.MGT_STATUS] at h
  have hstatus : Reg.MGT_STATUS ≠ off := by simp only [Reg.MGT_STATUS]; omega
  have hv4 : Reg.MGT_IPV4 ≠ off := by simp only [Reg.MGT_IPV4]; omega
  have hv6 : ∀ k ∈ [0, 1, 2, 3], Reg.MGT_IPV6 + 4 * k ≠ off := by intro k _; simp only [Reg.MGT_IPV6]; omega
  have hput4 (a : Nat) (s : State) : getReg (putIpv4 a s) off = getReg s off := by
    rw [putIpv4, getReg_setFlag_ne (f := Fld.MGT_STATUS_IPV4_OK) hstatus, getReg_setReg_ne hv4]
  have hput6 (a : List Byte) (s : State) : getReg (putIpv6 a s) off = getReg s off := by
    rw [putIpv6, getReg_setFlag_ne (f := Fld.MGT_STATUS_IPV6_OK) hstatus, getReg_forEach_setReg_ne _ _ _ hv6]
  unfold applyNet
  dsimp only
  split
  · rw [hput6, hput4, getReg_setFlag_ne (f := Fld.MGT_STATUS_PORT_ON) hstatus, getReg_modMgt]
  · rw [getReg_setF_ne (f := Fld.MGT_STATUS_PTP) hstatus, getReg_modMgt, hput6, hput4,
      getReg_setFlag_ne (f := Fld.MGT_STATUS_PORT_ON) hstatus, getReg_modMgt]

theorem applyNet_img (net : List Byte) (s : State) : (applyNet net s).img = s.img := by
  have hput6 (a : List Byte) (s : State) : (putIpv6 a s).img = s.img := rfl
  unfold applyNet
  dsimp only
  split <;> simp [hput6, putIpv4]

/-- The settings of a hold touch the management port alone (R68). -/
theorem getReg_afterChain_low {off : Nat} (h : off < Reg.MGT_STATUS) (s : State) : getReg (afterChain s) off = getReg s off := by
  unfold afterChain
  split
  · exact getReg_applyNet_low h _ _
  · rfl

theorem afterChain_img (s : State) : (afterChain s).img = s.img := by
  unfold afterChain
  split
  · exact applyNet_img _ _
  · rfl

theorem getF_afterChain_low {f : Fld} (h : f.off < Reg.MGT_STATUS) (s : State) : getF (afterChain s) f = getF s f :=
  getF_of_getReg (getReg_afterChain_low h s)

theorem stage_afterChain (s : State) : stage (afterChain s) = stage s := stage_of_getReg (getReg_afterChain_low (by decide) s)

/-! ### The read of a candidate from flash (R67, R69) -/

/-- A read of flash is under way in S3. -/
def readingFlash (s : State) : Prop := stage s = 3 ∧ s.img.flashWait = true ∧ halted s = false

/-- The state that a read's outcome meets: the speed of the flash is shown. -/
def flashShown (fast : Bool) (s : State) : State := setFlag Fld.CLK_STATUS_XSPI_FAST fast s

theorem getReg_flashShown {off : Nat} (h : Reg.CLK_STATUS ≠ off) (fast : Bool) (s : State) :
    getReg (flashShown fast s) off = getReg s off := getReg_setFlag_ne (f := Fld.CLK_STATUS_XSPI_FAST) h fast s

theorem readingFlash_flashShown {s : State} (h : readingFlash s) (fast : Bool) : readingFlash (flashShown fast s) := by
  obtain ⟨hstage, hwait, hhalt⟩ := h
  have hglb := getReg_flashShown (off := Reg.GLB_STATUS) (by decide) fast s
  exact ⟨(stage_of_getReg hglb).trans hstage, hwait, (halted_of_getReg hglb).trans hhalt⟩

theorem pairEn_flashShown (fast : Bool) (s : State) : pairEn (flashShown fast s) = pairEn s :=
  pairEn_of_getReg (getReg_flashShown (by decide) fast s)

theorem flashReadRow_eq {s : State} (h : readingFlash s) (fast : Bool) (hdrA hdrB : List Byte) (bytes : Option (List Byte)) :
    flashReadRow fast hdrA hdrB bytes s = afterChain (flashReadEff hdrA hdrB bytes (flashShown fast s)) := by
  obtain ⟨hstage, hwait, hhalt⟩ := h
  simp [flashReadRow, flashShown, hstage, hwait, hhalt]

section
variable {s : State} {cand : Candidate} {rest : List Candidate} (h : readingFlash s) (hc : s.img.chain = cand :: rest)
  (hdrA hdrB : List Byte)
include h hc

theorem flashReadEff_unread : flashReadEff hdrA hdrB none s = rejectHead (imgRefuse (candOp cand) 0x0F s) := by
  obtain ⟨hstage, hwait, hhalt⟩ := h
  simp [flashReadEff, hstage, hwait, hhalt, hc]

theorem flashReadEff_fail {b : List Byte} {code sec ofs : Nat} (hv : validate s.img.fuses (pairEn s) b = .fail code sec ofs) :
    flashReadEff hdrA hdrB (some b) s = rejectHead (imgErr (candOp cand) code sec ofs s) := by
  obtain ⟨hstage, hwait, hhalt⟩ := h
  simp [flashReadEff, hstage, hwait, hhalt, hc, hv]

theorem flashReadEff_ok {b : List Byte} {i : Image} (hv : validate s.img.fuses (pairEn s) b = .ok i) :
    flashReadEff hdrA hdrB (some b) s = runImage cand (candOp cand) i s := by
  obtain ⟨hstage, hwait, hhalt⟩ := h
  simp [flashReadEff, hstage, hwait, hhalt, hc, hv]

end

theorem candOp_lt (cand : Candidate) : candOp cand < 16 := by cases cand <;> decide

/-- A rejected candidate's record stands at the end of the row. -/
theorem getF_rejected {f : Fld} (hf : f.off = Reg.IMG_ERR) (op code sec ofs : Nat) (s : State) :
    getF (afterChain (rejectHead (imgErr op code sec ofs s))) f = getF (imgErr op code sec ofs s) f := by
  refine (getF_afterChain_low (by rw [hf]; decide) _).trans (getF_of_getReg ?_)
  rw [hf]
  exact getReg_rejectHead_err _

section
variable {s : State} {cand : Candidate} {rest : List Candidate} (h : readingFlash s) (hc : s.img.chain = cand :: rest)
  (fast : Bool) (hdrA hdrB : List Byte)
include h hc

theorem completes_flashRead_none :
    completes (.flashReadComplete fast hdrA hdrB none) s (fun t =>
      getF t Fld.IMG_ERR_CODE = 0x0F ∧ getF t Fld.IMG_ERR_OP = candOp cand ∧ getF t Fld.IMG_ERR_SECTION = 0xFF) := by
  have heff := flashReadRow_eq h fast hdrA hdrB none
  rw [flashReadEff_unread (readingFlash_flashShown h fast) hc, imgRefuse] at heff
  refine completes_of_done (congrArg (done s) heff) ⟨?_, ?_, ?_⟩
  · rw [getF_congr (finish_regs s _), getF_rejected rfl, getF_imgErr_code]
  · rw [getF_congr (finish_regs s _), getF_rejected rfl, getF_imgErr_op, Nat.mod_eq_of_lt (candOp_lt cand)]
  · rw [getF_congr (finish_regs s _), getF_rejected rfl, getF_imgErr_section]

theorem completes_flashRead_fail {b : List Byte} {code sec ofs : Nat}
    (hv : validate s.img.fuses (pairEn s) b = .fail code sec ofs) :
    completes (.flashReadComplete fast hdrA hdrB (some b)) s (fun t =>
      getF t Fld.IMG_ERR_CODE = code % 256 ∧ getF t Fld.IMG_ERR_OP = candOp cand) := by
  have heff := flashReadRow_eq h fast hdrA hdrB (some b)
  rw [← pairEn_flashShown fast] at hv
  rw [flashReadEff_fail (readingFlash_flashShown h fast) hc _ _ hv] at heff
  refine completes_of_done (congrArg (done s) heff) ⟨?_, ?_⟩
  · rw [getF_congr (finish_regs s _), getF_rejected rfl, getF_imgErr_code]
  · rw [getF_congr (finish_regs s _), getF_rejected rfl, getF_imgErr_op, Nat.mod_eq_of_lt (candOp_lt cand)]

theorem completes_flashRead_ok {b : List Byte} {i : Image} (hv : validate s.img.fuses (pairEn s) b = .ok i) :
    completes (.flashReadComplete fast hdrA hdrB (some b)) s (fun t =>
      t.img.running = some i ∧ t.img.source = cand ∧ stage t = 4) := by
  have heff := flashReadRow_eq h fast hdrA hdrB (some b)
  rw [← pairEn_flashShown fast] at hv
  rw [flashReadEff_ok (readingFlash_flashShown h fast) hc _ _ hv] at heff
  refine completes_of_done (congrArg (done s) heff) ?_
  simp [afterChain_img, runImage_img, accepted, stage_afterChain, stage_runImage]

end

/-! ### The partner's image (R66) -/

section
variable {s : State} (hs : stage s = 3) (hh : halted s = false) (hw : s.img.pairWait = true)
include hs hh hw

theorem completes_pairImage_ok {b : List Byte} {i : Image} (hv : validate s.img.fuses (pairEn s) b = .ok i) :
    completes (.pairImageReceived b) s (fun t => t.img.running = some i ∧ t.img.source = .partner ∧ stage t = 4) := by
  have heff : pairImageEff b s = runImage .partner 4 i s := by simp [pairImageEff, hs, hh, hw, hv]
  refine completes_of_done (congrArg (fun t => done s (afterChain t)) heff) ?_
  simp [afterChain_img, runImage_img, accepted, stage_afterChain, stage_runImage]

theorem completes_pairImage_fail {b : List Byte} {code sec ofs : Nat}
    (hv : validate s.img.fuses (pairEn s) b = .fail code sec ofs) :
    completes (.pairImageReceived b) s (fun t =>
      t.img.flashWait = true ∧ getF t Fld.IMG_ERR_CODE = code % 256 ∧ stage t = 3) := by
  have heff : pairImageEff b s = startFlash (modImg (fun m => { m with firstTried := false }) (imgErr 2 code sec ofs s)) := by
    simp [pairImageEff, hs, hh, hw, hv]
  refine completes_of_done (congrArg (fun t => done s (afterChain t)) heff) ⟨?waits, ?code, ?stage⟩
  case waits => simp [afterChain_img, startFlash]
  case code =>
    rw [getF_congr (finish_regs s _), getF_afterChain_low (by decide)]
    exact getF_imgErr_code 2 code sec ofs s
  case stage =>
    rw [stage_finish, stage_afterChain]
    exact (stage_of_getReg (getReg_imgErr_ne (by decide) (by decide) 2 code sec ofs s)).trans hs

theorem completes_pairFollowTimeout :
    completes .pairFollowTimeout s (fun t => t.img.flashWait = true ∧ t.img.pairWait = false ∧ stage t = 3) := by
  have heff : pairTimeoutEff s = startFlash (modImg (fun m => { m with firstTried := false }) s) := by
    simp [pairTimeoutEff, hs, hh, hw]
  refine completes_of_done (congrArg (fun t => done s (afterChain t)) heff) ⟨?_, ?_, ?_⟩
  · simp [afterChain_img, startFlash]
  · simp [afterChain_img, startFlash]
  · rw [stage_finish, stage_afterChain]
    exact hs

end

/-- Settles O11: a candidate that validates runs, and the record of one that fails outlasts the passage to the next. -/
theorem bootImages : Obligations.BootImages := by
  unfold Obligations.BootImages
  intro s hs hh
  refine ⟨fun cand rest fast hdrA hdrB hw hc => ?flash, fun b hw => ?partner, fun hw => completes_pairFollowTimeout hs hh hw⟩
  case flash =>
    have h : readingFlash s := ⟨hs, hw, hh⟩
    refine ⟨completes_flashRead_none h hc fast hdrA hdrB, fun b => ?_⟩
    cases hv : validate s.img.fuses (pairEn s) b with
    | ok i => exact completes_flashRead_ok h hc fast hdrA hdrB hv
    | fail code sec ofs => exact completes_flashRead_fail h hc fast hdrA hdrB hv
  case partner =>
    cases hv : validate s.img.fuses (pairEn s) b with
    | ok i => exact completes_pairImage_ok hs hh hw hv
    | fail code sec ofs => exact completes_pairImage_fail hs hh hw hv

end Sys2Proof.Proofs
end

section
/-! The staging area and the flash (R70 to R72, R75). -/

namespace Sys2Proof.Proofs

open Sys2Proof Sys2Proof.Machine Sys2Proof.Safety

/-! ### The image operation under way (R71) -/

@[simp] theorem setOp_img (o : ImageOp) (s : State) : (setOp o s).img = { s.img with op := o } := rfl
@[simp] theorem setOp_out (o : ImageOp) (s : State) : (setOp o s).out = s.out := rfl
@[simp] theorem clearStaged_img (s : State) : (clearStaged s).img = { s.img with stagedImage := none } := rfl
@[simp] theorem clearStaged_out (s : State) : (clearStaged s).out = s.out := rfl

theorem getReg_setOp_ne {off : Nat} (h : Reg.IMG_STATUS ≠ off) (o : ImageOp) (s : State) : getReg (setOp o s) off = getReg s off :=
  getReg_setFlag_ne (f := Fld.IMG_STATUS_BUSY) h _ _

theorem getF_setOp_ne {f : Fld} (h32 : f.hi < 32) (h : Reg.IMG_STATUS ≠ f.off ∨ f.hi < 11 ∨ 11 < f.lo) (o : ImageOp) (s : State) :
    getF (setOp o s) f = getF s f := getF_setFlag_ne (f := Fld.IMG_STATUS_BUSY) h32 h _ _

theorem flag_setOp_busy (o : ImageOp) (s : State) : flag (setOp o s) Fld.IMG_STATUS_BUSY = decide (o ≠ .none) :=
  flag_setFlag_same Fld.IMG_STATUS_BUSY _ _ (by decide) (by decide)

theorem pairEn_setOp (o : ImageOp) (s : State) : pairEn (setOp o s) = pairEn s :=
  pairEn_of_getReg (getReg_setOp_ne (by decide) o s)

theorem getF_clearStaged (s : State) : getF (clearStaged s) Fld.IMG_STATUS_STAGED_VALID = 0 :=
  getF_setF_same Fld.IMG_STATUS_STAGED_VALID 0 _ (by decide) (by decide)

/-- A command of IMG_CTRL acts where the register is served and nothing halts. -/
theorem imgServed_open {s : State} (h : imgOpen s) (f : State → State) : imgServed f s = f s := by
  obtain ⟨hhalt, hserved⟩ := h
  simp [imgServed, served, hhalt, hserved]

theorem withKey_right (f : State → State) (s : State) : withKey 0x5A f s = f s := if_pos rfl

theorem whenFree_free {s : State} (h : s.img.op = .none) (f : State → State) : whenFree f s = f s := if_pos h

/-! ### FETCH (R70) -/

theorem fetchImageEff_eq {s : State} (hop : s.img.op = .none) (haddr : get64 s Reg.IMG_PUSH_ADDR_LO % 64 = 0)
    (hlen : (getReg s Reg.IMG_PUSH_LEN).toNat % 64 = 0) (hmin : 0x100 ≤ (getReg s Reg.IMG_PUSH_LEN).toNat)
    (hmax : (getReg s Reg.IMG_PUSH_LEN).toNat ≤ 0x800000) :
    fetchImageEff s = emit (.hostRead 0 (get64 s Reg.IMG_PUSH_ADDR_LO) (getReg s Reg.IMG_PUSH_LEN).toNat)
      (setOp .fetch (clearStaged s)) := by
  rw [fetchImageEff, whenFree_free hop]
  exact if_neg (by simp [haddr, hlen, hmin, hmax])

theorem completes_fetch {s : State} (ho : imgOpen s) (hop : s.img.op = .none) (haddr : get64 s Reg.IMG_PUSH_ADDR_LO % 64 = 0)
    (hlen : (getReg s Reg.IMG_PUSH_LEN).toNat % 64 = 0) (hmin : 0x100 ≤ (getReg s Reg.IMG_PUSH_LEN).toNat)
    (hmax : (getReg s Reg.IMG_PUSH_LEN).toNat ≤ 0x800000) :
    completes .fetch s (fun t => t.img.op = .fetch ∧ t.img.stagedImage = none ∧ flag t Fld.IMG_STATUS_BUSY = true ∧
      getF t Fld.IMG_STATUS_STAGED_VALID = 0 ∧
      t.out = s.out ++ [.hostRead 0 (get64 s Reg.IMG_PUSH_ADDR_LO) (getReg s Reg.IMG_PUSH_LEN).toNat]) := by
  have heff := (imgServed_open ho fetchImageEff).trans (fetchImageEff_eq hop haddr hlen hmin hmax)
  refine completes_of_done (congrArg (done s) heff) ⟨by simp, by simp, ?busy, ?invalid, by simp⟩
  case busy => exact (flag_finish s _ _).trans (flag_setOp_busy .fetch (clearStaged s))
  case invalid =>
    rw [getF_finish, getF_emit, getF_setOp_ne (by decide) (by decide), getF_clearStaged]

/-! ### The validation of staged bytes (R70) -/

section
variable {s : State} {bytes : List Byte}

theorem validateStaged_ok {i : Image} (hv : validate s.img.fuses (pairEn s) bytes = .ok i) (byDmp : Bool) :
    validateStaged byDmp bytes s = evt Fld.IMG_EVT_FETCH_DONE noUnit [] (setF Fld.IMG_STATUS_STAGED_VALID 1
      (modImg (fun m => { m with staged := bytes, stagedImage := some i, stagedByDmp := byDmp }) (setOp .none s))) := by
  rw [← pairEn_setOp .none] at hv
  simp [validateStaged, hv]

theorem validateStaged_fail {code sec ofs : Nat} (hv : validate s.img.fuses (pairEn s) bytes = .fail code sec ofs) (byDmp : Bool) :
    validateStaged byDmp bytes s = evt Fld.IMG_EVT_FETCH_FAIL noUnit [] (imgErr 3 code sec ofs (setOp .none s)) := by
  rw [← pairEn_setOp .none] at hv
  simp [validateStaged, hv]

/-- A validation ends the operation that brought the bytes. -/
theorem validateStaged_op (byDmp : Bool) : (validateStaged byDmp bytes s).img.op = .none := by
  cases hv : validate s.img.fuses (pairEn s) bytes with
  | ok i => simp [validateStaged_ok hv]
  | fail code sec ofs => simp [validateStaged_fail hv]

theorem validateStaged_ok_img {i : Image} (hv : validate s.img.fuses (pairEn s) bytes = .ok i) (byDmp : Bool) :
    (validateStaged byDmp bytes s).img = { s.img with op := .none, staged := bytes, stagedImage := some i, stagedByDmp := byDmp } := by
  simp [validateStaged_ok hv]

theorem validateStaged_ok_valid {i : Image} (hv : validate s.img.fuses (pairEn s) bytes = .ok i) (byDmp : Bool) :
    getF (validateStaged byDmp bytes s) Fld.IMG_STATUS_STAGED_VALID = 1 := by
  rw [validateStaged_ok hv, getF_evt (by decide) (by decide)]
  exact getF_setF_same Fld.IMG_STATUS_STAGED_VALID 1 _ (by decide) (by decide)

theorem validateStaged_ok_done {i : Image} (hv : validate s.img.fuses (pairEn s) bytes = .ok i) (byDmp : Bool) :
    flag (validateStaged byDmp bytes s) Fld.IMG_EVT_FETCH_DONE = true := by
  rw [validateStaged_ok hv]
  exact flag_evt_same (by decide) (by decide) (by decide) _ _ _

section
variable {code sec ofs : Nat} (hv : validate s.img.fuses (pairEn s) bytes = .fail code sec ofs) (byDmp : Bool)
include hv

theorem validateStaged_fail_event : flag (validateStaged byDmp bytes s) Fld.IMG_EVT_FETCH_FAIL = true := by
  rw [validateStaged_fail hv]
  exact flag_evt_same (by decide) (by decide) (by decide) _ _ _

theorem validateStaged_fail_code : getF (validateStaged byDmp bytes s) Fld.IMG_ERR_CODE = code % 256 := by
  rw [validateStaged_fail hv, getF_evt (by decide) (by decide), getF_imgErr_code]

theorem validateStaged_fail_offset :
    getReg (validateStaged byDmp bytes s) Reg.IMG_ERR_OFFSET = BitVec.ofNat 32 ofs := by
  rw [validateStaged_fail hv, getReg_evt (by decide) (by decide), getReg_imgErr_offset]

end

theorem fetchDoneEff_bytes (hop : s.img.op = .fetch) : fetchDoneEff (some bytes) s = validateStaged false bytes s := by
  simp [fetchDoneEff, hop]

theorem completes_fetchRead_ok {i : Image} (hop : s.img.op = .fetch) (hv : validate s.img.fuses (pairEn s) bytes = .ok i) :
    completes (.fetchReadComplete (some bytes)) s (fun t => t.img.op = .none ∧ t.img.staged = bytes ∧ t.img.stagedImage = some i ∧
      flag t Fld.IMG_EVT_FETCH_DONE = true ∧ getF t Fld.IMG_STATUS_STAGED_VALID = 1) := by
  refine completes_of_done (congrArg (done s) (fetchDoneEff_bytes hop)) ⟨?_, ?_, ?_, ?_, ?_⟩
  · simp [validateStaged_ok_img hv]
  · simp [validateStaged_ok_img hv]
  · simp [validateStaged_ok_img hv]
  · exact (flag_finish s _ _).trans (validateStaged_ok_done hv false)
  · exact (getF_finish s _ _).trans (validateStaged_ok_valid hv false)

theorem completes_fetchRead_fail {code sec ofs : Nat} (hop : s.img.op = .fetch)
    (hv : validate s.img.fuses (pairEn s) bytes = .fail code sec ofs) :
    completes (.fetchReadComplete (some bytes)) s (fun t => t.img.op = .none ∧ flag t Fld.IMG_EVT_FETCH_FAIL = true ∧
      getF t Fld.IMG_ERR_CODE = code % 256 ∧ getReg t Reg.IMG_ERR_OFFSET = BitVec.ofNat 32 ofs) := by
  refine completes_of_done (congrArg (done s) (fetchDoneEff_bytes hop)) ⟨?_, ?_, ?_, ?_⟩
  · simp [validateStaged_op]
  · exact (flag_finish s _ _).trans (validateStaged_fail_event hv false)
  · exact (getF_finish s _ _).trans (validateStaged_fail_code hv false)
  · exact (getReg_finish s _ _).trans (validateStaged_fail_offset hv false)

end

/-! ### PROG_A and PROG_B (R72) -/

theorem progEff_eq {s : State} {i r : Image} {slotB : Bool} (hop : s.img.op = .none) (hi : s.img.stagedImage = some i)
    (hr : s.img.running = some r) (hslot : s.img.slots.getD (if slotB then 1 else 0) none ≠ some r.digest) :
    progEff slotB 0x5A s = emit (.flashWrite slotB s.img.staged) (setOp (.prog slotB) s) := by
  rw [progEff, withKey_right, whenFree_free hop]
  simp only [hi, hr]
  exact if_neg (by simpa using hslot)

theorem completes_prog {s : State} {i r : Image} {slotB : Bool} (ho : imgOpen s) (hop : s.img.op = .none)
    (hi : s.img.stagedImage = some i) (hr : s.img.running = some r)
    (hslot : s.img.slots.getD (if slotB then 1 else 0) none ≠ some r.digest) :
    completes (if slotB then .progB 0x5A else .progA 0x5A) s (fun t => t.img.op = .prog slotB ∧
      t.out = s.out ++ [.flashWrite slotB s.img.staged] ∧ flag t Fld.IMG_STATUS_BUSY = true) := by
  have heff := (imgServed_open ho (progEff slotB 0x5A)).trans (progEff_eq hop hi hr hslot)
  have hexec : exec (if slotB then .progB 0x5A else .progA 0x5A) s = done s (imgServed (progEff slotB 0x5A) s) := by
    cases slotB <;> rfl
  refine completes_of_done (hexec.trans (congrArg (done s) heff)) ⟨by simp, by simp, ?_⟩
  exact (flag_finish s _ _).trans (flag_setOp_busy (.prog slotB) s)

theorem completes_progComplete {s : State} {slotB : Bool} (hop : s.img.op = .prog slotB) (same : Bool) :
    completes (.progComplete same) s (fun t => t.img.op = .none ∧
      flag t (if same then Fld.IMG_EVT_PROG_DONE else Fld.IMG_EVT_PROG_FAIL) = true) := by
  refine completes_of_done (t := progDoneEff same s) rfl ⟨?_, ?_⟩
  · simp [progDoneEff, hop]
  · rw [flag_finish, progDoneEff]
    simp only [hop]
    cases same
    · exact flag_evt_same (f := Fld.IMG_EVT_PROG_FAIL) (by decide) (by decide) (by decide) _ _ _
    · exact flag_evt_same (f := Fld.IMG_EVT_PROG_DONE) (by decide) (by decide) (by decide) _ _ _

/-- Settles O16: each operation passes its checks, and its end shows what the validation or the read-back found. -/
theorem stagingOperations : Obligations.StagingOperations := by
  unfold Obligations.StagingOperations
  intro s
  refine ⟨fun ho hop haddr hlen hmin hmax => completes_fetch ho hop haddr hlen hmin hmax, fun b hop => ?fetched,
    fun i r slotB ho hop hi hr hslot => completes_prog ho hop hi hr hslot, fun same slotB hop => completes_progComplete hop same⟩
  case fetched =>
    cases hv : validate s.img.fuses (pairEn s) b with
    | ok i => exact completes_fetchRead_ok hop hv
    | fail code sec ofs => exact completes_fetchRead_fail hop hv

end Sys2Proof.Proofs
end

section
/-! Quiescing, applying and the fuse burns (R75 to R77): what they reach of the image record and of IMG_STATUS. -/

namespace Sys2Proof.Proofs

open Sys2Proof Sys2Proof.Machine Sys2Proof.Safety

/-- What both branches of a choice keep, the choice keeps. -/
theorem keeps_ite {β : Type} (P : State → β) {v : β} {p : Prop} [Decidable p] {a b : State} (ha : P a = v) (hb : P b = v) :
    P (if p then a else b) = v := by
  split
  · exact ha
  · exact hb

/-! ### Forming and sealing reach no register (R197, R236) -/

theorem sealSkein_regs (key : Nat) (s : State) : (sealSkein key s).regs = s.regs := by
  unfold sealSkein
  split
  · rfl
  · split <;> rfl

theorem sealOpen_regs (s : State) : (sealOpen s).regs = s.regs := by
  unfold sealOpen
  split
  · exact sealSkein_regs _ _
  · rfl

theorem putMember_regs (kind : MemberKind) (data : List Byte) (seq : Nat) (s : State) : (putMember kind data seq s).2.regs = s.regs := by
  have hopen : (openData s).2.regs = s.regs := by
    unfold openData
    split <;> rfl
  unfold putMember
  exact keeps_ite State.regs ((sealSkein_regs _ _).trans hopen) hopen

theorem packMember_regs (v seq : Nat) (hanks : List Nat) (data : List Byte) (s : State) :
    (packMember v seq hanks data s).regs = s.regs := by
  unfold packMember
  refine (forEach_keeps State.regs _ (fun _ _ => ?_) _ _).trans (putMember_regs _ _ _ _)
  rfl

theorem packFull_regs (v seq : Nat) : ∀ (n : Nat) (hanks : List Nat) (since : Nat) (bs : List Byte) (s : State),
    (packFull v seq n hanks since bs s).regs = s.regs
  | 0, _, _, _, _ => rfl
  | n + 1, hanks, since, bs, s => by
    unfold packFull
    split
    · rfl
    · exact (packFull_regs v seq n _ _ _ _).trans (packMember_regs _ _ _ _ _)

theorem appendHank_regs (p : HankPlace) (stored : List Byte) (s : State) : (appendHank p stored s).regs = s.regs :=
  packFull_regs _ _ _ _ _ _ _

theorem flushBuf_regs (v : Nat) (s : State) : (flushBuf v s).regs = s.regs := by
  unfold flushBuf
  dsimp only
  split
  · rfl
  · exact packMember_regs _ _ _ _ _

theorem formGo_regs : ∀ (hs : List Held) (blocked : List Nat) (s : State), (formGo hs blocked s).regs = s.regs
  | [], _, _ => rfl
  | h :: hs, blocked, s => by
    unfold formGo
    refine keeps_ite State.regs (formGo_regs hs _ _) (keeps_ite State.regs (formGo_regs hs _ _)
      (keeps_ite State.regs (formGo_regs hs _ _) ?_))
    split
    · split
      · exact (formGo_regs hs _ _).trans (appendHank_regs _ _ _)
      · exact formGo_regs hs _ _
    · exact (formGo_regs hs _ _).trans
        (keeps_ite State.regs ((sealOpen_regs _).trans (putMember_regs _ _ _ s)) (putMember_regs _ _ _ s))

theorem sealFor_regs (e : Nat × Cmd) (s : State) : (sealFor e s).regs = s.regs := by
  unfold sealFor
  split
  · dsimp only
    split
    · split
      · exact (sealOpen_regs _).trans (flushBuf_regs _ _)
      · exact flushBuf_regs _ _
    · rfl
  · rfl

theorem sealAll_regs (s : State) : (sealAll s).regs = s.regs := by
  have hform : (formAll s).regs = s.regs :=
    (forEach_keeps State.regs sealFor sealFor_regs _ _).trans (formGo_regs _ _ _)
  exact (sealOpen_regs _).trans ((forEach_keeps State.regs flushBuf flushBuf_regs _ _).trans hform)

/-! ### QUIESCE (R76) -/

theorem quiesceEff_regs {s : State} (hq : getF s Fld.IMG_STATUS_QSTATE = 0) :
    (quiesceEff s).regs = (setF Fld.IMG_STATUS_QSTATE 1 s).regs := by
  rw [quiesceEff, if_neg (by simp [hq])]
  exact sealAll_regs _

theorem getF_quiesceEff {s : State} (hq : getF s Fld.IMG_STATUS_QSTATE = 0) : getF (quiesceEff s) Fld.IMG_STATUS_QSTATE = 1 :=
  (getF_congr (quiesceEff_regs hq) _).trans (getF_setF_same Fld.IMG_STATUS_QSTATE 1 s (by decide) (by decide))

theorem completes_quiesce {s : State} (ho : imgOpen s) (hq : getF s Fld.IMG_STATUS_QSTATE = 0) :
    completes .quiesce s (fun t => getF t Fld.IMG_STATUS_QSTATE = 1) :=
  completes_of_done (congrArg (done s) (imgServed_open ho quiesceEff)) ((getF_finish s _ _).trans (getF_quiesceEff hq))

/-! ### What a carriage that goes OFFLINE leaves of the image record and of IMG_STATUS -/

/-- The image record and IMG_STATUS. -/
def imgView (s : State) : ImgState × Word := (s.img, getReg s Reg.IMG_STATUS)

theorem imgView_of_calm {s t : State} (h : calm t = calm s) : imgView t = imgView s :=
  Prod.ext (img_of_calm h) (getReg_of_calm h (by decide))

theorem imgView_of_still {s t : State} (h : still t = still s) : imgView t = imgView s := imgView_of_calm (calm_of_still h)

theorem imgView_evt {f : Fld} (h : f.off ≠ Reg.IMG_STATUS) (u : Nat) (is : List Item) (s : State) :
    imgView (evt f u is s) = imgView s := Prod.ext (evt_img _ _ _ _) (getReg_evt (by decide) h _ _ _)

theorem imgView_bump {off i : Nat} (h : off + 4 * i ≠ Reg.IMG_STATUS) (s : State) : imgView (bump off i s) = imgView s :=
  Prod.ext rfl (getReg_bump_ne i h s)

theorem imgView_endExhausted (s : State) : imgView (endExhausted s) = imgView s := by
  unfold endExhausted
  refine forEach_keeps imgView _ (fun e s => ?_) _ _
  split
  · split
    · exact imgView_of_still (still_endCmd _ _ _ _)
    · rfl
  · rfl

theorem imgView_leaveQueues (key : Nat) (s : State) : imgView (leaveQueues key s) = imgView s := by
  unfold leaveQueues
  refine forEach_keeps imgView _ (fun _ _ => ?_) _ _
  rfl

theorem imgView_joinQueues (key : Nat) (s : State) : imgView (joinQueues key s) = imgView s :=
  forEach_keeps imgView (joinQueue key) (fun _ _ => rfl) allCars s

theorem imgView_moveData (old new : Nat) (s : State) : imgView (moveData old new s) = imgView s := rfl

theorem imgView_modSkein (key : Nat) (f : Skein → Skein) (s : State) : imgView (modSkein key f s) = imgView s := rfl

/-- The media are apart from the image record and the registers. -/
theorem imgView_media (s : State) (m : MediaState) : imgView { s with media := m } = imgView s := rfl

theorem imgView_reform (key : Nat) (counted : Bool) (s : State) : imgView (reform key counted s) = imgView s := by
  unfold reform
  split
  · rfl
  · refine keeps_ite imgView rfl ?_
    extract_lets tries u
    have hu : imgView u = imgView s := imgView_leaveQueues key s
    refine keeps_ite imgView ?exhausted ?fresh
    case exhausted =>
      extract_lets
      rw [imgView_endExhausted, imgView_evt (by decide), imgView_bump (by decide), imgView_modSkein, hu]
    case fresh =>
      unfold takeNumber
      dsimp only
      rw [imgView_joinQueues, imgView_moveData, imgView_media, imgView_modSkein, imgView_media, hu]

theorem imgView_stopWriteNow (c : Nat) (s : State) : imgView (stopWriteNow c s) = imgView s := by
  unfold stopWriteNow abandonPass
  dsimp only
  have hfree (p : Prop) [Decidable p] (s : State) : imgView (if p then useFree s else s) = imgView s := by split <;> rfl
  split
  · rfl
  · split
    · rw [imgView_evt (by decide), forEach_keeps imgView _ (fun k s => imgView_reform k false s)]
      exact hfree _ _
    · exact hfree _ _

theorem imgView_strandsTo (c : Nat) (tgt : UState) (why : Reason) (s : State) : imgView (strandsTo c tgt why s) = imgView s := by
  unfold strandsTo
  refine forEach_keeps imgView _ (fun g s => ?_) _ _
  split
  · rfl
  · exact imgView_of_calm (calm_change _ _ _ _)

theorem imgView_disableSlot (k : Nat) (s : State) : imgView (disableSlot k s) = imgView s := by
  unfold disableSlot
  dsimp only
  split
  · unfold leaveActive
    dsimp only
    refine (forEach_keeps imgView _ (fun c s => ?_) _ _).trans rfl
    split <;> rfl
  · rfl

theorem imgView_carriageDark (c : Nat) (s : State) : imgView (carriageDark c s) = imgView s := by
  unfold carriageDark
  refine (forEach_keeps imgView _ (fun _ _ => ?_) _ _).trans (forEach_keeps imgView disableSlot imgView_disableSlot _ _)
  rfl

/-- A carriage that the quiesce takes OFFLINE. -/
def takeOffline (c : Nat) (s : State) : State := carDown c (change (uCar c) .offline .request s)

theorem imgView_takeOffline (c : Nat) (s : State) : imgView (takeOffline c s) = imgView s := by
  unfold takeOffline carDown
  rw [imgView_carriageDark, imgView_strandsTo, imgView_stopWriteNow]
  exact imgView_of_calm (calm_change _ _ _ _)

/-! ### QUIESCE_COMPLETE (R76) -/

/-- The carriages that serve, which the quiesce takes OFFLINE. -/
def servingCars (s : State) : List Nat := (boundCars s).filter (fun c => (ust s (uCar c)).serves)

theorem quiesceDoneEff_eq {s : State} (hq : getF s Fld.IMG_STATUS_QSTATE = 1) (hc : (cmds s).isEmpty = true)
    (hh : heldLeft s = false) : quiesceDoneEff s = evt Fld.IMG_EVT_QUIESCED noUnit [] (forEach takeOffline (servingCars s)
      (modImg (fun m => { m with quiesceTook := servingCars s }) (setF Fld.IMG_STATUS_QSTATE 2 s))) := by
  simp only [quiesceDoneEff, hq, hc, hh]
  rfl

theorem completes_quiesceComplete {s : State} (hq : getF s Fld.IMG_STATUS_QSTATE = 1) (hc : (cmds s).isEmpty = true)
    (hh : heldLeft s = false) :
    completes .quiesceComplete s (fun t => flag t Fld.IMG_EVT_QUIESCED = true ∧ getF t Fld.IMG_STATUS_QSTATE = 2 ∧
      t.img.quiesceTook = servingCars s) := by
  have hview := forEach_keeps imgView takeOffline imgView_takeOffline (servingCars s)
    (modImg (fun m => { m with quiesceTook := servingCars s }) (setF Fld.IMG_STATUS_QSTATE 2 s))
  refine completes_of_done (congrArg (done s) (quiesceDoneEff_eq hq hc hh)) ⟨?event, ?state, ?took⟩
  case event => exact (flag_finish s _ _).trans (flag_evt_same (by decide) (by decide) (by decide) _ _ _)
  case state =>
    rw [getF_finish, getF_evt (by decide) (by decide)]
    exact (getF_of_getReg (f := Fld.IMG_STATUS_QSTATE) (congrArg Prod.snd hview)).trans
      (getF_setF_same Fld.IMG_STATUS_QSTATE 2 s (by decide) (by decide))
  case took =>
    rw [finish_img, evt_img]
    exact congrArg (fun v => v.1.quiesceTook) hview

/-! ### RESUME (R76) -/

/-- The firmware's request of READY for a carriage, with the present epoch. -/
def readyRequest (s : State) (c : Nat) : UnitReq :=
  { kind := .request, unit := uCar c, code := 0x03, epoch := (unitOf s (uCar c)).epoch.toNat, sender := .policy }

/-- The state with requests at the end of the sequencer's queue. -/
def withRequests (rs : List UnitReq) (s : State) : State := { s with unt := { s.unt with waiting := s.unt.waiting ++ rs } }

theorem forEach_policyReq (cs : List Nat) (s : State) :
    forEach (fun c s => policyReq (uCar c) 0x03 s) cs s = withRequests (cs.map (readyRequest s)) s := by
  induction cs generalizing s with
  | nil => simp [forEach, withRequests]
  | cons c cs ih =>
    have hnext : policyReq (uCar c) 0x03 s = withRequests [readyRequest s c] s := rfl
    have hepochs : readyRequest (withRequests [readyRequest s c] s) = readyRequest s := rfl
    rw [forEach, hnext, ih, hepochs]
    simp [withRequests]

theorem resumeEff_eq {s : State} (hq : getF s Fld.IMG_STATUS_QSTATE = 1 ∨ getF s Fld.IMG_STATUS_QSTATE = 2) :
    resumeEff s = withRequests (s.img.quiesceTook.map (readyRequest s))
      (modImg (fun m => { m with quiesceTook := [] }) (setF Fld.IMG_STATUS_QSTATE 0 s)) := by
  have hready : readyRequest (modImg (fun m => { m with quiesceTook := [] }) (setF Fld.IMG_STATUS_QSTATE 0 s)) = readyRequest s := rfl
  rw [← hready, ← forEach_policyReq]
  exact if_pos (by simpa using hq)

theorem getF_resumeEff {s : State} (hq : getF s Fld.IMG_STATUS_QSTATE = 1 ∨ getF s Fld.IMG_STATUS_QSTATE = 2) :
    getF (resumeEff s) Fld.IMG_STATUS_QSTATE = 0 := by
  rw [resumeEff_eq hq]
  exact getF_setF_same Fld.IMG_STATUS_QSTATE 0 s (by decide) (by decide)

theorem completes_resume {s : State} (ho : imgOpen s)
    (hq : getF s Fld.IMG_STATUS_QSTATE = 1 ∨ getF s Fld.IMG_STATUS_QSTATE = 2) :
    completes .resume s (fun t => getF t Fld.IMG_STATUS_QSTATE = 0 ∧ t.img.quiesceTook = [] ∧
      t.unt.waiting = s.unt.waiting ++ s.img.quiesceTook.map (readyRequest s)) := by
  refine completes_of_done (congrArg (done s) (imgServed_open ho resumeEff)) ⟨?_, ?_, ?_⟩
  · exact (getF_finish s _ _).trans (getF_resumeEff hq)
  · simp [resumeEff_eq hq, withRequests]
  · simp [resumeEff_eq hq, withRequests]

/-! ### APPLY (R77) -/

theorem applyEff_eq {s : State} {i : Image} (hop : s.img.op = .none) (hq : getF s Fld.IMG_STATUS_QSTATE = 2)
    (hhold : holding s = false) (hpair : pairEn s = true → isOwner s = true) (hm : mirroring s = false)
    (hi : s.img.stagedImage = some i) : applyEff 0x5A s = enterApply (if s.img.stagedByDmp then 5 else 3) i s := by
  have hown : ¬ (pairEn s = true ∧ isOwner s = false) := fun h => by simp [hpair h.1] at h
  rw [applyEff, withKey_right, whenFree_free hop]
  simp [hown, hq, hhold, hi, hm]

/-- The image record as S3 is entered again with an image, out of service. -/
def applying (m : ImgState) : ImgState :=
  { m with op := .apply, firstTried := true, applied := true, heldBack := false, stagedImage := none, staged := [], quiesceTook := [] }

/-- APPLYING ends in S4 with the image, from a state without ring contexts and commands. -/
theorem enterApply_eq {s : State} (hhold : holding s = false) (src : Nat) (i : Image) :
    ∃ u, enterApply src i s = runImage .partner src i (enterStage 3 u) ∧ u.img = applying s.img ∧ u.host.ctx = [] ∧
      u.host.cmds = [] := by
  unfold enterApply
  simp only [hhold]
  exact ⟨_, rfl, rfl, rfl, rfl⟩

theorem runImage_host {s : State} (h : s.img.firstTried = true) (cand : Candidate) (src : Nat) (i : Image) :
    (runImage cand src i s).host = s.host := by
  rw [runImage_eq, enterStage_host, showImage_host, beforeShown, if_pos h]
  rfl

theorem released_releaseOutputs (s : State) : released (releaseOutputs s).pins := by simp [released, releaseOutputs]

theorem outputsOff_early {s : State} (h : stage s < 6) : outputsOff s = true := by simp [outputsOff, h]

theorem completes_apply {s : State} {i : Image} (ho : imgOpen s) (hop : s.img.op = .none)
    (hq : getF s Fld.IMG_STATUS_QSTATE = 2) (hhold : holding s = false) (hpair : pairEn s = true → isOwner s = true)
    (hm : mirroring s = false) (hi : s.img.stagedImage = some i) :
    completes (.apply 0x5A) s (fun t => stage t = 4 ∧ t.img.running = some i ∧ t.img.applied = true ∧
      t.img.stagedImage = none ∧ t.host.ctx = [] ∧ t.host.cmds = [] ∧ released t.pins) := by
  obtain ⟨u, hu, himg, hctx, hcmds⟩ := enterApply_eq hhold (if s.img.stagedByDmp then 5 else 3) i
  have heff := ((imgServed_open ho (applyEff 0x5A)).trans (applyEff_eq hop hq hhold hpair hm hi)).trans hu
  have hfirst : (enterStage 3 u).img.firstTried = true := by simp [himg, applying]
  have hstage : stage (runImage .partner (if s.img.stagedByDmp then 5 else 3) i (enterStage 3 u)) = 4 := stage_runImage _ _ _ _
  refine completes_of_done (congrArg (done s) heff) ⟨?_, ?_, ?_, ?_, ?_, ?_, ?pins⟩
  · rw [stage_finish, hstage]
  · simp [runImage_img, accepted]
  · simp [runImage_img, accepted, himg, applying]
  · simp [runImage_img, accepted, himg, applying]
  · rw [finish_host, runImage_host hfirst, enterStage_host, hctx]
  · rw [finish_host, runImage_host hfirst, enterStage_host, hcmds]
  case pins =>
    rw [finish_pins_off s _ (outputsOff_early (by omega))]
    exact released_releaseOutputs _

/-! ### The fuse burns (R75) -/

/-- A burn acts: IMG_CTRL is served with nothing under way, in S7 while QUIESCED. -/
def mayBurn (s : State) : Prop := imgOpen s ∧ s.img.op = .none ∧ stage s = 7 ∧ getF s Fld.IMG_STATUS_QSTATE = 2

theorem burnEff_allowed {s : State} (h : mayBurn s) {refused : State → Bool} (hr : refused s = false) (f : State → State) :
    imgServed (burnEff 0x5A refused f) s = f s := by
  obtain ⟨ho, hop, hstage, hq⟩ := h
  rw [imgServed_open ho, burnEff, withKey_right, whenFree_free hop]
  simp [hstage, hq, hr]

/-- A command whose effect is a change of the fuse bank that holdFuses grants ends with that bank. -/
theorem completes_burn {s : State} {c : Instr} {g : Fuses → Fuses} (hc : exec c s = done s (burn g s))
    (hg : holdFuses s.img.fuses (g s.img.fuses) = g s.img.fuses) : completes c s (fun t => t.img.fuses = g s.img.fuses) :=
  completes_of_done hc (by simp [burn, hg])

section
variable {s : State} (h : mayBurn s)
include h

theorem completes_burnKey (hk : s.img.fuses.keyBurnt = false) :
    completes (.burnKey 0x5A) s (fun t =>
      t.img.fuses = { s.img.fuses with keyBurnt := true, keyDigest := (List.range 12).map (keyDig s) }) :=
  completes_burn (g := fun x => { x with keyBurnt := true, keyDigest := (List.range 12).map (keyDig s) })
    (congrArg (done s) (burnEff_allowed h hk _)) (by simp [holdFuses, hk])

theorem completes_burnEnforce (hk : s.img.fuses.keyBurnt = true) :
    completes (.burnEnforce 0x5A) s (fun t => t.img.fuses = { s.img.fuses with enforce := true }) :=
  completes_burn (g := fun x => { x with enforce := true })
    (congrArg (done s) (burnEff_allowed h (refused := fun s => !s.img.fuses.keyBurnt) (by simp [hk]) _)) (by simp [holdFuses])

theorem completes_burnNorom (he : s.img.fuses.enforce = true) :
    completes (.burnNorom 0x5A) s (fun t => t.img.fuses = { s.img.fuses with noRom := true }) :=
  completes_burn (g := fun x => { x with noRom := true })
    (congrArg (done s) (burnEff_allowed h (refused := fun s => !s.img.fuses.enforce) (by simp [he]) _)) (by simp [holdFuses])

theorem completes_burnRevoke {i : Image} {n : Nat} (hi : s.img.running = some i) (hn : n < 4) (hv : i.firmware.vendorKey ≠ n) :
    completes (.burnRevoke 0x5A n) s (fun t =>
      t.img.fuses = { s.img.fuses with revoke := s.img.fuses.revoke ||| BitVec.ofNat 4 (2 ^ n) }) := by
  have hmod : n % 4 % 4 = n := by omega
  have heff : imgServed (burnRevokeEff 0x5A (n % 4)) s =
      burn (fun x => { x with revoke := x.revoke ||| BitVec.ofNat 4 (2 ^ n) }) s := by
    unfold burnRevokeEff
    rw [hmod]
    exact burnEff_allowed h (by simp [hi, hv]) _
  refine completes_burn (g := fun x => { x with revoke := x.revoke ||| BitVec.ofNat 4 (2 ^ n) }) (congrArg (done s) heff) ?_
  have hor (a b : BitVec 4) : a ||| (a ||| b) = a ||| b := by rw [← BitVec.or_assoc, BitVec.or_self]
  simp [holdFuses, hor]

end

/-- Settles O17: forming and the carriages' way to OFFLINE leave QSTATE and the image record; the rest is each command's own
update. -/
theorem quiesceApplyAndFuses : Obligations.QuiesceApplyAndFuses := by
  unfold Obligations.QuiesceApplyAndFuses
  intro s
  refine ⟨fun ho hq => completes_quiesce ho hq, fun hq hc hh => completes_quiesceComplete hq hc hh, fun q hq ho hs => ?resume,
    fun i ho hop hq hhold hpair hm hi => completes_apply ho hop hq hhold hpair hm hi, fun ho hop hstage hq => ?burns⟩
  case resume => exact completes_resume ho (by rw [hs]; exact hq)
  case burns =>
    have h : mayBurn s := ⟨ho, hop, hstage, hq⟩
    exact ⟨completes_burnKey h, completes_burnEnforce h, completes_burnNorom h,
      fun i n hi hn hv => completes_burnRevoke h hi hn hv⟩

end Sys2Proof.Proofs
end

section
/-! The deck's clock and the management port's events (R62, R514, R518, R520). -/

namespace Sys2Proof.Proofs

open Sys2Proof Sys2Proof.Machine Sys2Proof.Safety

/-! ### The flags of MGT_EVT (R511)

Raising an event may set MGT_EVT.LOG_WRAP, so MGT_EVT is among the registers of the log; its other flags are as before. -/

theorem getReg_logSignal_mgtEvt (s : State) : getReg (logSignal s) Reg.MGT_EVT = getReg s Reg.MGT_EVT := by
  unfold logSignal
  dsimp only
  refine keeps_ite (getReg · Reg.MGT_EVT) (keeps_ite (getReg · Reg.MGT_EVT) rfl (keeps_ite (getReg · Reg.MGT_EVT) rfl ?_)) rfl
  exact getReg_bump_ne 6 (by decide) _

theorem getReg_writeEntry_mgtEvt (b c u e : Nat) (cont : Bool) (d : List Byte) (s : State) :
    getReg (writeEntry b c u e cont d s) Reg.MGT_EVT = getReg s Reg.MGT_EVT := by
  have hset (q : Nat) (s : State) : getReg (set64 Reg.MGT_LOG_WR_LO q s) Reg.MGT_EVT = getReg s Reg.MGT_EVT :=
    getReg_set64_ne (by decide) (by decide) q s
  have hbump (i : Nat) (hi : i = 5 ∨ i = 6) (s : State) : getReg (bump Reg.MGT_CNT i s) Reg.MGT_EVT = getReg s Reg.MGT_EVT :=
    getReg_bump_ne i (by simp only [Reg.MGT_CNT, Reg.MGT_EVT]; omega) s
  unfold writeEntry
  dsimp only
  rw [getReg_logSignal_mgtEvt]
  refine (forEach_keeps (getReg · Reg.MGT_EVT) _ (fun x s => ?sent) _ _).trans
    (keeps_ite (getReg · Reg.MGT_EVT) ((hbump 6 (.inr rfl) _).trans ?counted) ?counted)
  case sent => exact keeps_ite (getReg · Reg.MGT_EVT) rfl rfl
  case counted =>
    refine keeps_ite (getReg · Reg.MGT_EVT) ?stored ((hbump 5 (.inl rfl) _).trans ?stored)
    exact (hset _ _).trans (keeps_ite (getReg · Reg.MGT_EVT) rfl rfl)

theorem getReg_writeDetails_mgtEvt (b c u e : Nat) : ∀ (ds : List (List Byte)) (cont : Bool) (s : State),
    getReg (writeDetails b c u e cont ds s) Reg.MGT_EVT = getReg s Reg.MGT_EVT
  | [], _, _ => rfl
  | d :: ds, cont, s => by rw [writeDetails, getReg_writeDetails_mgtEvt b c u e ds, getReg_writeEntry_mgtEvt]

theorem getReg_rawEvent_mgtEvt (b c u : Nat) (is : List Item) (s : State) :
    getReg (rawEvent b c u is s) Reg.MGT_EVT = getReg s Reg.MGT_EVT :=
  keeps_ite (getReg · Reg.MGT_EVT) (getReg_writeDetails_mgtEvt _ _ _ _ _ _ _) (getReg_writeDetails_mgtEvt _ _ _ _ _ _ _)

section
variable {f : Fld} (hoff : f.off = Reg.MGT_EVT) (h32 : f.hi < 32) (hwrap : f.hi < 4 ∨ 4 < f.lo)
include hoff h32 hwrap

theorem flag_event_mgtEvt (b c u : Nat) (is : List Item) (s : State) : flag (event b c u is s) f = flag s f := by
  have hraw (b c u : Nat) (is : List Item) (s : State) : flag (rawEvent b c u is s) f = flag s f :=
    flag_of_getF (getF_of_getReg (by rw [hoff]; exact getReg_rawEvent_mgtEvt b c u is s))
  have hset (s : State) : flag (setF Fld.MGT_EVT_LOG_WRAP 1 s) f = flag s f := flag_setF_ne h32 (.inr hwrap) 1 s
  refine keeps_ite (flag · f) ?_ (hraw _ _ _ _ _)
  exact keeps_ite (flag · f) ((hraw _ _ _ _ _).trans ((hset _).trans (hraw _ _ _ _ _))) ((hset _).trans (hraw _ _ _ _ _))

/-- A flag of MGT_EVT other than LOG_WRAP is 1 once it is raised. -/
theorem flag_evt_mgtEvt (hbit : f.lo = f.hi) (u : Nat) (is : List Item) (s : State) : flag (evt f u is s) f = true := by
  have hset : flag (setF f 1 s) f = true := flag_setFlag_same f true s hbit h32
  have he : f.at 0 = f := rfl
  unfold evt evtAt
  rw [he]
  dsimp only
  split
  · assumption
  · exact keeps_ite (flag · f) ((flag_event_mgtEvt hoff h32 hwrap _ _ _ _ _).trans hset) hset

end

/-! ### The fields of the management record that an event leaves alone -/

section
variable (f : Fld) (u : Nat) (is : List Item) (s : State)

@[simp] theorem evt_mgt_net : (evt f u is s).mgt.net = s.mgt.net := by simpa [quiet] using congrArg (·.mgt.net) (quiet_evt f u is s)
@[simp] theorem evt_mgt_netPending : (evt f u is s).mgt.netPending = s.mgt.netPending := by
  simpa [quiet] using congrArg (·.mgt.netPending) (quiet_evt f u is s)
@[simp] theorem evt_mgt_ptpGood : (evt f u is s).mgt.ptpGood = s.mgt.ptpGood := by
  simpa [quiet] using congrArg (·.mgt.ptpGood) (quiet_evt f u is s)
@[simp] theorem evt_mgt_ptpRate : (evt f u is s).mgt.ptpRate = s.mgt.ptpRate := by
  simpa [quiet] using congrArg (·.mgt.ptpRate) (quiet_evt f u is s)

end

/-! ### PTP (R518) -/

/-- A Sync is counted, and its offset shown. -/
def syncShown (ofs : Int) (s : State) : State :=
  bump Reg.MGT_CNT 7 (setReg Reg.MGT_PTP_OFS (wordI (clampI (-0x80000000) 0x7FFFFFFF ofs)) s)

/-- Deck time is stepped by the offset, and the acquisition starts anew. -/
def timeStepped (ofs : Int) (s : State) : State :=
  { modMgt (fun g => { g with ptpSynced := true, ptpGood := 0, ptpRate := 0, ptpFrac := 0 }) s with
    pwr := { s.pwr with time := (max 0 ((s.pwr.time : Int) - ofs)).toNat } }

/-- The good offsets in a row after one more. -/
def goodAfter (ofs : Int) (s : State) : Nat := if -1000 ≤ ofs ∧ ofs ≤ 1000 then min 16 (s.mgt.ptpGood + 1) else 0

/-- The rate that the servo takes, within 500 ppm. -/
def slewRate (s : State) : Int := (((Config.freeWord s.free).toNat % 1001 : Nat) : Int) - 500

/-- Deck time is slewed. -/
def slewed (ofs : Int) (s : State) : State :=
  useFree (modMgt (fun g => { g with ptpSynced := true, ptpGood := goodAfter ofs s, ptpRate := slewRate s }) s)

/-- PTP_LOCKED is raised where the clock was not locked. -/
def locked (s : State) : State :=
  if getF s Fld.MGT_STATUS_PTP = 2 then setF Fld.MGT_STATUS_PTP 2 s
  else evt Fld.MGT_EVT_PTP_LOCKED noUnit [] (setF Fld.MGT_STATUS_PTP 2 s)

theorem slewRate_bounds (s : State) : -500 ≤ slewRate s ∧ slewRate s ≤ 500 := by unfold slewRate; omega

theorem goodAfter_eq_sixteen {ofs : Int} {s : State} :
    goodAfter ofs s = 16 ↔ -1000 ≤ ofs ∧ ofs ≤ 1000 ∧ 15 ≤ s.mgt.ptpGood := by
  unfold goodAfter
  split <;> omega

theorem ptpSyncEff_step {s : State} (hn : onNet s) {ofs : Int} (ho : 1000000 < ofs ∨ ofs < -1000000) :
    ptpSyncEff ofs s = evt Fld.MGT_EVT_TIME_STEP noUnit [⟨4, (getReg (syncShown ofs s) Reg.MGT_PTP_OFS).toNat⟩]
      (setF Fld.MGT_STATUS_PTP 1 (timeStepped ofs (syncShown ofs s))) := by
  obtain ⟨hport, hlink⟩ := hn
  have hfar : (decide (ofs < -1000000) || decide (1000000 < ofs)) = true := by simpa using ho.symm
  unfold ptpSyncEff
  rw [if_neg (by simp [hport, hlink])]
  exact if_pos hfar

theorem ptpSyncEff_slew {s : State} (hn : onNet s) {ofs : Int} (hlo : -1000000 ≤ ofs) (hhi : ofs ≤ 1000000) :
    ptpSyncEff ofs s = if goodAfter ofs s = 16 then locked (slewed ofs (syncShown ofs s))
      else setF Fld.MGT_STATUS_PTP 1 (slewed ofs (syncShown ofs s)) := by
  obtain ⟨hport, hlink⟩ := hn
  have hnear : ¬ (decide (ofs < -1000000) || decide (1000000 < ofs)) = true := by simp; omega
  have hgood : (if (decide (-1000 ≤ ofs) && decide (ofs ≤ 1000)) = true then min 16 (s.mgt.ptpGood + 1) else 0) = goodAfter ofs s := by
    simp [goodAfter]
  unfold ptpSyncEff
  rw [if_neg (by simp [hport, hlink])]
  refine (if_neg hnear).trans ?_
  simp only [bump_mgt, setReg_mgt, hgood]
  rfl

theorem completes_ptpSync_step {s : State} (hn : onNet s) {ofs : Int} (ho : 1000000 < ofs ∨ ofs < -1000000) :
    completes (.ptpSync ofs) s (fun t => t.pwr.time = (max 0 ((s.pwr.time : Int) - ofs)).toNat ∧
      getF t Fld.MGT_STATUS_PTP = 1 ∧ flag t Fld.MGT_EVT_TIME_STEP = true ∧ t.mgt.ptpGood = 0 ∧ t.mgt.ptpRate = 0) := by
  refine completes_of_done (congrArg (done s) (ptpSyncEff_step hn ho)) ⟨?_, ?shown, ?event, ?_, ?_⟩
  · simp [timeStepped, syncShown]
  case shown =>
    rw [getF_finish, getF_evt (by decide) (by decide)]
    exact getF_setF_same Fld.MGT_STATUS_PTP 1 _ (by decide) (by decide)
  case event => exact (flag_finish s _ _).trans (flag_evt_mgtEvt rfl (by decide) (by decide) rfl _ _ _)
  · simp [timeStepped]
  · simp [timeStepped]

section
variable (s : State)

theorem locked_pwr : (locked s).pwr = s.pwr := keeps_ite State.pwr rfl (evt_pwr _ _ _ _)
theorem locked_ptpGood : (locked s).mgt.ptpGood = s.mgt.ptpGood := keeps_ite (·.mgt.ptpGood) rfl (evt_mgt_ptpGood _ _ _ _)
theorem locked_ptpRate : (locked s).mgt.ptpRate = s.mgt.ptpRate := keeps_ite (·.mgt.ptpRate) rfl (evt_mgt_ptpRate _ _ _ _)

theorem getF_locked : getF (locked s) Fld.MGT_STATUS_PTP = 2 := by
  have hset : getF (setF Fld.MGT_STATUS_PTP 2 s) Fld.MGT_STATUS_PTP = 2 := getF_setF_same Fld.MGT_STATUS_PTP 2 s (by decide) (by decide)
  exact keeps_ite (getF · Fld.MGT_STATUS_PTP) hset ((getF_evt (by decide) (by decide) _ _ _).trans hset)

theorem flag_locked {s : State} (h : getF s Fld.MGT_STATUS_PTP ≠ 2) : flag (locked s) Fld.MGT_EVT_PTP_LOCKED = true := by
  rw [locked, if_neg h]
  exact flag_evt_mgtEvt rfl (by decide) (by decide) rfl _ _ _

end

theorem getF_slewed (ofs : Int) (s : State) : getF (slewed ofs (syncShown ofs s)) Fld.MGT_STATUS_PTP = getF s Fld.MGT_STATUS_PTP :=
  (getF_bump_ne (by decide) _).trans (getF_setReg_ne (by decide) _ _)

theorem completes_ptpSync_slew {s : State} (hn : onNet s) {ofs : Int} (hlo : -1000000 ≤ ofs) (hhi : ofs ≤ 1000000) :
    completes (.ptpSync ofs) s (fun t => t.pwr = s.pwr ∧ -500 ≤ t.mgt.ptpRate ∧ t.mgt.ptpRate ≤ 500 ∧
      t.mgt.ptpGood = (if -1000 ≤ ofs ∧ ofs ≤ 1000 then min 16 (s.mgt.ptpGood + 1) else 0) ∧
      getF t Fld.MGT_STATUS_PTP = (if -1000 ≤ ofs ∧ ofs ≤ 1000 ∧ 15 ≤ s.mgt.ptpGood then 2 else 1) ∧
      (-1000 ≤ ofs → ofs ≤ 1000 → 15 ≤ s.mgt.ptpGood → getF s Fld.MGT_STATUS_PTP ≠ 2 → flag t Fld.MGT_EVT_PTP_LOCKED = true)) := by
  have hbounds := slewRate_bounds (syncShown ofs s)
  by_cases h16 : goodAfter ofs s = 16
  · have heff := (ptpSyncEff_slew hn hlo hhi).trans (if_pos h16)
    refine completes_of_done (congrArg (done s) heff) ⟨?_, ?_, ?_, ?_, ?_, fun _ _ _ h2 => ?_⟩
    · rw [finish_pwr, locked_pwr]; rfl
    · rw [finish_mgt, locked_ptpRate]; exact hbounds.1
    · rw [finish_mgt, locked_ptpRate]; exact hbounds.2
    · rw [finish_mgt, locked_ptpGood]; rfl
    · rw [getF_finish, getF_locked, if_pos (goodAfter_eq_sixteen.1 h16)]
    · rw [flag_finish]
      exact flag_locked (by rwa [getF_slewed])
  · have heff := (ptpSyncEff_slew hn hlo hhi).trans (if_neg h16)
    refine completes_of_done (congrArg (done s) heff) ⟨?_, ?_, ?_, ?_, ?_, fun h1 h2 h3 _ => ?_⟩
    · rw [finish_pwr]; rfl
    · rw [finish_mgt]; exact hbounds.1
    · rw [finish_mgt]; exact hbounds.2
    · rw [finish_mgt]; rfl
    · rw [getF_finish, if_neg (fun h => h16 (goodAfter_eq_sixteen.2 h))]
      exact getF_setF_same Fld.MGT_STATUS_PTP 1 _ (by decide) (by decide)
    · exact absurd (goodAfter_eq_sixteen.2 ⟨h1, h2, h3⟩) h16

theorem completes_ptpLost {s : State} (hp : getF s Fld.MGT_STATUS_PTP ≠ 0) :
    completes .ptpLost s (fun t => getF t Fld.MGT_STATUS_PTP = 0 ∧ flag t Fld.MGT_EVT_PTP_LOST = true ∧
      t.mgt.ptpGood = 0 ∧ t.mgt.ptpRate = 0 ∧ t.pwr = s.pwr) := by
  have heff : ptpLostEff s = evt Fld.MGT_EVT_PTP_LOST noUnit [⟨4, (getReg (setF Fld.MGT_STATUS_PTP 0 s) Reg.MGT_PTP_OFS).toNat⟩]
      (modMgt (fun g => { g with ptpGood := 0, ptpRate := 0 }) (setF Fld.MGT_STATUS_PTP 0 s)) := if_neg hp
  refine completes_of_done (congrArg (done s) heff) ⟨?shown, ?event, by simp, by simp, by simp⟩
  case shown =>
    rw [getF_finish, getF_evt (by decide) (by decide)]
    exact getF_setF_same Fld.MGT_STATUS_PTP 0 s (by decide) (by decide)
  case event => exact (flag_finish s _ _).trans (flag_evt_mgtEvt rfl (by decide) (by decide) rfl _ _ _)

/-! ### The link and the addresses (R62, R514) -/

theorem completes_linkChange {s : State} {up : Bool} (hs : 2 ≤ stage s) (hl : flag s Fld.MGT_STATUS_LINK ≠ up) :
    completes (.sgmiiLinkChange up) s (fun t => flag t Fld.MGT_STATUS_LINK = up ∧ flag t Fld.MGT_EVT_LINK_CHANGE = true) := by
  have heff : sgmiiEff up s = evt Fld.MGT_EVT_LINK_CHANGE noUnit [] (setFlag Fld.MGT_STATUS_LINK up s) :=
    if_neg (by simp [hl]; omega)
  refine completes_of_done (congrArg (done s) heff) ⟨?_, ?_⟩
  · rw [flag_finish, flag_evt (by decide) (by decide)]
    exact flag_setFlag_same Fld.MGT_STATUS_LINK up s (by decide) (by decide)
  · exact (flag_finish s _ _).trans (flag_evt_mgtEvt rfl (by decide) (by decide) rfl _ _ _)

/-- What writes of distinct registers leave in each of them. -/
theorem getReg_forEach_setReg_mem {α : Type} [DecidableEq α] {g : α → Nat} (hg : Function.Injective g) (v : α → Word) {k : α} :
    ∀ (l : List α) (s : State), k ∈ l → getReg (forEach (fun k s => setReg (g k) (v k) s) l s) (g k) = v k
  | [], _, h => absurd h List.not_mem_nil
  | j :: js, s, h => by
    by_cases hjs : k ∈ js
    · exact getReg_forEach_setReg_mem hg v js _ hjs
    · have hkj : k = j := (List.mem_cons.1 h).resolve_right hjs
      have hne : ∀ i ∈ js, g i ≠ g k := fun i hi e => hjs (hg e ▸ hi)
      rw [forEach, getReg_forEach_setReg_ne v js _ hne, ← hkj, getReg_setReg_same]

theorem getReg_putIpv4 (a : Nat) (s : State) : getReg (putIpv4 a s) Reg.MGT_IPV4 = BitVec.ofNat 32 a := by
  rw [putIpv4, getReg_setFlag_ne (by decide), getReg_setReg_same]

theorem flag_putIpv4 (a : Nat) (s : State) : flag (putIpv4 a s) Fld.MGT_STATUS_IPV4_OK = decide (a ≠ 0) :=
  flag_setFlag_same Fld.MGT_STATUS_IPV4_OK _ _ (by decide) (by decide)

theorem getReg_putIpv6 (a : List Byte) (s : State) {i : Nat} (hi : i < 4) :
    getReg (putIpv6 a s) (Reg.MGT_IPV6 + 4 * i) = BitVec.ofNat 32 (leAt a (4 * i) 4) := by
  have hne : Reg.MGT_STATUS ≠ Reg.MGT_IPV6 + 4 * i := by simp only [Reg.MGT_STATUS, Reg.MGT_IPV6]; omega
  have hinj : Function.Injective (fun i => Reg.MGT_IPV6 + 4 * i) := fun x y h => by dsimp only at h; omega
  have hmem : i ∈ [0, 1, 2, 3] := by simp; omega
  rw [putIpv6, getReg_setFlag_ne (f := Fld.MGT_STATUS_IPV6_OK) hne]
  exact getReg_forEach_setReg_mem hinj (fun i => BitVec.ofNat 32 (leAt a (4 * i) 4)) _ s hmem

theorem addrEvt_eq (s : State) : ∃ is, addrEvt s = evt Fld.MGT_EVT_ADDR_CHANGE noUnit is s := ⟨_, rfl⟩

theorem getReg_addrEvt {off : Nat} (hlog : off ∉ logRegs) (s : State) : getReg (addrEvt s) off = getReg s off := by
  obtain ⟨is, he⟩ := addrEvt_eq s
  have hevt : Fld.MGT_EVT_ADDR_CHANGE.off ≠ off := fun e => hlog (e ▸ by decide)
  rw [he, getReg_evt hlog hevt]

theorem flag_addrEvt (s : State) : flag (addrEvt s) Fld.MGT_EVT_ADDR_CHANGE = true := by
  obtain ⟨is, he⟩ := addrEvt_eq s
  rw [he]
  exact flag_evt_mgtEvt rfl (by decide) (by decide) rfl _ _ _

theorem completes_dhcp {s : State} (hp : portOn s = true) (h0 : bit (leAt s.mgt.net 2 1) 0 = true)
    (h1 : bit (leAt s.mgt.net 2 1) 1 = true) (x : List Byte) :
    completes (.addrChange false x) s (fun t => getReg t Reg.MGT_IPV4 = BitVec.ofNat 32 (leAt x 0 4) ∧
      flag t Fld.MGT_STATUS_IPV4_OK = decide (leAt x 0 4 ≠ 0) ∧ flag t Fld.MGT_EVT_ADDR_CHANGE = true) := by
  have heff : addrChangeEff false x s = addrEvt (putIpv4 (leAt x 0 4) s) := by simp [addrChangeEff, hp, h0, h1]
  refine completes_of_done (congrArg (done s) heff) ⟨?_, ?_, ?_⟩
  · rw [getReg_finish, getReg_addrEvt (by decide), getReg_putIpv4]
  · rw [flag_finish, ← flag_putIpv4 (leAt x 0 4) s]
    exact flag_of_getF (getF_of_getReg (getReg_addrEvt (by decide) _))
  · exact (flag_finish s _ _).trans (flag_addrEvt _)

theorem completes_slaac {s : State} (hp : portOn s = true) (h2 : bit (leAt s.mgt.net 2 1) 2 = true)
    (h3 : bit (leAt s.mgt.net 2 1) 3 = true) (x : List Byte) :
    completes (.addrChange true x) s (fun t =>
      (∀ i < 4, getReg t (Reg.MGT_IPV6 + 4 * i) = BitVec.ofNat 32 (leAt x (4 * i) 4)) ∧ flag t Fld.MGT_EVT_ADDR_CHANGE = true) := by
  have heff : addrChangeEff true x s = addrEvt (putIpv6 x s) := by simp [addrChangeEff, hp, h2, h3]
  refine completes_of_done (congrArg (done s) heff) ⟨fun i hi => ?_, (flag_finish s _ _).trans (flag_addrEvt _)⟩
  have hlog : Reg.MGT_IPV6 + 4 * i ∉ logRegs := by
    simp only [logRegs, Reg.MGT_IPV6, Reg.MGT_LOG_WR_LO, Reg.MGT_CNT, Reg.MGT_EVT, Reg.HQ_CNT, List.mem_cons, List.not_mem_nil, or_false]
    omega
  rw [getReg_finish, getReg_addrEvt hlog, getReg_putIpv6 x s hi]

/-! ### The log window (R520) -/

theorem get64_set64 {v : Nat} (hv : v < 0x10000000000000000) (lo : Nat) (s : State) : get64 (set64 lo v s) lo = v := by
  have hne : lo + 4 ≠ lo := by omega
  simp only [get64, set64, getReg_setReg_same, getReg_setReg_ne hne, BitVec.toNat_ofNat]
  omega

/-- The log's vector waits for a signal: EN is set, it is armed, and MGT_LOG_RD is below MGT_LOG_WR. -/
def logDue (s : State) : Bool :=
  flag s Fld.MGT_LOG_VEC_EN && s.mgt.logArmed && decide (get64 s Reg.MGT_LOG_RD_LO < get64 s Reg.MGT_LOG_WR_LO)

theorem logSignal_armed (s : State) : (logSignal s).mgt.logArmed = (s.mgt.logArmed && !logDue s) := by
  unfold logSignal
  change (if logDue s = true then _ else s).mgt.logArmed = _
  by_cases h : logDue s = true
  · rw [if_pos h, h, Bool.not_true, Bool.and_false]
    exact keeps_ite (fun t : State => t.mgt.logArmed) rfl (keeps_ite (fun t : State => t.mgt.logArmed) rfl rfl)
  · rw [if_neg h]
    simp [h]

theorem completes_logRdWrite {s : State} {v : Nat} (hserved : sideServed s Reg.MGT_LOG_RD_HI = true) (hbar : bar0Served s = 2)
    (hv : v < 0x10000000000000000) :
    completes (.mgtLogRdWrite v) s (fun t => get64 t Reg.MGT_LOG_RD_LO = v ∧
      t.mgt.logArmed = !(flag s Fld.MGT_LOG_VEC_EN && decide (v < get64 s Reg.MGT_LOG_WR_LO))) := by
  have heff : served Reg.MGT_LOG_RD_HI (logRdEff v) s = logRdWritten (set64 Reg.MGT_LOG_RD_LO v s) := by
    simp [served, hserved, logRdEff, hbar]
  have hother {off : Nat} (hlo : Reg.MGT_LOG_RD_LO ≠ off) (hhi : Reg.MGT_LOG_RD_LO + 4 ≠ off) :
      getReg (set64 Reg.MGT_LOG_RD_LO v s) off = getReg s off := getReg_set64_ne hlo hhi v s
  have hen : flag (set64 Reg.MGT_LOG_RD_LO v s) Fld.MGT_LOG_VEC_EN = flag s Fld.MGT_LOG_VEC_EN :=
    flag_of_getF (getF_of_getReg (hother (by decide) (by decide)))
  have hwr : get64 (set64 Reg.MGT_LOG_RD_LO v s) Reg.MGT_LOG_WR_LO = get64 s Reg.MGT_LOG_WR_LO := by
    simp only [get64, hother (off := Reg.MGT_LOG_WR_LO) (by decide) (by decide),
      hother (off := Reg.MGT_LOG_WR_LO + 4) (by decide) (by decide)]
  refine completes_of_done (congrArg (done s) heff) ⟨?selected, ?armed⟩
  case selected =>
    rw [get64_finish, logRdWritten, get64, getReg_logSignal (by decide), getReg_logSignal (by decide)]
    exact get64_set64 hv _ s
  case armed =>
    rw [finish_mgt, logRdWritten, logSignal_armed, Bool.true_and, ← hen, ← hwr]
    have hrd := get64_set64 hv Reg.MGT_LOG_RD_LO s
    simp only [logDue, Bool.and_true]
    exact congrArg (fun n => !(flag (set64 Reg.MGT_LOG_RD_LO v s) Fld.MGT_LOG_VEC_EN &&
      decide (n < get64 (set64 Reg.MGT_LOG_RD_LO v s) Reg.MGT_LOG_WR_LO))) hrd

/-- Settles O51: the flags of MGT_EVT outlast the events that they raise, whose log touches LOG_WRAP alone. -/
theorem clockAndPortEvents : Obligations.ClockAndPortEvents := by
  unfold Obligations.ClockAndPortEvents
  intro s
  exact ⟨fun ofs hn => ⟨fun ho => completes_ptpSync_step hn ho, fun hlo hhi => completes_ptpSync_slew hn hlo hhi⟩,
    fun hp => completes_ptpLost hp, fun up hs hl => completes_linkChange hs hl,
    fun x hp => ⟨fun h0 h1 _ => completes_dhcp hp h0 h1 x, fun h2 h3 _ => completes_slaac hp h2 h3 x⟩,
    fun v hserved hbar hv => completes_logRdWrite hserved hbar hv⟩

end Sys2Proof.Proofs
end

section
/-! The state-changing messages of the management port (R70, R71, R477, R502, R514 to R516). -/

namespace Sys2Proof.Proofs

open Sys2Proof Sys2Proof.Machine Sys2Proof.Safety

/-! ### A message that reaches its action (R514 to R516) -/

/-- A message is counted as it arrives. -/
def heard (s : State) : State := bump Reg.MGT_CNT 0 s

theorem getReg_heard {off : Nat} (h : Reg.MGT_CNT ≠ off) (s : State) : getReg (heard s) off = getReg s off :=
  getReg_bump_ne 0 h s

theorem getF_heard {f : Fld} (h : Reg.MGT_CNT ≠ f.off) (s : State) : getF (heard s) f = getF s f := getF_of_getReg (getReg_heard h s)

theorem flag_heard {f : Fld} (h : Reg.MGT_CNT ≠ f.off) (s : State) : flag (heard s) f = flag s f := flag_of_getF (getF_heard h s)

@[simp] theorem heard_img (s : State) : (heard s).img = s.img := rfl
@[simp] theorem heard_unt (s : State) : (heard s).unt = s.unt := rfl
@[simp] theorem heard_mgt (s : State) : (heard s).mgt = s.mgt := rfl
@[simp] theorem heard_out (s : State) : (heard s).out = s.out := rfl
@[simp] theorem stage_heard (s : State) : stage (heard s) = stage s := stage_of_getReg (getReg_heard (by decide) s)
@[simp] theorem halted_heard (s : State) : halted (heard s) = halted s := halted_of_getReg (getReg_heard (by decide) s)
@[simp] theorem pairEn_heard (s : State) : pairEn (heard s) = pairEn s := pairEn_of_getReg (getReg_heard (by decide) s)
@[simp] theorem isOwner_heard (s : State) : isOwner (heard s) = isOwner s := flag_heard (by decide) s

/-- A station's message gets through an enabled port whose link is up. -/
theorem onPort_onNet {s : State} (h : onNet s) (a q : Nat) (f : State → State) : onPort (.station a q) f s = f (heard s) := by
  obtain ⟨hport, hlink⟩ := h
  simp [onPort, hport, hlink, heard]

/-- A message that may change state still may once it is counted. -/
theorem mayChange_heard {s : State} {a q reqId : Nat} (h : mayChange s a q reqId) :
    storedFor (heard s) (.station a q) reqId = none ∧ mayControl (heard s) (.station a q) = true ∧
      ¬ 16 ≤ runningReqs (heard s) := by
  obtain ⟨-, hnew, hperm, hrun⟩ := h
  exact ⟨hnew, (flag_heard (by decide) s).trans hperm, Nat.not_le.2 hrun⟩

/-- Types that are served now: those served early, and all of them in service. -/
def servedNow (s : State) (typ : Nat) : Prop := servedEarly typ = true ∨ inService s

theorem closed_heard {s : State} {typ : Nat} (h : servedNow s typ) :
    (!servedEarly typ && (decide (stage (heard s) ≠ 7) || halted (heard s))) = false := by
  rcases h with h | ⟨hstage, hhalt⟩
  · simp [h]
  · simp [hstage, hhalt]

/-- A response to a station, kept for its repeats. -/
def responded (a q typ reqId status : Nat) (p : List Byte) (s : State) : State :=
  emit (.dmp a q typ reqId 1 status p 0) (storeAnswer a q reqId typ (some (status, p)) s)

theorem answerKept_station {status : Nat} (h : status ≠ notPermitted ∧ status ≠ dmpBusy) (a q typ reqId : Nat) (p : List Byte)
    (s : State) : answerKept (.station a q) typ reqId status p s = responded a q typ reqId status p s := by
  obtain ⟨hperm, hbusy⟩ := h
  simp [answerKept, reply, hperm, hbusy, keepAnswer, dmpAnswer, responded]

section
variable {s t : State} {a q reqId typ : Nat} {act : State → Option (Nat × List Byte) × State} (hm : mayChange s a q reqId)
  (ht : changesState typ = true) (hs : servedNow s typ)
include hm ht hs

theorem serveMsg_answered {status : Nat} {p : List Byte} (hact : act (heard s) = (some (status, p), t))
    (hst : status ≠ notPermitted ∧ status ≠ dmpBusy) :
    onPort (.station a q) (serveMsg (.station a q) typ reqId act) s = responded a q typ reqId status p t := by
  obtain ⟨hnew, hperm, hrun⟩ := mayChange_heard hm
  rw [onPort_onNet hm.1, ← answerKept_station hst]
  unfold serveMsg
  simp only [ht, hnew, closed_heard hs, hperm, hrun, hact]
  rfl

theorem serveMsg_running (hact : act (heard s) = (none, t)) :
    onPort (.station a q) (serveMsg (.station a q) typ reqId act) s = storeAnswer a q reqId typ none t := by
  obtain ⟨hnew, hperm, hrun⟩ := mayChange_heard hm
  rw [onPort_onNet hm.1]
  unfold serveMsg
  simp only [ht, hnew, closed_heard hs, hperm, hrun, hact]
  rfl

end

/-! ### The stored responses (R516) -/

section
variable (a q reqId typ : Nat) (ans : Option (Nat × List Byte)) (s : State)

@[simp] theorem storeAnswer_unt : (storeAnswer a q reqId typ ans s).unt = s.unt := rfl
@[simp] theorem storeAnswer_out : (storeAnswer a q reqId typ ans s).out = s.out := rfl

/-- The newest response is the one that a repeat finds. -/
theorem storedFor_storeAnswer : storedFor (storeAnswer a q reqId typ ans s) (.station a q) reqId =
    some { addr := a, port := q, reqId := reqId, typ := typ, answer := ans } := by
  have hkept {l : List Stored} (hl : ∀ x ∈ l, (!(decide (x.addr = a) && decide (x.port = q) && decide (x.reqId = reqId))) = true) :
      l.find? (fun x => x.addr == a && x.port == q && x.reqId == reqId) = none := by
    refine List.find?_eq_none.2 fun x hx hsame => ?_
    simp only [Bool.and_eq_true, beq_iff_eq] at hsame
    simpa [hsame] using hl x hx
  simp only [storedFor, storeAnswer, List.find?_append]
  rw [hkept]
  · simp
  · intro x hx
    have hmem : x ∈ s.mgt.stored.filter (fun x => !(decide (x.addr = a) && decide (x.port = q) && decide (x.reqId = reqId))) := by
      split at hx
      · exact List.mem_of_mem_drop hx
      · exact hx
    exact (List.mem_filter.1 hmem).2

end

theorem storedFor_congr {s t : State} (h : t.mgt = s.mgt) (m : MsgFrom) (reqId : Nat) : storedFor t m reqId = storedFor s m reqId := by
  cases m <;> simp [storedFor, h]

section
variable (a q typ reqId status : Nat) (p : List Byte) (s : State)

@[simp] theorem responded_img : (responded a q typ reqId status p s).img = s.img := rfl
@[simp] theorem responded_unt : (responded a q typ reqId status p s).unt = s.unt := rfl
@[simp] theorem responded_policy : (responded a q typ reqId status p s).mgt.policy = s.mgt.policy := rfl
@[simp] theorem responded_net : (responded a q typ reqId status p s).mgt.net = s.mgt.net := rfl
@[simp] theorem responded_netPending : (responded a q typ reqId status p s).mgt.netPending = s.mgt.netPending := rfl
@[simp] theorem responded_out : (responded a q typ reqId status p s).out = s.out ++ [.dmp a q typ reqId 1 status p 0] := rfl

theorem mem_finish_responded_out (u : State) :
    ∃ p', .dmp a q typ reqId 1 status p' 0 ∈ (finish u (responded a q typ reqId status p s)).out := by
  refine ⟨p, ?_⟩
  rw [finish_out, responded_out]
  exact List.mem_append_right _ (List.mem_singleton_self _)

theorem storedFor_responded : storedFor (responded a q typ reqId status p s) (.station a q) reqId =
    some { addr := a, port := q, reqId := reqId, typ := typ, answer := some (status, p) } :=
  storedFor_storeAnswer a q reqId typ _ s

end

theorem finish_responded_regs {a q typ reqId status : Nat} {p : List Byte} {s u : State} :
    (finish u (responded a q typ reqId status p s)).regs = s.regs := finish_regs u _

/-- INVALID_FIELD is neither of the two statuses that are counted. -/
theorem dmpInvalid_uncounted : dmpInvalid ≠ notPermitted ∧ dmpInvalid ≠ dmpBusy := by decide

theorem success_uncounted : 0 ≠ notPermitted ∧ 0 ≠ dmpBusy := by decide

/-! ### UNIT_REQUEST, CALIBRATE and SELF_TEST (R477, R502) -/

/-- The kind of a request by its opcode. -/
def kindOf (op : Nat) : ReqKind := if op = opUnitRequest then .request else if op = opCalibrate then .calibrate else .selfTest

theorem dmpRows_row {a q reqId u code epoch : Nat} {e : Instr × Nat × Nat × ReqKind} (he : e ∈ dmpRows a q reqId u code epoch)
    (s : State) : exec e.1 s = done s (dmpUnitEff (.station a q) e.2.1 e.2.2.1 reqId u code epoch s) ∧ e.2.2.2 = kindOf e.2.2.1 ∧
      changesState e.2.1 = true := by
  simp only [dmpRows, List.mem_cons, List.not_mem_nil, or_false] at he
  rcases he with rfl | rfl | rfl
  · exact ⟨rfl, rfl, rfl⟩
  · exact ⟨rfl, rfl, rfl⟩
  · exact ⟨rfl, rfl, rfl⟩

theorem unitReqBad_congr {s t : State} (himg : t.img = s.img) (hpair : pairEn t = pairEn s) (op u code epoch : Nat) :
    unitReqBad t op u code epoch = unitReqBad s op u code epoch := by
  have hbound : bound t u = bound s u := by simp only [bound, carMask, strandMask, himg, hpair]
  simp only [unitReqBad, hbound]

theorem mgmtReq_bad {s : State} {op u code epoch : Nat} (hbad : (unitReqBad s op u code epoch).isSome = true) (m : MsgFrom)
    (typ reqId : Nat) : mgmtReq m typ reqId op u code epoch s = (some (dmpInvalid, []), s) := if_pos hbad

theorem mgmtReq_queued {s : State} {op u code epoch : Nat} (hok : (unitReqBad s op u code epoch).isNone = true)
    (howner : (pairEn s && !isOwner s) = false) (a q typ reqId : Nat) :
    mgmtReq (.station a q) typ reqId op u code epoch s =
      (none, withRequests [{ kind := kindOf op, unit := u, code := code, epoch := epoch, sender := .dmp a q reqId typ }] s) := by
  have hgood : ¬ (unitReqBad s op u code epoch).isSome = true := by
    rw [Option.isNone_iff_eq_none] at hok
    simp [hok]
  unfold mgmtReq
  rw [if_neg hgood]
  dsimp only
  rw [howner]
  rfl

section
variable {s : State} {a q reqId u code epoch : Nat} {e : Instr × Nat × Nat × ReqKind} (he : e ∈ dmpRows a q reqId u code epoch)
  (hm : mayChange s a q reqId) (hs : inService s)
include he hm hs

theorem completes_unitMessage_queued (hok : (unitReqBad s e.2.2.1 u code epoch).isNone = true)
    (howner : (pairEn s && !isOwner s) = false) :
    completes e.1 s (fun t =>
      t.unt.waiting = s.unt.waiting ++ [{ kind := e.2.2.2, unit := u, code := code, epoch := epoch, sender := .dmp a q reqId e.2.1 }] ∧
      (storedFor t (.station a q) reqId).map (·.answer) = some none ∧ t.out = s.out) := by
  obtain ⟨hexec, hkind, htyp⟩ := dmpRows_row he s
  rw [← unitReqBad_congr (heard_img s) (pairEn_heard s)] at hok
  rw [← pairEn_heard s, ← isOwner_heard s] at howner
  have heff := serveMsg_running hm htyp (.inr hs) (mgmtReq_queued hok howner a q e.2.1 reqId)
  refine completes_of_done (hexec.trans (congrArg (done s) heff)) ⟨?_, ?_, ?_⟩
  · simp [withRequests, hkind]
  · rw [storedFor_congr (finish_mgt s _), storedFor_storeAnswer]
    rfl
  · simp [withRequests]

theorem completes_unitMessage_bad (hbad : (unitReqBad s e.2.2.1 u code epoch).isSome = true) :
    completes e.1 s (fun t => answered s t a q e.2.1 reqId 0x20 [] ∧ t.unt = s.unt ∧
      (storedFor t (.station a q) reqId).map (·.answer) = some (some (0x20, []))) := by
  obtain ⟨hexec, -, htyp⟩ := dmpRows_row he s
  rw [← unitReqBad_congr (heard_img s) (pairEn_heard s)] at hbad
  have heff := serveMsg_answered hm htyp (.inr hs) (mgmtReq_bad hbad (.station a q) e.2.1 reqId) dmpInvalid_uncounted
  refine completes_of_done (hexec.trans (congrArg (done s) heff)) ⟨?_, ?_, ?_⟩
  · simp [answered, dmpInvalid]
  · simp
  · rw [storedFor_congr (finish_mgt s _), storedFor_responded]
    rfl

end

/-! ### POLICY_SET (R515) -/

theorem policyFits_heard (s : State) (id : Nat) (v : Int) : policyFits (heard s) id v = policyFits s id v := by
  have hmem : memGiB (heard s) = memGiB s := by rw [memGiB, memGiB, getReg_heard (by decide)]
  simp only [policyFits, hmem]
  rfl

/-- The state with a policy value. -/
def withPolicy (id : Nat) (v : Int) (s : State) : State :=
  modMgt (fun g => { g with policy := Tbl.put (policyDefault id) id v g.policy }) s

theorem mirroring_withPolicy_heard (id : Nat) (v : Int) (s : State) : mirroring (withPolicy id v (heard s)) = mirroring s := by
  have hpair : pairEn (withPolicy id v (heard s)) = pairEn s := pairEn_heard s
  have howner : flag (withPolicy id v (heard s)) Fld.GLB_STATUS_OWNER = flag s Fld.GLB_STATUS_OWNER := isOwner_heard s
  simp only [mirroring, hpair, howner]
  rfl

theorem policyVal_withPolicy_same (id : Nat) (v : Int) (s : State) : policyVal (withPolicy id v s) id = v := Tbl.get_put_same _ _ _ _

theorem policyVal_withPolicy_ne {id j : Nat} (h : j ≠ id) (v : Int) (s : State) : policyVal (withPolicy id v s) j = policyVal s j :=
  Tbl.get_put_ne _ _ _ (Ne.symm h) _

theorem policyVal_congr {s t : State} (h : t.mgt.policy = s.mgt.policy) (id : Nat) : policyVal t id = policyVal s id := by
  simp [policyVal, h]

section
variable {s : State} {a q reqId id : Nat} {v : Int} (hm : mayChange s a q reqId) (hs : inService s)
include hm hs

theorem policySetEff_fits (hf : policyFits s id v = true) (hmir : mirroring s = false) :
    policySetEff (.station a q) reqId id v s =
      responded a q 0x09 reqId 0 (leBytes 2 id ++ leBytes 2 0 ++ leBytes 4 (unsigned 32 v)) (withPolicy id v (heard s)) := by
  refine serveMsg_answered hm (by decide) (.inr hs) ?_ success_uncounted
  rw [← policyFits_heard] at hf
  have hsolo := (mirroring_withPolicy_heard id v s).trans hmir
  have hbytes : policyBytes (withPolicy id v (heard s)) id = leBytes 2 id ++ leBytes 2 0 ++ leBytes 4 (unsigned 32 v) := by
    rw [policyBytes, policyVal_withPolicy_same]
  refine (if_pos hf).trans ?_
  rw [← hbytes]
  exact congrArg (fun b => success (policyBytes (withPolicy id v (heard s)) id)
    (if b = true then mirror (.policy id) (withPolicy id v (heard s)) else withPolicy id v (heard s))) hsolo

theorem policySetEff_unfit (hf : policyFits s id v = false) :
    policySetEff (.station a q) reqId id v s = responded a q 0x09 reqId dmpInvalid [] (heard s) := by
  refine serveMsg_answered hm (by decide) (.inr hs) ?_ dmpInvalid_uncounted
  exact if_neg (by rw [policyFits_heard, hf]; decide)

theorem completes_policySet_fits (hf : policyFits s id v = true) (hmir : mirroring s = false) :
    completes (.policySet (.station a q) reqId id v) s (fun t => policyVal t id = v ∧
      (∀ j, j ≠ id → policyVal t j = policyVal s j) ∧
      answered s t a q 0x09 reqId 0 (leBytes 2 id ++ leBytes 2 0 ++ leBytes 4 (unsigned 32 v))) := by
  refine completes_of_done (congrArg (done s) (policySetEff_fits hm hs hf hmir)) ⟨?_, fun j hj => ?_, ?_⟩
  · rw [policyVal_congr (s := withPolicy id v (heard s)) (by simp), policyVal_withPolicy_same]
  · rw [policyVal_congr (s := withPolicy id v (heard s)) (by simp), policyVal_withPolicy_ne hj]
    rfl
  · simp [answered, withPolicy]

theorem completes_policySet_unfit (hf : policyFits s id v = false) :
    completes (.policySet (.station a q) reqId id v) s (fun t => t.mgt.policy = s.mgt.policy ∧
      answered s t a q 0x09 reqId 0x20 []) :=
  completes_of_done (congrArg (done s) (policySetEff_unfit hm hs hf)) ⟨by simp, by simp [answered, dmpInvalid]⟩

/-! ### NET_SET and its apply (R514, R515) -/

theorem completes_netSet {b : List Byte} (hb : netFits b = true) :
    completes (.netSet (.station a q) reqId b) s (fun t =>
      t.mgt.netPending = some b ∧ t.mgt.net = s.mgt.net ∧ answered s t a q 0x0A reqId 0 []) := by
  have heff : netSetEff (.station a q) reqId b s =
      responded a q 0x0A reqId 0 [] (modMgt (fun g => { g with netPending := some b }) (heard s)) :=
    serveMsg_answered hm (by decide) (.inr hs) (if_pos hb) success_uncounted
  exact completes_of_done (congrArg (done s) heff) ⟨by simp, by simp, by simp [answered]⟩

end

section
variable (net : List Byte) (s : State)

theorem applyNet_net : (applyNet net s).mgt.net = net := by
  unfold applyNet
  exact keeps_ite (fun t : State => t.mgt.net) rfl rfl

theorem applyNet_netPending : (applyNet net s).mgt.netPending = s.mgt.netPending := by
  unfold applyNet
  exact keeps_ite (fun t : State => t.mgt.netPending) rfl rfl

theorem flag_applyNet_portOn :
    flag (applyNet net s) Fld.MGT_STATUS_PORT_ON = (bit (leAt net 2 1) 4 && decide (deckId s ≠ 0)) := by
  have hput4 (a : Nat) (s : State) : flag (putIpv4 a s) Fld.MGT_STATUS_PORT_ON = flag s Fld.MGT_STATUS_PORT_ON :=
    (flag_setFlag_ne (by decide) (by decide) _ _).trans (flag_of_getF (getF_setReg_ne (by decide) _ _))
  have hput6 (a : List Byte) (s : State) : flag (putIpv6 a s) Fld.MGT_STATUS_PORT_ON = flag s Fld.MGT_STATUS_PORT_ON :=
    (flag_setFlag_ne (by decide) (by decide) _ _).trans
      (flag_of_getF (getF_of_getReg (getReg_forEach_setReg_ne _ _ _ (by decide))))
  have hshown : flag (setFlag Fld.MGT_STATUS_PORT_ON (portOn (modMgt (fun m => { m with net := net }) s))
      (modMgt (fun m => { m with net := net }) s)) Fld.MGT_STATUS_PORT_ON = (bit (leAt net 2 1) 4 && decide (deckId s ≠ 0)) :=
    flag_setFlag_same Fld.MGT_STATUS_PORT_ON _ _ (by decide) (by decide)
  unfold applyNet
  refine keeps_ite (flag · Fld.MGT_STATUS_PORT_ON) ((hput6 _ _).trans ((hput4 _ _).trans hshown))
    ((flag_setF_ne (by decide) (by decide) _ _).trans ?_)
  exact (hput6 _ _).trans ((hput4 _ _).trans hshown)

end

theorem completes_netSetApply {s : State} {n : List Byte} (hn : s.mgt.netPending = some n) :
    completes .netSetApply s (fun t => t.mgt.net = n ∧ t.mgt.netPending = none ∧
      flag t Fld.MGT_STATUS_PORT_ON = (bit (leAt n 2 1) 4 && decide (deckId s ≠ 0))) := by
  have hnet (u : State) : (addrEvt u).mgt.net = u.mgt.net := evt_mgt_net _ _ _ _
  have hpending (u : State) : (addrEvt u).mgt.netPending = u.mgt.netPending := evt_mgt_netPending _ _ _ _
  have hport (u : State) : flag (addrEvt u) Fld.MGT_STATUS_PORT_ON = flag u Fld.MGT_STATUS_PORT_ON :=
    flag_of_getF (getF_of_getReg (getReg_addrEvt (by decide) u))
  refine completes_of_done (t := netApplyEff s) rfl ⟨?_, ?_, ?_⟩
  · rw [finish_mgt, netApplyEff, hn]
    exact keeps_ite (fun t : State => t.mgt.net) ((hnet _).trans (applyNet_net _ _)) (applyNet_net _ _)
  · rw [finish_mgt, netApplyEff, hn]
    exact keeps_ite (fun t : State => t.mgt.netPending) ((hpending _).trans (applyNet_netPending _ _)) (applyNet_netPending _ _)
  · rw [flag_finish, netApplyEff, hn]
    exact keeps_ite (flag · Fld.MGT_STATUS_PORT_ON) ((hport _).trans (flag_applyNet_portOn _ _)) (flag_applyNet_portOn _ _)

/-! ### Image transfer (R70, R71, R515) -/

theorem validate_heard (s : State) : validate (heard s).img.fuses (pairEn (heard s)) = validate s.img.fuses (pairEn s) := by simp

/-- IMG_STATUS and IMG_ERR show what is stored, so a count that is raised elsewhere leaves them. -/
theorem imgWords_heard (s : State) : imgWords (heard s) = imgWords s := by
  have hplain {off : Nat} (hoff : off = Reg.IMG_STATUS ∨ off = Reg.IMG_ERR) (t : State) : liveOf t off = none := by
    rcases hoff with rfl | rfl
    · rfl
    · rfl
  have hvalue {off : Nat} (hoff : off = Reg.IMG_STATUS ∨ off = Reg.IMG_ERR) : regValue (heard s) off = regValue s off := by
    have hkept : getReg (heard s) off = getReg s off := by
      rcases hoff with rfl | rfl
      · exact getReg_heard (by decide) s
      · exact getReg_heard (by decide) s
    simp only [regValue, hplain hoff, hkept]
  rw [imgWords, imgWords, hvalue (.inl rfl), hvalue (.inr rfl)]

section
variable {s : State} {a q reqId : Nat} (hm : mayChange s a q reqId)
include hm

theorem completes_imageBegin {size : Nat} (hop : s.img.op = .none ∨ transferOpen s = true) (hsize : size % 64 = 0)
    (hmin : 0x100 ≤ size) (hmax : size ≤ 0x800000) :
    completes (.imageBegin (.station a q) reqId size) s (fun t => t.img.op = .transfer false ∧
      t.img.staged = List.replicate size 0#8 ∧ t.img.transferSize = size ∧ t.img.received = [] ∧ t.img.stagedImage = none ∧
      getF t Fld.IMG_STATUS_STAGED_VALID = 0 ∧ answered s t a q 0x18 reqId 0 []) := by
  have hfree : ¬ (decide ((heard s).img.op ≠ .none) && !transferOpen (heard s)) = true := by
    rcases hop with h | h
    · simp [h]
    · have h' : transferOpen (heard s) = true := h
      simp [h']
  have hfits : ¬ (decide (size % 64 ≠ 0) || decide (size < 0x100) || decide (0x800000 < size)) = true := by simp; omega
  have heff : imageBeginEff (.station a q) reqId size s = responded a q 0x18 reqId 0 [] (setOp (.transfer false)
      (modImg (fun i => { i with staged := List.replicate size 0, transferSize := size, received := [] }) (clearStaged (heard s)))) :=
    serveMsg_answered hm (by decide) (.inl (by decide)) ((if_neg hfree).trans (if_neg hfits)) success_uncounted
  refine completes_of_done (congrArg (done s) heff) ⟨by simp, by simp, by simp, by simp, by simp, ?_, by simp [answered]⟩
  rw [getF_congr finish_responded_regs, getF_setOp_ne (by decide) (by decide)]
  exact getF_clearStaged (heard s)

theorem completes_imageData {off : Nat} {b : List Byte} (hopen : transferOpen s = true) (hoff : off < s.img.transferSize)
    (halign : off % 1024 = 0) (hlen : b.length = min 1024 (s.img.transferSize - off)) :
    completes (.imageData (.station a q) reqId off b) s (fun t => t.img.staged = patch s.img.staged off b ∧
      t.img.received = addNat off s.img.received ∧ t.img.op = s.img.op ∧ answered s t a q 0x19 reqId 0 []) := by
  have hopen' : transferOpen (heard s) = true := hopen
  have hplaced : ¬ (decide (off % 1024 ≠ 0) || decide (b.length ≠ min 1024 ((heard s).img.transferSize - off))) = true := by
    simp [halign, hlen]
  have heff : imageDataEff (.station a q) reqId off b s = responded a q 0x19 reqId 0 []
      (modImg (fun i => { i with staged := patch i.staged off b, received := addNat off i.received }) (heard s)) :=
    serveMsg_answered hm (by decide) (.inl (by decide))
      ((if_neg (by simp [hopen'])).trans ((if_neg (by simp [hopen', Nat.not_le.2 hoff])).trans (if_neg hplaced))) success_uncounted
  exact completes_of_done (congrArg (done s) heff) ⟨by simp, by simp, by simp, by simp [answered]⟩

theorem imageEndEff_whole (hopen : transferOpen s = true) (hwhole : transferWhole s = true) :
    imageEndEff (.station a q) reqId s = responded a q 0x1A reqId 0 (imgWords (validateStaged true s.img.staged (heard s)))
      (validateStaged true s.img.staged (heard s)) := by
  have hopen' : transferOpen (heard s) = true := hopen
  have hwhole' : transferWhole (heard s) = true := hwhole
  exact serveMsg_answered hm (by decide) (.inl (by decide)) ((if_neg (by simp [hopen'])).trans (if_neg (by simp [hwhole'])))
    success_uncounted

theorem completes_imageEnd_ok {i : Image} (hopen : transferOpen s = true) (hwhole : transferWhole s = true)
    (hv : validate s.img.fuses (pairEn s) s.img.staged = .ok i) :
    completes (.imageEnd (.station a q) reqId) s (fun t => t.img.op = .none ∧ t.img.stagedImage = some i ∧
      t.img.stagedByDmp = true ∧ getF t Fld.IMG_STATUS_STAGED_VALID = 1) := by
  rw [← validate_heard] at hv
  refine completes_of_done (congrArg (done s) (imageEndEff_whole hm hopen hwhole)) ⟨?_, ?_, ?_, ?_⟩
  · simp [validateStaged_op]
  · simp [validateStaged_ok_img hv]
  · simp [validateStaged_ok_img hv]
  · rw [getF_congr finish_responded_regs, validateStaged_ok_valid hv]

theorem completes_imageEnd_fail {code sec ofs : Nat} (hopen : transferOpen s = true) (hwhole : transferWhole s = true)
    (hv : validate s.img.fuses (pairEn s) s.img.staged = .fail code sec ofs) :
    completes (.imageEnd (.station a q) reqId) s (fun t => t.img.op = .none ∧ getF t Fld.IMG_ERR_CODE = code % 256 ∧
      flag t Fld.IMG_EVT_FETCH_FAIL = true) := by
  rw [← validate_heard] at hv
  refine completes_of_done (congrArg (done s) (imageEndEff_whole hm hopen hwhole)) ⟨?_, ?_, ?_⟩
  · simp [validateStaged_op]
  · rw [getF_congr finish_responded_regs, validateStaged_fail_code hv]
  · rw [flag_congr finish_responded_regs, validateStaged_fail_event hv]

theorem completes_imageEnd_partial (hopen : transferOpen s = true) (hpart : transferWhole s = false) :
    completes (.imageEnd (.station a q) reqId) s (fun t => t.img = s.img ∧
      answered s t a q 0x1A reqId Status.rangeOut.code (imgWords s)) := by
  have hopen' : transferOpen (heard s) = true := hopen
  have hpart' : transferWhole (heard s) = false := hpart
  have heff : imageEndEff (.station a q) reqId s =
      responded a q 0x1A reqId Status.rangeOut.code (imgWords (heard s)) (heard s) :=
    serveMsg_answered hm (by decide) (.inl (by decide)) ((if_neg (by simp [hopen'])).trans (if_pos (by simp [hpart']))) (by decide)
  rw [imgWords_heard] at heff
  exact completes_of_done (congrArg (done s) heff) ⟨by simp, by simp [answered]⟩

end

/-! ### IMAGE_CMD (R515) -/

/-- The state that a command of IMAGE_CMD meets: IMG_ERR holds a value that no failure records. -/
def errMarked (s : State) : State := setReg Reg.IMG_ERR 0xFFFFFFFF#32 (heard s)

theorem getF_errMarked {s : State} {f : Fld} (hc : Reg.MGT_CNT ≠ f.off) (he : Reg.IMG_ERR ≠ f.off) : getF (errMarked s) f = getF s f :=
  (getF_setReg_ne he _ _).trans (getF_heard hc s)

section
variable {s : State} {a q reqId : Nat} (hm : mayChange s a q reqId) (hh : halted s = false)
include hm hh

/-- A command that records no failure is answered with SUCCESS, and IMG_ERR is as before. -/
theorem imageCmdEff_success {cmd : Nat} (hlo : 2 ≤ cmd) (hhi : cmd ≤ 6)
    (herr : getReg (imageCommand cmd (errMarked s)) Reg.IMG_ERR = 0xFFFFFFFF#32) :
    imageCmdEff (.station a q) reqId cmd s =
      responded a q 0x1B reqId 0 (imgWords (setReg Reg.IMG_ERR (getReg s Reg.IMG_ERR) (imageCommand cmd (errMarked s))))
        (setReg Reg.IMG_ERR (getReg s Reg.IMG_ERR) (imageCommand cmd (errMarked s))) := by
  have hlisted : ¬ (decide (cmd < 2) || decide (6 < cmd)) = true := by simp; omega
  have hrunning : ¬ halted (heard s) = true := by simp [hh]
  rw [← getReg_heard (off := Reg.IMG_ERR) (by decide) s]
  exact serveMsg_answered hm (by decide) (.inl (by decide)) ((if_neg hlisted).trans ((if_neg hrunning).trans (if_pos herr)))
    success_uncounted

theorem completes_imageCmd_quiesce (hq : getF s Fld.IMG_STATUS_QSTATE = 0) :
    completes (.imageCmd (.station a q) reqId 2) s (fun t => getF t Fld.IMG_STATUS_QSTATE = 1 ∧
      getReg t Reg.IMG_ERR = getReg s Reg.IMG_ERR ∧ ∃ p, .dmp a q 0x1B reqId 1 0 p 0 ∈ t.out) := by
  have hq' : getF (errMarked s) Fld.IMG_STATUS_QSTATE = 0 := (getF_errMarked (by decide) (by decide)).trans hq
  have herr : getReg (quiesceEff (errMarked s)) Reg.IMG_ERR = 0xFFFFFFFF#32 := by
    rw [getReg_congr (quiesceEff_regs hq'), getReg_setF_ne (by decide)]
    exact getReg_setReg_same _ _ _
  refine completes_of_done (congrArg (done s) (imageCmdEff_success hm hh (by decide) (by decide) herr)) ⟨?_, ?_, mem_finish_responded_out _ _ _ _ _ _ _ _⟩
  · rw [getF_congr finish_responded_regs, getF_setReg_ne (by decide)]
    exact getF_quiesceEff hq'
  · rw [getReg_congr finish_responded_regs, getReg_setReg_same]

theorem completes_imageCmd_resume (hq : getF s Fld.IMG_STATUS_QSTATE = 2) :
    completes (.imageCmd (.station a q) reqId 3) s (fun t => getF t Fld.IMG_STATUS_QSTATE = 0 ∧
      t.unt.waiting = s.unt.waiting ++ s.img.quiesceTook.map (readyRequest s) ∧ ∃ p, .dmp a q 0x1B reqId 1 0 p 0 ∈ t.out) := by
  have hq' : getF (errMarked s) Fld.IMG_STATUS_QSTATE = 2 := (getF_errMarked (by decide) (by decide)).trans hq
  have herr : getReg (resumeEff (errMarked s)) Reg.IMG_ERR = 0xFFFFFFFF#32 := by
    rw [resumeEff_eq (.inr hq')]
    exact (getReg_setF_ne (f := Fld.IMG_STATUS_QSTATE) (by decide) _ _).trans (getReg_setReg_same _ _ _)
  refine completes_of_done (congrArg (done s) (imageCmdEff_success hm hh (by decide) (by decide) herr)) ⟨?_, ?_, mem_finish_responded_out _ _ _ _ _ _ _ _⟩
  · rw [getF_congr finish_responded_regs, getF_setReg_ne (by decide)]
    exact getF_resumeEff (.inr hq')
  · rw [finish_unt, responded_unt, setReg_unt]
    exact congrArg (·.unt.waiting) (resumeEff_eq (.inr hq'))

end

/-! ### Repeats, expiry and messages that fail their checks (R514 to R516) -/

theorem countedBy_bump {s t : State} {off i : Nat} (h : getReg t (off + 4 * i) = getReg (bump off i s) (off + 4 * i)) :
    countedBy s t (off + 4 * i) 1 := by
  rw [countedBy, h, bump, bumpBy, getReg_setReg_same, BitVec.toNat_ofNat]
  omega

section
variable (a q typ reqId flags status : Nat) (p : List Byte) (s : State)

theorem reply_station_out : (reply (.station a q) typ reqId flags status p s).out =
    s.out ++ [.dmp a q typ reqId (flags + 1) status p 0] := by
  unfold reply
  split <;> rfl

theorem reply_station_mgt : (reply (.station a q) typ reqId flags status p s).mgt = s.mgt := by
  unfold reply
  split <;> rfl

theorem getReg_reply_station_ne {off : Nat} (h : Reg.MGT_CNT + 4 * 3 ≠ off) :
    getReg (reply (.station a q) typ reqId flags status p s) off = getReg s off := by
  unfold reply
  split
  · exact getReg_bump_ne 3 h s
  · rfl

end

theorem completes_policySet_repeat {s : State} {a q reqId : Nat} {x : Stored} {status : Nat} {p : List Byte} (hn : onNet s)
    (hx : storedFor s (.station a q) reqId = some x) (hans : x.answer = some (status, p)) (id : Nat) (v : Int) :
    completes (.policySet (.station a q) reqId id v) s (fun t => t.mgt = s.mgt ∧ countedBy s t (Reg.MGT_CNT + 8) 1 ∧
      t.out = s.out ++ [.dmp a q 0x09 reqId 3 status p 0]) := by
  have hx' : storedFor (heard s) (.station a q) reqId = some x := hx
  have heff : policySetEff (.station a q) reqId id v s =
      reply (.station a q) 0x09 reqId 2 status p (bump Reg.MGT_CNT 2 (heard s)) := by
    rw [policySetEff, onPort_onNet hn]
    unfold serveMsg
    simp only [hx', hans]
    rfl
  refine completes_of_done (congrArg (done s) heff) ⟨?_, countedBy_bump (i := 2) ?_, ?_⟩
  · rw [finish_mgt, reply_station_mgt]
    rfl
  · rw [getReg_finish, getReg_reply_station_ne _ _ _ _ _ _ _ _ (by decide)]
    simp only [bump, bumpBy, getReg_setReg_same, getReg_heard (off := Reg.MGT_CNT + 4 * 2) (by decide)]
  · rw [finish_out, reply_station_out]
    rfl

theorem completes_messageDropped {s : State} {a q : Nat} {b : List Byte} (hn : onNet s) (hd : dropped s (.station a q) b = true) :
    completes (.dmpMessageDropped a q b) s (fun t => countedBy s t (Reg.MGT_CNT + 4) 1 ∧ t.out = s.out ∧ t.mgt = s.mgt) := by
  have heff : messageEff (.station a q) b s = bump Reg.MGT_CNT 1 (heard s) := (if_pos hd).trans (onPort_onNet hn a q _)
  refine completes_of_done (congrArg (done s) heff) ⟨countedBy_bump (i := 1) ?_, by simp, by simp⟩
  rw [getReg_finish]
  simp only [bump, bumpBy, getReg_setReg_same, getReg_heard (off := Reg.MGT_CNT + 4 * 1) (by decide)]

theorem completes_messageUnlisted {s : State} {a q : Nat} {b : List Byte} (hn : onNet s)
    (hd : dropped s (.station a q) b = false) (hl : typListed (leAt b 3 1) = false) :
    completes (.dmpMessageDropped a q b) s (fun t => answered s t a q (leAt b 3 1) (leAt b 8 4) 0x20 [] ∧ t.mgt = s.mgt) := by
  have heff : messageEff (.station a q) b s = reply (.station a q) (leAt b 3 1) (leAt b 8 4) 0 dmpInvalid [] (heard s) :=
    (if_neg (by simp [hd])).trans ((if_pos (by simp [hl])).trans (onPort_onNet hn a q _))
  refine completes_of_done (congrArg (done s) heff) ⟨?_, ?_⟩
  · rw [answered, finish_out, reply_station_out]
    rfl
  · rw [finish_mgt, reply_station_mgt, heard_mgt]

/-- Settles O49: a message that passes the checks of its serving comes to its action in the state that has counted it, and the
action's own case gives the response. -/
theorem managementChanges : Obligations.ManagementChanges := by
  unfold Obligations.ManagementChanges
  intro s a q reqId
  refine ⟨fun u code epoch e he hm hs => ⟨fun hok howner => completes_unitMessage_queued he hm hs hok howner,
      fun hbad => completes_unitMessage_bad he hm hs hbad⟩,
    fun id v hm hs => ⟨fun hf hmir => completes_policySet_fits hm hs hf hmir, fun hf => completes_policySet_unfit hm hs hf⟩,
    fun b hm hs hb => completes_netSet hm hs hb, fun n hn => completes_netSetApply hn,
    fun size hm hop hsize hmin hmax => completes_imageBegin hm hop hsize hmin hmax,
    fun off b hm hopen hoff halign hlen => completes_imageData hm hopen hoff halign hlen,
    fun hm hopen => ⟨fun hwhole => ?ended, fun hpart => completes_imageEnd_partial hm hopen hpart⟩,
    fun hm hh => ⟨fun hq => completes_imageCmd_quiesce hm hh hq, fun hq => completes_imageCmd_resume hm hh hq⟩,
    fun x status id p v hn hx hans => completes_policySet_repeat hn hx hans id v, ?expired,
    fun b hn => ⟨fun hd => completes_messageDropped hn hd, fun hd hl => completes_messageUnlisted hn hd hl⟩⟩
  case ended =>
    cases hv : validate s.img.fuses (pairEn s) s.img.staged with
    | ok i => exact completes_imageEnd_ok hm hopen hwhole hv
    | fail code sec ofs => exact completes_imageEnd_fail hm hopen hwhole hv
  case expired => exact completes_of_done (t := duplicateExpiryEff a q reqId s) rfl ⟨by rw [finish_mgt]; rfl, finish_regs s _, finish_out s _⟩

end Sys2Proof.Proofs
end

section
/-! The steps of a mount and the identification of an import disc (R114, R192, R500; Table 03-12): what they make of the disc
record and of the disc unit. -/

namespace Sys2Proof.Proofs

open Sys2Proof Sys2Proof.Machine Sys2Proof.Safety

/-! ### A change of a unit reaches import mode alone of the disc record (R192) -/

/-- The disc record but for import mode, which ends when the disc unit leaves READY. -/
def discRecord (s : State) : DiscState := { s.media.disc with importMode := false }

theorem step_discRecord (s : State) : (discRecord s).step = s.media.disc.step := rfl
theorem serial_discRecord (s : State) : (discRecord s).serial = s.media.disc.serial := rfl
theorem mounted_discRecord (s : State) : (discRecord s).mounted = s.media.disc.mounted := rfl

theorem discRecord_of_media {s t : State} (h : t.media = s.media) : discRecord t = discRecord s := by rw [discRecord, discRecord, h]

@[simp] theorem discRecord_setReg (off : Nat) (v : Word) (s : State) : discRecord (setReg off v s) = discRecord s := rfl
@[simp] theorem discRecord_setF (f : Fld) (v : Nat) (s : State) : discRecord (setF f v s) = discRecord s := rfl
@[simp] theorem discRecord_bump (off i : Nat) (s : State) : discRecord (bump off i s) = discRecord s := rfl
@[simp] theorem discRecord_modVol (v : Nat) (f : Volume → Volume) (s : State) : discRecord (modVol v f s) = discRecord s := rfl
@[simp] theorem discRecord_modWcar (c : Nat) (f : WriteCar → WriteCar) (s : State) : discRecord (modWcar c f s) = discRecord s := rfl
@[simp] theorem discRecord_setHold (u : Nat) (b : Bool) (s : State) : discRecord (setHold u b s) = discRecord s := rfl

@[simp] theorem discRecord_event (b c u : Nat) (is : List Item) (s : State) : discRecord (event b c u is s) = discRecord s := by
  have h := congrArg State.media (quiet_event b c u is s)
  exact discRecord_of_media h

@[simp] theorem discRecord_evt (f : Fld) (u : Nat) (is : List Item) (s : State) : discRecord (evt f u is s) = discRecord s :=
  discRecord_of_media (evt_media f u is s)

@[simp] theorem discRecord_modCmd (t : Nat) (f : Cmd → Cmd) (s : State) : discRecord (modCmd t f s) = discRecord s := by
  unfold modCmd
  split <;> rfl

@[simp] theorem discRecord_mirror (m : MirrorItem) (s : State) : discRecord (mirror m s) = discRecord s :=
  keeps_ite discRecord rfl rfl

@[simp] theorem discRecord_putState (u : Nat) (tgt : UState) (why : Reason) (s : State) :
    discRecord (putState u tgt why s) = discRecord s :=
  keeps_ite discRecord rfl rfl

@[simp] theorem discRecord_recordChange (u : Nat) (src : Source) (q : Nat) (s : State) :
    discRecord (recordChange u src q s) = discRecord s := by
  rw [recordChange, discRecord_mirror]
  exact keeps_ite discRecord (discRecord_event _ _ _ _ _) rfl

@[simp] theorem discRecord_recompute (s : State) : discRecord (recompute s) = discRecord s :=
  keeps_ite discRecord (forEach_keeps discRecord _ (fun _ _ => keeps_ite discRecord (by simp) rfl) _ _) rfl

/-! #### The ends of commands and of requests -/

@[simp] theorem discRecord_recordReplay (c : Cmd) (s : State) : discRecord (recordReplay c s) = discRecord s :=
  keeps_ite discRecord (by simp) rfl

@[simp] theorem discRecord_endOne (t : Nat) (st : Status) (r : Nat) (s : State) : discRecord (endOne t st r s) = discRecord s := by
  unfold endOne
  split
  · rfl
  · refine keeps_ite discRecord rfl ?_
    extract_lets c' s₁ s₂
    have h : discRecord s₂ = discRecord s :=
      keeps_ite discRecord (discRecord_recordReplay c' s) (discRecord_recordReplay c' s)
    exact keeps_ite discRecord h h

@[simp] theorem discRecord_endRepeats (q : Nat) (st : Status) (r : Nat) (rel : Bool) (step : Nat) (s : State) :
    discRecord (endRepeats q st r rel step s) = discRecord s :=
  forEach_keeps discRecord _ (fun _ _ => keeps_ite discRecord (by simp) rfl) _ _

@[simp] theorem discRecord_createFailed (c : Cmd) (st : Status) (s : State) : discRecord (createFailed c st s) = discRecord s :=
  keeps_ite discRecord (forEach_keeps discRecord _ (fun _ _ => keeps_ite discRecord (by simp) rfl) _ _) rfl

@[simp] theorem discRecord_endCmd (t : Nat) (st : Status) (r : Nat) (s : State) : discRecord (endCmd t st r s) = discRecord s := by
  unfold endCmd
  split
  · rfl
  · exact keeps_ite discRecord rfl (by simp)

@[simp] theorem discRecord_setGate4 (t : Nat) (g : Gate) (s : State) : discRecord (setGate4 t g s) = discRecord s := by
  unfold setGate4
  split
  · rfl
  · refine keeps_ite discRecord (keeps_ite discRecord (by simp) ?_) (by simp)
    split <;> simp

@[simp] theorem discRecord_regateOne (e : Nat × Cmd) (s : State) : discRecord (regateOne e s) = discRecord s := by
  unfold regateOne
  dsimp only
  split
  · rfl
  · rfl
  · refine keeps_ite discRecord rfl ?_
    split
    · simp
    · refine keeps_ite discRecord rfl ?_
      split
      · exact keeps_ite discRecord rfl (by simp)
      · simp
      · simp

@[simp] theorem discRecord_regate (s : State) : discRecord (regate s) = discRecord s :=
  have h := forEach_keeps discRecord regateOne discRecord_regateOne (cmds s) s
  keeps_ite discRecord h h

@[simp] theorem discRecord_finishReq (r : UnitReq) (st : Status) (s : State) : discRecord (finishReq r st s) = discRecord s := by
  unfold finishReq
  extract_lets s₁ s₂
  have h₁ : discRecord s₁ = discRecord s := keeps_ite discRecord rfl rfl
  have h₂ : discRecord s₂ = discRecord s := keeps_ite discRecord h₁ h₁
  split
  · exact h₂
  · split
    · exact h₂
    · rw [discRecord_endCmd]
      exact keeps_ite discRecord (keeps_ite discRecord h₂ h₂) h₂
  · exact h₂
  · exact h₂
  · exact h₂

@[simp] theorem discRecord_settleReqs (u : Nat) (s : State) : discRecord (settleReqs u s) = discRecord s := by
  refine (forEach_keeps discRecord _ (fun r s => ?_) _ _).trans rfl
  split <;> simp

/-! #### What follows a change -/

@[simp] theorem discRecord_endHeldWaits (a b : UState) (s : State) : discRecord (endHeldWaits a b s) = discRecord s :=
  keeps_ite discRecord (forEach_keeps discRecord _ (fun _ _ => keeps_ite discRecord (by simp) rfl) _ _) rfl

@[simp] theorem discRecord_carWriteStop (u : Nat) (tgt : UState) (s : State) : discRecord (carWriteStop u tgt s) = discRecord s :=
  keeps_ite discRecord rfl rfl

@[simp] theorem discRecord_endImport (u : Nat) (a : UState) (s : State) : discRecord (endImport u a s) = discRecord s :=
  keeps_ite discRecord rfl rfl

@[simp] theorem discRecord_afterChange (u : Nat) (a b : UState) (s : State) : discRecord (afterChange u a b s) = discRecord s := by
  unfold afterChange
  simp only [discRecord_settleReqs, discRecord_regate, discRecord_endImport]
  exact keeps_ite discRecord (by simp) (by simp)

@[simp] theorem discRecord_changeUnit0 (u : Nat) (tgt : UState) (why : Reason) (src : Source) (q : Nat) (s : State) :
    discRecord (changeUnit0 u tgt why src q s) = discRecord s := by
  refine keeps_ite discRecord rfl ?_
  simp only [discRecord_afterChange, discRecord_recordChange]
  exact keeps_ite discRecord (by simp) (by simp)

@[simp] theorem discRecord_calRecord (r : CalRun) (st : Status) (o : Nat) (s : State) :
    discRecord (calRecord r st o s) = discRecord s := by
  unfold calRecord calEvt
  extract_lets _ s₁ _ s₂ s₃ s₄
  have h₂ : discRecord s₂ = discRecord s := discRecord_setReg _ _ s₁
  have hbump (i : Nat) : discRecord (bump Reg.CAL_CNT i s₂) = discRecord s := (discRecord_bump _ _ _).trans h₂
  have h₃ : discRecord s₃ = discRecord s :=
    keeps_ite discRecord (hbump 3) (keeps_ite discRecord (hbump 0) (keeps_ite discRecord (hbump 1)
      (keeps_ite discRecord (hbump 2) h₂)))
  rw [discRecord_evt]
  exact keeps_ite discRecord ((discRecord_evt _ _ _ _).trans h₃) h₃

@[simp] theorem discRecord_calSweepOne (r : CalRun) (s : State) : discRecord (calSweepOne r s) = discRecord s := by
  unfold calSweepOne
  split
  · exact keeps_ite discRecord (by simp) rfl
  · refine keeps_ite discRecord rfl (keeps_ite discRecord (by simp) (keeps_ite discRecord ?_ rfl))
    rw [discRecord_finishReq]
    exact keeps_ite discRecord (by simp) (by simp)

@[simp] theorem discRecord_change (u : Nat) (tgt : UState) (why : Reason) (s : State) :
    discRecord (change u tgt why s) = discRecord s :=
  (forEach_keeps discRecord calSweepOne discRecord_calSweepOne _ _).trans (discRecord_changeUnit0 _ _ _ _ _ _)

/-! ### The disc unit and its sides (R500) -/

/-- The disc enters a state, and with it the sides that are in another. -/
def discTo (sidesIn tgt : UState) (s : State) : State :=
  forEach (fun k s => if ust s (uSide k) = sidesIn then change (uSide k) tgt .mount s else s) [0, 1] (change uDisc tgt .mount s)

theorem discReady_eq (s : State) : discReady s = discTo .starting .ready s := rfl

theorem mountFailed_eq (s : State) :
    mountFailed s = evt Fld.UNT_EVT_DISC_FORMAT uDisc [] (discTo .starting .offline (modDisc (fun _ => {}) s)) := rfl

theorem ust_discTo (sidesIn tgt : UState) (s : State) : ust (discTo sidesIn tgt s) uDisc = tgt := by
  have hside (k : Nat) (s : State) : ust (change (uSide k) tgt .mount s) uDisc = ust s uDisc :=
    ust_change_ne (by decide) rfl (by unfold uSide uDisc; omega) _ _ _ _ _
  exact (forEach_keeps (ust · uDisc) _ (fun k s => keeps_ite (ust · uDisc) (hside k s) rfl) _ _).trans
    (ust_change_same (by decide) rfl _ _ _ _ _)

theorem discRecord_discTo (sidesIn tgt : UState) (s : State) : discRecord (discTo sidesIn tgt s) = discRecord s :=
  (forEach_keeps discRecord _ (fun _ _ => keeps_ite discRecord (discRecord_change _ _ _ _) rfl) _ _).trans
    (discRecord_change _ _ _ _)

theorem step_discTo (sidesIn tgt : UState) (s : State) : (discTo sidesIn tgt s).media.disc.step = s.media.disc.step := by
  rw [← step_discRecord, discRecord_discTo, step_discRecord]

theorem serial_discTo (sidesIn tgt : UState) (s : State) : (discTo sidesIn tgt s).media.disc.serial = s.media.disc.serial := by
  rw [← serial_discRecord, discRecord_discTo, serial_discRecord]

theorem ust_mountFailed (s : State) : ust (mountFailed s) uDisc = .offline := by
  rw [mountFailed_eq, ust, unitOf, evt_unt]
  exact ust_discTo _ _ _

theorem flag_mountFailed (s : State) : flag (mountFailed s) Fld.UNT_EVT_DISC_FORMAT = true := by
  rw [mountFailed_eq]
  exact flag_evt_same (by decide) rfl (by decide) _ _ _

theorem ust_modDisc (f : DiscState → DiscState) (s : State) (u : Nat) : ust (modDisc f s) u = ust s u := rfl

theorem ust_finish (s t : State) (u : Nat) : ust (finish s t) u = ust t u := by simp [ust, unitOf]

/-- A command whose effect is a failed mount leaves the disc OFFLINE with DISC_FORMAT. -/
theorem completes_mountFailed {i : Instr} {s : State} (h : exec i s = done s (mountFailed s)) :
    completes i s (fun t => ust t uDisc = .offline ∧ flag t Fld.UNT_EVT_DISC_FORMAT = true) :=
  completes_of_done h ⟨(ust_finish _ _ _).trans (ust_mountFailed s), (flag_finish _ _ _).trans (flag_mountFailed s)⟩

/-! ### The steps of the mount (R114) -/

theorem mountStartEff_eq {s : State} (ho : isOwner s = true) (hb : s.img.heldBack = false) (hd : discSensed s = true)
    (hspin : (ust s uSpindle).serves = true) (hu : ust s uDisc = .offline ∨ ust s uDisc = .starting)
    (hstep : s.media.disc.step = .none) (hm : s.media.disc.mounted = false) :
    mountStartEff s = modDisc (fun d => { d with step := .s1 }) (discTo .offline .starting s) :=
  if_pos (by simp [ho, hb, hd, hspin, hu, hstep, hm])

theorem completes_mountStart {s : State} (ho : isOwner s = true) (hb : s.img.heldBack = false) (hd : discSensed s = true)
    (hspin : (ust s uSpindle).serves = true) (hu : ust s uDisc = .offline ∨ ust s uDisc = .starting)
    (hstep : s.media.disc.step = .none) (hm : s.media.disc.mounted = false) :
    completes .mountStart s (fun t => ust t uDisc = .starting ∧ t.media.disc.step = .s1) := by
  refine completes_of_done (congrArg (done s) (mountStartEff_eq ho hb hd hspin hu hstep hm)) ?_
  rw [ust_finish, finish_media, ust_modDisc]
  exact ⟨ust_discTo _ _ _, rfl⟩

/-- While no disc is mounted the data of a step belongs to the mount under way. -/
theorem exec_mountStepDone {s : State} (hm : s.media.disc.mounted = false) (d : MountData) :
    exec (.mountStepDone d) s = done s (mountStepEff d s) := by
  change done s (mountDoneEff d s) = _
  rw [mountDoneEff, hm]
  rfl

theorem mountStepEff_chevrons {s : State} (hstep : s.media.disc.step = .s1) (found : Bool) :
    mountStepEff (.chevrons found) s = modDisc (fun d => { d with step := if found then .s2 else .identify }) s := by
  cases found <;> simp [mountStepEff, hstep]

theorem completes_chevrons {s : State} (hm : s.media.disc.mounted = false) (hstep : s.media.disc.step = .s1) (found : Bool) :
    completes (.mountStepDone (.chevrons found)) s (fun t =>
      t.media.disc = { s.media.disc with step := if found then .s2 else .identify } ∧ t.unt = s.unt) :=
  completes_of_done ((exec_mountStepDone hm _).trans (congrArg (done s) (mountStepEff_chevrons hstep found)))
    ⟨congrArg (·.disc) (finish_media s _), finish_unt s _⟩

/-- The disc record with the values of a DIZ record (Table 03-7), step 3 under way. -/
def takeDiz (x : List Byte) (d : DiscState) : DiscState :=
  { d with
    step := .s3, serial := slice x 8 16, segBits := (List.range 64).map (fun z => leAt x (160 + 4 * z) 4),
    writeNominal := (List.range 64).map (fun z => leAt x (32 + 2 * z) 2), spare := spareReserve }

theorem mountStepEff_diz_match {s : State} {x y : List Byte} (hstep : s.media.disc.step = .s2) (hx : dizOk x = true)
    (hy : dizOk y = true) (hxy : slice x 8 16 = slice y 8 16) :
    mountStepEff (.diz (some x) (some y)) s = discReady (modDisc (takeDiz x) s) := by
  simp only [mountStepEff, hstep]
  exact if_pos (by simp [hx, hy, hxy])

theorem mountStepEff_diz_fail {s : State} {x : Option (List Byte)} (hstep : s.media.disc.step = .s2)
    (hx : ∀ b ∈ x, dizOk b = false) (y : Option (List Byte)) : mountStepEff (.diz x y) s = mountFailed s := by
  simp only [mountStepEff, hstep]
  match x, y with
  | none, _ => rfl
  | some _, none => rfl
  | some b, some _ => exact if_neg (by simp [hx b rfl])

theorem completes_diz_match {s : State} {x y : List Byte} (hm : s.media.disc.mounted = false) (hstep : s.media.disc.step = .s2)
    (hx : dizOk x = true) (hy : dizOk y = true) (hxy : slice x 8 16 = slice y 8 16) :
    completes (.mountStepDone (.diz (some x) (some y))) s (fun t =>
      ust t uDisc = .ready ∧ t.media.disc.step = .s3 ∧ t.media.disc.serial = slice x 8 16) := by
  refine completes_of_done ((exec_mountStepDone hm _).trans (congrArg (done s) (mountStepEff_diz_match hstep hx hy hxy))) ?_
  rw [ust_finish, finish_media, discReady_eq, step_discTo, serial_discTo]
  exact ⟨ust_discTo _ _ _, rfl, rfl⟩

theorem completes_scan {s : State} (hm : s.media.disc.mounted = false) (hstep : s.media.disc.step = .s5) (fs : List Nat)
    (ks : List KnotRead) (n : Nat) :
    completes (.mountStepDone (.scan fs ks (some n))) s (fun t => t.media.disc.step = .s6 ∧
      t.media.disc.frontierFound = fs ∧ t.media.disc.nextSkein = max s.media.disc.nextSkein (n + 1)) := by
  have heff : mountStepEff (.scan fs ks (some n)) s = modDisc (fun d => { d with
      step := .s6, frontierFound := fs, pendingKnots := ks, nextSkein := max d.nextSkein (n + 1) }) s := by
    simp only [mountStepEff, hstep]
  refine completes_of_done ((exec_mountStepDone hm _).trans (congrArg (done s) heff)) ?_
  rw [finish_media]
  exact ⟨rfl, rfl, rfl⟩

/-! ### The end of the mount -/

theorem discRecord_mountVol (v : Nat) (s : State) : discRecord (mountVol v s) = discRecord s :=
  keeps_ite discRecord rfl (keeps_ite discRecord (by simp) (by simp))

theorem discRecord_mountCompleteEff {s : State} (hstep : s.media.disc.step = .s7) :
    discRecord (mountCompleteEff s) =
      { discRecord s with step := .none, mounted := true, anchorKnots := [], frontierFound := [0, 0, 0, 0] } := by
  unfold mountCompleteEff
  rw [if_neg (not_not_intro hstep)]
  extract_lets fs s₁ s₂
  have hcars : discRecord s₁ = discRecord s := forEach_keeps discRecord _ (fun _ _ => discRecord_modWcar _ _ _) _ _
  have hended : discRecord s₂ =
      { discRecord s₁ with step := .none, mounted := true, anchorKnots := [], frontierFound := [0, 0, 0, 0] } := rfl
  rw [forEach_keeps discRecord mountVol discRecord_mountVol, hended, hcars]

theorem completes_mountComplete {s : State} (hstep : s.media.disc.step = .s7) :
    completes .mountComplete s (fun t => t.media.disc.mounted = true ∧ t.media.disc.step = .none) := by
  refine completes_of_done (t := mountCompleteEff s) rfl ?_
  rw [finish_media, ← mounted_discRecord, ← step_discRecord, discRecord_mountCompleteEff hstep]
  exact ⟨rfl, rfl⟩

/-! ### The identification of an import disc (R192) -/

/-- A disc that is identified: the pool and the channels in import mode, its type and reach shown, the event raised. -/
def importShown (typ : Nat) (reach : List Nat) (s : State) : State :=
  let n := min 4 reach.length
  let s := { s with pool := { s.pool with disc := { active := true, typ := typ, layers := n, reach := reach.take 4 } },
                    chn := { s.chn with importMode := true } }
  let s := setF Fld.DEC_IMP_STATUS_LAYERS n (setF Fld.DEC_IMP_STATUS_TYPE typ (setF Fld.DEC_IMP_STATUS_ACTIVE 1 s))
  let s := forEach (fun i s => setReg (Reg.DEC_IMP_REACH + 4 * i) (BitVec.ofNat 32 (reach.getD i 0)) s) [0, 1, 2, 3] s
  evt Fld.DEC_EVT_IMPORT_ID uDisc [⟨1, typ⟩, ⟨1, n⟩] s

theorem importShown_media (typ : Nat) (reach : List Nat) (s : State) : (importShown typ reach s).media = s.media := by
  simp [importShown]

theorem importIdentifyEff_found {s : State} (hstep : s.media.disc.step = .identify) (typ : Nat) (reach : List Nat) :
    importIdentifyEff (some (typ, reach)) s =
      discReady (importShown typ reach (modDisc (fun d => { d with step := .none, importMode := true }) s)) :=
  if_neg (not_not_intro hstep)

theorem importIdentifyEff_none {s : State} (hstep : s.media.disc.step = .identify) : importIdentifyEff none s = mountFailed s :=
  if_neg (not_not_intro hstep)

theorem completes_importIdentify_found {s : State} (hstep : s.media.disc.step = .identify) (typ : Nat) (reach : List Nat) :
    completes (.importIdentify (some (typ, reach))) s (fun t => ust t uDisc = .ready ∧ t.media.disc.step = .none) := by
  refine completes_of_done (congrArg (done s) (importIdentifyEff_found hstep typ reach)) ?_
  rw [ust_finish, finish_media, discReady_eq, step_discTo, importShown_media]
  exact ⟨ust_discTo _ _ _, rfl⟩

/-- Settles O18: each step takes its own branch, and the changes of the disc unit and of the volumes leave the disc record
alone but for import mode. -/
theorem mountAndImport : Obligations.MountAndImport := by
  unfold Obligations.MountAndImport
  intro s
  refine ⟨completes_mountStart, fun found hm hstep => completes_chevrons hm hstep found, fun x y => completes_diz_match,
    fun x y hm hstep hx => ?notDiz, fun fs ks n hm hstep => completes_scan hm hstep fs ks n, completes_mountComplete,
    fun typ reach hstep => completes_importIdentify_found hstep typ reach, fun hstep => ?notIdentified⟩
  case notDiz =>
    exact completes_mountFailed ((exec_mountStepDone hm _).trans (congrArg (done s) (mountStepEff_diz_fail hstep hx y)))
  case notIdentified => exact completes_mountFailed (congrArg (done s) (importIdentifyEff_none hstep))

end Sys2Proof.Proofs
end

section
/-! The register controls that only set a field or a mark (R156, R179, R186, R193, R222, R244, R279, R299, R333, R426, R444,
R452, R496). -/

namespace Sys2Proof.Proofs

open Sys2Proof Sys2Proof.Machine Sys2Proof.Safety

/-! ### Lists with one entry per strand or carriage -/

theorem getD_modAt_same {α : Type} (f : α → α) (d : α) : ∀ (l : List α) {i : Nat}, i < l.length →
    (modAt i f l).getD i d = f (l.getD i d)
  | _ :: _, 0, _ => rfl
  | _ :: xs, _ + 1, h => getD_modAt_same f d xs (Nat.lt_of_succ_lt_succ h)

theorem strandOf_modStrand_same {g : Nat} {s : State} (h : g < s.chn.strands.length) (f : StrandSt → StrandSt) :
    strandOf (modStrand g f s) g = f (strandOf s g) := getD_modAt_same f {} _ h

theorem carOfS_modCar_same {c : Nat} {s : State} (h : c < s.mot.cars.length) (f : CarMotion → CarMotion) :
    carOfS (modCar c f s) c = f (carOfS s c) := getD_modAt_same f {} _ h

/-! ### Controls of a served register -/

/-- A command that is a write of a register which the map serves has its effect. -/
theorem completes_served {i : Instr} {off : Nat} {f : State → State} {s : State} {P : State → Prop}
    (hexec : exec i s = done s (served off f s)) (hs : sideServed s off = true) (hP : P (finish s (f s))) : completes i s P :=
  completes_of_done (hexec.trans (congrArg (done s) (if_pos hs))) hP

/-- The same of a register that n units have, for unit k. -/
theorem completes_servedAt {i : Instr} {n k off : Nat} {f : State → State} {s : State} {P : State → Prop}
    (hexec : exec i s = done s (instOf n k (served off f) s)) (hk : k < n) (hs : sideServed s off = true)
    (hP : P (finish s (f s))) : completes i s P :=
  completes_served (hexec.trans (congrArg (done s) (if_pos hk))) hs hP

theorem onlyRegisters_finish_setReg (off : Nat) (w : Word) (s : State) : onlyRegisters s (finish s (setReg off w s)) := by
  simp [onlyRegisters]

theorem flag_setF_one {f : Fld} (hb : f.lo = f.hi) (h32 : f.hi < 32) (s : State) : flag (setF f 1 s) f = true :=
  flag_setFlag_same f true s hb h32

theorem getF_setF_one {f : Fld} (hb : f.lo = f.hi) (h32 : f.hi < 32) (s : State) : getF (setF f 1 s) f = 1 := by
  rw [getF_setF_same f 1 s (Nat.le_of_eq hb) h32, hb, Nat.add_sub_cancel_left, Nat.pow_one]

/-- A one-bit control reads back as written, and its register alone changes. -/
theorem completes_setFlag {i : Instr} {f : Fld} {on : Bool} {s : State}
    (hexec : exec i s = done s (served f.off (setFlag f on) s)) (hs : sideServed s f.off = true) (hb : f.lo = f.hi)
    (h32 : f.hi < 32) :
    completes i s (fun t => flag t f = on ∧ regsKeptBut [f.off] s t ∧ onlyRegisters s t) :=
  completes_served hexec hs ⟨(flag_finish _ _ _).trans (flag_setFlag_same f on s hb h32), regsKeptBut_finish_setReg _ _ s,
    onlyRegisters_finish_setReg _ _ s⟩

/-- A forced error reads back 1, and its register alone changes. -/
theorem completes_setF_one {i : Instr} {f : Fld} {s : State}
    (hexec : exec i s = done s (served f.off (setF f 1) s)) (hs : sideServed s f.off = true) (hb : f.lo = f.hi)
    (h32 : f.hi < 32) :
    completes i s (fun t => getF t f = 1 ∧ regsKeptBut [f.off] s t ∧ onlyRegisters s t) :=
  completes_served hexec hs ⟨(getF_finish _ _ _).trans (getF_setF_one hb h32 s), regsKeptBut_finish_setReg _ _ s,
    onlyRegisters_finish_setReg _ _ s⟩

/-! ### The controls that also leave a mark, or write more than one field -/

section
variable {s : State}

/-- A control of CHN_TEST marks its strand and reads back 1. -/
theorem completes_chnTest {i : Instr} {g : Nat} {f : Fld} {mark : StrandSt → StrandSt}
    (hexec : exec i s =
      done s (instOf 32 g (served (Reg.CHN_TEST + 0x200 * g) (fun s => setF (chF f g) 1 (modStrand g mark s))) s))
    (hg : g < 32) (hlen : s.chn.strands.length = 32) (hs : sideServed s (Reg.CHN_TEST + 0x200 * g) = true)
    (hb : f.lo = f.hi) (h32 : f.hi < 32) :
    completes i s (fun t => strandOf t g = mark (strandOf s g) ∧ flag t (f.at (0x200 * g)) = true) := by
  refine completes_servedAt hexec hg hs ⟨?mark, (flag_finish _ _ _).trans (flag_setF_one (f := chF f g) hb h32 _)⟩
  case mark =>
    rw [strandOf, finish_chn]
    exact strandOf_modStrand_same (hlen ▸ hg) mark

theorem completes_chnForceSyncMiss {g : Nat} (hg : g < 32) (hlen : s.chn.strands.length = 32)
    (hs : sideServed s (Reg.CHN_TEST + 0x200 * g) = true) :
    completes (.chnForceSyncMiss g) s (fun t => (strandOf t g).forceMiss = true ∧
      flag t (Fld.CHN_TEST_FORCE_SYNC_MISS.at (0x200 * g)) = true) :=
  completes_mono (completes_chnTest (f := Fld.CHN_TEST_FORCE_SYNC_MISS) (mark := fun st => { st with forceMiss := true })
    rfl hg hlen hs rfl (by decide)) fun _ ⟨hmark, hflag⟩ => ⟨congrArg StrandSt.forceMiss hmark, hflag⟩

theorem completes_chnForceDefect {g : Nat} (hg : g < 32) (hlen : s.chn.strands.length = 32)
    (hs : sideServed s (Reg.CHN_TEST + 0x200 * g) = true) :
    completes (.chnForceDefect g) s (fun t => (strandOf t g).forceDefect = true ∧
      flag t (Fld.CHN_TEST_FORCE_DEFECT.at (0x200 * g)) = true) :=
  completes_mono (completes_chnTest (f := Fld.CHN_TEST_FORCE_DEFECT) (mark := fun st => { st with forceDefect := true })
    rfl hg hlen hs rfl (by decide)) fun _ ⟨hmark, hflag⟩ => ⟨congrArg StrandSt.forceDefect hmark, hflag⟩

theorem completes_crgForceSlip {c : Nat} (hc : c < 4) (hlen : s.mot.cars.length = 4)
    (hs : sideServed s (Reg.CRG_CTRL + 0x200 * c) = true) :
    completes (.crgForceSlip c) s (fun t => (carOfS t c).forceSlip = true ∧
      getF t (Fld.CRG_CTRL_FORCE_SLIP.at (0x200 * c)) = 1) := by
  refine completes_servedAt rfl hc hs ⟨?mark, (getF_finish _ _ _).trans (getF_setF_one rfl (show 0 < 32 by decide) _)⟩
  case mark =>
    rw [carOfS, finish_mot]
    exact congrArg CarMotion.forceSlip (carOfS_modCar_same (hlen ▸ hc) _)

theorem completes_spnForceLoss (hs : sideServed s Reg.SPN_CTRL = true) (ho : isOwner s = true) :
    completes .spnForceLoss s (fun t => (spn t).forceLoss = true ∧ regsKeptBut [] s t) := by
  have hact : atOwner spnForceLossEff s = spnForceLossEff s := if_pos ho
  refine completes_served (f := atOwner spnForceLossEff) rfl hs ?_
  rw [hact]
  exact ⟨by simp [spn, spnForceLossEff], regsKeptBut_of_regs _ (finish_regs _ _)⟩

/-- FORCE_OVR and SLOT lie apart in LPE_TEST. -/
theorem completes_lpeForceOvr {k : Nat} (hk : k < 32) (on : Bool) (hs : sideServed s Reg.LPE_TEST = true) :
    completes (.lpeForceOvr k on) s (fun t => flag t Fld.LPE_TEST_FORCE_OVR = on ∧ getF t Fld.LPE_TEST_SLOT = k ∧
      regsKeptBut [Reg.LPE_TEST] s t ∧ onlyRegisters s t) := by
  refine completes_served rfl hs ⟨?force, ?slot, ?registers, ?rest⟩
  case force => exact (flag_finish _ _ _).trans (flag_setFlag_same Fld.LPE_TEST_FORCE_OVR on _ rfl (by decide))
  case slot =>
    rw [getF_finish, forceOvrEff, getF_setFlag_ne (by decide) (by decide), getF_setF_same _ _ _ (by decide) (by decide)]
    exact (Nat.mod_mod _ _).trans (Nat.mod_eq_of_lt hk)
  case registers =>
    intro off hoff
    have hne : Reg.LPE_TEST ≠ off := fun e => hoff (e ▸ List.mem_singleton_self _)
    rw [getReg_finish, forceOvrEff, getReg_setFlag_ne (f := Fld.LPE_TEST_FORCE_OVR) hne,
      getReg_setF_ne (f := Fld.LPE_TEST_SLOT) hne]
  case rest => simp [onlyRegisters, forceOvrEff]

theorem completes_scrubRestart (hs : sideServed s Reg.INT_CTRL = true) :
    completes .scrubRestart s (fun t => getReg t Reg.INT_SCRUB_POS = 0#32 ∧ flag t Fld.INT_STATUS_BURST = false ∧
      t.mem.burstLeft = 0 ∧ t.mem.resume = 0 ∧ regsKeptBut [Reg.INT_SCRUB_POS, Reg.INT_STATUS] s t ∧ memoryKept s t) := by
  refine completes_served rfl hs ⟨?position, ?burst, ?left, ?resume, ?registers, ?bytes⟩
  case position => exact (getReg_finish _ _ _).trans (getReg_setReg_same _ _ _)
  case burst =>
    have hpos : Reg.INT_SCRUB_POS ≠ Fld.INT_STATUS_BURST.off := by decide
    rw [flag_finish, scrubRestartEff, flag_of_getF (getF_setReg_ne hpos _ _)]
    exact flag_setFlag_same Fld.INT_STATUS_BURST false _ rfl (by decide)
  case left => simp [scrubRestartEff]
  case resume => simp [scrubRestartEff]
  case registers =>
    intro off hoff
    obtain ⟨hpos, hstatus⟩ : off ≠ Reg.INT_SCRUB_POS ∧ off ≠ Reg.INT_STATUS := by simpa using hoff
    rw [getReg_finish, scrubRestartEff, getReg_setReg_ne hpos.symm, getReg_setFlag_ne (f := Fld.INT_STATUS_BURST) hstatus.symm,
      getReg_modMem]
  case bytes => simp [memoryKept, scrubRestartEff]

end

/-- Settles O25: each control is one write of its field under the map's service; those with a mark or a second field each have
a lemma of their own. -/
theorem controlFieldsAreWritten : Obligations.ControlFieldsAreWritten := by
  unfold Obligations.ControlFieldsAreWritten
  intro s
  refine ⟨fun g => completes_chnForceSyncMiss, fun g => completes_chnForceDefect, fun on hs => ?pauseRecovery,
    fun on hs => ?forceEf, fun on hs => ?relocPause, fun on hs => ?writeInhibit, fun on hs => ?forceMismatch,
    fun k on hk => completes_lpeForceOvr hk on, fun c => completes_crgForceSlip, completes_spnForceLoss, fun hs => ?checkerFail,
    fun hs => ?dataParity, fun hs => ?twinParity, fun hs => ?intParity, completes_scrubRestart⟩
  case pauseRecovery => exact completes_setFlag (f := Fld.DEC_CTRL_PAUSE_RECOVERY) rfl hs rfl (by decide)
  case forceEf => exact completes_setFlag (f := Fld.DEC_CTRL_FORCE_EF) rfl hs rfl (by decide)
  case relocPause => exact completes_setFlag (f := Fld.SKN_CTRL_RELOC_PAUSE) rfl hs rfl (by decide)
  case writeInhibit => exact completes_setFlag (f := Fld.WRP_CTRL_WRITE_INHIBIT) rfl hs rfl (by decide)
  case forceMismatch => exact completes_setFlag (f := Fld.HNK_CTRL_FORCE_MISMATCH) rfl hs rfl (by decide)
  case checkerFail => exact completes_setF_one (f := Fld.CAL_CTRL_FORCE_CHECKER_FAIL) rfl hs rfl (by decide)
  case dataParity => exact completes_setF_one (f := Fld.BC_TEST_FORCE_DATA_PARITY) rfl hs rfl (by decide)
  case twinParity => exact completes_setF_one (f := Fld.BC_TEST_FORCE_TWIN_PARITY) rfl hs rfl (by decide)
  case intParity => exact completes_setF_one (f := Fld.INT_CTRL_FORCE_PARITY) rfl hs rfl (by decide)

end Sys2Proof.Proofs
end

section
/-! What the operations of a strand channel leave alone: its registers, the events of R157, and the end of a slot (R119). -/

namespace Sys2Proof.Proofs

open Sys2Proof Sys2Proof.Machine Sys2Proof.Safety

/-! ### The events of a channel (R157) -/

/-- The EVT bit d bytes on is 1 afterwards. -/
theorem flag_evtAt_same {f : Fld} {d : Nat} (h : f.off + d ∉ logRegs) (hb : f.lo = f.hi) (h32 : f.hi < 32) (u : Nat)
    (is : List Item) (s : State) : flag (evtAt f d u is s) (f.at d) = true := by
  have hset : flag (setF (f.at d) 1 s) (f.at d) = true := flag_setF_one (f := f.at d) hb h32 s
  unfold evtAt
  dsimp only
  split
  · assumption
  · split
    · exact (flag_of_getF (getF_of_getReg (getReg_event h _ _ _ _ _))).trans hset
    · exact hset

section
variable (f : Fld) (g : Nat) (s : State)

theorem quiet_chEvt : quiet (chEvt f g s) = quiet s := quiet_evtAt f _ _ _ s

@[simp] theorem chEvt_unt : (chEvt f g s).unt = s.unt := by
  have h := congrArg State.unt (quiet_chEvt f g s)
  exact h
@[simp] theorem chEvt_chn : (chEvt f g s).chn = s.chn := by
  have h := congrArg State.chn (quiet_chEvt f g s)
  exact h
@[simp] theorem chEvt_pool : (chEvt f g s).pool = s.pool := by
  have h := congrArg State.pool (quiet_chEvt f g s)
  exact h

end

/-! ### The registers of the 32 strands (R544) -/

/-- No event and no change of a unit writes in the range of the CHN registers. -/
theorem changeRegs_apart_chn : ∀ off ∈ changeRegs, off < 0x50000 ∨ 0x54000 ≤ off := by decide

theorem chR_notMem_changeRegs {off g : Nat} (hg : g < 32) (hoff : 0x50000 ≤ off ∧ off < 0x50200) : chR off g ∉ changeRegs := by
  intro hmem
  have h := changeRegs_apart_chn _ hmem
  simp only [chR] at h
  omega

theorem chR_notMem_logRegs {off g : Nat} (hg : g < 32) (hoff : 0x50000 ≤ off ∧ off < 0x50200) : chR off g ∉ logRegs :=
  fun hmem => chR_notMem_changeRegs hg hoff (logRegs_change hmem)

/-- A flag of CHN_EVT that a channel raises is set. -/
theorem flag_chEvt_same {f : Fld} {g : Nat} (hg : g < 32) (hoff : f.off = Reg.CHN_EVT) (hb : f.lo = f.hi) (h32 : f.hi < 32)
    (s : State) : flag (chEvt f g s) (chF f g) = true := by
  have hlog : chR f.off g ∉ logRegs := chR_notMem_logRegs hg (by rw [hoff]; decide)
  exact flag_evtAt_same hlog hb h32 _ _ s

/-! ### Strands and their number -/

@[simp] theorem length_strands_modStrand (g : Nat) (f : StrandSt → StrandSt) (s : State) :
    (modStrand g f s).chn.strands.length = s.chn.strands.length := length_modAt

theorem strandOf_of_chn {s t : State} (h : t.chn = s.chn) (g : Nat) : strandOf t g = strandOf s g := by rw [strandOf, strandOf, h]

/-- The state without the registers and the strands' channels. -/
def besideStrands (s : State) : State := { s with regs := [], chn := { s.chn with strands := [] } }

theorem besideStrands_setF (f : Fld) (v : Nat) (s : State) : besideStrands (setF f v s) = besideStrands s := rfl

theorem reading_of_besideStrands {s t : State} (h : besideStrands t = besideStrands s) (g : Nat) : reading t g = reading s g := by
  have hg := congrArg (fun b => reading b g) h
  exact hg

theorem zoneBlock_of_besideStrands {s t : State} (h : besideStrands t = besideStrands s) (lf zone : Nat) :
    zoneBlock t lf zone = zoneBlock s lf zone := by
  have hz := congrArg (fun b => zoneBlock b lf zone) h
  exact hz

theorem fetch_of_besideStrands {s t : State} (h : besideStrands t = besideStrands s) : t.chn.fetch = s.chn.fetch := by
  have hf := congrArg (fun b : State => b.chn.fetch) h
  exact hf

/-! ### The end of a slot (R119, R151) -/

theorem besideStrands_writeRecord (g : Nat) (p : SlotPass) (ps : Pass) (cands : List Cand) (relaxed noSync : Bool) (s : State) :
    besideStrands (writeRecord g p ps cands relaxed noSync s) = besideStrands s := by
  unfold writeRecord
  extract_lets
  split <;> rfl

theorem besideStrands_slotRegs (g : Nat) (p : SlotPass) (s : State) : besideStrands (slotRegs g p s) = besideStrands s := by
  unfold slotRegs
  extract_lets
  split <;> rfl

theorem slotRegs_chn (g : Nat) (p : SlotPass) (s : State) : (slotRegs g p s).chn = s.chn := by
  unfold slotRegs
  extract_lets
  split <;> rfl

/-- Writing the record of a slot keeps the strand's zone and the number of strands. -/
theorem writeRecord_keeps_zone (g : Nat) (p : SlotPass) (ps : Pass) (cands : List Cand) (relaxed noSync : Bool) {s : State}
    (hlen : g < s.chn.strands.length) : (strandOf (writeRecord g p ps cands relaxed noSync s) g).inZone = (strandOf s g).inZone ∧
      (writeRecord g p ps cands relaxed noSync s).chn.strands.length = s.chn.strands.length := by
  unfold writeRecord
  extract_lets
  split
  · exact ⟨rfl, rfl⟩
  · extract_lets
    exact ⟨by rw [strandOf_modStrand_same hlen], length_strands_modStrand _ _ _⟩

theorem besideStrands_finishSlot (g : Nat) (p : SlotPass) (s : State) : besideStrands (finishSlot g p s) = besideStrands s :=
  keeps_ite besideStrands ((besideStrands_slotRegs _ _ _).trans (besideStrands_writeRecord _ _ _ _ _ _ _)) rfl

theorem finishSlot_keeps_zone (g : Nat) (p : SlotPass) {s : State} (hlen : g < s.chn.strands.length) :
    (strandOf (finishSlot g p s) g).inZone = (strandOf s g).inZone ∧
      (finishSlot g p s).chn.strands.length = s.chn.strands.length := by
  unfold finishSlot
  extract_lets st s₁
  split
  · rw [strandOf_of_chn (slotRegs_chn _ _ _), slotRegs_chn]
    exact writeRecord_keeps_zone g p _ [] false false (s := s₁) hlen
  · exact ⟨rfl, rfl⟩

end Sys2Proof.Proofs
end

section
/-! Slots, segments, timing loss and defect spans of a reading strand (R120, R128, R129, R137, R139, R140). -/

namespace Sys2Proof.Proofs

open Sys2Proof Sys2Proof.Machine Sys2Proof.Safety

/-! ### Preamble bit 0 (R120, R137) -/

/-- The state at preamble bit 0: the slot that ended is put away, and the forced errors that held in it read back 0. -/
def slotEnded (g : Nat) (prev : SlotPass) (s : State) : State :=
  let s := finishSlot g prev s
  let old := strandOf s g
  let s := if old.missNow then setF (chF Fld.CHN_TEST_FORCE_SYNC_MISS g) 0 s else s
  if old.defectNow then setF (chF Fld.CHN_TEST_FORCE_DEFECT g) 0 s else s

theorem besideStrands_slotEnded (g : Nat) (prev : SlotPass) (s : State) : besideStrands (slotEnded g prev s) = besideStrands s := by
  have hmiss := keeps_ite (p := (strandOf (finishSlot g prev s) g).missNow = true) besideStrands
    (besideStrands_setF (chF Fld.CHN_TEST_FORCE_SYNC_MISS g) 0 _ |>.trans (besideStrands_finishSlot g prev s))
    (besideStrands_finishSlot g prev s)
  exact keeps_ite besideStrands hmiss hmiss

theorem slotEnded_chn (g : Nat) (prev : SlotPass) (s : State) : (slotEnded g prev s).chn = (finishSlot g prev s).chn := by
  have hmiss := keeps_ite (p := (strandOf (finishSlot g prev s) g).missNow = true) State.chn
    (setF_chn (chF Fld.CHN_TEST_FORCE_SYNC_MISS g) 0 (finishSlot g prev s)) rfl
  exact keeps_ite State.chn hmiss hmiss

/-- Putting the slot away keeps the strand's zone, and the strand in the table. -/
theorem slotEnded_keeps_zone (g : Nat) (prev : SlotPass) {s : State} (hlen : g < s.chn.strands.length) :
    (strandOf (slotEnded g prev s) g).inZone = (strandOf s g).inZone ∧ g < (slotEnded g prev s).chn.strands.length := by
  obtain ⟨hin, hnum⟩ := finishSlot_keeps_zone g prev hlen
  rw [strandOf_of_chn (slotEnded_chn g prev s), slotEnded_chn, hnum]
  exact ⟨hin, hlen⟩

section
variable {s : State} {g lf zone slot pre : Nat} {prev : SlotPass}

theorem slotStartEff_takes (hread : reading s g = true) (hcar : carOf lf zone = g / 8) :
    ¬ (!reading (slotEnded g prev s) g || decide (carOf lf zone ≠ g / 8)) = true := by
  simp [reading_of_besideStrands (besideStrands_slotEnded g prev s), hread, hcar]

/-- In its zone a strand takes the slot, and then the seed of the zone's block. -/
theorem slotStartEff_seeded (hread : reading s g = true) (hcar : carOf lf zone = g / 8) (hlen : g < s.chn.strands.length)
    (hzone : (strandOf s g).inZone = some (lf, zone)) :
    ∃ (takes loads : StrandSt → StrandSt) (u : State),
      slotStartEff g lf zone slot pre prev s = modStrand g loads u ∧ u.chn = (modStrand g takes (slotEnded g prev s)).chn ∧
      (∀ st, (takes st).cur = some (lf, zone, slot) ∧ (takes st).skip = false ∧ (takes st).timingLost = false) ∧
      (∀ st, (loads st).cur = st.cur ∧ (loads st).skip = st.skip ∧ (loads st).timingLost = st.timingLost ∧
        (loads st).seed = (seedOf (zoneBlock s lf zone) lf zone (g % 8)).1) := by
  unfold slotStartEff
  extract_lets +onlyGivenNames s₁ old s₂ s₃
  rw [if_neg (show ¬ (!reading s₃ g || decide (carOf lf zone ≠ g / 8)) = true from slotStartEff_takes hread hcar)]
  extract_lets +onlyGivenNames entry blk cfg force s₄
  have hold : old.inZone = some (lf, zone) := (finishSlot_keeps_zone g prev hlen).1.trans hzone
  have hblk : blk = some (zoneBlock s lf zone) := (if_neg (not_not_intro hold)).trans
    (congrArg some (zoneBlock_of_besideStrands (besideStrands_slotEnded g prev s) lf zone))
  clear_value blk
  subst hblk
  exact ⟨_, _, _, rfl, keeps_ite State.chn rfl rfl, fun _ => ⟨rfl, rfl, rfl⟩, fun _ => ⟨rfl, rfl, rfl, rfl⟩⟩

/-- Where the zone is entered and no block is there, the slot is skipped with ZONE_LATE. -/
theorem slotStartEff_late (hread : reading s g = true) (hcar : carOf lf zone = g / 8) (hlen : g < s.chn.strands.length)
    (hzone : (strandOf s g).inZone ≠ some (lf, zone)) (hfetch : s.chn.fetch.getD (g / 8) none = none) :
    ∃ takes : StrandSt → StrandSt,
      slotStartEff g lf zone slot pre prev s = chEvt Fld.CHN_EVT_ZONE_LATE g (modStrand g takes (slotEnded g prev s)) ∧
      ∀ st, (takes st).cur = some (lf, zone, slot) ∧ (takes st).skip = true := by
  unfold slotStartEff
  extract_lets +onlyGivenNames s₁ old s₂ s₃
  rw [if_neg (show ¬ (!reading s₃ g || decide (carOf lf zone ≠ g / 8)) = true from slotStartEff_takes hread hcar)]
  extract_lets +onlyGivenNames entry blk cfg force s₄
  have hold : old.inZone ≠ some (lf, zone) := fun h => hzone ((finishSlot_keeps_zone g prev hlen).1.symm.trans h)
  have hf : s₃.chn.fetch.getD (g / 8) none = none := by
    rw [show s₃.chn.fetch = s.chn.fetch from fetch_of_besideStrands (besideStrands_slotEnded g prev s), hfetch]
  have hblk : blk = none := by
    refine (if_pos hold).trans ?_
    rw [hf]
  clear_value blk
  subst hblk
  exact ⟨_, rfl, fun _ => ⟨rfl, rfl⟩⟩

theorem completes_slotStart_seeded (hread : reading s g = true) (hcar : carOf lf zone = g / 8) (hg : g < 32)
    (hlen : s.chn.strands.length = 32) (hzone : (strandOf s g).inZone = some (lf, zone)) :
    completes (.slotStart g lf zone slot pre prev) s (fun t => (strandOf t g).cur = some (lf, zone, slot) ∧
      (strandOf t g).skip = false ∧ (strandOf t g).timingLost = false ∧
      (strandOf t g).seed = (seedOf (zoneBlock s lf zone) lf zone (g % 8)).1) := by
  have hg' : g < s.chn.strands.length := hlen ▸ hg
  obtain ⟨takes, loads, u, heff, hu, htakes, hloads⟩ := slotStartEff_seeded (slot := slot) (pre := pre) (prev := prev)
    hread hcar hg' hzone
  have hended : g < (slotEnded g prev s).chn.strands.length := (slotEnded_keeps_zone g prev hg').2
  have hstrand : strandOf (modStrand g loads u) g = loads (takes (strandOf (slotEnded g prev s) g)) := by
    rw [strandOf_modStrand_same (by rwa [hu, length_strands_modStrand]), strandOf_of_chn hu, strandOf_modStrand_same hended]
  refine completes_of_done (congrArg (done s) ((if_pos hg).trans heff)) ?_
  rw [strandOf_of_chn (finish_chn _ _), hstrand]
  obtain ⟨hcur, hskip, hlost, hseed⟩ := hloads (takes (strandOf (slotEnded g prev s) g))
  obtain ⟨hcur', hskip', hlost'⟩ := htakes (strandOf (slotEnded g prev s) g)
  exact ⟨hcur.trans hcur', hskip.trans hskip', hlost.trans hlost', hseed⟩

theorem completes_slotStart_late (hread : reading s g = true) (hcar : carOf lf zone = g / 8) (hg : g < 32)
    (hlen : s.chn.strands.length = 32) (hzone : (strandOf s g).inZone ≠ some (lf, zone))
    (hfetch : s.chn.fetch.getD (g / 8) none = none) :
    completes (.slotStart g lf zone slot pre prev) s (fun t => (strandOf t g).cur = some (lf, zone, slot) ∧
      (strandOf t g).skip = true ∧ flag t (chF Fld.CHN_EVT_ZONE_LATE g) = true) := by
  have hg' : g < s.chn.strands.length := hlen ▸ hg
  obtain ⟨takes, heff, htakes⟩ := slotStartEff_late (slot := slot) (pre := pre) (prev := prev) hread hcar hg' hzone hfetch
  have hstrand : strandOf (modStrand g takes (slotEnded g prev s)) g = takes (strandOf (slotEnded g prev s) g) :=
    strandOf_modStrand_same (slotEnded_keeps_zone g prev hg').2 takes
  obtain ⟨hcur, hskip⟩ := htakes (strandOf (slotEnded g prev s) g)
  refine completes_of_done (congrArg (done s) ((if_pos hg).trans heff)) ?_
  rw [strandOf_of_chn (finish_chn _ _), strandOf_of_chn (chEvt_chn _ _ _), hstrand, flag_finish]
  exact ⟨hcur, hskip, flag_chEvt_same hg rfl rfl (by decide) _⟩

end

/-! ### Within a slot (R128, R129, R139, R140) -/

section
variable {s : State} {g : Nat}

theorem completes_segmentEnd (hg : g < 32) (hlen : s.chn.strands.length = 32) :
    completes (.segmentEnd g) s (fun t => strandOf t g = { strandOf s g with held := (strandOf s g).cur.isSome } ∧ t.unt = s.unt) := by
  refine completes_of_done (congrArg (done s) (if_pos hg)) ⟨?_, by simp [segmentEndEff]⟩
  rw [strandOf_of_chn (finish_chn _ _), segmentEndEff, strandOf_modStrand_same (hlen ▸ hg)]

theorem timingLostEff_of_slot (hcur : (strandOf s g).cur.isSome = true) (hskip : (strandOf s g).skip = false)
    (hlost : (strandOf s g).timingLost = false) (pos : Nat) :
    timingLostEff g pos s = chEvt Fld.CHN_EVT_TIMING_LOST g (chBump g 3 1
      (modStrand g (fun st => { st with timingLost := true, runs := st.runs ++ [(pos, 38816 - pos)] }) s)) :=
  if_pos (by simp [hcur, hskip, hlost])

theorem completes_timingLost (hg : g < 32) (hlen : s.chn.strands.length = 32) (pos : Nat)
    (hcur : (strandOf s g).cur.isSome = true) (hskip : (strandOf s g).skip = false) (hlost : (strandOf s g).timingLost = false) :
    completes (.timingLost g pos) s (fun t =>
      strandOf t g = { strandOf s g with timingLost := true, runs := (strandOf s g).runs ++ [(pos, 38816 - pos)] } ∧
      flag t (chF Fld.CHN_EVT_TIMING_LOST g) = true) := by
  refine completes_of_done (congrArg (done s) ((if_pos hg).trans (timingLostEff_of_slot hcur hskip hlost pos))) ?_
  rw [strandOf_of_chn (finish_chn _ _), strandOf_of_chn (chEvt_chn _ _ _), flag_finish]
  exact ⟨strandOf_modStrand_same (hlen ▸ hg) _, flag_chEvt_same hg rfl rfl (by decide) _⟩

theorem defectStartEff_of_slot (hcur : (strandOf s g).cur.isSome = true) (hheld : (strandOf s g).held = false)
    (hblank : (strandOf s g).blank = false) (hdefect : (strandOf s g).defect = false) (pos : Nat) :
    defectStartEff g pos s = modStrand g (fun st => { st with defect := true, spanFrom := pos }) s :=
  if_pos (by simp [hcur, hheld, hblank, hdefect])

theorem completes_defectFlagStart (hg : g < 32) (hlen : s.chn.strands.length = 32) (pos : Nat)
    (hcur : (strandOf s g).cur.isSome = true) (hheld : (strandOf s g).held = false) (hblank : (strandOf s g).blank = false)
    (hdefect : (strandOf s g).defect = false) :
    completes (.defectFlagStart g pos) s (fun t => strandOf t g = { strandOf s g with defect := true, spanFrom := pos }) := by
  refine completes_of_done (congrArg (done s) ((if_pos hg).trans (defectStartEff_of_slot hcur hheld hblank hdefect pos))) ?_
  rw [strandOf_of_chn (finish_chn _ _)]
  exact strandOf_modStrand_same (hlen ▸ hg) _

/-- The span that ends before pos takes DEF_PRE before it and DEF_POST after it, within the slot. -/
def defectSpan (st : StrandSt) (pos : Nat) : Nat × Nat :=
  let lo := st.spanFrom - cfgF st Fld.CHN_DEF_CFG_DEF_PRE
  (lo, min 38816 (pos + cfgF st Fld.CHN_DEF_CFG_DEF_POST) - lo)

theorem defectEndEff_of_defect (hdefect : (strandOf s g).defect = true) (hnow : (strandOf s g).defectNow = false) (pos : Nat) :
    defectEndEff g pos s =
      modStrand g (fun st => { st with defect := false, runs := st.runs ++ [defectSpan (strandOf s g) pos] }) s :=
  if_pos (by simp [hdefect, hnow])

theorem completes_defectFlagEnd (hg : g < 32) (hlen : s.chn.strands.length = 32) (pos : Nat)
    (hdefect : (strandOf s g).defect = true) (hnow : (strandOf s g).defectNow = false) :
    completes (.defectFlagEnd g pos) s (fun t => (strandOf t g).defect = false ∧
      ∃ lo hi : Nat, lo = (strandOf s g).spanFrom - cfgF (strandOf s g) Fld.CHN_DEF_CFG_DEF_PRE ∧
        hi = min 38816 (pos + cfgF (strandOf s g) Fld.CHN_DEF_CFG_DEF_POST) ∧
        (strandOf t g).runs = (strandOf s g).runs ++ [(lo, hi - lo)]) := by
  refine completes_of_done (congrArg (done s) ((if_pos hg).trans (defectEndEff_of_defect hdefect hnow pos))) ?_
  rw [strandOf_of_chn (finish_chn _ _), strandOf_modStrand_same (hlen ▸ hg)]
  exact ⟨rfl, _, _, rfl, rfl, rfl⟩

end

/-- Settles O19: at preamble bit 0 the strand is changed twice, once to take the slot and once to load its seed; the other
commands change it once under their guards. -/
theorem slotsAndSegments : Obligations.SlotsAndSegments := by
  unfold Obligations.SlotsAndSegments
  intro s g hg hlen
  exact ⟨fun lf zone slot pre prev hread hcar hzone => completes_slotStart_seeded hread hcar hg hlen hzone,
    fun lf zone slot pre prev hread hcar hzone hfetch => completes_slotStart_late hread hcar hg hlen hzone hfetch,
    completes_segmentEnd hg hlen, fun pos => completes_timingLost hg hlen pos, fun pos => completes_defectFlagStart hg hlen pos,
    fun pos => completes_defectFlagEnd hg hlen pos⟩

end Sys2Proof.Proofs
end

section
/-! What a change of a unit, with the ends of commands and requests that follow it, can reach at all (R503). Where calm sets
whole records aside, beyondChange sets aside the fields that are written, so that strands, pool jobs and skeins stay in view. -/

namespace Sys2Proof.Proofs

open Sys2Proof Sys2Proof.Machine Sys2Proof.Safety

/-- The state without the fields that a change of a unit may write. -/
def beyondChange (s : State) : State :=
  { s with
    regs := [], out := [], mgt := {}, mram := {}, host := {}, unt := {}, cal := {}, pair := {}
    mot := { s.mot with spn := { s.mot.spn with calib := none } }
    media := { s.media with vols := [], cars := [], disc := { s.media.disc with importMode := false } }
    pool := { s.pool with disc := {} }
    chn := { s.chn with importMode := false } }

theorem strands_of_beyondChange {s t : State} (h : beyondChange t = beyondChange s) : t.chn.strands = s.chn.strands := by
  have hs := congrArg (fun b : State => b.chn.strands) h
  exact hs

@[simp] theorem beyondChange_setReg (off : Nat) (v : Word) (s : State) : beyondChange (setReg off v s) = beyondChange s := rfl
@[simp] theorem beyondChange_setF (f : Fld) (v : Nat) (s : State) : beyondChange (setF f v s) = beyondChange s := rfl
@[simp] theorem beyondChange_bump (off i : Nat) (s : State) : beyondChange (bump off i s) = beyondChange s := rfl
@[simp] theorem beyondChange_modVol (v : Nat) (f : Volume → Volume) (s : State) : beyondChange (modVol v f s) = beyondChange s := rfl
@[simp] theorem beyondChange_setHold (u : Nat) (b : Bool) (s : State) : beyondChange (setHold u b s) = beyondChange s := rfl

theorem beyondChange_of_quiet {s t : State} (h : quiet t = quiet s) : beyondChange t = beyondChange s := by
  have hb := congrArg beyondChange h
  exact hb

@[simp] theorem beyondChange_event (b c u : Nat) (is : List Item) (s : State) : beyondChange (event b c u is s) = beyondChange s :=
  beyondChange_of_quiet (quiet_event b c u is s)

@[simp] theorem beyondChange_evt (f : Fld) (u : Nat) (is : List Item) (s : State) : beyondChange (evt f u is s) = beyondChange s :=
  beyondChange_of_quiet (quiet_evt f u is s)

@[simp] theorem beyondChange_modCmd (t : Nat) (f : Cmd → Cmd) (s : State) : beyondChange (modCmd t f s) = beyondChange s := by
  unfold modCmd
  split <;> rfl

@[simp] theorem beyondChange_mirror (m : MirrorItem) (s : State) : beyondChange (mirror m s) = beyondChange s :=
  keeps_ite beyondChange rfl rfl

/-! ### The entry, its record and the volumes -/

@[simp] theorem beyondChange_putState (u : Nat) (tgt : UState) (why : Reason) (s : State) :
    beyondChange (putState u tgt why s) = beyondChange s := keeps_ite beyondChange rfl rfl

@[simp] theorem beyondChange_recordChange (u : Nat) (src : Source) (q : Nat) (s : State) :
    beyondChange (recordChange u src q s) = beyondChange s :=
  (beyondChange_mirror _ _).trans (keeps_ite beyondChange (beyondChange_event _ _ _ _ _) rfl)

@[simp] theorem beyondChange_recompute (s : State) : beyondChange (recompute s) = beyondChange s :=
  keeps_ite beyondChange (forEach_keeps beyondChange _ (fun _ _ => keeps_ite beyondChange (by simp) rfl) _ _) rfl

/-! ### The ends of commands and of requests -/

@[simp] theorem beyondChange_recordReplay (c : Cmd) (s : State) : beyondChange (recordReplay c s) = beyondChange s :=
  keeps_ite beyondChange (by simp) rfl

@[simp] theorem beyondChange_endOne (t : Nat) (st : Status) (r : Nat) (s : State) :
    beyondChange (endOne t st r s) = beyondChange s := by
  unfold endOne
  split
  · rfl
  · refine keeps_ite beyondChange rfl ?_
    extract_lets c' s₁ s₂
    have hrecorded : beyondChange s₁ = beyondChange s := beyondChange_recordReplay c' s
    have hcounted : beyondChange s₂ = beyondChange s := keeps_ite beyondChange hrecorded hrecorded
    exact keeps_ite beyondChange hcounted hcounted

@[simp] theorem beyondChange_endRepeats (q : Nat) (st : Status) (r : Nat) (rel : Bool) (step : Nat) (s : State) :
    beyondChange (endRepeats q st r rel step s) = beyondChange s :=
  forEach_keeps beyondChange _ (fun _ _ => keeps_ite beyondChange (by simp) rfl) _ _

@[simp] theorem beyondChange_createFailed (c : Cmd) (st : Status) (s : State) :
    beyondChange (createFailed c st s) = beyondChange s :=
  keeps_ite beyondChange (forEach_keeps beyondChange _ (fun _ _ => keeps_ite beyondChange (by simp) rfl) _ _) rfl

@[simp] theorem beyondChange_endCmd (t : Nat) (st : Status) (r : Nat) (s : State) :
    beyondChange (endCmd t st r s) = beyondChange s := by
  unfold endCmd
  split
  · rfl
  · exact keeps_ite beyondChange rfl (by simp)

@[simp] theorem beyondChange_setGate4 (t : Nat) (g : Gate) (s : State) : beyondChange (setGate4 t g s) = beyondChange s := by
  unfold setGate4
  split
  · rfl
  · refine keeps_ite beyondChange (keeps_ite beyondChange (by simp) ?_) (by simp)
    split <;> simp

@[simp] theorem beyondChange_regateOne (e : Nat × Cmd) (s : State) : beyondChange (regateOne e s) = beyondChange s := by
  unfold regateOne
  dsimp only
  split
  · rfl
  · rfl
  · refine keeps_ite beyondChange rfl ?_
    split
    · simp
    · refine keeps_ite beyondChange rfl ?_
      split
      · exact keeps_ite beyondChange rfl (by simp)
      · simp
      · simp

@[simp] theorem beyondChange_regate (s : State) : beyondChange (regate s) = beyondChange s :=
  have hall := forEach_keeps beyondChange regateOne beyondChange_regateOne (cmds s) s
  keeps_ite beyondChange hall hall

@[simp] theorem beyondChange_finishReq (r : UnitReq) (st : Status) (s : State) :
    beyondChange (finishReq r st s) = beyondChange s := by
  unfold finishReq
  extract_lets s₁ s₂
  have hcounted : beyondChange s₂ = beyondChange s :=
    keeps_ite beyondChange (keeps_ite beyondChange rfl rfl) (keeps_ite beyondChange rfl rfl)
  split
  · exact hcounted
  · split
    · exact hcounted
    · rw [beyondChange_endCmd]
      exact keeps_ite beyondChange (keeps_ite beyondChange hcounted hcounted) hcounted
  · exact hcounted
  · exact hcounted
  · exact hcounted

@[simp] theorem beyondChange_settleReqs (u : Nat) (s : State) : beyondChange (settleReqs u s) = beyondChange s := by
  refine (forEach_keeps beyondChange _ (fun r s => ?_) _ _).trans rfl
  split <;> simp

/-! ### What follows a change, and the calibrations that it ends -/

@[simp] theorem beyondChange_afterChange (u : Nat) (a b : UState) (s : State) :
    beyondChange (afterChange u a b s) = beyondChange s := by
  have hstop : beyondChange (carWriteStop u b s) = beyondChange s := keeps_ite beyondChange rfl rfl
  have hheld (s : State) : beyondChange (endHeldWaits a b s) = beyondChange s :=
    keeps_ite beyondChange (forEach_keeps beyondChange _ (fun _ _ => keeps_ite beyondChange (by simp) rfl) _ _) rfl
  have himport (s : State) : beyondChange (endImport u a s) = beyondChange s := keeps_ite beyondChange rfl rfl
  unfold afterChange
  simp only [beyondChange_settleReqs, beyondChange_regate, himport]
  exact keeps_ite beyondChange ((hheld _).trans hstop) hstop

@[simp] theorem beyondChange_changeUnit0 (u : Nat) (tgt : UState) (why : Reason) (src : Source) (q : Nat) (s : State) :
    beyondChange (changeUnit0 u tgt why src q s) = beyondChange s := by
  refine keeps_ite beyondChange rfl ?_
  simp only [beyondChange_afterChange, beyondChange_recordChange]
  exact keeps_ite beyondChange (by simp) (by simp)

@[simp] theorem beyondChange_calRecord (r : CalRun) (st : Status) (o : Nat) (s : State) :
    beyondChange (calRecord r st o s) = beyondChange s := by
  unfold calRecord calEvt
  extract_lets _ s₁ _ s₂ s₃ s₄
  have hshown : beyondChange s₂ = beyondChange s := beyondChange_setReg _ _ s₁
  have hbump (i : Nat) : beyondChange (bump Reg.CAL_CNT i s₂) = beyondChange s := (beyondChange_bump _ _ _).trans hshown
  have hcounted : beyondChange s₃ = beyondChange s := keeps_ite beyondChange (hbump 3) (keeps_ite beyondChange (hbump 0)
    (keeps_ite beyondChange (hbump 1) (keeps_ite beyondChange (hbump 2) hshown)))
  rw [beyondChange_evt]
  exact keeps_ite beyondChange ((beyondChange_evt _ _ _ _).trans hcounted) hcounted

@[simp] theorem beyondChange_calSweepOne (r : CalRun) (s : State) : beyondChange (calSweepOne r s) = beyondChange s := by
  unfold calSweepOne
  split
  · exact keeps_ite beyondChange (by simp) rfl
  · refine keeps_ite beyondChange rfl (keeps_ite beyondChange (by simp) (keeps_ite beyondChange ?_ rfl))
    rw [beyondChange_finishReq]
    exact keeps_ite beyondChange (by simp) (by simp)

@[simp] theorem beyondChange_change (u : Nat) (tgt : UState) (why : Reason) (s : State) :
    beyondChange (change u tgt why s) = beyondChange s :=
  (forEach_keeps beyondChange calSweepOne beyondChange_calSweepOne _ _).trans (beyondChange_changeUnit0 _ _ _ _ _ _)

@[simp] theorem beyondChange_carGradeCheck (why : Reason) (c : Nat) (s : State) :
    beyondChange (carGradeCheck why c s) = beyondChange s :=
  keeps_ite beyondChange (by simp) (keeps_ite beyondChange (by simp) rfl)

@[simp] theorem beyondChange_strandReadyCheck (g : Nat) (s : State) : beyondChange (strandReadyCheck g s) = beyondChange s :=
  keeps_ite beyondChange (by simp) rfl

end Sys2Proof.Proofs
end

section
/-! Wedge crossings, zone seed fetches and sector deliveries (R137, R143, R145, R146, R149, R168). -/

namespace Sys2Proof.Proofs

open Sys2Proof Sys2Proof.Machine Sys2Proof.Safety

/-! ### A wedge that a strand comes to (R143, R145) -/

/-- The strand at a wedge: its ply has come to it, and the strand's loops go on. -/
def wedgeArrived (g w ivl : Nat) (s : State) : State :=
  modStrand g (fun st => { st with held := false })
    (if (carOfS s (g / 8)).wedge = w % 96 && (carOfS s (g / 8)).ivl ≠ 0 then s else plyWedge (g / 8) (w % 96) ivl s)

theorem length_strands_plyWedge (c w ivl : Nat) (s : State) :
    (plyWedge c w ivl s).chn.strands.length = s.chn.strands.length := by
  refine keeps_ite (fun t : State => t.chn.strands.length) ?_ rfl
  have hrev (l : List Nat) (s : State) : (forEach revEnd l s).chn.strands.length = s.chn.strands.length :=
    forEach_keeps (fun t : State => t.chn.strands.length) revEnd (fun _ _ => length_strands_modStrand _ _ _) l s
  exact keeps_ite (fun t : State => t.chn.strands.length) (hrev _ _) (hrev _ _)

theorem wedgeArrived_releases {g : Nat} (w ivl : Nat) {s : State} (hlen : g < s.chn.strands.length) :
    (strandOf (wedgeArrived g w ivl s) g).held = false ∧ g < (wedgeArrived g w ivl s).chn.strands.length := by
  unfold wedgeArrived
  rw [length_strands_modStrand]
  have hply : g < (if (carOfS s (g / 8)).wedge = w % 96 && (carOfS s (g / 8)).ivl ≠ 0 then s
      else plyWedge (g / 8) (w % 96) ivl s).chn.strands.length := by
    split
    · exact hlen
    · rwa [length_strands_plyWedge]
  exact ⟨by rw [strandOf_modStrand_same hply], hply⟩

/-- A found wedge is locked and reported; the strand's position may be accepted or not. -/
theorem wedgeFound_locks {g : Nat} {s : State} (hlen : g < s.chn.strands.length) (m : WedgeMeas) :
    (strandOf (wedgeFound g m s) g).wedgeLock = true ∧ (strandOf (wedgeFound g m s) g).held = (strandOf s g).held := by
  unfold wedgeFound
  extract_lets c st leg s₁ s₂ s₃ good s₄ pos
  clear_value pos
  have hlen' : g < s₄.chn.strands.length := hlen
  split
  · rw [strandOf_modStrand_same]
    · exact ⟨rfl, rfl⟩
    · exact hlen'
  · rw [strandOf_modStrand_same]
    · exact ⟨rfl, rfl⟩
    · exact hlen'

theorem getReg_wedgeFound_addr (g : Nat) (m : WedgeMeas) (s : State) :
    getReg (wedgeFound g m s) (chR Reg.CHN_WEDGE_ADDR g) = BitVec.ofNat 32 m.addr := by
  have hpos : chR Reg.CHN_POS g ≠ chR Reg.CHN_WEDGE_ADDR g := by
    simp [chR, Reg.CHN_POS, Reg.CHN_WEDGE_ADDR]
  unfold wedgeFound
  extract_lets c st leg s₁ s₂ s₃ good s₄ pos
  clear_value pos
  have haddr : getReg s₄ (chR Reg.CHN_WEDGE_ADDR g) = BitVec.ofNat 32 m.addr := getReg_setReg_same _ _ _
  clear_value s₄
  split
  · exact (getReg_setReg_ne hpos _ s₄).trans haddr
  · exact (getReg_setReg_ne hpos _ s₄).trans haddr

theorem wedgeMissed_unlocks {g : Nat} {s : State} (hlen : g < s.chn.strands.length) :
    (strandOf (wedgeMissed g s) g).wedgeLock = false ∧ (strandOf (wedgeMissed g s) g).posValid = false := by
  have h := strandOf_modStrand_same hlen (fun st => { st with wedgeLock := false, posValid := false, noPos := min 3 (st.noPos + 1) })
  exact ⟨congrArg StrandSt.wedgeLock h, congrArg StrandSt.posValid h⟩

/-- The figures of a ply, and the freshness of its loops' measurements, are motion state. -/
theorem plyPosition_keeps_chn_regs (c : Nat) (s : State) : (plyPosition c s).chn = s.chn ∧ (plyPosition c s).regs = s.regs := by
  have hfresh (s : State) : (chevronFresh c s).chn = s.chn ∧ (chevronFresh c s).regs = s.regs := by
    unfold chevronFresh
    split
    · exact ⟨rfl, rfl⟩
    · refine ⟨forEach_keeps State.chn _ ?_ _ _, forEach_keeps State.regs _ ?_ _ _⟩
      · exact fun _ _ => rfl
      · exact fun _ _ => rfl
  unfold plyPosition
  extract_lets m acc
  split
  · exact hfresh _
  · exact ⟨rfl, rfl⟩

/-- What follows a strand's report leaves the strand and its registers as the report made them. -/
theorem strandOf_wedgeEnd (c g h : Nat) (s : State) : strandOf (strandReadyCheck h (plyPosition c s)) g = strandOf s g := by
  have hstrands := strands_of_beyondChange (beyondChange_strandReadyCheck h (plyPosition c s))
  rw [strandOf, hstrands, (plyPosition_keeps_chn_regs c s).1, ← strandOf]

theorem getReg_wedgeEnd {off : Nat} (hoff : off ∉ changeRegs) (c h : Nat) (s : State) :
    getReg (strandReadyCheck h (plyPosition c s)) off = getReg s off :=
  (getReg_of_calm (calm_strandReadyCheck _ _) hoff).trans (getReg_congr (plyPosition_keeps_chn_regs c s).2 off)

section
variable {s : State} {g w ivl : Nat}

theorem wedgeEff_found (hfocus : kindActive s 1 (g / 8) = true) (hb : bound s (uStrand g) = true) (m : WedgeMeas) :
    wedgeEff g w ivl (some m) s = strandReadyCheck g (plyPosition (g / 8) (wedgeFound g m (wedgeArrived g w ivl s))) :=
  if_neg (by simp [hfocus, hb])

theorem wedgeEff_missed (hfocus : kindActive s 1 (g / 8) = true) (hb : bound s (uStrand g) = true) :
    wedgeEff g w ivl none s = strandReadyCheck g (plyPosition (g / 8) (wedgeMissed g (wedgeArrived g w ivl s))) :=
  if_neg (by simp [hfocus, hb])

theorem completes_wedgeCrossing_found (hg : g < 32) (hlen : s.chn.strands.length = 32)
    (hfocus : kindActive s 1 (g / 8) = true) (hb : bound s (uStrand g) = true) (m : WedgeMeas) :
    completes (.wedgeCrossing g w ivl (some m)) s (fun t => (strandOf t g).wedgeLock = true ∧ (strandOf t g).held = false ∧
      getReg t (chR Reg.CHN_WEDGE_ADDR g) = BitVec.ofNat 32 m.addr) := by
  obtain ⟨hheld, hnum⟩ := wedgeArrived_releases w ivl (hlen ▸ hg : g < s.chn.strands.length)
  obtain ⟨hlock, hheld'⟩ := wedgeFound_locks hnum m
  refine completes_of_done (congrArg (done s) ((if_pos hg).trans (wedgeEff_found hfocus hb m))) ?_
  rw [strandOf_of_chn (finish_chn _ _), getReg_finish, strandOf_wedgeEnd,
    getReg_wedgeEnd (chR_notMem_changeRegs hg (by decide)), getReg_wedgeFound_addr]
  exact ⟨hlock, hheld'.trans hheld, rfl⟩

theorem completes_wedgeCrossing_missed (hg : g < 32) (hlen : s.chn.strands.length = 32)
    (hfocus : kindActive s 1 (g / 8) = true) (hb : bound s (uStrand g) = true) :
    completes (.wedgeCrossing g w ivl none) s (fun t => (strandOf t g).wedgeLock = false ∧ (strandOf t g).posValid = false) := by
  obtain ⟨_, hnum⟩ := wedgeArrived_releases w ivl (hlen ▸ hg : g < s.chn.strands.length)
  refine completes_of_done (congrArg (done s) ((if_pos hg).trans (wedgeEff_missed hfocus hb))) ?_
  rw [strandOf_of_chn (finish_chn _ _), strandOf_wedgeEnd]
  exact wedgeMissed_unlocks hnum

end

/-! ### A revolution without a wedge (R146) -/

/-- The strand that missed a revolution: WEDGE_MISS_REV is raised and the revolution counted, up to three. -/
def revMissed (g : Nat) (s : State) : State :=
  modStrand g (fun st => { st with missRevs := min 3 (st.missRevs + 1) }) (chEvt Fld.CHN_EVT_WEDGE_MISS_REV g s)

/-- The strand is FAULTED, and its carriage graded anew. -/
def strandFaulted (g : Nat) (s : State) : State :=
  carGradeCheck .sensor (g / 8) (evt Fld.UNT_EVT_STRAND_FAULT (uStrand g) [⟨1, g⟩] (change (uStrand g) .faulted .sensor s))

theorem beyondChange_strandFaulted (g : Nat) (s : State) : beyondChange (strandFaulted g s) = beyondChange s := by
  simp [strandFaulted]

theorem calm_strandFaulted (g : Nat) (s : State) : calm (strandFaulted g s) = calm s := by
  rw [strandFaulted, calm_carGradeCheck, calm_evt (by decide), calm_change]

theorem ust_carGradeCheck_ne {u : Nat} (hu : u < 0x40) (hcar : isCar u = false) {c : Nat} (hc : uCar c ≠ u) (why : Reason)
    (s : State) : ust (carGradeCheck why c s) u = ust s u :=
  keeps_ite (ust · u) (ust_change_ne hu hcar hc _ _ _ _ _) (keeps_ite (ust · u) (ust_change_ne hu hcar hc _ _ _ _ _) rfl)

theorem ust_strandFaulted {g : Nat} (hg : g < 32) (s : State) : ust (strandFaulted g s) (uStrand g) = .faulted := by
  have hu : uStrand g < 0x40 := by unfold uStrand; omega
  have hcar : isCar (uStrand g) = false := 
    Bool.and_eq_false_iff.2 (.inr (decide_eq_false (by unfold uStrand; omega)))
  have hne : uCar (g / 8) ≠ uStrand g := by unfold uCar uStrand; omega
  rw [strandFaulted, ust_carGradeCheck_ne hu hcar hne, ust, unitOf, evt_unt]
  exact ust_change_same hu hcar _ _ _ _ _

section
variable {s : State} {g : Nat}

theorem wedgeMissRevEff_eq (hrev : (strandOf s g).lastRev = 0) (hb : bound s (uStrand g) = true)
    (hothers : 4 ≤ ((upFrom (8 * (g / 8)) 8).filter (fun h => h ≠ g && decide (96 ≤ (strandOf s h).lastRev))).length) :
    wedgeMissRevEff g s = if 3 ≤ (strandOf (revMissed g s) g).missRevs && ust (revMissed g s) (uStrand g) ≠ .faulted &&
        ust (revMissed g s) (uStrand g) ≠ .absent then strandFaulted g (revMissed g s) else revMissed g s :=
  if_neg (by simp [hrev, hb]; simpa using hothers)

theorem ust_revMissed (u : Nat) : ust (revMissed g s) u = ust s u := by
  rw [ust, unitOf, revMissed, modStrand_unt, chEvt_unt, ← unitOf, ← ust]

theorem missRevs_revMissed (hlen : g < s.chn.strands.length) :
    (strandOf (revMissed g s) g).missRevs = min 3 ((strandOf s g).missRevs + 1) := by
  rw [revMissed, strandOf_modStrand_same (by rwa [chEvt_chn]), strandOf_of_chn (chEvt_chn _ _ _)]

theorem flag_revMissed (hg : g < 32) : flag (revMissed g s) (chF Fld.CHN_EVT_WEDGE_MISS_REV g) = true :=
  flag_chEvt_same hg rfl rfl (by decide) s

theorem completes_wedgeMissRev (hg : g < 32) (hlen : s.chn.strands.length = 32) (hrev : (strandOf s g).lastRev = 0)
    (hb : bound s (uStrand g) = true)
    (hothers : 4 ≤ ((upFrom (8 * (g / 8)) 8).filter (fun h => h ≠ g && decide (96 ≤ (strandOf s h).lastRev))).length) :
    completes (.wedgeMissRev g) s (fun t => (strandOf t g).missRevs = min 3 ((strandOf s g).missRevs + 1) ∧
      flag t (chF Fld.CHN_EVT_WEDGE_MISS_REV g) = true ∧
      (2 ≤ (strandOf s g).missRevs → ust s (uStrand g) = .ready → ust t (uStrand g) = .faulted)) := by
  have hmiss := missRevs_revMissed (hlen ▸ hg : g < s.chn.strands.length)
  refine completes_of_done (congrArg (done s) ((if_pos hg).trans (wedgeMissRevEff_eq hrev hb hothers))) ?_
  rw [strandOf_of_chn (finish_chn _ _), flag_finish, ust_finish]
  by_cases hfault : (3 ≤ (strandOf (revMissed g s) g).missRevs && ust (revMissed g s) (uStrand g) ≠ .faulted &&
      ust (revMissed g s) (uStrand g) ≠ .absent) = true
  · rw [if_pos hfault]
    have hstrands := strands_of_beyondChange (beyondChange_strandFaulted g (revMissed g s))
    have hevt : getReg (strandFaulted g (revMissed g s)) (chR Reg.CHN_EVT g) = getReg (revMissed g s) (chR Reg.CHN_EVT g) :=
      getReg_of_calm (calm_strandFaulted _ _) (chR_notMem_changeRegs hg (by decide))
    refine ⟨?_, (flag_of_getF (getF_of_getReg hevt)).trans (flag_revMissed hg), fun _ _ => ust_strandFaulted hg _⟩
    rw [strandOf, hstrands]
    exact hmiss
  · rw [if_neg hfault]
    refine ⟨hmiss, flag_revMissed hg, fun htwo hready => absurd ?_ hfault⟩
    simp [hmiss, ust_revMissed, hready]
    omega

end

/-! ### Zone seeds (R137) -/

theorem completes_zoneSeedFetch {s : State} {c lf zone : Nat} (hc : c < 4) (hcar : carOf lf zone = c) :
    completes (.zoneSeedFetch c lf zone) s (fun t =>
      t.chn = { s.chn with fetch := modAt c (fun _ => some { lf := lf, zone := zone }) s.chn.fetch }) :=
  completes_of_done (congrArg (done s) ((if_pos hc).trans (if_pos hcar))) (finish_chn _ _)

theorem seedReadyEff_some {s : State} {c : Nat} {f : SeedFetch} (hf : s.chn.fetch.getD c none = some f) :
    seedReadyEff c s = { s with chn := { s.chn with
      fetch := modAt c (fun _ => some { f with block := some (zoneBlock s f.lf f.zone) }) s.chn.fetch } } := by
  rw [seedReadyEff, hf]

theorem completes_zoneSeedReady {s : State} {c : Nat} {f : SeedFetch} (hc : c < 4) (hf : s.chn.fetch.getD c none = some f) :
    completes (.zoneSeedReady c) s (fun t => t.chn = { s.chn with
      fetch := modAt c (fun _ => some { f with block := some (zoneBlock s f.lf f.zone) }) s.chn.fetch }) :=
  completes_of_done (congrArg (done s) ((if_pos hc).trans (seedReadyEff_some hf))) (finish_chn _ _)

/-! ### Deliveries (R149, R168) -/

theorem pool_of_besideStrands {s t : State} (h : besideStrands t = besideStrands s) : t.pool = s.pool := by
  have hp := congrArg State.pool h
  exact hp

theorem lastRegs_pool (g : Nat) (p : SlotPass) (ps : Pass) (cands : List Cand) (relaxed noSync : Bool) (erased mse : Nat)
    (s : State) : (lastRegs g p ps cands relaxed noSync erased mse s).pool = s.pool := by
  unfold lastRegs
  refine keeps_ite State.pool rfl ?_
  simp only [setReg_pool, forEach_setReg_pool]

/-- The end of a requested sector is the strand's and the registers' alone. -/
theorem deliver_pool (g : Nat) (p : SlotPass) (s : State) : (deliver g p s).2.pool = s.pool := by
  unfold deliver
  extract_lets +onlyGivenNames st ps sy body llr erased mse s₁ s₂ s₃ s₄ s₅
  clear_value mse erased llr body sy ps
  have h₁ : s₁.pool = s.pool := setF_pool _ _ s
  have h₂ : s₂.pool = s₁.pool := pool_of_besideStrands
    ((besideStrands_slotRegs g p _).trans (besideStrands_writeRecord g p ps sy.1 sy.2.1 sy.2.2 s₁))
  have h₃ : s₃.pool = s.pool := by
    unfold s₃
    rw [lastRegs_pool, h₂, h₁]
  clear_value s₃
  have h₄ : s₄.pool = s.pool := h₃
  have h₅ : s₅.pool = s.pool := keeps_ite State.pool ((chEvt_pool _ _ _).trans h₄) h₄
  exact keeps_ite State.pool ((chEvt_pool _ _ _).trans h₅) h₅

theorem pinRecord_pool (g lf zone slot : Nat) (s : State) : (pinRecord g lf zone slot s).2.pool = s.pool := by
  unfold pinRecord
  extract_lets st
  split
  · rfl
  · split
    · rfl
    · split
      · exact chEvt_pool _ _ _
      · rfl

theorem pinDelivery_pool (g lf zone slot : Nat) (s : State) : (pinDelivery g lf zone slot s).2.pool = s.pool := by
  have hown := pinRecord_pool g lf zone slot s
  have hleft := keeps_ite (p := neighbourServes (pinRecord g lf zone slot s).2 g false = true) State.pool
    ((pinRecord_pool (g - 1) lf zone slot _).trans hown) hown
  exact keeps_ite State.pool ((pinRecord_pool _ _ _ _ _).trans hleft) hleft

section
variable {s : State} {g a : Nat} {p : SlotPass}

theorem sectorDeliveryEff_full {w : ReadFor × Nat × Nat × List Nat} (hread : reading s g = true) (haddr : strandOfAddr a = g)
    (hcur : (strandOf s g).cur = some (pLF a, pZone a, slotOf a)) (hskip : (strandOf s g).skip = false)
    (hreq : requestFor (deliver g p s).2 a = some w) (hfull : 48 ≤ s.pool.bufs) :
    sectorDeliveryEff g a p s = decEvt Fld.DEC_EVT_INPUT_FULL a (bump Reg.DEC_CNT 12 (deliver g p s).2) := by
  unfold sectorDeliveryEff
  dsimp only
  rw [if_neg (by simp [hread, haddr, hcur, hskip]), hreq]
  exact if_pos (by rwa [deliver_pool])

/-- From s to t one job of strand g at address a is added to those that wait. -/
def jobAdded (g a : Nat) (s t : State) : Prop :=
  ∃ j : PoolJob, t.pool.waiting = s.pool.waiting ++ [j] ∧ j.addr = a ∧ j.strand = g

theorem jobAdded_addJob {s u : State} {j : PoolJob} {g a : Nat} (h : u.pool.waiting = s.pool.waiting) (haddr : j.addr = a)
    (hstrand : j.strand = g) : jobAdded g a s (addJob j u) :=
  ⟨{ j with id := u.pool.nextJob }, congrArg (· ++ _) h, haddr, hstrand⟩

/-- With a buffer free the delivery ends in one new job; what else a member's read does to its ladder and its pins leaves the
jobs that wait. -/
theorem sectorDeliveryEff_job {w : ReadFor × Nat × Nat × List Nat} (hread : reading s g = true) (haddr : strandOfAddr a = g)
    (hcur : (strandOf s g).cur = some (pLF a, pZone a, slotOf a)) (hskip : (strandOf s g).skip = false)
    (hreq : requestFor (deliver g p s).2 a = some w) (hfree : s.pool.bufs < 48) :
    jobAdded g a s (sectorDeliveryEff g a p s) := by
  obtain ⟨why, skein, m, place⟩ := w
  have hpool : (deliver g p s).2.pool = s.pool := deliver_pool g p s
  unfold sectorDeliveryEff
  rw [if_neg (by simp [hread, haddr, hcur, hskip])]
  generalize deliver g p s = r at hreq hpool
  obtain ⟨d, s'⟩ := r
  dsimp -zeta only at hreq hpool ⊢
  rw [hreq]
  dsimp -zeta only
  rw [if_neg (by rw [hpool]; omega)]
  extract_lets _ s₁
  have h₁ : s₁.pool.waiting = s.pool.waiting := show s'.pool.waiting = _ by rw [hpool]
  clear_value s₁
  cases why with
  | verify key member => exact jobAdded_addJob h₁ rfl rfl
  | assist => exact jobAdded_addJob h₁ rfl rfl
  | combine ladder member => exact jobAdded_addJob h₁ rfl rfl
  | member =>
    dsimp -zeta only
    rename_i s₂ l j _ s₃
    have h₂ : s₂.pool.waiting = s.pool.waiting := by
      unfold s₂
      refine (congrArg PoolState.waiting (pinDelivery_pool _ _ _ _ _)).trans ?_
      split
      · exact h₁
      · exact h₁
    have h₃ : s₃.pool.waiting = s.pool.waiting := h₂
    have hj : j.addr = a ∧ j.strand = g := ⟨rfl, rfl⟩
    clear_value s₃ j l s₂
    refine iteInduction (motive := jobAdded g a s) (fun _ => ?_) (fun _ => jobAdded_addJob h₂ rfl rfl)
    split
    · exact jobAdded_addJob h₃ hj.1 hj.2
    · exact jobAdded_addJob h₃ hj.1 hj.2

theorem completes_sectorDelivery_job {w : ReadFor × Nat × Nat × List Nat} (hg : g < 32) (hread : reading s g = true)
    (haddr : strandOfAddr a = g) (hcur : (strandOf s g).cur = some (pLF a, pZone a, slotOf a))
    (hskip : (strandOf s g).skip = false) (hreq : requestFor (deliver g p s).2 a = some w) (hfree : s.pool.bufs < 48) :
    completes (.sectorDelivery g a p) s (fun t =>
      ∃ j : PoolJob, t.pool.waiting = s.pool.waiting ++ [j] ∧ j.addr = a ∧ j.strand = g) := by
  refine completes_of_done (t := sectorDeliveryEff g a p s) (congrArg (done s) (if_pos hg)) ?_
  rw [finish_pool]
  exact sectorDeliveryEff_job hread haddr hcur hskip hreq hfree

theorem completes_sectorDelivery_full {w : ReadFor × Nat × Nat × List Nat} (hg : g < 32) (hread : reading s g = true)
    (haddr : strandOfAddr a = g) (hcur : (strandOf s g).cur = some (pLF a, pZone a, slotOf a))
    (hskip : (strandOf s g).skip = false) (hreq : requestFor (deliver g p s).2 a = some w) (hfull : 48 ≤ s.pool.bufs) :
    completes (.sectorDelivery g a p) s (fun t => t.pool = s.pool ∧ flag t Fld.DEC_EVT_INPUT_FULL = true) := by
  refine completes_of_done (congrArg (done s)
    ((if_pos hg).trans (sectorDeliveryEff_full hread haddr hcur hskip hreq hfull))) ?_
  rw [finish_pool, flag_finish, decEvt, evt_pool, bump_pool]
  exact ⟨deliver_pool g p s, flag_evt_same (by decide) rfl (by decide) _ _ _⟩

end

/-- Settles O20: what follows a strand's report, a unit's change with all it entails, leaves the strands' channels and their
registers, and what a delivery writes leaves the pool but for the one job. -/
theorem wedgesSeedsAndDeliveries : Obligations.WedgesSeedsAndDeliveries := by
  unfold Obligations.WedgesSeedsAndDeliveries
  intro s g hg hlen
  exact ⟨fun w ivl m hfocus hb => completes_wedgeCrossing_found hg hlen hfocus hb m,
    fun w ivl hfocus hb => completes_wedgeCrossing_missed hg hlen hfocus hb,
    fun hrev hb hothers => completes_wedgeMissRev hg hlen hrev hb hothers,
    fun c lf zone hc hcar => completes_zoneSeedFetch hc hcar,
    fun c f hc hf => completes_zoneSeedReady hc hf,
    fun a p w hread haddr hcur hskip hreq => ⟨completes_sectorDelivery_job hg hread haddr hcur hskip hreq,
      completes_sectorDelivery_full hg hread haddr hcur hskip hreq⟩⟩

end Sys2Proof.Proofs
end

section
/-! What the pool's work leaves of the pool (R166, R176, R178, R180): its units, each with the job it has, and which of them
failed. Each operation that may follow a finished job has one lemma, `sameUnits.f` for the operation `f`, so that the proof for
an operation that calls others reads as the operation does. -/

namespace Sys2Proof.Proofs

open Sys2Proof Sys2Proof.Machine Sys2Proof.Safety

/-- The pool without the work that it schedules: the engines, re-detect units and skein engines, and what of them failed. -/
def poolUnits (s : State) : PoolState :=
  { engines := s.pool.engines, redets := s.pool.redets, sengs := s.pool.sengs
    engDead := s.pool.engDead, redetDead := s.pool.redetDead, sengDead := s.pool.sengDead }

/-- The units of the pool are in t what they are in s. -/
def sameUnits (s t : State) : Prop := poolUnits t = poolUnits s

variable {u s t : State}

theorem sameUnits.refl (s : State) : sameUnits s s := rfl

theorem sameUnits.engines (h : sameUnits u s) : s.pool.engines = u.pool.engines := by
  have he := congrArg PoolState.engines h
  exact he

theorem sameUnits.redets (h : sameUnits u s) : s.pool.redets = u.pool.redets := by
  have hr := congrArg PoolState.redets h
  exact hr

/-- What an event or the end of a command can reach lies beside the pool's units. -/
theorem sameUnits.ofBeyond (h : sameUnits u s) (hb : beyondChange t = beyondChange s) : sameUnits u t := by
  have hp := congrArg poolUnits hb
  exact Eq.trans hp h

/-- A change of the pool's work alone. -/
theorem sameUnits.work (h : sameUnits u s) {bufs waiting nextJob ladders recons nextId sengQueue cached weak assists l4 l4Ready
      disc} :
    sameUnits u { s with pool := ⟨s.pool.engines, s.pool.redets, bufs, waiting, nextJob, ladders, recons, nextId, s.pool.sengs,
      sengQueue, s.pool.engDead, s.pool.redetDead, s.pool.sengDead, cached, weak, assists, l4, l4Ready, disc⟩ } := h

/-- A change of the media alone. -/
theorem sameUnits.media (h : sameUnits u s) {m : MediaState} : sameUnits u { s with media := m } := h

/-! ### Choices and repetitions -/

theorem sameUnits.ite {c : Prop} {_ : Decidable c} (hs : sameUnits u s) (ht : sameUnits u t) :
    sameUnits u (if c then s else t) := by
  split
  · exact hs
  · exact ht

theorem sameUnits.onlyIf (h : sameUnits u s) {c : Prop} {_ : Decidable c} (f : sameUnits u s → sameUnits u t) :
    sameUnits u (if c then t else s) := .ite (f h) h

theorem sameUnits.forEach {α : Type} {f : α → State → State} {l : List α} (h : sameUnits u s)
    (hf : ∀ {s} x, sameUnits u s → sameUnits u (f x s)) : sameUnits u (forEach f l s) := by
  induction l generalizing s with
  | nil => exact h
  | cons x l ih => exact ih (hf x h)

/-! ### Registers, events and ends of commands -/

theorem sameUnits.setF (h : sameUnits u s) {f v} : sameUnits u (setF f v s) := h

theorem sameUnits.bumpBy (h : sameUnits u s) {off n} : sameUnits u (bumpBy off n s) := h

theorem sameUnits.bump (h : sameUnits u s) {off i} : sameUnits u (bump off i s) := h

theorem sameUnits.emit (h : sameUnits u s) {o} : sameUnits u (emit o s) := h

theorem sameUnits.evt (h : sameUnits u s) {f unit items} : sameUnits u (evt f unit items s) :=
  h.ofBeyond (beyondChange_evt _ _ _ _)

theorem sameUnits.decEvt (h : sameUnits u s) {f a} : sameUnits u (decEvt f a s) := h.evt

theorem sameUnits.noEngineEvt (h : sameUnits u s) : sameUnits u (noEngineEvt s) := h.evt

theorem sameUnits.mirror (h : sameUnits u s) {m} : sameUnits u (mirror m s) := h.ofBeyond (beyondChange_mirror _ _)

theorem sameUnits.modCmd (h : sameUnits u s) {t f} : sameUnits u (modCmd t f s) := h.ofBeyond (beyondChange_modCmd _ _ _)

theorem sameUnits.endCmd (h : sameUnits u s) {t st result} : sameUnits u (endCmd t st result s) :=
  h.ofBeyond (beyondChange_endCmd _ _ _ _)

/-! ### The spindle's speed and the strands' pins -/

theorem sameUnits.modSpn (h : sameUnits u s) {f} : sameUnits u (modSpn f s) := h

theorem sameUnits.setInt (h : sameUnits u s) {off v} : sameUnits u (setInt off v s) := h

theorem sameUnits.arbitrate (h : sameUnits u s) : sameUnits u (arbitrate s) := by
  unfold Machine.arbitrate
  split
  · exact h
  · extract_lets
    split
    · exact h.modSpn.setInt
    · exact h.modSpn

theorem sameUnits.modStrand (h : sameUnits u s) {g f} : sameUnits u (modStrand g f s) := h

theorem sameUnits.unpinSlot (h : sameUnits u s) {g lf zone slot} : sameUnits u (unpinSlot g lf zone slot s) :=
  h.forEach fun _ h => h.onlyIf (·.modStrand)

/-! ### Skeins, queues, checkpoints and verify outcomes -/

theorem sameUnits.modVol (h : sameUnits u s) {v f} : sameUnits u (modVol v f s) := h

theorem sameUnits.gcHeld (h : sameUnits u s) : sameUnits u (gcHeld s) := h

theorem sameUnits.modSkein (h : sameUnits u s) {key f} : sameUnits u (modSkein key f s) := h

theorem sameUnits.dropSkein (h : sameUnits u s) {key} : sameUnits u (dropSkein key s) := h

theorem sameUnits.newSkein (h : sameUnits u s) : sameUnits u (newSkein s).2 := h

theorem sameUnits.takeNumber (h : sameUnits u s) : sameUnits u (takeNumber s).2 := h

theorem sameUnits.moveData (h : sameUnits u s) {old new} : sameUnits u (moveData old new s) := h

theorem sameUnits.setMember (h : sameUnits u s) {key d kind data} : sameUnits u (setMember key d kind data s) := h

theorem sameUnits.modWcar (h : sameUnits u s) {c f} : sameUnits u (modWcar c f s) := h

theorem sameUnits.leaveQueues (h : sameUnits u s) {key} : sameUnits u (leaveQueues key s) := h.forEach fun _ h => h.modWcar

theorem sameUnits.joinQueue (h : sameUnits u s) {key c} : sameUnits u (joinQueue key c s) := h.modWcar

theorem sameUnits.joinQueues (h : sameUnits u s) {key} : sameUnits u (joinQueues key s) := h.forEach fun _ h => h.joinQueue

theorem sameUnits.sealSkein (h : sameUnits u s) {key} : sameUnits u (sealSkein key s) := by
  unfold Machine.sealSkein
  split
  · exact h
  · exact .ite h h.takeNumber.modSkein.media.work

theorem sameUnits.ckptForm (h : sameUnits u s) {v} : sameUnits u (ckptForm v s) := by
  unfold Machine.ckptForm
  split
  · exact h.newSkein.modSkein.setMember.sealSkein
  · exact h

theorem sameUnits.writeAnchor (h : sameUnits u s) : sameUnits u (writeAnchor s) := .ite h.media h.media.emit.emit.media

theorem sameUnits.ckptAdvance (h : sameUnits u s) {v} : sameUnits u (ckptAdvance v s) := by
  unfold Machine.ckptAdvance
  split
  · exact h
  · split
    · exact h
    · exact .ite h.dropSkein.modVol.ckptForm h.dropSkein.modVol.writeAnchor

theorem sameUnits.ckptAll (h : sameUnits u s) : sameUnits u (ckptAll s) := h.forEach fun _ h => h.ckptAdvance

theorem sameUnits.settleOne (h : sameUnits u s) {e} : sameUnits u (settleOne e s) := by
  unfold Machine.settleOne
  refine .ite ?running (.ite (.ite h ?asOf) h)
  case running =>
    split
    · exact h
    · refine .ite h.endCmd ?_
      split
      · exact h.endCmd
      · exact h.onlyIf (·.endCmd.noEngineEvt)
  case asOf =>
    split
    · exact h.endCmd
    · exact h

theorem sameUnits.settle (h : sameUnits u s) : sameUnits u (settle s) := (h.forEach (fun _ h => h.settleOne)).gcHeld

theorem sameUnits.endExhausted (h : sameUnits u s) : sameUnits u (endExhausted s) := by
  unfold Machine.endExhausted
  refine h.forEach fun _ h => ?_
  split
  · exact h.onlyIf (·.endCmd)
  · exact h

theorem sameUnits.reform (h : sameUnits u s) {key counted} : sameUnits u (reform key counted s) := by
  unfold Machine.reform
  split
  · exact h
  · exact .ite h (.ite h.leaveQueues.modSkein.bump.evt.endExhausted
      h.leaveQueues.takeNumber.modSkein.media.moveData.joinQueues)

theorem sameUnits.verifyOutcome (h : sameUnits u s) {key m ok} : sameUnits u (verifyOutcome key m ok s) := by
  unfold Machine.verifyOutcome
  extract_lets s₁
  have h₁ : sameUnits u s₁ := h.bump
  split
  · exact h₁
  · refine .ite h₁.modSkein (.ite h₁.modSkein.bump.evt.reform.settle ?_)
    split
    · exact h₁.modSkein.onlyIf (·.modSkein.mirror)
    · exact h₁.modSkein

theorem sameUnits.verifyDone (h : sameUnits u s) {j d o key m} : sameUnits u (verifyDone j d o key m s) :=
  .ckptAll (.verifyOutcome (.ite h h.bump))

/-! ### Hank reads (R243) -/

theorem sameUnits.putHankQueue (h : sameUnits u s) {q} : sameUnits u (putHankQueue q s) := h

theorem sameUnits.leaveLadders (h : sameUnits u s) {t} : sameUnits u (leaveLadders t s) := h.work.forEach fun _ h => h.unpinSlot

theorem sameUnits.hankReadOne (h : sameUnits u s) {t} : sameUnits u (hankReadOne t s) := by
  unfold Machine.hankReadOne
  split
  · exact h
  · refine .ite h (.ite h (.ite h.endCmd.leaveLadders.gcHeld.noEngineEvt (h.forEach fun _ h => ?_)))
    dsimp only
    split
    · exact h
    · exact h.onlyIf (·.putHankQueue)

theorem sameUnits.hankReads (h : sameUnits u s) : sameUnits u (hankReads s) := h.forEach fun _ h => h.hankReadOne

/-! ### Ladders, reconstructions and relocation (R172 to R183) -/

theorem sameUnits.modLadder (h : sameUnits u s) {id f} : sameUnits u (modLadder id f s) := h

theorem sameUnits.newLadder (h : sameUnits u s) {skein m place} : sameUnits u (newLadder skein m place s).2 := h

theorem sameUnits.dropLadder (h : sameUnits u s) {id} : sameUnits u (dropLadder id s) := h

theorem sameUnits.unpinLadder (h : sameUnits u s) {l} : sameUnits u (unpinLadder l s) := h.unpinSlot.modLadder

theorem sameUnits.modRecon (h : sameUnits u s) {id f} : sameUnits u (modRecon id f s) := h

theorem sameUnits.dropRecon (h : sameUnits u s) {id} : sameUnits u (dropRecon id s) := h

theorem sameUnits.putCached (h : sameUnits u s) {skein m c} : sameUnits u (putCached skein m c s) := h

theorem sameUnits.settleSibling (h : sameUnits u s) {id m v} : sameUnits u (settleSibling id m v s) := by
  unfold Machine.settleSibling
  split
  · exact h
  · exact .ite h (h.modRecon.onlyIf (·.work))

theorem sameUnits.queueReloc (h : sameUnits u s) {skein place} : sameUnits u (queueReloc skein place s) :=
  .ite h (.ite h.evt.bump (.ite h.evt.bump h.media.bump))

theorem sameUnits.mediaWeak (h : sameUnits u s) {skein place kind} : sameUnits u (mediaWeak skein place kind s) :=
  .ite h.evt h.queueReloc

theorem sameUnits.weakCount (h : sameUnits u s) {skein place} : sameUnits u (weakCount skein place s) :=
  h.work.onlyIf (·.queueReloc)

theorem sameUnits.l4Begin (h : sameUnits u s) : sameUnits u (l4Begin s) := .ite h h.work.modSpn.arbitrate.evt

theorem sameUnits.l4End (h : sameUnits u s) : sameUnits u (l4End s) := h.onlyIf (·.work.modSpn.arbitrate)

/-- The reconstruction that a ladder serves as its own goes with it, if it has one. -/
theorem sameUnits.dropOwnRecon (h : sameUnits u s) {r : Option Nat} :
    sameUnits u (match r with | some r => Machine.dropRecon r s | none => s) := by
  split
  · exact h.dropRecon
  · exact h

theorem sameUnits.ladderSucceed (h : sameUnits u s) {l data kind} : sameUnits u (ladderSucceed l data kind s) := by
  unfold Machine.ladderSucceed
  extract_lets s₁ s₂ s₃ s₄ s₅ s₆
  have h₄ : sameUnits u s₄ := h.bump.putCached.unpinLadder.forEach fun _ h => h.settleSibling
  have h₅ : sameUnits u s₅ := .ite h₄.mediaWeak (h₄.onlyIf (·.weakCount))
  have h₆ : sameUnits u s₆ := h₅.dropOwnRecon
  exact h₆.dropLadder.l4End.hankReads

theorem sameUnits.ladderFail (h : sameUnits u s) {l} : sameUnits u (ladderFail l s) := by
  unfold Machine.ladderFail
  extract_lets s₁ s₂ s₃ s₄ _ _ s₅ s₆
  have h₃ : sameUnits u s₃ := h.bump.decEvt.unpinLadder.forEach fun _ h => by
    split
    · exact h.modCmd
    · exact h
  have h₄ : sameUnits u s₄ := h₃.forEach fun _ h => h.settleSibling
  have h₅ : sameUnits u s₅ := .ite h₄ h₄.evt.bumpBy.media
  have h₆ : sameUnits u s₆ := h₅.dropOwnRecon
  exact h₆.dropLadder.l4End

theorem sameUnits.startRecon (h : sameUnits u s) {l} : sameUnits u (startRecon l s) :=
  h.work.modLadder.work.onlyIf (·.modRecon.work)

theorem sameUnits.startCombine (h : sameUnits u s) {l} : sameUnits u (startCombine l s) := h.queueReloc.modLadder

/-- The step that is entered ends the ladder, or begins what the step does. -/
theorem sameUnits.enterStep (h : sameUnits u s) {id n} : sameUnits u (enterStep id n s) := by
  unfold Machine.enterStep
  split
  · exact h
  · extract_lets lim s₁ l₁ s₂ media s₃ l₃ s₄ s₅
    have h₂ : sameUnits u s₂ := (h.onlyIf (·.forEach fun _ h => h.settleSibling)).modLadder
    have h₅ : sameUnits u s₅ := (h₂.modLadder.onlyIf (·.queueReloc)).onlyIf (·.unpinLadder)
    exact .ite h₂.unpinLadder.dropLadder.l4End (.ite h₂.ladderFail (.ite h₅.modLadder (.ite h₅.modLadder.l4Begin
      (.ite h₅.startRecon.l4End (h₅.onlyIf (·.startCombine.l4End))))))

theorem sameUnits.sweepMember (h : sameUnits u s) {t w} : sameUnits u (sweepMember t w s) := by
  unfold Machine.sweepMember
  extract_lets a g suspect
  clear_value suspect
  split
  · exact .ite h h.modCmd.bump
  · split
    · exact h.modLadder
    · exact .ite h h.newLadder.modLadder.enterStep

theorem sameUnits.poolSweep (h : sameUnits u s) : sameUnits u (poolSweep s) := by
  unfold Machine.poolSweep
  extract_lets s₁ s₂ s₃
  have h₁ : sameUnits u s₁ := h.forEach fun _ h => h.forEach fun _ h => h.sweepMember
  have h₂ : sameUnits u s₂ := h₁.forEach fun _ h => h.onlyIf (·.modLadder.enterStep)
  have h₃ : sameUnits u s₃ := h₂.forEach fun _ h => h.forEach fun _ h => h.onlyIf (·.settleSibling)
  exact h₃.hankReads

/-! ### The ends of jobs (R162 to R165, R170, R177) -/

theorem sameUnits.addJob (h : sameUnits u s) {j} : sameUnits u (addJob j s) := h

theorem sameUnits.countOutcome (h : sameUnits u s) {j o} : sameUnits u (countOutcome j o s) := by
  unfold Machine.countOutcome
  split
  · exact h.bump
  · exact h.bump.decEvt
  · exact h.bump.decEvt
  · exact h

theorem sameUnits.combineSettled (h : sameUnits u s) {l m} : sameUnits u (combineSettled l m s) := by
  unfold Machine.combineSettled
  extract_lets
  split
  · exact .ite h.modLadder.dropOwnRecon.modLadder.startRecon h.modLadder
  · exact h.modLadder

theorem sameUnits.takeBody (h : sameUnits u s) {j l m body} : sameUnits u (takeBody j l m body s) := by
  unfold Machine.takeBody
  extract_lets
  split
  · split
    · exact h.modLadder.addJob
    · exact h.modLadder
  · exact h.modLadder

theorem sameUnits.combineDone (h : sameUnits u s) {j d o l m} : sameUnits u (combineDone j d o l m s) := by
  unfold Machine.combineDone
  refine .ite (.ite h.ladderSucceed h.putCached.combineSettled) (.ite h.combineSettled (.ite h.takeBody ?_))
  dsimp only
  split
  · exact .ite h.takeBody h.addJob
  · exact h.takeBody

theorem sameUnits.readExhausted (h : sameUnits u s) {l} : sameUnits u (readExhausted l s) :=
  .ite h.enterStep (.ite (.ite h.modLadder h.enterStep) (.ite (.ite h.modLadder h.enterStep) h))

/-- The next trial, or the end of the read's step where none is left. -/
theorem sameUnits.nextTrialOr (h : sameUnits u s) (ht : sameUnits u t) {j l} :
    sameUnits u (match nextTrial j l s with | some s => s | none => t) := by
  unfold nextTrial
  cases l.trials with
  | nil => exact ht
  | cons q qs => exact h.modLadder.addJob

theorem sameUnits.tryL2 (h : sameUnits u s) {fromL1 j l} : sameUnits u (tryL2 fromL1 j l s) := by
  unfold Machine.tryL2
  refine .ite h.readExhausted ?_
  extract_lets s₁
  have h₁ : sameUnits u s₁ := h.onlyIf (·.enterStep)
  split
  · exact h₁
  · exact h₁.modLadder.nextTrialOr h₁.readExhausted

theorem sameUnits.nextGlobal (h : sameUnits u s) {mode j} : sameUnits u (nextGlobal mode j s) := h.addJob

theorem sameUnits.memberFailed (h : sameUnits u s) {j o l} : sameUnits u (memberFailed j o l s) := by
  unfold Machine.memberFailed
  refine .ite (.ite (h.nextTrialOr h.readExhausted) h.addJob) (.ite (.ite h.tryL2 ?first)
    (.ite (.ite h.nextGlobal h.tryL2) (.ite h.nextGlobal (h.nextTrialOr h.readExhausted))))
  extract_lets s₁
  have h₁ : sameUnits u s₁ := h.onlyIf (·.enterStep)
  split
  · exact h₁.addJob
  · exact h₁

end Sys2Proof.Proofs
end

section
/-! The decoder pool's jobs, the L4 speed, the skein engines and the import clusters (R166, R167, R176, R180, R191). -/

namespace Sys2Proof.Proofs

open Sys2Proof Sys2Proof.Machine Sys2Proof.Safety

variable {s : State} {idx : Nat} {j : PoolJob}

/-! ### Dispatch (R166, R167) -/

/-- What a dispatch counts once the job has its unit: a missed deadline, and the first and the verify jobs. -/
def dispatchCounts (j : PoolJob) (s : State) : State :=
  let s := if j.kind != .recovery && decide (j.deadline < s.pwr.time) then
    decEvt Fld.DEC_EVT_DEADLINE_MISS j.addr (bump Reg.DEC_CNT 13 s) else s
  if j.kind = .first then bump Reg.DEC_CNT 0 s else if j.kind = .verify then bump Reg.DEC_CNT 14 s else s

theorem dispatchCounts_pool (j : PoolJob) (s : State) : (dispatchCounts j s).pool = s.pool := by
  unfold dispatchCounts
  extract_lets s₁
  have h₁ : s₁.pool = s.pool := keeps_ite State.pool (evt_pool _ _ _ _) rfl
  exact keeps_ite State.pool h₁ (keeps_ite State.pool h₁ h₁)

/-- The job leaves those that wait. -/
def takeWaiting (j : PoolJob) (p : PoolState) : PoolState := { p with waiting := p.waiting.filter (fun k => k.id ≠ j.id) }

/-- An engine of the pool takes the job. -/
def giveEngine (idx : Nat) (j : PoolJob) (s : State) : State :=
  { s with pool := { takeWaiting j s.pool with engines := modAt idx (fun _ => some j) s.pool.engines } }

/-- A re-detect unit of the pool takes the job. -/
def giveRedet (idx : Nat) (j : PoolJob) (s : State) : State :=
  { s with pool := { takeWaiting j s.pool with redets := modAt idx (fun _ => some j) s.pool.redets } }

theorem poolDispatchEff_engine (hidx : idx < 12) (hen : idx < decEnabled (poolSweep s))
    (halive : bit (poolSweep s).pool.engDead idx = false) (hfree : (poolSweep s).pool.engines.getD idx none = none)
    (hpick : pickJob (poolSweep s) false idx = some j) :
    poolDispatchEff false idx s = dispatchCounts j (giveEngine idx j (poolSweep s)) := by
  unfold poolDispatchEff
  simp only [hidx, hen, halive, hfree, hpick]
  rfl

theorem poolDispatchEff_redet (hidx : idx < 8) (hen : idx < redetEnabled (poolSweep s))
    (halive : bit (poolSweep s).pool.redetDead idx = false) (hfree : (poolSweep s).pool.redets.getD idx none = none)
    (hpick : pickJob (poolSweep s) true idx = some j) :
    poolDispatchEff true idx s = dispatchCounts j (giveRedet idx j (poolSweep s)) := by
  unfold poolDispatchEff
  simp only [hidx, hen, halive, hfree, hpick]
  rfl

theorem completes_poolJobDispatch {redet : Bool} {t : State} {P : PoolState → Prop}
    (heff : poolDispatchEff redet idx s = dispatchCounts j t) (hP : P t.pool) :
    completes (.poolJobDispatch redet idx) s (fun t => P t.pool) := by
  refine completes_of_done (congrArg (done s) heff) ?_
  rwa [finish_pool, dispatchCounts_pool]

/-! ### The end of a job (R166) -/

/-- The job of an engine is taken off it. -/
def freeEngine (idx : Nat) (s : State) : State :=
  { s with pool := { s.pool with engines := modAt idx (fun _ => none) s.pool.engines } }

/-- The job of a re-detect unit is taken off it. -/
def freeRedet (idx : Nat) (s : State) : State :=
  { s with pool := { s.pool with redets := modAt idx (fun _ => none) s.pool.redets } }

theorem sameUnits_engineCompleteEff (hj : s.pool.engines.getD idx none = some j) :
    sameUnits (freeEngine idx s) (engineCompleteEff idx s) := by
  unfold engineCompleteEff
  rw [hj]
  dsimp -zeta only
  extract_lets +onlyGivenNames _ s₁ d forced s₂ o s₃ _ s₄
  have h₁ : sameUnits (freeEngine idx s) s₁ := .refl _
  have h₄ : sameUnits (freeEngine idx s) s₄ := (h₁.onlyIf (·.setF)).countOutcome.onlyIf (·.work)
  split
  · exact h₄.verifyDone
  · exact h₄.onlyIf (·.work)
  · split
    · exact h₄.combineDone
    · exact h₄
  · split
    · exact h₄
    · exact .ite h₄ (.ite h₄.work.ladderSucceed h₄.memberFailed)

theorem sameUnits_redetCompleteEff (hj : s.pool.redets.getD idx none = some j) :
    sameUnits (freeRedet idx s) (redetCompleteEff idx s) := by
  unfold redetCompleteEff
  rw [hj]
  dsimp -zeta only
  extract_lets _ s₁
  have h₁ : sameUnits (freeRedet idx s) s₁ := .refl _
  split
  · exact h₁.addJob
  · exact h₁

theorem completes_poolJobComplete_engine (hj : s.pool.engines.getD idx none = some j) :
    completes (.poolJobComplete false idx) s (fun t => t.pool.engines = modAt idx (fun _ => none) s.pool.engines) := by
  refine completes_of_done rfl ?_
  rw [finish_pool]
  exact (sameUnits_engineCompleteEff hj).poolSweep.engines

theorem completes_poolJobComplete_redet (hj : s.pool.redets.getD idx none = some j) :
    completes (.poolJobComplete true idx) s (fun t => t.pool.redets = modAt idx (fun _ => none) s.pool.redets) := by
  refine completes_of_done rfl ?_
  rw [finish_pool]
  exact (sameUnits_redetCompleteEff hj).poolSweep.redets

/-! ### The speed of L4 (R176) -/

theorem completes_l4SpeedReached {n : Nat} (hl4 : s.pool.l4 = some n) (hceil : s.pwr.ceiling = none)
    (hnear : ((s.mot.spn.nHat - (n : Int) * one24).natAbs : Int) * 100 ≤ (n : Int) * one24) :
    completes .l4SpeedReached s (fun t => t.pool = { s.pool with l4Ready := true }) := by
  have heff : l4ReachedEff s = { s with pool := { s.pool with l4Ready := true } } := by
    simp only [l4ReachedEff, hl4, hceil, spn]
    exact if_pos (decide_eq_true hnear)
  exact completes_of_done (congrArg (done s) heff) (finish_pool _ _)

/-! ### The skein engines (R180) -/

theorem getReg_bump_same (off i : Nat) (s : State) :
    (getReg (bump off i s) (off + 4 * i)).toNat = min 0xFFFFFFFF ((getReg s (off + 4 * i)).toNat + 1) := by
  have hlt : min 0xFFFFFFFF ((getReg s (off + 4 * i)).toNat + 1) < 2 ^ 32 := by omega
  rw [bump, bumpBy, getReg_setReg_same, BitVec.toNat_ofNat, Nat.mod_eq_of_lt hlt]

theorem joinQueues_regs (key : Nat) (s : State) : (joinQueues key s).regs = s.regs :=
  forEach_keeps State.regs (joinQueue key) (fun _ _ => rfl) allCars s

theorem getReg_parityDone {key : Nat} {k : Skein} (hk : skeinOf s key = some k) :
    (getReg (parityDone key s) Reg.SKN_CNT).toNat = min 0xFFFFFFFF ((getReg s Reg.SKN_CNT).toNat + 1) := by
  unfold parityDone
  rw [hk]
  dsimp -zeta only
  extract_lets ps s₁
  rw [getReg_congr (joinQueues_regs key _)]
  exact getReg_bump_same Reg.SKN_CNT 0 s₁

/-- The engine's next job is chosen beside the registers. -/
theorem skeinEngineEff_regs {n key : Nat} (hn : n < 2) (halive : bit s.pool.sengDead n = false)
    (hjob : s.pool.sengs.getD n none = some (.parity key)) : (skeinEngineEff n s).regs = (parityDone key s).regs := by
  have hruns : ¬ (decide (2 ≤ n) || bit s.pool.sengDead n) = true := by simp [halive, hn]
  unfold skeinEngineEff
  rw [if_neg hruns, hjob]
  dsimp only
  cases nextSeng (parityDone key s) <;> rfl

theorem completes_skeinEngineComplete_parity {n key : Nat} {k : Skein} (hn : n < 2) (halive : bit s.pool.sengDead n = false)
    (hjob : s.pool.sengs.getD n none = some (.parity key)) (hk : skeinOf s key = some k) :
    completes (.skeinEngineComplete n) s (fun t =>
      (getReg t Reg.SKN_CNT).toNat = min 0xFFFFFFFF ((getReg s Reg.SKN_CNT).toNat + 1)) := by
  refine completes_of_done rfl ?_
  rw [getReg_finish, getReg_congr (skeinEngineEff_regs hn halive hjob), getReg_parityDone hk]

/-! ### Import clusters (R191) -/

/-- The reads made of the clusters, put. -/
def putTries (ts : List (Nat × Nat × Nat)) (s : State) : State :=
  { s with pool := { s.pool with disc := { s.pool.disc with tries := ts } } }

/-- A decoded cluster's sectors for a command that wants them. -/
def takeSectors (cluster : Nat) (secs : List (List Byte)) (c : Cmd) : Cmd :=
  { c with
    got := (clusterPart c.cmd cluster).foldl
      (fun g i => Tbl.put [] i (slice (secs.getD (c.cmd.lba + i - 32 * cluster) []) 0 2048) g) c.got }

theorem cmdOf_modCmd_same {t : Nat} {c : Cmd} (h : cmdOf s t = some c) (f : Cmd → Cmd) : cmdOf (modCmd t f s) t = some (f c) := by
  unfold modCmd
  rw [h]
  exact Tbl.get_put_same none (some (f c)) _ _

section
variable {layer cluster : Nat} (himp : s.media.disc.importMode = true) (hfirst : s.pool.disc.tries = [])
include himp hfirst

theorem importClusterEff_uncorrectable (hreaders : clusterReaders s layer cluster ≠ [])
    (hretry : 0 < getF s Fld.DEC_IMP_CFG_IMP_RETRIES) :
    importClusterEff layer cluster .uncorrectable s = putTries [(layer, cluster, 1)] s := by
  have hread : ¬ (!s.media.disc.importMode || (clusterReaders s layer cluster).isEmpty) = true := by simp [himp, hreaders]
  unfold importClusterEff
  rw [if_neg hread, hfirst]
  exact if_pos hretry

theorem completes_importClusterDecode_uncorrectable (hreaders : clusterReaders s layer cluster ≠ [])
    (hretry : 0 < getF s Fld.DEC_IMP_CFG_IMP_RETRIES) :
    completes (.importClusterDecode layer cluster .uncorrectable) s (fun t =>
      t.pool.disc.tries = [(layer, cluster, 1)] ∧ t.host = s.host) := by
  refine completes_of_done (congrArg (done s) (importClusterEff_uncorrectable himp hfirst hreaders hretry)) ?_
  rw [finish_pool, finish_host]
  exact ⟨rfl, rfl⟩

theorem importClusterEff_good {tag : Nat} {c : Cmd} (hreaders : clusterReaders s layer cluster = [(tag, c)])
    (secs : List (List Byte)) :
    importClusterEff layer cluster (.good secs) s = putTries [] (modCmd tag (takeSectors cluster secs) s) := by
  have hread : ¬ (!s.media.disc.importMode || (clusterReaders s layer cluster).isEmpty) = true := by simp [himp, hreaders]
  unfold importClusterEff
  rw [if_neg hread, hfirst, hreaders]
  rfl

theorem completes_importClusterDecode_good {tag : Nat} {c : Cmd} (hreaders : clusterReaders s layer cluster = [(tag, c)])
    (hc : cmdOf s tag = some c) (secs : List (List Byte)) :
    completes (.importClusterDecode layer cluster (.good secs)) s (fun t => ∃ c', cmdOf t tag = some c' ∧
      c'.got = (clusterPart c.cmd cluster).foldl
        (fun g i => Tbl.put [] i (slice (secs.getD (c.cmd.lba + i - 32 * cluster) []) 0 2048) g) c.got) := by
  refine completes_of_done (congrArg (done s) (importClusterEff_good himp hfirst hreaders secs))
    ⟨takeSectors cluster secs c, ?_, rfl⟩
  rw [cmdOf, finish_host]
  exact cmdOf_modCmd_same hc _

end

/-- Settles O21: a dispatch counts beside the pool, what follows a finished job leaves the units of the pool, and a parity job's
end writes no register but its count. -/
theorem poolJobsAndSkeinEngines : Obligations.PoolJobsAndSkeinEngines := by
  unfold Obligations.PoolJobsAndSkeinEngines
  intro s
  exact ⟨fun idx j hidx hen halive hfree hpick =>
      completes_poolJobDispatch (P := fun p => p.engines = _ ∧ p.waiting = _)
        (poolDispatchEff_engine hidx hen halive hfree hpick) ⟨rfl, rfl⟩,
    fun idx j hidx hen halive hfree hpick =>
      completes_poolJobDispatch (P := fun p => p.redets = _ ∧ p.waiting = _)
        (poolDispatchEff_redet hidx hen halive hfree hpick) ⟨rfl, rfl⟩,
    fun idx j hj => completes_poolJobComplete_engine hj,
    fun idx j hj => completes_poolJobComplete_redet hj,
    fun n hl4 hceil hnear => completes_l4SpeedReached hl4 hceil hnear,
    fun n key k hn halive hjob hk => completes_skeinEngineComplete_parity hn halive hjob hk,
    fun layer cluster himp hreaders hfirst hretry =>
      completes_importClusterDecode_uncorrectable himp hfirst hreaders hretry,
    fun layer cluster tag c secs himp hreaders hc hfirst =>
      completes_importClusterDecode_good himp hfirst hreaders hc secs⟩

end Sys2Proof.Proofs
end

section
/-! What the work of the write path leaves (R197 to R221): the passes of the carriages, the volumes' maps and the power state.
Each operation that may go with a pass, a knot or a rewrite has one lemma, `samePasses.f` for the operation `f`, so that the
proof for an operation that calls others reads as the operation does. -/

namespace Sys2Proof.Proofs

open Sys2Proof Sys2Proof.Machine Sys2Proof.Safety

/-- A carriage's write side without its queue, a stop asked for at the end of a slot, and the driver's last frame and powers. -/
def passOf (w : WriteCar) : WriteCar := { w with queue := [], stopAtSlotEnd := false, pdlFrame := 0, lastPowerZone := none }

/-- The passes of the carriages, each volume's map with the number of its last knot, and the power state. -/
def passView (s : State) : List WriteCar × (Nat → List MapEntry × Nat) × PowerState :=
  (s.media.cars.map passOf, fun v => ((volOf s v).map, (volOf s v).knotSeq), s.pwr)

/-- Passes, maps and the power state are in t what they are in s. -/
def samePasses (s t : State) : Prop := passView t = passView s

variable {u s t : State}

theorem samePasses.refl (s : State) : samePasses s s := rfl

theorem samePasses.pwr (h : samePasses s t) : t.pwr = s.pwr := by
  have hp := congrArg (fun v => v.2.2) h
  exact hp

theorem samePasses.volume (h : samePasses s t) (v : Nat) :
    (volOf t v).map = (volOf s v).map ∧ (volOf t v).knotSeq = (volOf s v).knotSeq := by
  have hv := congrFun (congrArg (fun v => v.2.1) h) v
  exact Prod.mk.inj hv

theorem samePasses.cars (h : samePasses s t) : t.media.cars.map passOf = s.media.cars.map passOf := by
  have hc := congrArg Prod.fst h
  exact hc

theorem samePasses.length (h : samePasses s t) : t.media.cars.length = s.media.cars.length := by
  have hl := congrArg List.length h.cars
  rwa [List.length_map, List.length_map] at hl

/-- What a pass shows of a carriage is as before. -/
theorem samePasses.wcar {β : Type} {P : WriteCar → β} (h : samePasses s t) (c : Nat)
    (hP : ∀ w, P (passOf w) = P w := by intro w; rfl) : P (wcar t c) = P (wcar s c) := by
  have hc := congrArg (fun l => l.getD c (passOf {})) h.cars
  rw [List.getD_map, List.getD_map] at hc
  exact (hP _).symm.trans ((congrArg P hc).trans (hP _))

theorem samePasses.state (h : samePasses s t) (c : Nat) : (Machine.wcar t c).state = (Machine.wcar s c).state :=
  h.wcar (P := WriteCar.state) c

theorem samePasses.frontier (h : samePasses s t) (c : Nat) : (Machine.wcar t c).frontier = (Machine.wcar s c).frontier :=
  h.wcar (P := WriteCar.frontier) c

/-! ### Changes beside the passes, and of a carriage or a volume -/

/-- A change beside the media and the power state. -/
theorem samePasses.beside (h : samePasses u s) (hm : t.media = s.media) (hp : t.pwr = s.pwr) : samePasses u t := by
  have hv : passView t = passView s := by simp only [passView, volOf, hm, hp]
  exact hv.trans h

/-- A change beside the media and the power state, given by the fields that it leaves. -/
theorem samePasses.frame (h : samePasses u s) {regs pins img unt cal tap mgt mram mem bc host mot chn pool pair out free pending} :
    samePasses u ⟨regs, s.pwr, pins, img, unt, cal, tap, mgt, mram, mem, bc, host, s.media, mot, chn, pool, pair, out, free,
      pending⟩ := h

/-- A change of the media beside the carriages and the volumes. -/
theorem samePasses.media (h : samePasses u s) {held nextHeld skeins nextKey openSkein openReloc disc hank relocs} :
    samePasses u { s with media := ⟨s.media.vols, held, nextHeld, skeins, nextKey, openSkein, openReloc, s.media.cars, disc, hank,
      relocs⟩ } := h

theorem map_modAt_keeps {α β : Type} {P : α → β} {f : α → α} (hf : ∀ x, P (f x) = P x) (i : Nat) (l : List α) :
    (modAt i f l).map P = l.map P := by
  induction l generalizing i with
  | nil => rw [modAt]
  | cons x xs ih =>
    cases i with
    | zero => exact congrArg (· :: xs.map P) (hf x)
    | succ i => exact congrArg (P x :: ·) (ih i)

/-- A change of a carriage that its pass does not show. -/
theorem samePasses.modWcar (h : samePasses u s) {c f} (hf : ∀ w, passOf (f w) = passOf w := by intro w; rfl) :
    samePasses u (modWcar c f s) := by
  have hv : passView (Machine.modWcar c f s) = passView s := congrArg (·, _) (map_modAt_keeps hf c s.media.cars)
  exact hv.trans h

theorem volOf_modVol (v : Nat) (f : Volume → Volume) (s : State) (x : Nat) :
    volOf (modVol v f s) x = if v = x then f (volOf s v) else volOf s x := by
  split
  · next h => exact h ▸ Tbl.get_put_same _ _ _ _
  · next h => exact Tbl.get_put_ne _ _ _ h _

/-- A change of a volume beside its map. -/
theorem samePasses.modVol (h : samePasses u s) {v f}
    (hf : ∀ x : Volume, ((f x).map, (f x).knotSeq) = (x.map, x.knotSeq) := by intro x; rfl) : samePasses u (modVol v f s) := by
  have hx (x : Nat) : ((volOf (Machine.modVol v f s) x).map, (volOf (Machine.modVol v f s) x).knotSeq) =
      ((volOf s x).map, (volOf s x).knotSeq) := by
    rw [volOf_modVol]
    split
    · next e => exact e ▸ hf _
    · rfl
  have hv : passView (Machine.modVol v f s) = passView s := congrArg (fun m => (_, m, _)) (funext hx)
  exact hv.trans h

/-! ### Choices and repetitions -/

theorem samePasses.ite {c : Prop} {_ : Decidable c} (hs : samePasses u s) (ht : samePasses u t) :
    samePasses u (if c then s else t) := by
  split
  · exact hs
  · exact ht

theorem samePasses.iteSnd {α : Type} {c : Prop} {_ : Decidable c} {p q : α × State} (hp : samePasses u p.2)
    (hq : samePasses u q.2) : samePasses u (if c then p else q).2 := by
  split
  · exact hp
  · exact hq

theorem samePasses.onlyIf (h : samePasses u s) {c : Prop} {_ : Decidable c} (f : samePasses u s → samePasses u t) :
    samePasses u (if c then t else s) := .ite (f h) h

/-- Names what holds of a state that the rest of a proof speaks of several times. -/
theorem samePasses.andThen (h : samePasses u s) (f : samePasses u s → samePasses u t) : samePasses u t := f h

theorem samePasses.forEach {α : Type} {f : α → State → State} {l : List α} (h : samePasses u s)
    (hf : ∀ {s} x, samePasses u s → samePasses u (f x s)) : samePasses u (forEach f l s) := by
  induction l generalizing s with
  | nil => exact h
  | cons x l ih => exact ih (hf x h)

/-! ### Registers, outputs, events and the mirror -/

theorem samePasses.setReg (h : samePasses u s) {off v} : samePasses u (setReg off v s) := h

theorem samePasses.setF (h : samePasses u s) {f v} : samePasses u (setF f v s) := h

theorem samePasses.bumpBy (h : samePasses u s) {off n} : samePasses u (bumpBy off n s) := h

theorem samePasses.bump (h : samePasses u s) {off i} : samePasses u (bump off i s) := h

theorem samePasses.emit (h : samePasses u s) {o} : samePasses u (emit o s) := h

theorem samePasses.setGate (h : samePasses u s) {c on} : samePasses u (setGate c on s) := h

theorem samePasses.event (h : samePasses u s) {block code unit items} : samePasses u (event block code unit items s) := by
  have hq := quiet_event block code unit items s
  have hm := congrArg State.media hq
  have hp := congrArg State.pwr hq
  exact h.beside hm hp

theorem samePasses.evt (h : samePasses u s) {f unit items} : samePasses u (evt f unit items s) :=
  h.beside (evt_media _ _ _ _) (evt_pwr _ _ _ _)

theorem samePasses.mirror (h : samePasses u s) {m} : samePasses u (mirror m s) := h.onlyIf (·.frame.emit)

/-! ### The ends of commands and of requests -/

theorem samePasses.putCmd (h : samePasses u s) {t c} : samePasses u (putCmd t c s) := h

theorem samePasses.modCmd (h : samePasses u s) {t f} : samePasses u (modCmd t f s) := by
  unfold Machine.modCmd
  split
  · exact h.putCmd
  · exact h

theorem samePasses.recordReplay (h : samePasses u s) {c} : samePasses u (recordReplay c s) := h.onlyIf (·.modVol.mirror)

theorem samePasses.endOne (h : samePasses u s) {t st result} : samePasses u (endOne t st result s) := by
  unfold Machine.endOne
  split
  · exact h
  · exact .ite h ((h.recordReplay.onlyIf (·.bump)).andThen fun h => .ite h.putCmd h.putCmd.frame)

theorem samePasses.endCmd (h : samePasses u s) {t st result} : samePasses u (endCmd t st result s) := by
  unfold Machine.endCmd
  split
  · exact h
  · refine .ite h (.onlyIf (h.endOne.forEach ?repeats) fun h => h.forEach ?waiting)
    case repeats => exact fun _ h => h.onlyIf (·.modCmd.endOne.bump.evt)
    case waiting => exact fun _ h => h.onlyIf (·.endOne)

theorem samePasses.setGate4 (h : samePasses u s) {t g} : samePasses u (setGate4 t g s) := by
  unfold Machine.setGate4
  split
  · exact h
  · refine .ite (.ite h.modCmd.endCmd ?_) h.modCmd
    split
    · exact h.modCmd.endCmd
    · exact h.modCmd

theorem samePasses.regateOne (h : samePasses u s) {e} : samePasses u (regateOne e s) := by
  unfold Machine.regateOne
  dsimp only
  split
  · exact h
  · exact h
  · refine .ite h ?_
    split
    · exact h.endCmd
    · refine .ite h ?_
      split
      · exact .ite h h.setGate4.bump
      · exact h.setGate4.bump
      · exact h.setGate4

theorem samePasses.regate (h : samePasses u s) : samePasses u (regate s) :=
  (h.forEach (fun _ h => h.regateOne)).onlyIf (·.frame)

theorem samePasses.finishReq (h : samePasses u s) {r st} : samePasses u (finishReq r st s) := by
  unfold Machine.finishReq
  extract_lets s₁ s₂
  have h₂ : samePasses u s₂ := (h.onlyIf (·.bump)).onlyIf (·.bump)
  split
  · exact h₂
  · split
    · exact h₂
    · exact (h₂.onlyIf fun h => .ite h.emit h.emit).endCmd
  · exact h₂.frame
  · exact h₂.frame
  · exact h₂.emit

theorem samePasses.settleReqs (h : samePasses u s) {v} : samePasses u (settleReqs v s) := by
  refine h.frame.forEach fun _ h => ?_
  split
  · exact h.finishReq
  · exact h

/-! ### A change of a unit with all that follows it (R503) -/

theorem samePasses.putState (h : samePasses u s) {v tgt why} : samePasses u (putState v tgt why s) :=
  h.frame.bump.onlyIf (·.bump)

theorem samePasses.recordChange (h : samePasses u s) {v src seq} : samePasses u (recordChange v src seq s) :=
  .mirror (h.frame.setF.onlyIf (·.event))

theorem samePasses.recompute (h : samePasses u s) : samePasses u (recompute s) :=
  h.onlyIf fun h => h.forEach fun _ h => h.onlyIf (·.putState.recordChange)

theorem samePasses.endHeldWaits (h : samePasses u s) {a b} : samePasses u (endHeldWaits a b s) :=
  h.onlyIf fun h => h.forEach fun _ h => h.onlyIf (·.endCmd)

/-- A carriage that is to stop at the end of its slot keeps its pass till then. -/
theorem samePasses.carWriteStop (h : samePasses u s) {v tgt} : samePasses u (carWriteStop v tgt s) :=
  h.onlyIf fun h => h.modWcar fun w => by
    split
    · rfl
    · rfl

theorem samePasses.endImport (h : samePasses u s) {v a} : samePasses u (endImport v a s) :=
  h.onlyIf fun h => h.media.frame.setReg.forEach fun _ h => h.setReg

theorem samePasses.afterChange (h : samePasses u s) {v a b} : samePasses u (afterChange v a b s) :=
  (h.carWriteStop.onlyIf (·.endHeldWaits)).endImport.regate.settleReqs

theorem samePasses.changeUnit0 (h : samePasses u s) {v tgt why src seq} : samePasses u (changeUnit0 v tgt why src seq s) :=
  .ite h (h.putState.onlyIf (·.recompute)).recordChange.afterChange

theorem samePasses.calRecord (h : samePasses u s) {r st outcome} : samePasses u (calRecord r st outcome s) :=
  h.frame.setReg.andThen fun h => .evt (.frame (.onlyIf (.ite h.bump (.ite h.bump (.ite h.bump (h.onlyIf (·.bump))))) (·.evt)))

theorem samePasses.calSweepOne (h : samePasses u s) {r} : samePasses u (calSweepOne r s) := by
  unfold Machine.calSweepOne
  split
  · exact h.onlyIf (·.calRecord.finishReq)
  · exact .ite h (.ite h.frame.calRecord.finishReq (h.onlyIf
      fun h => h.frame.calRecord.andThen fun h => .finishReq (.ite h h.changeUnit0)))

theorem samePasses.change (h : samePasses u s) {v tgt why} : samePasses u (change v tgt why s) :=
  h.changeUnit0.forEach fun _ h => h.calSweepOne

theorem samePasses.carGradeCheck (h : samePasses u s) {why c} : samePasses u (carGradeCheck why c s) :=
  .ite h.change (h.onlyIf (·.change))

theorem samePasses.stopAtSlot (h : samePasses u s) {c} : samePasses u (stopAtSlot c s) :=
  h.modWcar fun w => by
    split
    · rfl
    · rfl

/-! ### Skeins, queues and rewrites -/

theorem samePasses.modSkein (h : samePasses u s) {key f} : samePasses u (modSkein key f s) := h

theorem samePasses.leaveQueues (h : samePasses u s) {key} : samePasses u (leaveQueues key s) := h.forEach fun _ h => h.modWcar

theorem samePasses.joinQueues (h : samePasses u s) {key} : samePasses u (joinQueues key s) := h.forEach fun _ h => h.modWcar

theorem samePasses.sealSkein (h : samePasses u s) {key} : samePasses u (sealSkein key s) := by
  unfold Machine.sealSkein
  split
  · exact h
  · exact .ite h h.media.modSkein.media.frame

theorem samePasses.sealOpen (h : samePasses u s) : samePasses u (sealOpen s) := by
  unfold Machine.sealOpen
  split
  · exact h.sealSkein
  · exact h

theorem samePasses.endExhausted (h : samePasses u s) : samePasses u (endExhausted s) := by
  unfold Machine.endExhausted
  refine h.forEach fun _ h => ?_
  split
  · exact h.onlyIf (·.endCmd)
  · exact h

theorem samePasses.reform (h : samePasses u s) {key counted} : samePasses u (reform key counted s) := by
  unfold Machine.reform
  split
  · exact h
  · exact .ite h (.ite h.leaveQueues.modSkein.bump.evt.endExhausted h.leaveQueues.media.modSkein.media.media.joinQueues)

theorem samePasses.settleOne (h : samePasses u s) {e} : samePasses u (settleOne e s) := by
  unfold Machine.settleOne
  refine .ite ?running (.ite (.ite h ?asOf) h)
  case running =>
    split
    · exact h
    · refine .ite h.endCmd ?_
      split
      · exact h.endCmd
      · exact h.onlyIf (·.endCmd.evt)
  case asOf =>
    split
    · exact h.endCmd
    · exact h

theorem samePasses.settle (h : samePasses u s) : samePasses u (settle s) := (h.forEach (fun _ h => h.settleOne)).media

theorem samePasses.verifyOutcome (h : samePasses u s) {key m ok} : samePasses u (verifyOutcome key m ok s) := by
  unfold Machine.verifyOutcome
  extract_lets s₁
  have h₁ : samePasses u s₁ := h.bump
  split
  · exact h₁
  · refine .ite h₁.modSkein (.ite h₁.modSkein.bump.evt.reform.settle ?_)
    split
    · exact h₁.modSkein.onlyIf (·.modSkein.mirror)
    · exact h₁.modSkein

/-! ### Planning a pass (R198 to R200, R205, R208) -/

theorem samePasses.sendPdl (h : samePasses u s) {c frame} : samePasses u (sendPdl c frame s) := h.modWcar.emit

theorem samePasses.sendPowers (h : samePasses u s) {c addr vals} : samePasses u (sendPowers c addr vals s) :=
  .ite h.sendPdl (h.forEach fun _ h => h.sendPdl)

theorem samePasses.setPowers (h : samePasses u s) {c lf zone} : samePasses u (setPowers c lf zone s) :=
  .ite h h.sendPowers.sendPowers.sendPdl.modWcar

theorem samePasses.placeSkein (h : samePasses u s) {key} : samePasses u (placeSkein key s) := by
  unfold Machine.placeSkein
  refine .ite (.settle (.modSkein ?_)) (h.onlyIf (·.modSkein.mirror))
  split
  · exact h.onlyIf (·.evt.bump)
  · exact h

theorem samePasses.gather (h : samePasses u s) {c f lim n keys} : samePasses u (gather c f lim n keys s).2 := by
  induction n generalizing keys s with
  | zero => exact h
  | succ n ih =>
    cases keys with
    | nil => exact h
    | cons key rest =>
      have hp {b : Prop} {_ : Decidable b} : samePasses u (if b then s else Machine.placeSkein key s) := .ite h h.placeSkein
      exact .iteSnd (ih hp) hp

theorem samePasses.dropBadLanes (h : samePasses u s) {c} : samePasses u (dropBadLanes c s) := by
  refine h.forEach fun _ h => ?_
  split
  · exact .ite h h.reform
  · exact h

theorem samePasses.firePulse (h : samePasses u s) {key} : samePasses u (firePulse key s) := by
  unfold Machine.firePulse
  split
  · exact h
  · exact .ite h (h.modSkein.forEach fun _ h => h.onlyIf (·.modCmd))

/-! ### Forming, checkpoints and anchors (R110 to R113, R196, R197, R236) -/

theorem samePasses.openData (h : samePasses u s) : samePasses u (openData s).2 := by
  unfold Machine.openData
  split
  · exact h
  · exact h.media

theorem samePasses.putMember (h : samePasses u s) {kind data seq} : samePasses u (putMember kind data seq s).2 :=
  h.openData.modSkein.modSkein.onlyIf (·.sealSkein)

theorem samePasses.packMember (h : samePasses u s) {v seq hanks data} : samePasses u (packMember v seq hanks data s) :=
  h.putMember.forEach fun _ h => h.media

theorem samePasses.packFull (h : samePasses u s) {v seq n hanks since bs} :
    samePasses u (packFull v seq n hanks since bs s) := by
  induction n generalizing hanks since bs s with
  | zero => exact h.media
  | succ n ih => exact .ite h.media (ih h.packMember)

theorem samePasses.flushBuf (h : samePasses u s) {v} : samePasses u (flushBuf v s) := .ite h h.packMember.media

theorem samePasses.formGo (h : samePasses u s) {hs blocked} : samePasses u (formGo hs blocked s) := by
  induction hs generalizing blocked s with
  | nil => exact h
  | cons k hs ih =>
    refine .ite (ih h) (.ite (ih h) (.ite (ih h) ?_))
    split
    · split
      · exact ih h.media.media.packFull
      · exact ih h
    · exact ih (h.putMember.media.onlyIf (·.sealOpen))

theorem samePasses.formAll (h : samePasses u s) : samePasses u (formAll s) := by
  refine h.formGo.forEach fun _ h => ?_
  unfold sealFor
  split
  · exact h.onlyIf fun h => h.flushBuf.onlyIf (·.sealOpen)
  · exact h

theorem samePasses.ckptBegin (h : samePasses u s) {v} : samePasses u (ckptBegin v s) := by
  refine .ite h ?_
  unfold ckptForm
  split
  · exact h.modVol.media.modSkein.modSkein.sealSkein
  · exact h.modVol

theorem samePasses.writeAnchor (h : samePasses u s) : samePasses u (writeAnchor s) := .ite h.media h.media.emit.emit.media

theorem samePasses.relocApplied (h : samePasses u s) {n} : samePasses u (relocApplied n s) :=
  .ite h.media.bumpBy h.media.bumpBy.evt

end Sys2Proof.Proofs
end

section
/-! Passes of the carriages, their pre-read and verify (R200 to R202), sealing at the end of KNOT_INTERVAL (R197, R236), and knots
from their skein to the map (R215, R217). -/

namespace Sys2Proof.Proofs

open Sys2Proof Sys2Proof.Machine Sys2Proof.Safety

variable {s t : State} {c : Nat}

/-! ### The write side of a carriage -/

theorem wcar_finish (s t : State) (c : Nat) : wcar (finish s t) c = wcar t c := by rw [wcar, finish_media, wcar]

theorem wcar_modWcar_same (h : c < s.media.cars.length) (f : WriteCar → WriteCar) : wcar (modWcar c f s) c = f (wcar s c) :=
  getD_modAt_same f {} _ h

theorem length_modWcar (f : WriteCar → WriteCar) (s : State) : (modWcar c f s).media.cars.length = s.media.cars.length :=
  length_modAt

/-- What a change of a carriage leaves of every carriage. -/
theorem wcar_modWcar_keeps {β : Type} {P : WriteCar → β} {f : WriteCar → WriteCar} (hf : ∀ w, P (f w) = P w) (s : State) (k : Nat) :
    P (wcar (modWcar c f s) k) = P (wcar s k) := by
  have h := congrArg (fun l => l.getD k (P {})) (map_modAt_keeps hf c s.media.cars)
  rwa [List.getD_map, List.getD_map] at h

/-! ### The plan of a pass (R200, R202) -/

/-- The carriage takes a pass of the skeins ks from its frontier up to the block step n. -/
def takePass (c : Nat) (ks : List Nat) (n : Nat) (s : State) : State :=
  modWcar c (fun w => { w with passStart := w.frontier, passSkeins := ks, passBlocks := n - w.frontier }) s

/-- The pre-read of a pass begins. -/
def beginPreRead (c : Nat) (s : State) : State := modWcar c (fun w => { w with state := .preRead }) s

/-- A pre-read is due before a pass at the frontier of w (R202). -/
def preReadDue (s : State) (w : WriteCar) : Bool :=
  (flag s Fld.WRP_CTRL_PREREAD_ALWAYS || w.lastEnd ≠ some w.frontier) && w.preRead ≠ some w.frontier

/-- A pass of ks that the carriage has taken begins with its pre-read where one is due, and otherwise once the placements of
its skeins are acknowledged. -/
def startPass (c lf z : Nat) (ks : List Nat) (w : WriteCar) (s : State) : State :=
  if preReadDue s w then beginPreRead c s else if ks.all (pulseAcked s) then beginPass c lf z ks s else s

/-- The carriage is at the start of the block. -/
def atBlock (s : State) (c lf z b : Nat) : Bool :=
  (carOfS s c).lf = lf && (carOfS s c).turn = turnOfSlot z (4 * b) % 10625

theorem planPass_none (hb : blockAt c (wcar (dropBadLanes c s) c).frontier = none) : planPass c s = dropBadLanes c s := by
  unfold planPass
  extract_lets s₁ w
  have hw : blockAt c w.frontier = none := hb
  rw [hw]

/-- What planning at a block comes to. -/
theorem planPass_some {lf z b : Nat} (hb : blockAt c (wcar (dropBadLanes c s) c).frontier = some (lf, z, b)) :
    ∃ n, planPass c s = if (passPlan s c z b).1.isEmpty || !atBlock (passPlan s c z b).2 c lf z b then (passPlan s c z b).2
      else startPass c lf z (passPlan s c z b).1 (wcar (dropBadLanes c s) c)
        (takePass c (passPlan s c z b).1 n (passPlan s c z b).2) := by
  unfold planPass
  extract_lets s₁ w
  have hw : blockAt c w.frontier = some (lf, z, b) := hb
  rw [hw]
  exact ⟨_, rfl⟩

theorem passStartEff_planned {lf z b : Nat} (hc : c < 4) (hmay : mayPass s c = true)
    (hb : blockAt c (wcar (dropBadLanes c s) c).frontier = some (lf, z, b))
    (hks : (passPlan s c z b).1 ≠ []) (hlf : (carOfS (passPlan s c z b).2 c).lf = lf)
    (hturn : (carOfS (passPlan s c z b).2 c).turn = turnOfSlot z (4 * b) % 10625) :
    ∃ n, passStartEff c s = startPass c lf z (passPlan s c z b).1 (wcar (dropBadLanes c s) c)
      (takePass c (passPlan s c z b).1 n (passPlan s c z b).2) := by
  have hgo : ¬ (decide (4 ≤ c) || !mayPass s c) = true := by simp [hc, hmay]
  have hplanned : ¬ ((passPlan s c z b).1.isEmpty || !atBlock (passPlan s c z b).2 c lf z b) = true := by
    simp [atBlock, hks, hlf, hturn]
  obtain ⟨n, hn⟩ := planPass_some hb
  exact ⟨n, (if_neg hgo).trans (hn.trans (if_neg hplanned))⟩

theorem samePasses_passPlan (s : State) (c z b : Nat) : samePasses s (passPlan s c z b).2 :=
  .gather (.dropBadLanes (.refl s))

/-! ### PASS_START (R200) -/

theorem wcar_beginPass {lf z : Nat} {ks : List Nat} (hlen : c < s.media.cars.length) :
    (wcar (beginPass c lf z ks s) c).state = .writing ∧ (wcar (beginPass c lf z ks s) c).passSkeins = (wcar s c).passSkeins := by
  unfold beginPass
  extract_lets s₁ s₂ s₃ s₄
  have h₁ : samePasses s s₁ := (samePasses.refl s).setPowers
  have h₄ : samePasses s₂ s₄ := (samePasses.refl s₂).setGate.forEach fun _ h => h.firePulse
  have h₂ : wcar s₂ c = _ := wcar_modWcar_same (h₁.length ▸ hlen) _
  constructor
  · rw [h₄.bump.state, h₂]
  · rw [h₄.bump.wcar (P := WriteCar.passSkeins) c, h₂]
    exact h₁.wcar (P := WriteCar.passSkeins) c

theorem completes_passStart {lf z b : Nat} {P : WriteCar → Prop} (hc : c < 4) (hmay : mayPass s c = true)
    (hb : blockAt c (wcar (dropBadLanes c s) c).frontier = some (lf, z, b))
    (hks : (passPlan s c z b).1 ≠ []) (hlf : (carOfS (passPlan s c z b).2 c).lf = lf)
    (hturn : (carOfS (passPlan s c z b).2 c).turn = turnOfSlot z (4 * b) % 10625)
    (hP : ∀ n, P (wcar (startPass c lf z (passPlan s c z b).1 (wcar (dropBadLanes c s) c)
      (takePass c (passPlan s c z b).1 n (passPlan s c z b).2)) c)) :
    completes (.passStart c) s (fun t => P (wcar t c)) := by
  obtain ⟨n, heff⟩ := passStartEff_planned hc hmay hb hks hlf hturn
  refine completes_of_done (congrArg (done s) ((if_pos hc).trans heff)) ?_
  rw [wcar_finish]
  exact hP n

theorem length_passPlan (hlen : s.media.cars.length = 4) (z b : Nat) : (passPlan s c z b).2.media.cars.length = 4 :=
  (samePasses_passPlan s c z b).length.trans hlen

theorem passSkeins_takePass (hlen : c < s.media.cars.length) (ks : List Nat) (n : Nat) :
    (wcar (takePass c ks n s) c).passSkeins = ks := congrArg WriteCar.passSkeins (wcar_modWcar_same hlen _)

/-- With PREREAD_ALWAYS, a carriage that has read no frontier before takes its pass to the pre-read. -/
theorem completes_passStart_preRead {lf z b : Nat} (hc : c < 4) (hlen : s.media.cars.length = 4) (hmay : mayPass s c = true)
    (hb : blockAt c (wcar (dropBadLanes c s) c).frontier = some (lf, z, b))
    (hks : (passPlan s c z b).1 ≠ []) (hlf : (carOfS (passPlan s c z b).2 c).lf = lf)
    (hturn : (carOfS (passPlan s c z b).2 c).turn = turnOfSlot z (4 * b) % 10625)
    (halways : flag (passPlan s c z b).2 Fld.WRP_CTRL_PREREAD_ALWAYS = true) (hread : (wcar (dropBadLanes c s) c).preRead = none) :
    completes (.passStart c) s (fun t => (wcar t c).state = .preRead ∧ (wcar t c).passSkeins = (passPlan s c z b).1) := by
  have hplan : c < (passPlan s c z b).2.media.cars.length := (length_passPlan hlen z b).symm ▸ hc
  refine completes_passStart (P := fun w => w.state = .preRead ∧ w.passSkeins = (passPlan s c z b).1) hc hmay hb hks hlf hturn
    fun n => ?_
  have hdue : preReadDue (takePass c (passPlan s c z b).1 n (passPlan s c z b).2) (wcar (dropBadLanes c s) c) = true := by
    have hflag : flag (takePass c (passPlan s c z b).1 n (passPlan s c z b).2) Fld.WRP_CTRL_PREREAD_ALWAYS = true := halways
    simp [preReadDue, hflag, hread]
  have htaken : c < (takePass c (passPlan s c z b).1 n (passPlan s c z b).2).media.cars.length :=
    (length_modWcar _ _).symm ▸ hplan
  rw [startPass, if_pos hdue, beginPreRead, wcar_modWcar_same htaken]
  exact ⟨rfl, passSkeins_takePass hplan _ n⟩

/-- Once its pre-read has cleared the frontier and the placements are acknowledged, the pass is written. -/
theorem completes_passStart_writing {lf z b : Nat} (hc : c < 4) (hlen : s.media.cars.length = 4) (hmay : mayPass s c = true)
    (hb : blockAt c (wcar (dropBadLanes c s) c).frontier = some (lf, z, b))
    (hks : (passPlan s c z b).1 ≠ []) (hlf : (carOfS (passPlan s c z b).2 c).lf = lf)
    (hturn : (carOfS (passPlan s c z b).2 c).turn = turnOfSlot z (4 * b) % 10625)
    (hread : (wcar (dropBadLanes c s) c).preRead = some (wcar (dropBadLanes c s) c).frontier)
    (hacked : ∀ k ∈ (passPlan s c z b).1, pulseAcked (passPlan s c z b).2 k = true) :
    completes (.passStart c) s (fun t => (wcar t c).state = .writing ∧ (wcar t c).passSkeins = (passPlan s c z b).1) := by
  have hplan : c < (passPlan s c z b).2.media.cars.length := (length_passPlan hlen z b).symm ▸ hc
  refine completes_passStart (P := fun w => w.state = .writing ∧ w.passSkeins = (passPlan s c z b).1) hc hmay hb hks hlf hturn
    fun n => ?_
  have hclear : ¬ preReadDue (takePass c (passPlan s c z b).1 n (passPlan s c z b).2) (wcar (dropBadLanes c s) c) = true := by
    simp [preReadDue, hread]
  have hall : (passPlan s c z b).1.all (pulseAcked (takePass c (passPlan s c z b).1 n (passPlan s c z b).2)) = true :=
    List.all_eq_true.2 hacked
  have htaken : c < (takePass c (passPlan s c z b).1 n (passPlan s c z b).2).media.cars.length :=
    (length_modWcar _ _).symm ▸ hplan
  rw [startPass, if_neg hclear, if_pos hall]
  obtain ⟨hstate, hpass⟩ := wcar_beginPass (lf := lf) (z := z) (ks := (passPlan s c z b).1) htaken
  exact ⟨hstate, hpass.trans (passSkeins_takePass hplan _ n)⟩

/-! ### PRE_READ (R202) -/

theorem completes_preRead_blank (hc : c < 4) (hlen : s.media.cars.length = 4) (hstate : (wcar s c).state = .preRead)
    (hmay : mayPass (modWcar c (fun w => { w with state := .idle, preRead := some w.frontier }) s) c = false) :
    completes (.preRead c none) s (fun t => (wcar t c).state = .idle ∧ (wcar t c).preRead = some (wcar s c).frontier) := by
  have hgo : ¬ (decide (4 ≤ c) || decide ((wcar s c).state ≠ .preRead)) = true := by simp [hc, hstate]
  have hstay : ¬ mayPass (modWcar c (fun w => { w with state := .idle, preRead := some w.frontier }) s) c = true := by simp [hmay]
  have heff : preReadEff c none s = modWcar c (fun w => { w with state := .idle, preRead := some w.frontier }) s :=
    (if_neg hgo).trans (if_neg hstay)
  refine completes_of_done (congrArg (done s) ((if_pos hc).trans heff)) ?_
  rw [wcar_finish, wcar_modWcar_same (hlen.symm ▸ hc)]
  exact ⟨rfl, rfl⟩

theorem frontier_modWcar {f : WriteCar → WriteCar} (s : State) (k : Nat)
    (hf : ∀ w, (f w).frontier = w.frontier := by intro w; rfl) : (wcar (modWcar c f s) k).frontier = (wcar s k).frontier :=
  wcar_modWcar_keeps hf s k

theorem frontier_beginPass (lf z : Nat) (ks : List Nat) (s : State) (k : Nat) :
    (wcar (beginPass c lf z ks s) k).frontier = (wcar s k).frontier := by
  unfold beginPass
  extract_lets s₁ s₂ s₃ s₄
  have h₁ : samePasses s s₁ := (samePasses.refl s).setPowers
  have h₂ : (wcar s₂ k).frontier = (wcar s₁ k).frontier := frontier_modWcar s₁ k
  have h₄ : samePasses s₂ s₄ := (samePasses.refl s₂).setGate.forEach fun _ h => h.firePulse
  rw [h₄.bump.frontier, h₂, h₁.frontier]

theorem frontier_startPass (lf z : Nat) (ks : List Nat) (w : WriteCar) (s : State) (k : Nat) :
    (wcar (startPass c lf z ks w s) k).frontier = (wcar s k).frontier :=
  keeps_ite (fun s => (wcar s k).frontier) (frontier_modWcar s k)
    (keeps_ite (fun s => (wcar s k).frontier) (frontier_beginPass lf z ks s k) rfl)

/-- A plan leaves the frontier where it is, whatever comes of it. -/
theorem frontier_planPass (s : State) (k : Nat) : (wcar (planPass c s) k).frontier = (wcar s k).frontier := by
  cases hb : blockAt c (wcar (dropBadLanes c s) c).frontier with
  | none =>
    rw [planPass_none hb]
    exact (samePasses.refl s).dropBadLanes.frontier k
  | some e =>
    obtain ⟨lf, z, b⟩ := e
    have hplan := (samePasses_passPlan s c z b).frontier k
    obtain ⟨n, hn⟩ := planPass_some hb
    rw [hn]
    refine keeps_ite (fun s => (wcar s k).frontier) hplan ?_
    rw [frontier_startPass]
    exact (frontier_modWcar _ k).trans hplan

theorem completes_preRead_written (hc : c < 4) (hlen : s.media.cars.length = 4) (hstate : (wcar s c).state = .preRead) (k n : Nat) :
    completes (.preRead c (some (k, n))) s (fun t =>
      (wcar t c).frontier = (wcar s c).frontier + min k ((wcar s c).passBlocks - 1) + 1) := by
  have hgo : ¬ (decide (4 ≤ c) || decide ((wcar s c).state ≠ .preRead)) = true := by simp [hc, hstate]
  refine completes_of_done (congrArg (done s) ((if_pos hc).trans (if_neg hgo))) ?_
  rw [wcar_finish]
  extract_lets w
  dsimp -zeta only
  extract_lets +onlyGivenNames k' s₁ s₂ s₃ s₄
  have h₁ : wcar s₁ c = _ := wcar_modWcar_same (hlen.symm ▸ hc) _
  have h₂ : samePasses s₁ s₂ := (samePasses.refl s₁).forEach fun _ h => h.reform
  have h₄ : (wcar s₄ c).frontier = (wcar s c).frontier + min k ((wcar s c).passBlocks - 1) + 1 := by
    rw [h₂.bumpBy.evt.frontier, h₁]
  exact keeps_ite (fun s => (wcar s c).frontier) ((frontier_planPass s₄ c).trans h₄) h₄

/-! ### The end of the writing and of the verify revolution (R201) -/

/-- The output stage never asserts a write gate. -/
theorem wgate_finish (hc : c < 4) (h : t.pins.wgate.getD c false = false) : (finish s t).pins.wgate.getD c false = false := by
  have hoff : ([false, false, false, false] : List Bool).getD c false = false := by
    interval_cases c <;> rfl
  unfold finish outputStage
  split
  · exact hoff
  · split
    · exact hoff
    · exact h

theorem getD_modAt_const {α : Type} (d : α) : ∀ (i : Nat) (l : List α), (modAt i (fun _ => d) l).getD i d = d
  | _, [] => by simp [modAt]
  | 0, _ :: _ => rfl
  | i + 1, _ :: xs => getD_modAt_const d i xs

/-- The turn jump is the motion engine's. -/
theorem startTurnJump_eq (c : Nat) (s : State) : ∃ regs mot, startTurnJump c s = { s with regs := regs, mot := mot } := by
  unfold startTurnJump
  extract_lets m
  split
  · exact ⟨_, _, rfl⟩
  · next n dur s₁ _ =>
    have h₁ : ∃ mot, s₁ = { s with mot := mot } := by
      unfold s₁
      split
      · exact ⟨_, rfl⟩
      · exact ⟨_, rfl⟩
    obtain ⟨mot, h₁⟩ := h₁
    rw [h₁]
    exact ⟨_, _, rfl⟩

theorem passWriteEndEff_writing (hc : c < 4) (hlen : s.media.cars.length = 4) (hstate : (wcar s c).state = .writing)
    (hstop : (wcar s c).stopAtSlotEnd = false) :
    (wcar (passWriteEndEff c s) c).state = .turnJump ∧
      (wcar (passWriteEndEff c s) c).frontier = (wcar s c).passStart + (wcar s c).passBlocks ∧
      (passWriteEndEff c s).pins.wgate.getD c false = false := by
  have hgo : ¬ (decide (4 ≤ c) || decide ((wcar s c).state ≠ .writing)) = true := by simp [hc, hstate]
  have hends : ¬ (wcar s c).stopAtSlotEnd = true := by simp [hstop]
  unfold passWriteEndEff
  rw [if_neg hgo, if_neg hends]
  extract_lets w fills s₁ s₂ s₃ s₄ knots s₅ s₆ s₇ s₈
  have h₁ : s₁.pins.wgate.getD c false = false := getD_modAt_const false c s.pins.wgate
  have hpasses : samePasses s s₇ := by
    refine .bumpBy (.bumpBy (.bumpBy (.forEach (.forEach (.forEach (.setGate (.refl s)) fun key h => ?_) fun _ h => h.emit)
      fun _ h => h.modSkein)))
    split
    · exact h.forEach fun _ h => h.emit
    · exact h
  have hpins : s₇.pins = s₁.pins := by
    have h₂ : s₂.pins = s₁.pins := forEach_keeps State.pins _ (fun key s => by
      split
      · exact forEach_keeps State.pins _ (fun _ _ => emit_pins _ _) _ _
      · rfl) _ _
    have h₃ : s₃.pins = s₂.pins := forEach_keeps State.pins _ (fun _ _ => emit_pins _ _) _ _
    have h₄ : s₄.pins = s₃.pins := forEach_keeps State.pins _ (by intro _ _; rfl) _ _
    exact h₄.trans (h₃.trans h₂)
  have h₈ : wcar s₈ c = _ := wcar_modWcar_same (hpasses.length.trans hlen ▸ hc) _
  obtain ⟨regs, mot, hjump⟩ := startTurnJump_eq c s₈
  have hcar : wcar (startTurnJump c s₈) c = wcar s₈ c := by rw [hjump]; rfl
  have hgate : (startTurnJump c s₈).pins = s₁.pins := by rw [hjump]; exact hpins
  rw [hcar, hgate, h₈]
  exact ⟨rfl, hpasses.wcar (P := fun w => w.passStart + w.passBlocks) c, h₁⟩

theorem completes_passWriteEnd (hc : c < 4) (hlen : s.media.cars.length = 4) (hstate : (wcar s c).state = .writing)
    (hstop : (wcar s c).stopAtSlotEnd = false) :
    completes (.passWriteEnd c) s (fun t => (wcar t c).state = .turnJump ∧
      (wcar t c).frontier = (wcar s c).passStart + (wcar s c).passBlocks ∧ t.pins.wgate.getD c false = false) := by
  obtain ⟨hjump, hfrontier, hgate⟩ := passWriteEndEff_writing hc hlen hstate hstop
  refine completes_of_done (congrArg (done s) (if_pos hc)) ?_
  rw [wcar_finish]
  exact ⟨hjump, hfrontier, wgate_finish hc hgate⟩

/-- The verify outcomes leave the carriage's pass; the reads that wait do not change its state. -/
theorem completes_verifyRevolutionEnd (hc : c < 4) (hlen : s.media.cars.length = 4) (hstate : (wcar s c).state = .verify) :
    completes (.verifyRevolutionEnd c) s (fun t => (wcar t c).state = .idle ∧ (wcar t c).frontier = (wcar s c).frontier) := by
  have hgo : ¬ (decide (4 ≤ c) || decide ((wcar s c).state ≠ .verify)) = true := by simp [hc, hstate]
  refine completes_of_done (congrArg (done s) ((if_pos hc).trans (if_neg hgo))) ?_
  rw [wcar_finish]
  extract_lets ks s₁ s₂ w reads
  have h₁ : wcar s₁ c = _ := wcar_modWcar_same (hlen.symm ▸ hc) _
  have h₂ : samePasses s₁ s₂ := (samePasses.refl s₁).forEach fun key h => h.forEach fun m h => by
    split
    · exact h.onlyIf (·.verifyOutcome)
    · exact h
  have hidle : ((wcar s₂ c).state, (wcar s₂ c).frontier) = (.idle, (wcar s c).frontier) := by
    rw [h₂.state, h₂.frontier, h₁]
  split
  · have hserves := wcar_modWcar_keeps (c := c) (P := fun w => (w.state, w.frontier))
      (f := fun w => { w with serve := reads, burst := 0 }) (fun _ => rfl) s₂ c
    exact Prod.mk.inj (hserves.trans hidle)
  · exact Prod.mk.inj hidle

/-! ### Skeins by key -/

theorem skeinOf_modSkein_same {key : Nat} {k : Skein} (hk : skeinOf s key = some k) {f : Skein → Skein}
    (hf : ∀ k, (f k).key = k.key) : skeinOf (modSkein key f s) key = some (f k) := by
  have hkey : k.key = key := by simpa using List.find?_some hk
  have hpred : (fun k : Skein => k.key == key) ∘ (fun k => if k.key = key then f k else k) = fun k => k.key == key := by
    funext k
    simp only [Function.comp]
    split
    · rw [hf]
    · rfl
  unfold skeinOf at hk ⊢
  simp only [modSkein, List.find?_map, hpred, hk, Option.map_some, hkey, if_true]

/-! ### KNOT_INTERVAL (R197, R236) -/

theorem formRelocs_none (h : s.media.relocs = []) : formRelocs s = s := by
  unfold formRelocs
  refine keeps_ite id rfl ?_
  simp [h]

/-- A skein without a number takes the next one when it is sealed, and is open no more. -/
theorem sealSkein_open {key : Nat} {k : Skein} (hopen : s.media.openSkein = some key) (hk : skeinOf s key = some k)
    (hnum : k.number = none) :
    (sealSkein key s).media.openSkein = none ∧ (sealSkein key s).media.disc.nextSkein = s.media.disc.nextSkein + 1 ∧
      (sealSkein key s).media.relocs = s.media.relocs ∧
      ∃ k', skeinOf (sealSkein key s) key = some k' ∧ k'.number = some s.media.disc.nextSkein := by
  have hfresh : ¬ k.number.isSome = true := by simp [hnum]
  unfold sealSkein
  rw [hk]
  dsimp -zeta only
  rw [if_neg hfresh]
  refine ⟨if_pos hopen, rfl, rfl, _, skeinOf_modSkein_same (s := (takeNumber s).2) hk (fun _ => rfl), rfl⟩

theorem completes_knotInterval_skein {key : Nat} {k : Skein} (hopen : s.media.openSkein = some key) (hk : skeinOf s key = some k)
    (hnum : k.number = none) (hrelocs : s.media.relocs = []) :
    completes (.knotIntervalExpiry none) s (fun t => t.media.openSkein = none ∧
      t.media.disc.nextSkein = s.media.disc.nextSkein + 1 ∧
      ∃ k', skeinOf t key = some k' ∧ k'.number = some s.media.disc.nextSkein) := by
  obtain ⟨hclosed, hnext, hkept, hsealed⟩ := sealSkein_open hopen hk hnum
  have heff : knotIntervalEff none s = sealSkein key s := by
    simp only [knotIntervalEff, sealOpen, hopen]
    exact formRelocs_none (hkept.trans hrelocs)
  refine completes_of_done (congrArg (done s) heff) ?_
  rw [skeinOf, finish_media]
  exact ⟨hclosed, hnext, hsealed⟩

theorem completes_knotInterval_buffer (v : Nat) (hbytes : (bufOf s (v % 64)).bytes ≠ []) :
    completes (.knotIntervalExpiry (some v)) s (fun t => bufOf t (v % 64) = {}) := by
  have hfull : ¬ (bufOf s (v % 64)).bytes.isEmpty = true := by simpa using hbytes
  refine completes_of_done (congrArg (done s) (if_neg hfull)) ?_
  rw [bufOf, finish_media]
  exact Tbl.get_put_same ({} : PackBuf) {} (v % 64) _

/-! ### Knot skeins (R215, R216) -/

/-- Which skeins hold knots, and which. -/
def knotSkeins (s : State) : List (Bool × List Knot) := s.media.skeins.map (fun k => (k.isKnot, k.knots))

theorem knotSkeins_modSkein {f : Skein → Skein} (key : Nat) (s : State) (hf : ∀ k, ((f k).isKnot, (f k).knots) = (k.isKnot, k.knots)) :
    knotSkeins (modSkein key f s) = knotSkeins s := by
  simp only [knotSkeins, modSkein, List.map_map]
  refine List.map_congr_left fun k _ => ?_
  simp only [Function.comp]
  split
  · exact hf k
  · rfl

theorem knotSkeins_setMember (key d : Nat) (kind : MemberKind) (data : List Byte) (s : State) :
    knotSkeins (setMember key d kind data s) = knotSkeins s := knotSkeins_modSkein key s fun _ => rfl

theorem knotSkeins_modVol (v : Nat) (f : Volume → Volume) (s : State) : knotSkeins (modVol v f s) = knotSkeins s := rfl

theorem knotSkeins_mirror (m : MirrorItem) (s : State) : knotSkeins (mirror m s) = knotSkeins s := keeps_ite knotSkeins rfl rfl

theorem knotSkeins_sealSkein (key : Nat) (s : State) : knotSkeins (sealSkein key s) = knotSkeins s := by
  unfold sealSkein
  split
  · rfl
  · exact keeps_ite knotSkeins rfl (knotSkeins_modSkein key (takeNumber s).2 fun _ => rfl)

theorem mem_knotSkeins_formKnotSkein (ready : List Knot) (s : State) : (true, ready) ∈ knotSkeins (formKnotSkein ready s) := by
  unfold formKnotSkein
  dsimp -zeta only
  extract_lets s₁ s₂
  have h₁ : (true, ready) ∈ knotSkeins s₁ := by
    simp [knotSkeins, s₁, newSkein, modSkein]
  have h₂ : knotSkeins s₂ = knotSkeins s₁ := by
    refine forEach_keeps knotSkeins _ (fun q s => ?_) _ _
    split
    · rw [knotSkeins_mirror, knotSkeins_modVol, knotSkeins_setMember, knotSkeins_setMember]
    · rfl
  rw [knotSkeins_sealSkein, h₂]
  exact h₁

theorem completes_knotReady {elapsed : List Nat} {ready : List Knot} (hpf : s.pwr.pfRunning = false) (hne : ready ≠ [])
    (hready : ready = (((List.range 64).filterMap (readyKnot s elapsed)).foldl (fun a n => insKnot n a) []).take 6) :
    completes (.knotReady elapsed) s (fun t => ∃ k ∈ t.media.skeins, k.isKnot = true ∧ k.knots = ready) := by
  have heff : knotReadyEff elapsed s = formKnotSkein ready s := by
    unfold knotReadyEff
    extract_lets r
    have hr : r = ready := hready.symm
    have hgo : ¬ (ready.isEmpty || s.pwr.pfRunning) = true := by simp [hne, hpf]
    rw [hr, if_neg hgo]
  refine completes_of_done (congrArg (done s) heff) ?_
  rw [finish_media]
  obtain ⟨k, hk, heq⟩ := List.mem_map.1 (mem_knotSkeins_formKnotSkein ready s)
  obtain ⟨hknot, hknots⟩ := Prod.mk.inj heq
  exact ⟨k, hk, hknot, hknots⟩

/-! ### A verified knot (R217) -/

/-- The map engine appends the knot's entries to its volume's map, and the knot is the volume's last. -/
theorem volOf_mapKnot (place : List Nat) (pair : Nat) (n : Knot) (s : State) :
    (volOf (mapKnot place pair n s) n.vol).map = (volOf s n.vol).map ++ n.entries ∧
      (volOf (mapKnot place pair n s) n.vol).knotSeq = n.seq := by
  unfold mapKnot
  extract_lets hanks bytes firsts s₁ s₂
  have h₁ : samePasses s s₁ := (samePasses.refl s).onlyIf (·.relocApplied)
  have h₂ : volOf s₂ n.vol = _ := (volOf_modVol _ _ _ _).trans (if_pos rfl)
  obtain ⟨hmap, hseq⟩ := h₁.volume n.vol
  change (volOf s₂ n.vol).map = _ ∧ (volOf s₂ n.vol).knotSeq = _
  rw [h₂]
  exact ⟨congrArg (· ++ n.entries) hmap, rfl⟩

theorem samePasses_applyKnot (place : List Nat) (pair : Nat) (n : Knot) (s : State) :
    samePasses (mapKnot place pair n s) (applyKnot place pair n s) :=
  (((samePasses.refl _).onlyIf (·.change)).onlyIf (·.ckptBegin)).onlyIf (·.writeAnchor)

theorem completes_knotVerified {key : Nat} {k : Skein} {n : Knot} (hk : skeinOf s key = some k) (hknot : k.isKnot = true)
    (hpassed : k.passed = true) (htold : k.told = true) (hone : k.knots = [n]) (hp : acked s (.passed key) = true)
    (hv : acked s (.verified key) = true) :
    completes (.knotVerified key) s (fun t => (volOf t n.vol).map = (volOf s n.vol).map ++ n.entries ∧
      (volOf t n.vol).knotSeq = n.seq) := by
  have heff : knotVerifiedEff key s = formAll (settle (gcSkeins (applyKnot (placeOf k) 0 n (dropSkein key s)))) := by
    simp [knotVerifiedEff, hk, hknot, hpassed, htold, hone, hp, hv, applyKnots]
  have hrest : samePasses (mapKnot (placeOf k) 0 n (dropSkein key s)) (knotVerifiedEff key s) :=
    heff ▸ (samePasses_applyKnot _ _ _ _).media.settle.formAll
  refine completes_of_done rfl ?_
  obtain ⟨hmap, hseq⟩ := hrest.volume n.vol
  rw [volOf, finish_media]
  obtain ⟨hmapped, hlast⟩ := volOf_mapKnot (placeOf k) 0 n (dropSkein key s)
  exact ⟨hmap.trans hmapped, hseq.trans hlast⟩

/-- Settles O22: a pass follows its plan, what goes with it leaves the carriage's pass, and a knot's entries outlast all that
follows its application. -/
theorem passesAndKnots : Obligations.PassesAndKnots := by
  unfold Obligations.PassesAndKnots
  intro s c hc hlen
  exact ⟨fun lf z b hmay hb hks hlf hturn => completes_passStart_preRead hc hlen hmay hb hks hlf hturn,
    fun lf z b hmay hb hks hlf hturn => completes_passStart_writing hc hlen hmay hb hks hlf hturn,
    completes_preRead_blank hc hlen,
    fun k n hstate => completes_preRead_written hc hlen hstate k n,
    completes_passWriteEnd hc hlen,
    completes_verifyRevolutionEnd hc hlen,
    fun key k hopen hk hnum hrelocs => completes_knotInterval_skein hopen hk hnum hrelocs,
    completes_knotInterval_buffer,
    fun elapsed ready hpf hne hready => completes_knotReady hpf hne hready,
    fun key k n hk hknot hpassed htold hone hp hv => completes_knotVerified hk hknot hpassed htold hone hp hv⟩

end Sys2Proof.Proofs
end

section
/-! The Pickup Driver Link and the driver's status (R207, R208, R222), the laser interlock (R218, R221) and RETRY_HELD (R213). -/

namespace Sys2Proof.Proofs

open Sys2Proof Sys2Proof.Machine Sys2Proof.Safety

variable {s t : State} {c : Nat}

/-! ### PDL_FRAME (R207) -/

section
variable (hc : c < 4) (hbound : bound s (uCar c) = true)
include hc hbound

/-- A bound carriage of the table is served. -/
theorem carServed : ¬ (decide (4 ≤ c) || !bound s (uCar c)) = true := by simp [hc, hbound]

theorem completes_pdlFrame_good (hlen : s.media.cars.length = 4) {resp : Nat} (hmark : bits resp 28 4 = 0xA)
    (hodd : ((List.range 32).filter (fun i => bit resp i)).length % 2 = 1) (hservice : ust s (uCar c) = .service) :
    completes (.pdlFrame c resp) s (fun t => (wcar t c).pdlTries = 0 ∧
      getReg t (Reg.WRP_PDL_RESP + 4 * c) = BitVec.ofNat 32 (0x80000000 + bits resp 4 16)) := by
  have heff : pdlFrameEff c resp s = setReg (Reg.WRP_PDL_RESP + 4 * c) (BitVec.ofNat 32 (0x80000000 + bits resp 4 16))
      (modWcar c (fun w => { w with pdlTries := 0 }) s) := by
    rw [pdlFrameEff, if_neg (carServed hc hbound)]
    simp [hmark, hodd, hservice]
  refine completes_of_done (congrArg (done s) ((if_pos hc).trans heff)) ⟨?tries, (getReg_finish _ _ _).trans (getReg_setReg_same _ _ _)⟩
  case tries =>
    rw [wcar_finish]
    exact congrArg WriteCar.pdlTries (wcar_modWcar_same (hlen.symm ▸ hc) _)

theorem completes_pdlFrame_again (hlen : s.media.cars.length = 4) {resp : Nat} (hmark : bits resp 28 4 ≠ 0xA)
    (htries : (wcar s c).pdlTries < 2) :
    completes (.pdlFrame c resp) s (fun t => (wcar t c).pdlTries = (wcar s c).pdlTries + 1 ∧
      t.out = s.out ++ [.pdl c (wcar s c).pdlFrame]) := by
  have heff : pdlFrameEff c resp s =
      emit (.pdl c (wcar s c).pdlFrame) (modWcar c (fun w => { w with pdlTries := w.pdlTries + 1 }) s) := by
    rw [pdlFrameEff, if_neg (carServed hc hbound)]
    simp [hmark, htries]
  refine completes_of_done (congrArg (done s) ((if_pos hc).trans heff)) ⟨?tries, finish_out _ _⟩
  case tries =>
    rw [wcar_finish]
    exact congrArg WriteCar.pdlTries (wcar_modWcar_same (hlen.symm ▸ hc) _)

/-- After the third bad response the carriage has no driver, whatever state its unit is to enter. -/
theorem completes_pdlFrame_error (hlen : s.media.cars.length = 4) {resp : Nat} (hmark : bits resp 28 4 ≠ 0xA)
    (htries : 2 ≤ (wcar s c).pdlTries) :
    completes (.pdlFrame c resp) s (fun t => (wcar t c).drvReady = false ∧ flag t Fld.WRP_EVT_PDL_ERROR = true) := by
  refine completes_of_done (congrArg (done s) ((if_pos hc).trans (if_neg (carServed hc hbound)))) ?_
  extract_lets w good service _ s₁ s₂ s₃ s₄
  have hbad : ¬ good = true := by simp [good, hmark]
  have hlast : ¬ w.pdlTries < 2 := Nat.not_lt.2 htries
  have h₁ : wcar s₁ c = _ := wcar_modWcar_same (hlen.symm ▸ hc) _
  have h₄ : samePasses s₁ s₄ := .evt (.stopAtSlot (.onlyIf (.bump (.refl s₁)) fun h => h.setReg))
  rw [if_neg hbad, if_neg hlast, wcar_finish, flag_finish]
  constructor
  · rw [h₄.carGradeCheck.wcar (P := WriteCar.drvReady) c, h₁]
  · rw [flag_of_getF (getF_of_getReg (getReg_of_calm (calm_carGradeCheck _ _ _) (by decide)))]
    exact flag_evt_same (by decide) rfl (by decide) _ _ _

/-! ### DRV_STATUS_POLL (R208) -/

theorem completes_drvStatusPoll (hlen : s.media.cars.length = 4) (st : Nat) :
    completes (.drvStatusPoll c st) s (fun t => (wcar t c).drvReady = (bits st 8 2 == 0)) := by
  refine completes_of_done (congrArg (done s) ((if_pos hc).trans (if_neg (carServed hc hbound)))) ?_
  rw [wcar_finish]
  extract_lets bad newBad s₁ s₂
  have hlen₁ : s₁.media.cars.length = 4 := keeps_ite (fun s => s.media.cars.length)
    ((congrArg (fun m => m.cars.length) (evt_media _ _ _ _)).trans ((length_modWcar _ _).trans hlen)) hlen
  have h₂ : wcar s₂ c = _ := wcar_modWcar_same (hlen₁.symm ▸ hc) _
  have hstop : samePasses s₂ (if bit st 9 then stopAtSlot c s₂ else s₂) := (samePasses.refl s₂).onlyIf (·.stopAtSlot)
  rw [hstop.carGradeCheck.wcar (P := WriteCar.drvReady) c, h₂]

end

/-! ### WRP_PDL_CMD (R222) -/

theorem completes_wrpPdlCmd (hc : c < 4) (frame : Word) (hserved : sideServed s (Reg.WRP_PDL_CMD + 4 * c) = true)
    (hservice : ust s (uCar c) = .service) :
    completes (.wrpPdlCmd c frame) s (fun t => t.out = s.out ++ [.pdl c frame.toNat] ∧
      getReg t (Reg.WRP_PDL_CMD + 4 * c) = frame ∧ getReg t (Reg.WRP_PDL_RESP + 4 * c) = 0#32) := by
  have hcar : ¬ 4 ≤ c := by omega
  have hapart : Reg.WRP_PDL_RESP + 4 * c ≠ Reg.WRP_PDL_CMD + 4 * c := by simp [Reg.WRP_PDL_RESP, Reg.WRP_PDL_CMD]
  have heff : pdlCmdEff c frame.toNat s = sendPdl c frame.toNat (setReg (Reg.WRP_PDL_RESP + 4 * c) 0#32
      (setReg (Reg.WRP_PDL_CMD + 4 * c) frame s)) := by
    have hword : frame.toNat % 0x100000000 = frame.toNat := Nat.mod_eq_of_lt frame.isLt
    rw [pdlCmdEff, if_neg hcar, BitVec.ofNat_toNat, BitVec.setWidth_eq, hword]
    exact if_pos hservice
  refine completes_servedAt rfl hc hserved ?_
  rw [heff]
  refine ⟨finish_out _ _, ?command, ?response⟩
  case command => exact (getReg_finish _ _ _).trans ((getReg_setReg_ne hapart _ _).trans (getReg_setReg_same _ _ _))
  case response => exact (getReg_finish _ _ _).trans (getReg_setReg_same _ _ _)

/-! ### The laser interlock (R218, R221) -/

/-- The output stage lights no laser while the interlock is asserted. -/
theorem lasersOff_finish (h : t.pwr.ilk = true) : lasersOff (finish s t).pins := by
  have hrelease : ∀ b ∈ ([false, false, false, false] : List Bool), b = false := by decide
  have hreplicate : ∀ b ∈ List.replicate 4 false, b = false := fun b => List.eq_of_mem_replicate
  unfold finish outputStage
  split
  · exact ⟨hrelease, hrelease⟩
  · exact ⟨hreplicate, hreplicate⟩

theorem abandonPass_pwr (c : Nat) (s : State) : (abandonPass c s).pwr = s.pwr := by
  unfold abandonPass
  refine keeps_ite State.pwr rfl ?_
  extract_lets wrote cut used s₁ s₂ s₃
  have h₁ : s₁.pwr = s.pwr := keeps_ite State.pwr rfl rfl
  have hrewritten (ks : List Nat) : samePasses s₃ (forEach (fun k s => reform k false s) ks s₃) :=
    (samePasses.refl s₃).forEach fun _ h => h.reform
  exact keeps_ite State.pwr ((hrewritten _).evt.pwr.trans h₁) h₁

theorem stopAllNow_pwr (s : State) : (stopAllNow s).pwr = s.pwr :=
  forEach_keeps State.pwr stopWriteNow (fun c s => abandonPass_pwr c (setGate c false s)) allCars s

/-- The interlock is asserted: the writing stops at once, no laser and no write gate is driven, and the event is raised. -/
def interlocked (s : State) : State :=
  evt Fld.WRP_EVT_INTERLOCK noUnit [] (bump Reg.WRP_CNT 11 (forEach (fun c s => setLen c false (setGate c false s)) allCars
    (stopAllNow { s with pwr := { s.pwr with ilk := true } })))

/-- A carriage that is not down goes OFFLINE for the interlock. -/
def interlockCar (c : Nat) (s : State) : State :=
  if (ust s (uCar c)).down then s else change (uCar c) .offline .interlock s

theorem laserIlkEff_eq (hilk : s.pwr.ilk = false) :
    laserIlkEff s = forEach interlockCar (boundCars (interlocked s)) (interlocked s) := if_neg (by simp [hilk])

theorem interlocked_ilk (s : State) : (interlocked s).pwr.ilk = true := by
  rw [interlocked, evt_pwr, bump_pwr, forEach_keeps State.pwr _ (by intro _ _; rfl), stopAllNow_pwr]

theorem completes_laserIlkAssert (hilk : s.pwr.ilk = false) :
    completes .laserIlkAssert s (fun t => t.pwr.ilk = true ∧ lasersOff t.pins ∧ flag t Fld.WRP_EVT_INTERLOCK = true) := by
  have hcalm : calm (forEach interlockCar (boundCars (interlocked s)) (interlocked s)) = calm (interlocked s) :=
    forEach_keeps calm interlockCar (fun c s => keeps_ite calm rfl (calm_change _ _ _ s)) _ _
  have hasserted : (forEach interlockCar (boundCars (interlocked s)) (interlocked s)).pwr.ilk = true := by
    rw [pwr_of_calm hcalm, interlocked_ilk]
  refine completes_of_done (congrArg (done s) (laserIlkEff_eq hilk)) ⟨?asserted, lasersOff_finish hasserted, ?event⟩
  case asserted => rw [finish_pwr, hasserted]
  case event =>
    rw [flag_finish, flag_of_getF (getF_of_getReg (getReg_of_calm hcalm (by decide)))]
    exact flag_evt_same (by decide) rfl (by decide) _ _ _

/-- A carriage that the interlock took OFFLINE starts, and is acquired where the spindle turns. -/
def releaseCar (c : Nat) (s : State) : State :=
  if ust s (uCar c) = .offline && (unitOf s (uCar c)).reason = .interlock then
    if ust (change (uCar c) .starting .interlock s) uSpindle = .ready then acquireCar c (change (uCar c) .starting .interlock s)
    else change (uCar c) .starting .interlock s
  else s

/-- The interlock is released. -/
def interlockOff (s : State) : State := { s with pwr := { s.pwr with ilk := false } }

theorem interlockReleaseEff_eq (hilk : s.pwr.ilk = true) :
    interlockReleaseEff s = forEach releaseCar (boundCars (interlockOff s)) (interlockOff s) := if_neg (by simp [hilk])

theorem acquireCar_pwr (c : Nat) (s : State) : (acquireCar c s).pwr = s.pwr := by
  unfold acquireCar
  extract_lets s₁ s₂
  have h₁ : s₁.pwr = s.pwr := keeps_ite State.pwr rfl rfl
  have h₂ : s₂.pwr = s.pwr := keeps_ite State.pwr h₁ h₁
  refine (forEach_keeps State.pwr _ (fun kind s => ?_) _ _).trans h₂
  split
  · rfl
  · rfl

theorem releaseCar_pwr (c : Nat) (s : State) : (releaseCar c s).pwr = s.pwr := by
  have hstarting : (change (uCar c) .starting .interlock s).pwr = s.pwr := pwr_of_calm (calm_change _ _ _ s)
  exact keeps_ite State.pwr (keeps_ite State.pwr ((acquireCar_pwr c _).trans hstarting) hstarting) rfl

theorem completes_interlockRelease (hilk : s.pwr.ilk = true) : completes .interlockRelease s (fun t => t.pwr.ilk = false) := by
  refine completes_of_done (congrArg (done s) (interlockReleaseEff_eq hilk)) ?_
  rw [finish_pwr, forEach_keeps State.pwr releaseCar releaseCar_pwr]
  rfl

/-! ### RETRY_HELD (R213) -/

/-- A skein that is formed again is not exhausted, and no other skein becomes so. -/
theorem skeins_reform {key : Nat} {k : Skein} (hk : skeinOf s key = some k) (hlive : ¬ (k.failed || k.exhausted) = true) :
    ∃ fresh : Skein, fresh.exhausted = false ∧
      (reform key false s).media.skeins = s.media.skeins.map (fun k => if k.key = key then { k with failed := true } else k) ++ [fresh] := by
  obtain ⟨_, hexhausted⟩ : k.failed = false ∧ k.exhausted = false := by simpa using hlive
  have hleave : (leaveQueues key s).media.skeins = s.media.skeins :=
    forEach_keeps (fun s => s.media.skeins) _ (by intro _ _; rfl) _ _
  have hjoin (key : Nat) (s : State) : (joinQueues key s).media.skeins = s.media.skeins :=
    forEach_keeps (fun s => s.media.skeins) _ (by intro _ _; rfl) _ _
  unfold reform
  rw [hk]
  dsimp -zeta only
  rw [if_neg hlive]
  extract_lets tries s₁
  rw [if_neg (by simp)]
  refine ⟨_, ?live, (hjoin _ _).trans (congrArg (fun l : List Skein => l.map _ ++ [_]) hleave)⟩
  case live => exact hexhausted

/-- Every exhausted skein has the key of an exhausted one of l. -/
def exhaustedAmong (l : List Skein) (s : State) : Prop :=
  ∀ k ∈ s.media.skeins, k.exhausted = true → ∃ j ∈ l, j.exhausted = true ∧ j.key = k.key

theorem exhaustedAmong_reform {l : List Skein} (h : exhaustedAmong l s) (key : Nat) : exhaustedAmong l (reform key false s) := by
  cases hk : skeinOf s key with
  | none => simpa only [reform, hk] using h
  | some k =>
    by_cases hlive : (k.failed || k.exhausted) = true
    · simpa only [reform, hk, hlive, if_true] using h
    · obtain ⟨fresh, hfresh, hskeins⟩ := skeins_reform hk hlive
      intro k' hk' hex
      rw [hskeins, List.mem_append, List.mem_map, List.mem_singleton] at hk'
      rcases hk' with ⟨x, hx, rfl⟩ | rfl
      · split at hex
        · next hsame => simpa [hsame] using h x hx hex
        · next hother => simpa [hother] using h x hx hex
      · rw [hfresh] at hex
        cases hex

/-- A skein of the list that is exhausted is granted a fresh count and formed again. -/
def grantOne (k : Skein) (s : State) : State :=
  if k.exhausted && true then
    reform k.key false (modSkein k.key (fun k => { k with exhausted := false, failed := false, tries := 0 }) s) else s

theorem exhaustedAmong_grantOne {k : Skein} {l : List Skein} (h : exhaustedAmong (k :: l) s) : exhaustedAmong l (grantOne k s) := by
  unfold grantOne
  split
  · refine exhaustedAmong_reform (fun k' hk' hex => ?_) k.key
    obtain ⟨x, hx, rfl⟩ := List.mem_map.1 hk'
    by_cases hkey : x.key = k.key
    · simp [hkey] at hex
    · rw [if_neg hkey] at hex ⊢
      obtain ⟨j, hj, hjex, hjkey⟩ := h x hx hex
      have hne : j ≠ k := fun hjk => hkey (hjk ▸ hjkey.symm)
      exact ⟨j, (List.mem_cons.1 hj).resolve_left hne, hjex, hjkey⟩
  · next hidle =>
    intro x hx hex
    obtain ⟨j, hj, hjex, hjkey⟩ := h x hx hex
    have hne : j ≠ k := fun hjk => hidle (by simp [← hjk, hjex])
    exact ⟨j, (List.mem_cons.1 hj).resolve_left hne, hjex, hjkey⟩

theorem exhaustedAmong_forEach : ∀ (l : List Skein) (s : State), exhaustedAmong l s → exhaustedAmong [] (forEach grantOne l s)
  | [], _, h => h
  | _ :: l, _, h => exhaustedAmong_forEach l _ (exhaustedAmong_grantOne h)

theorem beyondChange_settleOne (e : Nat × Cmd) (s : State) : beyondChange (settleOne e s) = beyondChange s := by
  have hend (st : Status) (r : Nat) : beyondChange (endCmd e.1 st r s) = beyondChange s := beyondChange_endCmd _ _ _ s
  refine keeps_ite beyondChange ?running (keeps_ite beyondChange (keeps_ite beyondChange rfl ?asOf) rfl)
  case running =>
    split
    · rfl
    · refine keeps_ite beyondChange (hend _ _) ?_
      split
      · exact hend _ _
      · exact keeps_ite beyondChange ((beyondChange_evt _ _ _ _).trans (hend _ _)) rfl
  case asOf =>
    split
    · exact hend _ _
    · rfl

theorem skeins_settle (s : State) : (settle s).media.skeins = s.media.skeins := by
  have hends := forEach_keeps beyondChange settleOne beyondChange_settleOne (cmds s) s
  have hskeins := congrArg (fun b : State => b.media.skeins) hends
  exact hskeins

theorem completes_retryHeld (hserved : sideServed s Reg.WRP_CTRL = true) (howner : isOwner s = true) :
    completes .retryHeld s (fun t => ∀ k ∈ t.media.skeins, k.exhausted = false) := by
  have hact : atOwner retryHeldEff s = retryHeldEff s := if_pos howner
  have hnone : exhaustedAmong [] (grantFresh (fun _ => true) s) :=
    exhaustedAmong_forEach s.media.skeins s fun k hk hex => ⟨k, hk, hex, rfl⟩
  refine completes_served (f := atOwner retryHeldEff) rfl hserved ?_
  rw [hact, finish_media, retryHeldEff, skeins_settle]
  intro k hk
  by_contra hex
  obtain ⟨j, hj, _⟩ := hnone k hk (by simpa using hex)
  cases hj

/-- Settles O23: the driver's link and its status act on their own carriage, a change of a unit leaves the interlock and the
driver's state, and no skein becomes exhausted by being formed again. -/
theorem driverLinkInterlockAndRetry : Obligations.DriverLinkInterlockAndRetry := by
  unfold Obligations.DriverLinkInterlockAndRetry
  intro s c hc hlen
  exact ⟨fun resp hbound hmark hodd hservice => completes_pdlFrame_good hc hbound hlen hmark hodd hservice,
    fun resp hbound hmark htries => completes_pdlFrame_again hc hbound hlen hmark htries,
    fun resp hbound hmark htries => completes_pdlFrame_error hc hbound hlen hmark htries,
    fun st hbound => completes_drvStatusPoll hc hbound hlen st,
    fun frame hserved hservice => completes_wrpPdlCmd hc frame hserved hservice,
    completes_laserIlkAssert, completes_interlockRelease, completes_retryHeld⟩

end Sys2Proof.Proofs
end

section
/-! The hank engines: dispatch, the ends of codings and decompressions, and restores (R233, R234, R240 to R243). -/

namespace Sys2Proof.Proofs

open Sys2Proof Sys2Proof.Machine Sys2Proof.Safety

/-! ### What goes with the end of a request leaves the engines as they are (R196, R235, R236)

Each operation has one lemma, `sameHankEngines.f` for the operation `f`. -/

/-- The hank engines are in t what they are in s. -/
def sameHankEngines (s t : State) : Prop := t.media.hank.engines = s.media.hank.engines

section
variable {u s t : State}

theorem sameHankEngines.refl (s : State) : sameHankEngines s s := rfl

theorem sameHankEngines.hengOf (h : sameHankEngines s t) (n : Nat) : hengOf t n = hengOf s n :=
  congrArg (fun l => l.getD n {}) h

/-- What an event or the end of a command can reach lies beside the engines. -/
theorem sameHankEngines.ofBeyond (h : sameHankEngines u s) (hb : beyondChange t = beyondChange s) : sameHankEngines u t := by
  have he := congrArg (fun b : State => b.media.hank.engines) hb
  exact Eq.trans he h

/-- A change of the pool. -/
theorem sameHankEngines.pool (h : sameHankEngines u s) {p : PoolState} : sameHankEngines u { s with pool := p } := h

/-- A change of the media beside the engines. -/
theorem sameHankEngines.media (h : sameHankEngines u s) {vols held nextHeld skeins nextKey openSkein openReloc cars disc queue
      places nextHank bufs relocs} :
    sameHankEngines u { s with media := ⟨vols, held, nextHeld, skeins, nextKey, openSkein, openReloc, cars, disc,
      ⟨s.media.hank.engines, queue, places, nextHank, bufs⟩, relocs⟩ } := h

theorem sameHankEngines.ite {c : Prop} {_ : Decidable c} (hs : sameHankEngines u s) (ht : sameHankEngines u t) :
    sameHankEngines u (if c then s else t) := by
  split
  · exact hs
  · exact ht

theorem sameHankEngines.onlyIf (h : sameHankEngines u s) {c : Prop} {_ : Decidable c}
    (f : sameHankEngines u s → sameHankEngines u t) : sameHankEngines u (if c then t else s) := .ite (f h) h

theorem sameHankEngines.forEach {α : Type} {f : α → State → State} {l : List α} (h : sameHankEngines u s)
    (hf : ∀ {s} x, sameHankEngines u s → sameHankEngines u (f x s)) : sameHankEngines u (forEach f l s) := by
  induction l generalizing s with
  | nil => exact h
  | cons x l ih => exact ih (hf x h)

theorem sameHankEngines.modHeng (h : sameHankEngines u s) {n f} : sameHankEngines (modHeng n f u) (modHeng n f s) :=
  congrArg (modAt n f) h

theorem sameHankEngines.bump (h : sameHankEngines u s) {off i} : sameHankEngines u (bump off i s) := h

theorem sameHankEngines.evt (h : sameHankEngines u s) {f unit items} : sameHankEngines u (evt f unit items s) :=
  h.ofBeyond (beyondChange_evt _ _ _ _)

theorem sameHankEngines.modCmd (h : sameHankEngines u s) {t f} : sameHankEngines u (modCmd t f s) :=
  h.ofBeyond (beyondChange_modCmd _ _ _)

theorem sameHankEngines.endCmd (h : sameHankEngines u s) {t st result} : sameHankEngines u (endCmd t st result s) :=
  h.ofBeyond (beyondChange_endCmd _ _ _ _)

theorem sameHankEngines.putHankQueue (h : sameHankEngines u s) {q} : sameHankEngines u (putHankQueue q s) := h

theorem sameHankEngines.gcHeld (h : sameHankEngines u s) : sameHankEngines u (gcHeld s) := h

theorem sameHankEngines.settle (h : sameHankEngines u s) : sameHankEngines u (settle s) :=
  (h.forEach fun _ h => h.ofBeyond (beyondChange_settleOne _ _)).gcHeld

theorem sameHankEngines.leaveLadders (h : sameHankEngines u s) {t} : sameHankEngines u (leaveLadders t s) :=
  h.pool.forEach fun _ h => h.forEach fun _ h => .ite h h

theorem sameHankEngines.hankReadOne (h : sameHankEngines u s) {t} : sameHankEngines u (hankReadOne t s) := by
  unfold Machine.hankReadOne
  split
  · exact h
  · refine .ite h (.ite h (.ite h.endCmd.leaveLadders.gcHeld.evt (h.forEach fun _ h => ?_)))
    dsimp only
    split
    · exact h
    · exact h.onlyIf (·.putHankQueue)

theorem sameHankEngines.hankReads (h : sameHankEngines u s) : sameHankEngines u (hankReads s) := h.forEach fun _ h => h.hankReadOne

/-- The commands and reads that end where the last engine goes out of service leave the engines (R235). -/
theorem sameHankEngines.outOfService (h : sameHankEngines u s) {c : Prop} {_ : Decidable c} :
    sameHankEngines u (if c then Machine.hankReads (Machine.settle (noEngineEvt s)) else s) := h.onlyIf (·.evt.settle.hankReads)

/-! #### Forming and packing -/

theorem sameHankEngines.sealSkein (h : sameHankEngines u s) {key} : sameHankEngines u (sealSkein key s) := by
  unfold Machine.sealSkein
  split
  · exact h
  · exact .ite h h.media.media.media.pool

theorem sameHankEngines.sealOpen (h : sameHankEngines u s) : sameHankEngines u (sealOpen s) := by
  unfold Machine.sealOpen
  split
  · exact h.sealSkein
  · exact h

theorem sameHankEngines.putMember (h : sameHankEngines u s) {kind data seq} :
    sameHankEngines u (putMember kind data seq s).2 := by
  have hopen : sameHankEngines u (openData s).2 := by
    unfold openData
    split
    · exact h
    · exact h
  exact hopen.media.media.onlyIf (·.sealSkein)

theorem sameHankEngines.packMember (h : sameHankEngines u s) {v seq hanks data} :
    sameHankEngines u (packMember v seq hanks data s) := h.putMember.forEach fun _ h => h

theorem sameHankEngines.packFull (h : sameHankEngines u s) {v seq n hanks since bs} :
    sameHankEngines u (packFull v seq n hanks since bs s) := by
  induction n generalizing hanks since bs s with
  | zero => exact h
  | succ n ih => exact .ite h (ih h.packMember)

theorem sameHankEngines.appendHank (h : sameHankEngines u s) {p stored} : sameHankEngines u (appendHank p stored s) :=
  h.media.media.packFull

theorem sameHankEngines.flushBuf (h : sameHankEngines u s) {v} : sameHankEngines u (flushBuf v s) := .ite h h.packMember

theorem sameHankEngines.formGo (h : sameHankEngines u s) {hs blocked} : sameHankEngines u (formGo hs blocked s) := by
  induction hs generalizing blocked s with
  | nil => exact h
  | cons k hs ih =>
    refine .ite (ih h) (.ite (ih h) (.ite (ih h) ?_))
    split
    · split
      · exact ih h.appendHank
      · exact ih h
    · exact ih (h.putMember.media.onlyIf (·.sealOpen))

theorem sameHankEngines.formAll (h : sameHankEngines u s) : sameHankEngines u (formAll s) := by
  refine h.formGo.forEach fun _ h => ?_
  unfold sealFor
  split
  · exact h.onlyIf fun h => h.flushBuf.onlyIf (·.sealOpen)
  · exact h

end

/-! ### An engine and its change -/

variable {s : State} {n : Nat} {r : HankReq}

theorem hengOf_finish (s t : State) (n : Nat) : hengOf (finish s t) n = hengOf t n := by rw [hengOf, finish_media, hengOf]

theorem length_modHeng (n : Nat) (f : HankEng → HankEng) (s : State) :
    (modHeng n f s).media.hank.engines.length = s.media.hank.engines.length := length_modAt

theorem hengOf_modHeng_same (h : n < s.media.hank.engines.length) (f : HankEng → HankEng) :
    hengOf (modHeng n f s) n = f (hengOf s n) := getD_modAt_same f {} _ h

theorem getD_modAt_ne {α : Type} (f : α → α) (d : α) : ∀ (l : List α) {i j : Nat}, i ≠ j → (modAt i f l).getD j d = l.getD j d
  | [], _, _, _ => by rw [modAt]
  | _ :: _, 0, 0, h => absurd rfl h
  | _ :: _, 0, _ + 1, _ => rfl
  | _ :: _, _ + 1, 0, _ => rfl
  | _ :: xs, _ + 1, _ + 1, h => getD_modAt_ne f d xs (fun e => h (congrArg Nat.succ e))

theorem hankInService_modHeng_ne {m : Nat} (h : n ≠ m) (f : HankEng → HankEng) (s : State) :
    hankInService (modHeng n f s) m = hankInService s m := by
  have hm : (modAt n f s.media.hank.engines).getD m {} = s.media.hank.engines.getD m {} := getD_modAt_ne f {} _ h
  unfold hankInService
  rw [show (modHeng n f s).media.hank.engines.getD m {} = s.media.hank.engines.getD m {} from hm]
  rfl

/-- An engine that its request has left. -/
theorem req_hankFree (h : n < s.media.hank.engines.length) : (hengOf (hankFree n s) n).req = none :=
  congrArg HankEng.req (hengOf_modHeng_same h _)

theorem use_hankFree (h : n < s.media.hank.engines.length) (hrestore : bit (getF s Fld.HNK_CTRL_RESTORE) n = false) :
    (hengOf (hankFree n s) n).use = .idle :=
  (congrArg HankEng.use (hengOf_modHeng_same h _)).trans (if_neg (by simp [hrestore]))

/-! ### Dispatch (R243) -/

/-- An engine with the request that it begins. -/
def withReq (r : HankReq) (e : HankEng) : HankEng :=
  { e with use := if r.decompress then .decompressing else .coding, req := some r }

theorem hankDispatchEff_eq (hn : n < 6) (hserves : hankInService s n = true) (hidle : (hengOf s n).use = .idle)
    (hlimit : (s.media.hank.engines.filter (fun e => e.req.isSome)).length < hankLimit s)
    (hrestore : bit (getF s Fld.HNK_CTRL_RESTORE) n = false) (hnext : nextReq s n = some r) :
    hankDispatchEff n s = modHeng n (withReq r) (putHankQueue (s.media.hank.queue.erase r) s) := by
  unfold hankDispatchEff
  simp only [hn.not_ge, hserves, hidle, hlimit.not_ge, hrestore, hnext]
  rfl

theorem completes_hankDispatch (hn : n < 6) (hlen : s.media.hank.engines.length = 6) (hserves : hankInService s n = true)
    (hidle : (hengOf s n).use = .idle)
    (hlimit : (s.media.hank.engines.filter (fun e => e.req.isSome)).length < hankLimit s)
    (hrestore : bit (getF s Fld.HNK_CTRL_RESTORE) n = false) (hnext : nextReq s n = some r) :
    completes (.hankDispatch n) s (fun t => t.media.hank.queue = s.media.hank.queue.erase r ∧
      (hengOf t n).req = some r ∧ (hengOf t n).use = (if r.decompress then .decompressing else .coding)) := by
  have heff := hankDispatchEff_eq hn hserves hidle hlimit hrestore hnext
  refine completes_of_done (congrArg (done s) heff) ?_
  have htaken : hengOf (modHeng n (withReq r) (putHankQueue (s.media.hank.queue.erase r) s)) n = withReq r (hengOf s n) :=
    hengOf_modHeng_same (hlen.symm ▸ hn) _
  rw [finish_media, hengOf_finish, htaken]
  exact ⟨rfl, rfl, rfl⟩

/-! ### The end of a coding (R233, R234) -/

theorem sameHankEngines.hankFault {u s : State} (h : sameHankEngines u s) (n : Nat) :
    sameHankEngines (Machine.modHeng n (fun e => { e with faulted := true }) u) (hankFault n s) :=
  h.modHeng.bump.evt.outOfService

/-- A coding frees its engine, and faults it where it is unsound or forced to mismatch. -/
theorem sameHankEngines_hankCodeEff (hreq : (hengOf s n).req = some r) (huse : (hengOf s n).use = .coding) (sound : Bool) :
    sameHankEngines (if sound && !flag s Fld.HNK_CTRL_FORCE_MISMATCH then hankFree n s
      else modHeng n (fun e => { e with faulted := true }) (hankFree n s)) (hankCodeEff n sound s) := by
  unfold hankCodeEff
  extract_lets +onlyGivenNames e
  rw [show e.req = some r from hreq]
  dsimp -zeta only
  rw [if_neg (not_not_intro (show e.use = .coding from huse))]
  extract_lets +onlyGivenNames good s₁
  have h₁ : sameHankEngines (hankFree n s) s₁ := .refl _
  by_cases hgood : good = true
  · rw [if_pos hgood, if_pos hgood]
    split
    · exact h₁
    · exact .formAll (.media (.onlyIf h₁.bump (·.bump)))
  · rw [if_neg hgood, if_neg hgood]
    exact .hankFault (.onlyIf h₁.bump.evt (·.putHankQueue)) n

theorem completes_hankCodeComplete_sound (hn : n < 6) (hlen : s.media.hank.engines.length = 6)
    (hreq : (hengOf s n).req = some r) (huse : (hengOf s n).use = .coding)
    (hforce : flag s Fld.HNK_CTRL_FORCE_MISMATCH = false) (hrestore : bit (getF s Fld.HNK_CTRL_RESTORE) n = false) :
    completes (.hankCodeComplete n true) s (fun t => (hengOf t n).req = none ∧ (hengOf t n).use = .idle) := by
  have hn' : n < s.media.hank.engines.length := hlen.symm ▸ hn
  refine completes_of_done (congrArg (done s) (if_pos hn)) ?_
  have hgood : (true && !flag s Fld.HNK_CTRL_FORCE_MISMATCH) = true := by simp [hforce]
  rw [hengOf_finish, (sameHankEngines_hankCodeEff hreq huse true).hengOf, if_pos hgood]
  exact ⟨req_hankFree hn', use_hankFree hn' hrestore⟩

theorem completes_hankCodeComplete_unsound {sound : Bool} (hn : n < 6) (hlen : s.media.hank.engines.length = 6)
    (hreq : (hengOf s n).req = some r) (huse : (hengOf s n).use = .coding)
    (hbad : sound = false ∨ flag s Fld.HNK_CTRL_FORCE_MISMATCH = true) :
    completes (.hankCodeComplete n sound) s (fun t => (hengOf t n).faulted = true ∧ (hengOf t n).req = none) := by
  have hn' : n < s.media.hank.engines.length := hlen.symm ▸ hn
  have hfreed : n < (hankFree n s).media.hank.engines.length := (length_modHeng _ _ _).symm ▸ hn'
  refine completes_of_done (congrArg (done s) (if_pos hn)) ?_
  have hgood : ¬ (sound && !flag s Fld.HNK_CTRL_FORCE_MISMATCH) = true := by rcases hbad with hbad | hbad <;> simp [hbad]
  rw [hengOf_finish, (sameHankEngines_hankCodeEff hreq huse sound).hengOf, if_neg hgood, hengOf_modHeng_same hfreed]
  exact ⟨rfl, req_hankFree hn'⟩

/-! ### The end of a decompression (R240, R242) -/

/-- A first attempt that is sound counts, and gives its read the blocks that the hank holds of it. -/
theorem hankDecompressEff_sound {out : List Byte} {c : Cmd} (hreq : (hengOf s n).req = some r)
    (huse : (hengOf s n).use = .decompressing) (hfirst : r.failedOn = none) (hout : decodeHank r.stream = some out)
    (hcmd : cmdOf s r.tag = some c) :
    ∃ takes : Cmd → Cmd, hankDecompressEff n true s = modCmd r.tag takes (bump Reg.HNK_CNT 2 (hankFree n s)) ∧
      (takes c).got = (blocksOfHank s c r.lba).foldl
        (fun g i => Tbl.put [] i (slice out (4096 * (c.cmd.lba + i - r.lba)) 4096) g) c.got := by
  have hcmd' : cmdOf (bump Reg.HNK_CNT 2 (hankFree n s)) r.tag = some c := hcmd
  unfold hankDecompressEff
  simp only [hreq, huse, hfirst, hout, hcmd', ne_eq, not_true_eq_false, if_true, if_false]
  exact ⟨_, rfl, rfl⟩

theorem modCmd_regs (t : Nat) (f : Cmd → Cmd) (s : State) : (modCmd t f s).regs = s.regs := by
  unfold modCmd
  split
  · rfl
  · rfl

theorem completes_hankDecompressComplete_sound {out : List Byte} {c : Cmd} (hn : n < 6)
    (hlen : s.media.hank.engines.length = 6) (hreq : (hengOf s n).req = some r) (huse : (hengOf s n).use = .decompressing)
    (hfirst : r.failedOn = none) (hout : decodeHank r.stream = some out) (hcmd : cmdOf s r.tag = some c) :
    completes (.hankDecompressComplete n true) s (fun t => (hengOf t n).req = none ∧
      (getReg t (Reg.HNK_CNT + 8)).toNat = min 0xFFFFFFFF ((getReg s (Reg.HNK_CNT + 8)).toNat + 1) ∧
      ∃ c', cmdOf t r.tag = some c' ∧ c'.got = (blocksOfHank s c r.lba).foldl
        (fun g i => Tbl.put [] i (slice out (4096 * (c.cmd.lba + i - r.lba)) 4096) g) c.got) := by
  obtain ⟨takes, heff, hgot⟩ := hankDecompressEff_sound hreq huse hfirst hout hcmd
  refine completes_of_done (congrArg (done s) ((if_pos hn).trans heff)) ⟨?freed, ?counted, takes c, ?taken, hgot⟩
  case freed =>
    have hsame : sameHankEngines (hankFree n s) (modCmd r.tag takes (bump Reg.HNK_CNT 2 (hankFree n s))) :=
      .modCmd (.refl _)
    rw [hengOf_finish, hsame.hengOf, req_hankFree (hlen.symm ▸ hn)]
  case counted =>
    rw [getReg_finish, getReg_congr (modCmd_regs _ _ _)]
    exact getReg_bump_same Reg.HNK_CNT 2 (hankFree n s)
  case taken =>
    have hcmd' : cmdOf (bump Reg.HNK_CNT 2 (hankFree n s)) r.tag = some c := hcmd
    rw [cmdOf, finish_host]
    exact cmdOf_modCmd_same hcmd' takes

/-- A first attempt that fails is queued for another engine in service. -/
theorem hankDecompressEff_again {m : Nat} (hreq : (hengOf s n).req = some r) (huse : (hengOf s n).use = .decompressing)
    (hfirst : r.failedOn = none) (hm : m < 6) (hne : m ≠ n) (hserves : hankInService s m = true) :
    hankDecompressEff n false s = putHankQueue (s.media.hank.queue ++ [{ r with failedOn := some n }])
      (bump Reg.HNK_CNT 4 (hankFree n s)) := by
  have hserves' : hankInService (bump Reg.HNK_CNT 4 (hankFree n s)) m = true :=
    (hankInService_modHeng_ne hne.symm _ s).trans hserves
  have hother : (List.range 6).any (fun x => x ≠ n && hankInService (bump Reg.HNK_CNT 4 (hankFree n s)) x) = true :=
    List.any_eq_true.2 ⟨m, List.mem_range.2 hm, by simp [hne, hserves']⟩
  unfold hankDecompressEff
  simp only [hreq, huse, hfirst]
  exact if_pos hother

theorem completes_hankDecompressComplete_again {m : Nat} (hn : n < 6) (hlen : s.media.hank.engines.length = 6)
    (hreq : (hengOf s n).req = some r) (huse : (hengOf s n).use = .decompressing) (hfirst : r.failedOn = none) (hm : m < 6)
    (hne : m ≠ n) (hserves : hankInService s m = true) :
    completes (.hankDecompressComplete n false) s (fun t => (hengOf t n).req = none ∧
      t.media.hank.queue = s.media.hank.queue ++ [{ r with failedOn := some n }]) := by
  have heff := hankDecompressEff_again hreq huse hfirst hm hne hserves
  refine completes_of_done (congrArg (done s) ((if_pos hn).trans heff)) ?_
  rw [hengOf_finish, finish_media]
  exact ⟨req_hankFree (hlen.symm ▸ hn), rfl⟩

theorem sameHankEngines.hankFailed {u s : State} (h : sameHankEngines u s) {r first second} :
    sameHankEngines u (hankFailed r first second s) := by
  unfold Machine.hankFailed
  extract_lets s₁ s₂
  have h₂ : sameHankEngines u s₂ := h.bump.evt
  split
  · exact h₂.modCmd
  · exact h₂

theorem flag_hankFailed (r : HankReq) (first second : Nat) (s : State) :
    flag (hankFailed r first second s) Fld.HNK_EVT_HANK_CHECK_FAIL = true := by
  unfold hankFailed
  extract_lets s₁ s₂
  have h₂ : flag s₂ Fld.HNK_EVT_HANK_CHECK_FAIL = true := flag_evt_same (by decide) rfl (by decide) _ _ _
  split
  · exact (flag_congr (modCmd_regs _ _ _) _).trans h₂
  · exact h₂

theorem completes_hankDecompressComplete_failed {f : Nat} (hn : n < 6) (hlen : s.media.hank.engines.length = 6)
    (hreq : (hengOf s n).req = some r) (huse : (hengOf s n).use = .decompressing) (hsecond : r.failedOn = some f) :
    completes (.hankDecompressComplete n false) s (fun t => (hengOf t n).req = none ∧
      flag t Fld.HNK_EVT_HANK_CHECK_FAIL = true) := by
  have heff : hankDecompressEff n false s = hankFailed r f n (bump Reg.HNK_CNT 4 (hankFree n s)) := by
    unfold hankDecompressEff
    simp only [hreq, huse, hsecond]
    rfl
  have hsame : sameHankEngines (hankFree n s) (hankFailed r f n (bump Reg.HNK_CNT 4 (hankFree n s))) := .hankFailed (.refl _)
  refine completes_of_done (congrArg (done s) ((if_pos hn).trans heff)) ⟨?freed, (flag_finish _ _ _).trans (flag_hankFailed _ _ _ _)⟩
  case freed => rw [hengOf_finish, hsame.hengOf, req_hankFree (hlen.symm ▸ hn)]

/-! ### Restores (R242) -/

theorem completes_hankRestore {i : Image} (hn : n < 6) (hlen : s.media.hank.engines.length = 6)
    (hserved : sideServed s Reg.HNK_CTRL = true) (howner : isOwner s = true) (himg : s.img.running = some i)
    (hen : n < i.bind.hankEnabled) (hbist : (hengOf s n).bistFailed = false) (hidle : (hengOf s n).use = .idle) :
    completes (.hankRestore n) s (fun t => (hengOf t n).use = .restoring) := by
  have heff : hankRestoreEff n s = modHeng n (fun e => { e with use := .restoring })
      (setF Fld.HNK_CTRL_RESTORE (getF s Fld.HNK_CTRL_RESTORE ||| 2 ^ n) s) := by
    unfold hankRestoreEff
    rw [if_neg (by simp [himg, hn, hen, hbist])]
    exact if_pos hidle
  refine completes_servedAt rfl hn hserved ?_
  rw [atOwner, if_pos howner, heff, hengOf_finish, hengOf_modHeng_same (hlen.symm ▸ hn)]

/-- The engine of an ended restore is idle, and FAULTED unless the test passed. -/
def tested (pass : Bool) (e : HankEng) : HankEng := { e with use := .idle, faulted := !pass }

/-- The bit of HNK_CTRL.RESTORE clears itself when the test of engine n ends. -/
def restoreEnded (n : Nat) (s : State) : State :=
  setF Fld.HNK_CTRL_RESTORE (if bit (getF s Fld.HNK_CTRL_RESTORE) n then getF s Fld.HNK_CTRL_RESTORE - 2 ^ n
    else getF s Fld.HNK_CTRL_RESTORE) s

theorem hankRestoreDoneEff_pass (huse : (hengOf s n).use = .restoring) :
    hankRestoreDoneEff n true s = bump Reg.HNK_CNT 7 (modHeng n (tested true) (restoreEnded n s)) :=
  if_neg (not_not_intro huse)

theorem sameHankEngines_hankRestoreDoneEff (huse : (hengOf s n).use = .restoring) (pass : Bool) :
    sameHankEngines (modHeng n (tested pass) s) (hankRestoreDoneEff n pass s) := by
  unfold hankRestoreDoneEff
  rw [if_neg (not_not_intro huse)]
  extract_lets m s₁ was s₂ s₃ s₄
  have h₂ : sameHankEngines (modHeng n (tested pass) s) s₂ := .refl _
  exact .ite h₂.bump (.outOfService (.evt (.ite h₂ h₂.bump)))

theorem completes_hankRestoreDone (hn : n < 6) (hlen : s.media.hank.engines.length = 6)
    (huse : (hengOf s n).use = .restoring) (pass : Bool) :
    completes (.hankRestoreDone n pass) s (fun t => (hengOf t n).use = .idle ∧ (hengOf t n).faulted = !pass ∧
      (pass = true → (getReg t (Reg.HNK_CNT + 28)).toNat = min 0xFFFFFFFF ((getReg s (Reg.HNK_CNT + 28)).toNat + 1))) := by
  have htested : hengOf (hankRestoreDoneEff n pass s) n = tested pass (hengOf s n) :=
    ((sameHankEngines_hankRestoreDoneEff huse pass).hengOf n).trans (hengOf_modHeng_same (hlen.symm ▸ hn) _)
  refine completes_of_done (congrArg (done s) (if_pos hn)) ?_
  rw [hengOf_finish, htested]
  refine ⟨rfl, rfl, ?counted⟩
  case counted =>
    rintro rfl
    have hkept : getReg (modHeng n (tested true) (restoreEnded n s)) (Reg.HNK_CNT + 28) = getReg s (Reg.HNK_CNT + 28) :=
      getReg_setF_ne (by decide) _ _
    rw [getReg_finish, hankRestoreDoneEff_pass huse, ← hkept]
    exact getReg_bump_same Reg.HNK_CNT 7 _

/-- Settles O24: a request goes onto its engine and off it, whatever the forming of hanks and the ends of commands and reads do
meanwhile, since neither reaches the engines. -/
theorem hankEngines : Obligations.HankEngines := by
  unfold Obligations.HankEngines
  intro s n hn hlen
  refine ⟨?_, ?_, ?_, ?_, ?_, ?_, ?_, fun huse => ?_, fun huse => ?_⟩
  · exact fun _ hserves hidle hlimit hrestore hnext => completes_hankDispatch hn hlen hserves hidle hlimit hrestore hnext
  · exact fun _ hreq huse hforce hrestore => completes_hankCodeComplete_sound hn hlen hreq huse hforce hrestore
  · exact fun _ _ hreq huse hbad => completes_hankCodeComplete_unsound hn hlen hreq huse hbad
  · exact fun _ _ _ hreq huse hfirst hout hcmd => completes_hankDecompressComplete_sound hn hlen hreq huse hfirst hout hcmd
  · exact fun _ _ hreq huse hfirst hm hne hserves => completes_hankDecompressComplete_again hn hlen hreq huse hfirst hm hne hserves
  · exact fun _ _ hreq huse hsecond => completes_hankDecompressComplete_failed hn hlen hreq huse hsecond
  · exact fun _ hserved howner himg hen hbist hidle => completes_hankRestore hn hlen hserved howner himg hen hbist hidle
  · exact completes_mono (completes_hankRestoreDone hn hlen huse true) fun _ ⟨hidle, hfault, hcount⟩ => ⟨hidle, hfault, hcount rfl⟩
  · exact completes_mono (completes_hankRestoreDone hn hlen huse false) fun _ ⟨hidle, hfault, _⟩ => ⟨hidle, hfault⟩

end Sys2Proof.Proofs
end

section
/-! What the write path, a change of a unit and the loss of a carriage leave of the motion record (R219, R274, R503), and the
response of R274 to a carriage that has not acquired again in time. -/

namespace Sys2Proof.Proofs

open Sys2Proof Sys2Proof.Machine Sys2Proof.Safety

variable {s t : State}

/-! ### A change of a unit reaches the spindle's calibration alone of the motion record (R503) -/

/-- The motion record without the calibration that holds the spindle. -/
def motionApart (s : State) : MotionState := { s.mot with spn := { s.mot.spn with calib := none } }

theorem motionApart_of_calm (h : calm t = calm s) : motionApart t = motionApart s := congrArg (fun v => v.1.mot) h

theorem slots_of_calm (h : calm t = calm s) : t.mot.slots = s.mot.slots := by
  have hslots := congrArg MotionState.slots (motionApart_of_calm h)
  exact hslots

theorem cars_of_calm (h : calm t = calm s) : t.mot.cars = s.mot.cars := by
  have hcars := congrArg MotionState.cars (motionApart_of_calm h)
  exact hcars

theorem mot_of_still (h : still t = still s) : t.mot = s.mot := congrArg (fun v => v.1.mot) h

/-! ### Stopping the writing of a carriage leaves the motion record (R212, R219) -/

theorem endExhausted_mot (s : State) : (endExhausted s).mot = s.mot := by
  refine forEach_keeps State.mot _ (fun e s => ?_) _ _
  split
  · exact keeps_ite State.mot (mot_of_still (still_endCmd _ _ _ _)) rfl
  · rfl

theorem leaveQueues_mot (key : Nat) (s : State) : (leaveQueues key s).mot = s.mot :=
  forEach_keeps State.mot _ (fun _ _ => rfl) allCars s

theorem joinQueues_mot (key : Nat) (s : State) : (joinQueues key s).mot = s.mot :=
  forEach_keeps State.mot (joinQueue key) (fun _ _ => rfl) allCars s

theorem reform_mot (key : Nat) (counted : Bool) (s : State) : (reform key counted s).mot = s.mot := by
  unfold reform
  split
  · rfl
  · refine keeps_ite State.mot rfl ?_
    extract_lets tries s₁
    have hleft : s₁.mot = s.mot := leaveQueues_mot key s
    refine keeps_ite State.mot ?exhausted ?fresh
    case exhausted =>
      extract_lets
      rw [endExhausted_mot, evt_mot]
      exact hleft
    case fresh => exact (joinQueues_mot _ _).trans hleft

theorem abandonPass_mot (c : Nat) (s : State) : (abandonPass c s).mot = s.mot := by
  unfold abandonPass
  refine keeps_ite State.mot rfl ?_
  extract_lets wrote cut used s₁ s₂ s₃
  have h₁ : s₁.mot = s.mot := keeps_ite State.mot rfl rfl
  refine keeps_ite State.mot ?_ h₁
  rw [evt_mot, forEach_keeps State.mot _ (fun k s => reform_mot k false s)]
  exact h₁

theorem stopWriteNow_mot (c : Nat) (s : State) : (stopWriteNow c s).mot = s.mot := abandonPass_mot c (setGate c false s)

/-! ### Disabled loops and a dark carriage (R263, R274) -/

/-- What changes of slots keep, leaving the active states keeps. -/
theorem leaveActive_keeps {β : Type} {P : State → β} (hslot : ∀ k f s, P (modSlot k f s) = P s) (k : Nat) (st : SlotSt)
    (s : State) : P (leaveActive k st s) = P s :=
  (forEach_keeps P _ (fun _ _ => keeps_ite P (hslot _ _ _) rfl) _ _).trans (hslot _ _ _)

theorem disableSlot_keeps {β : Type} {P : State → β} (hslot : ∀ k f s, P (modSlot k f s) = P s) (k : Nat) (s : State) :
    P (disableSlot k s) = P s := keeps_ite P (leaveActive_keeps hslot k .disabled s) rfl

/-- What changes of slots, of DACs and of output levels keep, the darkening of a carriage keeps. -/
theorem carriageDark_keeps {β : Type} {P : State → β} (hslot : ∀ k f s, P (modSlot k f s) = P s)
    (hdac : ∀ i f s, P (modDac i f s) = P s) (hpins : ∀ p (s : State), P { s with pins := p } = P s) (c : Nat) (s : State) :
    P (carriageDark c s) = P s :=
  (hpins _ _).trans ((hpins _ _).trans ((forEach_keeps P _ (fun _ _ => hdac _ _ _) _ _).trans
    (forEach_keeps P disableSlot (disableSlot_keeps hslot) _ _)))

theorem carriageDark_unt (c : Nat) (s : State) : (carriageDark c s).unt = s.unt :=
  carriageDark_keeps (P := State.unt) (fun _ _ _ => rfl) (fun _ _ _ => rfl) (fun _ _ => rfl) c s

theorem carriageDark_cars (c : Nat) (s : State) : (carriageDark c s).mot.cars = s.mot.cars :=
  carriageDark_keeps (P := fun s => s.mot.cars) (fun _ _ _ => rfl) (fun _ _ _ => rfl) (fun _ _ => rfl) c s

theorem carriageDark_len (c : Nat) (s : State) : (carriageDark c s).pins.len.getD c false = false := getD_modAt_const false c _

theorem carriageDark_wgate (c : Nat) (s : State) : (carriageDark c s).pins.wgate.getD c false = false :=
  getD_modAt_const false c _

/-! ### A carriage that is made FAULTED (R274, R503) -/

/-- The calibrations that a change ends move no FAULTED unit. -/
theorem ust_calSweepOne_faulted {u : Nat} (hu : u < 0x40) (h : ust s u = .faulted) (r : CalRun) :
    ust (calSweepOne r s) u = .faulted := by
  have hrecord (x : CalRun) (st : Status) (o : Nat) (s : State) : ust (calRecord x st o s) u = ust s u := by
    simp only [ust, unitOf, tab_calRecord]
  have hfinish (q : UnitReq) (st : Status) (s : State) : ust (finishReq q st s) u = ust s u := by
    simp only [ust, unitOf_of_still (still_finishReq q st s)]
  have hended (b : Bool) : ust (calRecord r .unitNotReady 4 (setHold r.unit b s)) u = .faulted := by
    rw [hrecord, ust_setHold, h]
  unfold calSweepOne
  split
  · refine keeps_ite (ust · u) ?_ h
    rw [hfinish, hrecord, h]
  · refine keeps_ite (ust · u) h (keeps_ite (ust · u) ((hfinish _ _ _).trans (hended false)) ?_)
    split
    · next hdrains =>
      have hne : r.unit ≠ u := by
        rintro rfl
        simp [h] at hdrains
      refine (hfinish _ _ _).trans (keeps_ite (ust · u) (hended false) ?_)
      rw [ust, unitOf_changeUnit0_ne hu hne]
      exact hended false
    · exact h

theorem ust_calSweep_faulted {u : Nat} (hu : u < 0x40) (h : ust s u = .faulted) : ust (calSweep s) u = .faulted := by
  unfold calSweep
  generalize s.cal.running = runs
  induction runs generalizing s with
  | nil => exact h
  | cons r runs ih => exact ih (ust_calSweepOne_faulted hu h r)

/-- A unit that is made FAULTED is, whatever calibrations its change ends. -/
theorem ust_change_faulted {u : Nat} (hu : u < 0x40) (why : Reason) (s : State) : ust (change u .faulted why s) u = .faulted :=
  ust_calSweep_faulted hu (ust_changeUnit0_same hu .faulted why .internal 0 s)

theorem ust_carriageFault {c : Nat} (hc : c < 4) (why : Reason) (s : State) : ust (carriageFault c why s) (uCar c) = .faulted := by
  have hu : uCar c < 0x40 := by unfold uCar; omega
  rw [ust, unitOf, carriageFault, carriageDark_unt]
  exact ust_change_faulted hu why _

theorem carriageFault_cars (c : Nat) (why : Reason) (s : State) : (carriageFault c why s).mot.cars = s.mot.cars := by
  rw [carriageFault, carriageDark_cars, cars_of_calm (calm_change _ _ _ _), stopWriteNow_mot]

/-! ### The output levels at the end of a command (R218, R462) -/

theorem getD_false_of_forall {l : List Bool} (h : ∀ b ∈ l, b = false) (c : Nat) : l.getD c false = false := by
  by_cases hc : c < l.length
  · rw [List.getD_eq_getElem l false hc]
    exact h _ (List.getElem_mem hc)
  · exact List.getD_eq_default l false (Nat.le_of_not_lt hc)

/-- The end of a command lights no laser and opens no write gate. -/
theorem finish_lasers_off {c : Nat} (hlen : t.pins.len.getD c false = false) (hgate : t.pins.wgate.getD c false = false) :
    (finish s t).pins.len.getD c false = false ∧ (finish s t).pins.wgate.getD c false = false := by
  have hreleased : ∀ b ∈ ([false, false, false, false] : List Bool), b = false := by decide
  unfold finish outputStage
  split
  · exact ⟨getD_false_of_forall hreleased c, getD_false_of_forall hreleased c⟩
  · split
    · exact ⟨getD_false_of_forall hreleased c, getD_false_of_forall hreleased c⟩
    · exact ⟨hlen, hgate⟩

/-! ### CARRIAGE_REACQUIRE_TIMEOUT (R274) -/

/-- The loss of carriage c is forgotten. -/
def forgetLoss (c : Nat) (s : State) : State := modCar c (fun m => { m with lostAt := none }) s

theorem exec_reacquireTimeout {c : Nat} (hc : c < 4) (s : State) :
    exec (.carriageReacquireTimeout c) s = done s (reacquireTimeoutEff c s) := congrArg (done s) (if_pos hc)

theorem completes_reacquireTimeout_lost {c : Nat} (hc : c < 4) (hlen : s.mot.cars.length = 4)
    (hlost : (carOfS s c).lostAt.isSome = true) (hserves : (ust s (uCar c)).serves = false) :
    completes (.carriageReacquireTimeout c) s (fun t => ust t (uCar c) = .faulted ∧ (carOfS t c).lostAt = none ∧
      t.pins.len.getD c false = false ∧ t.pins.wgate.getD c false = false) := by
  have heff : reacquireTimeoutEff c s = carriageFault c .loop (forgetLoss c s) := if_pos (by simp [hlost, hserves])
  refine completes_of_done ((exec_reacquireTimeout hc s).trans (congrArg (done s) heff)) ⟨?faulted, ?forgotten,
    finish_lasers_off (carriageDark_len c _) (carriageDark_wgate c _)⟩
  case faulted =>
    rw [ust, unitOf, finish_unt]
    exact ust_carriageFault hc .loop _
  case forgotten =>
    rw [carOfS, finish_mot, carriageFault_cars]
    exact congrArg CarMotion.lostAt (carOfS_modCar_same (hlen ▸ hc) _)

theorem completes_reacquireTimeout_serves {c : Nat} (hc : c < 4) (hlen : s.mot.cars.length = 4)
    (hserves : (ust s (uCar c)).serves = true) :
    completes (.carriageReacquireTimeout c) s (fun t => carOfS t c = { carOfS s c with lostAt := none } ∧ t.unt = s.unt ∧
      t.regs = s.regs) := by
  have heff : reacquireTimeoutEff c s = forgetLoss c s := if_neg (by simp [hserves])
  refine completes_of_done ((exec_reacquireTimeout hc s).trans (congrArg (done s) heff)) ⟨?_, finish_unt _ _, finish_regs _ _⟩
  rw [carOfS, finish_mot]
  exact carOfS_modCar_same (hlen ▸ hc) _

/-- Settles O43: the carriage's change to FAULTED stands whatever calibrations it ends, and its darkening comes last. -/
theorem reacquireTimeoutFaults : Obligations.ReacquireTimeoutFaults := by
  unfold Obligations.ReacquireTimeoutFaults
  exact fun _ _ hc hlen => ⟨completes_reacquireTimeout_lost hc hlen, completes_reacquireTimeout_serves hc hlen⟩

end Sys2Proof.Proofs
end

section
/-! The slots of the loop engine: what becomes of a slot's state and of its waiting output, and the commands of LPE_CTRL (R259,
R261, R263, R267, R271, R273, R277, Table 08-6). -/

namespace Sys2Proof.Proofs

open Sys2Proof Sys2Proof.Machine Sys2Proof.Safety

variable {s t : State} {j k : Nat}

/-! ### A slot after a change of it or of another -/

theorem lslot_of_slots (h : t.mot.slots = s.mot.slots) (k : Nat) : lslot t k = lslot s k := congrArg (·.getD k {}) h

@[simp] theorem lslot_finish (s t : State) (k : Nat) : lslot (finish s t) k = lslot t k :=
  lslot_of_slots (congrArg MotionState.slots (finish_mot s t)) k

theorem lslot_modSlot_same (hk : k < s.mot.slots.length) (f : LoopSlot → LoopSlot) : lslot (modSlot k f s) k = f (lslot s k) :=
  getD_modAt_same f {} _ hk

theorem lslot_modSlot_ne (h : k ≠ j) (f : LoopSlot → LoopSlot) (s : State) : lslot (modSlot k f s) j = lslot s j :=
  getD_modAt_ne f {} _ h

/-- What a change keeps of every slot that it may be made to, it keeps of each slot of the state. -/
theorem lslot_modSlot_keeps {β : Type} {P : LoopSlot → β} {f : LoopSlot → LoopSlot} (j k : Nat) (s : State)
    (hf : ∀ x, P (f x) = P x := by intro x; rfl) : P (lslot (modSlot k f s) j) = P (lslot s j) := by
  have h : ((modAt k f s.mot.slots).map P).getD j (P {}) = (s.mot.slots.map P).getD j (P {}) :=
    congrArg (·.getD j (P {})) (map_modAt_keeps hf k s.mot.slots)
  rwa [List.getD_map, List.getD_map] at h

@[simp] theorem lpeEvt_mot (f : Fld) (k : Nat) (s : State) : (lpeEvt f k s).mot = s.mot := by
  have hquiet : quiet (lpeEvt f k s) = quiet s := quiet_evtAt f (0x80 * k) _ _ s
  have hmot := congrArg State.mot hquiet
  exact hmot

theorem lslot_lpeEvt (f : Fld) (j k : Nat) (s : State) : lslot (lpeEvt f k s) j = lslot s j :=
  lslot_of_slots (congrArg MotionState.slots (lpeEvt_mot f k s)) j

/-! ### The state of a slot (Table 08-6) -/

/-- The state of slot k. -/
def slotSt (k : Nat) (s : State) : SlotSt := (lslot s k).st

theorem slotSt_of_slots (h : t.mot.slots = s.mot.slots) (k : Nat) : slotSt k t = slotSt k s :=
  congrArg LoopSlot.st (lslot_of_slots h k)

theorem slotSt_modCar (k c : Nat) (f : CarMotion → CarMotion) (s : State) : slotSt k (modCar c f s) = slotSt k s := rfl

theorem slotSt_modDac (k i : Nat) (f : Dac → Dac) (s : State) : slotSt k (modDac i f s) = slotSt k s := rfl

theorem slotSt_modSpn (k : Nat) (f : SpnState → SpnState) (s : State) : slotSt k (modSpn f s) = slotSt k s := rfl

theorem slotSt_pins (k : Nat) (s : State) (p : PinState) : slotSt k { s with pins := p } = slotSt k s := rfl

theorem slotSt_change (k u : Nat) (tgt : UState) (why : Reason) (s : State) : slotSt k (change u tgt why s) = slotSt k s :=
  slotSt_of_slots (slots_of_calm (calm_change u tgt why s)) k

theorem slotSt_stopWriteNow (k c : Nat) (s : State) : slotSt k (stopWriteNow c s) = slotSt k s :=
  slotSt_of_slots (congrArg MotionState.slots (stopWriteNow_mot c s)) k

theorem slotSt_askEnable (k j : Nat) (on : Bool) (s : State) : slotSt k (askEnable j on s) = slotSt k s :=
  lslot_modSlot_keeps (P := LoopSlot.st) k j s

theorem slotSt_acquireCar (k c : Nat) (s : State) : slotSt k (acquireCar c s) = slotSt k s := by
  unfold acquireCar
  extract_lets s₁ s₂
  have h₁ : slotSt k s₁ = slotSt k s := keeps_ite (slotSt k) rfl rfl
  have h₂ : slotSt k s₂ = slotSt k s := keeps_ite (slotSt k) h₁ h₁
  refine (forEach_keeps (slotSt k) _ (fun kind s => ?_) _ _).trans h₂
  split
  · exact slotSt_askEnable k _ true s
  · rfl

theorem slotSt_followCheck (k c : Nat) (s : State) : slotSt k (followCheck c s) = slotSt k s :=
  keeps_ite (slotSt k) rfl (keeps_ite (slotSt k) rfl rfl)

/-- A carriage that loses its lock leaves every slot's state, whatever it asks of the slots. -/
theorem slotSt_carriageLost (k c : Nat) (s : State) : slotSt k (carriageLost c s) = slotSt k s := by
  unfold carriageLost
  extract_lets s₁ st s₂ s₃ s₄
  have h₁ : slotSt k s₁ = slotSt k s := slotSt_stopWriteNow k c s
  have h₂ : slotSt k s₂ = slotSt k s := (slotSt_change k _ _ _ s₁).trans h₁
  have hstrand (g : Nat) (s : State) :
      slotSt k (if UState.serves (ust s (uStrand g)) then change (uStrand g) .starting .loop s else s) = slotSt k s :=
    keeps_ite (slotSt k) (slotSt_change k _ _ _ s) rfl
  have h₃ : slotSt k s₃ = slotSt k s := keeps_ite (slotSt k) ((forEach_keeps (slotSt k) _ hstrand _ _).trans h₂) h₁
  have h₄ : slotSt k s₄ = slotSt k s := (slotSt_modCar k c _ s₃).trans h₃
  exact keeps_ite (slotSt k) ((slotSt_acquireCar k c s₄).trans h₄) h₄

/-! ### Slots that leave the active states (R263) -/

/-- What is left of a slot that leaves the active states for st. -/
def leftActive (st : SlotSt) (x : LoopSlot) : LoopSlot :=
  { x with st := st, next := none, late := false, lost := false, holding := false, holdLen := 0, enable := none }

/-- A child is disabled with its parent if it is active. -/
def dropChild (c : Nat) (s : State) : State := if slotActive s c then modSlot c (leftActive .disabled) s else s

theorem leaveActive_eq (k : Nat) (st : SlotSt) (s : State) :
    leaveActive k st s = forEach dropChild (childrenOf s k) (modSlot k (leftActive st) s) := rfl

theorem slotSt_dropChild (hk : slotStActive (slotSt k s) = false) (c : Nat) : slotSt k (dropChild c s) = slotSt k s := by
  unfold dropChild
  split
  · next hc =>
    have hne : c ≠ k := by
      rintro rfl
      exact absurd (hc.symm.trans hk) (by decide)
    exact congrArg LoopSlot.st (lslot_modSlot_ne hne _ s)
  · rfl

theorem slotSt_dropChildren (cs : List Nat) (hk : slotStActive (slotSt k s) = false) :
    slotSt k (forEach dropChild cs s) = slotSt k s := by
  induction cs generalizing s with
  | nil => rfl
  | cons c cs ih =>
    have hc := slotSt_dropChild hk c
    exact (ih (hc ▸ hk)).trans hc

theorem slotSt_leaveActive_same (hk : k < s.mot.slots.length) {st : SlotSt} (hst : slotStActive st = false) :
    slotSt k (leaveActive k st s) = st := by
  have hleft : slotSt k (modSlot k (leftActive st) s) = st := congrArg LoopSlot.st (lslot_modSlot_same hk _)
  rw [leaveActive_eq, slotSt_dropChildren _ (hleft.symm ▸ hst), hleft]

/-- A slot that is not active stays in its state while another leaves the active states. -/
theorem slotSt_leaveActive_ne (hne : j ≠ k) (hk : slotStActive (slotSt k s) = false) (st : SlotSt) :
    slotSt k (leaveActive j st s) = slotSt k s := by
  have hleft : slotSt k (modSlot j (leftActive st) s) = slotSt k s := congrArg LoopSlot.st (lslot_modSlot_ne hne _ s)
  rw [leaveActive_eq, slotSt_dropChildren _ (hleft.symm ▸ hk), hleft]

/-! ### A slot in FAULT stays there while loops are disabled -/

theorem slotSt_disableSlot_fault (h : slotSt k s = .fault) (j : Nat) : slotSt k (disableSlot j s) = .fault := by
  unfold disableSlot
  dsimp only
  split
  · next hlive =>
    have hne : j ≠ k := by
      rintro rfl
      rw [show (lslot s j).st = .fault from h] at hlive
      exact absurd hlive (by decide)
    exact (slotSt_leaveActive_ne hne (h.symm ▸ rfl) .disabled).trans h
  · exact h

theorem slotSt_disableSlots_fault (h : slotSt k s = .fault) (ks : List Nat) : slotSt k (disableSlots ks s) = .fault := by
  unfold disableSlots
  induction ks generalizing s with
  | nil => exact h
  | cons j ks ih => exact ih (slotSt_disableSlot_fault h j)

theorem slotSt_carriageDark_fault (h : slotSt k s = .fault) (c : Nat) : slotSt k (carriageDark c s) = .fault :=
  (slotSt_pins k _ _).trans ((slotSt_pins k _ _).trans ((forEach_keeps (slotSt k) _ (fun _ _ => slotSt_modDac k _ _ _) _ _).trans
    (slotSt_disableSlots_fault h (slotsOfCar s c))))

theorem slotSt_carriageFault_fault (h : slotSt k s = .fault) (c : Nat) (why : Reason) :
    slotSt k (carriageFault c why s) = .fault :=
  slotSt_carriageDark_fault ((slotSt_change k _ _ _ _).trans ((slotSt_stopWriteNow k c s).trans h)) c

theorem slotSt_rotorLossResponse_fault (h : slotSt k s = .fault) (why : Reason) :
    slotSt k (rotorLossResponse why s) = .fault := by
  unfold rotorLossResponse
  extract_lets s₁ s₂ s₃ s₄ s₅
  have h₁ : slotSt k s₁ = .fault := (slotSt_of_slots (congrArg MotionState.slots (evt_mot _ _ _ s)) k).trans h
  have h₂ : slotSt k s₂ = .fault := (slotSt_pins k _ _).trans ((slotSt_modSpn k _ _).trans (slotSt_disableSlots_fault h₁ _))
  have h₃ : slotSt k s₃ = .fault := (forEach_keeps (slotSt k) stopWriteNow (slotSt_stopWriteNow k) allCars s₂).trans h₂
  have h₅ : slotSt k s₅ = .fault := (slotSt_modSpn k _ s₄).trans ((slotSt_modSpn k _ s₃).trans h₃)
  unfold spnUnit
  dsimp only
  split
  · exact h₅
  · exact (slotSt_change k _ _ _ s₅).trans h₅

theorem slotSt_spindleLoopDown_fault (h : slotSt k s = .fault) : slotSt k (spindleLoopDown s) = .fault := by
  unfold spindleLoopDown
  dsimp only
  split
  · exact slotSt_rotorLossResponse_fault h .loop
  · exact h

/-! ### LOOP_LOST_LOCK and LOOP_FAULT (R271, R273, R274) -/

section
variable {l : LoopRec}

theorem loopLostEff_eq (hrec : recOf s k = some l) (hlost : (lslot s k).lost = true) (hact : slotActive s k = true)
    (hcar : l.carriage ≤ 3) : loopLostEff k s =
      followCheck l.carriage (carriageLost l.carriage (lpeEvt Fld.LPE_EVT_LOST_LOCK k (leaveActive k .lost s))) := by
  simp [loopLostEff, hlost, hact, hrec, hcar]

theorem completes_loopLostLock (hk : k < 32) (hlen : s.mot.slots.length = 32) (hrec : recOf s k = some l)
    (hlost : (lslot s k).lost = true) (hact : slotActive s k = true) (hcar : l.carriage ≤ 3) :
    completes (.loopLostLock k) s (fun t => (lslot t k).st = .lost) := by
  have heff : instOf 32 k (loopLostEff k) s = loopLostEff k s := if_pos hk
  refine completes_of_done (congrArg (done s) (heff.trans (loopLostEff_eq hrec hlost hact hcar))) ?_
  rw [lslot_finish, ← slotSt, slotSt_followCheck, slotSt_carriageLost, slotSt, lslot_lpeEvt]
  exact slotSt_leaveActive_same (hlen ▸ hk) rfl

theorem loopFaultEff_eq (hrec : recOf s k = some l) (hbad : 8 ≤ (lslot s k).ovrRun ∨ (lslot s k).faulty = true)
    (hact : slotActive s k = true) : loopFaultEff k s =
      if l.carriage ≤ 3 then
        followCheck l.carriage (carriageFault l.carriage .loop (lpeEvt Fld.LPE_EVT_FAULT k (leaveActive k .fault s)))
      else spindleLoopDown (lpeEvt Fld.LPE_EVT_FAULT k (leaveActive k .fault s)) := by
  have hfaults : (decide (8 ≤ (lslot s k).ovrRun) || (lslot s k).faulty) = true := by simpa using hbad
  simp [loopFaultEff, hfaults, hact, hrec]

theorem completes_loopFault (hk : k < 32) (hlen : s.mot.slots.length = 32) (hrec : recOf s k = some l)
    (hbad : 8 ≤ (lslot s k).ovrRun ∨ (lslot s k).faulty = true) (hact : slotActive s k = true) :
    completes (.loopFault k) s (fun t => (lslot t k).st = .fault) := by
  have heff : instOf 32 k (loopFaultEff k) s = loopFaultEff k s := if_pos hk
  have hleft : slotSt k (lpeEvt Fld.LPE_EVT_FAULT k (leaveActive k .fault s)) = .fault :=
    (congrArg LoopSlot.st (lslot_lpeEvt _ _ _ _)).trans (slotSt_leaveActive_same (hlen ▸ hk) rfl)
  refine completes_of_done (congrArg (done s) (heff.trans (loopFaultEff_eq hrec hbad hact))) ?_
  rw [lslot_finish]
  exact keeps_ite (slotSt k) ((slotSt_followCheck k _ _).trans (slotSt_carriageFault_fault hleft _ .loop))
    (slotSt_spindleLoopDown_fault hleft)

end

/-! ### Overruns (R259) -/

/-- A computation that overran: its output is discarded and counts in the run of overruns. -/
def overran (x : LoopSlot) : LoopSlot := { x with late := false, next := none, ovrRun := min 8 (x.ovrRun + 1) }

theorem overrunEff_eq (hlate : (lslot s k).late = true) :
    overrunEff k s = lpeEvt Fld.LPE_EVT_OVERRUN k (bump (lreg Reg.LPE_CNT k) 0 (modSlot k overran s)) := if_pos hlate

theorem completes_loopOverrun (hk : k < 32) (hlen : s.mot.slots.length = 32) (hlate : (lslot s k).late = true) :
    completes (.loopOverrun k) s (fun t => (lslot t k).late = false ∧ (lslot t k).next = none ∧
      (lslot t k).ovrRun = min 8 ((lslot s k).ovrRun + 1)) := by
  have heff : instOf 32 k (overrunEff k) s = overrunEff k s := if_pos hk
  refine completes_of_done (congrArg (done s) (heff.trans (overrunEff_eq hlate))) ?_
  have hslot : lslot (bump (lreg Reg.LPE_CNT k) 0 (modSlot k overran s)) k = overran (lslot s k) :=
    lslot_modSlot_same (hlen ▸ hk) _
  rw [lslot_finish, lslot_lpeEvt, hslot]
  exact ⟨rfl, rfl, rfl⟩

/-! ### The writes of outputs at phase 400 (R248) -/

/-- The output of slot j that is computed and not yet written. -/
def slotNext (j : Nat) (s : State) : Option (List Int) := (lslot s j).next

theorem slotNext_modSlot_keeps {f : LoopSlot → LoopSlot} (j k : Nat) (s : State)
    (hf : ∀ x, (f x).next = x.next := by intro x; rfl) : slotNext j (modSlot k f s) = slotNext j s :=
  lslot_modSlot_keeps (P := LoopSlot.next) j k s hf

theorem slotNext_modSlot_clear (j k : Nat) (s : State) :
    slotNext j (modSlot k (fun x => { x with next := none }) s) = if j = k then none else slotNext j s := by
  split
  · next h =>
    subst h
    by_cases hj : j < s.mot.slots.length
    · exact congrArg LoopSlot.next (lslot_modSlot_same hj _)
    · exact congrArg LoopSlot.next (List.getD_eq_default _ _ (by simpa [modSlot] using hj))
  · next h => exact congrArg LoopSlot.next (lslot_modSlot_ne (Ne.symm h) _ s)

/-- A destination written keeps the outputs that wait. -/
theorem slotNext_writeDest (j : Nat) (l : LoopRec) (o : Nat) (v : Int) (s : State) :
    slotNext j (writeDest l o v s) = slotNext j s := by
  unfold writeDest
  extract_lets code s₁ interp
  have h₁ : slotNext j s₁ = slotNext j s := slotNext_modSlot_keeps j l.slot s
  refine keeps_ite (slotNext j) h₁ (keeps_ite (slotNext j) h₁ (keeps_ite (slotNext j) ?parent
    (keeps_ite (slotNext j) h₁ (keeps_ite (slotNext j) h₁ h₁))))
  case parent =>
    split
    · exact h₁
    · exact h₁

/-- A parked slot writes 0 to its destinations, if it is disabled, and is parked no longer. -/
def parkWrite (l : LoopRec) (s : State) : State :=
  if (lslot s l.slot).park && (lslot s l.slot).st = .disabled then
    forEach (fun o s => if l.outDst.getD o 0 = 8 then s else writeDest l o 0 s) (List.range l.nOut)
      (modSlot l.slot (fun x => { x with park := false }) s)
  else modSlot l.slot (fun x => { x with park := false }) s

/-- Phase 400 of one slot whose output before it is next. -/
def outputStep (l : LoopRec) (next : Option (List Int)) (s : State) : State :=
  match next with
  | some outs => forEach (fun o s => writeDest l o (nth outs o) s) (List.range l.nOut)
      (modSlot l.slot (fun x => { x with next := none }) s)
  | none => s

theorem outputWriteEff_eq {i : Image} (hi : s.img.running = some i) :
    outputWriteEff s = forEach (fun l s => outputStep l (slotNext l.slot s) (parkWrite l s)) i.loops s := by
  unfold outputWriteEff
  rw [hi]
  rfl

theorem slotNext_parkWrite (j : Nat) (l : LoopRec) (s : State) : slotNext j (parkWrite l s) = slotNext j s := by
  have hparked : slotNext j (modSlot l.slot (fun x => { x with park := false }) s) = slotNext j s :=
    slotNext_modSlot_keeps j l.slot s
  exact keeps_ite (slotNext j)
    ((forEach_keeps (slotNext j) _ (fun o s => keeps_ite (slotNext j) rfl (slotNext_writeDest j l o 0 s)) _ _).trans hparked)
    hparked

/-- The slot's own output goes, and those of other slots still wait. -/
theorem slotNext_outputStep (j : Nat) (l : LoopRec) (s : State) :
    slotNext j (outputStep l (slotNext l.slot s) (parkWrite l s)) = if j = l.slot then none else slotNext j s := by
  cases hnext : slotNext l.slot s with
  | some outs =>
    exact (forEach_keeps (slotNext j) _ (fun o s => slotNext_writeDest j l o _ s) _ _).trans
      ((slotNext_modSlot_clear j l.slot _).trans (by rw [slotNext_parkWrite]))
  | none =>
    refine (slotNext_parkWrite j l s).trans ?_
    split
    · next h => exact h ▸ hnext
    · rfl

theorem slotNext_outputSteps (ls : List LoopRec) (h : slotNext j s = none ∨ ∃ l ∈ ls, l.slot = j) :
    slotNext j (forEach (fun l s => outputStep l (slotNext l.slot s) (parkWrite l s)) ls s) = none := by
  induction ls generalizing s with
  | nil =>
    refine h.resolve_right ?_
    rintro ⟨_, hl, _⟩
    exact List.not_mem_nil hl
  | cons l ls ih =>
    refine ih ?_
    rw [slotNext_outputStep]
    by_cases hj : j = l.slot
    · exact .inl (if_pos hj)
    · rw [if_neg hj]
      exact h.imp_right (by simpa [Ne.symm hj] using ·)

theorem completes_loopOutputWrite {i : Image} {l : LoopRec} (hi : s.img.running = some i) (hl : l ∈ i.loops) :
    completes .loopOutputWrite s (fun t => (lslot t l.slot).next = none) := by
  refine completes_of_done (congrArg (done s) (outputWriteEff_eq hi)) ?_
  rw [lslot_finish]
  exact slotNext_outputSteps i.loops (.inr ⟨l, hl, rfl⟩)

/-! ### The commands of LPE_CTRL (R261, R267, R273, R277) -/

section
variable {l : LoopRec} (hk : k < 32) (hlen : s.mot.slots.length = 32)
  (hserved : sideServed s (Reg.LPE_CTRL + 0x80 * k) = true)
include hk hserved

/-- A command that changes slot k alone. -/
theorem completes_slotCommand {i : Instr} {g : State → State} {f : LoopSlot → LoopSlot} (hlen : s.mot.slots.length = 32)
    (hexec : exec i s = done s (instOf 32 k (served (Reg.LPE_CTRL + 0x80 * k) g) s)) (hg : g s = modSlot k f s) :
    completes i s (fun t => lslot t k = f (lslot s k) ∧ regsKeptBut [] s t) := by
  refine completes_servedAt hexec hk hserved ?_
  rw [hg, lslot_finish]
  exact ⟨lslot_modSlot_same (hlen ▸ hk) f, regsKeptBut_of_regs _ (finish_regs _ _)⟩

include hlen

theorem completes_loopEnable (hrec : recOf s k = some l) :
    completes (.loopEnable k) s (fun t => (lslot t k).enable = some true ∧ regsKeptBut [] s t) :=
  completes_mono (completes_slotCommand hk hserved hlen (g := loopEnableEff k true) rfl (if_pos (by simp [hrec])))
    fun _ ⟨hslot, hregs⟩ => ⟨congrArg LoopSlot.enable hslot, hregs⟩

theorem completes_loopDisable (hrec : recOf s k = some l) :
    completes (.loopDisable k) s (fun t => (lslot t k).enable = some false ∧ regsKeptBut [] s t) :=
  completes_mono (completes_slotCommand hk hserved hlen (g := loopEnableEff k false) rfl (if_pos (by simp [hrec])))
    fun _ ⟨hslot, hregs⟩ => ⟨congrArg LoopSlot.enable hslot, hregs⟩

theorem completes_loopSwap :
    completes (.loopSwap k) s (fun t => (lslot t k).swap = true ∧ regsKeptBut [] s t) :=
  completes_mono (completes_slotCommand hk hserved hlen (g := loopSwapEff k) rfl rfl)
    fun _ ⟨hslot, hregs⟩ => ⟨congrArg LoopSlot.swap hslot, hregs⟩

theorem completes_loopPark :
    completes (.loopPark k) s (fun t => (lslot t k).park = decide ((lslot s k).st = .disabled) ∧ regsKeptBut [] s t) :=
  completes_mono (completes_slotCommand hk hserved hlen (g := loopParkEff k) rfl rfl)
    fun _ ⟨hslot, hregs⟩ => ⟨congrArg LoopSlot.park hslot, hregs⟩

/-- CLR_FAULT acts at the owner, on a slot in FAULT whose unit is out of operation. -/
theorem completes_loopClrFault (hrec : recOf s k = some l) (howner : isOwner s = true) (hfault : (lslot s k).st = .fault)
    (hunit : ust s (loopUnit l) = .service ∨ ust s (loopUnit l) = .offline) :
    completes (.loopClrFault k) s (fun t => (lslot t k).st = .disabled ∧ (lslot t k).ovrRun = 0) := by
  have heff : atOwner (loopClrFaultEff k) s = modSlot k (fun x => { x with st := .disabled, ovrRun := 0, faulty := false }) s := by
    simp [atOwner, howner, loopClrFaultEff, hrec, hfault, hunit]
  exact completes_mono (completes_slotCommand hk hserved hlen (g := atOwner (loopClrFaultEff k)) rfl heff)
    fun _ ⟨hslot, _⟩ => ⟨congrArg LoopSlot.st hslot, congrArg LoopSlot.ovrRun hslot⟩

omit hlen

theorem completes_loopFollow (hrec : recOf s k = some l) (hpriv : l.priv = true) (on : Bool) :
    completes (.loopFollow k on) s (fun t => flag t (Fld.LPE_CTRL_FOLLOW.at (0x80 * k)) = on ∧
      regsKeptBut [Reg.LPE_CTRL + 0x80 * k] s t ∧ onlyRegisters s t) := by
  have heff : loopFollowEff k on s = setFlag (Fld.LPE_CTRL_FOLLOW.at (0x80 * k)) on s := by simp [loopFollowEff, hrec, hpriv]
  refine completes_servedAt (f := loopFollowEff k on) rfl hk hserved ?_
  rw [heff, flag_finish]
  exact ⟨flag_setFlag_same _ on s rfl (show 4 < 32 by decide), regsKeptBut_finish_setReg _ _ s,
    onlyRegisters_finish_setReg _ _ s⟩

end

end Sys2Proof.Proofs
end

section
/-! The loop engine's coefficient banks, trace inputs and base period (R246, R261, R268, R276). -/

namespace Sys2Proof.Proofs

open Sys2Proof Sys2Proof.Machine Sys2Proof.Safety

variable {s : State} {k : Nat}

/-! ### LPE_COEF_DATA (R276, Table 08-7) -/

/-- An offset of the slots' windows that is no LPE_CTRL belongs to no command register of the blocks below them. -/
theorem writeOne_coefPort {off : Nat} (hlow : 0x60000 ≤ off) (hhigh : off < 0x61000)
    (hport : off % 0x80 = Reg.LPE_COEF_DATA % 0x80) (v : Word) (s : State) : writeOne off v s = coefWrite ((off - 0x60000) / 0x80) v s := by
  have hne {r : Nat} (hr : r < 0x60000) : ¬ off = r := by omega
  have hbeyond {base count : Nat} (hr : base + 4 * count ≤ 0x60000) :
      ¬ (decide (base ≤ off) && decide (off < base + 4 * count)) = true := by
    simp only [Bool.and_eq_true, decide_eq_true_eq]
    omega
  have hfn : ¬ (decide (0x21000 ≤ off) && decide (off < 0x22000)) = true := by
    simp only [Bool.and_eq_true, decide_eq_true_eq]
    omega
  have hstrand : ¬ (decide (0x50000 ≤ off) && decide (off < 0x54000) && decide (off % 0x200 = Reg.CHN_TEST % 0x200)) = true := by
    simp only [Bool.and_eq_true, decide_eq_true_eq]
    omega
  have hctrl : ¬ (decide (0x60000 ≤ off) && decide (off < 0x61000) && decide (off % 0x80 = 0)) = true := by
    have hoffset : Reg.LPE_COEF_DATA % 0x80 = 0x4C := by decide
    simp only [Bool.and_eq_true, decide_eq_true_eq]
    omega
  unfold writeOne
  dsimp only
  rw [if_neg (hne (by decide)), if_neg (hbeyond (by decide)), if_neg (hne (by decide)), if_neg hfn, if_neg (hne (by decide)),
    if_neg hstrand, if_neg (hne (by decide)), if_neg (hbeyond (by decide)), if_neg (hne (by decide)), if_neg hctrl]
  exact if_pos (by simp [hlow, hhigh, hport])

/-- Slot k's data port is no half of a 64-bit quantity. -/
theorem writeReg_coefData (hk : k < 32) (v : Word) (s : State) :
    writeReg (Reg.LPE_COEF_DATA + 0x80 * k) v s = coefWrite k v s := by
  have hlow : isLow (Reg.LPE_COEF_DATA + 0x80 * k) = false :=
    (by decide : ∀ k < 32, isLow (Reg.LPE_COEF_DATA + 0x80 * k) = false) k hk
  have hhigh : isHigh (Reg.LPE_COEF_DATA + 0x80 * k) = false :=
    (by decide : ∀ k < 32, isHigh (Reg.LPE_COEF_DATA + 0x80 * k) = false) k hk
  have hbase : Reg.LPE_COEF_DATA = 0x6004C := rfl
  have hslot : (Reg.LPE_COEF_DATA + 0x80 * k - 0x60000) / 0x80 = k := by omega
  rw [writeReg, hlow, hhigh]
  exact (writeOne_coefPort (by omega) (by omega) (by omega) v s).trans (congrArg (coefWrite · v s) hslot)

/-- A slot with w written to its shadow bank at i. -/
def coefPut (i : Nat) (w : Int) (x : LoopSlot) : LoopSlot :=
  let put (b : List Int) : List Int := modAt i (fun _ => w) (b ++ List.replicate (160 - b.length) 0)
  if x.bank then { x with bank0 := put x.bank0 } else { x with bank1 := put x.bank1 }

theorem shadowBank_coefPut (i : Nat) (w : Int) (x : LoopSlot) : shadowBank (coefPut i w x) =
    modAt i (fun _ => w) (shadowBank x ++ List.replicate (160 - (shadowBank x).length) 0) := by
  cases hbank : x.bank <;> simp [coefPut, shadowBank, hbank]

theorem nth_shadowBank_coefPut {i : Nat} {x : LoopSlot} (hi : i ≤ 159) (hlen : (shadowBank x).length = 160) (w : Int) :
    nth (shadowBank (coefPut i w x)) i = w := by
  rw [shadowBank_coefPut]
  exact getD_modAt_same (fun _ => w) 0 _ (by simp [hlen]; omega)

/-- IDX of slot k. -/
def coefIdx (k : Nat) (s : State) : Nat := getF s (Fld.LPE_COEF_IDX_IDX.at (0x80 * k))

theorem coefWrite_eq (hi : coefIdx k s ≤ 159) (v : Word) :
    coefWrite k v s = coefStep k (modSlot k (coefPut (coefIdx k s) (signed 32 v.toNat)) s) :=
  congrArg (coefStep k) (if_neg (Nat.not_lt.2 hi))

theorem coefStep_mot (k : Nat) (s : State) : (coefStep k s).mot = s.mot := keeps_ite State.mot rfl rfl

theorem coefIdx_coefStep (hinc : flag s (Fld.LPE_COEF_IDX_AUTO_INC.at (0x80 * k)) = true) (hi : coefIdx k s ≤ 159) :
    coefIdx k (coefStep k s) = coefIdx k s + 1 := by
  have hstep : coefStep k s = setF (Fld.LPE_COEF_IDX_IDX.at (0x80 * k)) ((coefIdx k s + 1) % 256) s := if_pos hinc
  have hread := getF_setF_same (Fld.LPE_COEF_IDX_IDX.at (0x80 * k)) ((coefIdx k s + 1) % 256) s
    (show 0 ≤ 7 by decide) (show 7 < 32 by decide)
  rw [hstep, coefIdx, hread]
  change (coefIdx k s + 1) % 256 % 256 = coefIdx k s + 1
  omega

theorem completes_coefDataWrite (hk : k < 32) (hlen : s.mot.slots.length = 32)
    (hserved : sideServed s (Reg.LPE_COEF_DATA + 0x80 * k) = true) (hi : coefIdx k s ≤ 159)
    (hbank : (shadowBank (lslot s k)).length = 160) (v : Word) :
    completes (.coefDataAccess k (some v)) s (fun t => nth (shadowBank (lslot t k)) (coefIdx k s) = signed 32 v.toNat ∧
      (flag s (Fld.LPE_COEF_IDX_AUTO_INC.at (0x80 * k)) = true → coefIdx k t = coefIdx k s + 1)) := by
  refine completes_servedAt (f := writeReg (Reg.LPE_COEF_DATA + 0x80 * k) v) rfl hk hserved ?_
  rw [writeReg_coefData hk, coefWrite_eq hi]
  refine ⟨?bank, fun hinc => ?idx⟩
  case bank =>
    rw [lslot_finish, lslot_of_slots (congrArg MotionState.slots (coefStep_mot k _)), lslot_modSlot_same (hlen ▸ hk)]
    exact nth_shadowBank_coefPut hi hbank _
  case idx =>
    rw [coefIdx, getF_finish]
    exact coefIdx_coefStep hinc hi

/-- What the answer of a port and the slots are seen by: the outputs and the motion record. -/
def portView (s : State) : List Output × MotionState := (s.out, s.mot)

theorem portView_setReg (off : Nat) (v : Word) (s : State) : portView (setReg off v s) = portView s := rfl

theorem portView_putHigh (off : Nat) (v : Option Word) (s : State) : portView (putHigh off v s) = portView s := rfl

theorem portView_carryCount (off : Nat) (s : State) : portView (carryCount off s) = portView s := rfl

theorem portView_camPtStep (s : State) : portView (camPtStep s) = portView s := keeps_ite portView rfl rfl

theorem portView_coefStep (k : Nat) (s : State) : portView (coefStep k s) = portView s := keeps_ite portView rfl rfl

/-- Reading a register leaves the outputs and the motion record. -/
theorem portView_readEffect (r : Nat) (s : State) : portView (readEffect r s) = portView s := by
  have hcarried : portView (if isCnt r then carryCount r s else s) = portView s :=
    keeps_ite portView (portView_carryCount r s) rfl
  unfold readEffect
  refine keeps_ite portView (portView_putHigh _ _ s) (keeps_ite portView (portView_putHigh _ _ s) (keeps_ite portView
    ((portView_setReg _ _ _).trans hcarried) (keeps_ite portView (portView_camPtStep s) (keeps_ite portView
    (portView_coefStep _ s) (keeps_ite portView rfl rfl)))))

theorem completes_coefDataRead (hk : k < 32) (hserved : sideServed s (Reg.LPE_COEF_DATA + 0x80 * k) = true) :
    completes (.coefDataAccess k none) s (fun t =>
      t.out = s.out ++ [.regData (Reg.LPE_COEF_DATA + 0x80 * k) (regValue s (Reg.LPE_COEF_DATA + 0x80 * k)).toNat] ∧
      lslot t k = lslot s k) := by
  obtain ⟨hout, hmot⟩ := Prod.mk.inj (portView_readEffect (Reg.LPE_COEF_DATA + 0x80 * k) s)
  refine completes_servedAt (f := fun s => emit (.regData (Reg.LPE_COEF_DATA + 0x80 * k)
    (regValue s (Reg.LPE_COEF_DATA + 0x80 * k)).toNat) (readEffect (Reg.LPE_COEF_DATA + 0x80 * k) s)) rfl hk hserved ⟨?_, ?_⟩
  · rw [finish_out, emit_out, hout]
  · rw [lslot_finish]
    exact lslot_of_slots (congrArg MotionState.slots hmot) k

/-! ### Trace inputs (R268) -/

theorem completes_traceInEdge {n cycles : Nat} (hn : n < 4) (hlen : s.mot.traces.length = 4) (hcycles : cycles ≤ 65536)
    (dirHigh : Bool) :
    completes (.traceInEdge n cycles dirHigh) s (fun t =>
      (s.mot.traces.getD n {}).steps + (if dirHigh then -1 else 1) = (t.mot.traces.getD n {}).steps ∧
      (t.mot.traces.getD n {}).interval = cycles ∧ regsKeptBut [] s t) := by
  refine completes_of_done (congrArg (done s) (if_pos hn)) ?_
  have htrace := getD_modAt_same (fun t : TraceIn =>
    { t with interval := if cycles ≤ 65536 then cycles else 0, steps := if dirHigh then t.steps - 1 else t.steps + 1 }) {}
    s.mot.traces (hlen ▸ hn)
  rw [finish_mot]
  refine ⟨?steps, (congrArg TraceIn.interval htrace).trans (if_pos hcycles), regsKeptBut_of_regs _ (finish_regs _ _)⟩
  case steps =>
    refine Eq.trans ?_ (congrArg TraceIn.steps htrace).symm
    cases dirHigh
    · rfl
    · exact (Int.sub_eq_add_neg).symm

/-- Trace input n with its interval and its quantity cleared. -/
def clearTrace (n : Nat) (s : State) : State :=
  { s with mot := { s.mot with traces := modAt n (fun t => { t with interval := 0, q := 0 }) s.mot.traces } }

theorem traceLostEff_mot (n : Nat) (s : State) : (traceLostEff n s).mot = (clearTrace n s).mot := by
  unfold traceLostEff
  dsimp only
  split
  · rfl
  · exact forEach_keeps State.mot _ (fun _ _ => keeps_ite State.mot (lpeEvt_mot _ _ _) rfl) _ _

theorem completes_traceLost {n : Nat} (hn : n < 4) (hlen : s.mot.traces.length = 4) :
    completes (.traceLost n) s (fun t => (t.mot.traces.getD n {}).interval = 0 ∧ (t.mot.traces.getD n {}).q = 0) := by
  refine completes_of_done (congrArg (done s) (if_pos hn)) ?_
  have htrace := getD_modAt_same (fun t : TraceIn => { t with interval := 0, q := 0 }) {} s.mot.traces (hlen ▸ hn)
  rw [finish_mot, traceLostEff_mot]
  exact ⟨congrArg TraceIn.interval htrace, congrArg TraceIn.q htrace⟩

/-! ### The count of base periods through phase 0 (R246, R261)

Each operation of phase 0 has one lemma: it leaves the count as it is. -/

/-- Whether base periods are counted, and the number of the present one. -/
def beat (s : State) : Bool × Nat := (s.mot.started, s.mot.period)

theorem beat_of_mot {t : State} (h : t.mot = s.mot) : beat t = beat s := congrArg (fun m => (m.started, m.period)) h

theorem beat_of_calm {t : State} (h : calm t = calm s) : beat t = beat s := by
  have hbeat := congrArg (fun m : MotionState => (m.started, m.period)) (motionApart_of_calm h)
  exact hbeat

theorem beat_modSlot (k : Nat) (f : LoopSlot → LoopSlot) (s : State) : beat (modSlot k f s) = beat s := rfl

theorem beat_modCar (c : Nat) (f : CarMotion → CarMotion) (s : State) : beat (modCar c f s) = beat s := rfl

theorem beat_modCam (n : Nat) (f : CamSt → CamSt) (s : State) : beat (modCam n f s) = beat s := rfl

theorem beat_lpeEvt (f : Fld) (k : Nat) (s : State) : beat (lpeEvt f k s) = beat s := beat_of_mot (lpeEvt_mot f k s)

theorem beat_camEvt (f : Fld) (n : Nat) (s : State) : beat (camEvt f n s) = beat s := beat_of_mot (evt_mot f _ _ s)

/-! #### Traces, jumps and cams -/

theorem beat_traceLatch (volts : List Int) (s : State) : beat (traceLatch volts s) = beat s := by
  unfold traceLatch
  split <;> rfl

theorem beat_jumpStep (c : Nat) (s : State) : beat (jumpStep c s) = beat s := by
  unfold jumpStep
  split
  · rfl
  · exact beat_modCar _ _ _

theorem beat_commitStep (s : State) : beat (commitStep s) = beat s := by
  unfold commitStep
  split
  · rfl
  · refine keeps_ite beat ?_ rfl
    dsimp only
    rw [beat_camEvt]
    rfl

theorem beat_camStep (r : CamRec) (s : State) : beat (camStep r s) = beat s := by
  unfold camStep
  extract_lets n x s₁ s₂ m s₃
  have h₁ : beat s₁ = beat s := by
    unfold s₁
    split
    · exact keeps_ite beat rfl rfl
    · rfl
    · rfl
  have h₂ : beat s₂ = beat s := keeps_ite beat h₁ h₁
  have h₃ : beat s₃ = beat s := (beat_modCam _ _ s₂).trans h₂
  exact keeps_ite beat h₂ (keeps_ite beat h₃ ((beat_camEvt _ _ s₃).trans h₃))

theorem beat_camPhase (s : State) : beat (camPhase s) = beat s := by
  have hcommitted : beat (commitStep (forEach jumpStep allCars s)) = beat s :=
    (beat_commitStep _).trans (forEach_keeps beat jumpStep beat_jumpStep allCars s)
  unfold camPhase
  dsimp only
  split
  · exact (forEach_keeps beat camStep beat_camStep _ _).trans hcommitted
  · exact hcommitted

/-! #### Holds, swaps, enables and set-points -/

theorem beat_holdStep (l : LoopRec) (s : State) : beat (holdStep l s) = beat s := by
  unfold holdStep
  refine keeps_ite beat rfl (keeps_ite beat (keeps_ite beat rfl ?_) rfl)
  rw [beat_lpeEvt]
  rfl

theorem beat_ageStep (k : Nat) (s : State) : beat (ageStep k s) = beat s := rfl

theorem beat_swapStep (k : Nat) (s : State) : beat (swapStep k s) = beat s := keeps_ite beat (beat_lpeEvt _ _ _) rfl

theorem beat_enableNow (l : LoopRec) (y0 : Int) (s : State) : beat (enableNow l y0 s) = beat s :=
  keeps_ite beat rfl (keeps_ite beat rfl (beat_lpeEvt _ _ _))

theorem beat_enableStep (l : LoopRec) (s : State) : beat (enableStep l s) = beat s := by
  unfold enableStep
  split
  · exact disableSlot_keeps beat_modSlot l.slot _
  · exact beat_enableNow l _ s
  · rfl

theorem beat_rampStep (l : LoopRec) (s : State) : beat (rampStep l s) = beat s := rfl

/-! #### The computation -/

theorem beat_offtrackStep (l : LoopRec) (e0 : Int) (s : State) : beat (offtrackStep l e0 s) = beat s := by
  unfold offtrackStep
  dsimp only
  split
  · refine keeps_ite beat (beat_of_mot ?_) rfl
    rw [abandonPass_mot, evt_mot]
    rfl
  · rfl

theorem beat_computeStep (l : LoopRec) (f : Finish) (mirrorBad : Bool) (s : State) :
    beat (computeStep l f mirrorBad s) = beat s := by
  unfold computeStep
  split
  · rfl
  · exact beat_lpeEvt _ _ s
  · extract_lets k x held y rs s₁ s₂ s₃ s₄ s₅
    have h₃ : beat s₃ = beat s := keeps_ite beat ((beat_lpeEvt _ _ s₂).trans rfl) rfl
    have h₄ : beat s₄ = beat s := h₃
    have h₅ : beat s₅ = beat s := keeps_ite beat h₄ h₄
    exact (beat_offtrackStep l _ s₅).trans h₅

theorem beat_dueStep (l : LoopRec) (f : Finish) (mirrorBad : Bool) (s : State) :
    beat (dueStep l f mirrorBad s) = beat s := by
  unfold dueStep
  extract_lets k s₁ s₂ s₃
  have h₂ : beat s₂ = beat s := keeps_ite beat rfl rfl
  have h₃ : beat s₃ = beat s := by
    unfold s₃
    rw [beat_rampStep, beat_enableStep, beat_swapStep, h₂]
  exact keeps_ite beat ((beat_computeStep l f mirrorBad s₃).trans h₃) h₃

theorem beat_coreRun (forced : Option Nat) (parity : List (Nat × Bool)) : ∀ (cyc : Nat) (full : Bool) (ls : List LoopRec)
    (s : State), beat (coreRun forced parity cyc full ls s) = beat s
  | _, _, [], _ => rfl
  | _, _, l :: ls, s => (beat_coreRun forced parity _ _ ls _).trans (beat_dueStep l _ _ s)

theorem beat_followCheck (c : Nat) (s : State) : beat (followCheck c s) = beat s :=
  keeps_ite beat rfl (keeps_ite beat rfl rfl)

/-! #### BASE_PERIOD -/

theorem beat_basePeriodEff (volts : List Int) (parity : List (Nat × Bool)) (hstage : 6 ≤ stage s) (hrun : halted s = false) :
    beat (basePeriodEff volts parity s) = (true, if s.mot.started then s.mot.period + 1 else 0) := by
  have hactive : ¬ (decide (stage s < 6) || halted s) = true := by simp [hrun, hstage]
  unfold basePeriodEff
  rw [if_neg hactive]
  extract_lets n m s₁ s₂ s₃ ls s₄ due slot forced s₅ s₆
  have h₄ : beat s₄ = (true, n) := by
    unfold s₄ s₃ s₂
    rw [forEach_keeps beat _ (fun l s => (beat_ageStep _ _).trans (beat_holdStep l s)), beat_camPhase, beat_traceLatch]
    rfl
  have h₅ : beat s₅ = (true, n) := keeps_ite beat h₄ h₄
  have h₆ : beat s₆ = (true, n) :=
    (forEach_keeps beat _ (fun core s => beat_coreRun forced parity 0 false (due core s) s) _ _).trans h₅
  have hchecked (c : Nat) (s : State) : beat (carReadyCheck c (followCheck c s)) = beat s :=
    (beat_of_calm (calm_carReadyCheck c _)).trans (beat_followCheck c s)
  exact (forEach_keeps beat _ hchecked _ _).trans h₆

theorem completes_basePeriod (volts : List Int) (parity : List (Nat × Bool)) (hstage : 6 ≤ stage s) (hrun : halted s = false) :
    completes (.basePeriod volts parity) s (fun t => t.mot.started = true ∧
      t.mot.period = if s.mot.started then s.mot.period + 1 else 0) := by
  refine completes_of_done rfl ?_
  rw [finish_mot]
  exact Prod.mk.inj (beat_basePeriodEff volts parity hstage hrun)

/-- Settles O26: a slot's state outlasts what the loss of its loop sets going, its output goes with its own write alone, and
nothing at phase 0 touches the count of base periods. -/
theorem loopSlotCommands : Obligations.LoopSlotCommands := by
  unfold Obligations.LoopSlotCommands
  intro s k hk hlen
  refine ⟨completes_loopOverrun hk hlen, fun i l hi hl _ => completes_loopOutputWrite hi hl,
    fun l hrec hlost hact hcar => completes_loopLostLock hk hlen hrec hlost hact hcar,
    fun l hrec hbad hact => completes_loopFault hk hlen hrec hbad hact, fun l hrec hserved => ?commands, fun hserved => ?marks,
    fun v hserved hi hbank => completes_coefDataWrite hk hlen hserved hi hbank v, completes_coefDataRead hk,
    fun n cycles dirHigh hn htraces hcycles => completes_traceInEdge hn htraces hcycles dirHigh,
    fun n hn htraces => completes_traceLost hn htraces, completes_basePeriod⟩
  case commands =>
    exact ⟨completes_loopEnable hk hlen hserved hrec, completes_loopDisable hk hlen hserved hrec,
      fun on hpriv => completes_loopFollow hk hserved hrec hpriv on,
      fun howner hfault hunit => completes_loopClrFault hk hlen hserved hrec howner hfault hunit⟩
  case marks => exact ⟨completes_loopSwap hk hlen hserved, completes_loopPark hk hlen hserved⟩

end Sys2Proof.Proofs
end

section
/-! What reaches the spindle drive's record (chapter 09): the operations that leave it as it is, the drive phases of Table 09-3 as
they are entered, and phase U's current through a PWM centre (R284, R286 to R290, R294, R298, R299, R302, R303). -/

namespace Sys2Proof.Proofs

open Sys2Proof Sys2Proof.Machine Sys2Proof.Safety

variable {s t : State}

/-! ### Operations that leave the drive's record -/

theorem spn_of_mot (h : t.mot = s.mot) : spn t = spn s := congrArg MotionState.spn h

@[simp] theorem spn_finish (s t : State) : spn (finish s t) = spn t := spn_of_mot (finish_mot s t)

@[simp] theorem spn_modSpn (f : SpnState → SpnState) (s : State) : spn (modSpn f s) = f (spn s) := rfl

@[simp] theorem spn_setReg (off : Nat) (v : Word) (s : State) : spn (setReg off v s) = spn s := rfl

@[simp] theorem spn_bump (off i : Nat) (s : State) : spn (bump off i s) = spn s := rfl

@[simp] theorem spn_spnEvt (f : Fld) (s : State) : spn (spnEvt f s) = spn s := spn_of_mot (evt_mot f _ _ s)

@[simp] theorem spn_disableSlot (k : Nat) (s : State) : spn (disableSlot k s) = spn s :=
  disableSlot_keeps (fun _ _ _ => rfl) k s

@[simp] theorem spn_disableSpindleLoops (s : State) : spn (disableSpindleLoops s) = spn s :=
  forEach_keeps spn disableSlot spn_disableSlot _ s

@[simp] theorem spn_stopAllNow (s : State) : spn (stopAllNow s) = spn s :=
  spn_of_mot (forEach_keeps State.mot stopWriteNow stopWriteNow_mot allCars s)

@[simp] theorem spn_currentTarget (v : Int) (s : State) : spn (currentTarget v s) = spn s := by
  unfold currentTarget
  split
  · rfl
  · rfl

@[simp] theorem spn_enableCurrent (s : State) : spn (enableCurrent s) = spn s := by
  unfold enableCurrent
  split
  · rfl
  · rfl

@[simp] theorem spn_enableSpeed (s : State) : spn (enableSpeed s) = spn s := by
  unfold enableSpeed
  split
  · rfl
  · rfl

/-- The drive's record without the calibration that holds its speed, which the end of one clears. -/
def driveApart (s : State) : SpnState := { spn s with calib := none }

theorem driveApart_of_calm (h : calm t = calm s) : driveApart t = driveApart s :=
  congrArg MotionState.spn (motionApart_of_calm h)

/-- The drive's change of its unit leaves the drive (R292). -/
theorem driveApart_spnUnit (tgt : UState) (why : Reason) (s : State) : driveApart (spnUnit tgt why s) = driveApart s :=
  keeps_ite driveApart rfl (driveApart_of_calm (calm_change uSpindle tgt why s))

@[simp] theorem phase_spnUnit (tgt : UState) (why : Reason) (s : State) : (spn (spnUnit tgt why s)).phase = (spn s).phase := by
  have hphase := congrArg SpnState.phase (driveApart_spnUnit tgt why s)
  exact hphase

@[simp] theorem gates_spnUnit (tgt : UState) (why : Reason) (s : State) : (spn (spnUnit tgt why s)).gates = (spn s).gates := by
  have hgates := congrArg SpnState.gates (driveApart_spnUnit tgt why s)
  exact hgates

@[simp] theorem iU_spnUnit (tgt : UState) (why : Reason) (s : State) : (spn (spnUnit tgt why s)).iU = (spn s).iU := by
  have hcurrent := congrArg SpnState.iU (driveApart_spnUnit tgt why s)
  exact hcurrent

/-! ### The phases of Table 09-3 as they are entered -/

@[simp] theorem spn_setGates (on : Bool) (s : State) : spn (setGates on s) =
    { spn s with gates := on, gatesDue := false, valid := on, injOn := on && (spn s).injOn } := rfl

@[simp] theorem spn_setPhase (ph : SpnPhase) (s : State) : spn (setPhase ph s) =
    { spn s with phase := ph, enteredAt := s.pwr.time, signRun := 0 } := rfl

theorem phase_spnFault (why : Reason) (s : State) : (spn (spnFault why s)).phase = .fault := phase_spnUnit _ _ _

theorem phase_startBraking (s : State) : (spn (startBraking s)).phase = (spn s).phase := by simp [startBraking]

theorem phase_enterBrake (s : State) : (spn (enterBrake s)).phase = .brake := phase_startBraking (setPhase .brake s)

theorem phase_enterAlign (s : State) : (spn (enterAlign s)).phase = .align := rfl

theorem gatesDue_enterAlign (s : State) : (spn (enterAlign s)).gatesDue = true := rfl

theorem phase_enterCoast (s : State) : (spn (enterCoast s)).phase = .coastSense := rfl

theorem phase_enterRun (s : State) : (spn (enterRun s)).phase = .run := congrArg SpnState.phase (spn_enableSpeed _)

theorem phase_enterRunup (fromCatch : Bool) (s : State) : (spn (enterRunup fromCatch s)).phase = .runup := by
  unfold enterRunup
  extract_lets s₁ s₂ s₃
  have h₂ : (spn s₂).phase = .runup :=
    keeps_ite (fun s => (spn s).phase) rfl (congrArg SpnState.phase (spn_enableCurrent (setV 0 0 s₁)))
  exact (congrArg SpnState.phase (spn_currentTarget _ s₃)).trans h₂

theorem phase_spnStopped (s : State) : (spn (spnStopped s)).phase = .stopped := rfl

theorem gates_spnStopped (s : State) : (spn (spnStopped s)).gates = false :=
  congrArg SpnState.gates (spn_disableSpindleLoops (setGates false s))

theorem phase_rotorLossResponse (why : Reason) (s : State) : (spn (rotorLossResponse why s)).phase = .recatch := by
  simp [rotorLossResponse]

theorem gates_rotorLossResponse (why : Reason) (s : State) : (spn (rotorLossResponse why s)).gates = false := by
  simp [rotorLossResponse]

/-! ### Phase U's current, once a PWM centre has sampled it -/

/-- Phase U's current. -/
def currentU (s : State) : Int := (spn s).iU

theorem currentU_modSpn {f : SpnState → SpnState} (s : State) (hf : ∀ p, (f p).iU = p.iU := by intro p; rfl) :
    currentU (modSpn f s) = currentU s := hf (spn s)

theorem currentU_spnFault (why : Reason) (s : State) : currentU (spnFault why s) = currentU s := by
  simp [currentU, spnFault]

theorem currentU_rotorLossResponse (why : Reason) (s : State) : currentU (rotorLossResponse why s) = currentU s := by
  simp [currentU, rotorLossResponse]

theorem currentU_overcurrent (s : State) : currentU (overcurrent s) = currentU s := by
  unfold overcurrent
  extract_lets p lim ts s₁ s₂ s₃
  have h₃ : currentU s₃ = currentU s := by simp [currentU, s₃, s₂, s₁]
  exact keeps_ite currentU rfl (keeps_ite currentU (currentU_spnFault _ s) (keeps_ite currentU
    (keeps_ite currentU ((currentU_spnFault _ s₃).trans h₃) ((currentU_rotorLossResponse _ s₃).trans h₃)) rfl))

theorem currentU_countRevs (d : Int) (s : State) : currentU (countRevs d s) = currentU s := by
  unfold countRevs
  exact keeps_ite currentU (keeps_ite currentU rfl rfl) rfl

theorem currentU_blendStep (s : State) : currentU (blendStep s) = currentU s := by
  unfold blendStep
  extract_lets p w th om n d s₁ s₂
  have h₂ : currentU s₂ = currentU s := currentU_countRevs d s₁
  exact keeps_ite currentU h₂ (keeps_ite currentU h₂ h₂)

theorem currentU_regenEnd (s : State) : currentU (regenEnd s) = currentU s :=
  keeps_ite currentU (by simp [currentU, startBraking]) rfl

/-- What follows the sampling of the currents in a PWM centre keeps phase U's. -/
theorem currentU_pwmCentreEff (cu cv cw : Nat) (hstage : 6 ≤ stage s) (hrun : halted s = false) :
    currentU (pwmCentreEff cu cv cw s) =
      shuntCurrent s cu - roundDiv (shuntCurrent s cu + shuntCurrent s cv + shuntCurrent s cw) 3 := by
  have hactive : ¬ (decide (stage s < 6) || halted s) = true := by simp [hrun, hstage]
  unfold pwmCentreEff
  rw [if_neg hactive]
  extract_lets u v w mean iu iv iw ia ib tc s₁ s₂ braking s₃ s₄ s₅ s₆
  have h₁ : currentU s₁ = iu := rfl
  have h₂ : currentU s₂ = iu := keeps_ite currentU ((currentU_modSpn s₁).trans h₁) h₁
  have h₃ : currentU s₃ = iu := keeps_ite currentU ((currentU_modSpn s₂).trans h₂) h₂
  have h₄ : currentU s₄ = iu := (currentU_modSpn s₃).trans h₃
  have h₅ : currentU s₅ = iu := keeps_ite currentU ((currentU_modSpn s₄).trans h₄) h₄
  have h₆ : currentU s₆ = iu := keeps_ite currentU
    ((currentU_regenEnd _).trans ((currentU_modSpn _).trans ((currentU_blendStep s₅).trans h₅))) h₃
  exact (currentU_overcurrent s₆).trans h₆

end Sys2Proof.Proofs
end

section
/-! The phases of the spindle drive (Table 09-3) and the commands that reach it (R283, R284, R291 to R296, R298 to R300, R303,
R305). -/

namespace Sys2Proof.Proofs

open Sys2Proof Sys2Proof.Machine Sys2Proof.Safety

variable {s t : State}

/-- A command whose effect leaves the drive in a phase. -/
theorem completes_phase {i : Instr} {ph : SpnPhase} (hexec : exec i s = done s t) (hphase : (spn t).phase = ph) :
    completes i s (fun t => (spn t).phase = ph) :=
  completes_of_done hexec ((congrArg SpnState.phase (spn_finish s t)).trans hphase)

/-! ### PWM tops and centres, and comparator edges (R283 to R285, R293) -/

/-- The duties of a period of braking: every low side on (R294). -/
def brakeDuties (p : SpnState) : SpnState :=
  { p with brakeOff := false, vlimit := false, cmp := [1250, 1250, 1250], vA := 0, vB := 0 }

theorem pwmTopEff_braking {pinMv : Nat} (hstage : 6 ≤ stage s) (hrun : halted s = false) (hdue : (spn s).gatesDue = true)
    (howner : isOwner s = true) (hphase : (spn s).phase = .brake) :
    pwmTopEff pinMv s = modSpn brakeDuties (setGates true s) := by
  have hactive : ¬ (decide (stage s < 6) || halted s) = true := by simp [hrun, hstage]
  have hdriven : (if (spn s).gatesDue && isOwner s then setGates true s else s) = setGates true s := if_pos (by simp [hdue, howner])
  unfold pwmTopEff
  rw [if_neg hactive, hdriven]
  exact (if_neg (by simp)).trans (if_pos (by simp [hphase]))

theorem completes_pwmTop {pinMv : Nat} (hstage : 6 ≤ stage s) (hrun : halted s = false) (hdue : (spn s).gatesDue = true)
    (howner : isOwner s = true) (hphase : (spn s).phase = .brake) :
    completes (.pwmTop pinMv) s (fun t => (spn t).gates = true ∧ (spn t).cmp = [1250, 1250, 1250]) := by
  refine completes_of_done (congrArg (done s) (pwmTopEff_braking hstage hrun hdue howner hphase)) ?_
  rw [spn_finish]
  exact ⟨rfl, rfl⟩

theorem completes_pwmCentre (cu cv cw : Nat) (hstage : 6 ≤ stage s) (hrun : halted s = false) :
    completes (.pwmCentre cu cv cw) s (fun t =>
      (spn t).iU = shuntCurrent s cu - roundDiv (shuntCurrent s cu + shuntCurrent s cv + shuntCurrent s cw) 3) := by
  refine completes_of_done rfl ?_
  rw [spn_finish]
  exact currentU_pwmCentreEff cu cv cw hstage hrun

theorem completes_comparatorEdge {ph : Nat} (hph : ph < 3) (rising : Bool) (hphase : (spn s).phase = .coastSense) :
    completes (.spnComparatorEdge ph rising) s (fun t => (spn t).edges = (spn s).edges ++ [(ph, rising, s.pwr.time)]) := by
  refine completes_of_done (t := edgeEff ph rising s) rfl ?_
  rw [spn_finish, edgeEff, hphase, Nat.mod_eq_of_lt hph]
  rfl

/-! ### SPN_CTRL: START, STOP and CLR_FAULT (R291, R303) -/

section
variable (hserved : sideServed s Reg.SPN_CTRL = true) (howner : isOwner s = true)
include hserved howner

/-- START and STOP submit a request of the firmware for the spindle. -/
theorem completes_spindleRequest {i : Instr} {code : Nat}
    (hexec : exec i s = done s (servedOwner Reg.SPN_CTRL (policyReq uSpindle code) s)) :
    completes i s (fun t => ∃ r, t.unt.waiting = s.unt.waiting ++ [r] ∧ r.kind = .request ∧ r.unit = uSpindle ∧ r.code = code) := by
  have hact : atOwner (policyReq uSpindle code) s = policyReq uSpindle code s := if_pos howner
  refine completes_served (f := atOwner (policyReq uSpindle code)) hexec hserved ?_
  rw [hact, finish_unt]
  exact ⟨_, rfl, rfl, rfl, rfl⟩

theorem completes_spnClrFault (hphase : (spn s).phase = .fault)
    (hunit : ust s uSpindle = .offline ∨ ust s uSpindle = .service) (htrip : (spn s).fromTrip = false) :
    completes .spnClrFault s (fun t => (spn t).phase = .stopped ∧ (spn t).retries = 0) := by
  have heff : atOwner spnClrFaultEff s = setPhase .stopped (modSpn (fun p => { p with retries := 0 }) s) :=
    (if_pos howner).trans (if_pos (by simp [hphase, hunit, htrip]))
  refine completes_served (f := atOwner spnClrFaultEff) rfl hserved ?_
  rw [heff, spn_finish]
  exact ⟨rfl, rfl⟩

end

/-! ### COAST_SENSE (R293, Table 09-4) -/

section
variable (hphase : (spn s).phase = .coastSense)
include hphase

theorem completes_coastSense_few (hfew : (spn s).edges.length < 3) :
    completes .coastSenseDone s (fun t => (spn t).phase = .align ∧ (spn t).gatesDue = true) := by
  have heff : coastDoneEff s = enterAlign s := (if_neg (by simp [hphase])).trans (if_pos (by simp [hfew]))
  refine completes_of_done (congrArg (done s) heff) ?_
  rw [spn_finish]
  exact ⟨phase_enterAlign s, gatesDue_enterAlign s⟩

variable (hmany : 3 ≤ (spn s).edges.length)
include hmany

theorem completes_coastSense_backward (hback : inOrder false ((spn s).edges.take 3) = true) :
    completes .coastSenseDone s (fun t => (spn t).phase = .brake) := by
  have heff : coastDoneEff s = enterBrake s :=
    (if_neg (by simp [hphase])).trans ((if_neg (by simp [hmany, hback])).trans (if_pos hback))
  exact completes_phase (congrArg (done s) heff) (phase_enterBrake s)

theorem completes_coastSense_forward (hback : inOrder false ((spn s).edges.take 3) = false)
    (hforward : inOrder true ((spn s).edges.take 3) = true) (hfast : edgesReach s (spn s).edges 480 = true) :
    completes .coastSenseDone s (fun t => (spn t).phase = .catch_ ∧ (spn t).edges = []) := by
  have heff : coastDoneEff s = setPhase .catch_ (modSpn (fun p => { p with edges := [] }) s) :=
    (if_neg (by simp [hphase])).trans ((if_neg (by simp [hmany, hforward])).trans ((if_neg (by simp [hback])).trans
      (if_pos hfast)))
  refine completes_of_done (congrArg (done s) heff) ?_
  rw [spn_finish]
  exact ⟨rfl, rfl⟩

end

/-! ### CATCH, BRAKE and RECATCH (R294, R297, R300) -/

theorem phase_catchMade_recatch (hphase : (spn s).phase = .recatch) (hcatch : catchOk s = true) :
    (spn (catchMadeEff s)).phase = .run := by
  unfold catchMadeEff
  extract_lets p om th ke eA eB n s₁ s₂ s₃ s₄
  rw [if_neg (by simp [p, hphase, hcatch]), if_pos hphase]
  exact phase_enterRun s₃

/-- A catch from CATCH leads on by the speed against 0.98 × the target. -/
theorem phase_catchMade_catch (hphase : (spn s).phase = .catch_) (hcatch : catchOk s = true) :
    (spn (catchMadeEff s)).phase = .run ∨ (spn (catchMadeEff s)).phase = .runup := by
  unfold catchMadeEff
  extract_lets p om th ke eA eB n s₁ s₂ s₃ s₄
  rw [if_neg (by simp [p, hphase, hcatch]), if_neg (by simp [p, hphase])]
  split
  · exact .inl (phase_enterRun s₄)
  · exact .inr (phase_enterRunup true s₄)

theorem completes_catchMade_catch (hphase : (spn s).phase = .catch_) (hcatch : catchOk s = true) :
    completes .catchMade s (fun t => (spn t).phase = .run ∨ (spn t).phase = .runup) := by
  refine completes_of_done (t := catchMadeEff s) rfl ?_
  rw [spn_finish]
  exact phase_catchMade_catch hphase hcatch

theorem completes_catchMade_recatch (hphase : (spn s).phase = .recatch) (hcatch : catchOk s = true) :
    completes .catchMade s (fun t => (spn t).phase = .run) := completes_phase rfl (phase_catchMade_recatch hphase hcatch)

theorem completes_catchTimeout (hphase : (spn s).phase = .catch_) : completes .catchTimeout s (fun t => (spn t).phase = .brake) :=
  completes_phase (congrArg (done s) (if_pos hphase)) (phase_enterBrake s)

theorem completes_brakeDone (hphase : (spn s).phase = .brake) (hslow : belowSixty s = true) :
    completes .brakeDone s (fun t => (spn t).phase = .align) :=
  completes_phase (congrArg (done s) (if_pos (by simp [hphase, hslow]))) (phase_enterAlign s)

/-- A time limit of a phase that ends in FAULT with its event (Table 09-3). -/
theorem completes_phaseTimeout {i : Instr} {ph : SpnPhase} {f : Fld}
    (hexec : exec i s = done s (if (spn s).phase = ph then spnFault .drive (spnEvt f s) else s)) (hphase : (spn s).phase = ph) :
    completes i s (fun t => (spn t).phase = .fault) :=
  completes_phase (hexec.trans (congrArg (done s) (if_pos hphase))) (phase_spnFault .drive (spnEvt f s))

theorem completes_rotorLoss (hdue : (spn s).lossDue = true) (hphase : (spn s).phase = .run) :
    completes .rotorLoss s (fun t => (spn t).phase = .recatch ∧ (spn t).gates = false) := by
  have heff : rotorLossEff s = rotorLossResponse .drive s := if_pos (by simp [hdue, hphase])
  refine completes_of_done (congrArg (done s) heff) ?_
  rw [spn_finish]
  exact ⟨phase_rotorLossResponse .drive s, gates_rotorLossResponse .drive s⟩

/-! ### ALIGN, RUNUP and a locked rotor (R295, R296, R298) -/

/-- The tests of R295 pass: a saliency of INJ_MIN, and peaks that differ by 2 % of the greater one. -/
theorem completes_alignDone {ampD ampQ peakP peakN : Nat} (hphase : (spn s).phase = .align)
    (hsalient : getF s Fld.SPN_EST_CFG_INJ_MIN ≤ if ampD ≤ ampQ then ampQ - ampD else ampD - ampQ)
    (hpolar : 2 * max peakP peakN ≤ 100 * (max peakP peakN - min peakP peakN)) :
    completes (.alignDone ampD ampQ peakP peakN) s (fun t => (spn t).phase = .runup) := by
  refine completes_phase (t := alignDoneEff ampD ampQ peakP peakN s) rfl ?_
  unfold alignDoneEff
  extract_lets diff big small turn
  rw [if_neg (not_not.mpr hphase), if_neg (by simpa using ⟨hsalient, hpolar⟩)]
  exact phase_enterRunup false _

theorem completes_runupDone (hphase : (spn s).phase = .runup) (hnear : nearTarget s = true) :
    completes .runupDone s (fun t => (spn t).phase = .run) :=
  completes_phase (congrArg (done s) (if_pos (by simp [hphase, hnear]))) (phase_enterRun s)

theorem completes_lockedRotor (hphase : (spn s).phase = .run) (hlocked : 8000 ≤ (spn s).lockAcc) (hretry : (spn s).retries < 3) :
    completes .lockedRotor s (fun t => (spn t).phase = .lockedWait) := by
  refine completes_phase (t := lockedRotorEff s) rfl ?_
  unfold lockedRotorEff
  extract_lets p s₁ s₂
  rw [if_pos (by simp [p, hphase, hlocked]), if_pos hretry]
  exact phase_spnUnit _ _ _

theorem completes_lockedWaitDone (hphase : (spn s).phase = .lockedWait) :
    completes .lockedWaitDone s (fun t => (spn t).phase = .coastSense) :=
  completes_phase (congrArg (done s) (if_pos hphase)) (phase_enterCoast _)

/-! ### READY (R291, R296, R300, Table 17-2) -/

theorem acquireCar_unt (c : Nat) (s : State) : (acquireCar c s).unt = s.unt := by
  unfold acquireCar
  extract_lets s₁ s₂
  have h₁ : s₁.unt = s.unt := keeps_ite State.unt rfl rfl
  have h₂ : s₂.unt = s.unt := keeps_ite State.unt h₁ h₁
  refine (forEach_keeps State.unt _ (fun kind s => ?_) _ _).trans h₂
  split
  · rfl
  · rfl

theorem ust_of_unt (h : t.unt = s.unt) (u : Nat) : ust t u = ust s u := by simp only [ust, unitOf, h]

/-- The acquisition of the carriages that start leaves the spindle READY. -/
theorem ust_spnReady (hstarting : ust s uSpindle = .starting) : ust (spnReady s) uSpindle = .ready := by
  unfold spnReady
  extract_lets s₁
  have hready : ust s₁ uSpindle = .ready := by
    have hfree : s₁ = change uSpindle .ready .drive _ := if_neg (by simp [ust_of_unt (modSpn_unt _ s), hstarting])
    rw [hfree]
    exact ust_change_same (by decide) rfl _ _ _ _ _
  refine (forEach_keeps (ust · uSpindle) _ (fun c s => ?_) _ _).trans hready
  exact keeps_ite (ust · uSpindle) (ust_of_unt (acquireCar_unt c s) _) rfl

theorem completes_spindleReady (hphase : (spn s).phase = .run) (hsettled : speedSettled s = true) (hlong : 2000 ≤ (spn s).readyRun)
    (hstarting : ust s uSpindle = .starting) (hlost : (spn s).recatching = false) :
    completes .spindleReady s (fun t => ust t uSpindle = .ready) := by
  have heff : spindleReadyEff s = spnReady s := if_pos (by simp [hphase, hsettled, hlong, hstarting, hlost])
  exact completes_of_done (congrArg (done s) heff) ((ust_of_unt (finish_unt s _) _).trans (ust_spnReady hstarting))

theorem completes_recatchOk (hphase : (spn s).phase = .run) (hlost : (spn s).recatching = true) (hgood : 400 ≤ (spn s).goodRun) :
    completes .recatchOk s (fun t => flag t Fld.SPN_EVT_RECATCH_OK = true) := by
  have heff : recatchOkEff s = bump Reg.SPN_CNT 5 (spnEvt Fld.SPN_EVT_RECATCH_OK (spnReady s)) :=
    if_pos (by simp [hphase, hlost, hgood])
  refine completes_of_done (congrArg (done s) heff) ?_
  rw [flag_finish, flag_of_getF (getF_of_getReg (getReg_bump_ne 5 (by decide) _))]
  exact flag_evt_same (by decide) rfl (by decide) _ _ _

/-! ### STOPPING (R303) -/

theorem disableSpindleLoops_unt (s : State) : (disableSpindleLoops s).unt = s.unt :=
  forEach_keeps State.unt disableSlot (disableSlot_keeps fun _ _ _ => rfl) _ s

theorem spnStopped_unt (s : State) : (spnStopped s).unt = s.unt := disableSpindleLoops_unt (setGates false s)

theorem completes_stoppingDone (hphase : (spn s).phase = .stopping) (hregen : (spn s).regen = false)
    (hslow : belowSixty s = true) (hunit : ust s uSpindle ≠ .starting) :
    completes .stoppingDone s (fun t => (spn t).phase = .stopped ∧ (spn t).gates = false) := by
  have hstays : ust (spnStopped s) uSpindle ≠ .starting := by rwa [ust_of_unt (spnStopped_unt s)]
  have heff : stoppingDoneEff s = spnStopped s := (if_pos (by simp [hphase, hregen, hslow])).trans (if_neg hstays)
  refine completes_of_done (congrArg (done s) heff) ?_
  rw [spn_finish]
  exact ⟨phase_spnStopped s, gates_spnStopped s⟩

/-! ### RATE_MATCH_COMPUTE (R305) -/

/-- The speed that carries d of c members per second with the present adjustment, in steps of 10 rpm within the motor's limits. -/
def matchedSpeed (d c : Nat) (s : State) : Nat :=
  (clampI (motors s).spinMin (motors s).spinMax
    (10 * roundDiv (((motors s).spinMax * d / c : Nat) + (spn s).rateAdj) 10)).toNat

theorem rateReq_arbitrate (s : State) : (spn (arbitrate s)).rateReq = (spn s).rateReq := by
  unfold arbitrate
  split
  · rfl
  · extract_lets a n s₁
    have h₁ : (spn s₁).rateReq = (spn s).rateReq := by simp only [s₁, spn_modSpn]
    split
    · rw [setInt, spn_setReg, h₁]
    · exact h₁

/-- Between the thresholds of f the adjustment stays, and the request moves if the matched speed is 10 rpm away. -/
theorem rateReq_rateMatchEff {d c ahead : Nat} (hready : ust s uSpindle = .ready) (hhold : flag s Fld.SPN_CTRL_RATE_HOLD = false)
    (hquiet : getF s Fld.IMG_STATUS_QSTATE ≠ 2) (hc : c ≠ 0) (hhigh : rateF s ahead < 50 + (policyVal s 4).toNat)
    (hlow : 50 - (policyVal s 4).toNat < rateF s ahead) :
    (spn (rateMatchEff d c ahead s)).rateReq =
      if (spn s).rateReq + 10 ≤ matchedSpeed d c s ∨ matchedSpeed d c s + 10 ≤ (spn s).rateReq then matchedSpeed d c s
      else (spn s).rateReq := by
  unfold rateMatchEff
  rw [if_neg (by simp [hready, hhold, hquiet])]
  extract_lets m f h adj q s₁ n old far s₂
  have hadj : adj = (spn s).rateAdj := if_neg (by simpa [f, h] using ⟨hhigh, hlow⟩)
  have hq : q = ((motors s).spinMax * d / c : Nat) := if_neg hc
  have hn : n = matchedSpeed d c s := by simp only [n, hadj, hq, matchedSpeed, m]
  have h₁ : s₁ = s := if_neg hc
  have h₂ : (spn s₂).rateReq = if far then n else (spn s₁).rateReq := rfl
  have hcounted : (spn (if far then bump Reg.SPN_CNT 7 s₂ else s₂)).rateReq = (spn s₂).rateReq :=
    keeps_ite (fun s => (spn s).rateReq) rfl rfl
  rw [rateReq_arbitrate, hcounted, h₂, h₁, hn]
  simp [far, old, hn, h₁]

theorem completes_rateMatch {d c ahead : Nat} (hready : ust s uSpindle = .ready) (hhold : flag s Fld.SPN_CTRL_RATE_HOLD = false)
    (hquiet : getF s Fld.IMG_STATUS_QSTATE ≠ 2) (hc : c ≠ 0) (hhigh : rateF s ahead < 50 + (policyVal s 4).toNat)
    (hlow : 50 - (policyVal s 4).toNat < rateF s ahead) :
    completes (.rateMatchCompute d c ahead) s (fun t => (spn t).rateReq =
      if (spn s).rateReq + 10 ≤ matchedSpeed d c s ∨ matchedSpeed d c s + 10 ≤ (spn s).rateReq then matchedSpeed d c s
      else (spn s).rateReq) := by
  refine completes_of_done rfl ?_
  rw [spn_finish]
  exact rateReq_rateMatchEff hready hhold hquiet hc hhigh hlow

/-- Settles O28: no disabling of loops, write stop or change of the unit that goes with an entry into a phase reaches the drive's
phase or gates, and nothing that a centre computes touches the current that it sampled. -/
theorem spindleDrivePhases : Obligations.SpindleDrivePhases := by
  unfold Obligations.SpindleDrivePhases
  intro s
  refine ⟨fun _ => completes_pwmTop, completes_pwmCentre, completes_rotorLoss,
    fun _ rising hph => completes_comparatorEdge hph rising, ?control,
    completes_coastSense_few, fun hphase hmany hback _ => completes_coastSense_backward hphase hmany hback,
    completes_coastSense_forward, completes_catchMade_recatch, completes_catchMade_catch, completes_catchTimeout,
    completes_brakeDone, completes_phaseTimeout rfl, fun _ _ _ _ => completes_alignDone, completes_runupDone,
    completes_phaseTimeout rfl, completes_lockedRotor, completes_lockedWaitDone, completes_recatchOk, completes_phaseTimeout rfl,
    completes_stoppingDone, completes_spindleReady, fun _ _ _ => completes_rateMatch⟩
  case control =>
    exact fun hserved howner => ⟨completes_spindleRequest hserved howner rfl, completes_spindleRequest hserved howner rfl,
      completes_spnClrFault hserved howner⟩

end Sys2Proof.Proofs
end

section
/-! The sled's position through a tick of the profile (R312 to R316): the law alone moves it, and nothing that follows the law in the
tick, be it a microstep, a rest or a seek that starts, touches it. -/

namespace Sys2Proof.Proofs

open Sys2Proof Sys2Proof.Machine Sys2Proof.Safety

variable {s t : State} {c : Nat}

/-! ### The position after a change of a carriage or of the slots -/

/-- The position of carriage c. -/
def carX (c : Nat) (s : State) : Int := (carOfS s c).x

theorem carX_of_mot (h : t.mot = s.mot) (c : Nat) : carX c t = carX c s := congrArg (fun m => (m.cars.getD c {}).x) h

/-- A change that keeps the position of whichever carriage it is made to keeps that of every carriage. -/
theorem carX_modCar_keeps {f : CarMotion → CarMotion} (c j : Nat) (s : State) (hf : ∀ m, (f m).x = m.x := by intro m; rfl) :
    carX c (modCar j f s) = carX c s := by
  have h : ((modAt j f s.mot.cars).map CarMotion.x).getD c (CarMotion.x {}) = (s.mot.cars.map CarMotion.x).getD c (CarMotion.x {}) :=
    congrArg (·.getD c (CarMotion.x {})) (map_modAt_keeps hf j s.mot.cars)
  rwa [List.getD_map, List.getD_map] at h

theorem carX_crgBump (c j i : Nat) (s : State) : carX c (crgBump j i s) = carX c s := rfl

theorem carX_crgEvt (c : Nat) (f : Fld) (j : Nat) (s : State) : carX c (crgEvt f j s) = carX c s := by
  have hquiet : quiet (crgEvt f j s) = quiet s := quiet_evtAt f (0x200 * j) (uCar j) _ s
  have hmot := congrArg State.mot hquiet
  exact carX_of_mot hmot c

theorem carX_disableSlot (c k : Nat) (s : State) : carX c (disableSlot k s) = carX c s := by
  refine keeps_ite (carX c) ?_ rfl
  rw [leaveActive_eq]
  exact forEach_keeps (carX c) dropChild (fun _ _ => keeps_ite (carX c) rfl rfl) _ _

theorem carX_holdMasks (c j : Nat) (s : State) : carX c (holdMasks j s) = carX c s := by
  unfold holdMasks
  extract_lets s₁
  have h₁ : carX c s₁ = carX c s := by
    simp only [s₁]
    split <;> rfl
  split
  · exact h₁
  · exact h₁

theorem carX_sledLoop_off (c j : Nat) (s : State) : carX c (sledLoop j false s) = carX c s := by
  unfold sledLoop
  split
  · exact carX_disableSlot c _ _
  · rfl

/-! ### Seeks and homing as a tick may start or end them -/

theorem carX_startHoming (c j : Nat) (s : State) : carX c (startHoming j s) = carX c s :=
  carX_modCar_keeps c j _

theorem carX_startLayerJump (c j l l' : Nat) (s : State) : carX c (startLayerJump j l l' s) = carX c s :=
  keeps_ite (carX c) (carX_modCar_keeps c j s)
    (keeps_ite (carX c) (carX_modCar_keeps c j s) (carX_modCar_keeps c j s))

theorem carX_enterSeek (c j : Nat) (k : Seek) (s : State) : carX c (enterSeek j k s) = carX c s := by
  unfold enterSeek
  extract_lets m s₁ s₂ t l s₃
  have h₂ : carX c s₂ = carX c s := (carX_sledLoop_off c j _).trans (carX_holdMasks c j s₁)
  exact (carX_startLayerJump c j _ _ s₃).trans ((carX_modCar_keeps c j s₂).trans h₂)

theorem carX_seekCheck (c j : Nat) (s : State) : carX c (seekCheck j s) = carX c s := by
  unfold seekCheck
  dsimp only
  split
  · rfl
  · exact keeps_ite (carX c) (carX_enterSeek c j _ s) (keeps_ite (carX c) (carX_startHoming c j s) rfl)

theorem carX_seekRest (c j : Nat) (s : State) : carX c (seekRest j s) = carX c s := by
  unfold seekRest
  dsimp only
  split
  · exact keeps_ite (carX c) (carX_modCar_keeps c j s) rfl
  · rfl

theorem carX_homingRest (c j : Nat) (s : State) : carX c (homingRest j s) = carX c s :=
  keeps_ite (carX c) (keeps_ite (carX c) (carX_modCar_keeps c j s) (keeps_ite (carX c) (carX_modCar_keeps c j s) rfl)) rfl

/-! ### Microsteps -/

theorem carX_modeCheck (c j : Nat) (s : State) : carX c (modeCheck j s) = carX c s := by
  have hmode (i : Nat) (on : Bool) : carX c (crgBump j i (modCar j (fun m => { m with strong := on }) s)) = carX c s :=
    carX_modCar_keeps c j s
  exact keeps_ite (carX c) rfl (keeps_ite (carX c) (keeps_ite (carX c) (hmode 9 false) rfl)
    (keeps_ite (carX c) (hmode 8 true) (keeps_ite (carX c) (hmode 9 false) rfl)))

theorem carX_stepOne (c j : Nat) (s : State) : carX c (stepOne j s) = carX c s := by
  unfold stepOne
  extract_lets m s₁
  have h₁ : carX c s₁ = carX c s := carX_modCar_keeps c j s
  exact keeps_ite (carX c) h₁ ((carX_modeCheck c j s₁).trans h₁)

theorem carX_loadTimer (c j : Nat) (s : State) : carX c (loadTimer j s) = carX c s := carX_modCar_keeps c j s

/-! ### PROFILE_TICK (R314) -/

/-- The tolerance of the law: none while the carriage homes, REV_TOL otherwise. -/
def profileTol (c : Nat) (s : State) : Int :=
  if (carOfS s c).st = .homing then 0 else (getF s (cfld Fld.CRG_SEEK_CFG_REV_TOL c) * 25 : Nat) * um

/-- Carriage c after one tick of the law, with whether a new move began. -/
def profileMoved (c : Nat) (s : State) : CarMotion × Bool :=
  profileLaw (profileTarget s c) (profileTol c s) (vLimit s c) ((sledM s c).aMax * 1000 * um)
    ((sledM s c).jMax * 1000 * um) (carOfS s c)

theorem carX_profileTickEff (hc : c < s.mot.cars.length) (hgates : (carOfS s c).gates = true) (hhomed : (carOfS s c).st ≠ .unhomed)
    (hsound : (carOfS s c).st ≠ .fault) : carX c (profileTickEff c s) = (profileMoved c s).1.x := by
  have hruns : ¬ (!(carOfS s c).gates || (carOfS s c).st = .unhomed || (carOfS s c).st = .fault) = true := by
    simp [hgates, hhomed, hsound]
  unfold profileTickEff
  extract_lets m q rev tol r s₁ s₂ s₃ s₄ s₅ s₆
  rw [if_neg hruns]
  have h₁ : carX c s₁ = r.1.x := congrArg CarMotion.x (carOfS_modCar_same hc _)
  have h₂ : carX c s₂ = r.1.x :=
    keeps_ite (carX c) ((carX_crgBump c c 1 _).trans ((carX_crgEvt c _ c _).trans ((carX_modCar_keeps c c s₁).trans h₁))) h₁
  have h₃ : carX c s₃ = r.1.x := keeps_ite (carX c) ((carX_modCar_keeps c c s₂).trans h₂) h₂
  have h₄ : carX c s₄ = r.1.x :=
    keeps_ite (carX c) ((carX_loadTimer c c _).trans ((carX_modCar_keeps c c _).trans ((carX_stepOne c c s₃).trans h₃)))
      (keeps_ite (carX c) ((carX_loadTimer c c s₃).trans h₃) h₃)
  have h₅ : carX c s₅ = r.1.x := keeps_ite (carX c) ((carX_crgBump c c 9 _).trans ((carX_modCar_keeps c c s₄).trans h₄)) h₄
  have h₆ : carX c s₆ = r.1.x := keeps_ite (carX c) ((carX_modCar_keeps c c s₅).trans h₅) h₅
  exact (carX_seekCheck c c _).trans ((carX_seekRest c c _).trans ((carX_homingRest c c s₆).trans h₆))

theorem completes_profileTick (hc : c < 4) (hlen : s.mot.cars.length = 4) (hgates : (carOfS s c).gates = true)
    (hhomed : (carOfS s c).st ≠ .unhomed) (hsound : (carOfS s c).st ≠ .fault) :
    completes (.profileTick c) s (fun t => (carOfS t c).x = (profileMoved c s).1.x) := by
  refine completes_of_done (congrArg (done s) (if_pos hc)) ?_
  exact (carX_of_mot (finish_mot s _) c).trans (carX_profileTickEff (hlen ▸ hc) hgates hhomed hsound)

end Sys2Proof.Proofs
end

section
/-! The commands of the CAM registers (R330, R331, R334, Table 10-7). -/

namespace Sys2Proof.Proofs

open Sys2Proof Sys2Proof.Machine Sys2Proof.Safety

variable {s : State} {n : Nat} {r : CamRec}

/-! ### CAM_COMMIT (R331) -/

/-- Without a layer-jump cam's shape to check, a commit is accepted, and the table waits for phase 0. -/
theorem commit_camCommitEff_accepted {v : Word} (hgo : v.getLsbD 8 = true) (hnone : s.mot.commit = none)
    (hplain : ∀ r, camRec s (bits v.toNat 0 6) = some r → layerJumpCar s r = none) :
    (camCommitEff v s).mot.commit = some (bits v.toNat 0 6) := by
  unfold camCommitEff
  dsimp only
  rw [if_neg (by simp [hgo]), if_neg (by simp [hnone])]
  split
  · rfl
  · next r hrec =>
    rw [if_neg (by simp [hplain r hrec])]
    exact keeps_ite (fun s : State => s.mot.commit) rfl (congrArg MotionState.commit (evt_mot _ _ _ _))

theorem camCommitEff_busy {v : Word} (hgo : v.getLsbD 8 = true) (hwaits : s.mot.commit.isSome = true) :
    camCommitEff v s = camEvt Fld.CAM_EVT_BUSY (bits v.toNat 0 6) s := by simp [camCommitEff, hgo, hwaits]

theorem camCommitEff_badShape {v : Word} {c : Nat} (hgo : v.getLsbD 8 = true) (hnone : s.mot.commit = none)
    (hrec : camRec s (bits v.toNat 0 6) = some r) (hjump : layerJumpCar s r = some c)
    (hshape : shapeOk (shadowVals s (bits v.toNat 0 6) r.points) = false) :
    camCommitEff v s = camEvt Fld.CAM_EVT_SHAPE_REFUSED (bits v.toNat 0 6) s := by
  simp [camCommitEff, hgo, hnone, hrec, hjump, hshape]

section
variable {v : Word} (hserved : sideServed s Reg.CAM_COMMIT = true) (howner : isOwner s = true)
include hserved howner

theorem completes_camCommit {P : State → Prop} (hP : P (finish s (camCommitEff v s))) : completes (.camCommit v) s P := by
  have hact : atOwner (camCommitEff v) s = camCommitEff v s := if_pos howner
  exact completes_served (f := atOwner (camCommitEff v)) rfl hserved (hact.symm ▸ hP)

variable (hgo : v.getLsbD 8 = true)
include hgo

theorem completes_camCommit_accepted (hnone : s.mot.commit = none)
    (hplain : ∀ r, camRec s (bits v.toNat 0 6) = some r → layerJumpCar s r = none) :
    completes (.camCommit v) s (fun t => t.mot.commit = some (bits v.toNat 0 6)) := by
  refine completes_camCommit hserved howner ?_
  rw [finish_mot]
  exact commit_camCommitEff_accepted hgo hnone hplain

theorem completes_camCommit_busy (hwaits : s.mot.commit.isSome = true) :
    completes (.camCommit v) s (fun t => flag t Fld.CAM_EVT_BUSY = true ∧ t.mot.commit = s.mot.commit) := by
  refine completes_camCommit hserved howner ?_
  rw [camCommitEff_busy hgo hwaits, flag_finish, finish_mot, camEvt, evt_mot]
  exact ⟨flag_evt_same (by decide) rfl (by decide) _ _ _, rfl⟩

theorem completes_camCommit_badShape {c : Nat} (hnone : s.mot.commit = none) (hrec : camRec s (bits v.toNat 0 6) = some r)
    (hjump : layerJumpCar s r = some c) (hshape : shapeOk (shadowVals s (bits v.toNat 0 6) r.points) = false) :
    completes (.camCommit v) s (fun t => flag t Fld.CAM_EVT_SHAPE_REFUSED = true ∧ t.mot.commit = none) := by
  refine completes_camCommit hserved howner ?_
  rw [camCommitEff_badShape hgo hnone hrec hjump hshape, flag_finish, finish_mot, camEvt, evt_mot]
  exact ⟨flag_evt_same (by decide) rfl (by decide) _ _ _, hnone⟩

end

/-! ### CAM_CTRL (R330, R334) -/

theorem camSt_of_mot {t : State} (h : t.mot = s.mot) (n : Nat) : camSt t n = camSt s n := congrArg (fun m => m.cams.getD n {}) h

theorem camSt_modCam_same (hn : n < s.mot.cams.length) (f : CamSt → CamSt) : camSt (modCam n f s) n = f (camSt s n) :=
  getD_modAt_same f {} _ hn

theorem camEngageEff_plain (hrec : camRec s n = some r) (hplain : layerJumpCar s r = none) (on : Bool) :
    camEngageEff n on s = modCam n (fun x => { x with engage := some on }) s := by
  cases on <;> simp [camEngageEff, hrec, hplain]

section
variable (hn : n < 64) (hlen : s.mot.cams.length = 64) (hserved : sideServed s (Reg.CAM_CTRL + 4 * n) = true)
include hn hlen hserved

/-- A command that changes cam n alone. -/
theorem completes_camCommand {i : Instr} {g : State → State} {f : CamSt → CamSt}
    (hexec : exec i s = done s (instOf 64 n (served (Reg.CAM_CTRL + 4 * n) g) s)) (hg : g s = modCam n f s) :
    completes i s (fun t => camSt t n = f (camSt s n)) := by
  refine completes_servedAt hexec hn hserved ?_
  rw [hg, camSt_of_mot (finish_mot _ _)]
  exact camSt_modCam_same (hlen ▸ hn) f

theorem completes_camEngage (hrec : camRec s n = some r) (hplain : layerJumpCar s r = none) (on : Bool) :
    completes (.camEngage n on) s (fun t => (camSt t n).engage = some on) :=
  completes_mono (completes_camCommand hn hlen hserved rfl (camEngageEff_plain hrec hplain on))
    fun _ hcam => congrArg CamSt.engage hcam

theorem completes_camTimeReset : completes (.camTimeReset n) s (fun t => (camSt t n).timeReset = true) :=
  completes_mono (completes_camCommand hn hlen hserved (g := camTimeResetEff n) rfl rfl)
    fun _ hcam => congrArg CamSt.timeReset hcam

end

/-! ### CAM_PT_DATA (Table 10-7) -/

/-- The data port is no half of a 64-bit quantity and no register of the blocks below it. -/
theorem writeReg_camPtData (v : Word) (s : State) : writeReg Reg.CAM_PT_DATA v s = camPtWrite v s := by
  have hlow : isLow Reg.CAM_PT_DATA = false := by decide
  have hhigh : isHigh Reg.CAM_PT_DATA = false := by decide
  rw [writeReg, hlow, hhigh]
  rfl

theorem camPtStep_mot (s : State) : (camPtStep s).mot = s.mot := keeps_ite State.mot rfl rfl

/-- The point under CAM_PT_SEL holds the word written, whether the index steps or not. -/
theorem shadow_camPtWrite (htable : getF s Fld.CAM_PT_SEL_TABLE < s.mot.cams.length) (v : Word) :
    Tbl.get 0 (getF s Fld.CAM_PT_SEL_POINT) (camSt (camPtWrite v s) (getF s Fld.CAM_PT_SEL_TABLE)).shadow = signed 32 v.toNat := by
  rw [camPtWrite, camSt_of_mot (camPtStep_mot _), camSt_modCam_same htable]
  exact Tbl.get_put_same _ _ _ _

theorem completes_camPtDataWrite (hserved : sideServed s Reg.CAM_PT_DATA = true) (hlen : s.mot.cams.length = 64)
    (htable : getF s Fld.CAM_PT_SEL_TABLE < 64) (v : Word) :
    completes (.camPtDataAccess (some v)) s (fun t =>
      Tbl.get 0 (getF s Fld.CAM_PT_SEL_POINT) (camSt t (getF s Fld.CAM_PT_SEL_TABLE)).shadow = signed 32 v.toNat) := by
  refine completes_served (f := writeReg Reg.CAM_PT_DATA v) rfl hserved ?_
  rw [writeReg_camPtData, camSt_of_mot (finish_mot _ _)]
  exact shadow_camPtWrite (hlen ▸ htable) v

theorem completes_camPtDataRead (hserved : sideServed s Reg.CAM_PT_DATA = true) :
    completes (.camPtDataAccess none) s (fun t =>
      t.out = s.out ++ [.regData Reg.CAM_PT_DATA (regValue s Reg.CAM_PT_DATA).toNat] ∧ t.mot = s.mot) := by
  obtain ⟨hout, hmot⟩ := Prod.mk.inj (portView_readEffect Reg.CAM_PT_DATA s)
  refine completes_served (f := fun s => emit (.regData Reg.CAM_PT_DATA (regValue s Reg.CAM_PT_DATA).toNat)
    (readEffect Reg.CAM_PT_DATA s)) rfl hserved ⟨?answer, (finish_mot _ _).trans hmot⟩
  case answer => rw [finish_out, emit_out, hout]

end Sys2Proof.Proofs
end

section
/-! The servo converters: conversion slots (R249) and DAC updates (R254). -/

namespace Sys2Proof.Proofs

open Sys2Proof Sys2Proof.Machine Sys2Proof.Safety

variable {s : State} {m : Nat} {codes : List Nat}

/-! ### Conversion slots (R249) -/

/-- Entries put one after another at places that do not meet: each place listed holds its own. -/
theorem getD_foldl_modAt {place entry : Nat → Nat} (hinj : Function.Injective place) {a : Nat} :
    ∀ (as l : List Nat), place a < l.length → a ∈ as ∨ l.getD (place a) 0 = entry a →
      (as.foldl (fun l b => modAt (place b) (fun _ => entry b) l) l).getD (place a) 0 = entry a
  | [], _, _, h => h.resolve_left List.not_mem_nil
  | b :: as, l, hlen, h => by
    refine getD_foldl_modAt hinj as _ (length_modAt.symm ▸ hlen) ?_
    by_cases hab : a = b
    · exact .inr (hab ▸ getD_modAt_same _ 0 l hlen)
    · have hne : place b ≠ place a := fun e => hab (hinj e).symm
      exact h.imp (fun hmem => (List.mem_cons.1 hmem).resolve_left hab) ((getD_modAt_ne _ 0 l hne).trans ·)

/-- The input that ADC a converts in the slot of place j of a hold. -/
def adcInput (j a : Nat) : Nat := 12 * (a / 4) + 3 * (a % 4) + j

theorem adcInput_injective (j : Nat) : Function.Injective (adcInput j) := by
  intro a b h
  unfold adcInput at h
  omega

/-- The inputs of a hold once the slot of place j has converted codes. -/
def latchCodes (j : Nat) (codes l : List Nat) : List Nat :=
  (List.range 16).foldl (fun l a => modAt (adcInput j a) (fun _ => codes.getD a 0 % 65536) l) l

theorem getD_latchCodes {j a : Nat} {l : List Nat} (ha : a < 16) (hj : j < 3) (hlen : l.length = 48) :
    (latchCodes j codes l).getD (adcInput j a) 0 = codes.getD a 0 % 65536 :=
  getD_foldl_modAt (adcInput_injective j) _ l (by unfold adcInput; omega) (.inl (List.mem_range.2 ha))

theorem conversionEff_first (hm : m = 1 ∨ m = 2 ∨ m = 3) :
    conversionEff m codes s = { s with mot := { s.mot with pd1 := latchCodes (m - 1) codes s.mot.pd1 } } := by
  have hplace : m % 8 % 4 - 1 = m - 1 := by omega
  unfold conversionEff
  dsimp only
  rw [if_neg (by omega), if_pos (by omega), hplace]
  rfl

theorem conversionEff_second (hm : m = 5 ∨ m = 6 ∨ m = 7) :
    conversionEff m codes s = { s with mot := { s.mot with pd2 := latchCodes (m - 5) codes s.mot.pd2 } } := by
  have hplace : m % 8 % 4 - 1 = m - 5 := by omega
  unfold conversionEff
  dsimp only
  rw [if_neg (by omega), if_neg (by omega), hplace]
  rfl

theorem forEach_same {α : Type} {f : α → State → State} :
    ∀ (l : List α) (s : State), (∀ x ∈ l, f x s = s) → forEach f l s = s
  | [], _, _ => rfl
  | x :: l, s, h => by
    rw [forEach, h x List.mem_cons_self]
    exact forEach_same l s fun y hy => h y (List.mem_cons_of_mem x hy)

/-- A reference within 64 of mid-scale at every ADC raises nothing. -/
theorem conversionEff_reference (hm : m = 0 ∨ m = 4) (hcodes : ∀ b, b < 16 → ((codes.getD b 0 : Int) - 32768).natAbs ≤ 64) :
    conversionEff m codes s = s := by
  have hslot : m % 8 % 4 = 0 := by omega
  unfold conversionEff
  dsimp only
  rw [if_pos hslot]
  exact forEach_same _ s fun a ha => if_neg (Nat.not_lt.2 (hcodes a (List.mem_range.1 ha)))

theorem completes_conversion_first {a : Nat} (ha : a < 16) (hlen : s.mot.pd1.length = 48) (hm : m = 1 ∨ m = 2 ∨ m = 3) :
    completes (.servoConversionSlot m codes) s (fun t =>
      t.mot.pd1.getD (adcInput (m - 1) a) 0 = codes.getD a 0 % 65536 ∧ t.mot.pd2 = s.mot.pd2) := by
  refine completes_of_done (congrArg (done s) (conversionEff_first hm)) ?_
  rw [finish_mot]
  refine ⟨?latched, rfl⟩
  case latched =>
    dsimp only
    exact getD_latchCodes ha (by omega) hlen

theorem completes_conversion_second {a : Nat} (ha : a < 16) (hlen : s.mot.pd2.length = 48) (hm : m = 5 ∨ m = 6 ∨ m = 7) :
    completes (.servoConversionSlot m codes) s (fun t =>
      t.mot.pd2.getD (adcInput (m - 5) a) 0 = codes.getD a 0 % 65536 ∧ t.mot.pd1 = s.mot.pd1) := by
  refine completes_of_done (congrArg (done s) (conversionEff_second hm)) ?_
  rw [finish_mot]
  refine ⟨?latched, rfl⟩
  case latched =>
    dsimp only
    exact getD_latchCodes ha (by omega) hlen

theorem completes_conversion_reference (hm : m = 0 ∨ m = 4)
    (hcodes : ∀ b, b < 16 → ((codes.getD b 0 : Int) - 32768).natAbs ≤ 64) :
    completes (.servoConversionSlot m codes) s (fun t => t.mot = s.mot ∧ regsKeptBut [] s t) :=
  completes_of_done (congrArg (done s) (conversionEff_reference hm hcodes))
    ⟨finish_mot _ _, regsKeptBut_of_regs _ (finish_regs _ _)⟩

/-! ### DAC updates (R254) -/

theorem completes_dacUpdate (s : State) :
    completes .dacUpdate s (fun t => t.mot.dacs = s.mot.dacs.map dacStep ∧ regsKeptBut [] s t) :=
  completes_of_done rfl ⟨congrArg MotionState.dacs (finish_mot _ _), regsKeptBut_of_regs _ (finish_regs _ _)⟩

/-- Settles O29: what follows the law in a tick leaves the sled where it is, the events of the cam unit leave its commit, and the
inputs that one slot converts are apart. -/
theorem profilesCamsAndConverters : Obligations.ProfilesCamsAndConverters := by
  unfold Obligations.ProfilesCamsAndConverters
  intro s
  refine ⟨fun _ => completes_profileTick, fun hserved howner v hgo => ?commit,
    fun n r hn hlen hserved hrec hplain => ?control, fun v hserved hlen htable => completes_camPtDataWrite hserved hlen htable v,
    completes_camPtDataRead, fun m codes a _ ha hlen₁ hlen₂ => ?conversion, completes_dacUpdate s⟩
  case commit =>
    exact ⟨completes_camCommit_accepted hserved howner hgo, completes_camCommit_busy hserved howner hgo,
      fun _ _ => completes_camCommit_badShape hserved howner hgo⟩
  case control =>
    exact ⟨completes_camEngage hn hlen hserved hrec hplain true, completes_camEngage hn hlen hserved hrec hplain false,
      completes_camTimeReset hn hlen hserved⟩
  case conversion =>
    exact ⟨completes_conversion_first ha hlen₁, completes_conversion_second ha hlen₂, completes_conversion_reference⟩

end Sys2Proof.Proofs
end

section
/-! Every step keeps buffer memory and the scratchpad in canonical form (O36). As for the sizes of the tables, each operation of the
model has one lemma, `memoryWf.f` for the operation `f`, in the namespace of the invariant, so that the proof for an operation
that calls others reads as the operation does. Bytes are written by few of them: `memPut`, `bar2Eff`, and the resets and fills
that drop bytes; what quiet, still and calm leave of a state says the rest of events and of changes of units. -/

namespace Sys2Proof.Safety
open Sys2Proof Sys2Proof.Machine

variable {s t : State}

section
variable {regs : Tbl Word} {pwr : PowerState} {pins : PinState} {img : ImgState} {unt : UnitsState} {cal : CalState}
  {tap : TapState} {mgt : MgmtState} {mram : MramState} {host : HostState} {media : MediaState} {mot : MotionState}
  {chn : ChannelState} {pool : PoolState} {pair : PairState} {out : List Output} {free : Nat} {pending : List Instr}

/-- All but buffer memory and the cache may change as it likes. -/
theorem memoryWf.frame (h : memoryWf s) :
    memoryWf ⟨regs, pwr, pins, img, unt, cal, tap, mgt, mram, s.mem, s.bc, host, media, mot, chn, pool, pair, out, free,
      pending⟩ := h

end

/-- Equal memories are equally in form. -/
theorem memoryWf.sameMemory (h : memoryWf s) (hmem : t.mem = s.mem) (hbc : t.bc = s.bc) : memoryWf t := by
  rwa [memoryWf, hmem, hbc]

theorem memoryWf.ofCalm (h : memoryWf s) (hc : calm t = calm s) : memoryWf t := by
  have hmem := congrArg (fun c => c.1.mem) hc
  have hbc := congrArg (fun c => c.1.bc) hc
  exact h.sameMemory hmem hbc

theorem memoryWf.ofStill (h : memoryWf s) (hs : still t = still s) : memoryWf t := h.ofCalm (calm_of_still hs)

theorem memoryWf.ofQuiet (h : memoryWf s) (hq : quiet t = quiet s) : memoryWf t := by
  have hmem := congrArg State.mem hq
  have hbc := congrArg State.bc hq
  exact h.sameMemory hmem hbc

theorem memoryWf.ite {c : Prop} {_ : Decidable c} (hs : memoryWf s) (ht : memoryWf t) :
    memoryWf (if c then s else t) := by
  split <;> assumption

theorem memoryWf.iteSnd {α : Type} {c : Prop} {_ : Decidable c} {p q : α × State} (hp : memoryWf p.2)
    (hq : memoryWf q.2) : memoryWf (if c then p else q).2 := by
  split <;> assumption

/-- Names what holds of a state that the rest of a proof speaks of several times. -/
theorem memoryWf.andThen (h : memoryWf s) (f : memoryWf s → memoryWf t) : memoryWf t := f h

theorem memoryWf.onlyIf (h : memoryWf s) {c : Prop} {_ : Decidable c} (f : memoryWf s → memoryWf t) :
    memoryWf (if c then t else s) := .ite (f h) h

/-- Whatever state o holds has its memories in form. -/
def anyWf (o : Option State) : Prop := ∀ u, o = some u → memoryWf u

theorem anyWf.none : anyWf Option.none := fun _ h => nomatch h

theorem anyWf.some (h : memoryWf s) : anyWf (Option.some s) := fun _ e => Option.some.inj e ▸ h

theorem memoryWf.some (h : memoryWf s) : anyWf (Option.some s) := .some h

theorem anyWf.ite {c : Prop} {_ : Decidable c} {o p : Option State} (ho : anyWf o) (hp : anyWf p) :
    anyWf (if c then o else p) := by
  split <;> assumption

theorem anyWf.getD {o : Option State} (h : anyWf o) (ht : memoryWf t) : memoryWf (o.getD t) := by
  cases o with
  | none => exact ht
  | some u => exact h u rfl

theorem anyWf.orElse {o : Option State} : anyWf o → memoryWf t →
    memoryWf (match o with | Option.some u => u | Option.none => t) := by
  intro h ht
  cases o with
  | none => exact ht
  | some u => exact h u rfl

/-! ### Registers, counters and outputs -/

theorem memoryWf.setReg (h : memoryWf s) {off v} : memoryWf (setReg off v s) := h.frame

theorem memoryWf.setF (h : memoryWf s) {f v} : memoryWf (setF f v s) := h.setReg

theorem memoryWf.setFlag (h : memoryWf s) {f b} : memoryWf (setFlag f b s) := h.setF

theorem memoryWf.setFs (h : memoryWf s) {fs} : memoryWf (setFs fs s) := by
  induction fs generalizing s with
  | nil => exact h
  | cons f fs ih => exact ih h.setF

theorem memoryWf.bumpBy (h : memoryWf s) {off n} : memoryWf (bumpBy off n s) := h.setReg

theorem memoryWf.bump (h : memoryWf s) {off i} : memoryWf (bump off i s) := h.bumpBy

theorem memoryWf.emit (h : memoryWf s) {o} : memoryWf (emit o s) := h.frame

theorem memoryWf.useFree (h : memoryWf s) : memoryWf (useFree s) := h.frame

theorem memoryWf.keepRegs (h : memoryWf s) {keep} : memoryWf (keepRegs keep s) := h.frame

theorem memoryWf.set64 (h : memoryWf s) {lo v} : memoryWf (set64 lo v s) := h.setReg.setReg

theorem memoryWf.forEach {α : Type} {f : α → State → State} {l : List α} (h : memoryWf s)
    (hf : ∀ {s} x, memoryWf s → memoryWf (f x s)) : memoryWf (forEach f l s) := by
  induction l generalizing s with
  | nil => exact h
  | cons x l ih => exact ih (hf x h)

/-! ### Events, units, volumes and the ends of commands

What an event may change quiet sets aside, and what a change of a unit may reach calm does; neither sets the memories aside. -/

theorem memoryWf.logSignal (h : memoryWf s) : memoryWf (logSignal s) := h.ofQuiet (quiet_logSignal s)

theorem memoryWf.event (h : memoryWf s) {block code unit items} : memoryWf (event block code unit items s) :=
  h.ofQuiet (quiet_event _ _ _ _ _)

theorem memoryWf.evtAt (h : memoryWf s) {f d unit items} : memoryWf (evtAt f d unit items s) := h.ofQuiet (quiet_evtAt _ _ _ _ _)

theorem memoryWf.evt (h : memoryWf s) {f unit items} : memoryWf (evt f unit items s) := h.evtAt

theorem memoryWf.modVol (h : memoryWf s) {v f} : memoryWf (modVol v f s) := h.frame

theorem memoryWf.putState (h : memoryWf s) {u tgt why} : memoryWf (putState u tgt why s) := h.ofCalm (calm_putState _ _ _ _)

theorem memoryWf.putHistory (h : memoryWf s) {u src seq} : memoryWf (putHistory u src seq s) := h.frame

theorem memoryWf.changeEvent (h : memoryWf s) {u src seq} : memoryWf (changeEvent u src seq s) :=
  h.setF.onlyIf (·.event)

theorem memoryWf.mirror (h : memoryWf s) {m} : memoryWf (mirror m s) := h.ofStill (still_mirror _ _)

theorem memoryWf.recordChange (h : memoryWf s) {u src seq} : memoryWf (recordChange u src seq s) :=
  h.ofStill (still_recordChange _ _ _ _)

theorem memoryWf.putCmd (h : memoryWf s) {t c} : memoryWf (putCmd t c s) := h.frame

theorem memoryWf.modCmd (h : memoryWf s) {t f} : memoryWf (modCmd t f s) := h.ofStill (still_modCmd _ _ _)

theorem memoryWf.freeTag (h : memoryWf s) {t} : memoryWf (freeTag t s) := h.putCmd

theorem memoryWf.endCmd (h : memoryWf s) {t st result} : memoryWf (endCmd t st result s) := h.ofStill (still_endCmd _ _ _ _)

theorem memoryWf.setGate4 (h : memoryWf s) {t g} : memoryWf (setGate4 t g s) := h.ofStill (still_setGate4 _ _ _)

theorem memoryWf.dmpAnswer (h : memoryWf s) {addr port typ reqId flags status payload} :
    memoryWf (dmpAnswer addr port typ reqId flags status payload s) := h.emit

theorem memoryWf.storeAnswer (h : memoryWf s) {addr port reqId typ ans} :
    memoryWf (storeAnswer addr port reqId typ ans s) := h.frame

theorem memoryWf.i3cAnswer (h : memoryWf s) {typ reqId status payload} :
    memoryWf (i3cAnswer typ reqId status payload s) := h.frame

theorem memoryWf.finishReq (h : memoryWf s) {r st} : memoryWf (finishReq r st s) := h.ofStill (still_finishReq _ _ _)

theorem memoryWf.calEvt (h : memoryWf s) {f r st} : memoryWf (calEvt f r st s) := h.evt

theorem memoryWf.calRecord (h : memoryWf s) {r st outcome} : memoryWf (calRecord r st outcome s) :=
  h.ofCalm (calm_calRecord _ _ _ _)

theorem memoryWf.setHold (h : memoryWf s) {u b} : memoryWf (setHold u b s) := h.frame

theorem memoryWf.changeUnit (h : memoryWf s) {u tgt why src seq} : memoryWf (changeUnit u tgt why src seq s) :=
  h.ofCalm (calm_changeUnit _ _ _ _ _ _)

theorem memoryWf.change (h : memoryWf s) {u tgt why} : memoryWf (change u tgt why s) := h.changeUnit

theorem memoryWf.suspectUnit (h : memoryWf s) {u why d claim} : memoryWf (suspectUnit u why d claim s) :=
  h.ofCalm (calm_suspectUnit _ _ _ _ _)

/-! ### Access to the loop slots, the cams and the carriages -/

theorem memoryWf.modCar (h : memoryWf s) {c f} : memoryWf (modCar c f s) :=
  h.frame

theorem memoryWf.modSlot (h : memoryWf s) {k f} : memoryWf (modSlot k f s) :=
  h.frame

theorem memoryWf.modSpn (h : memoryWf s) {f} : memoryWf (modSpn f s) := h.frame

theorem memoryWf.setInt (h : memoryWf s) {off v} : memoryWf (setInt off v s) := h.setReg

theorem memoryWf.modDac (h : memoryWf s) {i f} : memoryWf (modDac i f s) :=
  h.frame

theorem memoryWf.writeDest (h : memoryWf s) {l o v} : memoryWf (writeDest l o v s) := by
  unfold Machine.writeDest
  refine .ite h.modSlot.modDac (.ite h.modSlot.frame (.ite ?_ (.ite h.modSlot.frame (h.modSlot.onlyIf (·.frame)))))
  split
  · exact h.modSlot.setInt
  · exact h.modSlot

theorem memoryWf.lpeEvt (h : memoryWf s) {f k} : memoryWf (lpeEvt f k s) := h.evtAt

theorem memoryWf.leaveActive (h : memoryWf s) {k st} : memoryWf (leaveActive k st s) :=
  h.modSlot.forEach fun _ h => h.onlyIf (·.modSlot)

theorem memoryWf.disableSlot (h : memoryWf s) {k} : memoryWf (disableSlot k s) :=
  h.onlyIf (·.leaveActive)

theorem memoryWf.disableSlots (h : memoryWf s) {ks} : memoryWf (disableSlots ks s) :=
  h.forEach fun _ h => h.disableSlot

theorem memoryWf.disableSpindleLoops (h : memoryWf s) : memoryWf (disableSpindleLoops s) :=
  h.disableSlots

theorem memoryWf.enableNow (h : memoryWf s) {l y0} : memoryWf (enableNow l y0 s) :=
  .ite h.modSlot (.ite h.modSlot h.modSlot.lpeEvt)

theorem memoryWf.askEnable (h : memoryWf s) {k on} : memoryWf (askEnable k on s) := h.modSlot

theorem memoryWf.engineMask (h : memoryWf s) {k m} : memoryWf (engineMask k m s) := h.modSlot

/-! ### Skeins by key, sealing and write stops -/

theorem memoryWf.modSkein (h : memoryWf s) {key f} : memoryWf (modSkein key f s) := h.frame

theorem memoryWf.dropSkein (h : memoryWf s) {key} : memoryWf (dropSkein key s) := h.frame

theorem memoryWf.modWcar (h : memoryWf s) {c f} : memoryWf (modWcar c f s) :=
  h.frame

theorem memoryWf.setGate (h : memoryWf s) {c on} : memoryWf (setGate c on s) := h.frame

theorem memoryWf.setLen (h : memoryWf s) {c on} : memoryWf (setLen c on s) := h.frame

theorem memoryWf.joinQueue (h : memoryWf s) {key c} : memoryWf (joinQueue key c s) := h.modWcar

theorem memoryWf.joinQueues (h : memoryWf s) {key} : memoryWf (joinQueues key s) :=
  h.forEach fun _ h => h.joinQueue

theorem memoryWf.leaveQueues (h : memoryWf s) {key} : memoryWf (leaveQueues key s) :=
  h.forEach fun _ h => h.modWcar

theorem memoryWf.takeNumber (h : memoryWf s) : memoryWf (takeNumber s).2 := h.frame

theorem memoryWf.sealSkein (h : memoryWf s) {key} : memoryWf (sealSkein key s) := by
  unfold Machine.sealSkein
  split
  · exact h
  · exact .ite h h.takeNumber.modSkein.frame.frame

theorem memoryWf.sealOpen (h : memoryWf s) : memoryWf (sealOpen s) := by
  unfold Machine.sealOpen
  split
  · exact h.sealSkein
  · exact h

theorem memoryWf.endExhausted (h : memoryWf s) : memoryWf (endExhausted s) := by
  unfold Machine.endExhausted
  refine h.forEach fun _ h => ?_
  split
  · exact h.onlyIf (·.endCmd)
  · exact h

theorem memoryWf.moveData (h : memoryWf s) {old new} : memoryWf (moveData old new s) := h.frame

theorem memoryWf.reform (h : memoryWf s) {key counted} : memoryWf (reform key counted s) := by
  unfold Machine.reform
  split
  · exact h
  · exact .ite h (.ite h.leaveQueues.modSkein.bump.evt.endExhausted
      h.leaveQueues.takeNumber.modSkein.frame.moveData.joinQueues)

theorem memoryWf.grantFresh (h : memoryWf s) {pick} : memoryWf (grantFresh pick s) :=
  h.forEach fun _ h => h.onlyIf (·.modSkein.reform)

theorem memoryWf.abandonPass (h : memoryWf s) {c} : memoryWf (abandonPass c s) :=
  .ite h ((h.onlyIf (·.useFree)).modWcar.setGate.onlyIf (fun h => (h.forEach (fun _ h => h.reform)).evt))

theorem memoryWf.stopWriteNow (h : memoryWf s) {c} : memoryWf (stopWriteNow c s) :=
  h.setGate.abandonPass

theorem memoryWf.stopAtSlot (h : memoryWf s) {c} : memoryWf (stopAtSlot c s) := h.modWcar

theorem memoryWf.stopAllNow (h : memoryWf s) : memoryWf (stopAllNow s) :=
  h.forEach fun _ h => h.stopWriteNow

/-! ### The cam unit (R323 to R335) -/

theorem memoryWf.modCam (h : memoryWf s) {t f} : memoryWf (modCam t f s) :=
  h.frame

theorem memoryWf.camEvt (h : memoryWf s) {f t} : memoryWf (camEvt f t s) := h.evt

theorem memoryWf.camStep (h : memoryWf s) {r} : memoryWf (camStep r s) := by
  unfold Machine.camStep
  refine .andThen (.onlyIf ?_ (·.modCam)) fun h => .ite h (.ite h.modCam h.modCam.camEvt)
  split
  · exact .ite h.modCam h.modCam
  · exact h.modCam
  · exact h

theorem memoryWf.commitStep (h : memoryWf s) : memoryWf (commitStep s) := by
  unfold Machine.commitStep
  split
  · exact h
  · exact h.onlyIf (·.frame.modCam.camEvt)

theorem memoryWf.jumpStep (h : memoryWf s) {c} : memoryWf (jumpStep c s) := by
  unfold Machine.jumpStep
  split
  · exact h
  · exact h.modCar

theorem memoryWf.camPhase (h : memoryWf s) : memoryWf (camPhase s) := by
  unfold Machine.camPhase
  extract_lets
  split
  · exact (h.forEach (fun _ h => h.jumpStep)).commitStep.forEach (fun _ h => h.camStep)
  · exact (h.forEach (fun _ h => h.jumpStep)).commitStep

theorem memoryWf.camCommitEff (h : memoryWf s) {v} : memoryWf (camCommitEff v s) := by
  unfold Machine.camCommitEff
  refine .ite h (.ite h.camEvt ?_)
  split
  · exact h.frame
  · exact .ite h.camEvt (.ite h.frame h.frame.camEvt)

theorem memoryWf.camEngageEff (h : memoryWf s) {t on} : memoryWf (camEngageEff t on s) := by
  unfold Machine.camEngageEff
  refine .ite ?_ h.modCam
  split
  · exact h.camEvt
  · exact .ite h.camEvt h.modCam

theorem memoryWf.camTimeResetEff (h : memoryWf s) {t} : memoryWf (camTimeResetEff t s) := h.modCam

theorem memoryWf.camPtStep (h : memoryWf s) : memoryWf (camPtStep s) := h.onlyIf (·.setF)

theorem memoryWf.camPtWrite (h : memoryWf s) {v} : memoryWf (camPtWrite v s) := h.modCam.camPtStep

/-! ### Leaving STARTING -/

theorem memoryWf.modStrand (h : memoryWf s) {g f} : memoryWf (modStrand g f s) := h.frame

theorem memoryWf.carReadyCheck (h : memoryWf s) {c} : memoryWf (carReadyCheck c s) := h.ofCalm (calm_carReadyCheck _ _)

theorem memoryWf.carGradeCheck (h : memoryWf s) {why c} : memoryWf (carGradeCheck why c s) :=
  h.ofCalm (calm_carGradeCheck _ _ _)

theorem memoryWf.strandReadyCheck (h : memoryWf s) {g} : memoryWf (strandReadyCheck g s) :=
  h.ofCalm (calm_strandReadyCheck _ _)

theorem memoryWf.acquireLoops (h : memoryWf s) {c} : memoryWf (acquireLoops c s) := by
  unfold Machine.acquireLoops
  refine h.forEach fun _ h => ?_
  split
  · exact h.askEnable
  · exact h

theorem memoryWf.startHoming (h : memoryWf s) {c} : memoryWf (startHoming c s) := h.bump.frame.modCar

theorem memoryWf.acquireCar (h : memoryWf s) {c} : memoryWf (acquireCar c s) :=
  .acquireLoops (.onlyIf (.ite h h.setLen) (·.startHoming))

theorem memoryWf.followCheck (h : memoryWf s) {c} : memoryWf (followCheck c s) :=
  .ite h.modCar (h.onlyIf (·.modCar))

theorem memoryWf.carriageLost (h : memoryWf s) {c} : memoryWf (carriageLost c s) :=
  (h.stopWriteNow.onlyIf (fun h => h.change.forEach (fun _ h => h.onlyIf (·.change)))).modCar.onlyIf (·.acquireCar)

theorem memoryWf.carriageDark (h : memoryWf s) {c} : memoryWf (carriageDark c s) :=
  (h.disableSlots.forEach (fun _ h => h.modDac)).setGate.setLen

theorem memoryWf.carriageFault (h : memoryWf s) {c why} : memoryWf (carriageFault c why s) :=
  h.stopWriteNow.change.carriageDark

/-! ### The loop engine at work (R246 to R280) -/

theorem memoryWf.holdStep (h : memoryWf s) {l} : memoryWf (holdStep l s) :=
  .ite h (.ite (.ite h.modSlot h.modSlot.bump.lpeEvt) h.modSlot)

theorem memoryWf.ageStep (h : memoryWf s) {k} : memoryWf (ageStep k s) := h.modSlot

theorem memoryWf.rampStep (h : memoryWf s) {l} : memoryWf (rampStep l s) := h.modSlot

theorem memoryWf.swapStep (h : memoryWf s) {k} : memoryWf (swapStep k s) :=
  h.onlyIf (·.modSlot.lpeEvt)

theorem memoryWf.enableStep (h : memoryWf s) {l} : memoryWf (enableStep l s) := by
  unfold Machine.enableStep
  split
  · exact h.modSlot.disableSlot
  · exact h.enableNow
  · exact h

theorem memoryWf.rmsStep (h : memoryWf s) {k e0} : memoryWf (rmsStep k e0 s) := h.modSlot

theorem memoryWf.offtrackStep (h : memoryWf s) {l e0} : memoryWf (offtrackStep l e0 s) := by
  unfold Machine.offtrackStep
  dsimp only
  split
  · exact h.onlyIf (·.setGate.bump.evt.abandonPass)
  · exact h

theorem memoryWf.lockStep (h : memoryWf s) {k e0 masked} : memoryWf (lockStep k e0 masked s) :=
  h.modSlot

theorem memoryWf.computeStep (h : memoryWf s) {l f mirrorBad} : memoryWf (computeStep l f mirrorBad s) := by
  unfold Machine.computeStep
  extract_lets
  split
  · exact h.modSlot
  · exact h.lpeEvt.modSlot
  · exact ((h.modSlot.bumpBy.onlyIf (·.lpeEvt)).rmsStep.lockStep.onlyIf (·.modSlot)).offtrackStep

theorem memoryWf.dueStep (h : memoryWf s) {l f mirrorBad} : memoryWf (dueStep l f mirrorBad s) :=
  (h.modSlot.onlyIf (·.modSlot)).swapStep.enableStep.rampStep.onlyIf (·.computeStep)

theorem memoryWf.coreRun (h : memoryWf s) {forced parity cyc full ls} :
    memoryWf (coreRun forced parity cyc full ls s) := by
  induction ls generalizing cyc full s with
  | nil => exact h
  | cons l ls ih => exact ih h.dueStep

theorem memoryWf.traceLatch (h : memoryWf s) {volts} : memoryWf (traceLatch volts s) := by
  unfold Machine.traceLatch
  split
  · exact h
  · exact h.frame

theorem memoryWf.basePeriodEff (h : memoryWf s) {volts parity} : memoryWf (basePeriodEff volts parity s) :=
  .ite h ((((h.frame.traceLatch.camPhase.forEach (fun _ h => h.holdStep.ageStep)).onlyIf (·.setF)).forEach
    (fun _ h => h.coreRun)).forEach (fun _ h => h.followCheck.carReadyCheck))

theorem memoryWf.overrunEff (h : memoryWf s) {k} : memoryWf (overrunEff k s) :=
  h.onlyIf (·.modSlot.bump.lpeEvt)

theorem memoryWf.outputWriteEff (h : memoryWf s) : memoryWf (outputWriteEff s) := by
  unfold Machine.outputWriteEff
  refine h.forEach fun {s} l h => ?_
  extract_lets x s₁
  have h₁ : memoryWf s₁ := .ite (h.modSlot.forEach fun _ h => .ite h h.writeDest) h.modSlot
  split
  · exact h₁.modSlot.forEach fun _ h => h.writeDest
  · exact h₁

theorem memoryWf.conversionEff (h : memoryWf s) {m codes} : memoryWf (conversionEff m codes s) :=
  .ite (h.forEach fun _ h => h.onlyIf (·.evt))
    (.ite h.frame h.frame)

theorem memoryWf.traceEdgeEff (h : memoryWf s) {n cycles dirHigh} :
    memoryWf (traceEdgeEff n cycles dirHigh s) :=
  h.frame

theorem memoryWf.traceLostEff (h : memoryWf s) {n} : memoryWf (traceLostEff n s) := by
  unfold Machine.traceLostEff
  extract_lets _ s₁
  have h₁ : memoryWf s₁ := h.frame
  split
  · exact h₁
  · exact h₁.forEach fun _ h => h.onlyIf (·.lpeEvt)

theorem memoryWf.loopClrFaultEff (h : memoryWf s) {k} : memoryWf (loopClrFaultEff k s) := by
  unfold Machine.loopClrFaultEff
  split
  · exact h.onlyIf (·.modSlot)
  · exact h

theorem memoryWf.loopFollowEff (h : memoryWf s) {k on} : memoryWf (loopFollowEff k on s) := by
  unfold Machine.loopFollowEff
  split
  · exact h.onlyIf (·.setFlag)
  · exact h

theorem memoryWf.loopEnableEff (h : memoryWf s) {k on} : memoryWf (loopEnableEff k on s) :=
  h.onlyIf (·.askEnable)

theorem memoryWf.loopSwapEff (h : memoryWf s) {k} : memoryWf (loopSwapEff k s) := h.modSlot

theorem memoryWf.loopParkEff (h : memoryWf s) {k} : memoryWf (loopParkEff k s) := h.modSlot

theorem memoryWf.coefStep (h : memoryWf s) {k} : memoryWf (coefStep k s) := h.onlyIf (·.setF)

theorem memoryWf.coefWrite (h : memoryWf s) {k v} : memoryWf (coefWrite k v s) :=
  .coefStep (.ite h h.modSlot)

theorem memoryWf.loadLoops (h : memoryWf s) {i} : memoryWf (loadLoops i s) :=
  .forEach (.forEach h.frame fun _ h => h.modSlot.setInt.setInt.setInt.setFlag)
    fun _ h => h.setReg.onlyIf (·.setF.evt)

/-! ### The spindle drive (chapter 09) -/

theorem memoryWf.currentTarget (h : memoryWf s) {v} : memoryWf (currentTarget v s) := by
  unfold Machine.currentTarget
  split
  · exact h.setInt
  · exact h

theorem memoryWf.enableCurrent (h : memoryWf s) : memoryWf (enableCurrent s) := by
  unfold Machine.enableCurrent
  split
  · exact h.askEnable
  · exact h

theorem memoryWf.enableSpeed (h : memoryWf s) : memoryWf (enableSpeed s) := by
  unfold Machine.enableSpeed
  split
  · exact h.askEnable
  · exact h

theorem memoryWf.setV (h : memoryWf s) {vd vq} : memoryWf (setV vd vq s) := h.frame

theorem memoryWf.spnEvt (h : memoryWf s) {f} : memoryWf (spnEvt f s) := h.evt

theorem memoryWf.setGates (h : memoryWf s) {on} : memoryWf (setGates on s) := h.modSpn.frame

theorem memoryWf.setPhase (h : memoryWf s) {ph} : memoryWf (setPhase ph s) := h.modSpn

theorem memoryWf.spnUnit (h : memoryWf s) {tgt why} : memoryWf (spnUnit tgt why s) := .ite h h.change

theorem memoryWf.spnFault (h : memoryWf s) {why} : memoryWf (spnFault why s) :=
  h.setGates.disableSpindleLoops.setPhase.spnUnit

theorem memoryWf.startBraking (h : memoryWf s) : memoryWf (startBraking s) :=
  h.disableSpindleLoops.setGates.modSpn.bump

theorem memoryWf.enterBrake (h : memoryWf s) : memoryWf (enterBrake s) := h.setPhase.startBraking

theorem memoryWf.enterAlign (h : memoryWf s) : memoryWf (enterAlign s) :=
  h.setGates.disableSpindleLoops.setPhase.modSpn

theorem memoryWf.enterCoast (h : memoryWf s) : memoryWf (enterCoast s) :=
  h.setGates.disableSpindleLoops.modSpn.setPhase

theorem memoryWf.spnStartEff (h : memoryWf s) : memoryWf (spnStartEff s) :=
  h.onlyIf (·.modSpn.bump.enterCoast)

theorem memoryWf.spnStopped (h : memoryWf s) : memoryWf (spnStopped s) :=
  h.setGates.disableSpindleLoops.setPhase

theorem memoryWf.spnStopEff (h : memoryWf s) {coast} : memoryWf (spnStopEff coast s) := by
  unfold Machine.spnStopEff
  refine .ite h (.ite h.spnStopped (.ite (.modSpn (.currentTarget ?_)) h.setPhase.startBraking))
  split
  · exact h.setPhase.disableSlot
  · exact h.setPhase

theorem memoryWf.rotorLossResponse (h : memoryWf s) {why} : memoryWf (rotorLossResponse why s) := by
  unfold Machine.rotorLossResponse
  exact h.spnEvt.bump.disableSpindleLoops.setGates.stopAllNow.setPhase.modSpn.spnUnit

theorem memoryWf.arbitrate (h : memoryWf s) : memoryWf (arbitrate s) := by
  unfold Machine.arbitrate
  split
  · exact h
  · extract_lets
    split
    · exact h.modSpn.setInt
    · exact h.modSpn

theorem memoryWf.enterRun (h : memoryWf s) : memoryWf (enterRun s) := h.setPhase.modSpn.enableSpeed

theorem memoryWf.enterRunup (h : memoryWf s) {fromCatch} : memoryWf (enterRunup fromCatch s) :=
  .currentTarget (.modSpn (.ite h.setPhase h.setPhase.setV.enableCurrent))

theorem memoryWf.pwmTopEff (h : memoryWf s) {pinMv} : memoryWf (pwmTopEff pinMv s) :=
  .ite h ((h.onlyIf (·.setGates)).andThen fun h => .ite h (.ite h.modSpn h.modSpn))

theorem memoryWf.observer (h : memoryWf s) {iA iB} : memoryWf (observer iA iB s) := h.modSpn

theorem memoryWf.injector (h : memoryWf s) : memoryWf (injector s) := h.modSpn

theorem memoryWf.countRevs (h : memoryWf s) {d} : memoryWf (countRevs d s) :=
  .ite (h.modSpn.onlyIf (·.set64)) h.modSpn

theorem memoryWf.blendStep (h : memoryWf s) : memoryWf (blendStep s) :=
  .ite h.modSpn.countRevs.modSpn (h.modSpn.countRevs.onlyIf (·.modSpn))

theorem memoryWf.detectors (h : memoryWf s) : memoryWf (detectors s) := h.modSpn

theorem memoryWf.brakeCentre (h : memoryWf s) : memoryWf (brakeCentre s) := h.modSpn

theorem memoryWf.overcurrent (h : memoryWf s) : memoryWf (overcurrent s) :=
  .ite h (.ite h.spnFault (h.onlyIf (fun h => h.setGates.spnEvt.bump.andThen fun h => .ite h.modSpn.spnFault
    h.modSpn.rotorLossResponse)))

theorem memoryWf.regenEnd (h : memoryWf s) : memoryWf (regenEnd s) := h.onlyIf (·.startBraking)

theorem memoryWf.pwmCentreEff (h : memoryWf s) {cu cv cw} : memoryWf (pwmCentreEff cu cv cw s) :=
  .ite h (((h.modSpn.onlyIf (·.modSpn)).onlyIf (·.brakeCentre)).onlyIf
    (fun h => (h.observer.onlyIf (·.injector)).blendStep.detectors.regenEnd)).overcurrent

theorem memoryWf.edgeEff (h : memoryWf s) {ph rising} : memoryWf (edgeEff ph rising s) := by
  unfold Machine.edgeEff
  extract_lets
  split
  · exact h.modSpn
  · exact h.modSpn
  · exact .ite h h.modSpn
  · exact h

theorem memoryWf.coastDoneEff (h : memoryWf s) : memoryWf (coastDoneEff s) :=
  .ite h (.ite h.enterAlign (.ite h.enterBrake (.ite h.modSpn.setPhase (.ite h.enterBrake h.enterAlign))))

theorem memoryWf.catchMadeEff (h : memoryWf s) : memoryWf (catchMadeEff s) :=
  .ite h (h.modSpn.setV.currentTarget.enableCurrent.andThen fun h => .ite h.enterRun
    (.ite h.bump.enterRun h.bump.enterRunup))

theorem memoryWf.catchTimeoutEff (h : memoryWf s) : memoryWf (catchTimeoutEff s) :=
  h.onlyIf (·.enterBrake)

theorem memoryWf.brakeDoneEff (h : memoryWf s) : memoryWf (brakeDoneEff s) := h.onlyIf (·.enterAlign)

theorem memoryWf.brakeTimeoutEff (h : memoryWf s) : memoryWf (brakeTimeoutEff s) :=
  h.onlyIf (·.spnEvt.spnFault)

theorem memoryWf.alignDoneEff (h : memoryWf s) {ampD ampQ peakP peakN} :
    memoryWf (alignDoneEff ampD ampQ peakP peakN s) := .ite h (.ite h.spnEvt.spnFault h.modSpn.enterRunup)

theorem memoryWf.runupDoneEff (h : memoryWf s) : memoryWf (runupDoneEff s) := h.onlyIf (·.enterRun)

theorem memoryWf.runupTimeoutEff (h : memoryWf s) : memoryWf (runupTimeoutEff s) :=
  h.onlyIf (·.spnEvt.spnFault)

theorem memoryWf.spnReady (h : memoryWf s) : memoryWf (spnReady s) :=
  h.modSpn.spnUnit.forEach fun _ h => h.onlyIf (·.acquireCar)

theorem memoryWf.spindleReadyEff (h : memoryWf s) : memoryWf (spindleReadyEff s) :=
  h.onlyIf (·.spnReady)

theorem memoryWf.lockedRotorEff (h : memoryWf s) : memoryWf (lockedRotorEff s) :=
  h.onlyIf fun h => h.spnEvt.bump.andThen fun h => .ite h.modSpn.setGates.disableSpindleLoops.setPhase.spnUnit
    h.modSpn.spnFault

theorem memoryWf.lockedWaitDoneEff (h : memoryWf s) : memoryWf (lockedWaitDoneEff s) :=
  h.onlyIf (·.modSpn.enterCoast)

theorem memoryWf.rotorLossEff (h : memoryWf s) : memoryWf (rotorLossEff s) :=
  h.onlyIf (·.rotorLossResponse)

theorem memoryWf.recatchOkEff (h : memoryWf s) : memoryWf (recatchOkEff s) :=
  h.onlyIf (·.spnReady.spnEvt.bump)

theorem memoryWf.recatchTimeoutEff (h : memoryWf s) : memoryWf (recatchTimeoutEff s) :=
  h.onlyIf (·.spnEvt.spnFault)

theorem memoryWf.stoppingDoneEff (h : memoryWf s) : memoryWf (stoppingDoneEff s) :=
  h.onlyIf fun h => h.spnStopped.onlyIf (·.spnStartEff)

theorem memoryWf.spnClrFaultEff (h : memoryWf s) : memoryWf (spnClrFaultEff s) :=
  h.onlyIf (·.modSpn.setPhase)

theorem memoryWf.spnForceLossEff (h : memoryWf s) : memoryWf (spnForceLossEff s) := h.modSpn

theorem memoryWf.spnTrip (h : memoryWf s) : memoryWf (spnTrip s) :=
  h.setGates.disableSpindleLoops.setPhase.modSpn

theorem memoryWf.spnDisown (h : memoryWf s) : memoryWf (spnDisown s) := .ite h.setGates h.spnStopped

theorem memoryWf.spnPowerFail (h : memoryWf s) : memoryWf (spnPowerFail s) :=
  .ite h.setGates h.spnStopped

theorem memoryWf.rateMatchEff (h : memoryWf s) {d c ahead} : memoryWf (rateMatchEff d c ahead s) :=
  .ite h ((h.onlyIf (·.useFree)).modSpn.onlyIf (·.bump)).arbitrate

theorem memoryWf.spindleLoopDown (h : memoryWf s) : memoryWf (spindleLoopDown s) :=
  h.onlyIf (·.rotorLossResponse)

theorem memoryWf.loopLostEff (h : memoryWf s) {k} : memoryWf (loopLostEff k s) := by
  unfold Machine.loopLostEff
  refine .ite h ?_
  split
  · exact h
  · exact h.leaveActive.lpeEvt.andThen fun h => .ite h.carriageLost.followCheck h.spindleLoopDown

theorem memoryWf.loopFaultEff (h : memoryWf s) {k} : memoryWf (loopFaultEff k s) := by
  unfold Machine.loopFaultEff
  refine .ite h ?_
  split
  · exact h
  · exact h.leaveActive.lpeEvt.andThen fun h => .ite h.carriageFault.followCheck h.spindleLoopDown

theorem memoryWf.reacquireTimeoutEff (h : memoryWf s) {c} : memoryWf (reacquireTimeoutEff c s) :=
  .ite h.modCar.carriageFault h.modCar

/-! ### The sleds (chapter 10) -/

theorem memoryWf.crgEvt (h : memoryWf s) {f c} : memoryWf (crgEvt f c s) := h.evtAt

theorem memoryWf.crgBump (h : memoryWf s) {c i} : memoryWf (crgBump c i s) := h.bump

theorem memoryWf.holdMasks (h : memoryWf s) {c} : memoryWf (holdMasks c s) := by
  unfold Machine.holdMasks
  extract_lets s₁
  have h₁ : memoryWf s₁ := by
    unfold s₁
    split
    · exact h.engineMask
    · exact h
  split
  · exact h₁.engineMask
  · exact h₁

theorem memoryWf.releaseMasks (h : memoryWf s) {c} : memoryWf (releaseMasks c s) := by
  unfold Machine.releaseMasks
  extract_lets s₁
  have h₁ : memoryWf s₁ := by
    unfold s₁
    split
    · exact h.engineMask
    · exact h
  split
  · exact h₁.engineMask
  · exact h₁

theorem memoryWf.sledLoop (h : memoryWf s) {c on} : memoryWf (sledLoop c on s) := by
  unfold Machine.sledLoop
  split
  · exact .ite h.askEnable h.modSlot.disableSlot
  · exact h

theorem memoryWf.sledOff (h : memoryWf s) {c} : memoryWf (sledOff c s) :=
  (h.frame.onlyIf (·.crgEvt.crgBump)).releaseMasks.modCar

theorem memoryWf.coilFault (h : memoryWf s) {f c} : memoryWf (coilFault f c s) :=
  h.frame.modCar.crgEvt.releaseMasks.change

theorem memoryWf.sledSampleEff (h : memoryWf s) {c code1 code2} : memoryWf (sledSampleEff c code1 code2 s) :=
  .ite h (((h.modCar.onlyIf (·.crgBump)).onlyIf (·.crgBump)).andThen fun h => .ite h.coilFault
    (h.onlyIf (·.coilFault)))

theorem memoryWf.modeCheck (h : memoryWf s) {c} : memoryWf (modeCheck c s) :=
  .ite h (.ite (h.onlyIf (·.modCar.crgBump)) (.ite h.modCar.crgBump (h.onlyIf (·.modCar.crgBump))))

theorem memoryWf.stepOne (h : memoryWf s) {c} : memoryWf (stepOne c s) :=
  .ite h.modCar h.modCar.modeCheck

theorem memoryWf.loadTimer (h : memoryWf s) {c} : memoryWf (loadTimer c s) := h.modCar

theorem memoryWf.stepTimerEff (h : memoryWf s) {c} : memoryWf (stepTimerEff c s) :=
  h.onlyIf (·.stepOne.loadTimer)

theorem memoryWf.startLayerJump (h : memoryWf s) {c l l'} : memoryWf (startLayerJump c l l' s) :=
  .ite h.modCar (.ite h.modCar.crgBump h.modCar)

theorem memoryWf.enterSeek (h : memoryWf s) {c k} : memoryWf (enterSeek c k s) :=
  h.modWcar.holdMasks.sledLoop.modCar.startLayerJump

theorem memoryWf.seekCheck (h : memoryWf s) {c} : memoryWf (seekCheck c s) := by
  unfold Machine.seekCheck
  extract_lets
  split
  · exact h
  · exact .ite h.enterSeek (h.onlyIf (·.startHoming))

theorem memoryWf.seekEff (h : memoryWf s) {c lf turn} : memoryWf (seekEff c lf turn s) := by
  unfold Machine.seekEff
  refine .ite h ?_
  extract_lets k m
  split
  · exact h
  · exact h.enterSeek
  · exact h.enterSeek
  · exact h.enterSeek
  · exact h.enterSeek
  · exact h.modCar.seekCheck

theorem memoryWf.seekFail (h : memoryWf s) {c} : memoryWf (seekFail c s) :=
  h.crgEvt.crgBump.releaseMasks.modCar.carriageLost

theorem memoryWf.seekRetry (h : memoryWf s) {c k foundLf dTurn} :
    memoryWf (seekRetry c k foundLf dTurn s) := by
  unfold Machine.seekRetry
  refine .ite h.seekFail ?_
  split
  · exact h.crgBump.modCar.startLayerJump
  · exact h.crgBump.modCar

theorem memoryWf.seekRest (h : memoryWf s) {c} : memoryWf (seekRest c s) := by
  unfold Machine.seekRest
  extract_lets
  split
  · exact h.onlyIf (·.modCar)
  · exact h

theorem memoryWf.settleDoneEff (h : memoryWf s) {c} : memoryWf (settleDoneEff c s) :=
  h.onlyIf (·.modCar)

theorem memoryWf.captureEff (h : memoryWf s) {c} : memoryWf (captureEff c s) := by
  unfold Machine.captureEff
  extract_lets
  split
  · exact h.modCar.setF.andThen fun h => .ite (h.crgEvt.crgBump.andThen fun h => .ite
      h.crgBump.releaseMasks.modCar.seekCheck h.seekFail)
        (.ite h.seekRetry (.ite h.seekRetry h.releaseMasks.modCar.sledLoop))
  · exact h

theorem memoryWf.captureTimeoutEff (h : memoryWf s) {c} : memoryWf (captureTimeoutEff c s) := by
  unfold Machine.captureTimeoutEff
  extract_lets
  split
  · exact h.seekRetry
  · exact h

theorem memoryWf.fineDoneEff (h : memoryWf s) {c} : memoryWf (fineDoneEff c s) := by
  unfold Machine.fineDoneEff
  extract_lets
  split
  · exact .ite h h.setReg.crgEvt.crgBump.modCar.carReadyCheck.seekCheck
  · exact h

theorem memoryWf.layerJumpDoneEff (h : memoryWf s) {c} : memoryWf (layerJumpDoneEff c s) := by
  unfold Machine.layerJumpDoneEff
  split
  · exact h.onlyIf (·.modCar.seekRest)
  · exact h

theorem memoryWf.startTurnJump (h : memoryWf s) {c} : memoryWf (startTurnJump c s) := by
  unfold Machine.startTurnJump
  refine .ite h (.crgBump (.modCar ?_))
  split
  · exact h.engineMask
  · exact h

theorem memoryWf.turnJumpDoneEff (h : memoryWf s) {c} : memoryWf (turnJumpDoneEff c s) := by
  unfold Machine.turnJumpDoneEff
  split
  · refine .ite (.modCar ?_) h
    split
    · exact h.engineMask
    · exact h
  · exact h

theorem memoryWf.homingFailEff (h : memoryWf s) {c} : memoryWf (homingFailEff c s) :=
  h.onlyIf (·.crgEvt.sledOff.modCar.change)

theorem memoryWf.homeLatch (h : memoryWf s) {c} : memoryWf (homeLatch c s) :=
  h.setReg.modCar.seekCheck

theorem memoryWf.homeEdgeEff (h : memoryWf s) {c active} : memoryWf (homeEdgeEff c active s) :=
  h.modCar.andThen fun h => .ite (.ite h.modCar (.ite h.modCar (h.onlyIf (·.homeLatch))))
    (h.onlyIf (·.crgEvt.crgBump.releaseMasks.modCar.seekCheck))

theorem memoryWf.homingRest (h : memoryWf s) {c} : memoryWf (homingRest c s) :=
  h.onlyIf fun h => .ite h.modCar (h.onlyIf (·.modCar))

theorem memoryWf.profileTickEff (h : memoryWf s) {c} : memoryWf (profileTickEff c s) :=
  .ite h (((h.modCar.onlyIf (·.modCar.crgEvt.crgBump)).onlyIf (·.modCar)).andThen fun h => .seekCheck
    (.seekRest (.homingRest (.onlyIf (.onlyIf (.ite h.stepOne.modCar.loadTimer (h.onlyIf (·.loadTimer)))
      (·.modCar.crgBump)) (·.modCar)))))

theorem memoryWf.crgCmdEff (h : memoryWf s) {c act} (hact : ∀ {s}, memoryWf s → memoryWf (act s)) :
    memoryWf (crgCmdEff c act s) := .ite (hact h.setF) h.setF.crgEvt

theorem memoryWf.homeCmd (h : memoryWf s) {c} : memoryWf (homeCmd c s) :=
  .ite h h.releaseMasks.modCar.startHoming

theorem memoryWf.moveCmd (h : memoryWf s) {c} : memoryWf (moveCmd c s) := by
  unfold Machine.moveCmd
  extract_lets
  split
  · exact h.onlyIf (·.modCar.startHoming)
  · exact h.modCar
  · exact h.modCar
  · exact h

theorem memoryWf.crgClrFaultEff (h : memoryWf s) {c} : memoryWf (crgClrFaultEff c s) :=
  h.onlyIf (·.modCar)

theorem memoryWf.crgForceSlipEff (h : memoryWf s) {c} : memoryWf (crgForceSlipEff c s) :=
  h.modCar.setF

/-! ### The strand channels (chapter 04) -/

theorem memoryWf.chEvt (h : memoryWf s) {f g} : memoryWf (chEvt f g s) := h.evtAt

theorem memoryWf.chBump (h : memoryWf s) {g i n} : memoryWf (chBump g i n s) := h.bumpBy

theorem memoryWf.seedFetchEff (h : memoryWf s) {c lf zone} : memoryWf (seedFetchEff c lf zone s) :=
  h.onlyIf (·.frame)

theorem memoryWf.seedReadyEff (h : memoryWf s) {c} : memoryWf (seedReadyEff c s) := by
  unfold Machine.seedReadyEff
  split
  · exact h.frame
  · exact h

theorem memoryWf.writeRecord (h : memoryWf s) {g p ps cands relaxed noSync} :
    memoryWf (writeRecord g p ps cands relaxed noSync s) := by
  unfold Machine.writeRecord
  extract_lets
  split
  · exact h
  · exact h.modStrand

theorem memoryWf.slotRegs (h : memoryWf s) {g p} : memoryWf (slotRegs g p s) := by
  unfold Machine.slotRegs
  extract_lets
  split
  · exact h
  · exact h.setReg.setReg.setReg

theorem memoryWf.finishSlot (h : memoryWf s) {g p} : memoryWf (finishSlot g p s) :=
  h.onlyIf (·.setF.writeRecord.slotRegs)

theorem memoryWf.slotStartEff (h : memoryWf s) {g lf zone slot pre prev} :
    memoryWf (slotStartEff g lf zone slot pre prev s) := by
  unfold Machine.slotStartEff
  extract_lets +onlyGivenNames s₁ old s₂ s₃
  have h₃ : memoryWf s₃ := (h.finishSlot.onlyIf (·.setF)).onlyIf (·.setF)
  refine .ite h₃.modStrand ?_
  dsimp only
  split
  · exact h₃.modStrand.chEvt
  · exact (h₃.modStrand.setReg.setF.onlyIf (·.chBump)).modStrand

theorem memoryWf.timingLostEff (h : memoryWf s) {g pos} : memoryWf (timingLostEff g pos s) :=
  h.onlyIf (·.modStrand.chBump.chEvt)

theorem memoryWf.segmentEndEff (h : memoryWf s) {g} : memoryWf (segmentEndEff g s) := h.modStrand

theorem memoryWf.defectStartEff (h : memoryWf s) {g pos} : memoryWf (defectStartEff g pos s) :=
  h.onlyIf (·.modStrand)

theorem memoryWf.defectEndEff (h : memoryWf s) {g pos} : memoryWf (defectEndEff g pos s) :=
  h.onlyIf (·.modStrand)

theorem memoryWf.revEnd (h : memoryWf s) {g} : memoryWf (revEnd g s) := h.modStrand

theorem memoryWf.plyWedge (h : memoryWf s) {c w ivl} : memoryWf (plyWedge c w ivl s) :=
  h.modCar.onlyIf fun h => (h.modCar.frame.forEach (fun _ h => h.revEnd)).onlyIf (·.set64)

theorem memoryWf.chevronFresh (h : memoryWf s) {c} : memoryWf (chevronFresh c s) := by
  unfold Machine.chevronFresh
  split
  · exact h
  · exact h.forEach fun _ h => h.modSlot

theorem memoryWf.plyPosition (h : memoryWf s) {c} : memoryWf (plyPosition c s) :=
  .ite h.modCar.chevronFresh h.modCar

theorem memoryWf.wedgeMissed (h : memoryWf s) {g} : memoryWf (wedgeMissed g s) := h.modStrand.chBump

theorem memoryWf.wedgeFound (h : memoryWf s) {g m} : memoryWf (wedgeFound g m s) := by
  unfold Machine.wedgeFound
  extract_lets c st leg s₁ s₂ s₃ good s₄ pos
  have h₄ : memoryWf s₄ := h.setReg.setReg.setReg.modCar
  clear_value pos
  split
  · exact h₄.setReg.modCar.modStrand
  · exact h₄.setF.modStrand

theorem memoryWf.wedgeEff (h : memoryWf s) {g w ivl m} : memoryWf (wedgeEff g w ivl m s) := by
  unfold Machine.wedgeEff
  refine .ite h (.strandReadyCheck (.plyPosition ?_))
  split
  · exact .wedgeFound (.modStrand (.ite h h.plyWedge))
  · exact .wedgeMissed (.modStrand (.ite h h.plyWedge))

theorem memoryWf.wedgeMissRevEff (h : memoryWf s) {g} : memoryWf (wedgeMissRevEff g s) :=
  .ite h (h.chEvt.modStrand.onlyIf (·.change.evt.carGradeCheck))

theorem memoryWf.pinRecord (h : memoryWf s) {g lf zone slot} : memoryWf (pinRecord g lf zone slot s).2 := by
  unfold Machine.pinRecord
  extract_lets
  split
  · exact h
  · exact .iteSnd h (.iteSnd h.chBump.chEvt h.modStrand)

theorem memoryWf.unpinSlot (h : memoryWf s) {g lf zone slot} : memoryWf (unpinSlot g lf zone slot s) :=
  h.forEach fun _ h => h.onlyIf (·.modStrand)

theorem memoryWf.pinDelivery (h : memoryWf s) {g lf zone slot} : memoryWf (pinDelivery g lf zone slot s).2 :=
  (h.pinRecord.onlyIf (·.pinRecord)).onlyIf (·.pinRecord)

theorem memoryWf.lastRegs (h : memoryWf s) {g p ps cands relaxed noSync erased mse} :
    memoryWf (lastRegs g p ps cands relaxed noSync erased mse s) :=
  .ite h ((((h.forEach (fun _ h => h.setReg)).forEach (fun _ h => h.setReg)).forEach
    (fun _ h => h.setReg)).setReg.setReg.forEach (fun _ h => h.setReg)).setReg

theorem memoryWf.deliver (h : memoryWf s) {g p} : memoryWf (deliver g p s).2 :=
  (h.setF.writeRecord.slotRegs.lastRegs.chBump.chBump.onlyIf (·.chBump.chEvt)).onlyIf (·.chBump.chEvt)

theorem memoryWf.forceMissEff (h : memoryWf s) {g} : memoryWf (forceMissEff g s) := h.modStrand.setF

theorem memoryWf.forceDefectEff (h : memoryWf s) {g} : memoryWf (forceDefectEff g s) :=
  h.modStrand.setF

/-! ### Ordering, atomicity and durability (chapter 12) -/

theorem memoryWf.gcHeld (h : memoryWf s) : memoryWf (gcHeld s) := h.frame

theorem memoryWf.passPnr (h : memoryWf s) {ids} : memoryWf (passPnr ids s) :=
  h.forEach fun _ h => h.onlyIf (·.modCmd)

theorem memoryWf.noEngineEvt (h : memoryWf s) : memoryWf (noEngineEvt s) := h.evt

theorem memoryWf.settleOne (h : memoryWf s) {e} : memoryWf (settleOne e s) := by
  unfold Machine.settleOne
  refine .ite ?_ (.ite (.ite h ?_) h)
  · split
    · exact h
    · refine .ite h.endCmd ?_
      split
      · exact h.endCmd
      · exact h.onlyIf (·.endCmd.noEngineEvt)
  · split
    · exact h.endCmd
    · exact h

theorem memoryWf.settle (h : memoryWf s) : memoryWf (settle s) :=
  (h.forEach (fun _ h => h.settleOne)).gcHeld

theorem memoryWf.commandRunEff (h : memoryWf s) {t} : memoryWf (commandRunEff t s) := by
  unfold Machine.commandRunEff
  split
  · exact h
  · exact .ite h (.ite h.modCmd.passPnr.bump h.modCmd)

theorem memoryWf.writeSegs (h : memoryWf s) {fn segs d} : memoryWf (writeSegs fn segs d s) := by
  induction segs generalizing d s with
  | nil => exact h
  | cons seg segs ih => exact .ite h (ih h.emit)

theorem memoryWf.sendData (h : memoryWf s) {t c d} : memoryWf (sendData t c d s) :=
  .ite h.emit h.writeSegs

theorem memoryWf.readEff (h : memoryWf s) {t} : memoryWf (readEff t s) := by
  unfold Machine.readEff
  split
  · exact h
  · refine .ite h (.ite h ?_)
    split
    · exact h.endCmd.gcHeld
    · exact h.sendData.modCmd.endCmd.gcHeld

theorem memoryWf.nopEff (h : memoryWf s) {t} : memoryWf (nopEff t s) := by
  unfold Machine.nopEff
  split
  · exact h.onlyIf (·.endCmd)
  · exact h

theorem memoryWf.startWait (h : memoryWf s) {op upTo t} : memoryWf (startWait op upTo t s) := by
  unfold Machine.startWait
  split
  · exact h.onlyIf (·.modCmd.settle)
  · exact h

theorem memoryWf.leaveLadders (h : memoryWf s) {t} : memoryWf (leaveLadders t s) :=
  h.frame.forEach fun _ h => h.unpinSlot

theorem memoryWf.dropWrite (h : memoryWf s) {seq} : memoryWf (dropWrite seq s) := h.frame

theorem memoryWf.abortTarget (h : memoryWf s) {t} : memoryWf (abortTarget t s).2 := by
  unfold Machine.abortTarget
  split
  · exact h
  · exact .iteSnd h.bump (.iteSnd h.bump.evt (h.endCmd.onlyIf (·.dropWrite)).leaveLadders.bump.evt.settle)

theorem memoryWf.abortEff (h : memoryWf s) {t} : memoryWf (abortEff t s) := by
  unfold Machine.abortEff
  split
  · exact h
  · refine .ite h (.ite h.endCmd ?_)
    split
    · exact .ite h.endCmd h.abortTarget.endCmd
    · exact .ite h.bump.endCmd h.endCmd

theorem memoryWf.lockWaitLongEff (h : memoryWf s) {t} : memoryWf (lockWaitLongEff t s) := by
  unfold Machine.lockWaitLongEff
  split
  · exact h.onlyIf (·.modCmd.evt)
  · exact h

theorem memoryWf.genLookupEff (h : memoryWf s) : memoryWf (genLookupEff s) := by
  unfold Machine.genLookupEff
  refine .evt (.setF (.setF (.ite h.setReg.setF.set64 ?_)))
  split
  · exact h.setReg.setFlag.set64
  · exact h.setReg.setF.set64

theorem memoryWf.replayClearEff (h : memoryWf s) : memoryWf (replayClearEff s) := .ite h.evt h.modVol

theorem memoryWf.suspectExpiryEff (h : memoryWf s) {t} : memoryWf (suspectExpiryEff t s) := by
  unfold Machine.suspectExpiryEff
  split
  · split
    · exact .ite h h.bump.endCmd.leaveLadders.gcHeld.evt
    · exact h
  · exact h

/-! ### Forming held data and packing hanks -/

theorem memoryWf.newSkein (h : memoryWf s) : memoryWf (newSkein s).2 := h.frame

theorem memoryWf.openData (h : memoryWf s) : memoryWf (openData s).2 := by
  unfold Machine.openData
  split
  · exact h
  · exact h.newSkein.frame

theorem memoryWf.setMember (h : memoryWf s) {key d kind data} : memoryWf (setMember key d kind data s) :=
  h.modSkein

theorem memoryWf.putMember (h : memoryWf s) {kind data seq} : memoryWf (putMember kind data seq s).2 :=
  h.openData.setMember.modSkein.onlyIf (·.sealSkein)

theorem memoryWf.modHank (h : memoryWf s) {id f} : memoryWf (modHank id f s) := h.frame

theorem memoryWf.putBuf (h : memoryWf s) {v b} : memoryWf (putBuf v b s) := h.frame

theorem memoryWf.packMember (h : memoryWf s) {v seq hanks data} : memoryWf (packMember v seq hanks data s) :=
  h.putMember.forEach fun _ h => h.modHank

theorem memoryWf.packFull (h : memoryWf s) {v seq n hanks since bs} :
    memoryWf (packFull v seq n hanks since bs s) := by
  induction n generalizing hanks since bs s with
  | zero => exact h.putBuf
  | succ n ih => exact .ite h.putBuf (ih h.packMember)

theorem memoryWf.appendHank (h : memoryWf s) {p stored} : memoryWf (appendHank p stored s) :=
  h.modHank.frame.packFull

theorem memoryWf.flushBuf (h : memoryWf s) {v} : memoryWf (flushBuf v s) :=
  .ite h h.packMember.putBuf

theorem memoryWf.formGo (h : memoryWf s) {hs blocked} : memoryWf (formGo hs blocked s) := by
  induction hs generalizing blocked s with
  | nil => exact h
  | cons k hs ih =>
    refine .ite (ih h) (.ite (ih h) (.ite (ih h) ?_))
    split
    · split
      · exact ih h.appendHank
      · exact ih h
    · exact ih (h.putMember.frame.onlyIf (·.sealOpen))

theorem memoryWf.sealFor (h : memoryWf s) {e} : memoryWf (sealFor e s) := by
  unfold Machine.sealFor
  split
  · exact h.onlyIf fun h => h.flushBuf.onlyIf (·.sealOpen)
  · exact h

theorem memoryWf.formAll (h : memoryWf s) : memoryWf (formAll s) :=
  h.formGo.forEach fun _ h => h.sealFor

theorem memoryWf.sealAll (h : memoryWf s) : memoryWf (sealAll s) :=
  (h.formAll.forEach (fun _ h => h.flushBuf)).sealOpen

theorem memoryWf.readHost (h : memoryWf s) {t c} : memoryWf (readHost t c s) :=
  .ite h.modCmd (h.modCmd.forEach (fun _ h => h.emit))

theorem memoryWf.writeEff (h : memoryWf s) {t} : memoryWf (writeEff t s) := by
  unfold Machine.writeEff
  split
  · exact h
  · exact .ite h (.ite h.endCmd.noEngineEvt (h.onlyIf (·.readHost)))

theorem memoryWf.writeSpaceEff (h : memoryWf s) : memoryWf (writeSpaceEff s) :=
  h.forEach fun _ h => h.writeEff

theorem memoryWf.queueHanks (h : memoryWf s) {c} : memoryWf (queueHanks c s) :=
  .ite h (h.forEach (fun _ h => h.frame))

theorem memoryWf.holdBlocks (h : memoryWf s) {c data} : memoryWf (holdBlocks c data s) := h.frame

theorem memoryWf.reachHeld (h : memoryWf s) {t} : memoryWf (reachHeld t s) := by
  unfold Machine.reachHeld
  split
  · exact h
  · exact .ite h (.settle (.formAll (.ite h.modCmd.queueHanks.modCmd h.modCmd.queueHanks.endCmd)))

theorem memoryWf.writeHeldEff (h : memoryWf s) {t data} : memoryWf (writeHeldEff t data s) := by
  unfold Machine.writeHeldEff
  split
  · exact h
  · refine .ite h ?_
    split
    · exact h.evt.endCmd.dropWrite.formAll.settle
    · exact h.holdBlocks.modCmd.mirror.reachHeld

theorem memoryWf.openRelocFor (h : memoryWf s) {n} : memoryWf (openRelocFor n s).2 := by
  unfold Machine.openRelocFor
  extract_lets
  split
  · split
    · exact .iteSnd h h.sealSkein.newSkein.frame.modSkein
    · exact h.newSkein.frame.modSkein
  · exact h.newSkein.frame.modSkein

theorem memoryWf.copyMembers (h : memoryWf s) {old ms skein} : memoryWf (copyMembers old ms skein s) :=
  h.openRelocFor.forEach fun _ h => h.setMember.modSkein.frame

theorem memoryWf.formReloc (h : memoryWf s) {r} : memoryWf (formReloc r s) :=
  .ite h (h.forEach (fun _ h => h.copyMembers)).frame

theorem memoryWf.sealReloc (h : memoryWf s) : memoryWf (sealReloc s) := by
  unfold Machine.sealReloc
  split
  · exact h.sealSkein
  · exact h

theorem memoryWf.formRelocs (h : memoryWf s) : memoryWf (formRelocs s) :=
  .ite h (.ite h (h.forEach (fun _ h => h.formReloc)).sealReloc)

theorem memoryWf.knotIntervalEff (h : memoryWf s) {buf} : memoryWf (knotIntervalEff buf s) := by
  unfold Machine.knotIntervalEff
  split
  · exact h.sealOpen.formRelocs
  · exact h.flushBuf

theorem memoryWf.relocPauseEff (h : memoryWf s) {on} : memoryWf (relocPauseEff on s) := h.setFlag

/-! ### Passes of the carriages (chapter 06) -/

theorem memoryWf.sendPdl (h : memoryWf s) {c frame} : memoryWf (sendPdl c frame s) := h.modWcar.emit

theorem memoryWf.sendPowers (h : memoryWf s) {c addr vals} : memoryWf (sendPowers c addr vals s) :=
  .ite h.sendPdl (h.forEach (fun _ h => h.sendPdl))

theorem memoryWf.setPowers (h : memoryWf s) {c lf zone} : memoryWf (setPowers c lf zone s) :=
  .ite h h.sendPowers.sendPowers.sendPdl.modWcar

theorem memoryWf.pdlFrameEff (h : memoryWf s) {c resp} : memoryWf (pdlFrameEff c resp s) :=
  .ite h (.ite (h.modWcar.onlyIf (·.setReg)) (.ite h.modWcar.emit
    (h.modWcar.bump.onlyIf (·.setReg)).stopAtSlot.evt.carGradeCheck))

theorem memoryWf.drvPollEff (h : memoryWf s) {c st} : memoryWf (drvPollEff c st s) :=
  .ite h ((h.onlyIf (·.modWcar.evt)).modWcar.onlyIf (·.stopAtSlot)).carGradeCheck

theorem memoryWf.pdlCmdEff (h : memoryWf s) {c frame} : memoryWf (pdlCmdEff c frame s) :=
  .ite h (h.setReg.onlyIf (·.setReg.sendPdl))

theorem memoryWf.placeSkein (h : memoryWf s) {key} : memoryWf (placeSkein key s) := by
  unfold Machine.placeSkein
  refine .ite (.settle (.modSkein ?_)) (h.onlyIf (·.modSkein.mirror))
  split
  · exact h.onlyIf (·.evt.bump)
  · exact h

theorem memoryWf.gather (h : memoryWf s) {c f lim n keys} : memoryWf (gather c f lim n keys s).2 := by
  induction n generalizing keys s with
  | zero => exact h
  | succ n ih =>
    cases keys with
    | nil => exact h
    | cons key rest =>
      have hp : ∀ {b : Prop} {_ : Decidable b}, memoryWf (if b then s else Machine.placeSkein key s) := .ite h
        h.placeSkein
      exact .iteSnd (ih hp) hp

theorem memoryWf.dropBadLanes (h : memoryWf s) {c} : memoryWf (dropBadLanes c s) := by
  unfold Machine.dropBadLanes
  refine h.forEach fun _ h => ?_
  split
  · exact .ite h h.reform
  · exact h

theorem memoryWf.firePulse (h : memoryWf s) {key} : memoryWf (firePulse key s) := by
  unfold Machine.firePulse
  split
  · exact h
  · exact .ite h (h.modSkein.forEach (fun _ h => h.onlyIf (·.modCmd)))

theorem memoryWf.beginPass (h : memoryWf s) {c lf z ks} : memoryWf (beginPass c lf z ks s) :=
  (h.setPowers.modWcar.setGate.forEach (fun _ h => h.firePulse)).bump

theorem memoryWf.planPass (h : memoryWf s) {c} : memoryWf (planPass c s) := by
  unfold Machine.planPass
  extract_lets
  split
  · exact h.dropBadLanes
  · exact .ite h.dropBadLanes.gather (h.dropBadLanes.gather.modWcar.andThen fun h => .ite h.modWcar
      (h.onlyIf (·.beginPass)))

theorem memoryWf.passStartEff (h : memoryWf s) {c} : memoryWf (passStartEff c s) := .ite h h.planPass

theorem memoryWf.preReadEff (h : memoryWf s) {c written} : memoryWf (preReadEff c written s) := by
  unfold Machine.preReadEff
  refine .ite h ?_
  split
  · exact h.modWcar.onlyIf (·.planPass)
  · exact (h.modWcar.forEach (fun _ h => h.reform)).bumpBy.evt.onlyIf (·.planPass)

theorem memoryWf.passWriteEndEff (h : memoryWf s) {c} : memoryWf (passWriteEndEff c s) := by
  unfold Machine.passWriteEndEff
  refine .ite h (.ite h.abandonPass (((h.setGate.forEach (fun _ h => ?_)).forEach (fun _ h => h.emit)).forEach
    (fun _ h => h.modSkein)).bumpBy.bumpBy.bumpBy.modWcar.startTurnJump)
  split
  · exact h.forEach fun _ h => h.emit
  · exact h

theorem memoryWf.turnJumpEndEff (h : memoryWf s) {c} : memoryWf (turnJumpEndEff c s) :=
  .ite h (h.turnJumpDoneEff.onlyIf (·.modWcar))

theorem memoryWf.verifyOutcome (h : memoryWf s) {key m ok} : memoryWf (verifyOutcome key m ok s) := by
  unfold Machine.verifyOutcome
  extract_lets
  split
  · exact h.bump
  · refine .ite h.bump.modSkein (.ite h.bump.modSkein.bump.evt.reform.settle ?_)
    split
    · exact h.bump.modSkein.onlyIf (·.modSkein.mirror)
    · exact h.bump.modSkein

theorem memoryWf.verifyRevEndEff (h : memoryWf s) {c} : memoryWf (verifyRevEndEff c s) := by
  unfold Machine.verifyRevEndEff
  refine .ite h ((h.modWcar.forEach (fun _ h => h.forEach (fun _ h => ?_))).onlyIf (·.modWcar))
  split
  · exact h.onlyIf (·.verifyOutcome)
  · exact h

theorem memoryWf.retryHeldEff (h : memoryWf s) : memoryWf (retryHeldEff s) := h.grantFresh.settle

theorem memoryWf.writeInhibitEff (h : memoryWf s) {on} : memoryWf (writeInhibitEff on s) := h.setFlag

theorem memoryWf.laserIlkEff (h : memoryWf s) : memoryWf (laserIlkEff s) :=
  .ite h ((h.frame.stopAllNow.forEach (fun _ h => h.setGate.setLen)).bump.evt.forEach (fun _ h => .ite h h.change))

theorem memoryWf.interlockReleaseEff (h : memoryWf s) : memoryWf (interlockReleaseEff s) :=
  .ite h (h.frame.forEach (fun _ h => h.onlyIf (fun h => h.change.onlyIf (·.acquireCar))))

/-! ### Knots and the map they make -/

theorem memoryWf.formKnotSkein (h : memoryWf s) {ready} : memoryWf (formKnotSkein ready s) := by
  unfold Machine.formKnotSkein
  refine (h.newSkein.modSkein.forEach (fun _ h => ?_)).sealSkein
  split
  · exact h.setMember.setMember.modVol.mirror
  · exact h

theorem memoryWf.knotReadyEff (h : memoryWf s) {elapsed} : memoryWf (knotReadyEff elapsed s) :=
  .ite h h.formKnotSkein

theorem memoryWf.writeAnchor (h : memoryWf s) : memoryWf (writeAnchor s) :=
  .ite h.frame h.frame.emit.emit.frame

theorem memoryWf.ckptForm (h : memoryWf s) {v} : memoryWf (ckptForm v s) := by
  unfold Machine.ckptForm
  split
  · exact h.newSkein.modSkein.setMember.sealSkein
  · exact h

theorem memoryWf.ckptBegin (h : memoryWf s) {v} : memoryWf (ckptBegin v s) :=
  .ite h h.modVol.ckptForm

theorem memoryWf.ckptAdvance (h : memoryWf s) {v} : memoryWf (ckptAdvance v s) := by
  unfold Machine.ckptAdvance
  split
  · exact h
  · split
    · exact h
    · exact .ite h.dropSkein.modVol.ckptForm h.dropSkein.modVol.writeAnchor

theorem memoryWf.ckptAll (h : memoryWf s) : memoryWf (ckptAll s) :=
  h.forEach fun _ h => h.ckptAdvance

theorem memoryWf.gcSkeins (h : memoryWf s) : memoryWf (gcSkeins s) := h.frame

theorem memoryWf.relocApplied (h : memoryWf s) {n} : memoryWf (relocApplied n s) :=
  .ite h.frame.bumpBy h.frame.bumpBy.evt

theorem memoryWf.mapKnot (h : memoryWf s) {place pair n} : memoryWf (mapKnot place pair n s) :=
  (h.onlyIf (·.relocApplied)).modVol.frame

theorem memoryWf.applyKnot (h : memoryWf s) {place pair n} : memoryWf (applyKnot place pair n s) :=
  ((h.mapKnot.onlyIf (·.change)).onlyIf (·.ckptBegin)).onlyIf (·.writeAnchor)

theorem memoryWf.applyKnots (h : memoryWf s) {place q ns} : memoryWf (applyKnots place q ns s) := by
  induction ns generalizing q s with
  | nil => exact h
  | cons n ns ih => exact ih h.applyKnot

theorem memoryWf.knotVerifiedEff (h : memoryWf s) {key} : memoryWf (knotVerifiedEff key s) := by
  unfold Machine.knotVerifiedEff
  split
  · exact h
  · exact .ite h (.andThen (.ite h h.modSkein.mirror) fun h => .ite h h.dropSkein.applyKnots.gcSkeins.settle.formAll)

/-! ### The hank engines (R233 to R245) -/

theorem memoryWf.modHeng (h : memoryWf s) {n f} : memoryWf (modHeng n f s) :=
  h.frame

theorem memoryWf.putHankQueue (h : memoryWf s) {q} : memoryWf (putHankQueue q s) := h.frame

theorem memoryWf.hankDispatchEff (h : memoryWf s) {n} : memoryWf (hankDispatchEff n s) := by
  unfold Machine.hankDispatchEff
  refine .ite h ?_
  split
  · exact h
  · exact h.putHankQueue.modHeng

theorem memoryWf.hankReadOne (h : memoryWf s) {t} : memoryWf (hankReadOne t s) := by
  unfold Machine.hankReadOne
  split
  · exact h
  · refine .ite h (.ite h (.ite h.endCmd.leaveLadders.gcHeld.noEngineEvt (h.forEach fun _ h => ?_)))
    dsimp only
    split
    · exact h
    · exact h.onlyIf (·.putHankQueue)

theorem memoryWf.hankReads (h : memoryWf s) : memoryWf (hankReads s) :=
  h.forEach fun _ h => h.hankReadOne

theorem memoryWf.hankFault (h : memoryWf s) {n} : memoryWf (hankFault n s) :=
  h.modHeng.bump.evt.onlyIf (·.noEngineEvt.settle.hankReads)

theorem memoryWf.hankFree (h : memoryWf s) {n} : memoryWf (hankFree n s) := h.modHeng

theorem memoryWf.hankCodeEff (h : memoryWf s) {n sound} : memoryWf (hankCodeEff n sound s) := by
  unfold Machine.hankCodeEff
  extract_lets
  split
  · exact h
  · refine .ite h (.ite ?_ (h.hankFree.setF.bump.evt.onlyIf (·.putHankQueue)).hankFault)
    split
    · exact h.hankFree.setF
    · exact (h.hankFree.setF.bump.onlyIf (·.bump)).modHank.formAll

theorem memoryWf.hankFailed (h : memoryWf s) {r first second} : memoryWf (hankFailed r first second s) := by
  unfold Machine.hankFailed
  extract_lets
  split
  · exact h.bump.evt.modCmd
  · exact h.bump.evt

theorem memoryWf.hankDecompressEff (h : memoryWf s) {n sound} : memoryWf (hankDecompressEff n sound s) := by
  unfold Machine.hankDecompressEff
  extract_lets e s₁ s₂ s₃
  have h₁ : memoryWf s₁ := h.hankFree
  split
  · exact h
  · refine .ite h ?_
    split
    · extract_lets s₄
      have h₄ : memoryWf s₄ := by
        unfold s₄
        split
        · exact h₁.bump.modCmd
        · exact h₁.bump
      split
      · exact h₄.hankFault
      · exact h₄
    · split
      · exact h₁.bump.hankFailed
      · exact .ite h₁.bump.putHankQueue h₁.bump.hankFailed

theorem memoryWf.hankRestoreEff (h : memoryWf s) {n} : memoryWf (hankRestoreEff n s) :=
  .ite h (h.setF.onlyIf (·.modHeng))

theorem memoryWf.hankRestoreDoneEff (h : memoryWf s) {n pass} : memoryWf (hankRestoreDoneEff n pass s) :=
  .ite h (h.setF.modHeng.andThen fun h => .ite h.bump (.onlyIf (.evt (.ite h h.bump))
    (·.noEngineEvt.settle.hankReads)))

theorem memoryWf.hankForceEff (h : memoryWf s) {on} : memoryWf (hankForceEff on s) := h.setFlag

/-! ### The decoder pool, the ladder and the skein engines (R158 to R187) -/

theorem memoryWf.modLadder (h : memoryWf s) {id f} : memoryWf (modLadder id f s) := h.frame

theorem memoryWf.dropLadder (h : memoryWf s) {id} : memoryWf (dropLadder id s) := h.frame

theorem memoryWf.modRecon (h : memoryWf s) {id f} : memoryWf (modRecon id f s) := h.frame

theorem memoryWf.dropRecon (h : memoryWf s) {id} : memoryWf (dropRecon id s) := h.frame

theorem memoryWf.putCached (h : memoryWf s) {skein m c} : memoryWf (putCached skein m c s) := h.frame

theorem memoryWf.decEvt (h : memoryWf s) {f a} : memoryWf (decEvt f a s) := h.evt

theorem memoryWf.queueReloc (h : memoryWf s) {skein place} : memoryWf (queueReloc skein place s) :=
  .ite h (.ite h.evt.bump (.ite h.evt.bump h.frame.bump))

theorem memoryWf.mediaWeak (h : memoryWf s) {skein place kind} : memoryWf (mediaWeak skein place kind s) :=
  .ite h.evt h.queueReloc

theorem memoryWf.weakCount (h : memoryWf s) {skein place} : memoryWf (weakCount skein place s) :=
  h.frame.onlyIf (·.queueReloc)

theorem memoryWf.l4End (h : memoryWf s) : memoryWf (l4End s) := h.onlyIf (·.frame.modSpn.arbitrate)

theorem memoryWf.l4Begin (h : memoryWf s) : memoryWf (l4Begin s) :=
  .ite h h.frame.modSpn.arbitrate.evt

theorem memoryWf.l4ReachedEff (h : memoryWf s) : memoryWf (l4ReachedEff s) := by
  unfold Machine.l4ReachedEff
  split
  · exact h
  · exact h.onlyIf (·.frame)

theorem memoryWf.settleSibling (h : memoryWf s) {id m v} : memoryWf (settleSibling id m v s) := by
  unfold Machine.settleSibling
  split
  · exact h
  · exact .ite h (h.modRecon.onlyIf (·.frame))

theorem memoryWf.unpinLadder (h : memoryWf s) {l} : memoryWf (unpinLadder l s) :=
  h.unpinSlot.modLadder

theorem memoryWf.ladderSucceed (h : memoryWf s) {l data kind} : memoryWf (ladderSucceed l data kind s) := by
  unfold Machine.ladderSucceed
  extract_lets s₁ s₂ s₃ s₄ s₅ s₆
  have h₄ : memoryWf s₄ := h.bump.putCached.unpinLadder.forEach fun _ h => h.settleSibling
  have h₅ : memoryWf s₅ := .ite h₄.mediaWeak (h₄.onlyIf (·.weakCount))
  refine .hankReads (.l4End (.dropLadder ?_))
  unfold s₆
  split
  · exact h₅.dropRecon
  · exact h₅

theorem memoryWf.ladderFail (h : memoryWf s) {l} : memoryWf (ladderFail l s) := by
  unfold Machine.ladderFail
  extract_lets s₁ s₂ s₃ s₄ _ _ s₅ s₆
  have h₃ : memoryWf s₃ := h.bump.decEvt.unpinLadder.forEach fun _ h => by
    split
    · exact h.modCmd
    · exact h
  have h₄ : memoryWf s₄ := h₃.forEach fun _ h => h.settleSibling
  have h₅ : memoryWf s₅ := .ite h₄ h₄.evt.bumpBy.frame
  refine .l4End (.dropLadder ?_)
  unfold s₆
  split
  · exact h₅.dropRecon
  · exact h₅

theorem memoryWf.startRecon (h : memoryWf s) {l} : memoryWf (startRecon l s) :=
  h.frame.modLadder.frame.onlyIf (·.modRecon.frame)

theorem memoryWf.startCombine (h : memoryWf s) {l} : memoryWf (startCombine l s) :=
  h.queueReloc.modLadder

theorem memoryWf.enterStep (h : memoryWf s) {id n} : memoryWf (enterStep id n s) := by
  unfold Machine.enterStep
  split
  · exact h
  · exact (h.onlyIf (fun h => h.forEach (fun _ h => h.settleSibling))).modLadder.andThen fun h => .ite
      h.unpinLadder.dropLadder.l4End (.ite h.ladderFail
        (((h.modLadder.onlyIf (·.queueReloc)).onlyIf (·.unpinLadder)).andThen fun h => .ite h.modLadder
          (.ite h.modLadder.l4Begin (.ite h.startRecon.l4End (h.onlyIf (·.startCombine.l4End))))))

theorem memoryWf.newLadder (h : memoryWf s) {skein m place} : memoryWf (newLadder skein m place s).2 :=
  h.frame

theorem memoryWf.sweepMember (h : memoryWf s) {t w} : memoryWf (sweepMember t w s) := by
  unfold Machine.sweepMember
  extract_lets a g sus
  clear_value sus
  split
  · exact .ite h h.modCmd.bump
  · split
    · exact h.modLadder
    · exact .ite h h.newLadder.modLadder.enterStep

theorem memoryWf.poolSweep (h : memoryWf s) : memoryWf (poolSweep s) :=
  (((h.forEach (fun _ h => h.forEach (fun _ h => h.sweepMember))).forEach
    (fun _ h => h.onlyIf (·.modLadder.enterStep))).forEach
      (fun _ h => h.forEach (fun _ h => h.onlyIf (·.settleSibling)))).hankReads

theorem memoryWf.addJob (h : memoryWf s) {j} : memoryWf (addJob j s) := h.frame

theorem memoryWf.sectorDeliveryEff (h : memoryWf s) {g a p} : memoryWf (sectorDeliveryEff g a p s) := by
  unfold Machine.sectorDeliveryEff
  refine .ite h ?_
  generalize hd : Machine.deliver g p s = r
  have h : memoryWf r.2 := hd ▸ h.deliver
  obtain ⟨d, s⟩ := r
  dsimp -zeta only
  split
  · exact h
  · refine .ite h.bump.decEvt ?_
    extract_lets _ s₁
    have h₁ : memoryWf s₁ := h.frame
    clear_value s₁
    split
    · rename_i s₂ l j _ s₃ _ _
      have h₂ : memoryWf s₂ := by
        unfold s₂
        refine .modLadder ?_
        refine .pinDelivery ?_
        split
        · exact h₁
        · exact h₁.newLadder
      have h₃ : memoryWf s₃ := h₂.frame
      clear_value s₃ j l s₂
      refine .ite ?_ h₂.addJob
      split
      · exact h₃.modLadder.addJob
      · exact h₃.addJob
    · exact h₁.addJob
    · exact h₁.addJob

theorem memoryWf.poolDispatchEff (h : memoryWf s) {redet idx} : memoryWf (poolDispatchEff redet idx s) := by
  unfold Machine.poolDispatchEff
  refine .ite h.poolSweep ?_
  split
  · exact h.poolSweep
  · exact .andThen (.onlyIf (.ite (h.poolSweep.frame.frame)
      (h.poolSweep.frame.frame)) (·.bump.decEvt)) fun h => .ite h.bump (h.onlyIf (·.bump))

theorem memoryWf.countOutcome (h : memoryWf s) {j o} : memoryWf (countOutcome j o s) := by
  unfold Machine.countOutcome
  split
  · exact h.bump
  · exact h.bump.decEvt
  · exact h.bump.decEvt
  · exact h

theorem memoryWf.verifyDone (h : memoryWf s) {j d o key m} : memoryWf (verifyDone j d o key m s) :=
  .ckptAll (.verifyOutcome (.ite h h.bump))

theorem memoryWf.nextTrial (h : memoryWf s) {j l} : anyWf (nextTrial j l s) := by
  unfold Machine.nextTrial
  split
  · exact h.modLadder.addJob.some
  · exact .none

theorem memoryWf.readExhausted (h : memoryWf s) {l} : memoryWf (readExhausted l s) :=
  .ite h.enterStep (.ite (.ite h.modLadder h.enterStep) (.ite (.ite h.modLadder h.enterStep) h))

theorem memoryWf.tryL2 (h : memoryWf s) {fromL1 j l} : memoryWf (tryL2 fromL1 j l s) := by
  unfold Machine.tryL2
  refine .ite h.readExhausted ?_
  dsimp only
  have h₁ : memoryWf (if l.step ≤ 1 then Machine.enterStep l.id 2 s else s) := h.onlyIf (·.enterStep)
  split
  · exact h₁
  · exact h₁.modLadder.nextTrial.orElse h₁.readExhausted

theorem memoryWf.nextGlobal (h : memoryWf s) {mode j} : memoryWf (nextGlobal mode j s) := h.addJob

theorem memoryWf.memberFailed (h : memoryWf s) {j o l} : memoryWf (memberFailed j o l s) := by
  unfold Machine.memberFailed
  refine .ite (.ite (h.nextTrial.orElse h.readExhausted) h.addJob)
    (.ite (.ite h.tryL2 ?_)
      (.ite (.ite h.nextGlobal h.tryL2) (.ite h.nextGlobal (h.nextTrial.orElse h.readExhausted))))
  dsimp only
  have h₁ : memoryWf (if l.step = 0 then Machine.enterStep l.id 1 s else s) := h.onlyIf (·.enterStep)
  split
  · exact h₁.addJob
  · exact h₁

theorem memoryWf.takeBody (h : memoryWf s) {j l m body} : memoryWf (takeBody j l m body s) := by
  unfold Machine.takeBody
  extract_lets
  split
  · split
    · exact h.modLadder.addJob
    · exact h.modLadder
  · exact h.modLadder

theorem memoryWf.combineSettled (h : memoryWf s) {l m} : memoryWf (combineSettled l m s) := by
  unfold Machine.combineSettled
  extract_lets
  split
  · refine .ite (.startRecon (.modLadder ?_)) h.modLadder
    split
    · exact h.modLadder.dropRecon
    · exact h.modLadder
  · exact h.modLadder

theorem memoryWf.combineDone (h : memoryWf s) {j d o l m} : memoryWf (combineDone j d o l m s) := by
  unfold Machine.combineDone
  refine .ite (.ite h.ladderSucceed h.putCached.combineSettled) (.ite h.combineSettled (.ite h.takeBody ?_))
  dsimp only
  split
  · exact .ite h.takeBody h.addJob
  · exact h.takeBody

theorem memoryWf.redetCompleteEff (h : memoryWf s) {idx} : memoryWf (redetCompleteEff idx s) := by
  unfold Machine.redetCompleteEff
  split
  · exact h
  · dsimp only
    split
    · exact .addJob h.frame
    · exact h.frame

theorem memoryWf.engineCompleteEff (h : memoryWf s) {idx} : memoryWf (engineCompleteEff idx s) := by
  unfold Machine.engineCompleteEff
  split
  · exact h
  · extract_lets +onlyGivenNames _ s₁ d forced s₂ o s₃ _ s₄
    have h₁ : memoryWf s₁ := h.frame
    have h₄ : memoryWf s₄ := (h₁.onlyIf (·.setF)).countOutcome.onlyIf (·.frame)
    split
    · exact h₄.verifyDone
    · exact h₄.onlyIf (·.frame)
    · split
      · exact h₄.combineDone
      · exact h₄
    · split
      · exact h₄
      · exact .ite h₄ (.ite h₄.frame.ladderSucceed h₄.memberFailed)

theorem memoryWf.poolCompleteEff (h : memoryWf s) {redet idx} : memoryWf (poolCompleteEff redet idx s) :=
  .poolSweep (.ite h.redetCompleteEff h.engineCompleteEff)

theorem memoryWf.parityDone (h : memoryWf s) {key} : memoryWf (parityDone key s) := by
  unfold Machine.parityDone
  split
  · exact h
  · exact h.modSkein.bump.joinQueues

theorem memoryWf.reconDone (h : memoryWf s) {id} : memoryWf (reconDone id s) := by
  unfold Machine.reconDone
  split
  · exact h
  · extract_lets mask e all mism s₁ s₂ s₃ s₄
    have h₄ : memoryWf s₄ := (h.setReg.bump.onlyIf (·.bump)).onlyIf (·.bump.evt)
    clear_value all s₄
    split
    · exact h₄.dropRecon
    · split
      · exact h₄.bump.ladderSucceed
      · exact .ite h₄.enterStep (.ite h₄.startCombine h₄.ladderFail)

theorem memoryWf.skeinEngineEff (h : memoryWf s) {n} : memoryWf (skeinEngineEff n s) := by
  unfold Machine.skeinEngineEff
  refine .ite h ?_
  extract_lets take
  have htake {s : State} (h : memoryWf s) : memoryWf (take s).2 := by
    unfold take
    split
    · exact h.frame
    · exact h
  clear_value take
  have hp : memoryWf (match s.pool.sengs.getD n none with
      | Option.some j => (Option.some j, s)
      | Option.none => take s).2 := by
    split
    · exact h
    · exact htake h
  refine .frame (htake ?_)
  split
  · exact hp.parityDone
  · exact hp.reconDone
  · exact hp

theorem memoryWf.pauseRecoveryEff (h : memoryWf s) {on} : memoryWf (pauseRecoveryEff on s) :=
  h.setFlag

theorem memoryWf.forceEfEff (h : memoryWf s) {on} : memoryWf (forceEfEff on s) := h.setFlag

/-! ### Host rings (chapter 11) -/

theorem memoryWf.modFn (h : memoryWf s) {f g} : memoryWf (modFn f g s) := h.frame

theorem memoryWf.putCtx (h : memoryWf s) {r c} : memoryWf (putCtx r c s) := h.frame

theorem memoryWf.modCtx (h : memoryWf s) {r f} : memoryWf (modCtx r f s) := by
  unfold Machine.modCtx
  split
  · exact h.putCtx
  · exact h

theorem memoryWf.putBell (h : memoryWf s) {r d} : memoryWf (putBell r d s) := h.frame

theorem memoryWf.touch (h : memoryWf s) {r} : memoryWf (touch r s) := h.frame.modCtx

theorem memoryWf.signalVec (h : memoryWf s) {f v} : memoryWf (signalVec f v s) :=
  .ite h (.ite h.frame h.emit.bump)

theorem memoryWf.ringSignal (h : memoryWf s) {r} : memoryWf (ringSignal r s) := by
  unfold Machine.ringSignal
  split
  · exact h.onlyIf (·.modCtx.signalVec)
  · exact h

theorem memoryWf.moderate (h : memoryWf s) {r good} : memoryWf (moderate r good s) := by
  unfold Machine.moderate
  split
  · exact h
  · exact .ite h (h.modCtx.onlyIf (·.ringSignal))

theorem memoryWf.coalesceEff (h : memoryWf s) {r} : memoryWf (coalesceEff r s) := by
  unfold Machine.coalesceEff
  split
  · exact .ite h h.ringSignal
  · exact h

theorem memoryWf.unmaskOne (h : memoryWf s) {f v} : memoryWf (unmaskOne f v s) :=
  h.onlyIf (·.frame.emit.bump)

theorem memoryWf.unmaskAll (h : memoryWf s) {f} : memoryWf (unmaskAll f s) :=
  h.forEach fun _ h => h.onlyIf (·.unmaskOne)

theorem memoryWf.msixUnmaskEff (h : memoryWf s) {f v} : memoryWf (msixUnmaskEff f v s) := by
  unfold Machine.msixUnmaskEff
  split
  · exact h.frame.unmaskOne
  · exact h.modFn.unmaskAll

theorem memoryWf.ringError (h : memoryWf s) {f r cause} : memoryWf (ringError f r cause s) :=
  h.setF.setF.bump.evt

theorem memoryWf.haltRing (h : memoryWf s) {r cause} : memoryWf (haltRing r cause s) := by
  unfold Machine.haltRing
  split
  · exact .ite h h.modCtx.ringError
  · exact h

theorem memoryWf.hostAccess (h : memoryWf s) {f r} : memoryWf (hostAccess f r s) := h.evt

theorem memoryWf.applyTail (h : memoryWf s) {r t} : memoryWf (applyTail r t s) := by
  unfold Machine.applyTail
  split
  · exact .ite h (.ite h.modCtx h.haltRing)
  · exact h

theorem memoryWf.applyHead (hs : memoryWf s) {r h} : memoryWf (applyHead r h s) := by
  unfold Machine.applyHead
  split
  · exact .ite hs.modCtx hs.haltRing
  · exact hs

theorem memoryWf.applyBell (h : memoryWf s) {r tail head} : memoryWf (applyBell r tail head s) := by
  unfold Machine.applyBell
  extract_lets s₁
  have h₁ : memoryWf s₁ := by
    unfold s₁
    split
    · exact h.applyTail
    · exact h
  split
  · exact h₁.applyHead
  · exact h₁

theorem memoryWf.discardBell (h : memoryWf s) {f r} : memoryWf (discardBell f r s) := h.bump.evt

theorem memoryWf.writeBack (h : memoryWf s) {r} : memoryWf (writeBack r s) := by
  unfold Machine.writeBack
  split
  · exact h
  · exact (h.onlyIf (·.ringSignal)).emit.putBell.putCtx

theorem memoryWf.takeCtx (h : memoryWf s) {f} : anyWf (takeCtx f s) := by
  unfold Machine.takeCtx
  split
  · exact .none
  · refine .ite h.some (.ite h.some ?_)
    dsimp only
    split
    · exact h.writeBack.bump.some
    · refine .ite ?_ .none
      split
      · exact h.writeBack.bump.some
      · exact .none

theorem memoryWf.readDesc (h : memoryWf s) {r} : memoryWf (readDesc r s) := by
  unfold Machine.readDesc
  split
  · exact h.emit
  · exact h

theorem memoryWf.startLoad (h : memoryWf s) {r} : memoryWf (startLoad r s) := by
  unfold Machine.startLoad
  refine .ite h ?_
  split
  · exact h
  · split
    next u e => exact (h.takeCtx u e).frame.onlyIf (·.readDesc)
    next => exact h.frame.evt

theorem memoryWf.retryStarved (h : memoryWf s) : memoryWf (retryStarved s) :=
  h.forEach fun _ h => h.startLoad

theorem memoryWf.endLoad (h : memoryWf s) {r} : memoryWf (endLoad r s) := by
  unfold Machine.endLoad
  dsimp only
  split
  · exact h.frame.readDesc
  · exact h.frame

theorem memoryWf.doorbellEff (h : memoryWf s) {f off size v} : memoryWf (doorbellEff f off size v s) := by
  unfold Machine.doorbellEff
  refine .ite h (.ite h.discardBell ?_)
  dsimp only
  split
  · exact h.touch.applyBell
  · exact h.putBell.retryStarved.startLoad

theorem memoryWf.ctxLoadEff (h : memoryWf s) {r desc} : memoryWf (ctxLoadEff r desc s) := by
  unfold Machine.ctxLoadEff
  refine .ite h ?_
  dsimp only
  split
  · exact h.endLoad
  · split
    · exact h.endLoad.hostAccess.ringError.retryStarved
    · exact h.endLoad
    · refine .ite h.endLoad.putBell.discardBell.retryStarved ?_
      split
      · exact h.endLoad.ringError.retryStarved
      · exact h.endLoad.putBell.putCtx.bump.touch.applyBell

theorem memoryWf.ringStat (h : memoryWf s) {f r done} : memoryWf (ringStat f r done s) :=
  h.setReg.setFlag.setFlag.setFlag.setFlag.setF

theorem memoryWf.ringRefused (h : memoryWf s) {f} : memoryWf (ringRefused f s) := h.setReg

theorem memoryWf.invalidateDoneEff (h : memoryWf s) {r} : memoryWf (invalidateDoneEff r s) := by
  unfold Machine.invalidateDoneEff
  split
  · exact h.onlyIf (·.writeBack.ringStat.retryStarved)
  · exact h

theorem memoryWf.invalidateEff (h : memoryWf s) {f r} : memoryWf (invalidateEff f r s) := by
  unfold Machine.invalidateEff
  refine .ite h.ringRefused ?_
  split
  · exact h.modCtx.ringStat
  · exact (h.onlyIf (·.endLoad)).frame.ringStat

theorem memoryWf.ringQueryEff (h : memoryWf s) {f r} : memoryWf (ringQueryEff f r s) :=
  .ite h.ringRefused h.ringStat

theorem memoryWf.dropPosted (h : memoryWf s) {t} : memoryWf (dropPosted t s) := h.frame.freeTag

theorem memoryWf.sendOutcome (h : memoryWf s) {t c} : memoryWf (sendOutcome t c s) :=
  h.emit.dropPosted

theorem memoryWf.cplFull (h : memoryWf s) {t r c} : memoryWf (cplFull t r c s) :=
  .evt (.ite h h.modCmd.bump)

theorem memoryWf.postOne (h : memoryWf s) {t c x} : memoryWf (postOne t c x s) :=
  .ite h.cplFull h.emit.modCtx.bump.dropPosted.moderate

theorem memoryWf.completionPostEff (h : memoryWf s) {r} : memoryWf (completionPostEff r s) := by
  unfold Machine.completionPostEff
  refine .ite h ?_
  extract_lets s₁
  have h₁ : memoryWf s₁ := by
    unfold s₁
    split
    · exact h.onlyIf (·.sendOutcome)
    · exact h
  split
  · exact h₁
  · split
    · exact h₁
    · exact .ite h₁ h₁.postOne

theorem memoryWf.flrCmd (h : memoryWf s) {t} : memoryWf (flrCmd t s) := by
  unfold Machine.flrCmd
  split
  · exact h
  · exact .ite h.dropPosted (.ite h.modCmd.abortTarget.modCmd h.modCmd.abortTarget)

theorem memoryWf.resetFnRegs (h : memoryWf s) {f} : memoryWf (resetFnRegs f s) :=
  h.frame.onlyIf (·.setReg.setReg)

theorem memoryWf.flrStart (h : memoryWf s) {f} : memoryWf (flrStart f s) :=
  (h.modFn.frame.forEach (fun _ h => h.onlyIf (·.flrCmd))).resetFnRegs

theorem memoryWf.flrEff (h : memoryWf s) {f} : memoryWf (flrEff f s) := by
  unfold Machine.flrEff
  refine .ite ?_ h.flrStart
  extract_lets s₁
  have h₁ : memoryWf s₁ := h.forEach fun _ h => h.flrStart
  clear_value s₁
  exact h₁.frame

theorem memoryWf.flrEndEff (h : memoryWf s) {f} : memoryWf (flrEndEff f s) :=
  .ite h (.ite h h.frame.modFn.evt.retryStarved)

theorem memoryWf.tokenRefillEff (h : memoryWf s) : memoryWf (tokenRefillEff s) := h.setReg

/-! ### Arbitration and acceptance -/

theorem memoryWf.arbitrateRings (h : memoryWf s) {es} : memoryWf (arbitrateRings es s).2 := by
  unfold Machine.arbitrateRings
  extract_lets s₁
  have h₁ : memoryWf s₁ := h.onlyIf (·.evt)
  exact .iteSnd h₁.frame (.ite h₁.frame (.setReg h₁.frame))

theorem memoryWf.endRepeat (h : memoryWf s) {t c seq st result rel step} :
    memoryWf (endRepeat t c seq st result rel step s) := h.modCmd.endCmd.bump.evt

theorem memoryWf.enterWaiting (h : memoryWf s) {t g late} : memoryWf (enterWaiting t g late s) := by
  unfold Machine.enterWaiting
  extract_lets s₁ s₂
  have h₂ : memoryWf s₂ := by
    refine .modCmd ?_
    unfold s₁
    split
    · exact h.bump
    · exact h
  split
  · exact h₂
  · exact (h₂.onlyIf (·.bump)).onlyIf (·.bump)

theorem memoryWf.checkRest (h : memoryWf s) {t aux} : memoryWf (checkRest t aux s) := by
  unfold Machine.checkRest
  split
  · exact h
  · refine .ite h.enterWaiting (.ite h.frame (.ite h.endCmd ?_))
    split
    · exact h.endRepeat
    · split
      · exact .ite h.endRepeat h.modCmd
      · extract_lets us late
        clear_value us late
        split
        · exact h.endCmd
        · refine .ite h.endCmd ?_
          split
          · exact .ite h.endCmd.hostAccess h.endCmd
          · exact h.enterWaiting

theorem memoryWf.acceptAs (h : memoryWf s) {remote f ring slot one b aux} :
    memoryWf (acceptAs remote f ring slot one b aux s) := by
  unfold Machine.acceptAs
  extract_lets
  split
  · exact (((h.set64.bump.onlyIf (·.bump)).putCmd.onlyIf (·.emit.mirror)).onlyIf (·.evt)).endCmd
  · exact (((h.set64.bump.onlyIf (·.bump)).putCmd.onlyIf (·.emit.mirror)).onlyIf (·.evt)).checkRest

theorem memoryWf.forwardCmd (h : memoryWf s) {f ring slot one b aux} :
    memoryWf (forwardCmd f ring slot one b aux s) :=
  (h.putCmd.frame.onlyIf (fun h => h.forEach (fun _ h => h.emit))).bump.emit

theorem memoryWf.fetchEff (h : memoryWf s) {r b aux} : memoryWf (fetchEff r b aux s) := by
  unfold Machine.fetchEff
  split
  · exact h
  · refine .ite h.haltRing ?_
    split
    · exact h.emit.hostAccess.haltRing
    · exact h.emit.modCtx.touch.andThen fun h => .andThen (.ite h.emit (h.onlyIf (·.emit))) fun h => .ite h.acceptAs
        h.forwardCmd

theorem memoryWf.grantEff (h : memoryWf s) {b aux} : memoryWf (grantEff b aux s) :=
  .ite h (.ite h (.ite h.evt h.arbitrateRings.fetchEff))

theorem memoryWf.releaseThermal (h : memoryWf s) : memoryWf (releaseThermal s) := by
  unfold Machine.releaseThermal
  refine h.forEach fun _ h => ?_
  split
  · exact h.endCmd
  · exact h.setGate4

/-! ### The mount of a disc and import mode -/

theorem memoryWf.modDisc (h : memoryWf s) {f} : memoryWf (modDisc f s) := h.frame

theorem memoryWf.mountStartEff (h : memoryWf s) : memoryWf (mountStartEff s) :=
  h.onlyIf fun h => (h.change.forEach (fun _ h => h.onlyIf (·.change))).modDisc

theorem memoryWf.mountFailed (h : memoryWf s) : memoryWf (mountFailed s) :=
  (h.modDisc.change.forEach (fun _ h => h.onlyIf (·.change))).evt

theorem memoryWf.discReady (h : memoryWf s) : memoryWf (discReady s) :=
  h.change.forEach fun _ h => h.onlyIf (·.change)

theorem memoryWf.anchorVols (h : memoryWf s) {b} : memoryWf (anchorVols b s) :=
  h.forEach fun _ h => .ite h h.modVol.change

theorem memoryWf.anchorStep (h : memoryWf s) {written copies} : memoryWf (anchorStep written copies s) := by
  unfold Machine.anchorStep
  split
  · exact h.modDisc
  · exact h.modDisc.anchorVols

theorem memoryWf.loadPage (h : memoryWf s) {b} : memoryWf (loadPage b s) := h.modVol

theorem memoryWf.rebuildPage (h : memoryWf s) {ks} : memoryWf (rebuildPage ks s) := by
  unfold Machine.rebuildPage
  refine h.forEach fun _ h => ?_
  split
  · exact h.modVol
  · exact h

theorem memoryWf.pageStep (h : memoryWf s) {p} : memoryWf (pageStep p s) := by
  unfold Machine.pageStep
  split
  · exact .ite h.loadPage h.rebuildPage
  · exact h.rebuildPage

theorem memoryWf.recordStep (h : memoryWf s) {r} : memoryWf (recordStep r s) := by
  unfold Machine.recordStep
  split
  · exact h
  · exact (h.onlyIf (·.modVol)).onlyIf (·.modVol)

theorem memoryWf.walkChain (h : memoryWf s) {v ks n} : memoryWf (walkChain v ks n s) := by
  induction n generalizing s with
  | zero => exact h
  | succ n ih =>
    unfold Machine.walkChain
    split
    · exact h
    · exact ih h.modVol

theorem memoryWf.validateVol (h : memoryWf s) {reads v} : memoryWf (validateVol reads v s) :=
  .ite h ((h.onlyIf (·.change)).walkChain.onlyIf (·.modVol.evt))

theorem memoryWf.mountStepEff (h : memoryWf s) {d} : memoryWf (mountStepEff d s) := by
  unfold Machine.mountStepEff
  split
  · exact h.modDisc
  · exact h.modDisc
  · split
    · exact .ite h.modDisc.discReady h.mountFailed
    · exact h.mountFailed
  · exact h.anchorStep
  · exact ((h.forEach (fun _ h => h.pageStep)).forEach (fun _ h => h.recordStep)).modDisc
  · exact h.modDisc
  · exact (h.forEach (fun _ h => h.validateVol)).modDisc
  · exact h

theorem memoryWf.mountVol (h : memoryWf s) {v} : memoryWf (mountVol v s) :=
  .ite h (.ite h.modVol.change h.modVol.change)

theorem memoryWf.mountCompleteEff (h : memoryWf s) : memoryWf (mountCompleteEff s) :=
  .ite h ((h.forEach (fun _ h => h.modWcar)).modDisc.forEach (fun _ h => h.mountVol))

theorem memoryWf.unmount (h : memoryWf s) : memoryWf (unmount s) := h.modDisc.frame

theorem memoryWf.importIdentifyEff (h : memoryWf s) {found} : memoryWf (importIdentifyEff found s) := by
  unfold Machine.importIdentifyEff
  refine .ite h ?_
  split
  · exact h.mountFailed
  · extract_lets +onlyGivenNames n s₁ _ _ s₂
    have h₁ : memoryWf s₁ := h.modDisc
    have h₂ : memoryWf s₂ := h₁
    exact (h₂.setF.setF.setF.forEach fun _ h => h.setReg).evt.discReady

theorem memoryWf.importSpeedEff (h : memoryWf s) {layer psn} : memoryWf (importSpeedEff layer psn s) := by
  unfold Machine.importSpeedEff
  split
  · exact h
  · exact h.setF.modSpn.arbitrate

theorem memoryWf.clusterFail (h : memoryWf s) {layer cluster} : memoryWf (clusterFail layer cluster s) :=
  (h.forEach (fun _ h => h.modCmd)).evt

theorem memoryWf.importClusterEff (h : memoryWf s) {layer cluster res} :
    memoryWf (importClusterEff layer cluster res s) := by
  unfold Machine.importClusterEff
  refine .ite h ?_
  split
  · exact (h.forEach (fun _ h => h.modCmd)).frame
  · exact h.clusterFail.frame
  · exact .ite h.frame h.clusterFail.frame

theorem memoryWf.importReadEff (h : memoryWf s) {t} : memoryWf (importReadEff t s) := by
  unfold Machine.importReadEff
  split
  · exact h
  · refine .ite h (.ite h.modCmd.importSpeedEff (.ite h ?_))
    split
    · exact h.endCmd
    · exact h.sendData.endCmd

/-! ### The MRAM record store (R446 to R450) -/

theorem memoryWf.putSlot (h : memoryWf s) {typ index slotB x} : memoryWf (putSlot typ index slotB x s) :=
  h.frame

theorem memoryWf.askMram (h : memoryWf s) {typ index payload} : memoryWf (askMram typ index payload s) :=
  h.frame

theorem memoryWf.mramWriteEff (h : memoryWf s) : memoryWf (mramWriteEff s) := by
  unfold Machine.mramWriteEff
  split
  · exact h
  · exact .ite h h.frame

theorem memoryWf.mramDoneEff (h : memoryWf s) {same} : memoryWf (mramDoneEff same s) := by
  unfold Machine.mramDoneEff
  split
  · exact h
  · exact .ite h (.ite h.putSlot.frame (.ite h.putSlot.frame h.putSlot.frame.evt))

theorem memoryWf.readRec (h : memoryWf s) {typ index} : memoryWf (readRec typ index s) :=
  h.onlyIf (·.bumpBy.evt)

theorem memoryWf.carryCount (h : memoryWf s) {off} : memoryWf (carryCount off s) := h.frame

theorem memoryWf.saveCounters (h : memoryWf s) : memoryWf (saveCounters s) := h.askMram.frame

theorem memoryWf.countersHourlyEff (h : memoryWf s) : memoryWf (countersHourlyEff s) :=
  h.onlyIf (·.saveCounters)

theorem memoryWf.loadZone (h : memoryWf s) {lf zone} : memoryWf (loadZone lf zone s) := h.frame

theorem memoryWf.buildZones (h : memoryWf s) : memoryWf (buildZones s) :=
  h.forEach fun _ h => h.readRec.loadZone

/-! ### Buffer memory (R428 to R445) -/

theorem memoryWf.modMem (h : memoryWf s) {f} (hf : ∀ m, (f m).bytes = m.bytes := by intro m; rfl) : memoryWf (modMem f s) := by
  obtain ⟨hbytes, hscratch⟩ := h
  exact ⟨(congrArg Memory.wf (hf s.mem)).trans hbytes, hscratch⟩

/-- Dropping bytes of buffer memory. -/
theorem memoryWf.filterBytes (h : memoryWf s) {p : Nat × Byte → Bool} :
    memoryWf (Machine.modMem (fun m => { m with bytes := m.bytes.filter p }) s) :=
  ⟨Memory.wf_filter p s.mem.bytes h.1, h.2⟩

theorem memoryWf.memPut (h : memoryWf s) {line data} : memoryWf (memPut line data s) :=
  ⟨Memory.wf_memPut line data s h.1, h.2⟩

theorem memoryWf.discardHeld (h : memoryWf s) {vol seq tags} : memoryWf (discardHeld vol seq tags s) :=
  ((h.forEach (fun _ h => h.onlyIf (·.endCmd))).forEach (fun _ h => h.dropWrite)).frame.modVol

theorem memoryWf.fatalHeld (h : memoryWf s) {vol seq tags} : memoryWf (fatalHeld vol seq tags s) :=
  h.discardHeld.change.evt

theorem memoryWf.fatalMap (h : memoryWf s) {vol} : memoryWf (fatalMap vol s) := h.change.modDisc

theorem memoryWf.fatalDoorbells (h : memoryWf s) {ring} : memoryWf (fatalDoorbells ring s) :=
  h.frame.evt

theorem memoryWf.fatalReplay (h : memoryWf s) {entries skeins} : memoryWf (fatalReplay entries skeins s) :=
  (h.forEach (fun _ h => h.modVol)).frame

theorem memoryWf.parityFatal (h : memoryWf s) {addr cls} : memoryWf (parityFatal addr cls s) :=
  h.bump.evt

theorem memoryWf.parityRefetch (h : memoryWf s) {addr cls} : memoryWf (parityRefetch addr cls s) :=
  h.bump.evt

theorem memoryWf.classAction (h : memoryWf s) {addr use bad} : memoryWf (classAction addr use bad s).2 := by
  unfold Machine.classAction
  extract_lets
  split
  · exact .iteSnd h.fatalHeld.parityFatal h.modMem
  · exact .iteSnd h.fatalMap h.modMem
  · exact .iteSnd h.fatalDoorbells.parityFatal h.modMem
  · exact .iteSnd h.fatalReplay.parityFatal h.modMem
  · exact .iteSnd h.loadZone.parityFatal h.modMem
  · exact h.frame.parityRefetch
  · refine .iteSnd ?_ h.parityRefetch
    split
    · exact .parityFatal (.ite h h.hostAccess.endCmd.dropWrite)
    · exact h.parityFatal
  · exact .iteSnd h.frame.evt.parityFatal h.bump
  · exact h.frame.setFlag
  · exact .iteSnd (h.bump.evt.forEach (fun _ h => h.loopFaultEff)).parityFatal h.bump
  · exact h.memPut

theorem memoryWf.channelError (h : memoryWf s) {ch} : memoryWf (channelError ch s) :=
  h.modMem.setF.onlyIf (·.setF.change.evt)

theorem memoryWf.recordError (h : memoryWf s) {port addr lanes cls outcome} :
    memoryWf (recordError port addr lanes cls outcome s) := h.setReg.setReg.setReg

theorem memoryWf.beginBurst (h : memoryWf s) {line} : memoryWf (beginBurst line s) :=
  .ite h h.modMem.setReg.setFlag

theorem memoryWf.memReadEff (h : memoryWf s) {port addr lanes replays persists use bad} :
    memoryWf (memReadEff port addr lanes replays persists use bad s) :=
  .ite h ((h.bump.onlyIf (·.setF)).andThen fun h => .ite h
    (h.bump.bumpBy.andThen fun h => .ite h.bump (h.classAction.recordError.onlyIf (·.beginBurst)).channelError))

theorem memoryWf.parityRepairEff (h : memoryWf s) {rereadOk written} :
    memoryWf (parityRepairEff rereadOk written s) := by
  unfold Machine.parityRepairEff
  split
  · exact h
  · exact h.modMem.andThen fun h => .ite (h.onlyIf (·.setF)) (.ite h h.memPut.bump.evt)

theorem memoryWf.refreshDueEff (h : memoryWf s) {urgent idle} : memoryWf (refreshDueEff urgent idle s) :=
  .ite h (.ite (.ite h.bump.setF h.bump.setF.bump.bump.evt) (.ite h.setF.bumpBy h.bump))

theorem memoryWf.dramTempEff (h : memoryWf s) {hot} : memoryWf (dramTempEff hot s) :=
  .ite h (h.setFlag.setF.onlyIf (·.evt))

theorem memoryWf.pointBeginEff (h : memoryWf s) : memoryWf (pointBeginEff s) := h.onlyIf (·.setF)

theorem memoryWf.pointDrainedEff (h : memoryWf s) : memoryWf (pointDrainedEff s) :=
  .ite h h.setF.setF.setF.setF.bump.bump.evt

theorem memoryWf.scrubReadEff (h : memoryWf s) : memoryWf (scrubReadEff s) :=
  .ite h (.andThen (.ite h.setReg h.setReg.bump) fun h => .ite h.modMem.setReg
    (.ite h.setReg.setFlag.modMem (.ite h.setReg h.setReg.bumpBy.evt)))

theorem memoryWf.scrubRestartEff (h : memoryWf s) : memoryWf (scrubRestartEff s) :=
  h.modMem.setFlag.setReg

theorem memoryWf.forceParityEff (h : memoryWf s) : memoryWf (forceParityEff s) := h.setF

theorem memoryWf.rebuiltVol (h : memoryWf s) {reads v} : memoryWf (rebuiltVol reads v s) :=
  (h.onlyIf (·.modVol.evt)).onlyIf (·.change)

theorem memoryWf.rebuildStepEff (h : memoryWf s) {d} : memoryWf (rebuildStepEff d s) := by
  unfold Machine.rebuildStepEff
  split
  · exact h.modDisc
  · exact h.modDisc
  · exact h.modDisc.forEach fun _ h => h.rebuiltVol
  · exact h

theorem memoryWf.mountDoneEff (h : memoryWf s) {d} : memoryWf (mountDoneEff d s) :=
  .ite h.rebuildStepEff h.mountStepEff

/-! ### The buffer cache (R408 to R427) -/

theorem memoryWf.modBc (h : memoryWf s) {f} (hf : ∀ b, (f b).scratch = b.scratch := by intro b; rfl) : memoryWf (modBc f s) := by
  obtain ⟨hbytes, hscratch⟩ := h
  exact ⟨hbytes, (congrArg Memory.wf (hf s.bc)).trans hscratch⟩

theorem memoryWf.putWay (h : memoryWf s) {key x} : memoryWf (putWay key x s) := h.modBc

theorem memoryWf.bcEvt (h : memoryWf s) {f port l} : memoryWf (bcEvt f port l s) := h.evt

theorem memoryWf.releaseTwin (h : memoryWf s) {l} : memoryWf (releaseTwin l s) := h.modBc

theorem memoryWf.addTwin (h : memoryWf s) {port l d} : memoryWf (addTwin port l d s) :=
  h.modBc.onlyIf (·.bcEvt)

theorem memoryWf.issueLine (h : memoryWf s) {l d} : memoryWf (issueLine l d s) := h.modBc.bump

theorem memoryWf.issueVictim (h : memoryWf s) {l} : memoryWf (issueVictim l s) :=
  h.onlyIf (·.modBc.bump)

theorem memoryWf.writebackDone (h : memoryWf s) {l} : memoryWf (writebackDone l s) := by
  unfold Machine.writebackDone
  extract_lets
  split
  · exact h.memPut.releaseTwin.modBc.modBc
  · split
    · exact h.memPut.releaseTwin.modBc.modBc
    · split
      · exact h.issueVictim.memPut.releaseTwin.modBc.modBc
      · exact h

theorem memoryWf.touchWay (h : memoryWf s) {key} : memoryWf (touchWay key s) := by
  unfold Machine.touchWay
  split
  · exact h
  · refine .ite (h.putWay.forEach (fun _ h => ?_)) h.putWay
    split
    · exact .ite h h.putWay
    · exact h

theorem memoryWf.allocate (h : memoryWf s) {x} : anyWf (allocate x s) := by
  unfold Machine.allocate
  split
  · exact h.some
  · split
    · exact h.putWay.touchWay.some
    · split
      · exact .none
      · exact h.modBc.putWay.touchWay.some

theorem memoryWf.deliverBytes (h : memoryWf s) {r d} : memoryWf (deliverBytes r d s) := .ite h h.emit

theorem memoryWf.serveLine (h : memoryWf s) {key x r} : memoryWf (serveLine key x r s) :=
  h.touchWay.andThen fun h => .ite h.deliverBytes (.ite (h.putWay.modBc.onlyIf (·.memPut))
    (.ite h.putWay.memPut (.ite h.putWay.memPut.bump h.putWay.addTwin)))

theorem memoryWf.serveVictim (h : memoryWf s) {v r} : anyWf (serveVictim v r s) := by
  unfold Machine.serveVictim
  extract_lets d wr left out cancelled through dirty s₀
  have h₀ : memoryWf s₀ := h.modBc
  split
  next => exact .none
  next u e =>
    extract_lets s₁ s₂ s₃
    have h₃ : memoryWf s₃ := ((h₀.allocate u e).bump.onlyIf (·.bump)).onlyIf (·.memPut.bump)
    exact .some (.deliverBytes (.ite (h₃.onlyIf (·.modBc)) (h₃.onlyIf (·.addTwin))))

theorem memoryWf.servePast (h : memoryWf s) {r} : memoryWf (servePast r s) :=
  .ite h.memPut h.deliverBytes

theorem memoryWf.serveReq (h : memoryWf s) {r} : anyWf (serveReq r s) := by
  unfold Machine.serveReq
  refine .ite h.servePast.some ?_
  dsimp only
  split
  · exact h.bump.serveLine.some
  · refine .ite ?_ ?_
    · split
      · exact .ite h.bump.modBc.memPut.some h.bump.deliverBytes.some
      · exact h.bump.servePast.some
    · split
      · exact h.serveVictim
      · split
        · exact h.modBc.bump.some
        · refine .ite ?_ (.ite h.modBc.bump.some .none)
          split
          next => exact .none
          next u e => exact .some (.ite (h.allocate u e).bump.memPut.bump (h.allocate u e).bump.addTwin)

theorem memoryWf.grantReq (h : memoryWf s) {r} : memoryWf (grantReq r s) :=
  .ite h.modBc (h.serveReq.orElse h.modBc)

theorem memoryWf.retryWaiting (h : memoryWf s) : memoryWf (retryWaiting s) :=
  h.modBc.forEach fun _ h => h.grantReq

theorem memoryWf.serveMiss (h : memoryWf s) {beats d reqs} : memoryWf (serveMiss beats d reqs s).2 := by
  induction reqs generalizing d s with
  | nil => exact h
  | cons r reqs ih => exact ih (h.onlyIf (·.deliverBytes))

theorem memoryWf.finishMiss (h : memoryWf s) {m} : memoryWf (finishMiss m s) := by
  unfold Machine.finishMiss
  refine .ite h (.ite (h.onlyIf (·.memPut)).modBc ?_)
  dsimp only
  split
  next => exact h
  next u e => exact .modBc (.ite (h.allocate u e).memPut.bump ((h.allocate u e).onlyIf (·.addTwin)))

theorem memoryWf.cacheGoOn (h : memoryWf s) : memoryWf (cacheGoOn s) :=
  (h.forEach (fun _ h => h.finishMiss)).retryWaiting

theorem memoryWf.fillBeatEff (h : memoryWf s) {l beat} : memoryWf (fillBeatEff l beat s) := by
  unfold Machine.fillBeatEff
  split
  · exact h
  · exact .ite h h.serveMiss.modBc.cacheGoOn

theorem memoryWf.writebackEff (h : memoryWf s) {l} : memoryWf (writebackEff l s) :=
  h.writebackDone.cacheGoOn

theorem memoryWf.modRange (h : memoryWf s) {f} : memoryWf (modRange f s) := h.modBc

theorem memoryWf.walkLine (h : memoryWf s) {r key} : memoryWf (walkLine r key s) := by
  unfold Machine.walkLine
  split
  · exact h
  · exact (h.onlyIf (·.issueLine.modRange)).andThen fun h => .ite h.putWay (.ite h.modRange h.putWay)

theorem memoryWf.walkTo (h : memoryWf s) {p} : memoryWf (walkTo p s) := by
  unfold Machine.walkTo
  split
  · exact h
  · exact (h.forEach (fun _ h => h.walkLine)).modRange

theorem memoryWf.rangeVictim (h : memoryWf s) {r v} : memoryWf (rangeVictim r v s) :=
  .ite h ((h.onlyIf (·.issueVictim.modRange)).andThen fun h => .ite h h.modBc)

theorem memoryWf.rangeStart (h : memoryWf s) {clean force whole} :
    memoryWf (rangeStart clean force whole s) :=
  .ite h.setF (h.setReg.modBc.forEach (fun _ h => h.rangeVictim))

theorem memoryWf.invDoneEff (h : memoryWf s) : memoryWf (invDoneEff s) := by
  unfold Machine.invDoneEff
  split
  · exact h
  · exact (((h.walkTo.forEach (fun _ h => h.writebackDone)).modBc.setReg.setF.onlyIf (·.setF)).evt.onlyIf
      (·.evt)).cacheGoOn

theorem memoryWf.victimWait (h : memoryWf s) : memoryWf (victimWait s) := by
  unfold Machine.victimWait
  split
  · exact h
  · split
    · exact h.writebackDone
    · exact h

theorem memoryWf.bringLine (h : memoryWf s) {l} : memoryWf (bringLine l s) := by
  unfold Machine.bringLine
  extract_lets s₁
  have h₁ : memoryWf s₁ := h.victimWait
  split
  · exact h₁
  · split
    · exact h₁.serveMiss.finishMiss
    · split
      · exact h₁.serveVictim.getD h₁
      · exact h₁.allocate.getD h₁

theorem memoryWf.lockLine (h : memoryWf s) {l} : memoryWf (lockLine l s).2 := by
  unfold Machine.lockLine
  refine .iteSnd h (.iteSnd h ?_)
  dsimp only
  split
  · exact h.bringLine
  · exact (h.bringLine.onlyIf (·.memPut.releaseTwin)).putWay

theorem memoryWf.lockLines (h : memoryWf s) {ls n f} : memoryWf (lockLines ls (n, f, s)).2.2 := by
  induction ls generalizing n f s with
  | nil => exact h
  | cons l ls ih =>
    unfold Machine.lockLines
    dsimp only
    split
    · exact ih h.lockLine
    · exact ih h.lockLine

theorem memoryWf.lockRefused (h : memoryWf s) : memoryWf (lockRefused s) := h.setReg

theorem memoryWf.lockEff (h : memoryWf s) : memoryWf (lockEff s) := by
  unfold Machine.lockEff
  refine .ite h.lockRefused (.cacheGoOn ?_)
  split
  · exact h.lockLines.setReg.setReg.evt
  · exact h.lockLines.setReg.setReg

theorem memoryWf.unlockEff (h : memoryWf s) {all_} : memoryWf (unlockEff all_ s) :=
  .ite h.lockRefused h.modBc.setReg

theorem memoryWf.disableEff (h : memoryWf s) : memoryWf (disableEff s) := by
  unfold Machine.disableEff
  refine .ite h.setF ((h.setF.setF.forEach (fun _ h => ?_)).forEach (fun _ h => h.issueVictim))
  split
  · exact h.onlyIf (·.issueLine.putWay)
  · exact h

theorem memoryWf.cleaningDoneEff (h : memoryWf s) : memoryWf (cleaningDoneEff s) :=
  .ite h ((h.forEach (fun _ h => h.writebackDone)).forEach
    (fun _ h => h.onlyIf (·.writebackDone))).modBc.setF.setF.evt.cacheGoOn

theorem memoryWf.enableEff (h : memoryWf s) : memoryWf (enableEff s) :=
  .ite h.setF.setF (h.setF.onlyIf (fun h => h.setF.onlyIf (·.evt)))

theorem memoryWf.cacheS5 (h : memoryWf s) {scratchWays hashSeed} :
    memoryWf (cacheS5 scratchWays hashSeed s) := by
  unfold Machine.cacheS5
  have hempty {s : State} (h : memoryWf s) : memoryWf (Machine.modBc (fun _ => {}) s) := ⟨h.1, rfl⟩
  refine (hempty ((h.forEach (fun _ h => ?_)).forEach (fun _ h => h.onlyIf (·.memPut)))).setReg.setReg.setF.setReg
  split
  · exact h.onlyIf (·.memPut)
  · exact h

theorem memoryWf.requestFails (h : memoryWf s) {tags} : memoryWf (requestFails tags s) := by
  unfold Machine.requestFails
  refine h.forEach fun _ h => ?_
  split
  · exact .ite h h.endCmd
  · exact h

theorem memoryWf.lineError (h : memoryWf s) {r tags sourceBad} :
    memoryWf (lineError r tags sourceBad s).2 := by
  unfold Machine.lineError
  extract_lets +onlyGivenNames l twin dirty drop
  have hdrop {s : State} (h : memoryWf s) : memoryWf (drop s) := by
    unfold drop
    split
    · exact h.putWay
    · exact h.modBc
  clear_value drop dirty twin
  refine .iteSnd (hdrop h).bump.bcEvt ?_
  dsimp only
  split
  · refine .iteSnd (hdrop h.setF).releaseTwin.modBc.bump.bcEvt.requestFails (.bcEvt (.bump ?_))
    split
    · exact h.setF.putWay
    · exact h.setF.modBc
  · exact h.setF

theorem memoryWf.cacheError (h : memoryWf s) {r tags e} : memoryWf (cacheError r tags e s).2 := by
  unfold Machine.cacheError
  refine .iteSnd h.bumpBy ?_
  split
  · exact h.bumpBy.lineError
  · split
    · exact h.bumpBy.onlyIf (·.issueLine.putWay)
    · exact h.bumpBy.issueVictim
  · exact h.bumpBy.modBc

theorem memoryWf.cacheRequestEff (h : memoryWf s) {r issued walked tags err} :
    memoryWf (cacheRequestEff r issued walked tags err s) := by
  unfold Machine.cacheRequestEff
  refine (h.forEach (fun _ h => h.issueVictim)).walkTo.andThen fun h => .ite h.requestFails (.ite ?_ (.grantReq ?_))
  · split
    · exact (h.onlyIf (·.setF)).cacheError
    · exact h.onlyIf (·.setF)
  · split
    · exact (h.onlyIf (·.setF)).cacheError
    · exact h.onlyIf (·.setF)

theorem memoryWf.forceDataEff (h : memoryWf s) : memoryWf (forceDataEff s) := h.setF

theorem memoryWf.forceTwinEff (h : memoryWf s) : memoryWf (forceTwinEff s) := h.setF

theorem memoryWf.bar2Eff (h : memoryWf s) {off len write bad} : memoryWf (bar2Eff off len write bad s) := by
  unfold Machine.bar2Eff
  refine .ite (.ite h h.emit) ?_
  extract_lets s₁ s₂ s₃
  have h₂ : memoryWf s₂ := h.bump.onlyIf (·.bumpBy)
  have h₃ : memoryWf s₃ := .ite h₂ (.ite h₂.bcEvt h₂.evt)
  split
  · exact ⟨h₃.1, Memory.wf_bar2Write _ _ _ _ h₃.2⟩
  · exact h₃.emit.useFree

/-! ### The partner unit and the mirror -/

theorem memoryWf.modPair (h : memoryWf s) {f} : memoryWf (modPair f s) := h.frame

theorem memoryWf.prlEvtWith (h : memoryWf s) {f more} : memoryWf (prlEvtWith f more s) := h.evt

theorem memoryWf.prlEvt (h : memoryWf s) {f} : memoryWf (prlEvt f s) := h.prlEvtWith

theorem memoryWf.runItem (h : memoryWf s) {m} : memoryWf (runItem m s) := by
  unfold Machine.runItem
  split
  · exact h.reachHeld
  · exact h.knotVerifiedEff
  · exact h.knotVerifiedEff
  · exact h

theorem memoryWf.mirrorAckEff (h : memoryWf s) {m} : memoryWf (mirrorAckEff m s) :=
  h.onlyIf (·.modPair.runItem)

theorem memoryWf.journalAckEff (h : memoryWf s) {seq} : memoryWf (journalAckEff seq s) :=
  h.modPair.set64.mirrorAckEff

theorem memoryWf.dropUnacked (h : memoryWf s) : memoryWf (dropUnacked s) :=
  h.modPair.forEach fun _ h => h.runItem

theorem memoryWf.forwardFail (h : memoryWf s) : memoryWf (forwardFail s) :=
  h.forEach fun _ h => h.onlyIf (·.endCmd.bump.prlEvt)

theorem memoryWf.partnerTo (h : memoryWf s) {tgt why src seq claims} :
    memoryWf (partnerTo tgt why src seq claims s) :=
  h.changeUnit.andThen fun h => .ite (.ite h.dropUnacked (.ite h h.forwardFail)) (h.onlyIf (·.prlEvt))

theorem memoryWf.partnerStart (h : memoryWf s) {why src seq} : memoryWf (partnerStart why src seq s) :=
  h.partnerTo.modPair.onlyIf (·.bump.emit)

theorem memoryWf.partnerDetach (h : memoryWf s) {src seq} : memoryWf (partnerDetach src seq s) :=
  (h.onlyIf (·.emit)).modPair.partnerTo

/-! ### The sequencer's requests (R502 to R508) -/

theorem memoryWf.takeHead (h : memoryWf s) {r} : memoryWf (takeHead r s) := by
  unfold Machine.takeHead
  refine .bump ?_
  split
  · exact h.frame.modCmd.onlyIf (·.emit)
  · exact h.frame

theorem memoryWf.failReq (h : memoryWf s) {r st} : memoryWf (failReq r st s) :=
  (h.onlyIf (·.bump.evt)).finishReq

theorem memoryWf.takeReq (h : memoryWf s) {k code f} (hf : ∀ {s} x, memoryWf s → memoryWf (f x s)) :
    memoryWf (takeReq k code f s) := by
  unfold Machine.takeReq
  split
  · refine .ite ?_ h
    dsimp only
    split
    · exact h.takeHead.failReq
    · exact hf _ h.takeHead
  · exact h

theorem memoryWf.openReq (h : memoryWf s) {r} : memoryWf (openReq r s) := h.frame

theorem memoryWf.reqChange (h : memoryWf s) {r tgt} : memoryWf (reqChange r tgt s) := h.changeUnit

theorem memoryWf.reqDone (h : memoryWf s) {r tgt} : memoryWf (reqDone r tgt s) := h.openReq.reqChange

theorem memoryWf.strandsTo (h : memoryWf s) {c tgt why} : memoryWf (strandsTo c tgt why s) :=
  h.forEach fun _ h => .ite h h.change

theorem memoryWf.carDown (h : memoryWf s) {c} : memoryWf (carDown c s) :=
  h.stopWriteNow.strandsTo.carriageDark

theorem memoryWf.discDown (h : memoryWf s) {why} : memoryWf (discDown why s) :=
  (h.forEach (fun _ h => .ite h h.change)).unmount

theorem memoryWf.goOffline (h : memoryWf s) {r} : memoryWf (goOffline r s) :=
  h.reqDone.andThen fun h => .ite h.carDown (.ite h.spnStopEff (h.onlyIf (·.discDown)))

theorem memoryWf.offlineReq (h : memoryWf s) {r} : memoryWf (offlineReq r s) :=
  .ite (.ite h.openReq.partnerDetach h.finishReq) (.ite h.finishReq
    (.ite h.finishReq (.ite (.ite h.reqDone.carDown (h.reqDone.onlyIf (·.discDown)))
      (.ite (h.openReq.reqChange.onlyIf (·.modDisc.sealAll)) (.ite h.openReq h.goOffline)))))

theorem memoryWf.unitOfflineEff (h : memoryWf s) : memoryWf (unitOfflineEff s) :=
  h.takeReq fun _ h => h.offlineReq

theorem memoryWf.startCar (h : memoryWf s) {r} : memoryWf (startCar r s) :=
  (((h.forEach (fun _ h => h.loopClrFaultEff)).crgClrFaultEff.openReq.reqChange.forEach
    (fun _ h => h.onlyIf (·.change))).onlyIf (·.acquireCar)).carReadyCheck

theorem memoryWf.startSpindle (h : memoryWf s) {r} : memoryWf (startSpindle r s) := by
  unfold Machine.startSpindle
  refine (h.spnClrFaultEff.forEach (fun _ h => ?_)).openReq.reqChange.onlyIf (·.spnStartEff)
  split
  · exact h.loopClrFaultEff
  · exact h

theorem memoryWf.readyReq (h : memoryWf s) {r} : memoryWf (readyReq r s) :=
  .ite h.finishReq (.ite h.finishReq (.ite h.finishReq
    (.ite (.ite h.openReq.partnerStart (.ite h.openReq h.finishReq))
      (.ite h.finishReq (.ite (.ite h.startSpindle h.openReq)
        (.ite h.startCar (.ite h.startSpindle (.ite (.ite h.openReq.mountStartEff h.finishReq)
          (.ite (.ite h.reqChange.reqDone (.ite h.openReq.reqChange h.finishReq))
            (.ite (.ite h.openReq.reqChange.strandReadyCheck h.finishReq)
              (.ite (.ite h.reqDone h.finishReq) h.finishReq)))))))))))

theorem memoryWf.unitReadyEff (h : memoryWf s) : memoryWf (unitReadyEff s) :=
  h.takeReq fun _ h => h.readyReq

theorem memoryWf.serviceReq (h : memoryWf s) {r} : memoryWf (serviceReq r s) :=
  .ite h.finishReq (.ite h.finishReq (.ite h.finishReq
    (.ite h.finishReq (.ite (.ite h.finishReq h.frame.modDisc.sealAll)
      (.ite h.openReq.reqChange (.ite h.openReq h.reqDone))))))

theorem memoryWf.unitServiceEff (h : memoryWf s) : memoryWf (unitServiceEff s) :=
  h.takeReq fun _ h => h.serviceReq

theorem memoryWf.commitOff (h : memoryWf s) : memoryWf (commitOff s) := h.onlyIf (·.modDisc)

theorem memoryWf.bufServiceReadyEff (h : memoryWf s) : memoryWf (bufServiceReadyEff s) := by
  unfold Machine.bufServiceReadyEff
  split
  · exact h
  · exact .ite h.finishReq.frame.commitOff (.ite (h.onlyIf (·.finishReq.frame.commitOff))
      (.ite h h.reqDone.frame.commitOff))

theorem memoryWf.drainForReqs (h : memoryWf s) {u} : memoryWf (drainForReqs u s) := by
  unfold Machine.drainForReqs
  split
  · exact .ite (h.reqChange.andThen fun h => .ite h.carDown (.ite h.spnStopEff (h.onlyIf (·.discDown.commitOff))))
      h.reqChange
  · exact h

theorem memoryWf.leaveSuspect (h : memoryWf s) {why present u} :
    memoryWf (leaveSuspect why present u s) := by
  unfold Machine.leaveSuspect
  refine .ite (.ite h.change.carDown (h.change.onlyIf (·.discDown))) ?_
  split
  · exact h.change
  · exact h.change
  · exact h.change
  · exact h.change
  · exact h.change.andThen fun h => .ite h.carReadyCheck
      (.ite h.strandReadyCheck (.ite (h.onlyIf (·.change)) (h.onlyIf (·.partnerTo))))

theorem memoryWf.assertReq (h : memoryWf s) {claim answers r} : memoryWf (assertReq claim answers r s) :=
  .ite h.finishReq (.ite (.ite h.leaveSuspect.finishReq h.finishReq)
    (.ite (.finishReq (.ite h.change (h.onlyIf (·.change.carDown)))) h.suspectUnit.bump.evt.finishReq))

theorem memoryWf.assertPresentEff (h : memoryWf s) {answers} : memoryWf (assertPresentEff answers s) :=
  h.takeReq fun _ h => h.assertReq

theorem memoryWf.assertAbsentEff (h : memoryWf s) {answers} : memoryWf (assertAbsentEff answers s) :=
  h.takeReq fun _ h => h.assertReq

theorem memoryWf.unitQueryEff (h : memoryWf s) : memoryWf (unitQueryEff s) := by
  unfold Machine.unitQueryEff
  split
  · exact h.onlyIf (·.takeHead.finishReq)
  · exact h

theorem memoryWf.volumeInfoEff (h : memoryWf s) : memoryWf (volumeInfoEff s) := by
  unfold Machine.volumeInfoEff
  split
  · refine .ite h ?_
    dsimp only
    split
    · split
      · exact .endCmd (.ite h.takeHead (.ite h.takeHead.emit h.takeHead.emit))
      · exact h.takeHead
    · exact h.takeHead
  · exact h

theorem memoryWf.policyReq (h : memoryWf s) {u code} : memoryWf (policyReq u code s) := h.frame

theorem memoryWf.policyStarts (h : memoryWf s) : memoryWf (policyStarts s) :=
  h.onlyIf fun h => .ite h.policyReq (h.policyReq.forEach (fun _ h => h.policyReq))

theorem memoryWf.spnStartReq (h : memoryWf s) : memoryWf (spnStartReq s) := h.policyReq

theorem memoryWf.spnStopReq (h : memoryWf s) : memoryWf (spnStopReq s) := h.policyReq

theorem memoryWf.discGone (h : memoryWf s) : memoryWf (discGone s) :=
  .unmount (.forEach (.onlyIf (.forEach (.ite h h.change) (fun _ h => h.change)) (·.spnUnit.spnStopEff))
    (fun _ h => .ite h (h.stopWriteNow.change.forEach (fun _ h => .ite h h.change)).carriageDark))

theorem memoryWf.discPresentEff (h : memoryWf s) {active carts} : memoryWf (discPresentEff active carts s) :=
  h.frame.andThen fun h => .ite h (.ite (h.onlyIf (fun h => .ite h.leaveSuspect h.leaveSuspect.discGone))
    (.ite h.discGone (h.onlyIf (fun h => (h.change.forEach (fun _ h => h.change)).policyStarts))))

theorem memoryWf.watchdogEff (h : memoryWf s) : memoryWf (watchdogEff s) :=
  .ite h ((h.forEach (fun _ h => h.suspectUnit)).forEach (fun _ h => h.stopAtSlot)).modSpn.frame.evt

theorem memoryWf.watchdogRestartEff (h : memoryWf s) : memoryWf (watchdogRestartEff s) :=
  .ite h (((h.frame.modSpn.forEach (fun _ h => h.change)).forEach (fun _ h => h.onlyIf (·.carReadyCheck))).forEach
    (fun _ h => h.onlyIf (·.strandReadyCheck))).arbitrate

/-! ### Halting and units out of service -/

theorem memoryWf.releaseOutputs (h : memoryWf s) : memoryWf (releaseOutputs s) := h.frame

theorem memoryWf.halt (h : memoryWf s) {cause} : memoryWf (halt cause s) :=
  h.setF.setF.releaseOutputs

theorem memoryWf.glbEvt (h : memoryWf s) {f more} : memoryWf (glbEvt f more s) := h.evt

theorem memoryWf.degraded (h : memoryWf s) {group inst} : memoryWf (degraded group inst s) :=
  h.glbEvt

theorem memoryWf.bistOut (h : memoryWf s) {group inst} : memoryWf (bistOut group inst s) :=
  .ite h.halt (.ite (.ite h.frame.halt h.frame.degraded)
    (.ite h.frame.degraded (.ite h.frame.degraded (.ite h.frame.degraded
      (.ite (h.degraded.onlyIf (·.change.carGradeCheck)) (h.degraded.onlyIf (·.partnerTo)))))))

/-! ### Calibrations and self-tests (R477 to R496) -/

theorem memoryWf.addRun (h : memoryWf s) {x} : memoryWf (addRun x s) := h.frame

theorem memoryWf.modRun (h : memoryWf s) {x f} : memoryWf (modRun x f s) := h.frame

theorem memoryWf.startRun (h : memoryWf s) {x} : memoryWf (startRun x s) :=
  (h.onlyIf (·.bumpBy)).modRun.andThen fun h => .ite h (.ite h.spnStopEff h.modSpn.arbitrate)

theorem memoryWf.calReq (h : memoryWf s) {r} : memoryWf (calReq r s) :=
  .ite h.finishReq (h.addRun.andThen fun h => .ite (h.onlyIf (·.setHold)).startRun
    (.ite h.setHold.startRun h.changeUnit))

theorem memoryWf.calibrateEff (h : memoryWf s) {code} : memoryWf (calibrateEff code s) :=
  h.takeReq fun _ h => h.calReq

theorem memoryWf.selfTestEff (h : memoryWf s) {code} : memoryWf (selfTestEff code s) :=
  h.takeReq fun _ h => h.calReq

theorem memoryWf.drainCompleteEff (h : memoryWf s) {u} : memoryWf (drainCompleteEff u s) := by
  unfold Machine.drainCompleteEff
  refine .ite h ?_
  split
  · exact h.setHold.change.startRun
  · exact h.drainForReqs

theorem memoryWf.figures (h : memoryWf s) {q0 q1} : memoryWf (figures q0 q1 s) := h.setReg.setReg

theorem memoryWf.endRun (h : memoryWf s) {x st outcome} : memoryWf (endRun x st outcome s) :=
  h.setHold.andThen fun h => .ite (.andThen (.modSpn (.ite h h.spnStopped)) fun h => .ite
    h.spnStartEff.calRecord.finishReq h.modRun.change.spnStartEff)
      (.finishReq (.arbitrate (.onlyIf (.ite h.calRecord h.calRecord.change) (·.carReadyCheck))))

theorem memoryWf.endMeasured (h : memoryWf s) {x ok reject} : memoryWf (endMeasured x ok reject s) :=
  .ite h.endRun h.endRun

theorem memoryWf.calWrite (h : memoryWf s) {typ index payload} : memoryWf (calWrite typ index payload s) :=
  h.askMram.bump

theorem memoryWf.applyZone (h : memoryWf s) {x e} : memoryWf (applyZone x e s) := h.frame.calWrite

theorem memoryWf.strandFigures (h : memoryWf s) {cs k} : memoryWf (strandFigures cs k s) := h.setReg

theorem memoryWf.acceptStrand (h : memoryWf s) {c k} : memoryWf (acceptStrand c k s) :=
  h.modWcar.onlyIf (·.change)

theorem memoryWf.endChannel (h : memoryWf s) {x zs} : memoryWf (endChannel x zs s) := by
  unfold Machine.endChannel
  extract_lets c res all_ ok s₁ s₂ s₃
  have h₁ : memoryWf s₁ := h.useFree.forEach fun _ h => h.strandFigures
  have h₂ : memoryWf s₂ := by
    unfold s₂
    split
    · exact h₁.figures
    · exact h₁.figures
  exact .endMeasured (h₂.onlyIf fun h => (h.forEach fun _ h => h.applyZone).forEach fun _ h => h.acceptStrand)

theorem memoryWf.writeCam (h : memoryWf s) {r x0 step vals} : memoryWf (writeCam r x0 step vals s) :=
  h.modCam

theorem memoryWf.writeServoCam (h : memoryWf s) {c idx x0 step vals miss}
    (hmiss : ∀ {s}, memoryWf s → memoryWf (miss s)) :
    memoryWf (writeServoCam c idx x0 step vals miss s) := by
  unfold Machine.writeServoCam
  split
  · exact h.writeCam
  · exact hmiss h

theorem memoryWf.endServo (h : memoryWf s) {x ps} : memoryWf (endServo x ps s) :=
  (h.figures.onlyIf (fun h => .ite ((h.calWrite.writeServoCam (·.calEvt)).writeServoCam (·.calEvt))
    (((h.calWrite.writeServoCam (·.calEvt)).writeServoCam (·.calEvt)).writeServoCam (·.calEvt)))).endMeasured

theorem memoryWf.loadServo (h : memoryWf s) {c} : memoryWf (loadServo c s) := by
  unfold Machine.loadServo
  split
  · exact h.readRec
  · have part {s : State} (h : memoryWf s) {on sound : Bool} {is : List Nat} {names : Nat → Bool} {x0 : Int}
        {vals : Nat → List Int} {items : List Item} :
        memoryWf (if !on then s else if sound then
          Machine.forEach (fun i s => if names i then Machine.writeServoCam c i x0 one24 (vals i) id s else s) is s
          else Machine.evt Fld.CAL_EVT_CAM_BINDING (uCar c) items s) :=
      .ite h (.ite (h.forEach fun _ h => h.onlyIf (·.writeServoCam id)) h.evt)
    exact part (part h)

theorem memoryWf.endPower (h : memoryWf s) {x exhausted ss} : memoryWf (endPower x exhausted ss s) := by
  unfold Machine.endPower
  refine .ite h.bumpBy.endRun ?_
  dsimp only
  split
  · exact h.bumpBy.useFree.endMeasured
  · exact ((h.bumpBy.useFree.figures.forEach fun _ h => h.setReg).onlyIf (·.calWrite.grantFresh.settle)).endMeasured

theorem memoryWf.endSled (h : memoryWf s) {x rs} : memoryWf (endSled x rs s) :=
  .endMeasured (.figures (.ite h.setReg.calWrite h.setReg.setReg))

theorem memoryWf.endSpindle (h : memoryWf s) {x r l ke inertia drag residual} :
    memoryWf (endSpindle x r l ke inertia drag residual s) :=
  ((h.figures.onlyIf (·.calEvt)).onlyIf (·.calWrite)).endMeasured

theorem memoryWf.checkerFailed (h : memoryWf s) {x e} : memoryWf (checkerFailed x e s) :=
  .ite h.bump.calEvt h.bump.bistOut

theorem memoryWf.endParity (h : memoryWf s) {x failed lane} : memoryWf (endParity x failed lane s) :=
  ((h.setF.forEach (fun _ h => h.checkerFailed)).onlyIf (·.bump.change.setF.evt)).andThen fun h => .ite h.endRun
    h.endRun

theorem memoryWf.endMram (h : memoryWf s) {x ok} : memoryWf (endMram x ok s) :=
  .ite h.bumpBy.endRun h.bumpBy.calEvt.endRun

theorem memoryWf.marchChannel (h : memoryWf s) {ch} : memoryWf (marchChannel ch s) := by
  unfold Machine.marchChannel
  refine (h.forEach (fun _ h => ?_)).filterBytes.forEach (fun _ h => ?_)
  · split
    · exact .ite h (h.onlyIf (·.memPut.releaseTwin)).putWay
    · exact h
  · split
    · exact h.onlyIf (·.memPut)
    · exact h

theorem memoryWf.endBist (h : memoryWf s) {x ok} : memoryWf (endBist x ok s) :=
  .ite h.marchChannel.endRun h.calEvt.bump.endRun.change

theorem memoryWf.calEndEff (h : memoryWf s) {u d} : memoryWf (calEndEff u d s) := by
  unfold Machine.calEndEff
  extract_lets find
  have hfind {op codes f} (hf : ∀ x, memoryWf (f x s)) : memoryWf (find op codes f) := by
    unfold find
    split
    · exact hf _
    · exact h
  split
  · exact hfind fun _ => h.endChannel
  · exact hfind fun _ => h.endServo
  · exact hfind fun _ => h.endPower
  · exact hfind fun _ => h.endSled
  · exact hfind fun _ => h.endSpindle
  · exact hfind fun _ => h.endParity
  · exact hfind fun _ => h.endMram
  · exact hfind fun _ => h.endBist

theorem memoryWf.calTimeoutEff (h : memoryWf s) {u} : memoryWf (calTimeoutEff u s) := by
  unfold Machine.calTimeoutEff
  split
  · exact h.calEvt.endRun
  · exact h

theorem memoryWf.forceCheckerEff (h : memoryWf s) : memoryWf (forceCheckerEff s) := h.setF

/-! ### Image chains and the boot stages (R65 to R77, R465 to R468) -/

theorem memoryWf.modImg (h : memoryWf s) {f} : memoryWf (modImg f s) := h.frame

theorem memoryWf.imgErr (h : memoryWf s) {op code sec ofs} : memoryWf (imgErr op code sec ofs s) :=
  h.setFs.setReg

theorem memoryWf.imgRefuse (h : memoryWf s) {op code} : memoryWf (imgRefuse op code s) := h.imgErr

theorem memoryWf.setOp (h : memoryWf s) {o} : memoryWf (setOp o s) := h.modImg.setFlag

theorem memoryWf.enterStage (h : memoryWf s) {n} : memoryWf (enterStage n s) :=
  h.setF.setF.frame.onlyIf (·.setReg)

theorem memoryWf.showImage (h : memoryWf s) {i src fallback} : memoryWf (showImage i src fallback s) :=
  (h.set64.setReg.forEach (fun _ h => h.setReg)).setFs

theorem memoryWf.runImage (h : memoryWf s) {cand src i} : memoryWf (runImage cand src i s) :=
  (h.modImg.setF.onlyIf (·.evt)).showImage.enterStage

theorem memoryWf.runRom (h : memoryWf s) {held} : memoryWf (runRom held s) := h.modImg.runImage

theorem memoryWf.nextCandidate (h : memoryWf s) : memoryWf (nextCandidate s) := by
  unfold Machine.nextCandidate
  split
  · exact h.modImg.setF
  · exact h.runRom
  · exact h

theorem memoryWf.rejectHead (h : memoryWf s) : memoryWf (rejectHead s) := h.modImg.nextCandidate

theorem memoryWf.startFlash (h : memoryWf s) : memoryWf (startFlash s) := h.modImg

theorem memoryWf.startChain (h : memoryWf s) : memoryWf (startChain s) := by
  unfold Machine.startChain
  extract_lets
  split
  · exact h.modImg.startFlash
  · exact h.modImg.runRom
  · exact h.modImg.runRom
  · exact (h.modImg.onlyIf (·.emit)).modImg

theorem memoryWf.flashReadEff (h : memoryWf s) {hdrA hdrB bytes} :
    memoryWf (flashReadEff hdrA hdrB bytes s) := by
  unfold Machine.flashReadEff
  refine .ite h ?_
  extract_lets s₁
  have h₁ : memoryWf s₁ := h.onlyIf (·.modImg)
  split
  · exact h₁
  · split
    · exact h₁.imgRefuse.rejectHead
    · split
      · exact h₁.imgErr.rejectHead
      · exact h₁.runImage

theorem memoryWf.pairImageEff (h : memoryWf s) {bytes} : memoryWf (pairImageEff bytes s) := by
  unfold Machine.pairImageEff
  refine .ite h ?_
  split
  · exact h.imgErr.modImg.startFlash
  · exact h.runImage

theorem memoryWf.pairTimeoutEff (h : memoryWf s) : memoryWf (pairTimeoutEff s) :=
  .ite h h.modImg.startFlash

theorem memoryWf.failStep12 (h : memoryWf s) {i} : memoryWf (failStep12 i s) :=
  h.enterStage.andThen fun h => .ite h.imgErr.setF.setOp.evt.startChain
    (.ite h.imgErr.modImg.startFlash h.imgErr.modImg.rejectHead)

theorem memoryWf.enterS5 (h : memoryWf s) : memoryWf (enterS5 s) := by
  unfold Machine.enterS5
  split
  · exact h
  · exact h.enterStage.cacheS5.onlyIf fun h => .ite h.failStep12 h.setF

theorem memoryWf.bistDoneEff (h : memoryWf s) {fails} : memoryWf (bistDoneEff fails s) :=
  .ite h ((h.setFs.frame.forEach (fun _ h => h.bistOut)).andThen fun h => .ite h h.enterS5)

theorem memoryWf.decideEarly (h : memoryWf s) {u tgt why} : memoryWf (decideEarly u tgt why s) :=
  h.frame

theorem memoryWf.channelTrained (h : memoryWf s) {ch ok} : memoryWf (channelTrained ch ok s) :=
  .ite h.setFlag h.setFlag.decideEarly.evt

theorem memoryWf.trainingEff (h : memoryWf s) {ok0 ok1 org0 org1} :
    memoryWf (trainingEff ok0 ok1 org0 org1 s) := by
  unfold Machine.trainingEff
  split
  · exact h
  · exact .ite h (.ite h.channelTrained.channelTrained.halt
      (.ite h.failStep12 h.channelTrained.channelTrained.setReg.setFs.setF))

theorem memoryWf.withKey (h : memoryWf s) {key f} (hf : ∀ {s}, memoryWf s → memoryWf (f s)) :
    memoryWf (withKey key f s) := .ite (hf h) h.imgRefuse

theorem memoryWf.whenFree (h : memoryWf s) {f} (hf : ∀ {s}, memoryWf s → memoryWf (f s)) :
    memoryWf (whenFree f s) := .ite (hf h) h.imgRefuse

theorem memoryWf.quiesceEff (h : memoryWf s) : memoryWf (quiesceEff s) := .ite h h.setF.sealAll

theorem memoryWf.quiesceDoneEff (h : memoryWf s) : memoryWf (quiesceDoneEff s) :=
  .ite h (.ite h ((h.setF.modImg.forEach (fun _ h => h.change.carDown)).onlyIf (·.imgRefuse)).evt)

theorem memoryWf.resumeEff (h : memoryWf s) : memoryWf (resumeEff s) :=
  h.onlyIf fun h => h.setF.modImg.forEach (fun _ h => h.policyReq)

theorem memoryWf.hostApplied (h : memoryWf s) : memoryWf (hostApplied s) :=
  h.frame

theorem memoryWf.enterApply (h : memoryWf s) {src i} : memoryWf (enterApply src i s) := by
  unfold Machine.enterApply
  extract_lets +onlyGivenNames was s₁
  have h₁ : memoryWf s₁ := h.setF.setOp.releaseOutputs
  refine .runImage (.enterStage (.setF (.setF (.modImg (.ite h₁ (.keepRegs (.frame (.hostApplied ?_))))))))
  exact .frame (.modDisc h₁.frame)

theorem memoryWf.applyEff (h : memoryWf s) {key} : memoryWf (applyEff key s) := by
  unfold Machine.applyEff
  refine h.withKey fun h => h.whenFree (fun h => .ite h.imgRefuse (.ite h (.ite h.imgRefuse ?_)))
  split
  · exact h.imgRefuse
  · exact .ite h.setOp.emit h.enterApply

theorem memoryWf.clearStaged (h : memoryWf s) : memoryWf (clearStaged s) := h.modImg.setF

theorem memoryWf.validateStaged (h : memoryWf s) {byDmp bytes} :
    memoryWf (validateStaged byDmp bytes s) := by
  unfold Machine.validateStaged
  extract_lets
  split
  · exact h.setOp.imgErr.evt
  · exact h.setOp.modImg.setF.evt

theorem memoryWf.fetchImageEff (h : memoryWf s) : memoryWf (fetchImageEff s) :=
  h.whenFree fun h => .ite h.imgRefuse h.clearStaged.setOp.emit

theorem memoryWf.fetchDoneEff (h : memoryWf s) {bytes} : memoryWf (fetchDoneEff bytes s) := by
  unfold Machine.fetchDoneEff
  refine .ite h ?_
  split
  · exact h.setOp.imgRefuse.evt
  · exact h.validateStaged

theorem memoryWf.progEff (h : memoryWf s) {slotB key} : memoryWf (progEff slotB key s) := by
  unfold Machine.progEff
  refine h.withKey fun h => h.whenFree (fun h => ?_)
  split
  · exact h.imgRefuse
  · exact .ite h.imgRefuse h.setOp.emit

theorem memoryWf.progDoneEff (h : memoryWf s) {same} : memoryWf (progDoneEff same s) := by
  unfold Machine.progDoneEff
  split
  · exact h.setOp.modImg.evt
  · exact h

theorem memoryWf.burn (h : memoryWf s) {f} : memoryWf (burn f s) := h.modImg

theorem memoryWf.burnEff (h : memoryWf s) {key refused f} (hf : ∀ {s}, memoryWf s → memoryWf (f s)) :
    memoryWf (burnEff key refused f s) :=
  h.withKey fun h => h.whenFree (fun h => .ite h.imgRefuse (.ite h.imgRefuse (hf h)))

theorem memoryWf.burnKeyEff (h : memoryWf s) {key} : memoryWf (burnKeyEff key s) :=
  h.burnEff (·.burn)

theorem memoryWf.burnEnforceEff (h : memoryWf s) {key} : memoryWf (burnEnforceEff key s) :=
  h.burnEff (·.burn)

theorem memoryWf.burnNoRomEff (h : memoryWf s) {key} : memoryWf (burnNoRomEff key s) :=
  h.burnEff (·.burn)

theorem memoryWf.burnRevokeEff (h : memoryWf s) {key n} : memoryWf (burnRevokeEff key n s) :=
  h.burnEff (·.burn)

/-! ### The management port's settings -/

theorem memoryWf.modMgt (h : memoryWf s) {f} : memoryWf (modMgt f s) := h.frame

theorem memoryWf.addrEvt (h : memoryWf s) : memoryWf (addrEvt s) := h.evt

theorem memoryWf.putIpv4 (h : memoryWf s) {a} : memoryWf (putIpv4 a s) := h.setReg.setFlag

theorem memoryWf.putIpv6 (h : memoryWf s) {a} : memoryWf (putIpv6 a s) :=
  (h.forEach (fun _ h => h.setReg)).setFlag

theorem memoryWf.applyNet (h : memoryWf s) {net} : memoryWf (applyNet net s) :=
  .ite h.modMgt.setFlag.putIpv4.putIpv6 h.modMgt.setFlag.putIpv4.putIpv6.modMgt.setF

theorem memoryWf.addrChangeEff (h : memoryWf s) {v6 a} : memoryWf (addrChangeEff v6 a s) :=
  .ite h (.ite (h.onlyIf (·.putIpv6.addrEvt)) (h.onlyIf (·.putIpv4.addrEvt)))

theorem memoryWf.netApplyEff (h : memoryWf s) : memoryWf (netApplyEff s) := by
  unfold Machine.netApplyEff
  split
  · exact h
  · exact h.modMgt.applyNet.onlyIf (·.addrEvt)

/-! ### Supplies, resets, power failure and the work of S6 and S7 (R454 to R476) -/

theorem memoryWf.modPwr (h : memoryWf s) {f} : memoryWf (modPwr f s) := h.frame

theorem memoryWf.resetWith (_ : memoryWf s) {keep} : memoryWf (resetWith keep s) := ⟨rfl, rfl⟩

theorem memoryWf.coldReset (h : memoryWf s) : memoryWf (coldReset s) :=
  h.resetWith.modPwr.frame.setReg

theorem memoryWf.enterS2 (h : memoryWf s) : memoryWf (enterS2 s) :=
  h.onlyIf fun h => h.modPwr.enterStage.onlyIf (·.setF.glbEvt)

theorem memoryWf.warmReset (h : memoryWf s) {cause} : memoryWf (warmReset cause s) :=
  h.resetWith.bumpBy.setReg.modPwr.enterStage.enterS2

theorem memoryWf.coldResetEff (h : memoryWf s) : memoryWf (coldResetEff s) := h.coldReset

theorem memoryWf.railFailEff (h : memoryWf s) : memoryWf (railFailEff s) :=
  h.coldReset.releaseOutputs

theorem memoryWf.railsGoodEff (h : memoryWf s) : memoryWf (railsGoodEff s) :=
  h.onlyIf (·.modPwr.enterStage)

theorem memoryWf.holdEndEff (h : memoryWf s) : memoryWf (holdEndEff s) := h.onlyIf (·.modPwr.enterS2)

theorem memoryWf.pllLockEff (h : memoryWf s) : memoryWf (pllLockEff s) := h.onlyIf (·.modPwr.enterS2)

theorem memoryWf.resetAssertEff (h : memoryWf s) : memoryWf (resetAssertEff s) :=
  .ite h.modPwr.warmReset h.modPwr

theorem memoryWf.resetRiseEff (h : memoryWf s) {straps} : memoryWf (resetRiseEff straps s) :=
  .ite h h.setReg.modPwr.enterS2

theorem memoryWf.saveNow (h : memoryWf s) {same} : memoryWf (saveNow same s) := h.putSlot.frame

theorem memoryWf.softResetEff (h : memoryWf s) {v same} : memoryWf (softResetEff v same s) :=
  h.onlyIf (·.saveNow.warmReset)

theorem memoryWf.clockLossEff (h : memoryWf s) : memoryWf (clockLossEff s) :=
  h.onlyIf (·.modPwr.releaseOutputs.setF.setF)

theorem memoryWf.clockRelockEff (h : memoryWf s) : memoryWf (clockRelockEff s) :=
  h.onlyIf (·.warmReset)

theorem memoryWf.afterChain (h : memoryWf s) : memoryWf (afterChain s) := h.onlyIf (·.applyNet)

theorem memoryWf.romCheckEff (h : memoryWf s) {ok} : memoryWf (romCheckEff ok s) :=
  .ite h (.ite h.enterStage.startChain.afterChain h.halt)

theorem memoryWf.flashReadRow (h : memoryWf s) {fast hdrA hdrB bytes} :
    memoryWf (flashReadRow fast hdrA hdrB bytes s) := (h.onlyIf (·.setFlag)).flashReadEff.afterChain

theorem memoryWf.bistDoneRow (h : memoryWf s) {fails} : memoryWf (bistDoneRow fails s) :=
  h.bistDoneEff.afterChain

theorem memoryWf.trainingRow (h : memoryWf s) {ok0 ok1 org0 org1} :
    memoryWf (trainingRow ok0 ok1 org0 org1 s) :=
  h.trainingEff.afterChain

theorem memoryWf.driveOutputs (h : memoryWf s) : memoryWf (driveOutputs s) :=
  h.frame

theorem memoryWf.takeOwnership (h : memoryWf s) : memoryWf (takeOwnership s) := h.frame.setF

theorem memoryWf.ownAtS6 (h : memoryWf s) : memoryWf (ownAtS6 s) :=
  .ite h.takeOwnership (.ite h (.ite h.frame (h.onlyIf (·.takeOwnership))))

theorem memoryWf.sampleNet (h : memoryWf s) {high} : memoryWf (sampleNet high s) := h.frame

/-- At the entry to S6 the bytes above the firmware's area are dropped, or all of them. -/
theorem memoryWf.fillDropped (h : memoryWf s) {c : Bool} {p : Nat × Byte → Bool} :
    memoryWf (Machine.modMem (fun m => { m with bytes := if c then m.bytes.filter p else [] }) s) := by
  cases c with
  | true => exact h.filterBytes
  | false => exact ⟨rfl, h.2⟩

theorem memoryWf.bringupEff (h : memoryWf s) {ownHigh} : memoryWf (bringupEff ownHigh s) :=
  .ite h (.ownAtS6 (.sampleNet (.modPwr (.frame (.bumpBy (.enterStage h.fillDropped))))))

theorem memoryWf.recordFirst (h : memoryWf s) {u to_} : memoryWf (recordFirst u to_ s) :=
  .ite (.ite h.frame.frame h.frame.putState.recordChange) h.change

theorem memoryWf.loadImage (h : memoryWf s) {i} : memoryWf (loadImage i s) :=
  (h.setReg.setReg.setF.setF.forEach (fun _ h => h.setReg)).setReg.modMgt.applyNet.setReg.modSpn.arbitrate

theorem memoryWf.loadCams (h : memoryWf s) {i} : memoryWf (loadCams i s) := by
  unfold Machine.loadCams
  exact .forEach (.forEach h.frame fun _ h => h.modCam) fun _ h => .ite h h.modCar.crgEvt

theorem memoryWf.loadHomes (h : memoryWf s) : memoryWf (loadHomes s) := by
  unfold Machine.loadHomes
  refine h.forEach fun _ h => ?_
  split
  · exact h.setReg
  · exact h

theorem memoryWf.loadRuns (h : memoryWf s) : memoryWf (loadRuns s) := h.setReg

theorem memoryWf.armLoops (h : memoryWf s) {i} : memoryWf (armLoops i s) :=
  h.forEach fun _ h => h.onlyIf (·.askEnable)

theorem memoryWf.armEff (h : memoryWf s) {answers} : memoryWf (armEff answers s) := by
  unfold Machine.armEff
  split
  · exact h
  · exact .ite h ((((((h.modPwr.loadImage.forEach (fun _ h => h.readRec)).buildZones.onlyIf
      (·.modPair.prlEvt)).forEach (fun _ h => h.recordFirst)).setReg.loadLoops.loadCams.forEach
        (fun _ h => h.loadServo)).loadHomes.loadRuns.setReg.frame.onlyIf (·.modPair)).onlyIf
          (·.driveOutputs.armLoops)).modPwr

theorem memoryWf.runEntryEff (h : memoryWf s) : memoryWf (runEntryEff s) :=
  .ite h (h.enterStage.onlyIf (·.setF.setOp)).policyStarts

theorem memoryWf.perstEff (h : memoryWf s) : memoryWf (perstEff s) :=
  h.modPwr.onlyIf (·.modPwr.glbEvt.flrEff)

theorem memoryWf.perstReleaseEff (h : memoryWf s) : memoryWf (perstReleaseEff s) := h.modPwr

theorem memoryWf.refLostEff (h : memoryWf s) : memoryWf (refLostEff s) := h.onlyIf (·.modPwr.evt)

theorem memoryWf.refPresentEff (h : memoryWf s) : memoryWf (refPresentEff s) := h.modPwr

theorem memoryWf.xtalEff (h : memoryWf s) {v} : memoryWf (xtalEff v s) := h.onlyIf (·.setReg)

theorem memoryWf.dropOpen (h : memoryWf s) : memoryWf (dropOpen s) :=
  h.frame.forEach fun _ h => h.dropSkein

theorem memoryWf.pwrSequence (h : memoryWf s) {t5 t6 same} : memoryWf (pwrSequence t5 t6 same s) :=
  (((h.modPwr.glbEvt.onlyIf (·.dropOpen.spnPowerFail.spnUnit)).mramDoneEff.onlyIf
    (fun h => h.stopAllNow.forEach (fun _ h => .carriageDark
      (.forEach (.ite h h.stopWriteNow.change) (fun _ h => .ite h h.change))))).onlyIf
        (·.frame)).saveNow.setReg.setF.modPwr

theorem memoryWf.pwrfailEff (h : memoryWf s) {t5 t6 same} : memoryWf (pwrfailEff t5 t6 same s) :=
  .ite h (h.setF.modPwr.andThen fun h => .ite h.mramDoneEff h.pwrSequence)

theorem memoryWf.pwrRecoverEff (h : memoryWf s) : memoryWf (pwrRecoverEff s) :=
  h.onlyIf (·.warmReset)

theorem memoryWf.thermalTrip (h : memoryWf s) : memoryWf (thermalTrip s) :=
  h.modPwr.onlyIf fun h => (h.stopAllNow.forEach (fun _ h => h.carriageDark)).spnTrip.releaseOutputs.change.change

theorem memoryWf.thermalReadEff (h : memoryWf s) {temps} : memoryWf (thermalReadEff temps s) :=
  .ite h (.ite h.setReg ((((h.setReg.onlyIf (·.modPwr)).modPwr.onlyIf (·.evt)).onlyIf
    (·.releaseThermal)).arbitrate.onlyIf (·.thermalTrip)))

theorem memoryWf.ceilingStepEff (h : memoryWf s) : memoryWf (ceilingStepEff s) := by
  unfold Machine.ceilingStepEff
  split
  · exact h.modPwr.arbitrate
  · exact h

/-! ### The redundant pair (chapter 18) -/

theorem memoryWf.setWidth (h : memoryWf s) {w} : memoryWf (setWidth w s) :=
  h.modPair.setFs.onlyIf (·.partnerTo)

theorem memoryWf.sendHello (h : memoryWf s) : memoryWf (sendHello s) := h.emit

theorem memoryWf.linkTrainDoneEff (h : memoryWf s) {lanes} : memoryWf (linkTrainDoneEff lanes s) :=
  .ite h ((h.modPair.setWidth.onlyIf (·.prlEvt)).onlyIf (·.sendHello))

theorem memoryWf.linkRetryEff (h : memoryWf s) : memoryWf (linkRetryEff s) :=
  h.onlyIf (·.modPair.setF.emit)

theorem memoryWf.laneErrorEff (h : memoryWf s) {lane} : memoryWf (laneErrorEff lane s) :=
  .ite h (h.modPair.setWidth.bump.onlyIf (·.prlEvt))

theorem memoryWf.jokorFrameEff (h : memoryWf s) {ok} : memoryWf (jokorFrameEff ok s) :=
  .ite h (.ite h.modPair (.ite h.modPair h.modPair.bump.emit))

theorem memoryWf.partnerFault (h : memoryWf s) {claims} : memoryWf (partnerFault claims s) :=
  .ite h.partnerTo h.decideEarly

theorem memoryWf.becomeOwner (h : memoryWf s) : memoryWf (becomeOwner s) := by
  unfold Machine.becomeOwner
  refine .ite h.takeOwnership (.policyStarts ?_)
  split
  · exact h.takeOwnership.driveOutputs.armLoops
  · exact h.takeOwnership.driveOutputs

theorem memoryWf.clearMirror (h : memoryWf s) : memoryWf (clearMirror s) := h.frame

theorem memoryWf.pairHelloEff (h : memoryWf s) {role digest deck stg wants ownHigh} :
    memoryWf (pairHelloEff role digest deck stg wants ownHigh s) :=
  .ite h (h.modPair.sampleNet.andThen fun h => .ite h.modPair.partnerFault.prlEvt
    (((h.onlyIf (·.emit)).onlyIf (·.emit)).andThen fun h => .ite h.modPair.partnerFault.prlEvt
      ((h.onlyIf (fun h => .partnerStart (.ite h h.clearMirror))).onlyIf (·.becomeOwner))))

theorem memoryWf.heartbeatSendEff (h : memoryWf s) : memoryWf (heartbeatSendEff s) :=
  .ite h h.bump.emit

theorem memoryWf.heartbeatReceiveEff (hs : memoryWf s) {h} : memoryWf (heartbeatReceiveEff h s) :=
  .ite hs (((hs.modPair.bump.onlyIf (·.modPair)).onlyIf (·.modPair.set64)).onlyIf (·.leaveSuspect))

theorem memoryWf.drivePeerReset (h : memoryWf s) {on} : memoryWf (drivePeerReset on s) :=
  h.frame.emit

theorem memoryWf.beginClaim (h : memoryWf s) {why} : memoryWf (beginClaim why s) :=
  .ite h.modPair h.modPair.drivePeerReset

theorem memoryWf.partnerLostEff (h : memoryWf s) : memoryWf (partnerLostEff s) := by
  unfold Machine.partnerLostEff
  refine .ite h (.prlEvt ?_)
  split
  · exact .ite h.modPair.beginClaim.partnerFault h.modPair.partnerFault
  · exact h.modPair.modPair.partnerFault
  · exact h.modPair.partnerFault

theorem memoryWf.bootWaitEff (h : memoryWf s) {ownHigh} : memoryWf (bootWaitEff ownHigh s) :=
  h.sampleNet.onlyIf (·.beginClaim)

theorem memoryWf.ownerLinkWaitEff (h : memoryWf s) {ownHigh} : memoryWf (ownerLinkWaitEff ownHigh s) :=
  h.sampleNet.onlyIf (·.becomeOwner)

theorem memoryWf.takeStarting (h : memoryWf s) : memoryWf (takeStarting s) :=
  .forEach (.ite h h.change) fun _ h => (h.forEach (fun _ h => h.onlyIf (·.change))).andThen fun h => .ite h h.change

theorem memoryWf.takeCarriage (h : memoryWf s) {c} : memoryWf (takeCarriage c s) := by
  unfold Machine.takeCarriage
  split
  · exact h
  · exact h.modCar.frame.onlyIf (·.seekEff)

theorem memoryWf.takeLost (h : memoryWf s) : memoryWf (takeLost s) :=
  h.modPair.forEach fun _ h => .ite h.fatalHeld (.ite h.fatalMap (h.onlyIf (·.fatalReplay)))

theorem memoryWf.takeSkeins (h : memoryWf s) : memoryWf (takeSkeins s) :=
  h.frame

theorem memoryWf.requeueHanks (h : memoryWf s) : memoryWf (requeueHanks s) :=
  h.forEach fun _ h => h.frame

theorem memoryWf.takeKnots (h : memoryWf s) : memoryWf (takeKnots s) := .ite h h.formKnotSkein

theorem memoryWf.rerun (h : memoryWf s) {t c} : memoryWf (rerun t c s) := by
  unfold Machine.rerun
  extract_lets
  split
  · exact h.modCmd.endCmd
  · exact h.modCmd.enterWaiting

theorem memoryWf.takeOwn (h : memoryWf s) {e t c} : memoryWf (takeOwn e t c s) := by
  unfold Machine.takeOwn
  extract_lets
  split
  · exact .ite h.rerun h.modCmd.endCmd
  · exact .ite (.ite h.modCmd.modCmd h.modCmd.endCmd) (.ite h.dropWrite.rerun
      (.ite h.modCmd (.ite (.ite h.modCmd.endCmd h.modCmd.frame) h.rerun)))

theorem memoryWf.takeOther (h : memoryWf s) {e} : memoryWf (takeOther e s) :=
  .ite h.dropWrite (h.onlyIf (·.putCmd))

theorem memoryWf.takeEntry (h : memoryWf s) {e} : memoryWf (takeEntry e s) := by
  unfold Machine.takeEntry
  refine .ite ?_ h.takeOther
  split
  · exact h.takeOwn
  · exact h

theorem memoryWf.takeUnjournaled (h : memoryWf s) {t} : memoryWf (takeUnjournaled t s) := by
  unfold Machine.takeUnjournaled
  split
  · exact h
  · refine .ite h ?_
    split
    · exact .ite h.set64.bump.modCmd.checkRest h.set64.bump.modCmd.endCmd
    · exact h.set64.bump.modCmd.checkRest

theorem memoryWf.takeover (h : memoryWf s) : memoryWf (takeover s) := by
  unfold Machine.takeover
  extract_lets s₁ s₂ s₃ s₄ s₅ s₆ s₇ js ts s₈ s₉ s₁₀
  have h₃ : memoryWf s₃ := h.modPair.takeStarting.forEach fun _ h => h.takeCarriage
  have h₇ : memoryWf s₇ := h₃.modDisc.set64.takeSkeins.takeLost
  have h₉ : memoryWf s₉ := (h₇.modPair.forEach fun _ h => h.takeEntry).forEach fun _ h => h.takeUnjournaled
  exact (h₉.requeueHanks.takeKnots.formAll.settle.onlyIf (·.policyReq)).onlyIf (·.forEach fun _ h => h.policyReq)

theorem memoryWf.ownNetHighEff (h : memoryWf s) {late outUs} : memoryWf (ownNetHighEff late outUs s) := by
  unfold Machine.ownNetHighEff
  refine .ite h ?_
  dsimp only
  split
  · exact h.setReg.becomeOwner
  · exact h.setReg.takeOwnership.driveOutputs.takeover.bump.prlEvtWith
  · refine .onlyIf (.forEach ?_ fun _ h => ?_) (·.policyReq)
    · exact .ite h.setReg.takeOwnership.driveOutputs.setF.modImg.modDisc
        h.setReg.takeOwnership.driveOutputs.setF.modImg.modDisc.change
    · split
      · exact h.modCar
      · exact h

theorem memoryWf.claimTimeoutEff (h : memoryWf s) : memoryWf (claimTimeoutEff s) :=
  .ite h (h.onlyIf (·.drivePeerReset)).modPair.partnerFault.forwardFail.prlEvt

theorem memoryWf.peerReleaseEff (h : memoryWf s) : memoryWf (peerReleaseEff s) :=
  h.onlyIf (·.drivePeerReset)

theorem memoryWf.handoverEff (h : memoryWf s) {key} : memoryWf (handoverEff key s) :=
  h.onlyIf fun h => (((h.disableSlots.spnDisown.forEach (fun _ h => h.carriageDark)).frame).onlyIf (·.change)).modPair.releaseOutputs.emit

theorem memoryWf.handoverMessageEff (h : memoryWf s) : memoryWf (handoverMessageEff s) :=
  h.onlyIf (·.beginClaim.emit)

theorem memoryWf.handoverAckEff (h : memoryWf s) : memoryWf (handoverAckEff s) :=
  .ite h h.frame.modPair.setF.setF.prlEvt

theorem memoryWf.handoverTimeoutEff (h : memoryWf s) : memoryWf (handoverTimeoutEff s) :=
  .ite h h.modPair.driveOutputs.policyReq.prlEvt

theorem memoryWf.peerResetEff (h : memoryWf s) {key} : memoryWf (peerResetEff key s) :=
  h.onlyIf (·.modPair.drivePeerReset)

theorem memoryWf.peerResetEndEff (h : memoryWf s) : memoryWf (peerResetEndEff s) :=
  h.onlyIf (·.modPair.drivePeerReset)

theorem memoryWf.forwardedCommandEff (h : memoryWf s) {f} : memoryWf (forwardedCommandEff f s) := by
  unfold Machine.forwardedCommandEff
  refine .ite h ?_
  split
  · exact .ite h h.acceptAs
  · exact .ite h.finishReq h.frame

theorem memoryWf.journalEntryEff (h : memoryWf s) {e} : memoryWf (journalEntryEff e s) := by
  unfold Machine.journalEntryEff
  refine .ite h (.emit (.ite h.modPair.set64 ?_))
  split
  · exact h.modPair.set64.modCmd.modPair
  · exact h.modPair.set64

theorem memoryWf.endForwarded (h : memoryWf s) {t c st result rep rel step d} :
    memoryWf (endForwarded t c st result rep rel step d s) :=
  .andThen (.ite h.writeSegs (.ite h h.emit)) fun h => .modPair
    (.onlyIf (.ite h.putCmd.freeTag h.putCmd.frame) (·.dropWrite))

theorem memoryWf.forwardResultEff (h : memoryWf s) {o} : memoryWf (forwardResultEff o s) := by
  unfold Machine.forwardResultEff
  split
  · split
    · exact h.endForwarded
    · exact h
  · exact .ite h.i3cAnswer h.storeAnswer.dmpAnswer

theorem memoryWf.countHeld (h : memoryWf s) {seq} : memoryWf (countHeld seq s) := h.modPair

theorem memoryWf.mirrorKnots (h : memoryWf s) {place q ns} : memoryWf (mirrorKnots place q ns s) := by
  induction ns generalizing q s with
  | nil => exact h
  | cons n ns ih => exact ih (h.mapKnot.andThen fun h => .ite h.writeAnchor.frame h)

theorem memoryWf.takeItem (h : memoryWf s) {d} : memoryWf (takeItem d s) := by
  unfold Machine.takeItem
  split
  · exact h.frame.countHeld
  · exact h.frame
  · exact h.modSkein
  · exact h.modVol
  · split
    · exact h.dropSkein.mirrorKnots.gcHeld.gcSkeins
    · exact h
  · exact h.modVol
  · exact .ite h h.frame.putHistory.changeEvent
  · exact h.modMgt
  · exact h.modVol
  · exact h.modDisc

theorem memoryWf.mirrorReceiveEff (h : memoryWf s) {d} : memoryWf (mirrorReceiveEff d s) :=
  .ite h h.takeItem.emit

theorem memoryWf.settleEndEff (h : memoryWf s) : memoryWf (settleEndEff s) :=
  .ite h (h.modPair.forEach (fun _ h => h.onlyIf (·.reachHeld)))

theorem memoryWf.detachEff (h : memoryWf s) : memoryWf (detachEff s) := .ite h h.modPair.partnerTo

theorem memoryWf.resyncDoneEff (h : memoryWf s) : memoryWf (resyncDoneEff s) :=
  h.onlyIf (·.modPair.partnerTo)

theorem memoryWf.pairValidatedEff (h : memoryWf s) {code bytes} :
    memoryWf (pairValidatedEff code bytes s) := by
  unfold Machine.pairValidatedEff
  refine .ite h (.ite ?_ (.ite h ?_))
  · split
    · exact .ite h (.ite h.enterApply h.setOp.imgRefuse)
    · exact h
  · split
    · exact h.emit
    · exact h.emit.modPair.enterApply

theorem memoryWf.pairWaitEndEff (h : memoryWf s) : memoryWf (pairWaitEndEff s) := h.modPair

/-! ### Register accesses (R543 to R553) -/

theorem memoryWf.storeReg (h : memoryWf s) {off v} : memoryWf (storeReg off v s) := by
  unfold Machine.storeReg
  split
  · exact h.setReg
  · exact h

theorem memoryWf.putLow (h : memoryWf s) {off v} : memoryWf (putLow off v s) := h.frame

theorem memoryWf.putHigh (h : memoryWf s) {off v} : memoryWf (putHigh off v s) := h.frame

theorem memoryWf.markBad (h : memoryWf s) {off bad} : memoryWf (markBad off bad s) := h.frame

theorem memoryWf.writeLow (h : memoryWf s) {off v} : memoryWf (writeLow off v s) :=
  .ite h.putLow.markBad h.putLow.markBad

theorem memoryWf.writeHigh (h : memoryWf s) {lo v} : memoryWf (writeHigh lo v s) := by
  unfold Machine.writeHigh
  refine .ite h.putLow.markBad (.storeReg ?_)
  split
  · exact h.putLow.markBad.storeReg
  · exact h.putLow.markBad

theorem memoryWf.atOwner (h : memoryWf s) {f} (hf : ∀ {s}, memoryWf s → memoryWf (f s)) :
    memoryWf (atOwner f s) := h.onlyIf fun h => hf h

theorem memoryWf.ifBit (h : memoryWf s) {v i f} (hf : ∀ {s}, memoryWf s → memoryWf (f s)) :
    memoryWf (ifBit v i f s) := h.onlyIf fun h => hf h

theorem memoryWf.imgCommand (h : memoryWf s) {v} : memoryWf (imgCommand v s) := by
  unfold Machine.imgCommand
  extract_lets
  split
  · exact h.fetchImageEff
  · exact h.quiesceEff
  · exact h.resumeEff
  · exact h.applyEff
  · exact h.progEff
  · exact h.progEff
  · exact h.burnKeyEff
  · exact h.burnEnforceEff
  · exact h.burnNoRomEff
  · exact h.burnRevokeEff
  · exact h

theorem memoryWf.lpeCommand (h : memoryWf s) {k v} : memoryWf (lpeCommand k v s) :=
  (((h.setF.setF.loopFollowEff.atOwner (fun h => h.ifBit (·.loopClrFaultEff))).ifBit (·.loopParkEff)).ifBit
    (·.loopSwapEff)).loopEnableEff

theorem memoryWf.spnCommand (h : memoryWf s) {v} : memoryWf (spnCommand v s) :=
  h.setF.setF.atOwner fun h => (((h.ifBit (·.spnStartReq)).ifBit (·.spnStopReq)).ifBit (·.spnClrFaultEff)).ifBit
    (·.spnForceLossEff)

theorem memoryWf.crgControl (h : memoryWf s) {c v} : memoryWf (crgControl c v s) :=
  .atOwner (.ite h.crgForceSlipEff h.modCar) fun h => h.ifBit (·.crgClrFaultEff)

theorem memoryWf.crgCommand (h : memoryWf s) {c v} : memoryWf (crgCommand c v s) := by
  unfold Machine.crgCommand
  refine h.storeReg.atOwner fun h => ?_
  split
  · exact h.crgCmdEff (·.seekEff)
  · exact h.crgCmdEff (·.homeCmd)
  · exact h.crgCmdEff (·.moveCmd)
  · exact h

theorem memoryWf.hnkCommand (h : memoryWf s) {v} : memoryWf (hnkCommand v s) :=
  h.setF.atOwner fun h => h.forEach (fun _ h => h.ifBit (·.hankRestoreEff))

theorem memoryWf.wrpCommand (h : memoryWf s) {v} : memoryWf (wrpCommand v s) :=
  h.writeInhibitEff.setF.atOwner fun h => h.ifBit (·.retryHeldEff)

theorem memoryWf.chnTest (h : memoryWf s) {g v} : memoryWf (chnTest g v s) :=
  .andThen (.ite h.forceMissEff h.modStrand.setF) fun h => .ite h.forceDefectEff h.modStrand.setF

theorem memoryWf.camControl (h : memoryWf s) {t v} : memoryWf (camControl t v s) :=
  h.camEngageEff.ifBit (·.camTimeResetEff)

theorem memoryWf.invCommand (h : memoryWf s) {v} : memoryWf (invCommand v s) := by
  unfold Machine.invCommand
  split
  · exact h.rangeStart
  · exact h.rangeStart
  · exact h

theorem memoryWf.lockCommand (h : memoryWf s) {v} : memoryWf (lockCommand v s) := by
  unfold Machine.lockCommand
  split
  · exact h.lockEff
  · exact h.unlockEff
  · exact h

theorem memoryWf.ringCommand (h : memoryWf s) {f v} : memoryWf (ringCommand f v s) := by
  unfold Machine.ringCommand
  split
  · exact h.invalidateEff
  · exact h.ringQueryEff
  · exact h

theorem memoryWf.intCommand (h : memoryWf s) {v} : memoryWf (intCommand v s) :=
  h.setF.setF.ifBit (·.scrubRestartEff)

theorem memoryWf.prlCommand (h : memoryWf s) {v} : memoryWf (prlCommand v s) :=
  (h.ifBit (·.handoverEff)).ifBit (·.peerResetEff)

theorem memoryWf.ordCommand (h : memoryWf s) {v} : memoryWf (ordCommand v s) :=
  (h.ifBit (·.replayClearEff)).ifBit (·.genLookupEff)

theorem memoryWf.logRdWritten (h : memoryWf s) : memoryWf (logRdWritten s) := h.frame.logSignal

theorem memoryWf.writeFn (h : memoryWf s) {off v} : memoryWf (writeFn off v s) :=
  .ite h.ringCommand h.storeReg

theorem memoryWf.writeOne (h : memoryWf s) {off v} : memoryWf (writeOne off v s) :=
  .ite h.imgCommand (.ite (.ite h h.storeReg) (.ite h.softResetEff
    (.ite h.writeFn (.ite h.ordCommand (.ite h.chnTest
      (.ite h.wrpCommand (.ite h.pdlCmdEff (.ite h.hnkCommand
        (.ite h.lpeCommand (.ite h.coefWrite (.ite h.spnCommand
          (.ite h.crgControl (.ite h.crgCommand (.ite h.camPtWrite
            (.ite (h.atOwner (·.camCommitEff)) (.ite h.camControl
              (.ite (.ite h.enableEff h.disableEff) (.ite h.invCommand
                (.ite h.lockCommand (.ite h.intCommand
                  (.ite h.storeReg.logSignal (.ite h.prlCommand h.storeReg))))))))))))))))))))))

theorem memoryWf.writeReg (h : memoryWf s) {off v} : memoryWf (writeReg off v s) :=
  .ite h.writeLow (.ite (h.writeHigh.onlyIf (·.logRdWritten)) h.writeOne)

theorem memoryWf.msixWrite (h : memoryWf s) {f o v} : memoryWf (msixWrite f o v s) := by
  unfold Machine.msixWrite
  refine .ite h ?_
  split
  · exact h.frame
  · exact h.frame
  · exact h.frame
  · exact .ite h.frame h.msixUnmaskEff

theorem memoryWf.barWrite (h : memoryWf s) {f off size v} : memoryWf (barWrite f off size v s) := by
  unfold Machine.barWrite
  split
  · exact h
  · exact .ite h (h.msixWrite.onlyIf (·.msixWrite))
  · exact .ite h (.ite h (.ite h h.writeReg))

theorem memoryWf.readEffect (h : memoryWf s) {r} : memoryWf (readEffect r s) :=
  .ite h.putHigh (.ite h.putHigh (.ite (h.onlyIf (·.carryCount)).setReg
    (.ite h.camPtStep (.ite h.coefStep (h.onlyIf (·.useFree))))))

theorem memoryWf.barRead (h : memoryWf s) {f off size} : memoryWf (barRead f off size s) := by
  unfold Machine.barRead
  refine .emit ?_
  split
  · exact h.onlyIf (·.readEffect)
  · exact h

theorem memoryWf.configWrite (h : memoryWf s) {f q} : memoryWf (configWrite f q s) := by
  unfold Machine.configWrite
  split
  · exact h
  · exact .ite h h.frame
  · refine .ite h (.ite h.frame (.ite ?_ h))
    extract_lets s₁
    have h₁ : memoryWf s₁ := h.forEach fun _ h => h.flrStart
    clear_value s₁
    exact h₁.frame
  · exact h.modFn
  · exact h.modFn.unmaskAll
  · exact h.modFn

theorem memoryWf.configEff (h : memoryWf s) {f q} : memoryWf (configEff f q s) :=
  .ite h (.ite h.emit (.ite h h.configWrite.useFree.emit))

/-! ### The management path (R514 to R518) -/

theorem memoryWf.reply (h : memoryWf s) {m typ reqId flags status p} :
    memoryWf (reply m typ reqId flags status p s) := by
  unfold Machine.reply
  extract_lets
  split
  · exact (h.onlyIf (·.bump)).dmpAnswer
  · exact (h.onlyIf (·.bump)).i3cAnswer

theorem memoryWf.keepAnswer (h : memoryWf s) {m reqId typ a} : memoryWf (keepAnswer m reqId typ a s) := by
  unfold Machine.keepAnswer
  split
  · exact h.storeAnswer
  · exact h.frame

theorem memoryWf.answerKept (h : memoryWf s) {m typ reqId status p} :
    memoryWf (answerKept m typ reqId status p s) :=
  h.keepAnswer.reply

theorem memoryWf.serveMsg (h : memoryWf s) {m typ reqId act}
    (hact : ∀ {s}, memoryWf s → memoryWf (act s).2) : memoryWf (serveMsg m typ reqId act s) := by
  have ha := hact h
  unfold Machine.serveMsg
  refine .ite (.ite h.reply ?_) ?_
  · split <;> rename_i e <;> rw [e] at ha
    · exact ha.reply
    · exact ha
  · split
    · split
      · exact h.bump.reply
      · exact h.bump.reply
    · refine .ite h.answerKept (.ite h.answerKept (.ite h.reply ?_))
      split <;> rename_i e <;> rw [e] at ha
      · exact ha.answerKept
      · exact ha.keepAnswer

theorem memoryWf.onPort (h : memoryWf s) {m f} (hf : ∀ {s}, memoryWf s → memoryWf (f s)) :
    memoryWf (onPort m f s) := by
  unfold Machine.onPort
  split
  · exact h.onlyIf fun h => hf h.bump
  · exact h.onlyIf fun h => hf h.bump

theorem memoryWf.invalid (h : memoryWf s) : memoryWf (invalid s).2 := h

theorem memoryWf.success (h : memoryWf s) {p} : memoryWf (success p s).2 := h

theorem memoryWf.discoverEff (h : memoryWf s) {m reqId zero} : memoryWf (discoverEff m reqId zero s) := by
  unfold Machine.discoverEff
  refine h.onPort fun h => ?_
  split
  · exact h.emit
  · exact h.i3cAnswer

theorem memoryWf.dmpQueryEff (h : memoryWf s) {m reqId u} : memoryWf (dmpQueryEff m reqId u s) :=
  h.onPort fun h => h.serveMsg (fun h => .iteSnd h.success h.invalid)

theorem memoryWf.mgmtReq (h : memoryWf s) {m typ reqId op u code epoch} :
    memoryWf (mgmtReq m typ reqId op u code epoch s).2 := by
  unfold Machine.mgmtReq
  refine .iteSnd h.invalid ?_
  dsimp only
  cases m with
  | station a q => exact .iteSnd (.iteSnd h.bump.emit h.bump) h.frame
  | i3c => exact .iteSnd (.iteSnd h.bump.emit h.bump) h.frame

theorem memoryWf.dmpUnitEff (h : memoryWf s) {m typ op reqId u code epoch} :
    memoryWf (dmpUnitEff m typ op reqId u code epoch s) := h.onPort fun h => h.serveMsg (·.mgmtReq)

theorem memoryWf.dmpVolumeEff (h : memoryWf s) {m reqId v} : memoryWf (dmpVolumeEff m reqId v s) :=
  h.onPort fun h => h.serveMsg (fun h => .iteSnd h.success h.invalid)

theorem memoryWf.policyGetEff (h : memoryWf s) {m reqId id} : memoryWf (policyGetEff m reqId id s) :=
  h.onPort fun h => h.serveMsg (fun h => .iteSnd h.success h.invalid)

theorem memoryWf.policySetEff (h : memoryWf s) {m reqId id v} : memoryWf (policySetEff m reqId id v s) :=
  h.onPort fun h => h.serveMsg (fun h => .iteSnd (h.modMgt.onlyIf (·.mirror)).success h.invalid)

theorem memoryWf.netSetEff (h : memoryWf s) {m reqId b} : memoryWf (netSetEff m reqId b s) :=
  h.onPort fun h => h.serveMsg (fun h => .iteSnd h.modMgt.success h.invalid)

theorem memoryWf.regReadEff (h : memoryWf s) {m reqId off count} :
    memoryWf (regReadEff m reqId off count s) :=
  h.onPort fun h => h.serveMsg (fun h => .iteSnd h.success h.invalid)

theorem memoryWf.subscribeEff (h : memoryWf s) {m reqId mask fromSeq} :
    memoryWf (subscribeEff m reqId mask fromSeq s) := by
  unfold Machine.subscribeEff
  refine h.onPort fun h => h.serveMsg (fun h => ?_)
  split
  · exact h
  · exact .iteSnd h (h.modMgt.forEach (fun _ h => h.onlyIf (·.emit))).success

theorem memoryWf.subscriberExpiryEff (h : memoryWf s) {a q} : memoryWf (subscriberExpiryEff a q s) :=
  h.modMgt

theorem memoryWf.eventReadEff (h : memoryWf s) {m reqId fromSeq count} :
    memoryWf (eventReadEff m reqId fromSeq count s) :=
  h.onPort fun h => h.serveMsg (fun h => .iteSnd h.success h.invalid)

theorem memoryWf.imageBeginEff (h : memoryWf s) {m reqId size} : memoryWf (imageBeginEff m reqId size s) :=
  h.onPort fun h => h.serveMsg (fun h => .iteSnd h.imgRefuse (.iteSnd h.invalid h.clearStaged.modImg.setOp.success))

theorem memoryWf.imageDataEff (h : memoryWf s) {m reqId off b} : memoryWf (imageDataEff m reqId off b s) :=
  h.onPort fun h => h.serveMsg (fun h => .iteSnd h.imgRefuse (.iteSnd h (.iteSnd h.invalid h.modImg.success)))

theorem memoryWf.imageEndEff (h : memoryWf s) {m reqId} : memoryWf (imageEndEff m reqId s) :=
  h.onPort fun h => h.serveMsg (fun h => .iteSnd h.imgRefuse (.iteSnd h h.validateStaged.success))

theorem memoryWf.imageCommand (h : memoryWf s) {cmd} : memoryWf (imageCommand cmd s) := by
  unfold Machine.imageCommand
  split
  · exact h.quiesceEff
  · exact h.resumeEff
  · exact h.applyEff
  · exact h.progEff
  · exact h.progEff

theorem memoryWf.imageCmdEff (h : memoryWf s) {m reqId cmd} : memoryWf (imageCmdEff m reqId cmd s) :=
  h.onPort fun h => h.serveMsg (fun h => .iteSnd h.invalid
    (.iteSnd h (h.setReg.imageCommand.andThen fun h => .iteSnd h.setReg.success h)))

theorem memoryWf.duplicateExpiryEff (h : memoryWf s) {a q reqId} :
    memoryWf (duplicateExpiryEff a q reqId s) :=
  h.modMgt

theorem memoryWf.dispatchMsg (h : memoryWf s) {m typ reqId zero p} :
    memoryWf (dispatchMsg m typ reqId zero p s) :=
  .ite h.discoverEff (.ite h.dmpQueryEff (.ite h.dmpUnitEff
    (.ite h.dmpUnitEff (.ite h.dmpUnitEff (.ite h.dmpVolumeEff
      (.ite h.policyGetEff (.ite h.policySetEff (.ite h.netSetEff
        (.ite h.regReadEff (.ite h.subscribeEff (.ite h.eventReadEff
          (.ite h.imageBeginEff (.ite h.imageDataEff (.ite h.imageEndEff h.imageCmdEff))))))))))))))

theorem memoryWf.messageEff (h : memoryWf s) {m b} : memoryWf (messageEff m b s) :=
  .ite (h.onPort (·.bump)) (.ite (h.onPort (·.reply)) h.dispatchMsg)

theorem memoryWf.modI3c (h : memoryWf s) {f} : memoryWf (modI3c f s) := h.onlyIf (·.frame)

theorem memoryWf.i3cWriteEff (h : memoryWf s) {b} : memoryWf (i3cWriteEff b s) :=
  .ite h h.modI3c.messageEff

theorem memoryWf.i3cReadEff (h : memoryWf s) : memoryWf (i3cReadEff s) := .ite h h.modI3c.emit

theorem memoryWf.eventsCccEff (h : memoryWf s) {on events} : memoryWf (eventsCccEff on events s) :=
  h.onlyIf (·.modI3c)

theorem memoryWf.rstdaaEff (h : memoryWf s) : memoryWf (rstdaaEff s) := h.modI3c

theorem memoryWf.entdaaEff (h : memoryWf s) {a} : memoryWf (entdaaEff a s) := h.modI3c

theorem memoryWf.setdasaEff (h : memoryWf s) {static a} : memoryWf (setdasaEff static a s) :=
  h.onlyIf (·.modI3c)

theorem memoryWf.getFreeEff (h : memoryWf s) {n} : memoryWf (getFreeEff n s) := .ite h h.emit.useFree

theorem memoryWf.getLenEff (h : memoryWf s) {read} : memoryWf (getLenEff read s) := .ite h h.emit

theorem memoryWf.setLenEff (h : memoryWf s) {read n} : memoryWf (setLenEff read n s) := h.modI3c

theorem memoryWf.ptpSyncEff (h : memoryWf s) {ofs} : memoryWf (ptpSyncEff ofs s) :=
  .ite h (h.setReg.bump.andThen fun h => .ite h.modMgt.frame.setF.evt
    (h.modMgt.useFree.andThen fun h => .ite (.ite h.setF h.setF.evt) h.setF))

theorem memoryWf.ptpLostEff (h : memoryWf s) : memoryWf (ptpLostEff s) := .ite h h.setF.modMgt.evt

theorem memoryWf.sgmiiEff (h : memoryWf s) {up} : memoryWf (sgmiiEff up s) := .ite h h.setFlag.evt

theorem memoryWf.logRdEff (h : memoryWf s) {v} : memoryWf (logRdEff v s) :=
  h.onlyIf (·.set64.logRdWritten)

/-! ### The test access port -/

theorem memoryWf.tapLoad (h : memoryWf s) {ir} : memoryWf (tapLoad ir s) := h.frame

theorem memoryWf.extestEff (h : memoryWf s) : memoryWf (extestEff s) := h.tapLoad

theorem memoryWf.idcodeEff (h : memoryWf s) : memoryWf (idcodeEff s) := h.tapLoad.emit

theorem memoryWf.samplePreloadEff (h : memoryWf s) {sampled cells} :
    memoryWf (samplePreloadEff sampled cells s) :=
  h.tapLoad.emit.frame

theorem memoryWf.highzEff (h : memoryWf s) : memoryWf (highzEff s) := h.tapLoad

theorem memoryWf.clampEff (h : memoryWf s) : memoryWf (clampEff s) := h.tapLoad

theorem memoryWf.extestPulseEff (h : memoryWf s) : memoryWf (extestPulseEff s) := h.tapLoad

theorem memoryWf.extestTrainEff (h : memoryWf s) : memoryWf (extestTrainEff s) := h.tapLoad

theorem memoryWf.bypassEff (h : memoryWf s) {code} : memoryWf (bypassEff code s) :=
  .ite h.tapLoad h.tapLoad

theorem memoryWf.regAccEff (h : memoryWf s) {w} : memoryWf (regAccEff w s) :=
  h.frame.tapLoad.emit.andThen fun h => .ite h.frame (.ite (.ite h.frame.msixWrite h.frame.writeReg)
    (.ite h.frame h.frame.readEffect))

theorem memoryWf.dacUpdateEff (h : memoryWf s) : memoryWf (dacUpdateEff s) :=
  h.frame

/-! ### How a command reaches the block -/

theorem memoryWf.served (h : memoryWf s) {off f} (hf : ∀ {s}, memoryWf s → memoryWf (f s)) :
    memoryWf (served off f s) := h.onlyIf fun h => hf h

theorem memoryWf.servedOwner (h : memoryWf s) {off f} (hf : ∀ {s}, memoryWf s → memoryWf (f s)) :
    memoryWf (servedOwner off f s) := h.served fun h => h.atOwner hf

theorem memoryWf.imgServed (h : memoryWf s) {f} (hf : ∀ {s}, memoryWf s → memoryWf (f s)) :
    memoryWf (imgServed f s) := .ite h (h.served hf)

theorem memoryWf.instOf (h : memoryWf s) {n i f} (hf : ∀ {s}, memoryWf s → memoryWf (f s)) :
    memoryWf (instOf n i f s) := h.onlyIf fun h => hf h

theorem memoryWf.msixWithin (h : memoryWf s) {f v g} (hg : ∀ {s}, memoryWf s → memoryWf (g s)) :
    memoryWf (msixWithin f v g s) := by
  unfold Machine.msixWithin
  split
  · exact h.onlyIf fun h => hg h
  · exact hg h

theorem memoryWf.dataPort (h : memoryWf s) {off write} : memoryWf (dataPort off write s) := by
  unfold Machine.dataPort
  refine h.served fun h => ?_
  split
  · exact h.writeReg
  · exact h.readEffect.emit

theorem memoryWf.forceOvrEff (h : memoryWf s) {k on} : memoryWf (forceOvrEff k on s) :=
  h.setF.setFlag

theorem memoryWf.crgSeekEff (h : memoryWf s) {c lf turn} : memoryWf (crgSeekEff c lf turn s) :=
  h.crgCommand

theorem memoryWf.outputStage (h : memoryWf s) : memoryWf (outputStage s) :=
  .ite h.releaseOutputs (h.onlyIf (·.frame))

theorem memoryWf.finish (h : memoryWf s) {s₀} : memoryWf (finish s₀ s) := h.frame.outputStage

/-! ### The passing of time -/

theorem memoryWf.tick (h : memoryWf s) : memoryWf (tick s) := h.onlyIf (·.frame)

/-! ### The commands and the steps -/

/-- Every next state that the outcome holds has its memories in form. -/
def wfNext (o : Host.Outcome State Fault Refusal) : Prop := ∀ u, o = .next u → memoryWf u

theorem memoryWf.done (h : memoryWf t) : wfNext (done s t) := by
  intro u e
  cases e
  exact h.finish

/-- Every command keeps the memories in form: its effect does, as the lemma of that effect says, and so does its end. -/
theorem memoryWf.exec (h : memoryWf s) (i : Instr) : wfNext (exec i s) := by
  cases i with
  | coldReset => exact h.coldResetEff.done
  | railFail => exact h.railFailEff.done
  | railsGood => exact h.railsGoodEff.done
  | internalHoldEnd => exact h.holdEndEff.done
  | pllLock => exact h.pllLockEff.done
  | resetNAssert => exact h.resetAssertEff.done
  | resetNRise _ => exact h.resetRiseEff.done
  | softWarmReset _ _ => exact (h.served (·.softResetEff)).done
  | clockLoss => exact h.clockLossEff.done
  | clockRelock => exact h.clockRelockEff.done
  | romCheckDone _ => exact h.romCheckEff.done
  | flashReadComplete _ _ _ _ => exact h.flashReadRow.done
  | pairImageReceived _ => exact h.pairImageEff.afterChain.done
  | pairFollowTimeout => exact h.pairTimeoutEff.afterChain.done
  | bistDone _ => exact h.bistDoneRow.done
  | ddrTrainingDone _ _ _ _ => exact h.trainingRow.done
  | bringupDone _ => exact h.bringupEff.done
  | arm _ => exact h.armEff.done
  | runEntry => exact h.runEntryEff.done
  | perstNAssert => exact h.perstEff.done
  | perstNRelease => exact h.perstReleaseEff.done
  | pcieRefLost => exact h.refLostEff.done
  | xtalPpmMeasure _ => exact h.xtalEff.done
  | pwrfailAssert _ _ _ => exact h.pwrfailEff.done
  | pwrfailRecover => exact h.pwrRecoverEff.done
  | policyWatchdogExpiry => exact h.watchdogEff.done
  | watchdogRestartRequest => exact h.watchdogRestartEff.done
  | thermalSensorRead _ => exact h.thermalReadEff.done
  | thermalCeilingStep => exact h.ceilingStepEff.done
  | fetch => exact (h.imgServed (·.fetchImageEff)).done
  | fetchReadComplete _ => exact h.fetchDoneEff.done
  | quiesce => exact (h.imgServed (·.quiesceEff)).done
  | quiesceComplete => exact h.quiesceDoneEff.done
  | resume => exact (h.imgServed (·.resumeEff)).done
  | apply _ => exact (h.imgServed (·.applyEff)).done
  | progA _ => exact (h.imgServed (·.progEff)).done
  | progB _ => exact (h.imgServed (·.progEff)).done
  | progComplete _ => exact h.progDoneEff.done
  | burnKey _ => exact (h.imgServed (·.burnKeyEff)).done
  | burnEnforce _ => exact (h.imgServed (·.burnEnforceEff)).done
  | burnNorom _ => exact (h.imgServed (·.burnNoRomEff)).done
  | burnRevoke _ _ => exact (h.imgServed (·.burnRevokeEff)).done
  | mountStart => exact h.mountStartEff.done
  | mountStepDone _ => exact h.mountDoneEff.done
  | mountComplete => exact h.mountCompleteEff.done
  | importIdentify _ => exact h.importIdentifyEff.done
  | slotStart _ _ _ _ _ _ => exact (h.instOf (·.slotStartEff)).done
  | zoneSeedFetch _ _ _ => exact (h.instOf (·.seedFetchEff)).done
  | zoneSeedReady _ => exact (h.instOf (·.seedReadyEff)).done
  | timingLost _ _ => exact (h.instOf (·.timingLostEff)).done
  | segmentEnd _ => exact (h.instOf (·.segmentEndEff)).done
  | wedgeCrossing _ _ _ _ => exact (h.instOf (·.wedgeEff)).done
  | wedgeMissRev _ => exact (h.instOf (·.wedgeMissRevEff)).done
  | defectFlagStart _ _ => exact (h.instOf (·.defectStartEff)).done
  | defectFlagEnd _ _ => exact (h.instOf (·.defectEndEff)).done
  | sectorDelivery _ _ _ => exact (h.instOf (·.sectorDeliveryEff)).done
  | chnForceSyncMiss _ => exact (h.instOf (fun h => h.served (·.forceMissEff))).done
  | chnForceDefect _ => exact (h.instOf (fun h => h.served (·.forceDefectEff))).done
  | poolJobDispatch _ _ => exact h.poolDispatchEff.done
  | poolJobComplete _ _ => exact h.poolCompleteEff.done
  | l4SpeedReached => exact h.l4ReachedEff.done
  | skeinEngineComplete _ => exact h.skeinEngineEff.done
  | importClusterDecode _ _ _ => exact h.importClusterEff.done
  | decPauseRecovery _ => exact (h.served (·.pauseRecoveryEff)).done
  | decForceEf _ => exact (h.served (·.forceEfEff)).done
  | relocPause _ => exact (h.served (·.relocPauseEff)).done
  | knotIntervalExpiry _ => exact h.knotIntervalEff.done
  | passStart _ => exact (h.instOf (·.passStartEff)).done
  | preRead _ _ => exact (h.instOf (·.preReadEff)).done
  | passWriteEnd _ => exact (h.instOf (·.passWriteEndEff)).done
  | verifyRevolutionEnd _ => exact (h.instOf (·.verifyRevEndEff)).done
  | pdlFrame _ _ => exact (h.instOf (·.pdlFrameEff)).done
  | drvStatusPoll _ _ => exact (h.instOf (·.drvPollEff)).done
  | wrpPdlCmd _ _ => exact (h.instOf (fun h => h.served (·.pdlCmdEff))).done
  | retryHeld => exact (h.servedOwner (·.retryHeldEff)).done
  | writeInhibit _ => exact (h.served (·.writeInhibitEff)).done
  | laserIlkAssert => exact h.laserIlkEff.done
  | interlockRelease => exact h.interlockReleaseEff.done
  | knotReady _ => exact h.knotReadyEff.done
  | knotVerified _ => exact h.knotVerifiedEff.done
  | hankDispatch _ => exact h.hankDispatchEff.done
  | hankCodeComplete _ _ => exact (h.instOf (·.hankCodeEff)).done
  | hankDecompressComplete _ _ => exact (h.instOf (·.hankDecompressEff)).done
  | hankRestore _ => exact (h.instOf (fun h => h.servedOwner (·.hankRestoreEff))).done
  | hankRestoreDone _ _ => exact (h.instOf (·.hankRestoreDoneEff)).done
  | hankForceMismatch _ => exact (h.served (·.hankForceEff)).done
  | basePeriod _ _ => exact h.basePeriodEff.done
  | loopOverrun _ => exact (h.instOf (·.overrunEff)).done
  | loopOutputWrite => exact h.outputWriteEff.done
  | loopLostLock _ => exact (h.instOf (·.loopLostEff)).done
  | loopFault _ => exact (h.instOf (·.loopFaultEff)).done
  | carriageReacquireTimeout _ => exact (h.instOf (·.reacquireTimeoutEff)).done
  | loopEnable _ => exact (h.instOf (fun h => h.served (·.loopEnableEff))).done
  | loopDisable _ => exact (h.instOf (fun h => h.served (·.loopEnableEff))).done
  | loopSwap _ => exact (h.instOf (fun h => h.served (·.loopSwapEff))).done
  | loopPark _ => exact (h.instOf (fun h => h.served (·.loopParkEff))).done
  | loopClrFault _ => exact (h.instOf (fun h => h.servedOwner (·.loopClrFaultEff))).done
  | loopFollow _ _ => exact (h.instOf (fun h => h.served (·.loopFollowEff))).done
  | coefDataAccess _ _ => exact (h.instOf (·.dataPort)).done
  | lpeForceOvr _ _ => exact (h.served (·.forceOvrEff)).done
  | traceInEdge _ _ _ => exact (h.instOf (·.traceEdgeEff)).done
  | traceLost _ => exact (h.instOf (·.traceLostEff)).done
  | pwmTop _ => exact h.pwmTopEff.done
  | pwmCentre _ _ _ => exact h.pwmCentreEff.done
  | rotorLoss => exact h.rotorLossEff.done
  | spnComparatorEdge _ _ => exact h.edgeEff.done
  | spnStart => exact (h.servedOwner (·.spnStartReq)).done
  | spnStop => exact (h.servedOwner (·.spnStopReq)).done
  | spnClrFault => exact (h.servedOwner (·.spnClrFaultEff)).done
  | spnForceLoss => exact (h.servedOwner (·.spnForceLossEff)).done
  | coastSenseDone => exact h.coastDoneEff.done
  | catchMade => exact h.catchMadeEff.done
  | catchTimeout => exact h.catchTimeoutEff.done
  | brakeDone => exact h.brakeDoneEff.done
  | brakeTimeout => exact h.brakeTimeoutEff.done
  | alignDone _ _ _ _ => exact h.alignDoneEff.done
  | runupDone => exact h.runupDoneEff.done
  | runupTimeout => exact h.runupTimeoutEff.done
  | spindleReady => exact h.spindleReadyEff.done
  | lockedRotor => exact h.lockedRotorEff.done
  | lockedWaitDone => exact h.lockedWaitDoneEff.done
  | recatchOk => exact h.recatchOkEff.done
  | recatchTimeout => exact h.recatchTimeoutEff.done
  | stoppingDone => exact h.stoppingDoneEff.done
  | rateMatchCompute _ _ _ => exact h.rateMatchEff.done
  | sledPwmSample _ _ _ => exact (h.instOf (·.sledSampleEff)).done
  | profileTick _ => exact (h.instOf (·.profileTickEff)).done
  | stepTimerExpiry _ => exact (h.instOf (·.stepTimerEff)).done
  | homeEdge _ _ => exact (h.instOf (·.homeEdgeEff)).done
  | homingFail _ => exact (h.instOf (·.homingFailEff)).done
  | seekRequest _ _ _ => exact (h.instOf (·.seekEff)).done
  | seekSettleDone _ => exact (h.instOf (·.settleDoneEff)).done
  | capture _ => exact (h.instOf (·.captureEff)).done
  | captureTimeout _ => exact (h.instOf (·.captureTimeoutEff)).done
  | fineDone _ => exact (h.instOf (·.fineDoneEff)).done
  | layerJumpDone _ => exact (h.instOf (·.layerJumpDoneEff)).done
  | turnJumpDone _ => exact h.turnJumpEndEff.done
  | crgCmdSeek _ _ _ => exact (h.instOf (fun h => h.servedOwner (·.crgSeekEff))).done
  | crgCmdHome _ => exact (h.instOf (fun h => h.servedOwner (fun h => h.crgCmdEff (·.homeCmd)))).done
  | crgCmdMove _ => exact (h.instOf (fun h => h.servedOwner (fun h => h.crgCmdEff (·.moveCmd)))).done
  | crgClrFault _ => exact (h.instOf (fun h => h.servedOwner (·.crgClrFaultEff))).done
  | crgForceSlip _ => exact (h.instOf (fun h => h.served (·.crgForceSlipEff))).done
  | camCommit _ => exact (h.servedOwner (·.camCommitEff)).done
  | camEngage _ _ => exact (h.instOf (fun h => h.served (·.camEngageEff))).done
  | camTimeReset _ => exact (h.instOf (fun h => h.served (·.camTimeResetEff))).done
  | camPtDataAccess _ => exact h.dataPort.done
  | doorbell _ _ _ _ => exact h.doorbellEff.done
  | contextLoadComplete _ _ => exact h.ctxLoadEff.done
  | contextFreed => exact h.retryStarved.done
  | ringInvalidate _ _ => exact (h.served (·.invalidateEff)).done
  | ringInvalidateDone _ => exact h.invalidateDoneEff.done
  | ringQuery _ _ => exact (h.served (·.ringQueryEff)).done
  | grant _ _ => exact h.grantEff.done
  | uTokenRefill => exact h.tokenRefillEff.done
  | nop _ => exact h.nopEff.done
  | read _ => exact h.readEff.done
  | write _ => exact h.writeEff.done
  | flush _ => exact h.startWait.done
  | abort _ => exact h.abortEff.done
  | volumeCreate _ => exact h.startWait.done
  | volumeClose _ => exact h.startWait.done
  | volumeInfo => exact h.volumeInfoEff.done
  | importRead _ => exact h.importReadEff.done
  | unitQuery => exact h.unitQueryEff.done
  | unitRequestOffline => exact h.unitOfflineEff.done
  | unitRequestReady => exact h.unitReadyEff.done
  | unitRequestService => exact h.unitServiceEff.done
  | bufferChannelServiceReady => exact h.bufServiceReadyEff.done
  | assertPresent _ => exact h.assertPresentEff.done
  | assertAbsent _ => exact h.assertAbsentEff.done
  | calibrateChannel => exact h.calibrateEff.done
  | calibrateServoLayer => exact h.calibrateEff.done
  | calibrateServoRadius => exact h.calibrateEff.done
  | calibrateWritePower => exact h.calibrateEff.done
  | calibrateSledHome => exact h.calibrateEff.done
  | calibrateSpindle => exact h.calibrateEff.done
  | selfTestParity => exact h.selfTestEff.done
  | selfTestMram => exact h.selfTestEff.done
  | selfTestMemBist => exact h.selfTestEff.done
  | drainComplete _ => exact h.drainCompleteEff.done
  | calibrationEnd _ _ => exact h.calEndEff.done
  | calibrationTimeout _ => exact h.calTimeoutEff.done
  | calForceCheckerFail => exact (h.served (·.forceCheckerEff)).done
  | commandRun _ => exact h.commandRunEff.hankReads.poolSweep.done
  | writeHeldPoint _ _ => exact h.writeHeldEff.done
  | writeBehindSpace => exact h.writeSpaceEff.done
  | suspectHoldExpiry _ => exact h.suspectExpiryEff.done
  | lockWaitLong _ => exact h.lockWaitLongEff.done
  | genLookup => exact (h.served (·.genLookupEff)).done
  | replayClear => exact (h.served (·.replayClearEff)).done
  | completionPost _ => exact h.completionPostEff.done
  | coalesceTimerExpiry _ => exact h.coalesceEff.done
  | msixUnmask _ _ => exact (h.msixWithin (·.msixUnmaskEff)).done
  | flr _ => exact h.flrEff.done
  | flrEnd _ => exact h.flrEndEff.done
  | cacheRequest _ _ _ _ _ => exact h.cacheRequestEff.done
  | fillBeat _ _ => exact h.fillBeatEff.done
  | writebackComplete _ => exact h.writebackEff.done
  | cacheClean _ _ => exact (h.served (·.rangeStart)).done
  | cacheCleanInv _ _ => exact (h.served (·.rangeStart)).done
  | invDone => exact h.invDoneEff.done
  | cacheLock => exact (h.served (·.lockEff)).done
  | cacheUnlock _ => exact (h.served (·.unlockEff)).done
  | cacheDisable => exact (h.served (·.disableEff)).done
  | cacheCleaningDone => exact h.cleaningDoneEff.done
  | cacheEnable => exact (h.served (·.enableEff)).done
  | bcForceDataParity => exact (h.served (·.forceDataEff)).done
  | bcForceTwinParity => exact (h.served (·.forceTwinEff)).done
  | bar2Access _ _ _ _ => exact h.bar2Eff.done
  | memoryReadReturn _ _ _ _ _ _ _ => exact h.memReadEff.done
  | parityRepair _ _ => exact h.parityRepairEff.done
  | refreshDue _ _ => exact h.refreshDueEff.done
  | dramTempPoll _ => exact h.dramTempEff.done
  | pointChangeBegin => exact h.pointBeginEff.done
  | pointChangeDrained => exact h.pointDrainedEff.done
  | scrubRead => exact h.scrubReadEff.done
  | scrubRestart => exact (h.served (·.scrubRestartEff)).done
  | intForceParity => exact (h.served (·.forceParityEff)).done
  | mramRecordWrite => exact h.mramWriteEff.done
  | mramWriteDone _ => exact h.mramDoneEff.done
  | countersSaveHourly => exact h.countersHourlyEff.done
  | discPresentChange _ _ => exact h.discPresentEff.done
  | dmpDiscover _ _ _ => exact h.discoverEff.done
  | dmpUnitQuery _ _ _ => exact h.dmpQueryEff.done
  | dmpUnitRequest _ _ _ _ _ => exact h.dmpUnitEff.done
  | dmpCalibrate _ _ _ _ _ => exact h.dmpUnitEff.done
  | dmpSelfTest _ _ _ _ _ => exact h.dmpUnitEff.done
  | dmpVolumeInfo _ _ _ => exact h.dmpVolumeEff.done
  | policyGet _ _ _ => exact h.policyGetEff.done
  | policySet _ _ _ _ => exact h.policySetEff.done
  | netSet _ _ _ => exact h.netSetEff.done
  | netSetApply => exact h.netApplyEff.done
  | regRead _ _ _ _ => exact h.regReadEff.done
  | eventSubscribe _ _ _ _ => exact h.subscribeEff.done
  | subscriberExpiry _ _ => exact h.subscriberExpiryEff.done
  | eventRead _ _ _ _ => exact h.eventReadEff.done
  | imageBegin _ _ _ => exact h.imageBeginEff.done
  | imageData _ _ _ _ => exact h.imageDataEff.done
  | imageEnd _ _ => exact h.imageEndEff.done
  | imageCmd _ _ _ => exact h.imageCmdEff.done
  | dmpDuplicateExpiry _ _ _ => exact h.duplicateExpiryEff.done
  | i3cPrivateWrite _ => exact h.i3cWriteEff.done
  | i3cPrivateRead => exact h.i3cReadEff.done
  | enec _ => exact h.eventsCccEff.done
  | disec _ => exact h.eventsCccEff.done
  | rstdaa => exact h.rstdaaEff.done
  | entdaa _ => exact h.entdaaEff.done
  | setdasa _ _ => exact h.setdasaEff.done
  | getpid => exact h.getFreeEff.done
  | getbcr => exact h.getFreeEff.done
  | getdcr => exact h.getFreeEff.done
  | getstatus => exact h.getFreeEff.done
  | getmwl => exact h.getLenEff.done
  | getmrl => exact h.getLenEff.done
  | setmwl _ => exact h.setLenEff.done
  | setmrl _ => exact h.setLenEff.done
  | ptpSync _ => exact h.ptpSyncEff.done
  | mgtLogRdWrite _ => exact (h.served (·.logRdEff)).done
  | linkTrainDone _ => exact h.linkTrainDoneEff.done
  | linkTrainRetry => exact h.linkRetryEff.done
  | laneError _ => exact h.laneErrorEff.done
  | jokorFrame _ => exact h.jokorFrameEff.done
  | pairHello _ _ _ _ _ _ => exact h.pairHelloEff.done
  | heartbeatSend => exact h.heartbeatSendEff.done
  | heartbeatReceive _ => exact h.heartbeatReceiveEff.done
  | partnerLost => exact h.partnerLostEff.done
  | bootWaitExpiry _ => exact h.bootWaitEff.done
  | ownNetHigh _ _ => exact h.ownNetHighEff.done
  | claimTimeout => exact h.claimTimeoutEff.done
  | peerResetRelease => exact h.peerReleaseEff.done
  | handover _ => exact (h.served (·.handoverEff)).done
  | handoverMessage => exact h.handoverMessageEff.done
  | handoverAck => exact h.handoverAckEff.done
  | handoverTimeout => exact h.handoverTimeoutEff.done
  | peerReset _ => exact (h.served (·.peerResetEff)).done
  | peerResetEnd => exact h.peerResetEndEff.done
  | forwardedCommand _ => exact h.forwardedCommandEff.done
  | journalEntry _ => exact h.journalEntryEff.done
  | journalAck _ => exact h.journalAckEff.done
  | forwardResult _ => exact h.forwardResultEff.done
  | mirrorReceive _ => exact h.mirrorReceiveEff.done
  | mirrorAck _ => exact h.mirrorAckEff.done
  | pairSettleEnd => exact h.settleEndEff.done
  | partnerDetach => exact h.detachEff.done
  | resyncComplete => exact h.resyncDoneEff.done
  | pairApplyValidated _ _ => exact h.pairValidatedEff.done
  | pairApplyWaitEnd => exact h.pairWaitEndEff.done
  | regacc _ => exact h.regAccEff.done
  | extest => exact h.extestEff.done
  | idcode => exact h.idcodeEff.done
  | samplePreload _ _ => exact h.samplePreloadEff.done
  | highz => exact h.highzEff.done
  | clamp => exact h.clampEff.done
  | extestPulse => exact h.extestPulseEff.done
  | extestTrain => exact h.extestTrainEff.done
  | bypass _ => exact h.bypassEff.done
  | registerWrite _ _ _ _ => exact h.barWrite.done
  | rcCounterRead _ _ _ => exact h.barRead.done
  | reg64LoRead _ _ _ => exact h.barRead.done
  | configurationRequest _ _ => exact h.configEff.done
  | pcieRefPresent => exact h.refPresentEff.done
  | sgmiiLinkChange _ => exact h.sgmiiEff.done
  | addrChange _ _ => exact h.addrChangeEff.done
  | ptpLost => exact h.ptpLostEff.done
  | ownerLinkWaitExpiry _ => exact h.ownerLinkWaitEff.done
  | dmpMessageDropped _ _ _ => exact h.messageEff.done
  | servoConversionSlot _ _ => exact h.conversionEff.done
  | dacUpdate => exact h.dacUpdateEff.done

theorem memoryWf.step (h : memoryWf s) : wfNext (step s) := by
  unfold Machine.step
  split
  · intro u e
    cases e
    exact h.tick
  · next c cs _ => exact h.frame.exec c

/-- Settles O36: few operations write a byte of either memory, each through an update that keeps its form, and the others leave
both memories alone. -/
theorem memoryStaysCanonical : Obligations.MemoryStaysCanonical := by
  unfold Obligations.MemoryStaysCanonical
  intro s t h e
  exact h.step t e

/-- Settles O37. -/
theorem memoryCanonicalAtReset : Obligations.MemoryCanonicalAtReset := by
  unfold Obligations.MemoryCanonicalAtReset
  exact Memory.wf_reset

end Sys2Proof.Safety
end

section
/-! The ends of every command and the passing of time (R34, R218, R462, R518): the queue, the levels of the safe outputs, and the
step itself. -/

namespace Sys2Proof.Proofs

open Sys2Proof Sys2Proof.Machine Sys2Proof.Safety

/-! ### A step is a tick or a command -/

theorem step_of_empty {s : State} (hq : s.pending = []) : step s = .next (tick s) := by
  simp only [step, hq]

theorem step_of_front {s : State} {c : Instr} {cs : List Instr} (hq : s.pending = c :: cs) :
    step s = exec c { s with pending := cs } := by
  simp only [step, hq]

/-- What a step leads to is a tick, or a state that finish makes of an effect. -/
theorem step_next {s t : State} (h : step s = .next t) : t = tick s ∨ ∃ s' u, t = finish s' u := by
  cases hq : s.pending with
  | nil =>
    rw [step_of_empty hq] at h
    cases h
    exact .inl rfl
  | cons c cs =>
    rw [step_of_front hq] at h
    obtain ⟨u, hu⟩ := exec_next c _ t h
    exact .inr ⟨_, u, hu⟩

/-! ### The output stage (R218, R462) -/

theorem lasersOff_of_released {p : PinState} (h : released p) : lasersOff p := by
  obtain ⟨-, -, hlen, hgate, -⟩ := h
  exact ⟨hlen, hgate⟩

/-- The output stage makes any levels safe. -/
theorem outputsSafe_outputStage (s : State) : outputsSafe (outputStage s) := by
  unfold outputStage
  split
  · next hoff =>
    have hreleased := released_releaseOutputs s
    exact ⟨fun _ => hreleased, fun _ => lasersOff_of_released hreleased⟩
  · next hon =>
    split
    · exact ⟨fun hoff => absurd hoff hon, fun _ => by simp [lasersOff]⟩
    · next hilk => exact ⟨fun hoff => absurd hoff hon, fun h => absurd h hilk⟩

theorem outputsSafe_tick {s : State} (h : outputsSafe s) : outputsSafe (tick s) := by
  unfold tick
  split
  · exact h
  · exact h

/-- Settles O1: a tick moves no output level, and every command ends in the output stage. -/
theorem outputsStaySafe : Obligations.OutputsStaySafe := by
  unfold Obligations.OutputsStaySafe
  intro s t hs h
  rcases step_next h with rfl | ⟨s', u, rfl⟩
  · exact outputsSafe_tick hs
  · exact outputsSafe_outputStage _

/-- Settles O2: at reset every output is released. -/
theorem outputsSafeAtReset : Obligations.OutputsSafeAtReset := by
  unfold Obligations.OutputsSafeAtReset
  have hreleased : released State.reset.pins := released_releaseOutputs State.reset
  exact ⟨fun _ => hreleased, fun _ => lasersOff_of_released hreleased⟩

/-! ### The queue -/

/-- Settles O5: finish puts the queue back. -/
theorem queueIsKept : Obligations.QueueIsKept := by
  unfold Obligations.QueueIsKept
  intro c s t h
  obtain ⟨u, hu⟩ := exec_done c s
  rw [hu] at h
  cases h
  exact finish_pending s u

/-- Settles O6: every command is done with its effect. -/
theorem noCommandStops : Obligations.NoCommandStops := by
  unfold Obligations.NoCommandStops
  intro c s
  obtain ⟨u, hu⟩ := exec_done c s
  exact ⟨finish s u, hu, finish_pending s u⟩

/-- Settles O4. -/
theorem stepRunsTheFront : Obligations.StepRunsTheFront := by
  unfold Obligations.StepRunsTheFront
  intro c s rest
  exact step_of_front rfl

/-! ### A tick (R518) -/

theorem tick_of_stopped {s : State} (h : s.pwr.counting = false) : tick s = s := by
  simp [tick, h]

theorem tick_of_counting {s : State} (h : s.pwr.counting = true) (hrate : s.mgt.ptpRate = 0) (hfrac : s.mgt.ptpFrac = 0) :
    tick s = { s with pwr := { s.pwr with ticks := s.pwr.ticks + 1, time := s.pwr.time + 10 } } := by
  have hslew : s.mgt.ptpFrac + 10 * s.mgt.ptpRate = 0 := by omega
  have hmgt : { s.mgt with ptpFrac := 0 } = s.mgt := by rw [← hfrac]
  have htime : ((s.pwr.time : Int) + 10 + 0 / 1000000).toNat = s.pwr.time + 10 := by omega
  simp only [tick, h, if_true, hslew, Int.zero_emod, hmgt, htime]

/-- Settles O7. -/
theorem emptyQueueTicks : Obligations.EmptyQueueTicks := by
  unfold Obligations.EmptyQueueTicks
  intro s hq
  rw [step_of_empty hq]
  exact ⟨fun hstopped => congrArg _ (tick_of_stopped hstopped),
    fun hcounting hrate hfrac => congrArg _ (tick_of_counting hcounting hrate hfrac)⟩

end Sys2Proof.Proofs
end

section
/-! Resets, the steps of power-up and the sideband signals of PCIe (R456 to R476). -/

namespace Sys2Proof.Proofs

open Sys2Proof Sys2Proof.Machine Sys2Proof.Safety

/-! ### Commands that end with their outputs released (R462) -/

theorem released_finish_early {t : State} (h : stage t < 6) (s : State) : released (finish s t).pins := by
  rw [finish_pins_off s t (outputsOff_early h)]
  exact released_releaseOutputs t

theorem released_finish_halted {t : State} (h : halted t = true) (s : State) : released (finish s t).pins := by
  rw [finish_pins_off s t (by simp [outputsOff, h])]
  exact released_releaseOutputs t

theorem served_open {s : State} {off : Nat} (h : sideServed s off = true) (f : State → State) : served off f s = f s := if_pos h

theorem finish_fuses {s t : State} (h : t.img.fuses = s.img.fuses) : (finish s t).img.fuses = s.img.fuses := by
  simp [h]

/-! ### The cold reset (R456, R457) -/

theorem getReg_coldReset (s : State) (off : Nat) :
    getReg (coldReset s) off = if Reg.RST_CAUSE = off then 1#32 else resetValue off := by
  have hcleared (t : State) (h : t.regs = s.regs.filter (fun _ => false)) : getReg t off = resetValue off :=
    getReg_keep (fun _ => false) s t off h
  rw [coldReset, getReg_setReg]
  split
  · rfl
  · exact hcleared _ rfl

/-- RST_CAUSE stands apart from the stage, which a cold reset leaves at S0. -/
theorem stage_coldReset (s : State) : stage (coldReset s) = 0 := by
  have hstage : resetValue Reg.GLB_STATUS = 0#32 := by decide
  simp only [stage, getF, getReg_coldReset, Fld.GLB_STATUS_STAGE]
  rw [if_neg (by decide), hstage]
  rfl

/-- Both commands that make a cold reset leave what it leaves, whatever they do to the pins. -/
theorem completes_coldReset {i : Instr} {s u : State} {p : PinState} (hu : u = { coldReset s with pins := p })
    (h : exec i s = done s u) : completes i s (fun t => stage t = 0 ∧ t.pwr.railsGood = false ∧ t.pwr.counting = false ∧
      getReg t Reg.RST_CAUSE = 1#32 ∧ (∀ off, off ≠ Reg.RST_CAUSE → getReg t off = resetValue off) ∧
      t.img.fuses = s.img.fuses ∧ t.mram.recs = s.mram.recs ∧ t.mram.hist = s.mram.hist ∧
      t.img.running = none ∧ t.pwr.time = 0 ∧ released t.pins) := by
  have hregs : u.regs = (coldReset s).regs := hu ▸ rfl
  have hreg (off : Nat) : getReg (finish s u) off = if Reg.RST_CAUSE = off then 1#32 else resetValue off := by
    rw [getReg_finish, getReg_congr hregs, getReg_coldReset]
  have hstage : stage u = 0 := (getF_congr hregs _).trans (stage_coldReset s)
  refine completes_of_done h ⟨(stage_finish s u).trans hstage, ?_, ?_, ?cause, ?others, ?fuses, ?_, ?_, ?_, ?_,
    released_finish_early (by omega) s⟩
  case cause => exact (hreg _).trans (if_pos rfl)
  case others => exact fun off hoff => (hreg off).trans (if_neg (Ne.symm hoff))
  case fuses => exact finish_fuses (by simp [hu, coldReset, resetWith])
  all_goals simp [hu, coldReset, resetWith]

/-- Settles O8: a failed rail only releases the outputs on top of the cold reset. -/
theorem coldResets : Obligations.ColdResets := by
  unfold Obligations.ColdResets
  intro s c hc
  simp only [List.mem_cons, List.not_mem_nil, or_false] at hc
  rcases hc with rfl | rfl
  · exact completes_coldReset (p := (coldReset s).pins) rfl rfl
  · exact completes_coldReset (p := (railFailEff s).pins) rfl rfl

/-! ### Entering S1 and S2 -/

/-- The registers that the entry to S2 may write: the stage, and the conflict of straps with its event. -/
def enterS2Regs : List Nat := [Reg.GLB_STATUS, Reg.IMG_STATUS, Reg.GLB_EVT] ++ logRegs

theorem enterStage_low {n : Nat} (hn : n < 3) (s : State) : enterStage n s =
    modPwr (fun p => { p with stageFrom := p.time }) (setF Fld.GLB_STATUS_STAGE n (setF Fld.IMG_STATUS_STAGE n s)) :=
  if_neg (by omega)

theorem getReg_enterStage_low {n off : Nat} (hn : n < 3) (hoff : off ∉ enterS2Regs) (s : State) :
    getReg (enterStage n s) off = getReg s off := by
  simp only [enterS2Regs, List.mem_append, List.mem_cons, not_or] at hoff
  obtain ⟨⟨hglb, himg, -⟩, -⟩ := hoff
  rw [enterStage_low hn, getReg_modPwr, getReg_setF_ne (f := Fld.GLB_STATUS_STAGE) (Ne.symm hglb),
    getReg_setF_ne (f := Fld.IMG_STATUS_STAGE) (Ne.symm himg)]

/-- The parts of the state that neither the entry to S1 or S2 nor its event may change. -/
theorem enterS2_keeps (s : State) : (enterS2 s).img = s.img ∧ (enterS2 s).unt = s.unt ∧ (enterS2 s).media = s.media ∧
    (enterS2 s).host.cmds = s.host.cmds := by
  unfold enterS2
  dsimp only
  split
  · split
    · simp [glbEvt, enterStage_low]
    · simp [enterStage_low]
  · exact ⟨rfl, rfl, rfl, rfl⟩

theorem getReg_enterS2 {off : Nat} (hoff : off ∉ enterS2Regs) (s : State) : getReg (enterS2 s) off = getReg s off := by
  have hglb : Reg.GLB_STATUS ≠ off ∧ Reg.GLB_EVT ≠ off ∧ off ∉ logRegs := by
    simp only [enterS2Regs, List.mem_append, List.mem_cons, not_or] at hoff
    exact ⟨Ne.symm hoff.1.1, Ne.symm hoff.1.2.2.1, hoff.2⟩
  obtain ⟨hstatus, hevt, hlog⟩ := hglb
  unfold enterS2
  dsimp only
  split
  · split
    · rw [glbEvt, getReg_evt (f := Fld.GLB_EVT_STRAP_CONFLICT) hlog hevt,
        getReg_setF_ne (f := Fld.GLB_STATUS_STRAP_CONFLICT) hstatus, getReg_enterStage_low (by decide) hoff, getReg_modPwr]
    · rw [getReg_enterStage_low (by decide) hoff, getReg_modPwr]
  · rfl

/-- With RESET_N low nothing enters S2. -/
theorem enterS2_held {s : State} (h : s.pwr.rstLow = true) : enterS2 s = s := by simp [enterS2, h]

/-- The entry to S2 starts deck time, whether the straps conflict or not. -/
theorem enterS2_ready {s : State} (hs : stage s = 1) (hrails : s.pwr.railsGood = true) (hhold : s.pwr.holdDone = true)
    (hrst : s.pwr.rstLow = false) (hpll : s.pwr.pllLocked = true) (hclk : s.pwr.clockLost = false) :
    stage (enterS2 s) = 2 ∧ (enterS2 s).pwr.counting = true ∧ (enterS2 s).pwr.time = 0 := by
  have hentered (t : State) : stage (enterStage 2 t) = 2 := stage_enterStage (by decide) t
  have hflagged (t : State) : stage (setF Fld.GLB_STATUS_STRAP_CONFLICT 1 t) = stage t :=
    getF_setF_ne _ _ _ t (by decide) (by decide)
  have hevent (t : State) : stage (glbEvt Fld.GLB_EVT_STRAP_CONFLICT [] t) = stage t :=
    stage_of_getReg (getReg_evt (by decide) (by decide) _ _ t)
  unfold enterS2
  simp only [hs, hrails, hhold, hrst, hpll, hclk, decide_true, Bool.not_false, Bool.and_self, if_true]
  split
  · exact ⟨(hevent _).trans ((hflagged _).trans (hentered _)), by simp [glbEvt, enterStage_low], by simp [glbEvt, enterStage_low]⟩
  · exact ⟨hentered _, by simp [enterStage_low], by simp [enterStage_low]⟩

/-! ### Warm resets (R457 to R460, R473) -/

theorem keptWarm_warmCount : keptWarm Reg.RST_WARM_COUNT = true := by decide

/-- What a warm reset makes of the registers before it enters S1. -/
theorem warmReset_eq (cause : Nat) (s : State) : ∃ u, warmReset cause s = enterS2 (enterStage 1 u) ∧
    getReg u Reg.RST_CAUSE = BitVec.ofNat 32 cause ∧
    getReg u Reg.RST_WARM_COUNT = BitVec.ofNat 32 (min 0xFFFFFFFF ((getReg s Reg.RST_WARM_COUNT).toNat + 1)) ∧
    u.img = { fuses := s.img.fuses } ∧ u.unt.tab = [] ∧ u.host.cmds = [] ∧ u.media.skeins = [] := by
  have hkept : getReg (resetWith keptWarm s) Reg.RST_WARM_COUNT = getReg s Reg.RST_WARM_COUNT :=
    (getReg_keep keptWarm s _ _ rfl).trans (if_pos keptWarm_warmCount)
  refine ⟨_, rfl, ?cause, ?count, rfl, rfl, rfl, rfl⟩
  case cause => rw [getReg_modPwr, getReg_setReg_same]
  case count => rw [getReg_modPwr, getReg_setReg_ne (by decide), bumpBy, getReg_setReg_same, hkept]

/-- What a warm reset leaves of the image, the units, the media and the commands in flight. -/
theorem warmReset_keeps (cause : Nat) (s : State) : (warmReset cause s).img = { fuses := s.img.fuses } ∧
    (warmReset cause s).unt.tab = [] ∧ (warmReset cause s).host.cmds = [] ∧ (warmReset cause s).media.skeins = [] := by
  obtain ⟨u, hu, -, -, himg, htab, hcmds, hskeins⟩ := warmReset_eq cause s
  obtain ⟨eimg, eunt, emedia, ecmds⟩ := enterS2_keeps (enterStage 1 u)
  have hunt : (enterStage 1 u).unt = u.unt := by rw [enterStage_low (by decide)]; rfl
  have hmedia : (enterStage 1 u).media = u.media := by rw [enterStage_low (by decide)]; rfl
  rw [hu]
  exact ⟨eimg.trans ((enterStage_img 1 u).trans himg), (congrArg UnitsState.tab (eunt.trans hunt)).trans htab,
    ecmds.trans ((congrArg HostState.cmds (enterStage_host 1 u)).trans hcmds),
    (congrArg MediaState.skeins (emedia.trans hmedia)).trans hskeins⟩

theorem getReg_warmReset (cause : Nat) (s : State) :
    getReg (warmReset cause s) Reg.RST_CAUSE = BitVec.ofNat 32 cause ∧ getReg (warmReset cause s) Reg.RST_WARM_COUNT =
      BitVec.ofNat 32 (min 0xFFFFFFFF ((getReg s Reg.RST_WARM_COUNT).toNat + 1)) := by
  obtain ⟨u, hu, hcause, hcount, -⟩ := warmReset_eq cause s
  have hreg {off : Nat} (hoff : off ∉ enterS2Regs) : getReg (enterS2 (enterStage 1 u)) off = getReg u off :=
    (getReg_enterS2 hoff _).trans (getReg_enterStage_low (by decide) hoff u)
  rw [hu]
  exact ⟨(hreg (by decide)).trans hcause, (hreg (by decide)).trans hcount⟩

theorem toNat_saturated (n : Nat) : (BitVec.ofNat 32 (min 0xFFFFFFFF n)).toNat = min 0xFFFFFFFF n := by
  rw [BitVec.toNat_ofNat]
  omega

theorem warmLeaves_warmReset {s v : State} (hfuses : v.img.fuses = s.img.fuses)
    (hcount : getReg v Reg.RST_WARM_COUNT = getReg s Reg.RST_WARM_COUNT) (cause : Nat) :
    warmLeaves cause s (finish s (warmReset cause v)) := by
  obtain ⟨himg, htab, hcmds, hskeins⟩ := warmReset_keeps cause v
  obtain ⟨hcause, hwarm⟩ := getReg_warmReset cause v
  refine ⟨(getReg_finish _ _ _).trans hcause, ?count, ?fuses, ?running, ?_, ?_, ?_⟩
  case count => rw [getReg_finish, hwarm, hcount, toNat_saturated]
  case fuses => exact finish_fuses ((congrArg ImgState.fuses himg).trans hfuses)
  case running => exact (congrArg ImgState.running (finish_img _ _)).trans (congrArg ImgState.running himg)
  · exact (congrArg UnitsState.tab (finish_unt _ _)).trans htab
  · exact (congrArg HostState.cmds (finish_host _ _)).trans hcmds
  · exact (congrArg MediaState.skeins (finish_media _ _)).trans hskeins

/-- Saving the counters writes the record store alone. -/
theorem saveNow_regs (same : Bool) (s : State) : (saveNow same s).regs = s.regs := rfl

/-- Settles O9: each of the four commands makes a warm reset of a state with the registers and fuses of s. -/
theorem warmResets : Obligations.WarmResets := by
  unfold Obligations.WarmResets
  refine fun s => ⟨fun hrails => ?assert, fun v same hserved hkey hwarm => ?soft, fun hclk => ?relock, fun hpf hrails => ?recover⟩
  case assert =>
    have heff : resetAssertEff s = warmReset 2 (modPwr (fun p => { p with rstLow := true }) s) := if_pos hrails
    exact completes_of_done (congrArg (done s) heff) (warmLeaves_warmReset rfl rfl 2)
  case soft =>
    have heff : softResetEff v same s = warmReset 3 (saveNow same s) := if_pos (by simp [hkey, hwarm])
    exact completes_of_done (congrArg (done s) ((served_open hserved _).trans heff))
      (warmLeaves_warmReset rfl (getReg_congr (saveNow_regs same s) _) 3)
  case relock =>
    have heff : clockRelockEff s = warmReset 4 s := if_pos hclk
    exact completes_of_done (congrArg (done s) heff) (warmLeaves_warmReset rfl rfl 4)
  case recover =>
    have heff : pwrRecoverEff s = warmReset 5 s := if_pos (by simp [hpf, hrails])
    exact completes_of_done (congrArg (done s) heff) (warmLeaves_warmReset rfl rfl 5)

/-! ### From S0 to the ROM check (R458, R460, R461, R465, R469) -/

theorem completes_railsGood {s : State} (hs : stage s = 0) (hrails : s.pwr.railsGood = false) :
    completes .railsGood s (fun t => stage t = 1 ∧ t.pwr.railsGood = true ∧ released t.pins) := by
  have heff : railsGoodEff s = enterStage 1 (modPwr (fun p => { p with railsGood := true }) s) :=
    if_pos (by simp [hs, hrails])
  have hstage := stage_enterStage (n := 1) (by decide) (modPwr (fun p => { p with railsGood := true }) s)
  exact completes_of_done (congrArg (done s) heff) ⟨(stage_finish _ _).trans hstage, by simp [enterStage_low],
    released_finish_early (by omega) s⟩

/-- An edge that RESET_N keeps from leading to S2 is remembered in the power state alone. -/
theorem completes_remembered {s : State} {i : Instr} {f : PowerState → PowerState} (hs : stage s = 1)
    (h : exec i s = done s (enterS2 (modPwr f s))) (hrst : (f s.pwr).rstLow = true) :
    completes i s (fun t => stage t = 1 ∧ t.pwr = f s.pwr ∧ released t.pins) := by
  rw [enterS2_held (s := modPwr f s) hrst] at h
  have hstage : stage (modPwr f s) = 1 := hs
  exact completes_of_done h ⟨(stage_finish _ _).trans hstage, finish_pwr _ _, released_finish_early (by omega) s⟩

theorem completes_holdEnd {s : State} (hs : stage s = 1) (hrails : s.pwr.railsGood = true) (hhold : s.pwr.holdDone = false)
    (hrst : s.pwr.rstLow = true) :
    completes .internalHoldEnd s (fun t => stage t = 1 ∧ t.pwr.holdDone = true ∧ released t.pins) := by
  have heff : holdEndEff s = enterS2 (modPwr (fun p => { p with holdDone := true }) s) := if_pos (by simp [hs, hrails, hhold])
  exact completes_mono (completes_remembered hs (congrArg (done s) heff) hrst)
    fun t ⟨hstage, hpwr, hpins⟩ => ⟨hstage, by rw [hpwr], hpins⟩

theorem completes_pllLock {s : State} (hs : stage s = 1) (hrails : s.pwr.railsGood = true) (hclk : s.pwr.clockLost = false)
    (hrst : s.pwr.rstLow = true) :
    completes .pllLock s (fun t => stage t = 1 ∧ t.pwr.pllLocked = true ∧ released t.pins) := by
  have heff : pllLockEff s = enterS2 (modPwr (fun p => { p with pllLocked := true }) s) := if_pos (by simp [hs, hrails, hclk])
  exact completes_mono (completes_remembered hs (congrArg (done s) heff) hrst)
    fun t ⟨hstage, hpwr, hpins⟩ => ⟨hstage, by rw [hpwr], hpins⟩

/-- The state in which the straps are latched. -/
def strapsLatched (straps : Nat) (s : State) : State :=
  modPwr (fun p => { p with rstLow := false, straps := (BitVec.ofNat 32 straps &&& 0x3F33#32).toNat })
    (setReg Reg.GLB_STRAPS (BitVec.ofNat 32 straps &&& 0x3F33#32) s)

theorem completes_resetRise {s : State} (straps : Nat) (hs : stage s = 1) (hrails : s.pwr.railsGood = true)
    (hhold : s.pwr.holdDone = true) (hpll : s.pwr.pllLocked = true) (hclk : s.pwr.clockLost = false) (hrst : s.pwr.rstLow = true) :
    completes (.resetNRise straps) s (fun t => stage t = 2 ∧ t.pwr.counting = true ∧ t.pwr.time = 0 ∧
      getReg t Reg.GLB_STRAPS = BitVec.ofNat 32 straps &&& 0x3F33#32 ∧ released t.pins) := by
  have heff : resetRiseEff straps s = enterS2 (strapsLatched straps s) := if_neg (by simp [hrst])
  have hstage : stage (strapsLatched straps s) = 1 :=
    (stage_of_getReg (t := strapsLatched straps s) (getReg_setReg_ne (by decide) _ s)).trans hs
  obtain ⟨h2, hcount, htime⟩ := enterS2_ready hstage hrails hhold rfl hpll hclk
  refine completes_of_done (congrArg (done s) heff) ⟨(stage_finish _ _).trans h2, ?_, ?_, ?_, released_finish_early (by omega) s⟩
  · rw [finish_pwr, hcount]
  · rw [finish_pwr, htime]
  · rw [getReg_finish, getReg_enterS2 (by decide)]
    exact getReg_setReg_same _ _ s

theorem bootSrc_of_getReg {s t : State} (h : getReg t Reg.GLB_STRAPS = getReg s Reg.GLB_STRAPS) : bootSrc t = bootSrc s := by
  simp only [bootSrc, getF_of_getReg (f := Fld.GLB_STRAPS_BOOT_SRC) h, pairEn_of_getReg h]

/-- Under BOOT_SRC 0b00 the chain starts with the flash. -/
theorem startChain_flash {s : State} (h : bootSrc s = 0) : startChain s = startFlash (modImg (fun m =>
    { m with running := none, chain := [], firstTried := true, flashWait := false, pairWait := false, heldBack := false }) s) := by
  have hsrc : bootSrc (modImg (fun m =>
    { m with running := none, chain := [], firstTried := true, flashWait := false, pairWait := false, heldBack := false }) s) = 0 := h
  simp only [startChain, hsrc]

theorem completes_romCheck_passed {s : State} (hs : stage s = 2) (hh : halted s = false) (hsrc : bootSrc s = 0) :
    completes (.romCheckDone true) s (fun t => stage t = 3 ∧ t.img.flashWait = true ∧ released t.pins) := by
  have heff : romCheckEff true s = afterChain (startChain (enterStage 3 s)) := if_neg (by simp [hs, hh])
  have hsrc3 : bootSrc (enterStage 3 s) = 0 :=
    (bootSrc_of_getReg (getReg_enterStage_ne (by decide) (by decide) (by decide) s)).trans hsrc
  rw [startChain_flash hsrc3] at heff
  have hstage : stage (romCheckEff true s) = 3 := by
    rw [heff, stage_afterChain]
    exact stage_enterStage (by decide) s
  refine completes_of_done (t := romCheckEff true s) rfl ⟨(stage_finish _ _).trans hstage, ?_, released_finish_early (by omega) s⟩
  rw [finish_img, heff, afterChain_img]
  rfl

theorem completes_romCheck_failed {s : State} (hs : stage s = 2) (hh : halted s = false) :
    completes (.romCheckDone false) s (fun t =>
      halted t = true ∧ getF t Fld.GLB_STATUS_HALT_CAUSE = 1 ∧ released t.pins) := by
  have heff : romCheckEff false s = halt 1 s := if_neg (by simp [hs, hh])
  have hhalt : halted (halt 1 s) = true := by
    have hset : getF (setF Fld.GLB_STATUS_HALT 1 s) Fld.GLB_STATUS_HALT = 1 := getF_setF_same _ _ s (by decide) (by decide)
    have hcause := getF_setF_ne Fld.GLB_STATUS_HALT_CAUSE Fld.GLB_STATUS_HALT 1 (setF Fld.GLB_STATUS_HALT 1 s) (by decide) (by decide)
    exact decide_eq_true (by rw [show getF (halt 1 s) Fld.GLB_STATUS_HALT = 1 from hcause.trans hset]; decide)
  have hcause : getF (halt 1 s) Fld.GLB_STATUS_HALT_CAUSE = 1 := getF_setF_same Fld.GLB_STATUS_HALT_CAUSE 1 _ (by decide) (by decide)
  exact completes_of_done (congrArg (done s) heff) ⟨(halted_finish _ _).trans hhalt, (getF_finish _ _ _).trans hcause,
    released_finish_halted hhalt s⟩

theorem completes_clockLoss {s : State} (hrails : s.pwr.railsGood = true) :
    completes .clockLoss s (fun t => stage t = 1 ∧ t.pwr.clockLost = true ∧ t.pwr.counting = false ∧ released t.pins) := by
  have hstage : stage (clockLossEff s) = 1 := by
    rw [clockLossEff, if_pos hrails]
    exact getF_setF_same Fld.GLB_STATUS_STAGE 1 _ (by decide) (by decide)
  refine completes_of_done (t := clockLossEff s) rfl ⟨(stage_finish _ _).trans hstage, ?_, ?_, released_finish_early (by omega) s⟩
  · simp [clockLossEff, hrails]
  · simp [clockLossEff, hrails]

/-- Settles O10. -/
theorem powerUpSteps : Obligations.PowerUpSteps := by
  unfold Obligations.PowerUpSteps
  exact fun s => ⟨completes_railsGood, completes_holdEnd, completes_pllLock, completes_resetRise, completes_romCheck_passed,
    completes_romCheck_failed, completes_clockLoss⟩

/-! ### PCIe (R470, R475, R476) -/

theorem completes_perst_early {s : State} (hs : stage s < 6) : completes .perstNAssert s (fun t =>
    t.pwr = { s.pwr with perst := true, linkUp := false } ∧ t.host = s.host ∧ t.regs = s.regs) := by
  have hstage : stage (modPwr (fun p => { p with perst := true, linkUp := false }) s) < 6 := hs
  have heff : perstEff s = modPwr (fun p => { p with perst := true, linkUp := false }) s :=
    if_neg (by simp only [Bool.and_eq_true, decide_eq_true_eq]; omega)
  exact completes_of_done (congrArg (done s) heff) ⟨by simp, by simp, by simp⟩

/-- From S6 on the fundamental reset is one of every function. -/
theorem completes_perst_late {s : State} (hs : 6 ≤ stage s) (hh : halted s = false) :
    completes .perstNAssert s (fun t => t.host.vfEnable = false ∧ t.host.numVfs = 0) := by
  have heff : perstEff s = flrEff 0 (glbEvt Fld.GLB_EVT_PERST [] (modPwr (fun p => { p with perstFlr := true })
      (modPwr (fun p => { p with perst := true, linkUp := false }) s))) :=
    if_pos (by
      have hstage : 6 ≤ stage (modPwr (fun p => { p with perst := true, linkUp := false }) s) := hs
      have hhalt : halted (modPwr (fun p => { p with perst := true, linkUp := false }) s) = false := hh
      simp [hstage, hhalt])
  refine completes_of_done (congrArg (done s) heff) ?_
  rw [finish_host]
  exact ⟨rfl, rfl⟩

theorem completes_refLost {s : State} (h : s.pwr.refPresent = true) : completes .pcieRefLost s (fun t =>
    t.pwr = { s.pwr with refPresent := false, linkUp := false } ∧ flag t Fld.CLK_EVT_PCIE_REF_LOST = true) := by
  refine completes_of_done (congrArg (done s) (if_pos h)) ⟨by simp, ?_⟩
  rw [flag_finish]
  exact flag_evt_same (by decide) (by decide) (by decide) _ _ _

theorem completes_xtal {s : State} (v : Int) (h : s.pwr.refPresent = true) : completes (.xtalPpmMeasure v) s (fun t =>
    getReg t Reg.CLK_XTAL_PPM = BitVec.ofNat 32 (0x80000000 + unsigned 24 v) ∧ regsKeptBut [Reg.CLK_XTAL_PPM] s t) := by
  refine completes_of_done (congrArg (done s) (if_pos h)) ⟨?_, fun off hoff => ?_⟩
  · rw [getReg_finish, getReg_setReg_same]
  · rw [getReg_finish, getReg_setReg_ne (fun e => hoff (by simp [e]))]

/-- Settles O13. -/
theorem pcieSidebands : Obligations.PcieSidebands := by
  unfold Obligations.PcieSidebands
  intro s
  have hrelease : completes .perstNRelease s (fun t =>
      t.pwr = { s.pwr with perst := false, linkUp := s.pwr.refPresent && decide (2 ≤ stage s) } ∧ t.regs = s.regs) :=
    completes_of_done (t := perstReleaseEff s) rfl ⟨finish_pwr _ _, finish_regs _ _⟩
  have hpresent : completes .pcieRefPresent s (fun t =>
      t.pwr = { s.pwr with refPresent := true, linkUp := !s.pwr.perst && decide (2 ≤ stage s) } ∧ t.regs = s.regs) :=
    completes_of_done (t := refPresentEff s) rfl ⟨finish_pwr _ _, finish_regs _ _⟩
  exact ⟨completes_perst_early, completes_perst_late, hrelease, completes_refLost, hpresent, fun v h => completes_xtal v h⟩

end Sys2Proof.Proofs
end

section
/-! The I3C target (R515, R517): the messages sent to it and common command codes. -/

namespace Sys2Proof.Proofs

open Sys2Proof Sys2Proof.Machine Sys2Proof.Safety

/-- State s with the I3C target x. -/
def withI3c (x : I3cState) (s : State) : State := { s with mgt := { s.mgt with i3c := x } }

theorem modI3c_open {s : State} (h : 2 ≤ stage s) (f : I3cState → I3cState) : modI3c f s = withI3c (f s.mgt.i3c) s := if_pos h

/-- A common command code that only sets a part of the target. -/
theorem completes_onlyI3c (f : I3cState → I3cState) {i : Instr} {s : State} (hs : 2 ≤ stage s)
    (h : exec i s = done s (modI3c f s)) : completes i s (fun t => onlyI3c s t (f s.mgt.i3c)) := by
  rw [modI3c_open hs] at h
  exact completes_of_done h ⟨finish_mgt _ _, finish_regs _ _, finish_out _ _⟩

/-! ### Messages sent to the target -/

/-- The registers that answer a DISCOVER. -/
def discoverWords (s : State) : List Byte :=
  wordBytes ([Reg.GLB_ID, Reg.GLB_VENDOR, Reg.GLB_SIZES, Reg.GLB_VERSION, Reg.GLB_STATUS, Reg.MGT_STATUS].map (regValue s))

theorem liveOf_glb {off : Nat} (h : off < 0x4000) (s : State) : liveOf s off = liveGLB s off := if_pos h

theorem liveOf_mgtStatus (s : State) : liveOf s Reg.MGT_STATUS = liveMGT s Reg.MGT_STATUS := rfl

theorem regValue_of_liveOf {s t : State} {off : Nat} (hlive : liveOf t off = liveOf s off) (hreg : getReg t off = getReg s off) :
    regValue t off = regValue s off := by
  rw [regValue, regValue, hlive, hreg]

theorem liveGLB_withI3c (x : I3cState) (s : State) (off : Nat) : liveGLB (withI3c x s) off = liveGLB s off := by
  have hkey (k : Nat) : keyDig (withI3c x s) k = keyDig s k := rfl
  have hreg : getReg (withI3c x s) off = getReg s off := rfl
  have hpoint : getF (withI3c x s) Fld.BM_STATUS_POINT = getF s Fld.BM_STATUS_POINT := rfl
  simp only [liveGLB, hkey, hreg, hpoint]
  rfl

theorem liveMGT_status_response (r : Option (List Byte)) (s : State) :
    liveMGT (withI3c { s.mgt.i3c with response := r } s) Reg.MGT_STATUS = liveMGT s Reg.MGT_STATUS := rfl

/-- The response that waits to be read shows in none of the registers. -/
theorem discoverWords_withI3c (r : Option (List Byte)) (s : State) :
    discoverWords (withI3c { s.mgt.i3c with response := r } s) = discoverWords s := by
  have hglb {off : Nat} (h : off < 0x4000) : regValue (withI3c { s.mgt.i3c with response := r } s) off = regValue s off :=
    regValue_of_liveOf (by rw [liveOf_glb h, liveOf_glb h, liveGLB_withI3c]) rfl
  have hmgt : regValue (withI3c { s.mgt.i3c with response := r } s) Reg.MGT_STATUS = regValue s Reg.MGT_STATUS :=
    regValue_of_liveOf (by rw [liveOf_mgtStatus, liveOf_mgtStatus, liveMGT_status_response]) rfl
  have hlow : Reg.GLB_ID < 0x4000 ∧ Reg.GLB_VENDOR < 0x4000 ∧ Reg.GLB_SIZES < 0x4000 ∧ Reg.GLB_VERSION < 0x4000 ∧
      Reg.GLB_STATUS < 0x4000 := by decide
  obtain ⟨hid, hvendor, hsizes, hversion, hstatus⟩ := hlow
  rw [discoverWords, discoverWords]
  simp only [List.map, hglb hid, hglb hvendor, hglb hsizes, hglb hversion, hglb hstatus, hmgt]

/-- A DISCOVER that is not dropped makes its response ready. -/
theorem messageEff_discover {s : State} {b : List Byte} (hs : 2 ≤ stage s) (hlen : b.length = 32) (hdrop : dropped s .i3c b = false)
    (htyp : leAt b 3 1 = 0x01) :
    messageEff .i3c b s = i3cAnswer 0x01 (leAt b 8 4) 0 (discoverWords s) (bump Reg.MGT_CNT 4 s) := by
  have hlisted : typListed 0x01 = true := by decide
  have hpay : payloadLen 0x01 = some 0 := rfl
  have heff : messageEff .i3c b s = discoverEff .i3c (leAt b 8 4) (leAt b 4 4 == 0) s := by
    simp [messageEff, dispatchMsg, hdrop, htyp, hlisted, hpay, hlen]
  rw [heff]
  exact if_pos hs

theorem completes_i3cDiscover {s : State} {b : List Byte} (hs : 2 ≤ stage s) (hlen : b.length = 32) (hmwl : b.length ≤ s.mgt.i3c.mwl)
    (hdrop : dropped s .i3c b = false) (htyp : leAt b 3 1 = 0x01) :
    completes (.i3cPrivateWrite b) s (fun t =>
      t.mgt.i3c.response = some (dmpBytes 0x01 (deckId s) (leAt b 8 4) 1 0 (discoverWords s)) ∧ countedBy s t (Reg.MGT_CNT + 16) 1) := by
  have hs' : 2 ≤ stage (withI3c { s.mgt.i3c with response := none } s) := hs
  have hdrop' : dropped (withI3c { s.mgt.i3c with response := none } s) .i3c b = false := hdrop
  have heff : i3cWriteEff b s = i3cAnswer 0x01 (leAt b 8 4) 0 (discoverWords s)
      (bump Reg.MGT_CNT 4 (withI3c { s.mgt.i3c with response := none } s)) := by
    rw [i3cWriteEff, if_neg (Nat.not_lt.2 hmwl), modI3c_open hs, messageEff_discover hs' hlen hdrop' htyp, discoverWords_withI3c]
  refine completes_of_done (congrArg (done s) heff) ⟨?_, countedBy_bump (i := 4) ?_⟩
  · rw [finish_mgt]
    rfl
  · rw [getReg_finish]
    rfl

theorem completes_i3cTooLong {s : State} {b : List Byte} (h : s.mgt.i3c.mwl < b.length) :
    completes (.i3cPrivateWrite b) s (fun t => onlyI3c s t s.mgt.i3c) :=
  completes_of_done (congrArg (done s) (if_pos h)) ⟨finish_mgt _ _, finish_regs _ _, finish_out _ _⟩

theorem completes_i3cRead {s : State} (hs : 2 ≤ stage s) : completes .i3cPrivateRead s (fun t =>
    t.mgt.i3c = { s.mgt.i3c with response := none } ∧
    t.out = s.out ++ [.i3cRead (s.mgt.i3c.response.map (fun r => r.take s.mgt.i3c.mrl))]) := by
  have heff : i3cReadEff s = emit (.i3cRead (s.mgt.i3c.response.map (fun r => r.take s.mgt.i3c.mrl)))
      (withI3c { s.mgt.i3c with response := none } s) := by
    rw [i3cReadEff, if_neg (by omega), modI3c_open hs]
  exact completes_of_done (congrArg (done s) heff) ⟨by rw [finish_mgt]; rfl, finish_out _ _⟩

/-! ### Common command codes -/

theorem eventsCccEff_on {s : State} {events : Nat} (h : bit events 0 = true) (on : Bool) :
    eventsCccEff on events s = modI3c (fun x => { x with eventsOn := on }) s := if_pos h

/-- An address is taken by a target that has none. -/
theorem entdaaEff_free {s : State} {x : Nat} (hs : 2 ≤ stage s) (hx : x < 128) (hda : s.mgt.i3c.da = none) :
    entdaaEff x s = modI3c (fun y => { y with da := some x }) s := by
  rw [entdaaEff, modI3c_open hs, modI3c_open hs, hda, Nat.mod_eq_of_lt hx]
  rfl

theorem setdasaEff_static {s : State} (x : Nat) : setdasaEff (staticAddr s) x s = entdaaEff x s := if_pos rfl

/-- A code whose value the spec leaves open answers its number of bytes. -/
theorem completes_freeCcc {i : Instr} {s : State} {n : Nat} (hs : 2 ≤ stage s) (h : exec i s = done s (getFreeEff n s)) :
    completes i s (fun t => ∃ bs : List Byte, bs.length = n ∧ t.out = s.out ++ [.i3cCcc bs] ∧ t.mgt = s.mgt) := by
  rw [getFreeEff, if_neg (by omega)] at h
  exact completes_of_done h ⟨(List.range n).map (Config.freeByte s.free), by simp, finish_out _ _, finish_mgt _ _⟩

/-- A length is answered in two bytes. -/
theorem completes_getLen {i : Instr} {s : State} {read : Bool} {n : Nat} (hs : 2 ≤ stage s) (h : exec i s = done s (getLenEff read s))
    (hn : (if read then s.mgt.i3c.mrl else s.mgt.i3c.mwl) = n) :
    completes i s (fun t => t.out = s.out ++ [.i3cCcc [BitVec.ofNat 8 (n / 256), BitVec.ofNat 8 n]]) := by
  simp only [getLenEff, if_neg (show ¬ stage s < 2 by omega), hn] at h
  exact completes_of_done h (finish_out _ _)

/-- Settles O50. -/
theorem i3cTargetActs : Obligations.I3cTargetActs := by
  unfold Obligations.I3cTargetActs
  refine fun s hs => ⟨fun b => ⟨completes_i3cDiscover hs, completes_i3cTooLong⟩, completes_i3cRead hs, fun events he => ?events,
    completes_onlyI3c (fun x => { x with da := none }) hs rfl, fun x hx hda => ?addresses, fun e he => ?free, completes_getLen hs rfl rfl,
    completes_getLen hs rfl rfl, fun n => ⟨completes_onlyI3c (fun x => { x with mwl := min 1060 n }) hs rfl,
      completes_onlyI3c (fun x => { x with mrl := min 1060 n }) hs rfl⟩⟩
  case events =>
    exact ⟨completes_onlyI3c (fun x => { x with eventsOn := true }) hs (congrArg (done s) (eventsCccEff_on he true)),
      completes_onlyI3c (fun x => { x with eventsOn := false }) hs (congrArg (done s) (eventsCccEff_on he false))⟩
  case addresses =>
    have hset := entdaaEff_free hs hx hda
    exact ⟨completes_onlyI3c (fun y => { y with da := some x }) hs (congrArg (done s) hset),
      completes_onlyI3c (fun y => { y with da := some x }) hs (congrArg (done s) ((setdasaEff_static x).trans hset))⟩
  case free =>
    simp only [freeCccs, List.mem_cons, List.not_mem_nil, or_false] at he
    rcases he with rfl | rfl | rfl | rfl <;> exact completes_freeCcc hs rfl

end Sys2Proof.Proofs
end

section
/-! Offsets of BAR0 that hold no register (R543): every offset that acts by itself has a row of the register map, and none lies
above its end. -/

namespace Sys2Proof.Proofs

open Sys2Proof Sys2Proof.Machine Sys2Proof.Safety

/-! ### Rows and the offsets that they hold -/

/-- A row of the map begins at base and repeats as dims says. -/
def mapped (base : Nat) (dims : List (Nat × Nat)) : Bool := allRows.any (fun r => r.off == base && r.dims == dims)

theorem rowOf_ne_none {base off : Nat} {dims : List (Nat × Nat)} (h : mapped base dims = true) (hbase : base ≤ off)
    (hin : inDims dims (off - base) = true) : rowOf off ≠ none := by
  obtain ⟨r, hr, hrow⟩ := List.any_eq_true.1 h
  simp only [Bool.and_eq_true, beq_iff_eq] at hrow
  obtain ⟨hoff, hdims⟩ := hrow
  have hholds : rowHolds off r = true := by simp [rowHolds, hoff, hdims, hbase, hin]
  intro hnone
  exact absurd hholds (by simpa using List.find?_eq_none.1 hnone r hr)

section
variable {off : Nat} (hno : rowOf off = none)
include hno

theorem ne_of_mapped {base : Nat} (h : mapped base [] = true) : off ≠ base := by
  rintro rfl
  exact rowOf_ne_none h le_rfl (by simp [inDims]) hno

/-- An offset without a register lies on no element of an array. -/
theorem not_instance {base stride n : Nat} (h : mapped base [(stride, n)] = true) (hbase : base ≤ off) (hlt : (off - base) / stride < n)
    (hmod : (off - base) % stride = 0) : False :=
  rowOf_ne_none h hbase (by simp [inDims, hlt, hmod]) hno

theorem isRc_of_noRow : isRc off = false := by simp [isRc, hno]

theorem regValue_of_noRow (s : State) : regValue s off = 0#32 := by simp [regValue, hno]

theorem storeReg_of_noRow (v : Word) (s : State) : storeReg off v s = s := by simp [storeReg, hno]

theorem writeFn_of_noRow (v : Word) (s : State) (hlo : 0x21000 ≤ off) (hhi : off < 0x22000) : writeFn off v s = s := by
  have hset : firstSet off ≠ Reg.HQ_FN_RING_CMD := by
    have hfirst : firstSet off = 0x21000 + (off - 0x21000) % 0x40 := if_pos (by simp [hlo, hhi])
    rw [hfirst, show Reg.HQ_FN_RING_CMD = 0x21018 from rfl]
    intro he
    exact not_instance hno (base := 0x21018) (stride := 0x40) (n := 64) (by decide +kernel) (by omega) (by omega) (by omega)
  rw [writeFn, if_neg hset, storeReg_of_noRow hno]

/-- No range of the command registers holds such an offset, so the write only stores, and there is nowhere to. -/
theorem writeOne_of_noRow (halign : off % 4 = 0) (v : Word) (s : State) : writeOne off v s = s := by
  have hone {base : Nat} (h : mapped base [] = true) : ¬ off = base := ne_of_mapped hno h
  have hwords {base n : Nat} (h : mapped base [(4, n)] = true) (hb : base % 4 = 0) :
      ¬ (decide (base ≤ off) && decide (off < base + 4 * n)) = true := by
    simp only [Bool.and_eq_true, decide_eq_true_eq]
    exact fun ⟨hlo, hhi⟩ => not_instance hno h hlo (by omega) (by omega)
  have htest : ¬ (decide (0x50000 ≤ off) && decide (off < 0x54000) && decide (off % 0x200 = Reg.CHN_TEST % 0x200)) = true := by
    simp only [Bool.and_eq_true, decide_eq_true_eq]
    rintro ⟨⟨hlo, hhi⟩, hmod⟩
    have hreg : Reg.CHN_TEST = 0x50074 := rfl
    exact not_instance hno (base := Reg.CHN_TEST) (stride := 0x200) (n := 32) (by decide +kernel) (by omega) (by omega) (by omega)
  have hloop : ¬ (decide (0x60000 ≤ off) && decide (off < 0x61000) && decide (off % 0x80 = 0)) = true := by
    simp only [Bool.and_eq_true, decide_eq_true_eq]
    rintro ⟨⟨hlo, hhi⟩, hmod⟩
    exact not_instance hno (base := Reg.LPE_CTRL) (stride := 0x80) (n := 32) (by decide +kernel) hlo
      (by change (off - 0x60000) / 0x80 < 32; omega) (by change (off - 0x60000) % 0x80 = 0; omega)
  have hcoef : ¬ (decide (0x60000 ≤ off) && decide (off < 0x61000) && decide (off % 0x80 = Reg.LPE_COEF_DATA % 0x80)) = true := by
    simp only [Bool.and_eq_true, decide_eq_true_eq]
    rintro ⟨⟨hlo, hhi⟩, hmod⟩
    have hreg : Reg.LPE_COEF_DATA = 0x6004C := rfl
    exact not_instance hno (base := Reg.LPE_COEF_DATA) (stride := 0x80) (n := 32) (by decide +kernel) (by omega) (by omega) (by omega)
  have hcrg : ¬ (decide (0x63000 ≤ off) && decide (off < 0x63800) && decide (off % 0x200 = 0)) = true := by
    simp only [Bool.and_eq_true, decide_eq_true_eq]
    rintro ⟨⟨hlo, hhi⟩, hmod⟩
    exact not_instance hno (base := Reg.CRG_CTRL) (stride := 0x200) (n := 4) (by decide +kernel) hlo
      (by change (off - 0x63000) / 0x200 < 4; omega) (by change (off - 0x63000) % 0x200 = 0; omega)
  have hcmd : ¬ (decide (0x63000 ≤ off) && decide (off < 0x63800) && decide (off % 0x200 = Reg.CRG_CMD % 0x200)) = true := by
    simp only [Bool.and_eq_true, decide_eq_true_eq]
    rintro ⟨⟨hlo, hhi⟩, hmod⟩
    have hreg : Reg.CRG_CMD = 0x63010 := rfl
    exact not_instance hno (base := Reg.CRG_CMD) (stride := 0x200) (n := 4) (by decide +kernel) (by omega) (by omega) (by omega)
  rw [writeOne]
  rw [if_neg (hone (by decide +kernel)), if_neg (hwords (by decide +kernel) (by decide)), if_neg (hone (by decide +kernel))]
  by_cases hfn : (decide (0x21000 ≤ off) && decide (off < 0x22000)) = true
  · rw [if_pos hfn]
    simp only [Bool.and_eq_true, decide_eq_true_eq] at hfn
    exact writeFn_of_noRow hno v s hfn.1 hfn.2
  rw [if_neg hfn, if_neg (hone (by decide +kernel)), if_neg htest, if_neg (hone (by decide +kernel)),
    if_neg (hwords (by decide +kernel) (by decide)), if_neg (hone (by decide +kernel)), if_neg hloop, if_neg hcoef,
    if_neg (hone (by decide +kernel)), if_neg hcrg, if_neg hcmd, if_neg (hone (by decide +kernel)), if_neg (hone (by decide +kernel)),
    if_neg (hwords (by decide +kernel) (by decide)), if_neg (hone (by decide +kernel)), if_neg (hone (by decide +kernel)),
    if_neg (hone (by decide +kernel)), if_neg (hone (by decide +kernel)), if_neg (hone (by decide +kernel)),
    if_neg (hone (by decide +kernel)), storeReg_of_noRow hno]

theorem readEffect_of_noRow (hlow : isLow off = false) (hhigh : isHigh off = false) (s : State) : readEffect off s = s := by
  have hport : ¬ off = Reg.CAM_PT_DATA := ne_of_mapped hno (by decide +kernel)
  have hcoef : ¬ (decide (0x60000 ≤ off) && decide (off < 0x61000) && decide (off % 0x80 = Reg.LPE_COEF_DATA % 0x80)) = true := by
    simp only [Bool.and_eq_true, decide_eq_true_eq]
    rintro ⟨⟨hlo, hhi⟩, hmod⟩
    have hreg : Reg.LPE_COEF_DATA = 0x6004C := rfl
    exact not_instance hno (base := Reg.LPE_COEF_DATA) (stride := 0x80) (n := 32) (by decide +kernel) (by omega) (by omega) (by omega)
  have hstatus : ¬ (decide (0x50000 ≤ off) && decide (off < 0x54000) && decide (off % 0x200 = Reg.CHN_STATUS % 0x200)) = true := by
    simp only [Bool.and_eq_true, decide_eq_true_eq]
    rintro ⟨⟨hlo, hhi⟩, hmod⟩
    have hreg : Reg.CHN_STATUS = 0x50004 := rfl
    exact not_instance hno (base := Reg.CHN_STATUS) (stride := 0x200) (n := 32) (by decide +kernel) (by omega) (by omega) (by omega)
  unfold readEffect
  simp only [hlow, hhigh, isRc_of_noRow hno, Bool.false_eq_true, if_false, if_neg hport,
    if_neg hcoef, if_neg hstatus]

end

/-! ### Accesses of such an offset -/

/-- The PF reaches a register at its own offset alone. -/
theorem target_pf {s : State} {off r : Nat} (h : target s 0 off = some (.inl r)) : r = off := by
  unfold target at h
  simp only [if_true] at h
  split at h
  · split at h <;> simp at h
  · split at h
    · simpa using h.symm
    · simp at h

section
variable {s : State} {off : Nat} (hm : ∀ o, target s 0 off ≠ some (.inr o)) (halign : off % 4 = 0) (hno : rowOf off = none)
  (hlow : isLow off = false) (hhigh : isHigh off = false)
include hm hno hhigh

include halign hlow in
theorem barWrite_of_noRow (v : Nat) : barWrite 0 off 4 v s = s := by
  have hstore : writeReg off (BitVec.ofNat 32 v) s = s := by
    simp only [writeReg, hlow, hhigh, Bool.false_eq_true, if_false, writeOne_of_noRow hno halign]
  unfold barWrite
  split
  · rfl
  · rename_i o h; exact absurd h (hm o)
  · rename_i r h
    rw [target_pf h, hstore]
    simp

theorem barValue_of_noRow : barValue s 0 off 4 = 0 := by
  unfold barValue
  split
  · rfl
  · rename_i o h; exact absurd h (hm o)
  · rename_i r h
    rw [target_pf h, hhigh, regValue_of_noRow hno]
    simp

include hlow in
theorem barRead_of_noRow : barRead 0 off 4 s = emit (.regData off 0) s := by
  unfold barRead
  rw [barValue_of_noRow hm hno hhigh]
  dsimp only
  split
  · rename_i r h
    rw [target_pf h, readEffect_of_noRow hno hlow hhigh, ite_self]
  · rfl

end

/-! ### The end of the map -/

/-- The length of what a row of these dimensions holds. -/
def spanOf : List (Nat × Nat) → Nat
  | [] => 1
  | (stride, n) :: _ => stride * n

theorem lt_spanOf {dims : List (Nat × Nat)} {d : Nat} (hpos : ∀ e ∈ dims, 0 < e.1) (h : inDims dims d = true) : d < spanOf dims := by
  cases dims with
  | nil => simpa [inDims, spanOf] using h
  | cons e ds =>
    simp only [inDims, Bool.and_eq_true, decide_eq_true_eq] at h
    have hlt := (Nat.div_lt_iff_lt_mul (hpos e (by simp))).1 h.1
    rwa [Nat.mul_comm] at hlt

theorem allRows_end : ∀ r ∈ allRows, (∀ e ∈ r.dims, 0 < e.1) ∧ r.off + spanOf r.dims ≤ 0x83000 := by decide +kernel

theorem pairLows_end : ∀ lo ∈ pairLows, lo < 0x82FFC := by decide

theorem rowOf_above {off : Nat} (h : 0x83000 ≤ off) : rowOf off = none := by
  refine List.find?_eq_none.2 fun r hr hholds => ?_
  obtain ⟨hpos, hend⟩ := allRows_end r hr
  simp only [rowHolds, Bool.and_eq_true, decide_eq_true_eq] at hholds
  have := lt_spanOf hpos hholds.2
  omega

theorem isLow_above {off : Nat} (h : 0x82FFC ≤ off) : isLow off = false := by
  have hset : firstSet off = off := if_neg (by simp; omega)
  have hnot : off ∉ pairLows := fun hmem => by
    have := pairLows_end off hmem
    omega
  rw [isLow, hset]
  simpa using hnot

/-- Settles O32. -/
theorem offsetsWithoutARegister : Obligations.OffsetsWithoutARegister := by
  unfold Obligations.OffsetsWithoutARegister
  refine ⟨fun s off v halign hno hout hlow hhigh _ => ⟨?write, ?read⟩, fun off h _ => ?above⟩
  case write =>
    have heff := barWrite_of_noRow (target_ne_msix (f := 0) hout s) halign hno hlow hhigh v
    exact completes_of_done (congrArg (done s) heff) ⟨regsKeptBut_of_regs _ (finish_regs _ _), finish_unt _ _, finish_mot _ _,
      finish_media _ _⟩
  case read =>
    have heff := barRead_of_noRow (target_ne_msix (f := 0) hout s) hno hlow hhigh
    exact completes_of_done (congrArg (done s) heff) ⟨finish_out _ _, regsKeptBut_of_regs _ (finish_regs _ _)⟩
  case above =>
    have hno := rowOf_above h
    exact ⟨hno, isLow_above (by omega), by simp [isHigh, isLow_above (show 0x82FFC ≤ off - 4 by omega)], isRc_of_noRow hno⟩

end Sys2Proof.Proofs
end

section
/-! The MRAM record store (R446 to R450) and the disc sensors (R508). -/

namespace Sys2Proof.Proofs

open Sys2Proof Sys2Proof.Machine Sys2Proof.Safety

/-! ### Slots of a record -/

/-- The slot of a record by its letter. -/
def slotOf (r : MramRec) (slotB : Bool) : Option MramSlot := if slotB then r.b else r.a

theorem slotOf_putSlot_same (typ index : Nat) (slotB : Bool) (x : Option MramSlot) (s : State) :
    slotOf (mramRec (putSlot typ index slotB x s) typ index) slotB = x := by
  rw [mramRec, putSlot, Tbl.get_put_same]
  cases slotB <;> rfl

theorem slotOf_putSlot_other (typ index : Nat) (slotB : Bool) (x : Option MramSlot) (s : State) :
    slotOf (mramRec (putSlot typ index slotB x s) typ index) (!slotB) = slotOf (mramRec s typ index) (!slotB) := by
  rw [mramRec, putSlot, Tbl.get_put_same]
  cases slotB <;> rfl

theorem mramRec_putSlot_ne {typ index typ' index' : Nat} (h : recKey typ' index' ≠ recKey typ index) (slotB : Bool)
    (x : Option MramSlot) (s : State) : mramRec (putSlot typ index slotB x s) typ' index' = mramRec s typ' index' :=
  Tbl.get_put_ne _ _ _ (Ne.symm h) _

theorem mramRec_congr {s t : State} (h : t.mram.recs = s.mram.recs) (typ index : Nat) : mramRec t typ index = mramRec s typ index := by
  rw [mramRec, h, mramRec]

/-- State s with the writes q waiting. -/
def withWrites (q : List MramWrite) (s : State) : State := { s with mram := { s.mram with queue := q } }

theorem mramRec_finish (s t : State) (typ index : Nat) : mramRec (finish s t) typ index = mramRec t typ index :=
  mramRec_congr (by rw [finish_mram]) typ index

/-! ### Record writes (R448) -/

section
variable {s : State} {w : MramWrite} {ws : List MramWrite} (hq : s.mram.queue = w :: ws)
include hq

theorem completes_writeBegins (htries : w.tries = 0) : completes .mramRecordWrite s (fun t => t.mram = { s.mram with queue :=
    { w with slotB := olderSlot (mramRec s w.typ w.index), tries := 1 } :: ws } ∧ t.regs = s.regs) := by
  have heff : mramWriteEff s = withWrites ({ w with slotB := olderSlot (mramRec s w.typ w.index), tries := 1 } :: ws) s := by
    simp [mramWriteEff, hq, htries, withWrites]
  exact completes_of_done (congrArg (done s) heff) ⟨finish_mram _ _, finish_regs _ _⟩

theorem completes_writeSame (htries : 0 < w.tries) : completes (.mramWriteDone true) s (fun t => t.mram.queue = ws ∧
    slotOf (mramRec t w.typ w.index) w.slotB = some { generation := nextGeneration (mramRec s w.typ w.index) w.slotB, payload := w.payload } ∧
    (∀ typ index : Nat, recKey typ index ≠ recKey w.typ w.index → mramRec t typ index = mramRec s typ index) ∧ t.regs = s.regs) := by
  have heff : mramDoneEff true s = withWrites ws (putSlot w.typ w.index w.slotB
      (some { generation := nextGeneration (mramRec s w.typ w.index) w.slotB, payload := w.payload }) s) := by
    simp [mramDoneEff, hq, Nat.pos_iff_ne_zero.1 htries, withWrites]
  refine completes_of_done (congrArg (done s) heff) ⟨by rw [finish_mram]; rfl, ?slot, fun typ index hne => ?others, finish_regs _ _⟩
  case slot => exact (congrArg (slotOf · w.slotB) (mramRec_finish _ _ _ _)).trans (slotOf_putSlot_same _ _ _ _ s)
  case others => exact (mramRec_finish _ _ _ _).trans (mramRec_putSlot_ne hne _ _ s)

theorem completes_writeAgain (htries : w.tries = 1) : completes (.mramWriteDone false) s (fun t =>
    t.mram.queue = { w with tries := 2 } :: ws ∧ slotOf (mramRec t w.typ w.index) w.slotB = none ∧ t.regs = s.regs) := by
  have heff : mramDoneEff false s = withWrites ({ w with tries := 2 } :: ws) (putSlot w.typ w.index w.slotB none s) := by
    simp [mramDoneEff, hq, htries, withWrites]
  refine completes_of_done (congrArg (done s) heff) ⟨by rw [finish_mram]; rfl, ?slot, finish_regs _ _⟩
  exact (congrArg (slotOf · w.slotB) (mramRec_finish _ _ _ _)).trans (slotOf_putSlot_same _ _ _ _ s)

theorem completes_writeFailed (htries : 2 ≤ w.tries) : completes (.mramWriteDone false) s (fun t => t.mram.queue = ws ∧
    slotOf (mramRec t w.typ w.index) w.slotB = none ∧
    slotOf (mramRec t w.typ w.index) (!w.slotB) = slotOf (mramRec s w.typ w.index) (!w.slotB) ∧
    flag t Fld.INT_EVT_MRAM_WRITE_FAIL = true) := by
  have heff : mramDoneEff false s = evt Fld.INT_EVT_MRAM_WRITE_FAIL noUnit [⟨2, w.typ⟩, ⟨2, w.index⟩]
      (withWrites ws (putSlot w.typ w.index w.slotB none s)) := by
    simp [mramDoneEff, hq, show w.tries ≠ 0 by omega, show ¬ w.tries < 2 by omega, withWrites]
  have hrec : mramRec (finish s (mramDoneEff false s)) w.typ w.index = mramRec (putSlot w.typ w.index w.slotB none s) w.typ w.index :=
    (mramRec_finish _ _ _ _).trans (mramRec_congr (by rw [heff, evt_mram]; rfl) _ _)
  refine completes_of_done (t := mramDoneEff false s) rfl ⟨?queue, ?slot, ?other, ?event⟩
  case queue => rw [finish_mram, heff, evt_mram]; rfl
  case slot => exact (congrArg (slotOf · w.slotB) hrec).trans (slotOf_putSlot_same _ _ _ _ s)
  case other => exact (congrArg (slotOf · (!w.slotB)) hrec).trans (slotOf_putSlot_other _ _ _ _ s)
  case event =>
    rw [flag_finish, heff]
    exact flag_evt_same (by decide) (by decide) (by decide) _ _ _

end

theorem completes_countersHourly {s : State} (hs : stage s = 7) (hh : halted s = false) : completes .countersSaveHourly s (fun t =>
    t.mram.queue = s.mram.queue ++ [{ typ := 0x20, index := 0, payload := counterBytes s }] ∧ t.mram.carry = [] ∧ t.regs = s.regs) := by
  have heff : countersHourlyEff s = saveCounters s := if_pos (by simp [hs, hh])
  exact completes_of_done (congrArg (done s) heff) ⟨by rw [finish_mram]; rfl, by rw [finish_mram]; rfl, finish_regs _ _⟩

/-! ### The disc sensors (R508) -/

/-- State s with the filtered levels of the disc sensors. -/
def sensed (active : Bool) (carts : List Bool) (s : State) : State := { s with pwr := { s.pwr with discActive := active, cartSns := carts } }

theorem levels_whole {carts old : List Bool} (h : carts.length = 4) : (carts ++ old.drop carts.length).take 4 = carts := by
  rw [← h, List.take_left]

theorem completes_discSensors_early {s : State} (active : Bool) {carts : List Bool} (hs : stage s < 6) (hlen : carts.length = 4) :
    completes (.discPresentChange active carts) s (fun t =>
      t.pwr.discActive = active ∧ t.pwr.cartSns = carts ∧ t.unt = s.unt ∧ t.regs = s.regs) := by
  have hstage : stage (sensed active carts s) < 6 := hs
  have heff : discPresentEff active carts s = sensed active carts s := by
    unfold discPresentEff
    rw [levels_whole hlen]
    exact if_pos (by rw [decide_eq_true (by exact hstage)]; rfl)
  exact completes_of_done (congrArg (done s) heff) ⟨by rw [finish_pwr]; rfl, by rw [finish_pwr]; rfl, finish_unt _ _, finish_regs _ _⟩

/-- The starts that the policy asks for wait at the sequencer; no unit has changed yet. -/
theorem ust_policyStarts (s : State) (u : Nat) : ust (policyStarts s) u = ust s u := by
  have hreqs : (policyStarts s).unt.tab = s.unt.tab := by
    unfold policyStarts
    split
    · dsimp only
      split
      · rfl
      · exact (forEach_keeps (·.unt.tab) (fun c s => policyReq (uCar c) 0x03 s) (fun _ _ => rfl) _ _).trans rfl
    · rfl
  simp only [ust, unitOf, hreqs]

theorem completes_discSensed {s : State} {carts : List Bool} (hs : 6 ≤ stage s) (hh : halted s = false) (hown : isOwner s = true)
    (hdisc : ust s uDisc = .absent) (hlen : carts.length = 4) (hseen : discSensed (sensed true carts s) = true) :
    completes (.discPresentChange true carts) s (fun t => ust t uDisc = .offline) := by
  have heff : discPresentEff true carts s = policyStarts (forEach (fun k s => change (uSide k) .offline .sensor s) [0, 1]
      (change uDisc .offline .sensor (sensed true carts s))) := by
    have hopen : (decide (stage (sensed true carts s) < 6) || halted (sensed true carts s) || !isOwner (sensed true carts s)) = false := by
      have hstage : ¬ stage (sensed true carts s) < 6 := Nat.not_lt.2 hs
      have hhalt : halted (sensed true carts s) = false := hh
      have howner : isOwner (sensed true carts s) = true := hown
      simp [hstage, hhalt, howner]
    have hstate : ust (sensed true carts s) uDisc = .absent := hdisc
    have hlevels : { s with pwr := { s.pwr with discActive := true, cartSns := (carts ++ s.pwr.cartSns.drop carts.length).take 4 } } =
        sensed true carts s := by rw [levels_whole hlen, sensed]
    unfold discPresentEff
    simp only [hlevels, hopen, hstate, hseen, Bool.false_eq_true, if_false, reduceCtorEq, Bool.not_true, Bool.false_and, decide_true,
      Bool.and_self, if_true]
  have hsides (t : State) : ust (forEach (fun k s => change (uSide k) .offline .sensor s) [0, 1] t) uDisc = ust t uDisc := by
    simp only [forEach]
    exact (ust_change_ne (by decide) (by decide) (by decide) _ _ _ _ _).trans
      (ust_change_ne (by decide) (by decide) (by decide) _ _ _ _ _)
  refine completes_of_done (congrArg (done s) heff) ?_
  rw [ust_finish, ust_policyStarts, hsides]
  exact ust_change_same (by decide) (by decide) _ _ _ _ _

/-- Settles O47. -/
theorem recordStoreAndSensors : Obligations.RecordStoreAndSensors := by
  unfold Obligations.RecordStoreAndSensors
  refine fun s => ⟨fun w ws hq => ⟨completes_writeBegins hq, completes_writeSame hq, completes_writeAgain hq, fun htries => ?failed⟩,
    completes_countersHourly, fun active carts => completes_discSensors_early active,
    fun carts u hs hh hown hdisc hlen _ hu hseen => completes_discSensed hs hh hown hdisc hlen (by subst hu; exact hseen)⟩
  exact completes_mono (completes_writeFailed hq htries) fun t ⟨hqueue, hslot, hother, hevent⟩ =>
    ⟨hqueue, hslot, by rcases h : w.slotB <;> simpa [slotOf, h] using hother, hevent⟩

end Sys2Proof.Proofs
end

section
/-! The test access port (R571, R572). -/

namespace Sys2Proof.Proofs

open Sys2Proof Sys2Proof.Machine Sys2Proof.Safety

/-! ### Instructions without an access -/

theorem onlyTap_finish {s t : State} {x : TapState} {more : List Output}
    (h : t = { s with tap := x, out := s.out ++ more, free := t.free }) : onlyTap s (finish s t) x more := by
  rw [h]
  simp [onlyTap]

theorem completes_tapLoad {i : Instr} {s t : State} {x : TapState} {more : List Output} (h : exec i s = done s t)
    (ht : t = { s with tap := x, out := s.out ++ more, free := t.free }) : completes i s (fun t => onlyTap s t x more) :=
  completes_of_done h (onlyTap_finish ht)

/-- An instruction that shifts nothing out adds nothing to the outputs. -/
theorem tapLoad_eq (ir : Nat) (s : State) : tapLoad ir s = { s with
    tap := { s.tap with ir := ir, drives := [0x00, 0x04, 0x05, 0x06].contains ir, highz := decide (ir = 0x03) }
    out := s.out ++ [], free := (tapLoad ir s).free } := by
  rw [List.append_nil]
  rfl

/-- A code that Table 20-11 does not list selects BYPASS: it neither drives the pins nor releases them. -/
theorem completes_bypass {s : State} {code : Nat} (h : code ∉ [0x00, 0x01, 0x02, 0x03, 0x04, 0x05, 0x06, 0x20]) :
    completes (.bypass code) s (fun t => onlyTap s t { s.tap with ir := code, drives := false, highz := false } []) := by
  have heff : bypassEff code s = tapLoad code s := if_neg (by simpa using h)
  have hdrives : [0x00, 0x04, 0x05, 0x06].contains code = false := by
    simp only [List.mem_cons, not_or] at h
    simp [h]
  have hhighz : decide (code = 0x03) = false := decide_eq_false fun e => h (by simp [e])
  refine completes_tapLoad (congrArg (done s) heff) ?_
  conv_lhs => rw [tapLoad_eq]
  rw [hdrives, hhighz]

/-! ### A scan of REGACC -/

/-- State s with the port x, the outputs o and n free values used up. -/
def scanned (x : TapState) (o : List Output) (n : Nat) (s : State) : State := { s with tap := x, out := o, free := n }

/-- The word that a scan shifts out, its free bit drawn. -/
def shiftedWord (s : State) : Nat := (if Config.freeBool s.free then 0x200000000000000 else 0) + regAccCapture s

theorem regAccShifted_shiftedWord (s : State) : regAccShifted s (shiftedWord s) := by
  unfold regAccShifted shiftedWord
  rcases Config.freeBool s.free
  · exact .inl (Nat.zero_add _)
  · exact .inr rfl

/-- The port while a scan is under way. -/
def regAccTap (s : State) : TapState := { s.tap with ir := 0x20, drives := false, highz := false }

/-- State s after Capture-DR, with the port as x. -/
def captured (x : TapState) (s : State) : State := scanned x (s.out ++ [.tap (shiftedWord s)]) (s.free + 1) s

/-- The byte offset that a scan addresses. -/
def scanOff (w : BitVec 58) : Nat := (w.extractLsb' 32 24).toNat * 4

/-- A scan addresses the MSI-X structures. -/
def scanMsix (w : BitVec 58) : Bool := decide (0x30000 ≤ scanOff w) && decide (scanOff w < 0x38100)

/-- Update-DR: the access that starts in state u. -/
def regAccAct (w : BitVec 58) (u : State) : State :=
  if !regAccReached u (scanOff w) || (halted u && w.getLsbD 57 && decide (0x3000 ≤ scanOff w)) then
    { u with tap := { u.tap with performed := false } }
  else if w.getLsbD 57 then
    let u := { u with tap := { u.tap with performed := true } }
    if scanMsix w then msixWrite 0 (scanOff w - 0x30000) (w.extractLsb' 0 32) u else writeReg (scanOff w) (w.extractLsb' 0 32) u
  else
    let v := regAccValue u (scanOff w)
    let u := { u with tap := { u.tap with performed := true, lastAddr := scanOff w, lastData := v } }
    if scanMsix w then u else readEffect (scanOff w) u

theorem regAccEff_eq (w : BitVec 58) (s : State) : regAccEff w s = regAccAct w (captured (regAccTap s) s) := rfl

section
variable {s u : State} {w : BitVec 58}

theorem regAccAct_unreached (h : regAccReached u (scanOff w) = false) :
    regAccAct w u = { u with tap := { u.tap with performed := false } } := if_pos (by simp [h])

theorem regAccAct_read (h : regAccReached u (scanOff w) = true) (hw : w.getLsbD 57 = false) :
    regAccAct w u = (if scanMsix w then id else readEffect (scanOff w))
      { u with tap := { u.tap with performed := true, lastAddr := scanOff w, lastData := regAccValue u (scanOff w) } } := by
  simp only [regAccAct, h, hw, Bool.not_true, Bool.and_false, Bool.false_and, Bool.or_false, Bool.false_eq_true, if_false]
  split <;> rfl

theorem regAccAct_write (h : regAccReached u (scanOff w) = true) (hw : w.getLsbD 57 = true) (hh : halted u = false)
    (hlow : scanOff w < 0x30000) :
    regAccAct w u = writeReg (scanOff w) (w.extractLsb' 0 32) { u with tap := { u.tap with performed := true } } := by
  have hmsix : scanMsix w = false := by simp [scanMsix, hlow]
  simp [regAccAct, h, hw, hh, hmsix]

end

/-- What a read does beside answering touches neither the port nor the outputs. -/
theorem readEffect_tap_out (r : Nat) (s : State) : (readEffect r s).tap = s.tap ∧ (readEffect r s).out = s.out := by
  have hstep (k : Nat) : (coefStep k s).tap = s.tap ∧ (coefStep k s).out = s.out :=
    ⟨keeps_ite State.tap rfl rfl, keeps_ite State.out rfl rfl⟩
  have hpoint : (camPtStep s).tap = s.tap ∧ (camPtStep s).out = s.out :=
    ⟨keeps_ite State.tap rfl rfl, keeps_ite State.out rfl rfl⟩
  have hcount : (setReg r 0#32 (if isCnt r then carryCount r s else s)).tap = s.tap ∧
      (setReg r 0#32 (if isCnt r then carryCount r s else s)).out = s.out :=
    ⟨keeps_ite State.tap rfl rfl, keeps_ite State.out rfl rfl⟩
  unfold readEffect
  split
  · exact ⟨rfl, rfl⟩
  split
  · exact ⟨rfl, rfl⟩
  split
  · exact hcount
  split
  · exact hpoint
  split
  · exact hstep _
  split
  · exact ⟨rfl, rfl⟩
  · exact ⟨rfl, rfl⟩

/-! ### The value that a scan reads -/

section
variable (x : TapState) (o : List Output) (n : Nat) (s : State)

/-- What the write path shows does not hang on the port, the outputs or the free values. -/
theorem liveWRP_scanned (r : Nat) : liveWRP (scanned x o n s) r = liveWRP s r := by
  have hheld : heldBytes (scanned x o n s) = heldBytes s := rfl
  have hmedia : (scanned x o n s).media = s.media := rfl
  have hcar (c : Nat) : carStatus (scanned x o n s) c = carStatus s c := rfl
  have hplace (c : Nat) : frontierPlace (scanned x o n s) c = frontierPlace s c := rfl
  simp only [liveWRP, hheld, hmedia, hcar, hplace]

/-- CHN_STATUS shows a free value, so here only the absence of a live value carries over. -/
theorem liveCHN_scanned {g d : Nat} (h : liveCHN s g d = none) : liveCHN (scanned x o n s) g d = none := by
  unfold liveCHN at h ⊢
  dsimp only at h ⊢
  split at h
  · cases h
  · rename_i hd
    rw [if_neg hd]
    exact h

/-- A register that shows nothing live shows nothing live after a scan either. -/
theorem liveOf_scanned {off : Nat} (h : liveOf s off = none) : liveOf (scanned x o n s) off = none := by
  have howner : isOwner (scanned x o n s) = isOwner s := rfl
  have hglb (r : Nat) : liveGLB (scanned x o n s) r = liveGLB s r := rfl
  have hhq (r : Nat) : liveHQ (scanned x o n s) r = liveHQ s r := rfl
  have hfn (f d : Nat) : liveFn (scanned x o n s) f d = liveFn s f d := rfl
  have hord (r : Nat) : liveORD (scanned x o n s) r = liveORD s r := rfl
  have hdec (r : Nat) : liveDEC (scanned x o n s) r = liveDEC s r := rfl
  have hskn (r : Nat) : liveSKN (scanned x o n s) r = liveSKN s r := rfl
  have hhnk (r : Nat) : liveHNK (scanned x o n s) r = liveHNK s r := rfl
  have hslot (k d : Nat) : liveSlot (scanned x o n s) k d = liveSlot s k d := rfl
  have hlpe (r : Nat) : liveLPE (scanned x o n s) r = liveLPE s r := rfl
  have hspn (r : Nat) : liveSPN (scanned x o n s) r = liveSPN s r := rfl
  have hcrg (c d : Nat) : liveCRG (scanned x o n s) c d = liveCRG s c d := rfl
  have hcam (r : Nat) : liveCAM (scanned x o n s) r = liveCAM s r := rfl
  have hbc (r : Nat) : liveBC (scanned x o n s) r = liveBC s r := rfl
  have hbm (r : Nat) : liveBM (scanned x o n s) r = liveBM s r := rfl
  have hint (r : Nat) : liveINT (scanned x o n s) r = liveINT s r := rfl
  have hcal (r : Nat) : liveCAL (scanned x o n s) r = liveCAL s r := rfl
  have hunt (r : Nat) : liveUNT (scanned x o n s) r = liveUNT s r := rfl
  have hmgt (r : Nat) : liveMGT (scanned x o n s) r = liveMGT s r := rfl
  have hprl (r : Nat) : livePRL (scanned x o n s) r = livePRL s r := rfl
  have hwrp (r : Nat) : liveWRP (scanned x o n s) r = liveWRP s r := liveWRP_scanned x o n s r
  unfold liveOf at h ⊢
  simp only [howner, hglb, hhq, hfn, hord, hdec, hskn, hhnk, hslot, hlpe, hspn, hcrg, hcam, hbc, hbm, hint, hcal, hunt, hmgt, hprl,
    hwrp]
  by_cases h1 : off < 0x4000
  · simp only [if_pos h1] at h ⊢
    exact h
  rw [if_neg h1] at h ⊢
  by_cases h2 : off < 0x21000
  · simp only [if_pos h2] at h ⊢
    exact h
  rw [if_neg h2] at h ⊢
  by_cases h3 : off < 0x22000
  · simp only [if_pos h3] at h ⊢
    exact h
  rw [if_neg h3] at h ⊢
  by_cases h4 : off < 0x41000
  · simp only [if_pos h4] at h ⊢
    exact h
  rw [if_neg h4] at h ⊢
  by_cases h5 : off < 0x54000
  · rw [if_pos h5] at h ⊢
    dsimp only at h ⊢
    have hv : liveCHN s ((off - 0x50000) / 0x200) ((off - 0x50000) % 0x200) = none := by
      split at h
      · split at h
        · cases h
        · exact h
      · exact h
    rw [liveCHN_scanned x o n s hv]
    split <;> simp
  · rwa [if_neg h5] at h ⊢

end

/-- No row of the map lies in the MSI-X structures. -/
theorem allRows_besideMsix : ∀ r ∈ allRows, r.off + spanOf r.dims ≤ 0x30000 ∨ 0x38100 ≤ r.off := by decide +kernel

theorem rowOf_besideMsix {off : Nat} {r : RegRow} (h : rowOf off = some r) : off < 0x30000 ∨ 0x38100 ≤ off := by
  have hmem := List.mem_of_find?_eq_some h
  have hholds : rowHolds off r = true := by simpa using List.find?_some h
  simp only [rowHolds, Bool.and_eq_true, decide_eq_true_eq] at hholds
  obtain ⟨hlo, hin⟩ := hholds
  have hspan := lt_spanOf (allRows_end r hmem).1 hin
  rcases allRows_besideMsix r hmem with hb | ha
  · exact .inl (by omega)
  · exact .inr (by omega)

section
variable {s u : State} {w : BitVec 58} {x : TapState} {o : List Output} {n : Nat} (hu : u = scanned x o n s)
include hu

theorem regAccValue_stored {r : RegRow} (hreach : regAccReached s (scanOff w) = true) (hrow : rowOf (scanOff w) = some r)
    (hhigh : isHigh (scanOff w) = false) (hlive : liveOf s (scanOff w) = none) :
    regAccValue u (scanOff w) = getReg s (scanOff w) &&& readMask r := by
  have hmsix : ¬ ((decide (0x30000 ≤ scanOff w) && decide (scanOff w < 0x38100)) = true) := by
    have := rowOf_besideMsix hrow
    simp only [Bool.and_eq_true, decide_eq_true_eq]
    omega
  have halign : ¬ scanOff w % 4 ≠ 0 := by
    unfold scanOff
    omega
  have hserved : sideServed u (scanOff w) = true := by
    rw [hu]
    rwa [regAccReached, if_neg hmsix] at hreach
  have hreg : getReg u (scanOff w) = getReg s (scanOff w) := by rw [hu]; rfl
  have hnone : liveOf u (scanOff w) = none := hu ▸ liveOf_scanned x o n s hlive
  rw [regAccValue, hhigh, if_neg Bool.false_ne_true, sideValue, if_neg halign, if_neg hmsix, if_pos hserved, regValue, hrow, hnone, hreg]

end

/-! ### The instructions and the scans -/

section
variable {s : State} {w : BitVec 58}

theorem completes_scan_unreached (h : regAccReached s (scanOff w) = false) : completes (.regacc w) s (fun t =>
    ∃ n, regAccShifted s n ∧ onlyTap s t { s.tap with ir := 0x20, drives := false, highz := false, performed := false } [.tap n]) := by
  have hreach : regAccReached (captured (regAccTap s) s) (scanOff w) = false := h
  have heff := (regAccEff_eq w s).trans (regAccAct_unreached hreach)
  exact completes_of_done (congrArg (done s) heff) ⟨shiftedWord s, regAccShifted_shiftedWord s, onlyTap_finish rfl⟩

/-- What a scan that reads leaves of the port and of the outputs. -/
theorem regAccEff_read (h : regAccReached s (scanOff w) = true) (hw : w.getLsbD 57 = false) :
    (regAccEff w s).tap = { regAccTap s with
      performed := true, lastAddr := scanOff w, lastData := regAccValue (captured (regAccTap s) s) (scanOff w) } ∧
      (regAccEff w s).out = s.out ++ [.tap (shiftedWord s)] := by
  have hreach : regAccReached (captured (regAccTap s) s) (scanOff w) = true := h
  rw [regAccEff_eq, regAccAct_read hreach hw]
  split
  · exact ⟨rfl, rfl⟩
  · obtain ⟨htap, hout⟩ := readEffect_tap_out (scanOff w) { captured (regAccTap s) s with tap := { regAccTap s with
      performed := true, lastAddr := scanOff w, lastData := regAccValue (captured (regAccTap s) s) (scanOff w) } }
    exact ⟨htap, hout⟩

theorem completes_scan_read (h : regAccReached s (scanOff w) = true) (hw : w.getLsbD 57 = false) : completes (.regacc w) s (fun t =>
    (∃ n, regAccShifted s n ∧ t.out = s.out ++ [.tap n]) ∧ t.tap.performed = true ∧ t.tap.lastAddr = scanOff w) := by
  obtain ⟨htap, hout⟩ := regAccEff_read h hw
  refine completes_of_done (t := regAccEff w s) rfl ⟨⟨shiftedWord s, regAccShifted_shiftedWord s, ?_⟩, ?_, ?_⟩
  · rw [finish_out, hout]
  · rw [finish_tap, htap]
  · rw [finish_tap, htap]

theorem completes_scan_data {r : RegRow} (h : regAccReached s (scanOff w) = true) (hw : w.getLsbD 57 = false)
    (hrow : rowOf (scanOff w) = some r) (hhigh : isHigh (scanOff w) = false) (hlive : liveOf s (scanOff w) = none) :
    completes (.regacc w) s (fun t => t.tap.lastData = getReg s (scanOff w) &&& readMask r) := by
  obtain ⟨htap, -⟩ := regAccEff_read h hw
  refine completes_of_done (t := regAccEff w s) rfl ?_
  rw [finish_tap, htap]
  exact regAccValue_stored rfl h hrow hhigh hlive

theorem completes_scan_write {r : RegRow} (h : regAccReached s (scanOff w) = true) (hw : w.getLsbD 57 = true) (hh : halted s = false)
    (hrow : rowOf (scanOff w) = some r)
    (hplain : ∀ (v : Word) (u : State), scanOff w < 0x30000 → writeReg (scanOff w) v u = storeReg (scanOff w) v u)
    (hlow : scanOff w < 0x30000) : completes (.regacc w) s (fun t =>
      getReg t (scanOff w) = storeWord s r (scanOff w) (w.extractLsb' 0 32) ∧ regsKeptBut [scanOff w] s t ∧ t.tap.performed = true) := by
  have hreach : regAccReached (captured (regAccTap s) s) (scanOff w) = true := h
  have hhalt : halted (captured (regAccTap s) s) = false := hh
  have hstore (u : State) : storeReg (scanOff w) (w.extractLsb' 0 32) u =
      setReg (scanOff w) (storeWord u r (scanOff w) (w.extractLsb' 0 32)) u := by simp [storeReg, hrow]
  have heff : regAccEff w s = setReg (scanOff w) (storeWord s r (scanOff w) (w.extractLsb' 0 32))
      (captured { regAccTap s with performed := true } s) := by
    rw [regAccEff_eq, regAccAct_write hreach hw hhalt hlow, hplain _ _ hlow, hstore]
    rfl
  refine completes_of_done (congrArg (done s) heff) ⟨?_, fun o ho => ?_, ?_⟩
  · rw [getReg_finish, getReg_setReg_same]
  · rw [getReg_finish, getReg_setReg_ne (fun e => ho (by simp [e]))]
    rfl
  · rw [finish_tap]
    rfl

end

/-- Settles O55. -/
theorem tapInstructionsAct : Obligations.TapInstructionsAct := by
  unfold Obligations.TapInstructionsAct
  refine fun s => ⟨fun e he => ?rows, completes_tapLoad rfl rfl, fun n cells => completes_tapLoad rfl rfl, fun code => completes_bypass,
    fun w off hoff => ?scan⟩
  case rows =>
    simp only [tapRows, List.mem_cons, List.not_mem_nil, or_false] at he
    rcases he with rfl | rfl | rfl | rfl | rfl <;> exact completes_tapLoad rfl (tapLoad_eq _ s)
  case scan =>
    obtain rfl : off = scanOff w := hoff.trans (Nat.mul_comm _ _)
    exact ⟨completes_scan_unreached, completes_scan_read, fun r h hw hrow _ hhigh hlive => completes_scan_data h hw hrow hhigh hlive,
      fun r => completes_scan_write⟩

end Sys2Proof.Proofs
end

section
/-! Buffer memory (R431 to R445): lines of memory, reads with their errors, repairs, refresh, the operating point and the
scrubber. -/

namespace Sys2Proof.Proofs

open Sys2Proof Sys2Proof.Machine Sys2Proof.Safety

/-! ### Lines of buffer memory -/

theorem get_putBytes_in : ∀ (bs : List Byte) (a i : Nat) (m : Tbl Byte), i < bs.length →
    Tbl.get 0#8 (a + i) (putBytes a bs m) = bs.getD i 0#8
  | b :: bs, a, 0, m, _ => by
    rw [putBytes, putBytes_below bs _ (by omega), Nat.add_zero]
    exact Tbl.get_put_same _ _ _ _
  | b :: bs, a, i + 1, m, h => by
    rw [putBytes, show a + (i + 1) = a + 1 + i by omega, get_putBytes_in bs (a + 1) i _ (by simpa using h), List.getD_cons_succ]

@[simp] theorem length_memLine (s : State) (line : Nat) : (memLine s line).length = 64 := by simp [memLine]

theorem memLine_congr {s t : State} (h : t.mem.bytes = s.mem.bytes) (line : Nat) : memLine t line = memLine s line := by
  rw [memLine, h, memLine]

theorem memLine_memPut_same {data : List Byte} (h : data.length = 64) (line : Nat) (s : State) :
    memLine (memPut line data s) line = data := by
  refine List.ext_getElem (by simp [h]) fun i hi hi' => ?_
  have hget := get_putBytes_in data (64 * line) i s.mem.bytes hi'
  rw [List.getD_eq_getElem _ _ hi'] at hget
  simpa [memLine, memPut, modMem] using hget

/-- A line written leaves every byte of the other lines. -/
theorem get_memPut_other {data : List Byte} {line a : Nat} (h : data.length = 64) (ha : a / 64 ≠ line) (s : State) :
    Tbl.get 0#8 a (memPut line data s).mem.bytes = Tbl.get 0#8 a s.mem.bytes := by
  change Tbl.get 0#8 a (putBytes (64 * line) data s.mem.bytes) = _
  rcases Nat.lt_or_ge a (64 * line) with hlt | hge
  · exact putBytes_below data _ hlt
  · exact putBytes_beyond data _ _ (by omega)

/-! ### Counts -/

theorem countedBy_of_getReg {s t : State} {off n : Nat} (h : getReg t off = getReg (bumpBy off n s) off) : countedBy s t off n := by
  rw [countedBy, h, bumpBy, getReg_setReg_same, BitVec.toNat_ofNat]
  omega

theorem getReg_bumpBy_same (off n : Nat) (s : State) :
    getReg (bumpBy off n s) off = BitVec.ofNat 32 (min 0xFFFFFFFF ((getReg s off).toNat + n)) := getReg_setReg_same off _ s

/-- A count taken in a later state that shows the register as s does. -/
theorem countedBy_bumpBy {s u t : State} {off n : Nat} (h : getReg t off = getReg (bumpBy off n u) off)
    (hu : getReg u off = getReg s off) : countedBy s t off n :=
  countedBy_of_getReg (by rw [h, getReg_bumpBy_same, getReg_bumpBy_same, hu])

/-! ### Reads (R441) -/

/-- The read of a present line of a channel in service is counted. -/
def readCounted (s : State) : State := bump Reg.BM_CNT 0 s

section
variable {s : State} {port addr lanes replays : Nat} {use : LineUse} {bad : Bool}
  (hch : ust s (uBuf (channelOf s (addr / 64))) ≠ .faulted) (hline : addr / 64 < memLines s)
include hch hline

/-- Without a forced error the outcome of the read is what its replays were. -/
theorem memReadEff_unforced (hforce : flag s Fld.INT_CTRL_FORCE_PARITY = false) :
    memReadEff port addr lanes replays false use bad s =
      if min 2 replays = 0 then readCounted s
      else bump Reg.INT_CNT 2 (bumpBy (Reg.INT_CNT + 4) (min 2 replays) (bump Reg.INT_CNT 0 (readCounted s))) := by
  have hflag : flag (bump Reg.BM_CNT 0 s) Fld.INT_CTRL_FORCE_PARITY = false :=
    (flag_of_getF (getF_bump_ne (f := Fld.INT_CTRL_FORCE_PARITY) (by decide) s)).trans hforce
  have hopen : ¬ (decide (ust s (uBuf (channelOf s (addr / 64))) = .faulted) || decide (memLines s ≤ addr / 64)) = true := by
    simp [hch, hline]
  unfold memReadEff
  dsimp only
  rw [if_neg hopen]
  simp only [readCounted, hflag, Bool.false_and, Bool.false_eq_true, if_false, Bool.or_self, Bool.not_false, if_true]

theorem completes_read_correct (hforce : flag s Fld.INT_CTRL_FORCE_PARITY = false) :
    completes (.memoryReadReturn port addr lanes 0 false use bad) s (fun t => countedBy s t Reg.BM_CNT 1 ∧ regsKeptBut [Reg.BM_CNT] s t ∧
      memoryKept s t ∧ t.out = s.out) := by
  have heff := memReadEff_unforced (replays := 0) (port := port) (lanes := lanes) (use := use) (bad := bad) hch hline hforce
  rw [if_pos (by decide)] at heff
  refine completes_of_done (congrArg (done s) heff) ⟨countedBy_of_getReg (getReg_finish _ _ _), fun off hoff => ?_, ?_, finish_out _ _⟩
  · rw [getReg_finish]
    exact getReg_bump_ne 0 (fun e => hoff (by simp [← e])) s
  · simp [memoryKept, readCounted]

theorem completes_read_replayed (hforce : flag s Fld.INT_CTRL_FORCE_PARITY = false) (hreplays : 0 < replays) :
    completes (.memoryReadReturn port addr lanes replays false use bad) s (fun t => countedBy s t Reg.BM_CNT 1 ∧
      countedBy s t Reg.INT_CNT 1 ∧ countedBy s t (Reg.INT_CNT + 4) (min 2 replays) ∧ countedBy s t (Reg.INT_CNT + 8) 1 ∧
      memoryKept s t ∧ t.out = s.out) := by
  have heff := memReadEff_unforced (replays := replays) (port := port) (lanes := lanes) (use := use) (bad := bad) hch hline hforce
  rw [if_neg (by omega)] at heff
  refine completes_of_done (congrArg (done s) heff) ⟨?_, ?_, ?_, ?_, ?_, finish_out _ _⟩
  · refine countedBy_bumpBy (u := s) ?_ rfl
    rw [getReg_finish, getReg_bump_ne 2 (by decide), getReg_bumpBy_ne (by decide), getReg_bump_ne 0 (by decide)]
    rfl
  · refine countedBy_bumpBy (u := readCounted s) ?_ (getReg_bump_ne 0 (by decide) s)
    rw [getReg_finish, getReg_bump_ne 2 (by decide), getReg_bumpBy_ne (by decide)]
    rfl
  · refine countedBy_bumpBy (u := bump Reg.INT_CNT 0 (readCounted s)) ?_
      ((getReg_bump_ne 0 (by decide) _).trans (getReg_bump_ne 0 (by decide) s))
    rw [getReg_finish, getReg_bump_ne 2 (by decide)]
  · refine countedBy_bumpBy (u := bumpBy (Reg.INT_CNT + 4) (min 2 replays) (bump Reg.INT_CNT 0 (readCounted s))) (getReg_finish _ _ _)
      ((getReg_bumpBy_ne (by decide) _ _).trans ((getReg_bump_ne 0 (by decide) _).trans (getReg_bump_ne 0 (by decide) s)))
  · simp [memoryKept, readCounted]

end

/-! ### A persistent error of decoded data (R441, Table 14-5) -/

theorem channelOf_lt (s : State) (line : Nat) : channelOf s line < 2 := Nat.mod_lt _ (by decide)

/-- The first error of a channel within 60 s only counts. -/
theorem channelError_first {s : State} (h : s.mem.errTimes = []) (ch : Nat) : channelError ch s =
    setF ⟨Reg.BM_CH_STATUS + 4 * ch, 15, 0⟩ 1 (modMem (fun m => { m with errTimes := [(ch, s.pwr.time)] }) s) := by
  simp [channelError, h, modMem]

/-- INT_TEST forces an error on the line of this read. -/
def parityForced (s : State) (addr : Nat) : Bool := flag (readCounted s) Fld.INT_CTRL_FORCE_PARITY &&
  get64 (readCounted s) Reg.INT_TEST_ADDR_LO % 0x1000000000 / 64 == addr / 64

/-- Decoded data is dropped and fetched again. -/
def payloadDropped (addr k m : Nat) (s : State) : State :=
  parityRefetch addr 6 { s with pool := { s.pool with cached := Tbl.put none (16 * k + m) none s.pool.cached } }

/-- The counts of a read that failed its second replay. -/
def replaysFailed (s : State) : State := bumpBy (Reg.INT_CNT + 4) 2 (bump Reg.INT_CNT 0 s)

/-- A forced error is forced once. -/
def forceSpent (b : Bool) (s : State) : State := if b then setF Fld.INT_CTRL_FORCE_PARITY 0 s else s

theorem getReg_forceSpent {off : Nat} (h : Reg.INT_CTRL ≠ off) (b : Bool) (s : State) : getReg (forceSpent b s) off = getReg s off := by
  cases b
  · rfl
  · exact getReg_setF_ne (f := Fld.INT_CTRL_FORCE_PARITY) h _ s

theorem forceSpent_mem (b : Bool) (s : State) : (forceSpent b s).mem = s.mem ∧ (forceSpent b s).bc = s.bc := by
  cases b <;> exact ⟨rfl, rfl⟩

theorem channelOf_congr {s t : State} (h : getReg t Reg.BM_ORG = getReg s Reg.BM_ORG) (line : Nat) : channelOf t line = channelOf s line := by
  rw [channelOf, channelBit, getF_of_getReg (f := Fld.BM_ORG_MAP_ORDER) h, channelOf, channelBit]

section
variable {s : State} {addr lanes k m : Nat} {bad : Bool} (hch : ust s (uBuf (channelOf s (addr / 64))) ≠ .faulted)
  (hline : addr / 64 < memLines s)
include hch hline

theorem memReadEff_payload : memReadEff 0 addr lanes 2 true (.payload k m) bad s =
    channelError (channelOf s (addr / 64)) (recordError 0 addr (if parityForced s addr && decide (lanes = 0) then 1 else lanes) 6 1
      (payloadDropped addr k m (replaysFailed (forceSpent (parityForced s addr) (readCounted s))))) := by
  have hopen : ¬ (decide (ust s (uBuf (channelOf s (addr / 64))) = .faulted) || decide (memLines s ≤ addr / 64)) = true := by
    simp [hch, hline]
  unfold memReadEff
  dsimp only
  rw [if_neg hopen]
  simp only [ite_self, Nat.min_self, if_false, Bool.or_true, Bool.not_true, Bool.false_eq_true, OfNat.ofNat_ne_zero]
  rfl

end

/-- The first error of a channel within 60 s leaves all but the channel's count. -/
theorem channelError_keeps {s : State} (h : s.mem.errTimes = []) {ch : Nat} (hch : ch < 2) :
    (∀ off, off < Reg.BM_CH_STATUS ∨ Reg.BM_CH_STATUS + 8 ≤ off → getReg (channelError ch s) off = getReg s off) ∧
      (channelError ch s).pool = s.pool ∧ (channelError ch s).bc = s.bc ∧ (channelError ch s).mem.bytes = s.mem.bytes := by
  rw [channelError_first h]
  refine ⟨fun off hoff => ?_, rfl, rfl, rfl⟩
  have hne : Reg.BM_CH_STATUS + 4 * ch ≠ off := by omega
  exact getReg_setF_ne (f := ⟨Reg.BM_CH_STATUS + 4 * ch, 15, 0⟩) hne _ _

section
variable (port addr lanes cls outcome : Nat) (s : State)

theorem getReg_recordError_ne {off : Nat} (h : off ∉ [Reg.INT_ERR_ADDR_LO, Reg.INT_ERR_ADDR_HI, Reg.INT_ERR_INFO]) :
    getReg (recordError port addr lanes cls outcome s) off = getReg s off := by
  simp only [List.mem_cons, List.not_mem_nil, or_false, not_or] at h
  obtain ⟨hlo, hhi, hinfo⟩ := h
  rw [recordError, getReg_setReg_ne (Ne.symm hinfo), getReg_setReg_ne (Ne.symm hhi), getReg_setReg_ne (Ne.symm hlo)]

theorem recordError_keeps : (recordError port addr lanes cls outcome s).pool = s.pool ∧
    (recordError port addr lanes cls outcome s).bc = s.bc ∧ (recordError port addr lanes cls outcome s).mem = s.mem := by
  simp [recordError]

end

/-- What a persistent error of decoded data read by port 0 leaves in INT_ERR_INFO. -/
theorem errInfo_payload {addr l : Nat} (hl : l < 0x100) (s : State) :
    getF (recordError 0 addr l 6 1 s) Fld.INT_ERR_INFO_CLASS = 6 ∧ getF (recordError 0 addr l 6 1 s) Fld.INT_ERR_INFO_OUTCOME = 1 := by
  obtain ⟨c, hc⟩ : ∃ c, c = channelOf (setReg Reg.INT_ERR_ADDR_HI (BitVec.ofNat 32 (bits addr 32 4))
      (setReg Reg.INT_ERR_ADDR_LO (BitVec.ofNat 32 addr) s)) (addr / 64) := ⟨_, rfl⟩
  have hc2 : c < 2 := hc ▸ channelOf_lt _ _
  have hword : getReg (recordError 0 addr l 6 1 s) Reg.INT_ERR_INFO = BitVec.ofNat 32 (0x61000000 + c * 0x8000000 + l) := by
    rw [recordError, getReg_setReg_same, ← hc, if_neg (by decide)]
    congr 1
    omega
  have hcls : Fld.INT_ERR_INFO_CLASS = ⟨Reg.INT_ERR_INFO, 31, 28⟩ := rfl
  have hout : Fld.INT_ERR_INFO_OUTCOME = ⟨Reg.INT_ERR_INFO, 26, 24⟩ := rfl
  simp only [getF, hcls, hout, hword, wordBits, bits, BitVec.toNat_ofNat, Nat.shiftRight_eq_div_pow]
  omega

theorem payloadDropped_keeps (addr k m : Nat) (s : State) :
    (payloadDropped addr k m s).pool.cached = Tbl.put none (16 * k + m) none s.pool.cached ∧
      (payloadDropped addr k m s).mem = s.mem ∧ (payloadDropped addr k m s).bc = s.bc ∧
      flag (payloadDropped addr k m s) Fld.INT_EVT_PARITY_REFETCH = true ∧
      getReg (payloadDropped addr k m s) (Reg.INT_CNT + 16) = getReg (bumpBy (Reg.INT_CNT + 16) 1 s) (Reg.INT_CNT + 16) := by
  rw [payloadDropped, parityRefetch, evt_pool, evt_mem, evt_bc, flag_evt_same (by decide) (by decide) (by decide),
    getReg_evt (by decide) (by decide)]
  exact ⟨rfl, rfl, rfl, rfl, rfl⟩

/-- The counts of the replays touch neither memory nor the count of refetches. -/
theorem failedRead_keeps (b : Bool) (s : State) : (replaysFailed (forceSpent b (readCounted s))).mem = s.mem ∧
    (replaysFailed (forceSpent b (readCounted s))).bc = s.bc ∧
    getReg (replaysFailed (forceSpent b (readCounted s))) (Reg.INT_CNT + 16) = getReg s (Reg.INT_CNT + 16) := by
  obtain ⟨hmem, hbc⟩ := forceSpent_mem b (readCounted s)
  refine ⟨hmem, hbc, ?_⟩
  rw [replaysFailed, getReg_bumpBy_ne (by decide), getReg_bump_ne 0 (by decide), getReg_forceSpent (by decide)]
  exact getReg_bump_ne 0 (by decide) s

theorem completes_read_payload {s : State} {addr lanes k m : Nat} {bad : Bool} (hch : ust s (uBuf (channelOf s (addr / 64))) ≠ .faulted)
    (hline : addr / 64 < memLines s) (hfirst : s.mem.errTimes = []) (hlanes : lanes < 0x100) :
    completes (.memoryReadReturn 0 addr lanes 2 true (.payload k m) bad) s (fun t =>
      Tbl.get none (16 * k + m) t.pool.cached = none ∧ countedBy s t (Reg.INT_CNT + 16) 1 ∧ flag t Fld.INT_EVT_PARITY_REFETCH = true ∧
      getF t Fld.INT_ERR_INFO_CLASS = 6 ∧ getF t Fld.INT_ERR_INFO_OUTCOME = 1 ∧ memoryKept s t) := by
  obtain ⟨v, hv⟩ : ∃ v, v = replaysFailed (forceSpent (parityForced s addr) (readCounted s)) := ⟨_, rfl⟩
  obtain ⟨l, hl, hl8⟩ : ∃ l, l = (if parityForced s addr && decide (lanes = 0) then 1 else lanes) ∧ l < 0x100 :=
    ⟨_, rfl, by split <;> omega⟩
  obtain ⟨vmem, vbc, vcount⟩ : v.mem = s.mem ∧ v.bc = s.bc ∧ getReg v (Reg.INT_CNT + 16) = getReg s (Reg.INT_CNT + 16) :=
    hv ▸ failedRead_keeps _ s
  obtain ⟨dpool, dmem, dbc, devent, dcount⟩ := payloadDropped_keeps addr k m v
  obtain ⟨r, hr⟩ : ∃ r, r = recordError 0 addr l 6 1 (payloadDropped addr k m v) := ⟨_, rfl⟩
  obtain ⟨rpool, rbc, rmem⟩ := recordError_keeps 0 addr l 6 1 (payloadDropped addr k m v)
  obtain ⟨rcls, rout⟩ := errInfo_payload hl8 (addr := addr) (payloadDropped addr k m v)
  have rcount := getReg_recordError_ne 0 addr l 6 1 (payloadDropped addr k m v) (off := Reg.INT_CNT + 16) (by decide)
  have revent := getReg_recordError_ne 0 addr l 6 1 (payloadDropped addr k m v) (off := Reg.INT_EVT) (by decide)
  rw [← hr] at rpool rbc rmem rcls rout rcount revent
  have hnone : r.mem.errTimes = [] := by rw [rmem, dmem, vmem, hfirst]
  have heff : memReadEff 0 addr lanes 2 true (.payload k m) bad s = channelError (channelOf s (addr / 64)) r := by
    rw [memReadEff_payload hch hline, ← hl, ← hv, ← hr]
  obtain ⟨creg, cpool, cbc, cbytes⟩ := channelError_keeps hnone (channelOf_lt s (addr / 64))
  refine completes_of_done (congrArg (done s) heff) ⟨?cached, ?count, ?event, ?kind, ?result, ?kept⟩
  case cached => rw [finish_pool, cpool, rpool, dpool, Tbl.get_put_same]
  case count => exact countedBy_bumpBy (u := v) (by rw [getReg_finish, creg _ (by decide), rcount, dcount]) vcount
  case event =>
    rw [flag_finish, flag_of_getF (getF_of_getReg (f := Fld.INT_EVT_PARITY_REFETCH) ((creg _ (by decide)).trans revent)), devent]
  case kind => rw [getF_finish, getF_of_getReg (f := Fld.INT_ERR_INFO_CLASS) (creg _ (by decide)), rcls]
  case result => rw [getF_finish, getF_of_getReg (f := Fld.INT_ERR_INFO_OUTCOME) (creg _ (by decide)), rout]
  case kept =>
    rw [memoryKept, finish_mem, finish_bc, cbytes, cbc, rmem, rbc, dmem, dbc, vmem, vbc]
    exact ⟨fun _ => rfl, fun _ => rfl⟩

/-! ### Repairs (R442) -/

section
variable {s : State} {addr : Nat} {rest : List Nat} (hq : s.mem.repairs = addr :: rest)
include hq

/-- The bad line is rewritten from its twin. -/
theorem completes_repaired : completes (.parityRepair false false) s (fun t => t.mem.repairs = rest ∧
    memLine t (addr / 64) = memLine s (twinOf s (addr / 64)) ∧
    (∀ a, a / 64 ≠ addr / 64 → Tbl.get 0#8 a t.mem.bytes = Tbl.get 0#8 a s.mem.bytes) ∧ flag t Fld.INT_EVT_PARITY_REPAIRED = true) := by
  obtain ⟨u, hu⟩ : ∃ u, u = modMem (fun m => { m with repairs := rest }) s := ⟨_, rfl⟩
  obtain ⟨hbytes, hlines, htwin⟩ : u.mem.bytes = s.mem.bytes ∧
      (memPut (addr / 64) (memLine u (twinOf u (addr / 64))) u).mem.repairs = rest ∧
      twinOf u (addr / 64) = twinOf s (addr / 64) := by subst hu; exact ⟨rfl, rfl, rfl⟩
  have hlen := length_memLine u (twinOf u (addr / 64))
  obtain ⟨is, heff⟩ : ∃ is, parityRepairEff false false s = evt Fld.INT_EVT_PARITY_REPAIRED noUnit is
      (bump Reg.INT_CNT 3 (memPut (addr / 64) (memLine u (twinOf u (addr / 64))) u)) := by
    simp only [parityRepairEff, hq, Bool.false_eq_true, if_false, ← hu]
    exact ⟨_, rfl⟩
  have hmem : (finish s (parityRepairEff false false s)).mem = (memPut (addr / 64) (memLine u (twinOf u (addr / 64))) u).mem := by
    rw [finish_mem, heff, evt_mem, bump_mem]
  refine completes_of_done (t := parityRepairEff false false s) rfl ⟨?queue, ?line, fun a ha => ?others, ?event⟩
  case queue => rw [hmem, hlines]
  case line => rw [memLine_congr (congrArg MemState.bytes hmem), memLine_memPut_same hlen, memLine_congr hbytes, htwin]
  case others => rw [hmem, get_memPut_other hlen ha, hbytes]
  case event =>
    rw [flag_finish, heff]
    exact flag_evt_same (by decide) (by decide) (by decide) _ _ _

theorem completes_reread_correct : completes (.parityRepair true false) s (fun t =>
    t.mem = { s.mem with repairs := rest } ∧ regsKeptBut [] s t) := by
  have heff : parityRepairEff true false s = modMem (fun m => { m with repairs := rest }) s := by simp [parityRepairEff, hq]
  exact completes_of_done (congrArg (done s) heff) ⟨finish_mem _ _, regsKeptBut_of_regs _ (finish_regs _ _)⟩

/-- Newer data has replaced the pair: the repair is dropped, and the error record says so where it still names this line. -/
theorem completes_repair_dropped (b : Bool) : completes (.parityRepair b true) s (fun t =>
    t.mem = { s.mem with repairs := rest } ∧ regsKeptBut [Reg.INT_ERR_INFO] s t ∧
    (get64 s Reg.INT_ERR_ADDR_LO = addr → getF t Fld.INT_ERR_INFO_OUTCOME = 4)) := by
  obtain ⟨u, hu⟩ : ∃ u, u = modMem (fun m => { m with repairs := rest }) s := ⟨_, rfl⟩
  have hmem : u.mem = { s.mem with repairs := rest } := by rw [hu, modMem]
  have hregs : u.regs = s.regs := by rw [hu, modMem]
  have haddr : get64 u Reg.INT_ERR_ADDR_LO = get64 s Reg.INT_ERR_ADDR_LO := by rw [hu]; rfl
  have heff : parityRepairEff b true s =
      if get64 u Reg.INT_ERR_ADDR_LO = addr then setF Fld.INT_ERR_INFO_OUTCOME 4 u else u := by
    simp only [parityRepairEff, hq, if_true, ← hu]
  by_cases h : get64 s Reg.INT_ERR_ADDR_LO = addr
  · rw [if_pos (haddr.trans h)] at heff
    refine completes_of_done (congrArg (done s) heff) ⟨(finish_mem _ _).trans hmem, fun off hoff => ?_, fun _ => ?_⟩
    · rw [getReg_finish, getReg_setF_ne (f := Fld.INT_ERR_INFO_OUTCOME) (fun e => hoff (by simp [← e, Fld.INT_ERR_INFO_OUTCOME])),
        getReg_congr hregs]
    · rw [getF_finish, getF_setF_same _ _ _ (by decide) (by decide)]
      rfl
  · rw [if_neg (haddr ▸ h)] at heff
    exact completes_of_done (congrArg (done s) heff) ⟨(finish_mem _ _).trans hmem,
      regsKeptBut_of_regs _ ((finish_regs _ _).trans hregs), fun he => absurd he h⟩

end

/-! ### Refresh (R435) -/

section
variable {s : State} (hs : 5 ≤ stage s) (hst : getF s Fld.BM_STATUS_STATE ≠ 2)
include hs hst

theorem refreshDueEff_open (urgent idle : Bool) : refreshDueEff urgent idle s =
    if urgent then
      if getF s refOwed + 1 < 4 then setF refOwed (getF s refOwed + 1) (bump Reg.BM_CNT 5 s)
      else evt Fld.BM_EVT_REFRESH_FORCED noUnit [] (bump Reg.BM_CNT 6 (bump Reg.BM_CNT 4 (setF refOwed 3 (bump Reg.BM_CNT 5 s))))
    else if idle then bumpBy (Reg.BM_CNT + 16) (getF s refOwed + 1) (setF refOwed 0 s)
    else bump Reg.BM_CNT 4 s := if_neg (by simp [hst]; omega)

theorem completes_refresh_postponed (idle : Bool) (howed : getF s refOwed < 3) : completes (.refreshDue true idle) s (fun t =>
    getF t refOwed = getF s refOwed + 1 ∧ countedBy s t (Reg.BM_CNT + 20) 1) := by
  have heff := refreshDueEff_open hs hst true idle
  rw [if_pos rfl, if_pos (by omega)] at heff
  refine completes_of_done (congrArg (done s) heff) ⟨?_, countedBy_bumpBy (u := s) ?_ rfl⟩
  · rw [getF_finish, getF_setF_same refOwed _ _ (by decide) (by decide)]
    exact Nat.mod_eq_of_lt (by change _ < 8; omega)
  · rw [getReg_finish, getReg_setF_ne (f := refOwed) (by decide)]
    rfl

theorem completes_refresh_forced (idle : Bool) (howed : 3 ≤ getF s refOwed) : completes (.refreshDue true idle) s (fun t =>
    getF t refOwed = 3 ∧ countedBy s t (Reg.BM_CNT + 24) 1 ∧ flag t Fld.BM_EVT_REFRESH_FORCED = true) := by
  have heff := refreshDueEff_open hs hst true idle
  rw [if_pos rfl, if_neg (by omega)] at heff
  refine completes_of_done (congrArg (done s) heff) ⟨?_, ?_, ?_⟩
  · rw [getF_finish, getF_of_getReg (f := refOwed) (getReg_evt (by decide) (by decide) _ _ _), getF_bump_ne (by decide),
      getF_bump_ne (by decide), getF_setF_same refOwed _ _ (by decide) (by decide)]
    rfl
  · refine countedBy_bumpBy (u := bump Reg.BM_CNT 4 (setF refOwed 3 (bump Reg.BM_CNT 5 s))) ?_ ?_
    · rw [getReg_finish, getReg_evt (by decide) (by decide)]
      rfl
    · rw [getReg_bump_ne 4 (by decide), getReg_setF_ne (f := refOwed) (by decide), getReg_bump_ne 5 (by decide)]
  · rw [flag_finish]
    exact flag_evt_same (by decide) (by decide) (by decide) _ _ _

theorem completes_refresh_repaid : completes (.refreshDue false true) s (fun t =>
    getF t refOwed = 0 ∧ countedBy s t (Reg.BM_CNT + 16) (getF s refOwed + 1)) := by
  have heff := refreshDueEff_open hs hst false true
  rw [if_neg Bool.false_ne_true, if_pos rfl] at heff
  refine completes_of_done (congrArg (done s) heff) ⟨?_, countedBy_bumpBy (u := setF refOwed 0 s) (getReg_finish _ _ _)
    (getReg_setF_ne (f := refOwed) (by decide) _ _)⟩
  rw [getF_finish, bumpBy, getF_setReg_ne (by decide), getF_setF_same refOwed _ _ (by decide) (by decide)]
  rfl

theorem completes_refresh_now : completes (.refreshDue false false) s (fun t =>
    countedBy s t (Reg.BM_CNT + 16) 1 ∧ regsKeptBut [Reg.BM_CNT + 16] s t) := by
  have heff := refreshDueEff_open hs hst false false
  rw [if_neg Bool.false_ne_true, if_neg Bool.false_ne_true] at heff
  refine completes_of_done (congrArg (done s) heff) ⟨countedBy_bumpBy (u := s) (getReg_finish _ _ _) rfl, fun off hoff => ?_⟩
  rw [getReg_finish, getReg_bump_ne 4 (fun e => hoff (by simp [← e]))]

end

/-- Any device above 85 °C halves the interval, and the first one raises the event. -/
theorem completes_dramTemp {s : State} (hot : Bool) (hs : 5 ≤ stage s) : completes (.dramTempPoll hot) s (fun t =>
    getF t refInterval = (if hot then 1950 else 3900) ∧ flag t Fld.BM_STATUS_DRAM_HOT = hot ∧
    (hot = true → flag s Fld.BM_STATUS_DRAM_HOT = false → flag t Fld.BM_EVT_DRAM_HOT = true)) := by
  obtain ⟨u, hu⟩ : ∃ u, u = setF refInterval (if hot then 1950 else 3900) (setFlag Fld.BM_STATUS_DRAM_HOT hot s) := ⟨_, rfl⟩
  have hint : getF u refInterval = if hot then 1950 else 3900 := by
    rw [hu, getF_setF_same refInterval _ _ (by decide) (by decide)]
    cases hot <;> rfl
  have hflag : flag u Fld.BM_STATUS_DRAM_HOT = hot := by
    rw [hu, flag_setF_ne (by decide) (by decide)]
    exact flag_setFlag_same _ _ _ (by decide) (by decide)
  have heff : dramTempEff hot s =
      if hot && !flag s Fld.BM_STATUS_DRAM_HOT then evt Fld.BM_EVT_DRAM_HOT noUnit [] u else u := by
    rw [dramTempEff, if_neg (by omega), hu]
  have hkept (f : Fld) (h : f.off ∉ logRegs) (hne : Fld.BM_EVT_DRAM_HOT.off ≠ f.off) : getF (dramTempEff hot s) f = getF u f := by
    rw [heff]
    split
    · exact getF_of_getReg (getReg_evt h hne _ _ _)
    · rfl
  refine completes_of_done (t := dramTempEff hot s) rfl ⟨?_, ?_, fun h hwas => ?_⟩
  · rw [getF_finish, hkept refInterval (by decide) (by decide), hint]
  · rw [flag_finish, flag_of_getF (hkept Fld.BM_STATUS_DRAM_HOT (by decide) (by decide)), hflag]
  · rw [flag_finish, heff, if_pos (by simp [h, hwas])]
    exact flag_evt_same (by decide) (by decide) (by decide) _ _ _

/-! ### The operating point (R436 to R438) -/

theorem completes_pointBegin {s : State} (hs : 6 ≤ stage s) (hst : getF s Fld.BM_STATUS_STATE = 1)
    (hpt : pointTarget s ≠ getF s Fld.BM_STATUS_POINT) : completes .pointChangeBegin s (fun t =>
      getF t Fld.BM_STATUS_STATE = 2 ∧ regsKeptBut [Reg.BM_STATUS] s t) := by
  have heff : pointBeginEff s = setF Fld.BM_STATUS_STATE 2 s := if_pos (by simp [hs, hst, hpt])
  refine completes_of_done (congrArg (done s) heff) ⟨?_, fun off hoff => ?_⟩
  · rw [getF_finish, getF_setF_same _ _ _ (by decide) (by decide)]
    rfl
  · rw [getReg_finish, getReg_setF_ne (f := Fld.BM_STATUS_STATE) (fun e => hoff (by simp [← e, Fld.BM_STATUS_STATE]))]

/-- The registers once the point and the set are exchanged. -/
def pointExchanged (s : State) : State :=
  let s := setF Fld.BM_STATUS_POINT (1 - getF s Fld.BM_STATUS_POINT) s
  let s := setF Fld.BM_STATUS_SET (1 - getF s Fld.BM_STATUS_SET) s
  setF Fld.BM_STATUS_STATE 1 (setF refOwed 0 s)

theorem getF_pointExchanged (s : State) : getF (pointExchanged s) Fld.BM_STATUS_STATE = 1 ∧
    getF (pointExchanged s) Fld.BM_STATUS_POINT = 1 - getF s Fld.BM_STATUS_POINT ∧
    getF (pointExchanged s) Fld.BM_STATUS_SET = 1 - getF s Fld.BM_STATUS_SET ∧ getF (pointExchanged s) refOwed = 0 := by
  have hbit (n : Nat) : (1 - n) % 2 = 1 - n := Nat.mod_eq_of_lt (by omega)
  unfold pointExchanged
  refine ⟨getF_setF_same _ _ _ (by decide) (by decide), ?_, ?_, ?_⟩
  · rw [getF_setF_ne _ _ _ _ (by decide) (by decide), getF_setF_ne _ _ _ _ (by decide) (by decide),
      getF_setF_ne _ _ _ _ (by decide) (by decide), getF_setF_same _ _ _ (by decide) (by decide)]
    exact hbit _
  · rw [getF_setF_ne _ _ _ _ (by decide) (by decide), getF_setF_ne _ _ _ _ (by decide) (by decide),
      getF_setF_same _ _ _ (by decide) (by decide), getF_setF_ne _ _ _ _ (by decide) (by decide)]
    exact hbit _
  · rw [getF_setF_ne _ _ _ _ (by decide) (by decide), getF_setF_same _ _ _ (by decide) (by decide)]
    rfl

theorem completes_pointDrained {s : State} (hst : getF s Fld.BM_STATUS_STATE = 2) : completes .pointChangeDrained s (fun t =>
    getF t Fld.BM_STATUS_STATE = 1 ∧ getF t Fld.BM_STATUS_POINT = 1 - getF s Fld.BM_STATUS_POINT ∧
    getF t Fld.BM_STATUS_SET = 1 - getF s Fld.BM_STATUS_SET ∧ getF t refOwed = 0 ∧ flag t Fld.BM_EVT_POINT_DONE = true) := by
  have heff : pointDrainedEff s = evt Fld.BM_EVT_POINT_DONE noUnit [] (bump Reg.BM_CNT 2 (bump Reg.BM_CNT 3 (pointExchanged s))) :=
    if_neg (fun h => h hst)
  have hkept (f : Fld) (h : f.off ∉ logRegs) (hne : Fld.BM_EVT_POINT_DONE.off ≠ f.off) (h2 : Reg.BM_CNT + 4 * 2 ≠ f.off)
      (h3 : Reg.BM_CNT + 4 * 3 ≠ f.off) : getF (pointDrainedEff s) f = getF (pointExchanged s) f := by
    rw [heff, getF_of_getReg (getReg_evt h hne _ _ _), getF_bump_ne h2, getF_bump_ne h3]
  obtain ⟨hstate, hpoint, hset, howed⟩ := getF_pointExchanged s
  refine completes_of_done (t := pointDrainedEff s) rfl ⟨?_, ?_, ?_, ?_, ?_⟩
  · rw [getF_finish, hkept _ (by decide) (by decide) (by decide) (by decide), hstate]
  · rw [getF_finish, hkept _ (by decide) (by decide) (by decide) (by decide), hpoint]
  · rw [getF_finish, hkept _ (by decide) (by decide) (by decide) (by decide), hset]
  · rw [getF_finish, hkept _ (by decide) (by decide) (by decide) (by decide), howed]
  · rw [flag_finish, heff]
    exact flag_evt_same (by decide) (by decide) (by decide) _ _ _

/-! ### The scrubber (R444, R445) -/

theorem memLines_lt (s : State) : memLines s < 0x100000000 := by
  have h : memGiB s < 256 := Nat.mod_lt _ (by decide)
  unfold memLines
  omega

/-- A scrubber read that counts, before it moves on. -/
def scrubCounted (s : State) : State := bump Reg.INT_CNT 6 (setReg Reg.INT_SCRUB_INTERVAL (BitVec.ofNat 32 (scrubInterval s)) s)

section
variable {s : State} (hr : scrubRuns s = true) (hch : ust s (uBuf (channelOf s (getReg s Reg.INT_SCRUB_POS).toNat)) ≠ .faulted)
  (hburst : s.mem.burstLeft = 0)
include hr hch hburst

theorem scrubReadEff_walk : scrubReadEff s =
    if (getReg s Reg.INT_SCRUB_POS).toNat + 1 < memLines s then
      setReg Reg.INT_SCRUB_POS (BitVec.ofNat 32 ((getReg s Reg.INT_SCRUB_POS).toNat + 1)) (scrubCounted s)
    else evt Fld.INT_EVT_SCRUB_PASS noUnit [] (bumpBy Reg.INT_SCRUB_PASSES 1 (setReg Reg.INT_SCRUB_POS 0#32 (scrubCounted s))) := by
  have hserve : ust (setReg Reg.INT_SCRUB_INTERVAL (BitVec.ofNat 32 (scrubInterval s)) s) (uBuf (channelOf
      (setReg Reg.INT_SCRUB_INTERVAL (BitVec.ofNat 32 (scrubInterval s)) s) (getReg s Reg.INT_SCRUB_POS).toNat)) ≠ .faulted := by
    have hust (v : Word) (u : Nat) : ust (setReg Reg.INT_SCRUB_INTERVAL v s) u = ust s u := by simp [ust, unitOf]
    rw [channelOf_congr (getReg_setReg_ne (by decide) _ s), hust]
    exact hch
  have hb : (scrubCounted s).mem.burstLeft = 0 := by rw [scrubCounted, bump_mem, setReg_mem, hburst]
  have hlines : memLines (scrubCounted s) = memLines s := by
    rw [memLines, memGiB, scrubCounted, getReg_bump_ne 6 (by decide), getReg_setReg_ne (by decide), memLines, memGiB]
  unfold scrubReadEff
  simp only [hr, Bool.not_true, Bool.false_eq_true, if_false, if_neg hserve, ← scrubCounted.eq_def, hb, hlines,
    show ¬ 1 < 0 by decide, show ¬ (0 : Nat) = 1 by decide]

theorem completes_scrub_next (hlt : (getReg s Reg.INT_SCRUB_POS).toNat + 1 < memLines s) : completes .scrubRead s (fun t =>
    (getReg t Reg.INT_SCRUB_POS).toNat = (getReg s Reg.INT_SCRUB_POS).toNat + 1 ∧ countedBy s t (Reg.INT_CNT + 24) 1) := by
  have heff := scrubReadEff_walk hr hch hburst
  rw [if_pos hlt] at heff
  refine completes_of_done (congrArg (done s) heff) ⟨?_, countedBy_bumpBy
    (u := setReg Reg.INT_SCRUB_INTERVAL (BitVec.ofNat 32 (scrubInterval s)) s) ?_ (getReg_setReg_ne (by decide) _ s)⟩
  · have hmax := memLines_lt s
    rw [getReg_finish, getReg_setReg_same, BitVec.toNat_ofNat]
    exact Nat.mod_eq_of_lt (by omega)
  · rw [getReg_finish, getReg_setReg_ne (by decide)]
    rfl

theorem completes_scrub_wraps (hge : memLines s ≤ (getReg s Reg.INT_SCRUB_POS).toNat + 1) : completes .scrubRead s (fun t =>
    getReg t Reg.INT_SCRUB_POS = 0#32 ∧ countedBy s t (Reg.INT_CNT + 24) 1 ∧ countedBy s t Reg.INT_SCRUB_PASSES 1 ∧
    flag t Fld.INT_EVT_SCRUB_PASS = true) := by
  have heff := scrubReadEff_walk hr hch hburst
  rw [if_neg (by omega)] at heff
  refine completes_of_done (congrArg (done s) heff) ⟨?_, ?_, ?_, ?_⟩
  · rw [getReg_finish, getReg_evt (by decide) (by decide), getReg_bumpBy_ne (by decide), getReg_setReg_same]
  · refine countedBy_bumpBy (u := setReg Reg.INT_SCRUB_INTERVAL (BitVec.ofNat 32 (scrubInterval s)) s) ?_
      (getReg_setReg_ne (by decide) _ s)
    rw [getReg_finish, getReg_evt (by decide) (by decide), getReg_bumpBy_ne (by decide), getReg_setReg_ne (by decide)]
    rfl
  · refine countedBy_bumpBy (u := setReg Reg.INT_SCRUB_POS 0#32 (scrubCounted s)) ?_ ?_
    · rw [getReg_finish, getReg_evt (by decide) (by decide)]
    · rw [getReg_setReg_ne (by decide), scrubCounted, getReg_bump_ne 6 (by decide), getReg_setReg_ne (by decide)]
  · rw [flag_finish]
    exact flag_evt_same (by decide) (by decide) (by decide) _ _ _

end

/-- Settles O46. -/
theorem bufferMemoryUpkeep : Obligations.BufferMemoryUpkeep := by
  unfold Obligations.BufferMemoryUpkeep
  exact fun s => ⟨
    fun _ _ _ _ _ _ hch hline hforce => ⟨completes_read_correct hch hline hforce, completes_read_replayed hch hline hforce⟩,
    fun _ _ _ _ _ hch hline hfirst hlanes => completes_read_payload hch hline hfirst hlanes,
    fun _ _ hq => ⟨completes_repaired hq, completes_reread_correct hq, completes_repair_dropped hq⟩,
    fun hs hst => ⟨completes_refresh_postponed hs hst, completes_refresh_forced hs hst, completes_refresh_repaid hs hst,
      completes_refresh_now hs hst⟩,
    completes_dramTemp, completes_pointBegin, completes_pointDrained,
    fun hr hch hburst => ⟨completes_scrub_next hr hch hburst, completes_scrub_wraps hr hch hburst⟩⟩

end Sys2Proof.Proofs
end

section
/-! The buffer cache (R410 to R416, R420 to R422): requests, fills, write-backs and the scratchpad. -/

namespace Sys2Proof.Proofs

open Sys2Proof Sys2Proof.Machine Sys2Proof.Safety

/-! ### What serving leaves unchanged -/

@[simp] theorem putWay_regs (key : Nat) (x : Option CacheLine) (s : State) : (putWay key x s).regs = s.regs := rfl
@[simp] theorem putWay_out (key : Nat) (x : Option CacheLine) (s : State) : (putWay key x s).out = s.out := rfl
@[simp] theorem putWay_mem (key : Nat) (x : Option CacheLine) (s : State) : (putWay key x s).mem = s.mem := rfl
@[simp] theorem putWay_scratch (key : Nat) (x : Option CacheLine) (s : State) : (putWay key x s).bc.scratch = s.bc.scratch := rfl

/-- A way marked as used changes ways alone. -/
theorem touchWay_keeps {β : Type} (P : State → β) (h : ∀ k x s, P (putWay k x s) = P s) (key : Nat) (s : State) :
    P (touchWay key s) = P s := by
  unfold touchWay
  split
  · rfl
  · dsimp only
    split
    · refine (forEach_keeps P _ (fun k u => ?_) _ _).trans (h _ _ _)
      split
      · split
        · rfl
        · exact h _ _ _
      · rfl
    · exact h _ _ _

theorem deliverBytes_read {r : CacheReq} (h : r.write = none) (d : List Byte) (s : State) :
    deliverBytes r d s = emit (.cacheData r.port r.addr (slice d (r.addr % 64) r.len)) s := if_neg (by simp [h])

theorem memoryKept_of {s t : State} (hmem : t.mem = s.mem) (hscratch : t.bc.scratch = s.bc.scratch) : memoryKept s t :=
  ⟨fun a => by rw [hmem], fun a => by rw [hscratch]⟩

theorem length_mergeReq (r : CacheReq) (d : List Byte) : (mergeReq r d).length = d.length := by
  unfold mergeReq
  split
  · rfl
  · simp

/-! ### Requests to a quiet cache -/

section
variable {s : State} {r : CacheReq} {walked : Nat} {tags : List Nat} (hq : cacheQuiet s)
include hq

/-- Nothing stands between a request and its being served. -/
theorem cacheRequestEff_quiet {t : State} (h : serveReq r s = some t) : cacheRequestEff r [] walked tags none s = t := by
  obtain ⟨hwaiting, hrange, hbad, hflag⟩ := hq
  have hwalk : walkTo walked s = s := by simp [walkTo, hrange]
  simp [cacheRequestEff, forEach, hwalk, hbad, hflag, grantReq, hwaiting, h]

/-- A request served past the cache, of port 5 or of a disabled cache. -/
theorem cacheRequestEff_past (h : r.port = 5 ∨ bcState s = 0) : cacheRequestEff r [] walked tags none s = servePast r s := by
  refine cacheRequestEff_quiet hq ?_
  rw [serveReq]
  exact if_pos (by simpa using h)

theorem completes_read_hit (hr : r.write = none) {k : Nat} {x : CacheLine} (hst : bcState s ≠ 0) (hport : r.port ≠ 5)
    (hline : findLine s (r.addr / 64) = some (k, x)) : completes (.cacheRequest r [] walked tags none) s (fun t => memoryKept s t ∧
      t.out = s.out ++ [.cacheData r.port r.addr (slice x.data (r.addr % 64) r.len)] ∧
      (getReg t (Reg.BC_PORT_HIT + 4 * r.port)).toNat = min 0xFFFFFFFF ((getReg s (Reg.BC_PORT_HIT + 4 * r.port)).toNat + 1)) := by
  have hserve : serveReq r s = some (emit (.cacheData r.port r.addr (slice x.data (r.addr % 64) r.len))
      (touchWay k (bump Reg.BC_PORT_HIT r.port s))) := by
    simp [serveReq, hst, hport, hline, serveLine, hr, deliverBytes_read]
  have heff := cacheRequestEff_quiet (walked := walked) (tags := tags) hq hserve
  refine completes_of_done (congrArg (done s) heff) ⟨memoryKept_of ?_ ?_, ?_, ?_⟩
  · rw [finish_mem, emit_mem, touchWay_keeps State.mem (fun _ _ _ => rfl), bump_mem]
  · rw [finish_bc, emit_bc, touchWay_keeps (·.bc.scratch) (fun _ _ _ => rfl), bump_bc]
  · rw [finish_out]
    exact congrArg (· ++ _) ((touchWay_keeps State.out (fun _ _ _ => rfl) k _).trans (bump_out _ _ s))
  · rw [getReg_finish, getReg_emit, getReg_congr (touchWay_keeps State.regs (fun _ _ _ => rfl) k _), getReg_bump_same]

theorem completes_read_miss (hr : r.write = none) (hst : bcState s = 1) (hport : r.port ≠ 5) (hline : findLine s (r.addr / 64) = none)
    (hvictim : findVictim s (r.addr / 64) = none) (hmiss : s.bc.miss = []) :
    completes (.cacheRequest r [] walked tags none) s (fun t => memoryKept s t ∧ t.out = s.out ∧
      t.bc = { s.bc with miss := [{ line := r.addr / 64, reqs := [(r, false)] }] } ∧
      (getReg t (Reg.BC_PORT_MISS + 4 * r.port)).toNat = min 0xFFFFFFFF ((getReg s (Reg.BC_PORT_MISS + 4 * r.port)).toNat + 1)) := by
  have hserve : serveReq r s = some (bump Reg.BC_PORT_MISS r.port
      (modBc (fun b => { b with miss := [{ line := r.addr / 64, reqs := [(r, false)] }] }) s)) := by
    simp [serveReq, hst, hport, hline, hvictim, hmiss, fullWrite, hr, modBc]
  have heff := cacheRequestEff_quiet (walked := walked) (tags := tags) hq hserve
  refine completes_of_done (congrArg (done s) heff) ⟨memoryKept_of ?_ ?_, ?_, ?_, ?_⟩
  · rw [finish_mem, bump_mem]
    rfl
  · rw [finish_bc, bump_bc]
    rfl
  · rw [finish_out, bump_out]
    rfl
  · rw [finish_bc, bump_bc]
    rfl
  · rw [getReg_finish, getReg_bump_same]
    rfl

theorem completes_read_past (hr : r.write = none) (h : r.port = 5 ∨ bcState s = 0) :
    completes (.cacheRequest r [] walked tags none) s (fun t => memoryKept s t ∧ t.bc = s.bc ∧
      t.out = s.out ++ [.cacheData r.port r.addr (slice (memLine s (r.addr / 64)) (r.addr % 64) r.len)]) := by
  have hpast : servePast r s = emit (.cacheData r.port r.addr (slice (memLine s (r.addr / 64)) (r.addr % 64) r.len)) s := by
    simp [servePast, hr, deliverBytes_read]
  have heff := (cacheRequestEff_past (walked := walked) (tags := tags) hq h).trans hpast
  exact completes_of_done (congrArg (done s) heff) ⟨memoryKept_of (finish_mem _ _) (by rw [finish_bc, emit_bc]), finish_bc _ _,
    finish_out _ _⟩

theorem completes_write_past (hw : r.write.isSome = true) (h : r.port = 5 ∨ bcState s = 0) :
    completes (.cacheRequest r [] walked tags none) s (fun t => t.bc = s.bc ∧ t.out = s.out ∧
      memLine t (r.addr / 64) = mergeReq r (memLine s (r.addr / 64)) ∧
      ∀ a, a / 64 ≠ r.addr / 64 → Tbl.get 0#8 a t.mem.bytes = Tbl.get 0#8 a s.mem.bytes) := by
  have hpast : servePast r s = memPut (r.addr / 64) (mergeReq r (memLine s (r.addr / 64))) s := by simp [servePast, hw]
  have hlen : (mergeReq r (memLine s (r.addr / 64))).length = 64 := by rw [length_mergeReq, length_memLine]
  have heff := (cacheRequestEff_past (walked := walked) (tags := tags) hq h).trans hpast
  refine completes_of_done (congrArg (done s) heff) ⟨?_, ?_, ?_, fun a ha => ?_⟩
  · rw [finish_bc, memPut, bump_bc]
    rfl
  · rw [finish_out, memPut, bump_out]
    rfl
  · rw [memLine_congr (congrArg MemState.bytes (finish_mem _ _)), memLine_memPut_same hlen]
  · rw [finish_mem, get_memPut_other hlen ha]

end

/-! ### Fills (R411, R412) -/

/-- With no request waiting and no fill complete, nothing goes on. -/
theorem cacheGoOn_idle {s : State} (hwaiting : s.bc.waiting = []) (hmiss : ∀ m ∈ s.bc.miss, m.beats.length < 4) : cacheGoOn s = s := by
  have hfinish : ∀ l : List MissEntry, (∀ m ∈ l, m.beats.length < 4) → forEach finishMiss l s = s := by
    intro l hl
    induction l with
    | nil => rfl
    | cons m ms ih =>
      obtain ⟨hm, hms⟩ := List.forall_mem_cons.1 hl
      rw [forEach, finishMiss, if_pos hm, ih hms]
  have hnone : modBc (fun b => { b with waiting := [] }) s = s := by
    rw [modBc, ← hwaiting]
  rw [cacheGoOn, hfinish _ hmiss, retryWaiting, hwaiting, forEach, hnone]

section
variable {s : State} {m : MissEntry} {r : CacheReq} {beat : Nat} (hwaiting : s.bc.waiting = []) (hmiss : s.bc.miss = [m])
  (hreqs : m.reqs = [(r, false)]) (hr : r.write = none) (hbeat : beat < 4) (hnew : m.beats.contains beat = false)
  (hmore : m.beats.length < 3) (hback : writingBack s m.line = false)
include hwaiting hmiss hreqs hr hbeat hnew hmore hback

/-- The miss entry with the beat, its read served by now or not. -/
theorem fillBeatEff_kept : fillBeatEff m.line beat s =
    modBc (fun b => { b with miss := [{ m with beats := m.beats ++ [beat], reqs := [(r, (beatsOf r).all (m.beats ++ [beat]).contains)] }] })
      (if (beatsOf r).all (m.beats ++ [beat]).contains then
        emit (.cacheData r.port r.addr (slice (memLine s m.line) (r.addr % 64) r.len)) s else s) := by
  have hfind : s.bc.miss.find? (fun x => x.line == m.line) = some m := by simp [hmiss]
  have hserve : serveMiss (m.beats ++ [beat]) (memLine s m.line) m.reqs s =
      ([(r, (beatsOf r).all (m.beats ++ [beat]).contains)], if (beatsOf r).all (m.beats ++ [beat]).contains then
        emit (.cacheData r.port r.addr (slice (memLine s m.line) (r.addr % 64) r.len)) s else s) := by
    simp [hreqs, serveMiss, hr, deliverBytes_read]
  have hopen : ¬ (decide (4 ≤ beat) || m.beats.contains beat || writingBack s m.line) = true := by
    rw [hnew, hback]
    simpa using hbeat
  unfold fillBeatEff
  rw [hfind]
  dsimp only
  rw [if_neg hopen, hserve]
  dsimp only
  obtain ⟨u, hu, hbc⟩ : ∃ u, u = (if (beatsOf r).all (m.beats ++ [beat]).contains then
      emit (.cacheData r.port r.addr (slice (memLine s m.line) (r.addr % 64) r.len)) s else s) ∧ u.bc = s.bc :=
    ⟨_, rfl, keeps_ite State.bc rfl rfl⟩
  rw [← hu]
  have hmap : modBc (fun b => { b with miss := b.miss.map (fun x => if x.line = m.line then { m with
      beats := m.beats ++ [beat], reqs := [(r, (beatsOf r).all (m.beats ++ [beat]).contains)] } else x) }) u =
      modBc (fun b => { b with miss := [{ m with
        beats := m.beats ++ [beat], reqs := [(r, (beatsOf r).all (m.beats ++ [beat]).contains)] }] }) u := by
    simp [modBc, hbc, hmiss]
  rw [hmap]
  refine cacheGoOn_idle ((congrArg CacheState.waiting hbc).trans hwaiting) fun x hx => ?_
  simp only [modBc, List.mem_singleton] at hx
  rw [hx, List.length_append, List.length_singleton]
  omega

theorem completes_fillBeat : completes (.fillBeat m.line beat) s (fun t => memoryKept s t ∧
    ((beatsOf r).all (m.beats ++ [beat]).contains = true →
      t.out = s.out ++ [.cacheData r.port r.addr (slice (memLine s m.line) (r.addr % 64) r.len)] ∧
      t.bc.miss = [{ m with beats := m.beats ++ [beat], reqs := [(r, true)] }]) ∧
    ((beatsOf r).all (m.beats ++ [beat]).contains = false →
      t.out = s.out ∧ t.bc.miss = [{ m with beats := m.beats ++ [beat] }])) := by
  have heff := fillBeatEff_kept hwaiting hmiss hreqs hr hbeat hnew hmore hback
  have hmem : (fillBeatEff m.line beat s).mem = s.mem := by
    rw [heff]
    exact keeps_ite State.mem rfl rfl
  have hscratch : (fillBeatEff m.line beat s).bc.scratch = s.bc.scratch := by
    rw [heff]
    exact keeps_ite (·.bc.scratch) rfl rfl
  refine completes_of_done (t := fillBeatEff m.line beat s) rfl ⟨memoryKept_of ?_ ?_, fun hcome => ?come, fun hwait => ?wait⟩
  · rw [finish_mem, hmem]
  · rw [finish_bc, hscratch]
  case come =>
    rw [hcome, if_pos rfl] at heff
    rw [finish_out, finish_bc, heff]
    exact ⟨rfl, rfl⟩
  case wait =>
    rw [hwait, if_neg Bool.false_ne_true, ← hreqs] at heff
    rw [finish_out, finish_bc, heff]
    exact ⟨rfl, rfl⟩

end

/-! ### Write-backs (R415) -/

theorem completes_writeback {s : State} {w : WriteBack} (hwaiting : s.bc.waiting = []) (hmiss : s.bc.miss = []) (hvictims : s.bc.victims = [])
    (hwbs : s.bc.wbs = [w]) (hlen : w.data.length = 64) : completes (.writebackComplete w.line) s (fun t => t.bc.wbs = [] ∧
      t.bc.twins = dropFirst w.line s.bc.twins ∧ memLine t w.line = w.data ∧
      ∀ a, a / 64 ≠ w.line → Tbl.get 0#8 a t.mem.bytes = Tbl.get 0#8 a s.mem.bytes) := by
  obtain ⟨u, hu⟩ : ∃ u, u = memPut w.line w.data s := ⟨_, rfl⟩
  have hubc : u.bc = s.bc := by rw [hu, memPut, bump_bc, modMem]
  obtain ⟨v, hv, hmem, htwins, hvwbs, hvwait, hvmiss⟩ : ∃ v, writebackDone w.line s = v ∧ v.mem = u.mem ∧
      v.bc.twins = dropFirst w.line s.bc.twins ∧ v.bc.wbs = [] ∧ v.bc.waiting = [] ∧ v.bc.miss = [] := by
    refine ⟨_, rfl, ?_⟩
    have hfirst : s.bc.victims.find? (fun v => v.line == w.line && v.dirty && v.gone) = none := by rw [hvictims]; rfl
    have hsecond : s.bc.wbs.find? (fun x => x.line == w.line) = some w := by simp [hwbs]
    unfold writebackDone
    rw [hfirst, hsecond]
    dsimp only
    rw [← hu]
    simp [modBc, releaseTwin, hubc, hwbs, hwaiting, hmiss]
  have heff : writebackEff w.line s = v := by
    rw [writebackEff, hv, cacheGoOn_idle hvwait (by simp [hvmiss])]
  refine completes_of_done (congrArg (done s) heff) ⟨?_, ?_, ?_, fun a ha => ?_⟩
  · rw [finish_bc, hvwbs]
  · rw [finish_bc, htwins]
  · rw [memLine_congr (congrArg MemState.bytes ((finish_mem _ _).trans hmem)), hu, memLine_memPut_same hlen]
  · rw [finish_mem, hmem, hu, get_memPut_other hlen ha]

/-! ### The scratchpad (R420, R422) -/

/-- What BAR2 shows does not hang on the counts of the ports. -/
theorem bar2Byte_counted (s : State) (o : Nat) : bar2Byte (bump Reg.BC_PORT_HIT 0 s) o = bar2Byte s o := by
  have hways : getF (bump Reg.BC_PORT_HIT 0 s) Fld.BC_CFG_SCRATCH_WAYS = getF s Fld.BC_CFG_SCRATCH_WAYS := getF_bump_ne (by decide) s
  have hway0 : way0Byte (bump Reg.BC_PORT_HIT 0 s) o = way0Byte s o := by simp [way0Byte, camSt, lslot]
  rw [bar2Byte, hways, hway0, bump_bc, bar2Byte]

theorem completes_bar2Read {s : State} (off len : Nat) (hs : 6 ≤ stage s) : completes (.bar2Access off len none false) s (fun t =>
    memoryKept s t ∧ t.out = s.out ++ [.bar2 false ((upFrom off len).map (bar2Byte s))]) := by
  have hbytes : (upFrom off len).map (bar2Byte (bump Reg.BC_PORT_HIT 0 s)) = (upFrom off len).map (bar2Byte s) :=
    List.map_congr_left fun o _ => bar2Byte_counted s o
  have heff : bar2Eff off len none false s =
      useFree (emit (.bar2 false ((upFrom off len).map (bar2Byte s))) (bump Reg.BC_PORT_HIT 0 s)) := by
    rw [bar2Eff, if_neg (by omega), ← hbytes]
    rfl
  refine completes_of_done (congrArg (done s) heff) ⟨memoryKept_of ?_ ?_, ?_⟩
  · rw [finish_mem, useFree_mem, emit_mem, bump_mem]
  · rw [finish_bc, useFree_bc, emit_bc, bump_bc]
  · rw [finish_out, useFree_out]
    exact congrArg (· ++ _) (bump_out _ _ s)

/-- One byte of a write, stored where it is enabled and lies in the host's ways. -/
def storedByte (ways o : Nat) (b : Option Byte) (m : Tbl Byte) : Tbl Byte :=
  match b with
  | some v => if 0x100000 ≤ o && o < ways * 0x100000 then Tbl.put 0 o v m else m
  | none => m

theorem bar2Write_cons (ways o : Nat) (b : Option Byte) (bs : List (Option Byte)) (m : Tbl Byte) :
    bar2Write ways o (b :: bs) m = bar2Write ways (o + 1) bs (storedByte ways o b m) := by cases b <;> rfl

theorem storedByte_outside {ways o : Nat} (h : ¬ (0x100000 ≤ o ∧ o < ways * 0x100000)) (b : Option Byte) (m : Tbl Byte) :
    storedByte ways o b m = m := by
  cases b with
  | none => rfl
  | some v => exact if_neg (by simpa using h)

theorem get_storedByte_same {ways o : Nat} (h : 0x100000 ≤ o ∧ o < ways * 0x100000) (b : Option Byte) (m : Tbl Byte) :
    Tbl.get 0#8 o (storedByte ways o b m) = b.getD (Tbl.get 0#8 o m) := by
  cases b with
  | none => rfl
  | some v =>
    rw [storedByte, if_pos (by simpa using h)]
    exact Tbl.get_put_same _ _ _ _

theorem get_storedByte_ne {ways o a : Nat} (h : a ≠ o) (b : Option Byte) (m : Tbl Byte) :
    Tbl.get 0#8 a (storedByte ways o b m) = Tbl.get 0#8 a m := by
  cases b with
  | none => rfl
  | some v =>
    rw [storedByte]
    split
    · exact Tbl.get_put_ne _ _ _ (Ne.symm h) _
    · rfl

/-- A write of the host's ways stores the enabled bytes; way 0 and what lies beyond the ways discard theirs. -/
theorem get_bar2Write (ways : Nat) : ∀ (bs : List (Option Byte)) (o a : Nat) (m : Tbl Byte), Tbl.get 0#8 a (bar2Write ways o bs m) =
    if o ≤ a ∧ a < o + bs.length ∧ 0x100000 ≤ a ∧ a < ways * 0x100000 then (bs.getD (a - o) none).getD (Tbl.get 0#8 a m)
    else Tbl.get 0#8 a m
  | [], _, _, _ => by simp [bar2Write]
  | b :: bs, o, a, m => by
    rw [bar2Write_cons, get_bar2Write ways bs (o + 1) a]
    by_cases ha : a = o
    · subst ha
      have hpast : ¬ (a + 1 ≤ a ∧ a < a + 1 + bs.length ∧ 0x100000 ≤ a ∧ a < ways * 0x100000) := by omega
      rw [if_neg hpast, Nat.sub_self, List.getD_cons_zero]
      by_cases hway : 0x100000 ≤ a ∧ a < ways * 0x100000
      · rw [if_pos ⟨le_rfl, by simp, hway⟩, get_storedByte_same hway]
      · rw [if_neg (fun h => hway h.2.2), storedByte_outside hway]
    · rw [get_storedByte_ne ha]
      by_cases hin : o ≤ a ∧ a < o + (b :: bs).length ∧ 0x100000 ≤ a ∧ a < ways * 0x100000
      · have hlen := hin.2.1
        rw [List.length_cons] at hlen
        rw [if_pos hin, if_pos ⟨by omega, by omega, hin.2.2⟩, show a - o = a - (o + 1) + 1 by omega, List.getD_cons_succ]
      · rw [if_neg hin, if_neg]
        rintro ⟨hlo, hhi, hways⟩
        exact hin ⟨by omega, by rw [List.length_cons]; omega, hways⟩

theorem completes_bar2Write {s : State} (off : Nat) (bs : List (Option Byte)) (hs : 6 ≤ stage s) :
    completes (.bar2Access off bs.length (some bs) false) s (fun t => t.mem = s.mem ∧ t.out = s.out ∧ ∀ a, Tbl.get 0#8 a t.bc.scratch =
      if off ≤ a ∧ a < off + bs.length ∧ 0x100000 ≤ a ∧ a < getF s Fld.BC_CFG_SCRATCH_WAYS * 0x100000
      then (bs.getD (a - off) none).getD (Tbl.get 0#8 a s.bc.scratch) else Tbl.get 0#8 a s.bc.scratch) := by
  have hways : getF (bump Reg.BC_PORT_HIT 0 s) Fld.BC_CFG_SCRATCH_WAYS = getF s Fld.BC_CFG_SCRATCH_WAYS := getF_bump_ne (by decide) s
  have heff : bar2Eff off bs.length (some bs) false s =
      modBc (fun b => { b with scratch := bar2Write (getF s Fld.BC_CFG_SCRATCH_WAYS) off bs b.scratch }) (bump Reg.BC_PORT_HIT 0 s) := by
    rw [bar2Eff, if_neg (by omega), ← hways]
    rfl
  refine completes_of_done (congrArg (done s) heff) ⟨?_, ?_, fun a => ?_⟩
  · rw [finish_mem, modBc, bump_mem]
  · rw [finish_out, modBc, bump_out]
  · rw [finish_bc, modBc, bump_bc]
    exact get_bar2Write _ bs off a _

/-- Settles O44. -/
theorem cacheServesRequests : Obligations.CacheServesRequests := by
  unfold Obligations.CacheServesRequests
  exact fun s => ⟨
    fun r walked tags hq hr => ⟨fun k x => completes_read_hit hq hr, completes_read_miss hq hr, completes_read_past hq hr⟩,
    fun r walked tags hq => completes_write_past hq,
    fun m r beat hwaiting hmiss hreqs hr hbeat hnew hmore hback => completes_fillBeat hwaiting hmiss hreqs hr hbeat hnew hmore hback,
    fun w => completes_writeback, completes_bar2Read, completes_bar2Write⟩

end Sys2Proof.Proofs
end

section
/-! The work that the ends of commands set going (R367, R377, R398, R401, R504): what it leaves of the state, that it takes back no
output, and that a command on its tag stays there, at most ended. -/

namespace Sys2Proof.Proofs

open Sys2Proof Sys2Proof.Machine Sys2Proof.Safety

/-! ### Outputs that stay sent -/

theorem out_logSignal (s : State) : s.out <+: (logSignal s).out := by
  unfold logSignal
  split
  · extract_lets v fnst mv s₁
    split
    · exact List.prefix_rfl
    · split
      · exact List.prefix_rfl
      · exact List.prefix_append _ _
  · exact List.prefix_rfl

/-- A round of outputs takes none back. -/
theorem out_forEach {α : Type} {f : α → State → State} (hf : ∀ x s, s.out <+: (f x s).out) :
    ∀ (l : List α) (s : State), s.out <+: (forEach f l s).out
  | [], _ => List.prefix_rfl
  | x :: l, s => (hf x s).trans (out_forEach hf l (f x s))

theorem out_writeEntry (b c u e : Nat) (cont : Bool) (d : List Byte) (s : State) : s.out <+: (writeEntry b c u e cont d s).out := by
  unfold writeEntry
  extract_lets q e' early
  have hsubs := out_forEach (f := fun (sub : Subscriber) s => if bit sub.mask b then emit (.subscriber sub.addr sub.port e') s else s)
    (fun sub s => by
      split
      · exact List.prefix_append _ _
      · exact List.prefix_rfl)
  split
  rename_i kept wrapped _
  extract_lets s₁ s₂ s₃ s₄
  have hlogged : s₄.out = s.out := by
    unfold s₄ s₃ s₂ s₁
    split <;> split <;> split <;> rfl
  exact hlogged ▸ (hsubs s₄.mgt.subs s₄).trans (out_logSignal _)

theorem out_writeDetails (b c u e : Nat) : ∀ (ds : List (List Byte)) (cont : Bool) (s : State),
    s.out <+: (writeDetails b c u e cont ds s).out
  | [], _, _ => List.prefix_rfl
  | d :: ds, cont, s => (out_writeEntry b c u e cont d s).trans (out_writeDetails b c u e ds true _)

theorem out_rawEvent (b c u : Nat) (is : List Item) (s : State) : s.out <+: (rawEvent b c u is s).out := by
  unfold rawEvent
  extract_lets s₁
  have hlogged : s.out <+: s₁.out := out_writeDetails _ _ _ _ _ _ _
  split
  · exact hlogged.trans (List.prefix_append _ _)
  · exact hlogged

theorem out_event (b c u : Nat) (is : List Item) (s : State) : s.out <+: (event b c u is s).out := by
  unfold event
  extract_lets full s₁ s₂
  have hraised : s.out <+: s₁.out := out_rawEvent _ _ _ _ _
  split
  · split
    · exact hraised.trans (out_rawEvent _ _ _ _ s₂)
    · exact hraised
  · exact hraised

theorem out_evt (f : Fld) (u : Nat) (is : List Item) (s : State) : s.out <+: (evt f u is s).out := by
  unfold evt evtAt
  extract_lets g s₁
  split
  · exact List.prefix_rfl
  · split
    · exact out_event _ _ _ _ s₁
    · exact List.prefix_rfl

/-! ### What lasts of a command -/

/-- A command as its end leaves it. -/
def endedCmd (c : Cmd) (st : Status) (result : Nat) : Cmd :=
  { c with state := .ended, status := st, result := result, lock := none, snap := [], gate := .open }

/-- A command without the marks of its course: what it waits on, what it has read and held, how it was repeated. -/
def coreOf (c : Cmd) : Cmd :=
  { c with
    gate := .open, late := none, got := [], held := [], heldPoint := false, pnr := false, replayed := false, relocated := false,
    step := 0, heldFull := false, warned := false, waitsKnot := none, media := 0, fails := [], reading := false }

/-- What a command has before the work of others it has after it: neither the marks of its course nor its end take it away. -/
structure Lasting (P : Cmd → Prop) : Prop where
  heard : ∀ {c}, P c → c.silent = false ∧ c.detached = false
  ended : ∀ {c} (st : Status) (result : Nat), P c → c.state ≠ .ended → P (endedCmd c st result)
  core : ∀ {c d}, P c → coreOf d = coreOf c → P d

/-- The command on a tag has P. -/
def tagHas (P : Cmd → Prop) (s : State) (n : Nat) : Prop := ∃ c, cmdOf s n = some c ∧ P c

/-- A command that has ended with a status and a RESULT. -/
def endsWith (st : Status) (result : Nat) (c : Cmd) : Prop :=
  (c.silent = false ∧ c.detached = false) ∧ c.state = .ended ∧ c.status = st ∧ c.result = result

theorem lasting_endsWith (st : Status) (result : Nat) : Lasting (endsWith st result) where
  heard h := h.1
  ended _ _ h hopen := absurd h.2.1 hopen
  core {c d} h hcore := by
    have hd : endsWith st result (coreOf d) := hcore ▸ h
    exact hd

theorem endedAs_of_tagHas {s : State} {n : Nat} {st : Status} {result : Nat} (h : tagHas (endsWith st result) s n) :
    endedAs s n st result := by
  obtain ⟨c, hc, _, hstate, hstatus, hresult⟩ := h
  exact ⟨c, hc, hstate, hstatus, hresult⟩

variable {u s t : State} {P : Cmd → Prop} {n : Nat}

theorem tagHas_congr (h : t.host.cmds = s.host.cmds) (hs : tagHas P s n) : tagHas P t n := by
  obtain ⟨c, hc, hP⟩ := hs
  exact ⟨c, by rw [cmdOf, h]; exact hc, hP⟩

theorem cmdOf_putCmd_same (c : Option Cmd) (s : State) (k : Nat) : cmdOf (putCmd k c s) k = c := Tbl.get_put_same none c k _

theorem cmdOf_putCmd_ne {k m : Nat} (h : k ≠ m) (c : Option Cmd) (s : State) : cmdOf (putCmd k c s) m = cmdOf s m :=
  Tbl.get_put_ne none none c h _

theorem cmdOf_modCmd_ne {k m : Nat} (h : k ≠ m) (f : Cmd → Cmd) (s : State) : cmdOf (modCmd k f s) m = cmdOf s m := by
  unfold modCmd
  split
  · exact cmdOf_putCmd_ne h _ s
  · rfl

theorem tagHas_modCmd {k : Nat} {f : Cmd → Cmd} (hf : ∀ c, P c → P (f c)) (h : tagHas P s n) : tagHas P (modCmd k f s) n := by
  obtain ⟨c, hc, hP⟩ := h
  by_cases hk : k = n
  · subst hk
    exact ⟨f c, cmdOf_modCmd_same hc f, hf c hP⟩
  · exact ⟨c, (cmdOf_modCmd_ne hk f s).trans hc, hP⟩

/-! ### Work that follows the ends of commands -/

/-- The state without what the ends of commands may write: events, the marks of commands, replay tables, held data, ladders. -/
def beyondWork (s : State) : State :=
  { s with
    regs := [], out := [], mgt := {}, mram := {}, pool := {}, chn := {}
    host := { s.host with cmds := [], posting := [], msix := [] }
    unt := { s.unt with waiting := [], open_ := [] }
    pair := { s.pair with unacked := [], resumed := false }
    media := { nextHeld := s.media.nextHeld } }

/-- The registers that the ends of commands may write. -/
def workRegs : List Nat :=
  logRegs ++ [Reg.UNT_CNT + 12, Reg.UNT_CNT + 20, Reg.UNT_CNT + 24, Reg.ORD_CNT, Reg.ORD_CNT + 8, Reg.ORD_CNT + 12, Reg.ORD_CNT + 16,
    Reg.ORD_CNT + 20, Reg.ORD_CNT + 24, Reg.ORD_CNT + 28, Reg.ORD_EVT, Reg.HQ_EVT, Reg.HNK_EVT]

/-- The state s is u after some work of that kind. -/
structure commandWork (u s : State) : Prop where
  beyond : beyondWork s = beyondWork u
  regs : ∀ off, off ∉ workRegs → getReg s off = getReg u off
  out : u.out <+: s.out
  tags : ∀ {P : Cmd → Prop} {n : Nat}, Lasting P → tagHas P u n → tagHas P s n

theorem commandWork.refl (s : State) : commandWork s s := ⟨rfl, fun _ _ => rfl, List.prefix_rfl, fun _ h => h⟩

theorem commandWork.trans (h : commandWork u s) (h' : commandWork s t) : commandWork u t :=
  ⟨h'.beyond.trans h.beyond, fun off ho => (h'.regs off ho).trans (h.regs off ho), h.out.trans h'.out,
    fun hP hu => h'.tags hP (h.tags hP hu)⟩

/-- A change outside the registers, the outputs and the commands that beyondWork sets aside. -/
theorem commandWork.beside (h : commandWork u s) (hb : beyondWork t = beyondWork s) (hr : t.regs = s.regs) (ho : t.out = s.out)
    (hc : t.host.cmds = s.host.cmds) : commandWork u t :=
  h.trans ⟨hb, fun off _ => getReg_congr hr off, ho ▸ List.prefix_rfl, fun _ hs => tagHas_congr hc hs⟩

theorem commandWork.ite {c : Prop} {_ : Decidable c} (hs : commandWork u s) (ht : commandWork u t) :
    commandWork u (if c then s else t) := by
  split
  · exact hs
  · exact ht

theorem commandWork.onlyIf {c : Prop} (h : commandWork u s) {_ : Decidable c} (f : commandWork u s → commandWork u t) :
    commandWork u (if c then t else s) := .ite (f h) h

/-- Names the work done so far where the rest of a proof speaks of it several times. -/
theorem commandWork.andThen (h : commandWork u s) (f : commandWork u s → commandWork u t) : commandWork u t := f h

theorem commandWork.forEach {α : Type} {f : α → State → State} {l : List α} (h : commandWork u s)
    (hf : ∀ {s} x, commandWork u s → commandWork u (f x s)) : commandWork u (forEach f l s) := by
  induction l generalizing s with
  | nil => exact h
  | cons x l ih => exact ih (hf x h)

/-! ### Registers, outputs, events and the mirror -/

theorem commandWork.setReg {off v} (h : commandWork u s) (ho : off ∈ workRegs) : commandWork u (setReg off v s) :=
  h.trans ⟨rfl, fun _ hoff => getReg_setReg_ne (fun e => hoff (e.subst (motive := (· ∈ workRegs)) ho)) _ _, List.prefix_rfl,
    fun _ hs => tagHas_congr rfl hs⟩

theorem commandWork.held {l : List Held} (h : commandWork u s) : commandWork u { s with media := { s.media with held := l } } :=
  h.beside rfl rfl rfl rfl

theorem commandWork.modSkein {key f} (h : commandWork u s) : commandWork u (modSkein key f s) := h.beside rfl rfl rfl rfl

theorem commandWork.bump {off i} (h : commandWork u s) (ho : off + 4 * i ∈ workRegs) : commandWork u (bump off i s) := h.setReg ho

theorem commandWork.emit {o} (h : commandWork u s) : commandWork u (emit o s) :=
  h.trans ⟨rfl, fun _ _ => rfl, List.prefix_append _ _, fun _ hs => tagHas_congr rfl hs⟩

theorem workRegs_of_logRegs {off : Nat} (h : off ∈ logRegs) : off ∈ workRegs := List.mem_append_left _ h

theorem beyondWork_of_quiet (h : quiet t = quiet s) : beyondWork t = beyondWork s := by
  have hb := congrArg beyondWork h
  exact hb

theorem commandWork.evt {f unit items} (h : commandWork u s) (hf : f.off ∈ workRegs) : commandWork u (evt f unit items s) :=
  h.trans ⟨beyondWork_of_quiet (quiet_evt f unit items s),
    fun _ hoff => getReg_evt (fun hl => hoff (workRegs_of_logRegs hl)) (fun e => hoff (e ▸ hf)) unit items s,
    out_evt f unit items s, fun _ hs => tagHas_congr (evt_host_cmds f unit items s) hs⟩

theorem commandWork.modVol {v f} (h : commandWork u s) : commandWork u (modVol v f s) := h.beside rfl rfl rfl rfl

theorem commandWork.mirror {m} (h : commandWork u s) : commandWork u (mirror m s) :=
  h.onlyIf fun h => .emit (h.beside rfl rfl rfl rfl)

/-! ### Marks and ends of commands -/

theorem commandWork.modCmd {k f} (h : commandWork u s) (hf : ∀ c, coreOf (f c) = coreOf c) : commandWork u (modCmd k f s) := by
  refine h.trans ⟨?_, fun off _ => getReg_congr (modCmd_regs k f s) off, ?_, fun hP hs => tagHas_modCmd (fun c hc => hP.core hc (hf c)) hs⟩
  · unfold Machine.modCmd
    split <;> rfl
  · unfold Machine.modCmd
    split <;> exact List.prefix_rfl

theorem commandWork.recordReplay {c} (h : commandWork u s) : commandWork u (recordReplay c s) := h.onlyIf (·.modVol.mirror)

/-- The end of a command, once its outcome is recorded and counted in s₂. -/
theorem commandWork_endsTag {k : Nat} {c : Cmd} {st : Status} {result : Nat} {s₂ : State} (hc : cmdOf s k = some c)
    (hopen : c.state ≠ .ended) (h : commandWork s s₂) :
    commandWork s (if (c.silent || c.detached) = true then freeTag k s₂
      else { putCmd k (some (endedCmd c st result)) s₂ with
        host := { (putCmd k (some (endedCmd c st result)) s₂).host with posting := s₂.host.posting ++ [k] } }) where
  beyond := keeps_ite beyondWork h.beyond h.beyond
  regs off hoff := keeps_ite (getReg · off) (h.regs off hoff) (h.regs off hoff)
  out := by split <;> exact h.out
  tags {P m} hP hs := by
    by_cases hk : k = m
    · subst hk
      obtain ⟨d, hd, hPd⟩ := hs
      cases hc.symm.trans hd
      obtain ⟨hsilent, hdetached⟩ := hP.heard hPd
      rw [if_neg (by simp [hsilent, hdetached])]
      exact tagHas_congr (s := putCmd k (some (endedCmd c st result)) s₂) rfl
        ⟨_, cmdOf_putCmd_same _ s₂ k, hP.ended st result hPd hopen⟩
    · obtain ⟨d, hd, hPd⟩ := h.tags hP hs
      split
      · exact ⟨d, (cmdOf_putCmd_ne hk none s₂).trans hd, hPd⟩
      · exact tagHas_congr (s := putCmd k (some (endedCmd c st result)) s₂) rfl ⟨d, (cmdOf_putCmd_ne hk _ s₂).trans hd, hPd⟩

theorem endOne_eq {k : Nat} {c : Cmd} (hc : cmdOf s k = some c) (hopen : c.state ≠ .ended) (st : Status) (result : Nat) :
    ∃ s₂, commandWork s s₂ ∧ endOne k st result s = if (c.silent || c.detached) = true then freeTag k s₂
      else { putCmd k (some (endedCmd c st result)) s₂ with
        host := { (putCmd k (some (endedCmd c st result)) s₂).host with posting := s₂.host.posting ++ [k] } } := by
  unfold Machine.endOne
  rw [hc]
  dsimp only
  rw [if_neg hopen]
  exact ⟨_, (commandWork.refl s).recordReplay.onlyIf fun h => h.bump (by decide), rfl⟩

theorem commandWork.endOne {k st result} (h : commandWork u s) : commandWork u (endOne k st result s) := by
  cases hc : cmdOf s k with
  | none => exact h.trans (by unfold Machine.endOne; rw [hc]; exact .refl s)
  | some c =>
    by_cases hopen : c.state = .ended
    · exact h.trans (by unfold Machine.endOne; rw [hc]; dsimp only; rw [if_pos hopen]; exact .refl s)
    · obtain ⟨s₂, hs₂, heq⟩ := endOne_eq hc hopen st result
      exact h.trans (heq ▸ commandWork_endsTag hc hopen hs₂)

theorem commandWork.endRepeats {q st result rel step} (h : commandWork u s) : commandWork u (endRepeats q st result rel step s) :=
  h.forEach fun _ h => h.onlyIf fun h =>
    ((h.modCmd (f := fun c => { c with replayed := true, relocated := rel, step := step }) fun _ => rfl).endOne.bump (by decide)).evt
      (by decide)

theorem commandWork.createFailed {c st} (h : commandWork u s) : commandWork u (createFailed c st s) :=
  h.onlyIf fun h => h.forEach fun _ h => h.onlyIf (·.endOne)

theorem commandWork.endCmd {k st result} (h : commandWork u s) : commandWork u (endCmd k st result s) := by
  unfold Machine.endCmd
  split
  · exact h
  · exact .ite h h.endOne.endRepeats.createFailed

/-- A command that may still end has ended afterwards, with that status and RESULT. -/
theorem tagHas_endCmd {k : Nat} {c : Cmd} (hc : onTag s k c) (hopen : c.state ≠ .ended) (st : Status) (result : Nat) :
    tagHas (endsWith st result) (endCmd k st result s) k := by
  obtain ⟨hcmd, hsilent, hdetached⟩ := hc
  obtain ⟨s₂, -, heq⟩ := endOne_eq hcmd hopen st result
  have hended : tagHas (endsWith st result) (Machine.endOne k st result s) k := by
    rw [heq, if_neg (by simp [hsilent, hdetached])]
    exact tagHas_congr (s := putCmd k (some (endedCmd c st result)) s₂) rfl
      ⟨_, cmdOf_putCmd_same _ s₂ k, ⟨hsilent, hdetached⟩, rfl, rfl, rfl⟩
  unfold Machine.endCmd
  rw [hcmd]
  dsimp only
  rw [if_neg hopen]
  exact (commandWork.refl _).endRepeats.createFailed.tags (lasting_endsWith st result) hended

theorem endedAs_endCmd {k : Nat} {c : Cmd} (hc : onTag s k c) (hopen : c.state ≠ .ended) (st : Status) (result : Nat) :
    endedAs (endCmd k st result s) k st result := endedAs_of_tagHas (tagHas_endCmd hc hopen st result)

/-! ### Waits, settling and requests -/

theorem commandWork.setGate4 {k g} (h : commandWork u s) : commandWork u (setGate4 k g s) := by
  unfold Machine.setGate4
  split
  · exact h
  · refine (h.modCmd (k := k) (f := fun c => { c with gate := g }) fun _ => rfl).andThen fun h => h.onlyIf fun h => .ite h.endCmd ?_
    split
    · exact h.endCmd
    · exact h

theorem commandWork.regateOne {e} (h : commandWork u s) : commandWork u (regateOne e s) := by
  unfold Machine.regateOne
  dsimp only
  split
  · exact h
  · exact h
  · refine .ite h ?_
    split
    · exact h.endCmd
    · refine .ite h ?_
      split
      · exact .ite h (h.setGate4.bump (by decide))
      · exact h.setGate4.bump (by decide)
      · exact h.setGate4

theorem commandWork.regate (h : commandWork u s) : commandWork u (regate s) :=
  (h.forEach fun _ h => h.regateOne).andThen fun h => h.onlyIf (·.beside rfl rfl rfl rfl)

theorem commandWork.finishReq {r st} (h : commandWork u s) : commandWork u (finishReq r st s) := by
  unfold Machine.finishReq
  extract_lets s₁ s₂
  have hcounted : commandWork u s₂ := (h.onlyIf fun h => h.bump (by decide)).onlyIf fun h => h.bump (by decide)
  split
  · exact hcounted
  · split
    · exact hcounted
    · exact .endCmd (hcounted.onlyIf fun h => .ite h.emit h.emit)
  · exact .emit (hcounted.beside rfl rfl rfl rfl)
  · exact hcounted.beside rfl rfl rfl rfl
  · exact hcounted.emit

theorem commandWork.noEngineEvt (h : commandWork u s) : commandWork u (noEngineEvt s) := h.evt (by decide)

theorem commandWork.settleOne {e} (h : commandWork u s) : commandWork u (settleOne e s) := by
  unfold Machine.settleOne
  dsimp only
  refine .ite ?running (.ite (.ite h ?asOf) h)
  case running =>
    split
    · exact h
    · refine .ite h.endCmd ?_
      split
      · exact h.endCmd
      · exact h.onlyIf fun h => h.endCmd.noEngineEvt
  case asOf =>
    split
    · exact h.endCmd
    · exact h

theorem commandWork.gcHeld (h : commandWork u s) : commandWork u (gcHeld s) := h.beside rfl rfl rfl rfl

theorem commandWork.settle (h : commandWork u s) : commandWork u (settle s) := (h.forEach fun _ h => h.settleOne).gcHeld

/-! ### Forming, aborts and ladders -/

theorem commandWork.sealSkein {key} (h : commandWork u s) : commandWork u (sealSkein key s) := by
  unfold Machine.sealSkein
  split
  · exact h
  · exact .ite h (h.beside rfl rfl rfl rfl)

theorem commandWork.sealOpen (h : commandWork u s) : commandWork u (sealOpen s) := by
  unfold Machine.sealOpen
  split
  · exact h.sealSkein
  · exact h

theorem commandWork.openData (h : commandWork u s) : commandWork u (openData s).2 := by
  unfold Machine.openData
  split
  · exact h
  · exact h.beside rfl rfl rfl rfl

theorem commandWork.putMember {kind data seq} (h : commandWork u s) : commandWork u (putMember kind data seq s).2 :=
  h.openData.modSkein.modSkein.onlyIf (·.sealSkein)

theorem commandWork.packMember {v seq hanks data} (h : commandWork u s) : commandWork u (packMember v seq hanks data s) :=
  h.putMember.forEach fun _ h => h.beside rfl rfl rfl rfl

theorem commandWork.packFull {v seq k hanks since bs} (h : commandWork u s) :
    commandWork u (packFull v seq k hanks since bs s) := by
  induction k generalizing hanks since bs s with
  | zero => exact h.beside rfl rfl rfl rfl
  | succ k ih => exact .ite (h.beside rfl rfl rfl rfl) (ih h.packMember)

theorem commandWork.flushBuf {v} (h : commandWork u s) : commandWork u (flushBuf v s) :=
  .ite h (h.packMember.beside rfl rfl rfl rfl)

theorem commandWork.appendHank {p stored} (h : commandWork u s) : commandWork u (appendHank p stored s) :=
  .packFull (h.beside rfl rfl rfl rfl)

theorem commandWork.formGo {hs blocked} (h : commandWork u s) : commandWork u (formGo hs blocked s) := by
  induction hs generalizing blocked s with
  | nil => exact h
  | cons k hs ih =>
    refine .ite (ih h) (.ite (ih h) (.ite (ih h) ?_))
    split
    · split
      · exact ih h.appendHank
      · exact ih h
    · exact ih (h.putMember.held.onlyIf (·.sealOpen))

theorem commandWork.formAll (h : commandWork u s) : commandWork u (formAll s) := by
  refine h.formGo.forEach fun _ h => ?_
  unfold sealFor
  split
  · exact h.onlyIf fun h => h.flushBuf.onlyIf (·.sealOpen)
  · exact h

theorem commandWork.sealAll (h : commandWork u s) : commandWork u (sealAll s) := (h.formAll.forEach fun _ h => h.flushBuf).sealOpen

theorem commandWork.dropWrite {q} (h : commandWork u s) : commandWork u (dropWrite q s) := h.beside rfl rfl rfl rfl

theorem commandWork.unpinSlot {g lf zone slot} (h : commandWork u s) : commandWork u (unpinSlot g lf zone slot s) :=
  h.forEach fun _ h => h.onlyIf (·.beside rfl rfl rfl rfl)

theorem commandWork.leaveLadders {k} (h : commandWork u s) : commandWork u (leaveLadders k s) := by
  refine commandWork.forEach ?_ fun _ h => h.unpinSlot
  exact h.beside rfl rfl rfl rfl

theorem commandWork.abortTarget {k} (h : commandWork u s) : commandWork u (abortTarget k s).2 := by
  unfold Machine.abortTarget
  split
  · exact h
  · dsimp only
    split
    · exact h.bump (by decide)
    · split
      · exact (h.bump (by decide)).evt (by decide)
      · exact (((h.endCmd.onlyIf (·.dropWrite)).leaveLadders.bump (by decide)).evt (by decide)).settle

/-! ### Acceptance (R357, R372, R379, R400) -/

/-- The state s is u after the checks of an accepted command, which may give commands range-lock entries. -/
structure acceptWork (u s : State) : Prop where
  beyond : beyondWork s = beyondWork u
  regs : ∀ off, off ∉ workRegs → getReg s off = getReg u off
  out : u.out <+: s.out
  tags : ∀ {P : Cmd → Prop} {n : Nat}, Lasting P → (∀ c l, P c → P { c with lock := l }) → tagHas P u n → tagHas P s n

theorem commandWork.accepts (h : commandWork u s) : acceptWork u s := ⟨h.beyond, h.regs, h.out, fun hP _ hu => h.tags hP hu⟩

theorem acceptWork.trans (h : acceptWork u s) (h' : acceptWork s t) : acceptWork u t :=
  ⟨h'.beyond.trans h.beyond, fun off ho => (h'.regs off ho).trans (h.regs off ho), h.out.trans h'.out,
    fun hP hl hu => h'.tags hP hl (h.tags hP hl hu)⟩

theorem acceptWork.work (h : acceptWork u s) (h' : commandWork s t) : acceptWork u t := h.trans h'.accepts

theorem acceptWork_enterWaiting (k : Nat) (g : Gate) (late : Option (Status × Nat)) (s : State) :
    acceptWork s (enterWaiting k g late s) := by
  unfold enterWaiting
  extract_lets s₁ s₂
  have hcounted : commandWork s s₁ := by
    unfold s₁
    split
    · exact (commandWork.refl s).bump (by decide)
    · exact .refl s
  have hlocked : acceptWork s₁ s₂ := by
    refine ⟨?_, fun off _ => getReg_congr (modCmd_regs _ _ _) off, ?_, fun hP hl => tagHas_modCmd fun c hc => ?_⟩
    · show beyondWork (modCmd _ _ _) = _
      unfold modCmd
      split <;> rfl
    · show s₁.out <+: (modCmd _ _ _).out
      unfold modCmd
      split <;> exact List.prefix_rfl
    · exact hP.core (c := { c with lock := lockFor c.cmd }) (hl c _ hc) rfl
  refine (hcounted.accepts.trans hlocked).work ?_
  split
  · exact .refl s₂
  · exact ((commandWork.refl s₂).onlyIf fun h => h.bump (by decide)).onlyIf fun h => h.bump (by decide)

theorem commandWork.endRepeat {k c q st result rel step} (h : commandWork u s) :
    commandWork u (endRepeat k c q st result rel step s) :=
  ((h.modCmd (f := fun c => { c with replayed := true, relocated := rel, step := step }) fun _ => rfl).endCmd.bump (by decide)).evt
    (by decide)

theorem commandWork.hostAccess {f r} (h : commandWork u s) : commandWork u (hostAccess f r s) := h.evt (by decide)

theorem acceptWork_checkRest (k : Nat) (aux : Option (List Byte)) (s : State) : acceptWork s (checkRest k aux s) := by
  have h := commandWork.refl s
  unfold checkRest
  split
  · exact h.accepts
  · extract_lets op units us late
    clear_value late
    split
    · exact acceptWork_enterWaiting _ _ _ s
    · split
      · exact commandWork.accepts (h.beside rfl rfl rfl rfl)
      · split
        · exact h.endCmd.accepts
        · split
          · exact h.endRepeat.accepts
          · split
            · split
              · exact h.endRepeat.accepts
              · exact (h.modCmd (f := fun c => { c with gate := .original _ }) fun _ => rfl).accepts
            · split
              · exact h.endCmd.accepts
              · split
                · exact h.endCmd.accepts
                · split
                  · exact (h.endCmd.andThen fun h => .ite h.hostAccess h).accepts
                  · exact acceptWork_enterWaiting _ _ _ s

/-- An accepted command takes the next acceptance number and is counted. -/
def numbered (remote : Bool) (s : State) : State :=
  let s := bump Reg.HQ_CNT 0 (set64 Reg.HQ_SEQ_LO (get64 s Reg.HQ_SEQ_LO + 1) s)
  if remote then bump Reg.PRL_CNT 3 s else s

/-- It stands on the lowest free tag. -/
def onItsTag (remote : Bool) (f ring slot : Nat) (b : List Byte) (aux : Option (List Byte)) (s : State) : State :=
  putCmd (firstFree 0 s.host.cmds) (some (newCmd remote f ring slot (get64 s Reg.HQ_SEQ_LO + 1) b aux)) (numbered remote s)

theorem acceptWork_acceptAs (remote : Bool) (f ring slot : Nat) (one : Option Nat) (b : List Byte) (aux : Option (List Byte)) (s : State) :
    acceptWork (onItsTag remote f ring slot b aux s) (acceptAs remote f ring slot one b aux s) := by
  unfold acceptAs
  extract_lets q k s₁ s₂ s₃ s₄ s₅
  have hjournaled : commandWork s₃ s₄ := (commandWork.refl s₃).onlyIf (·.emit.mirror)
  have hcounted : commandWork s₃ s₅ := hjournaled.onlyIf fun h => h.evt (by decide)
  cases one with
  | some r => exact hcounted.endCmd.accepts
  | none => exact hcounted.accepts.trans (acceptWork_checkRest _ _ _)

end Sys2Proof.Proofs
end


section
/-! Forwarding, the journal, mirroring and the APPLY of a pair (R530 to R532, R534, R538, R539). -/

namespace Sys2Proof.Proofs

open Sys2Proof Sys2Proof.Machine Sys2Proof.Safety

variable {s t : State} {n : Nat} {c : Cmd}

/-! ### The held point of a write (R381, R533) -/

theorem asFua_congr (hu : t.unt = s.unt) (hr : t.regs = s.regs) (c : Cmd) : asFua t c = asFua s c := by
  have hunit (u : Nat) : unitOf t u = unitOf s u := by rw [unitOf, hu, unitOf]
  have hreg (off : Nat) : getReg t off = getReg s off := getReg_congr hr off
  have hust (u : Nat) : ust t u = ust s u := congrArg UnitEntry.state (hunit u)
  have hserving (u : Nat) : serving t u = serving s u := by rw [serving, effState, hust, hunit, serving, effState]
  have hpair : pairEn t = pairEn s := pairEn_of_getReg (hreg _)
  have hsolo : flag t Fld.PRL_CFG_SOLO = flag s Fld.PRL_CFG_SOLO := flag_of_getF (getF_of_getReg (hreg _))
  rw [asFua, twins, soloAsFua, hserving, hserving, hpair, hsolo, hust, asFua, twins, soloAsFua]

/-- Queueing the hanks of a write touches the hank engines' record alone. -/
theorem queueHanks_beside (c : Cmd) (s : State) : (queueHanks c s).unt = s.unt ∧ (queueHanks c s).regs = s.regs ∧
    (queueHanks c s).host = s.host ∧ (queueHanks c s).media.nextHeld = s.media.nextHeld := by
  have hkeep {β : Type} (P : State → β) (hP : ∀ (s : State) (k : HankState), P { s with media := { s.media with hank := k } } = P s) :
      P (queueHanks c s) = P s :=
    keeps_ite P rfl (forEach_keeps P _ (fun _ s => hP s _) _ _)
  exact ⟨hkeep State.unt fun _ _ => rfl, hkeep State.regs fun _ _ => rfl, hkeep State.host fun _ _ => rfl,
    hkeep (·.media.nextHeld) fun _ _ => rfl⟩

theorem modCmd_unt (k : Nat) (f : Cmd → Cmd) (s : State) : (modCmd k f s).unt = s.unt := by
  unfold modCmd
  split <;> rfl

theorem modCmd_media (k : Nat) (f : Cmd → Cmd) (s : State) : (modCmd k f s).media = s.media := by
  unfold modCmd
  split <;> rfl

/-- Work after the ends of commands numbers no held block. -/
theorem commandWork.nextHeld {u s : State} (h : commandWork u s) : s.media.nextHeld = u.media.nextHeld :=
  by
  have hb := congrArg (fun b : State => b.media.nextHeld) h.beyond
  exact hb

/-- A write that need not wait for its knot ends at its held point, which numbers no held block. -/
theorem reachHeld_ends (hc : onTag s n c) (hrun : c.state = .running) (hpoint : c.heldPoint = false) (hheld : c.held ≠ [])
    (hsettling : s.pair.settling = false) (hack : acked s (.held n) = true) (hfua : asFua s c = false) :
    endedAs (reachHeld n s) n .success 0 ∧ (reachHeld n s).media.nextHeld = s.media.nextHeld := by
  obtain ⟨hcmd, hheard⟩ := hc
  obtain ⟨d, hd⟩ : ∃ d, d = { c with heldPoint := true, lock := none } := ⟨_, rfl⟩
  obtain ⟨v, hv⟩ : ∃ v, v = modCmd n (fun c => { c with heldPoint := true, lock := none }) s := ⟨_, rfl⟩
  obtain ⟨hunt, hregs, hhost, hnext⟩ := queueHanks_beside c v
  have hgo : ¬ (c.state ≠ .running || c.heldPoint || c.held.isEmpty || s.pair.settling || !acked s (.held n)) = true := by
    simp [hrun, hpoint, hheld, hsettling, hack]
  have hvfua : asFua (queueHanks c v) c = asFua s c :=
    (asFua_congr hunt hregs c).trans (asFua_congr (hv ▸ modCmd_unt _ _ s) (hv ▸ modCmd_regs _ _ s) c)
  have heq : reachHeld n s = settle (formAll (endCmd n .success 0 (queueHanks c v))) := by
    unfold reachHeld
    rw [hcmd]
    dsimp only
    rw [if_neg hgo, ← hv, if_neg (by rw [hvfua, hfua]; decide)]
  have htag : onTag (queueHanks c v) n d :=
    ⟨by rw [cmdOf, hhost, hv, hd]; exact cmdOf_modCmd_same hcmd _, by rw [hd]; exact hheard⟩
  have hopen : d.state ≠ .ended := by rw [hd, hrun]; decide
  rw [heq]
  exact ⟨endedAs_of_tagHas ((commandWork.refl _).formAll.settle.tags (lasting_endsWith _ _) (tagHas_endCmd htag hopen _ _)),
    ((commandWork.refl _).endCmd.formAll.settle.nextHeld.trans hnext).trans (by rw [hv, modCmd_media])⟩

/-! ### Forwarding and the journal (R530 to R532) -/

theorem hqSeq_numbered (hlt : get64 s Reg.HQ_SEQ_LO < 0xFFFFFFFFFFFFFFFF) (remote : Bool) :
    get64 (numbered remote s) Reg.HQ_SEQ_LO = get64 s Reg.HQ_SEQ_LO + 1 := by
  have hset := get64_set64 (v := get64 s Reg.HQ_SEQ_LO + 1) (by omega) Reg.HQ_SEQ_LO s
  rw [← hset]
  have hcounted (off : Nat) (hoff : off = Reg.HQ_SEQ_LO ∨ off = Reg.HQ_SEQ_LO + 4) :
      getReg (numbered remote s) off = getReg (set64 Reg.HQ_SEQ_LO (get64 s Reg.HQ_SEQ_LO + 1) s) off := by
    unfold numbered
    rcases hoff with rfl | rfl <;> cases remote <;> simp (disch := decide) only [getReg_bump_ne, if_true, if_false, Bool.false_eq_true]
  rw [get64, hcounted _ (.inl rfl), hcounted _ (.inr rfl), ← get64]

theorem counted_numbered (s : State) : countedBy s (numbered true s) Reg.HQ_CNT 1 ∧ countedBy s (numbered true s) (Reg.PRL_CNT + 12) 1 := by
  obtain ⟨u, hu⟩ : ∃ u, u = set64 Reg.HQ_SEQ_LO (get64 s Reg.HQ_SEQ_LO + 1) s := ⟨_, rfl⟩
  have heq : numbered true s = bump Reg.PRL_CNT 3 (bump Reg.HQ_CNT 0 u) := by rw [hu]; rfl
  rw [heq]
  constructor
  · refine countedBy_bumpBy (u := u) (getReg_bump_ne 3 (by decide) _) ?_
    rw [hu, getReg_set64_ne (by decide) (by decide)]
  · refine countedBy_bumpBy (u := bump Reg.HQ_CNT 0 u) rfl ?_
    rw [getReg_bump_ne 0 (by decide), hu, getReg_set64_ne (by decide) (by decide)]

theorem countedBy_congr {u : State} {off k : Nat} (h : getReg t off = getReg u off) (hu : countedBy s u off k) : countedBy s t off k := by
  rw [countedBy, h]
  exact hu

theorem completes_forwardedRing {fn ring slot : Nat} {b : List Byte} {aux : Option (List Byte)} (hm : mirroring s = true)
    (hin : inService s) (hpf : s.pwr.pfRunning = false) (hq : getF s Fld.IMG_STATUS_QSTATE = 0) (hallow : pairAllows s = true)
    (hroom : (cmds s).length < 8192) (hlt : get64 s Reg.HQ_SEQ_LO < 0xFFFFFFFFFFFFFFFF) :
    completes (.forwardedCommand (.ring fn ring slot 0 b aux)) s (fun t => get64 t Reg.HQ_SEQ_LO = get64 s Reg.HQ_SEQ_LO + 1 ∧
      countedBy s t Reg.HQ_CNT 1 ∧ countedBy s t (Reg.PRL_CNT + 12) 1) := by
  have hgo : ¬ (stage s ≠ 7 || halted s || s.pwr.pfRunning || getF s Fld.IMG_STATUS_QSTATE ≠ 0 || !pairAllows s ||
      8192 ≤ (cmds s).length) = true := by simp [hin.1, hin.2, hpf, hq, hallow, hroom]
  have heff : forwardedCommandEff (.ring fn ring slot 0 b aux) s = acceptAs true fn ring slot none b aux s := by
    rw [forwardedCommandEff, hm]
    exact if_neg hgo
  have hwork := acceptWork_acceptAs true fn ring slot none b aux s
  have hreg (off : Nat) (hoff : off ∉ workRegs) :
      getReg (finish s (acceptAs true fn ring slot none b aux s)) off = getReg (numbered true s) off :=
    (getReg_finish s _ off).trans (hwork.regs off hoff)
  refine completes_of_done (congrArg (done s) heff) ⟨?_, countedBy_congr (hreg _ (by decide)) (counted_numbered s).1,
    countedBy_congr (hreg _ (by decide)) (counted_numbered s).2⟩
  rw [get64, hreg _ (by decide), hreg _ (by decide), ← get64, hqSeq_numbered hlt]

theorem completes_forwardedMgmt {i3c : Bool} {addr port reqId typ unit code epoch : Nat} (hm : mirroring s = true)
    (hok : (unitReqBad s opUnitRequest unit code epoch).isNone = true) :
    completes (.forwardedCommand (.mgmt i3c addr port reqId typ opUnitRequest unit code epoch)) s (fun t =>
      t.unt.waiting = s.unt.waiting ++
        [{ kind := .request, unit := unit, code := code, epoch := epoch, sender := .partner i3c addr port reqId typ }]) := by
  have hgood : ¬ (unitReqBad s opUnitRequest unit code epoch).isSome = true := by simp [Option.isNone_iff_eq_none.1 hok]
  refine completes_of_done rfl ?_
  rw [finish_unt, forwardedCommandEff, hm]
  dsimp only
  rw [if_neg (by decide), if_neg hgood]
  rfl

/-- The journal with an entry, which replaces one of its number. -/
theorem journal_within {e : JournalEntry} (hroom : s.pair.journal.length < 8192) :
    ((s.pair.journal.filter (fun x => decide (x.seq ≠ e.seq)) ++ [e]).drop
      ((s.pair.journal.filter (fun x => decide (x.seq ≠ e.seq)) ++ [e]).length - 8192)) =
    s.pair.journal.filter (fun x => decide (x.seq ≠ e.seq)) ++ [e] := by
  have hle := List.length_filter_le (fun x : JournalEntry => decide (x.seq ≠ e.seq)) s.pair.journal
  rw [List.length_append, List.length_singleton, Nat.sub_eq_zero_of_le (by omega), List.drop_zero]

theorem modCmd_pair (k : Nat) (f : Cmd → Cmd) (s : State) : (modCmd k f s).pair = s.pair := by
  unfold modCmd
  split <;> rfl

theorem modCmd_out (k : Nat) (f : Cmd → Cmd) (s : State) : (modCmd k f s).out = s.out := by
  unfold modCmd
  split <;> rfl

/-- The entry is kept and acknowledged; the command that it numbers is another matter of the tags and of pair.fwd. -/
theorem journalEntryEff_eq {e : JournalEntry} (hen : pairEn s = true) (hown : isOwner s = false) (hroom : s.pair.journal.length < 8192) :
    ∃ v, journalEntryEff e s = emit (.jokor 0x02 [e.seq]) v ∧
      v.pair.journal = s.pair.journal.filter (fun x => decide (x.seq ≠ e.seq)) ++ [e] ∧
      v.regs = (set64 Reg.HQ_SEQ_LO (max (get64 s Reg.HQ_SEQ_LO) e.seq) s).regs ∧ v.out = s.out := by
  unfold journalEntryEff
  rw [if_neg (by simp [hen, hown])]
  simp only [journal_within hroom]
  refine ⟨_, rfl, ?_⟩
  split
  · exact ⟨rfl, rfl, rfl⟩
  · split
    · exact ⟨congrArg PairState.journal (modCmd_pair _ _ _), modCmd_regs _ _ _, modCmd_out _ _ _⟩
    · exact ⟨rfl, rfl, rfl⟩

theorem completes_journalEntry {e : JournalEntry} (hen : pairEn s = true) (hown : isOwner s = false)
    (hroom : s.pair.journal.length < 8192) (hlt : e.seq < 0x10000000000000000) :
    completes (.journalEntry e) s (fun t => t.pair.journal = s.pair.journal.filter (fun x => decide (x.seq ≠ e.seq)) ++ [e] ∧
      get64 t Reg.HQ_SEQ_LO = max (get64 s Reg.HQ_SEQ_LO) e.seq ∧ t.out = s.out ++ [.jokor 0x02 [e.seq]]) := by
  have hmax : max (get64 s Reg.HQ_SEQ_LO) e.seq < 0x10000000000000000 := by
    have hlo := (getReg s Reg.HQ_SEQ_LO).isLt
    have hhi := (getReg s (Reg.HQ_SEQ_LO + 4)).isLt
    unfold get64
    omega
  obtain ⟨v, heff, hjournal, hregs, hout⟩ := journalEntryEff_eq hen hown hroom
  refine completes_of_done (congrArg (done s) heff) ⟨?_, ?_, ?_⟩
  · rw [finish_pair, emit_pair, hjournal]
  · rw [get64_finish, get64, getReg_emit, getReg_emit, getReg_congr hregs, getReg_congr hregs, ← get64, get64_set64 hmax]
  · rw [finish_out, emit_out, hout]

theorem completes_journalAck {seq : Nat} (hlt : max s.pair.ackedSeq seq < 0x10000000000000000) :
    completes (.journalAck seq) s (fun t => t.pair.ackedSeq = max s.pair.ackedSeq seq ∧
      get64 t Reg.PRL_ACK_SEQ_LO = max s.pair.ackedSeq seq ∧
      t.pair.unacked = s.pair.unacked.filter (fun m => decide (m ≠ .journal seq))) := by
  obtain ⟨u, hu⟩ : ∃ u, u = set64 Reg.PRL_ACK_SEQ_LO (max s.pair.ackedSeq seq)
    (modPair (fun p => { p with ackedSeq := max p.ackedSeq seq }) s) := ⟨_, rfl⟩
  have hpair : u.pair = { s.pair with ackedSeq := max s.pair.ackedSeq seq } := by rw [hu]; rfl
  have hval : get64 u Reg.PRL_ACK_SEQ_LO = max s.pair.ackedSeq seq := by rw [hu, get64_set64 hlt]
  have heff : journalAckEff seq s = mirrorAckEff (.journal seq) u := by rw [hu]; rfl
  refine completes_of_done (congrArg (done s) heff) ?_
  rw [finish_pair, get64_finish, mirrorAckEff]
  split
  · refine ⟨congrArg PairState.ackedSeq hpair, hval, ?_⟩
    show u.pair.unacked.filter (fun m => decide (m ≠ .journal seq)) = _
    rw [hpair]
  · rename_i hnone
    refine ⟨congrArg PairState.ackedSeq hpair, hval, (congrArg PairState.unacked hpair).trans ?_⟩
    have hmem : .journal seq ∉ s.pair.unacked := by simpa [hpair] using hnone
    refine (List.filter_eq_self.2 fun m hm => decide_eq_true ?_).symm
    rintro rfl
    exact hmem hm

/-! ### Outcomes that come over the link (R531) -/

theorem completes_forwardResultRing {st : Status} {result : Nat} {rep rel : Bool} {step : Nat} (hcs : cmds s = [(n, c)]) (hc : onTag s n c)
    (hfwd : c.forwarded = true) (haway : c.state = .away) (hseq : c.seq ≠ 0) :
    completes (.forwardResult (.ring c.seq st result rep rel step [])) s (fun t => endedAs t n st result ∧
      t.host.posting = s.host.posting ++ [n]) := by
  obtain ⟨hcmd, hsilent, hdetached⟩ := hc
  have hfind : (cmds s).find? (fun e => e.2.forwarded && e.2.state == .away && e.2.seq == c.seq && c.seq != 0) = some (n, c) := by
    rw [hcs]
    exact List.find?_cons_of_pos (by simp [hfwd, haway, hseq])
  have heff : forwardResultEff (.ring c.seq st result rep rel step []) s = endForwarded n c st result rep rel step [] s := by
    rw [forwardResultEff, hfind]
  have hsent : (if c.cmd.opcode = opRead || c.cmd.opcode = opImport then writeSegs c.fn c.segs [] s
      else if ([] : List Byte).isEmpty || c.cmd.dataAddr = 0 then s else emit (.hostWrite c.fn c.cmd.dataAddr []) s) = s := by
    split
    · cases c.segs <;> rfl
    · rfl
  have hhost : (endForwarded n c st result rep rel step [] s).host =
      { (putCmd n (some { c with state := .ended, status := st, result := result, replayed := rep, relocated := rel, step := step }) s).host with
        posting := s.host.posting ++ [n] } := by
    have hheard : ¬ (c.silent || c.detached) = true := by simp [hsilent, hdetached]
    unfold endForwarded
    dsimp only
    rw [hsent, if_neg hheard]
    split <;> rfl
  refine completes_of_done (congrArg (done s) heff)
    ⟨⟨{ c with
      state := .ended, status := st, result := result, replayed := rep, relocated := rel, step := step }, ?_, rfl, rfl, rfl⟩, ?_⟩
  · have htag := cmdOf_putCmd_same
      (some { c with state := .ended, status := st, result := result, replayed := rep, relocated := rel, step := step }) s n
    rw [cmdOf, finish_host, hhost]
    exact htag
  · rw [finish_host, hhost]

theorem completes_forwardResultMgmt (addr port reqId typ status : Nat) (p : List Byte) :
    completes (.forwardResult (.mgmt false addr port reqId typ status p)) s (fun t =>
      t.out = s.out ++ [.dmp addr port typ reqId 1 status p 0] ∧
      (storedFor t (.station addr port) reqId).map (·.answer) = some (some (status, p))) := by
  refine completes_of_done (t := responded addr port typ reqId status p s) rfl ⟨by rw [finish_out]; rfl, ?_⟩
  have hstored : storedFor (finish s (responded addr port typ reqId status p s)) (.station addr port) reqId =
      storedFor (storeAnswer addr port reqId typ (some (status, p)) s) (.station addr port) reqId := by
    rw [storedFor, finish_mgt]
    rfl
  rw [hstored, storedFor_storeAnswer]
  rfl

/-! ### Mirroring (R534, R538) -/

theorem mirrorReceiveEff_eq (hen : pairEn s = true) (hown : isOwner s = false) (d : MirrorData) :
    mirrorReceiveEff d s = emit (.jokor 0x03 []) (takeItem d s) := if_neg (by simp [hen, hown])

theorem changeEvent_unt (u : Nat) (src : Source) (q : Nat) (s : State) : (changeEvent u src q s).unt = s.unt := by
  unfold changeEvent
  dsimp only
  split
  · have hq := congrArg State.unt (quiet_event 0x13 0 u [⟨1, (unitOf s u).prev.code⟩, ⟨1, (unitOf s u).state.code⟩,
      ⟨1, (unitOf s u).reason.code⟩, ⟨1, src.code⟩, ⟨8, q⟩] (setF Fld.UNT_EVT_STATE_CHANGE 1 s))
    exact hq
  · rfl

theorem volOf_finish_modVol (v : Nat) (f : Volume → Volume) (s' : State) (o : Output) :
    volOf (finish s (emit o (modVol v f s'))) v = f (volOf s' v) := by
  rw [volOf, finish_media]
  exact Tbl.get_put_same _ _ _ _

section
variable (hen : pairEn s = true) (hown : isOwner s = false)
include hen hown

/-- A received item is stored and acknowledged. -/
theorem completes_mirrorReceive (d : MirrorData) {P : State → Prop} (h : P (finish s (emit (.jokor 0x03 []) (takeItem d s)))) :
    completes (.mirrorReceive d) s P := completes_of_done (congrArg (done s) (mirrorReceiveEff_eq hen hown d)) h

theorem completes_mirrorPolicy (id : Nat) (v : Int) :
    completes (.mirrorReceive (.policy id v)) s (fun t => policyVal t id = v ∧ t.out = s.out ++ [.jokor 0x03 []]) := by
  refine completes_mirrorReceive hen hown _ ⟨?_, by rw [finish_out]; rfl⟩
  rw [policyVal, finish_mgt]
  exact Tbl.get_put_same _ _ _ _

theorem completes_mirrorHeld (h : Held) : completes (.mirrorReceive (.held h)) s (fun t => h ∈ t.media.held ∧ h.id < t.media.nextHeld ∧
    t.out = s.out ++ [.jokor 0x03 []]) := by
  refine completes_mirrorReceive hen hown _ ⟨?_, ?_, by rw [finish_out]; rfl⟩
  · rw [finish_media]
    exact List.mem_append_right _ (List.mem_singleton.2 rfl)
  · rw [finish_media]
    exact Nat.lt_of_lt_of_le (Nat.lt_succ_self h.id) (Nat.le_max_right _ _)

theorem completes_mirrorUnit {u : Nat} (hu : u ≠ uPartner) (e : UnitEntry) (q : Nat) :
    completes (.mirrorReceive (.unit u e q)) s (fun t => unitOf t u = e ∧ .jokor 0x03 [] ∈ t.out) := by
  refine completes_mirrorReceive hen hown _ ⟨?_, ?_⟩
  · rw [takeItem, if_neg hu, unitOf, finish_unt, emit_unt, changeEvent_unt]
    exact Tbl.get_put_same _ _ _ _
  · rw [finish_out, emit_out]
    exact List.mem_append_right _ (List.mem_singleton.2 rfl)

end

/-- The state in which an item is acknowledged. -/
def unmirrored (m : MirrorItem) (s : State) : State := modPair (fun p => { p with unacked := p.unacked.filter (· ≠ m) }) s

theorem mirrorAckEff_eq {m : MirrorItem} (hm : m ∈ s.pair.unacked) : mirrorAckEff m s = runItem m (unmirrored m s) :=
  if_pos (by simpa using hm)

theorem completes_mirrorAckUnit {u : Nat} (hu : .unit u ∈ s.pair.unacked) :
    completes (.mirrorAck (.unit u)) s (fun t =>
      t.pair = { s.pair with unacked := s.pair.unacked.filter (fun m => decide (m ≠ .unit u)) } ∧ t.regs = s.regs ∧ t.out = s.out) :=
  completes_of_done (congrArg (done s) (mirrorAckEff_eq hu))
    ⟨by rw [finish_pair]; rfl, by rw [finish_regs]; rfl, by rw [finish_out]; rfl⟩

theorem completes_mirrorAckHeld (hn : .held n ∈ s.pair.unacked) (hc : onTag s n c) (hsettling : s.pair.settling = false)
    (hrun : c.state = .running) (hpoint : c.heldPoint = false) (hheld : c.held ≠ []) (hfua : asFua s c = false) :
    completes (.mirrorAck (.held n)) s (fun t => endedAs t n .success 0) := by
  have hack : acked (unmirrored (.held n) s) (.held n) = true := by simp [acked, unmirrored]
  refine completes_of_done (congrArg (done s) (mirrorAckEff_eq hn)) ?_
  obtain ⟨d, hd, hends⟩ := (reachHeld_ends (s := unmirrored (.held n) s) hc hrun hpoint hheld hsettling hack hfua).1
  exact ⟨d, by rw [cmdOf, finish_host]; exact hd, hends⟩

/-! ### APPLY in a pair (R539) -/

/-- APPLYING ends in S4 with the image; the pair's record and the outputs sent are those before. -/
theorem enterApply_beside (src : Nat) (i : Image) (s : State) :
    ∃ u, enterApply src i s = runImage .partner src i (enterStage 3 u) ∧ u.img.firstTried = true ∧ u.pair = s.pair ∧ u.out = s.out := by
  unfold enterApply
  dsimp only
  split
  · exact ⟨_, rfl, rfl, rfl, rfl⟩
  · exact ⟨_, rfl, rfl, rfl, rfl⟩

theorem enterStage_pair (k : Nat) (s : State) : (enterStage k s).pair = s.pair := by
  unfold enterStage
  split <;> rfl

theorem enterStage_out (k : Nat) (s : State) : (enterStage k s).out = s.out := by
  unfold enterStage
  split <;> rfl

theorem runImage_beside (h : s.img.firstTried = true) (cand : Candidate) (src : Nat) (i : Image) :
    (runImage cand src i s).pair = s.pair ∧ (runImage cand src i s).out = s.out := by
  rw [runImage_eq, beforeShown, if_pos h, enterStage_pair, enterStage_out]
  exact ⟨rfl, rfl⟩

theorem pairValidatedEff_passed {i : Image} (hen : pairEn s = true) (hown : isOwner s = true) (hop : s.img.op = .apply)
    (hi : s.img.stagedImage = some i) (hq : getF s Fld.IMG_STATUS_QSTATE = 2) (b : List Byte) :
    pairValidatedEff 0 b s = enterApply (if s.img.stagedByDmp then 5 else 3) i s := by
  simp [pairValidatedEff, hen, hown, hop, hi, hq]

theorem pairValidatedEff_refused {i : Image} (hen : pairEn s = true) (hown : isOwner s = true) (hop : s.img.op = .apply)
    (hi : s.img.stagedImage = some i) (hq : getF s Fld.IMG_STATUS_QSTATE = 2) {code : Nat} (hcode : code ≠ 0) (b : List Byte) :
    pairValidatedEff code b s = imgRefuse 7 code (setOp .none s) := by
  simp [pairValidatedEff, hen, hown, hop, hi, hq, hcode]

section
variable {i : Image} (hen : pairEn s = true) (hown : isOwner s = true) (hop : s.img.op = .apply)
  (hi : s.img.stagedImage = some i) (hq : getF s Fld.IMG_STATUS_QSTATE = 2)
include hen hown hop hi hq

theorem completes_pairApplyPassed (hhold : holding s = false) :
    completes (.pairApplyValidated 0 []) s (fun t => stage t = 4 ∧ t.img.running = some i ∧ t.img.applied = true) := by
  obtain ⟨u, hu, himg, -, -⟩ := enterApply_eq hhold (if s.img.stagedByDmp then 5 else 3) i
  refine completes_of_done (congrArg (done s) ((pairValidatedEff_passed hen hown hop hi hq []).trans hu)) ⟨?_, ?_, ?_⟩
  · rw [stage_finish, stage_runImage]
  · simp [runImage_img, accepted]
  · simp [runImage_img, accepted, himg, applying]

theorem completes_pairApplyRefused {code : Nat} (hcode : code ≠ 0) :
    completes (.pairApplyValidated code []) s (fun t => t.img.op = .none ∧ getF t Fld.IMG_ERR_CODE = code % 256 ∧
      t.img.stagedImage = some i ∧ stage t = stage s) := by
  refine completes_of_done (congrArg (done s) (pairValidatedEff_refused hen hown hop hi hq hcode [])) ⟨?_, ?_, ?_, ?_⟩
  · rw [finish_img]; rfl
  · rw [getF_congr (finish_regs s _)]
    exact getF_imgErr_code _ _ _ _ _
  · rw [finish_img]; exact hi
  · rw [stage_finish]
    refine stage_of_getReg ((getReg_imgErr_ne (by decide) (by decide) _ _ _ _ _).trans ?_)
    exact getReg_setF_ne (f := Fld.IMG_STATUS_BUSY) (by decide) _ _

end

theorem completes_pairApplyPartner (code : Nat) (b : List Byte) (hen : pairEn s = true) (hown : isOwner s = false)
    (hstage : 6 ≤ stage s) (hrun : halted s = false) (hop : s.img.op = .none) :
    completes (.pairApplyValidated code b) s (fun t => match validate s.img.fuses true b with
      | .ok i => t.img.running = some i ∧ stage t = 4 ∧ t.pair.suspended = true ∧ .jokor 0x35 [0] ∈ t.out
      | .fail c _ _ => t.out = s.out ++ [.jokor 0x35 [c]] ∧ t.img = s.img) := by
  have hgo : ¬ (stage s < 6 || halted s || s.img.op ≠ .none) = true := by simp [hstage, hrun, hop]
  cases hv : validate s.img.fuses true b with
  | fail c sec ofs =>
    have heff : pairValidatedEff code b s = emit (.jokor 0x35 [c]) s := by
      unfold pairValidatedEff
      rw [if_neg (by simp [hen]), if_neg (by simp [hown]), if_neg hgo, hv]
    exact completes_of_done (congrArg (done s) heff) ⟨by rw [finish_out]; rfl, by simp⟩
  | ok i =>
    obtain ⟨u, hu, hfirst, hpair, hout⟩ := enterApply_beside 4 i (modPair (fun p => { p with suspended := true }) (emit (.jokor 0x35 [0]) s))
    have hfirst' : (enterStage 3 u).img.firstTried = true := by rw [enterStage_img, hfirst]
    obtain ⟨hrpair, hrout⟩ := runImage_beside hfirst' .partner 4 i
    have heff : pairValidatedEff code b s = runImage .partner 4 i (enterStage 3 u) := by
      unfold pairValidatedEff
      rw [if_neg (by simp [hen]), if_neg (by simp [hown]), if_neg hgo, hv, ← hu]
    refine completes_of_done (congrArg (done s) heff) ⟨?_, ?_, ?_, ?_⟩
    · simp [runImage_img, accepted]
    · rw [stage_finish, stage_runImage]
    · rw [finish_pair, hrpair, enterStage_pair, hpair]; rfl
    · rw [finish_out, hrout, enterStage_out, hout, modPair_out, emit_out]
      exact List.mem_append_right _ (List.mem_singleton.2 rfl)

/-- Settles O54: forwarding, the journal and the mirror each touch their own tables, what a command's acceptance sets going leaves
the numbers and the counts, and a write whose data is held ends at its held point. -/
theorem pairCommandsAndMirror : Obligations.PairCommandsAndMirror := by
  unfold Obligations.PairCommandsAndMirror
  intro s
  refine ⟨fun _ _ _ _ _ hm hin hpf hq hallow _ hroom hlt => completes_forwardedRing hm hin hpf hq hallow hroom hlt,
    fun _ _ _ _ _ _ _ _ hm hok => completes_forwardedMgmt hm hok,
    fun _ hen hown hroom hlt => completes_journalEntry hen hown hroom hlt, fun _ hlt => completes_journalAck hlt,
    fun _ _ _ _ _ _ _ hcs _ hc hfwd haway hseq => completes_forwardResultRing hcs hc hfwd haway hseq,
    completes_forwardResultMgmt, fun hen hown => ⟨completes_mirrorPolicy hen hown, completes_mirrorHeld hen hown, fun k => ?_,
      fun u e q hu => completes_mirrorUnit hen hown hu e q, fun v x => ?_⟩,
    fun _ hu => completes_mirrorAckUnit hu,
    fun _ _ hn _ hc hsettling _ hrun hpoint hheld hfua => completes_mirrorAckHeld hn hc hsettling hrun hpoint hheld hfua,
    fun _ _ hen hown hop hi hq hhold => ⟨completes_pairApplyPassed hen hown hop hi hq hhold,
      fun hcode => completes_pairApplyRefused hen hown hop hi hq hcode⟩,
    fun code b hen hown hstage hrun hop => completes_pairApplyPartner code b hen hown hstage hrun hop,
    completes_of_done rfl ⟨by rw [finish_pair]; rfl, by rw [finish_regs]; rfl, by rw [finish_out]; rfl⟩⟩
  · exact completes_mirrorReceive hen hown _ ⟨congrArg Volume.knotOut (volOf_finish_modVol k.vol _ s _), by rw [finish_out]; rfl⟩
  · exact completes_mirrorReceive hen hown _ ⟨volOf_finish_modVol v _ s _, by rw [finish_out]; rfl⟩

end Sys2Proof.Proofs
end

section
/-! What the unit sequencer does with the request that it takes (R362, R480, R502, R505, R506, R508, R580). -/

namespace Sys2Proof.Proofs

open Sys2Proof Sys2Proof.Machine Sys2Proof.Safety

variable {s t : State} {r : UnitReq} {n : Nat} {c : Cmd}

/-! ### The request at the head (R396, R502) -/

/-- A command as the sequencer takes it. -/
def takenCmd (c : Cmd) : Cmd := { c with taken := true, state := .running, pnr := true }

theorem takeHead_keeps {β : Type} {P : State → β} (hwait : ∀ w (s : State), P { s with unt := { s.unt with waiting := w } } = P s)
    (hcmd : ∀ k s, P (modCmd k takenCmd s) = P s) (hout : ∀ o s, P (emit o s) = P s) (hcnt : ∀ s, P (bump Reg.UNT_CNT 1 s) = P s)
    (r : UnitReq) (s : State) : P (takeHead r s) = P s := by
  refine (hcnt _).trans ?_
  split
  · next k _ =>
    have htaken := (hcmd k _).trans (hwait ((s.unt.waiting.dropWhile (deadReq s)).drop 1) s)
    exact keeps_ite P ((hout _ _).trans htaken) htaken
  · exact hwait _ s

theorem beyondWork_takeHead (r : UnitReq) (s : State) : beyondWork (takeHead r s) = beyondWork s := by
  refine takeHead_keeps (fun _ _ => rfl) (fun k s => ?_) (fun _ _ => rfl) (fun _ => rfl) r s
  unfold modCmd
  split <;> rfl

theorem takeHead_tab (r : UnitReq) (s : State) : (takeHead r s).unt.tab = s.unt.tab := by
  have hb := congrArg (fun b : State => b.unt.tab) (beyondWork_takeHead r s)
  exact hb

theorem takeHead_cal (r : UnitReq) (s : State) : (takeHead r s).cal = s.cal := by
  have hb := congrArg (fun b : State => b.cal) (beyondWork_takeHead r s)
  exact hb

theorem takeHead_img (r : UnitReq) (s : State) : (takeHead r s).img = s.img := by
  have hb := congrArg (fun b : State => b.img) (beyondWork_takeHead r s)
  exact hb

theorem takeHead_pwr (r : UnitReq) (s : State) : (takeHead r s).pwr = s.pwr := by
  have hb := congrArg (fun b : State => b.pwr) (beyondWork_takeHead r s)
  exact hb

theorem takeHead_partnerSensed (r : UnitReq) (s : State) : partnerSensed (takeHead r s) = partnerSensed s := by
  have hb := congrArg partnerSensed (beyondWork_takeHead r s)
  exact hb

theorem takeHead_discSensed (r : UnitReq) (s : State) : discSensed (takeHead r s) = discSensed s := by
  have hb := congrArg discSensed (beyondWork_takeHead r s)
  exact hb

theorem takeHead_media (r : UnitReq) (s : State) : (takeHead r s).media = s.media :=
  takeHead_keeps (fun _ _ => rfl) (fun _ _ => modCmd_media _ _ _) (fun _ _ => rfl) (fun _ => rfl) r s

theorem onTag_takeHead (hsender : r.sender = .ring n) (hc : onTag s n c) : onTag (takeHead r s) n (takenCmd c) := by
  obtain ⟨hcmd, hheard⟩ := hc
  obtain ⟨u, hu⟩ : ∃ u, u = { s with unt := { s.unt with waiting := (s.unt.waiting.dropWhile (deadReq s)).drop 1 } } := ⟨_, rfl⟩
  have hcmds : (takeHead r s).host.cmds = (modCmd n takenCmd u).host.cmds := by
    unfold takeHead
    rw [hsender, ← hu]
    dsimp only
    exact keeps_ite (·.host.cmds) rfl rfl
  refine ⟨?_, hheard⟩
  rw [cmdOf, hcmds]
  exact cmdOf_modCmd_same (s := u) (by rw [hu]; exact hcmd) takenCmd

theorem unitOf_takeHead (r : UnitReq) (s : State) (u : Nat) : unitOf (takeHead r s) u = unitOf s u := by
  rw [unitOf, takeHead_tab, unitOf]

theorem ust_takeHead (r : UnitReq) (s : State) (u : Nat) : ust (takeHead r s) u = ust s u := congrArg UnitEntry.state (unitOf_takeHead r s u)

theorem heldBackUnit_takeHead (r : UnitReq) (s : State) (u : Nat) : heldBackUnit (takeHead r s) u = heldBackUnit s u := by
  rw [heldBackUnit, takeHead_img, heldBackUnit]

theorem takeReq_of_taking {k : ReqKind} {code : Nat} (h : taking s k code r) (f : UnitReq → State → State) :
    takeReq k code f s = f r (takeHead r s) := by
  obtain ⟨hhead, hkind, hcode, hpass⟩ := h
  have hcheck : takeCheck (takeHead r s) r = none := by
    rw [← hpass, takeCheck, takeCheck, calHolds, calHolds, unitOf_takeHead, takeHead_cal]
  unfold takeReq
  rw [hhead]
  dsimp only
  rw [if_pos (by simp [hkind, hcode]), hcheck]

/-! ### What a request ends with (R362, R506) -/

theorem finishReq_success (hsender : r.sender = .ring n) (hc : onTag s n c) :
    ∃ v, finishReq r .success s = endCmd n .success (unitOf s r.unit).epoch.toNat v ∧ onTag v n c ∧
      (c.remote = false → c.cmd.dataAddr ≠ 0 → .hostWrite c.fn c.cmd.dataAddr (unitReport s r.unit) ∈ v.out) := by
  obtain ⟨hcmd, hsilent, hdetached⟩ := hc
  obtain ⟨v, hv⟩ : ∃ v, v =
    (if (c.cmd.dataAddr ≠ 0 && Status.success ≠ .invalidField && Status.success ≠ .aborted && !c.detached && !c.silent) = true
    then (if c.remote then emit (.jokor 0x21 (n :: (unitReport s r.unit).map (·.toNat))) s
      else emit (.hostWrite c.fn c.cmd.dataAddr (unitReport s r.unit)) s) else s) := ⟨_, rfl⟩
  have hkeep {β : Type} (P : State → β) (hP : ∀ o, P (emit o s) = P s) : P v = P s := by
    rw [hv]
    exact keeps_ite P (keeps_ite P (hP _) (hP _)) rfl
  have heq : finishReq r .success s = endCmd n .success (unitResult v r.unit .success) v := by
    unfold finishReq
    dsimp only
    rw [if_neg (by decide), if_neg (by decide), hsender]
    dsimp only
    rw [hcmd, hv]
  have hresult : unitResult v r.unit .success = (unitOf s r.unit).epoch.toNat := by
    rw [unitResult, if_pos (by decide), unitOf, hkeep State.unt fun _ => rfl, unitOf]
  refine ⟨v, heq.trans (by rw [hresult]), ⟨by rw [cmdOf, hkeep State.host fun _ => rfl]; exact hcmd, hsilent, hdetached⟩,
    fun hremote haddr => ?_⟩
  rw [hv, if_pos (by simp [hsilent, hdetached, haddr]), if_neg (by simp [hremote])]
  exact List.mem_append_right _ (List.mem_singleton.2 rfl)

theorem endedAs_finishReq_takeHead (hsender : r.sender = .ring n) (hc : onTag s n c) :
    endedAs (finish s (finishReq r .success (takeHead r s))) n .success (unitOf s r.unit).epoch.toNat ∧
      (c.remote = false → c.cmd.dataAddr ≠ 0 →
        .hostWrite c.fn c.cmd.dataAddr (unitReport s r.unit) ∈ (finish s (finishReq r .success (takeHead r s))).out) := by
  obtain ⟨v, heq, htag, hout⟩ := finishReq_success hsender (onTag_takeHead hsender hc)
  have hreport : unitReport (takeHead r s) r.unit = unitReport s r.unit := by
    rw [unitReport, unitOf_takeHead, unitReport]
  rw [heq, unitOf_takeHead]
  obtain ⟨d, hd, hends⟩ := endedAs_endCmd htag (show (takenCmd c).state ≠ .ended by simp [takenCmd]) .success
    (unitOf s r.unit).epoch.toNat
  refine ⟨⟨d, by rw [cmdOf, finish_host]; exact hd, hends⟩, fun hremote haddr => ?_⟩
  rw [finish_out, ← hreport]
  exact (commandWork.refl v).endCmd.out.subset (hout hremote haddr)

theorem completes_readyServing (hsender : r.sender = .ring n) (hc : onTag s n c) (htaking : taking s .request 0x03 r)
    (hserves : (ust s r.unit).serves = true) :
    completes .unitRequestReady s (fun t => endedAs t n .success (unitOf s r.unit).epoch.toNat ∧ t.unt.tab = s.unt.tab) := by
  have heff : unitReadyEff s = finishReq r .success (takeHead r s) := by
    rw [unitReadyEff, takeReq_of_taking htaking, readyReq, ust_takeHead]
    exact if_pos hserves
  refine completes_of_done (congrArg (done s) heff) ⟨(endedAs_finishReq_takeHead hsender hc).1, ?_⟩
  rw [finish_unt, tab_of_still (still_finishReq _ _ _), takeHead_tab]

theorem volumeReport_takeHead (r : UnitReq) (s : State) (v : Nat) : volumeReport (takeHead r s) v = volumeReport s v := by
  unfold volumeReport
  rw [ust_takeHead, unitOf_takeHead, volOf, takeHead_media, ← volOf]

section
variable (hhead : headReq s = some r) (hsender : r.sender = .ring n) (hc : onTag s n c)
include hhead hsender hc

theorem completes_unitQuery (hkind : r.kind = .query) :
    completes .unitQuery s (fun t => endedAs t n .success (unitOf s r.unit).epoch.toNat ∧
      (c.remote = false → c.cmd.dataAddr ≠ 0 → .hostWrite c.fn c.cmd.dataAddr (unitReport s r.unit) ∈ t.out)) := by
  have heff : unitQueryEff s = finishReq r .success (takeHead r s) := by
    rw [unitQueryEff, hhead]
    exact if_pos hkind
  refine completes_of_done (congrArg (done s) heff) (endedAs_finishReq_takeHead hsender hc)

theorem completes_volumeInfo (hkind : r.kind = .info) :
    completes .volumeInfo s (fun t => endedAs t n .success 0 ∧
      (c.remote = false → .hostWrite c.fn c.cmd.dataAddr (volumeReport s (r.unit - 0x40)) ∈ t.out)) := by
  have htag := onTag_takeHead hsender hc
  obtain ⟨hcmd, hsilent, hdetached⟩ := htag
  obtain ⟨v, hv⟩ : ∃ v, v = (if (takenCmd c).remote
    then emit (.jokor 0x21 (n :: (volumeReport s (r.unit - 0x40)).map (·.toNat))) (takeHead r s)
    else emit (.hostWrite c.fn c.cmd.dataAddr (volumeReport s (r.unit - 0x40))) (takeHead r s)) := ⟨_, rfl⟩
  have heff : volumeInfoEff s = endCmd n .success 0 v := by
    unfold volumeInfoEff
    rw [hhead]
    dsimp only
    rw [if_neg (not_not.2 hkind), hsender]
    dsimp only
    rw [hcmd]
    dsimp only
    rw [if_neg (by simp [hsilent, hdetached]), volumeReport_takeHead, hv]
    rfl
  have hcmdv : cmdOf v n = some (takenCmd c) := by
    rw [hv]
    exact keeps_ite (cmdOf · n) hcmd hcmd
  refine completes_of_done (congrArg (done s) heff) ⟨?_, fun hremote => ?_⟩
  · obtain ⟨d, hd, hends⟩ := endedAs_endCmd ⟨hcmdv, hsilent, hdetached⟩
      (show (takenCmd c).state ≠ .ended by simp [takenCmd]) .success 0
    exact ⟨d, by rw [cmdOf, finish_host]; exact hd, hends⟩
  · rw [finish_out]
    refine (commandWork.refl v).endCmd.out.subset ?_
    rw [hv, if_neg (by simp [takenCmd, hremote])]
    exact List.mem_append_right _ (List.mem_singleton.2 rfl)

end

/-! ### Changes that a request makes, with no calibration under way -/

theorem ust_changeUnit_calm {u : Nat} (hu : u < 0x40) (hcal : s.cal.running = []) (tgt : UState) (why : Reason) (src : Source) (q : Nat) :
    ust (changeUnit u tgt why src q s) u = tgt := by
  have hsweep : calSweep (changeUnit0 u tgt why src q s) = changeUnit0 u tgt why src q s := by
    unfold calSweep
    rw [cal_changeUnit0, hcal]
    rfl
  rw [changeUnit, hsweep, ust_changeUnit0_same hu]

section
variable (hcal : noRuns s) (hu : r.unit < 0x40)
include hcal hu

theorem ust_reqDone (tgt : UState) : ust (reqDone r tgt s) r.unit = tgt := ust_changeUnit_calm (s := openReq r s) hu hcal _ _ _ _

theorem ust_reqChange_openReq (tgt : UState) : ust (reqChange r tgt (openReq r s)) r.unit = tgt :=
  ust_changeUnit_calm (s := openReq r s) hu hcal _ _ _ _

end

theorem ust_sealAll_modDisc (f : DiscState → DiscState) (s : State) (u : Nat) : ust (sealAll (modDisc f s)) u = ust s u := by
  have hb := congrArg (fun b : State => ust b u) (commandWork.refl (modDisc f s)).sealAll.beyond
  exact hb

/-- What changes of the drive and of the slots keep, the start of the drive keeps. -/
theorem spnStartEff_keeps {β : Type} {P : State → β} (hslot : ∀ k f s, P (modSlot k f s) = P s) (hspn : ∀ f s, P (modSpn f s) = P s)
    (hpins : ∀ p (s : State), P { s with pins := p } = P s) (hcnt : ∀ s, P (bump Reg.SPN_CNT 0 s) = P s) (s : State) :
    P (spnStartEff s) = P s := by
  unfold spnStartEff
  extract_lets cfg div v
  refine keeps_ite P ?_ rfl
  refine Eq.trans (b := P (bump Reg.SPN_CNT 0 v)) ?_ ((hcnt v).trans (hspn _ s))
  unfold enterCoast setPhase disableSpindleLoops
  refine (hspn _ _).trans ((hspn _ _).trans ((forEach_keeps P disableSlot (disableSlot_keeps hslot) _ _).trans ?_))
  exact (hpins _ _).trans (hspn _ _)

theorem loopClrFaultEff_keeps {β : Type} {P : State → β} (hslot : ∀ k f s, P (modSlot k f s) = P s) (k : Nat) (s : State) :
    P (loopClrFaultEff k s) = P s := by
  unfold loopClrFaultEff
  split
  · exact keeps_ite P (hslot _ _ _) rfl
  · rfl

/-- The drive's faults are cleared before the spindle starts. -/
def spindleCleared (s : State) : State :=
  forEach (fun o s => match o with | some k => loopClrFaultEff k s | none => s)
    [speedSlot (spnClrFaultEff s), currentSlot (spnClrFaultEff s)] (spnClrFaultEff s)

theorem spindleCleared_keeps {β : Type} {P : State → β} (hslot : ∀ k f s, P (modSlot k f s) = P s)
    (hspn : ∀ f s, P (modSpn f s) = P s) (s : State) : P (spindleCleared s) = P s := by
  refine (forEach_keeps P _ (fun o s => ?_) _ _).trans (keeps_ite P ((hspn _ _).trans (hspn _ _)) rfl)
  split
  · exact loopClrFaultEff_keeps hslot _ s
  · rfl

theorem ust_startSpindle (hcal : noRuns s) (hu : r.unit = uSpindle) : ust (startSpindle r s) uSpindle = .starting := by
  obtain ⟨v, hv⟩ : ∃ v, v = reqChange r .starting (openReq r (spindleCleared s)) := ⟨_, rfl⟩
  have hruns : noRuns (spindleCleared s) :=
    (congrArg CalState.running (spindleCleared_keeps (P := State.cal) (fun _ _ _ => rfl) (fun _ _ => rfl) s)).trans hcal
  have hstarting : ust v uSpindle = .starting := by
    have h := ust_reqChange_openReq (r := r) hruns (by rw [hu]; decide) .starting
    rw [hv]
    rwa [hu] at h
  have heq : startSpindle r s = if (spn v).phase = .stopped then spnStartEff v else v := by rw [hv]; rfl
  rw [heq]
  refine keeps_ite (ust · uSpindle) ?_ hstarting
  rw [ust_of_unt (spnStartEff_keeps (P := State.unt) (fun _ _ _ => rfl) (fun _ _ => rfl) (fun _ _ => rfl) (fun _ => rfl) v), hstarting]

theorem completes_readySpindle (hcal : noRuns s) (htaking : taking s .request 0x03 r) (hback : heldBackUnit s r.unit = false)
    (hspindle : r.unit = uSpindle) (hoffline : ust s uSpindle = .offline) :
    completes .unitRequestReady s (fun t => ust t uSpindle = .starting) := by
  have hruns : noRuns (takeHead r s) := (congrArg CalState.running (takeHead_cal r s)).trans hcal
  have heff : unitReadyEff s = startSpindle r (takeHead r s) := by
    unfold unitReadyEff
    rw [takeReq_of_taking htaking]
    unfold readyReq
    rw [hspindle] at hback
    simp [ust_takeHead, heldBackUnit_takeHead, hback, hspindle, hoffline, UState.serves, show uSpindle ≠ uPartner by decide,
      show isCar uSpindle = false by decide]
  refine completes_of_done (congrArg (done s) heff) ?_
  rw [ust_finish]
  exact ust_startSpindle hruns hspindle

theorem ne_of_serves {x : UState} (h : x.serves = true) :
    x ≠ .offline ∧ x ≠ .absent ∧ x ≠ .faulted ∧ x ≠ .suspect ∧ x ≠ .service := by
  cases x <;> simp_all [UState.serves]

/-- Sides and strands are neither the partner nor the spindle, the disc or a carriage. -/
theorem apart_of_sideOrStrand {u : Nat} (h : (isSide u || isStrand u) = true) :
    u ≠ uPartner ∧ u ≠ uSpindle ∧ u ≠ uDisc ∧ isCar u = false := by
  have hu : (u = 1 ∨ u = 2) ∨ 32 ≤ u := by
    simp only [isSide, isStrand, Bool.or_eq_true, Bool.and_eq_true, beq_iff_eq, decide_eq_true_eq] at h
    omega
  have hcar : ¬ (4 ≤ u ∧ u ≤ 7) := by omega
  refine ⟨?_, ?_, ?_, by simpa [isCar] using hcar⟩
  · unfold uPartner; omega
  · unfold uSpindle; omega
  · unfold uDisc; omega

section
variable (hcal : noRuns s) (hu : r.unit < 0x40)
include hcal hu

theorem completes_offlineServing (htaking : taking s .request 0x01 r) (hpartner : r.unit ≠ uPartner)
    (hserves : (ust s r.unit).serves = true) : completes .unitRequestOffline s (fun t => ust t r.unit = .draining) := by
  have hruns : noRuns (takeHead r s) := (congrArg CalState.running (takeHead_cal r s)).trans hcal
  have heff : unitOfflineEff s = (if r.unit = uDisc
      then sealAll (modDisc (fun d => { d with commitAll := true }) (reqChange r .draining (openReq r (takeHead r s))))
      else reqChange r .draining (openReq r (takeHead r s))) := by
    unfold unitOfflineEff
    rw [takeReq_of_taking htaking]
    unfold offlineReq
    simp [ust_takeHead, hpartner, hserves, ne_of_serves hserves]
  refine completes_of_done (congrArg (done s) heff) ?_
  rw [ust_finish]
  have hdraining := ust_reqChange_openReq (r := r) hruns hu .draining
  exact keeps_ite (ust · r.unit) ((ust_sealAll_modDisc _ _ _).trans hdraining) hdraining

theorem completes_offlineStarting (htaking : taking s .request 0x01 r) (hkind : (isSide r.unit || isStrand r.unit) = true)
    (hstarting : ust s r.unit = .starting) : completes .unitRequestOffline s (fun t => ust t r.unit = .offline) := by
  have hruns : noRuns (takeHead r s) := (congrArg CalState.running (takeHead_cal r s)).trans hcal
  obtain ⟨hpartner, hspindle, hdisc, hcar⟩ := apart_of_sideOrStrand hkind
  have heff : unitOfflineEff s = reqDone r .offline (takeHead r s) := by
    unfold unitOfflineEff
    rw [takeReq_of_taking htaking]
    unfold offlineReq goOffline
    simp [ust_takeHead, hpartner, hstarting, hspindle, hdisc, hcar, UState.serves]
  refine completes_of_done (congrArg (done s) heff) ?_
  rw [ust_finish]
  exact ust_reqDone hruns hu .offline

theorem completes_readyBuffer (htaking : taking s .request 0x03 r) (hbuf : isBuf r.unit = true) (hservice : ust s r.unit = .service) :
    completes .unitRequestReady s (fun t => ust t r.unit = .ready) := by
  have hruns : noRuns (takeHead r s) := (congrArg CalState.running (takeHead_cal r s)).trans hcal
  have hback : heldBackUnit s r.unit = false := by
    have hcases : r.unit = 10 ∨ r.unit = 11 := by simpa [isBuf] using hbuf
    rcases hcases with h | h <;> simp [heldBackUnit, h, uDisc, uSpindle, isSide, isCar, isStrand]
  have heff : unitReadyEff s = reqDone r .ready (takeHead r s) := by
    unfold unitReadyEff
    rw [takeReq_of_taking htaking]
    unfold readyReq
    have hcases : r.unit = 10 ∨ r.unit = 11 := by simpa [isBuf] using hbuf
    rcases hcases with h | h <;> rw [h] at hback hservice <;>
      simp [ust_takeHead, heldBackUnit_takeHead, hback, h, hservice, UState.serves, uSpindle, uPartner, uDisc, isCar, isSide, isStrand, isBuf]
  refine completes_of_done (congrArg (done s) heff) ?_
  rw [ust_finish]
  exact ust_reqDone hruns hu .ready

theorem completes_serviceServing (htaking : taking s .request 0x07 r) (hback : heldBackUnit s r.unit = false)
    (hbuf : isBuf r.unit = false) (hserves : (ust s r.unit).serves = true) :
    completes .unitRequestService s (fun t => ust t r.unit = .draining) := by
  have hruns : noRuns (takeHead r s) := (congrArg CalState.running (takeHead_cal r s)).trans hcal
  have heff : unitServiceEff s = reqChange r .draining (openReq r (takeHead r s)) := by
    unfold unitServiceEff
    rw [takeReq_of_taking htaking]
    unfold serviceReq
    simp [ust_takeHead, heldBackUnit_takeHead, hback, hbuf, hserves, ne_of_serves hserves]
  refine completes_of_done (congrArg (done s) heff) ?_
  rw [ust_finish]
  exact ust_reqChange_openReq hruns hu .draining

theorem completes_serviceOffline (htaking : taking s .request 0x07 r) (hback : heldBackUnit s r.unit = false)
    (hbuf : isBuf r.unit = false) (hoffline : ust s r.unit = .offline) :
    completes .unitRequestService s (fun t => ust t r.unit = .service) := by
  have hruns : noRuns (takeHead r s) := (congrArg CalState.running (takeHead_cal r s)).trans hcal
  have heff : unitServiceEff s = reqDone r .service (takeHead r s) := by
    unfold unitServiceEff
    rw [takeReq_of_taking htaking]
    unfold serviceReq
    simp [ust_takeHead, heldBackUnit_takeHead, hback, hbuf, hoffline, UState.serves]
  refine completes_of_done (congrArg (done s) heff) ?_
  rw [ust_finish]
  exact ust_reqDone hruns hu .service

theorem completes_bufferService (hasked : s.unt.bufService = [r]) (hready : ust s r.unit = .ready)
    (hheld : heldLeft s = false) (hothers : othersEnded s r = true) :
    completes .bufferChannelServiceReady s (fun t => ust t r.unit = .service ∧ t.unt.bufService = []) := by
  obtain ⟨v, hv⟩ : ∃ v, v = reqDone r .service s := ⟨_, rfl⟩
  have heff : bufServiceReadyEff s = commitOff { v with unt := { v.unt with bufService := [] } } := by
    unfold bufServiceReadyEff
    rw [hasked]
    dsimp only
    rw [if_neg (by rw [hready]; decide), if_neg (by simp [hheld]), if_neg (by simp [hothers]), ← hv]
  have hunt : (commitOff { v with unt := { v.unt with bufService := [] } }).unt = { v.unt with bufService := [] } :=
    keeps_ite State.unt rfl rfl
  refine completes_of_done (congrArg (done s) heff) ⟨?_, ?_⟩
  · rw [ust_finish, ust, unitOf, hunt]
    have hservice := ust_reqDone (r := r) hcal hu .service
    rw [← hv] at hservice
    exact hservice
  · rw [finish_unt, hunt]

theorem ust_suspectUnit (h : ust s r.unit ≠ .suspect) (why : Reason) (d : Doubt) (claim : Bool) :
    ust (suspectUnit r.unit why d claim s) r.unit = .suspect := by
  rw [suspectUnit, if_neg h]
  exact ust_changeUnit_calm (s := { s with unt := { s.unt with tab := Tbl.put {} r.unit _ s.unt.tab } }) hu hcal _ _ _ _

/-- An assertion against what is sensed makes the unit SUSPECT, with its event. -/
theorem assertReq_conflict (claim answers : Bool) (hagainst : sensedNow s r.unit answers = !claim) (hknown : ust s r.unit ≠ .suspect) :
    ust (assertReq claim answers r (takeHead r s)) r.unit = .suspect ∧
      flag (assertReq claim answers r (takeHead r s)) Fld.UNT_EVT_STATE_CONFLICT = true := by
  have hruns : noRuns (takeHead r s) := (congrArg CalState.running (takeHead_cal r s)).trans hcal
  have hsensed : sensedNow (takeHead r s) r.unit answers = !claim := by
    rw [← hagainst, sensedNow, sensedNow, takeHead_discSensed, takeHead_partnerSensed]
  have hne : ust (takeHead r s) r.unit ≠ .suspect := by rwa [ust_takeHead]
  obtain ⟨u, hu'⟩ : ∃ u, u = suspectUnit r.unit .conflict .conflict claim (takeHead r s) := ⟨_, rfl⟩
  obtain ⟨v, hv⟩ : ∃ v, v = evt Fld.UNT_EVT_STATE_CONFLICT r.unit
    [⟨1, r.unit⟩, ⟨1, r.code⟩, ⟨1, if (!claim) = true then 1 else 0⟩] (bump Reg.UNT_CNT 4 u) := ⟨_, rfl⟩
  have heq : assertReq claim answers r (takeHead r s) = finishReq r .success v := by
    unfold assertReq
    dsimp only
    rw [hsensed, if_neg (by simp [hne]), if_neg hne, if_neg (by cases claim <;> decide), hv, hu']
  rw [heq]
  constructor
  · rw [ust, unitOf_of_still (still_finishReq _ _ _), hv, unitOf, evt_unt, bump_unt, hu']
    exact ust_suspectUnit hruns hu hne _ _ _
  · rw [flag_of_getF (getF_of_getReg ((commandWork.refl v).finishReq.regs _ (by decide))), hv]
    exact flag_evt_same (by decide) rfl (by decide) _ _ _

theorem completes_assertPresent {answers : Bool} (htaking : taking s .request 0x10 r) (hsensed : sensedNow s r.unit answers = false)
    (hknown : ust s r.unit ≠ .suspect) :
    completes (.assertPresent answers) s (fun t => ust t r.unit = .suspect ∧ flag t Fld.UNT_EVT_STATE_CONFLICT = true) := by
  obtain ⟨hsuspect, hflag⟩ := assertReq_conflict hcal hu true answers hsensed hknown
  exact completes_of_done (congrArg (done s) (takeReq_of_taking htaking _))
    ⟨(ust_finish _ _ _).trans hsuspect, (flag_finish _ _ _).trans hflag⟩

theorem completes_assertAbsent {answers : Bool} (htaking : taking s .request 0x11 r) (hsensed : sensedNow s r.unit answers = true)
    (hknown : ust s r.unit ≠ .suspect) :
    completes (.assertAbsent answers) s (fun t => ust t r.unit = .suspect ∧ flag t Fld.UNT_EVT_STATE_CONFLICT = true) := by
  obtain ⟨hsuspect, hflag⟩ := assertReq_conflict hcal hu false answers hsensed hknown
  exact completes_of_done (congrArg (done s) (takeReq_of_taking htaking _))
    ⟨(ust_finish _ _ _).trans hsuspect, (flag_finish _ _ _).trans hflag⟩

theorem completes_drainComplete (hdraining : ust s r.unit = .draining) (hover : drainOver s r.unit = true)
    (holdest : s.unt.open_.find? (fun q => q.unit == r.unit && (q.code == 0x01 || q.code == 0x07)) = some r) :
    completes (.drainComplete r.unit) s (fun t => (r.code = 0x07 → ust t r.unit = .service) ∧
      ((isSide r.unit || isStrand r.unit) = true → r.code = 0x01 → ust t r.unit = .offline)) := by
  have heff : drainCompleteEff r.unit s = drainForReqs r.unit s := by
    unfold drainCompleteEff
    rw [if_neg (by simp [hdraining, hover]), hcal]
    rfl
  refine completes_of_done (congrArg (done s) heff) ⟨fun hcode => ?_, fun hkind hcode => ?_⟩
  · rw [ust_finish, drainForReqs, holdest]
    dsimp only
    rw [if_neg (by rw [hcode]; decide)]
    exact ust_changeUnit_calm hu hcal _ _ _ _
  · obtain ⟨-, hspindle, hdisc, hcar⟩ := apart_of_sideOrStrand hkind
    rw [ust_finish, drainForReqs, holdest]
    dsimp only
    rw [if_pos hcode, if_neg (by simp [hcar]), if_neg hspindle, if_neg hdisc]
    exact ust_changeUnit_calm hu hcal _ _ _ _

end

/-- Settles O41: the requests one by one, each taken from the head of the sequencer and then followed through its branch. -/
theorem unitRequestsAct : Obligations.UnitRequestsAct := by
  unfold Obligations.UnitRequestsAct
  intro s r
  refine ⟨fun n c hhead hsender hc _ => ⟨fun hkind => completes_unitQuery hhead hsender hc hkind,
    fun hkind => completes_volumeInfo hhead hsender hc hkind, fun htaking hserves => completes_readyServing hsender hc htaking hserves⟩,
    fun hcal hu => ?_⟩
  exact ⟨fun htaking hpartner hserves => completes_offlineServing hcal hu htaking hpartner hserves,
    fun htaking hkind hstarting => completes_offlineStarting hcal hu htaking hkind hstarting,
    fun htaking hback hspindle hoffline => completes_readySpindle hcal htaking hback hspindle hoffline,
    fun htaking hbuf hservice => completes_readyBuffer hcal hu htaking hbuf hservice,
    fun htaking hback hbuf hserves => completes_serviceServing hcal hu htaking hback hbuf hserves,
    fun htaking hback hbuf hoffline => completes_serviceOffline hcal hu htaking hback hbuf hoffline,
    fun hasked _ hready hheld hothers => completes_bufferService hcal hu hasked hready hheld hothers,
    fun _ htaking hsensed hknown => completes_assertPresent hcal hu htaking hsensed hknown,
    fun _ htaking hsensed hknown => completes_assertAbsent hcal hu htaking hsensed hknown,
    fun hdraining hover holdest => completes_drainComplete hcal hu hdraining hover holdest⟩

end Sys2Proof.Proofs
end

section
/-! What a change of a unit reaches, with the ends of commands, of requests and of calibrations that follow it (R496, R503): said
once, as the work of the ends of commands is. -/

namespace Sys2Proof.Proofs

open Sys2Proof Sys2Proof.Machine Sys2Proof.Safety

variable {u s t : State}

/-- The state without what a change of a unit, and what follows it, may write. -/
def beyondUnits (s : State) : State :=
  { beyondWork s with
    unt := { bufService := s.unt.bufService }, cal := {}
    mot := { s.mot with spn := { s.mot.spn with calib := none } } }

/-- The registers that a change of a unit may write while no calibration runs. -/
def stateRegs : List Nat :=
  workRegs ++ [Reg.UNT_EVT, Reg.UNT_CNT, Reg.UNT_CNT + 4, Reg.UNT_CNT + 8, Reg.UNT_CNT + 16, Reg.UNT_CNT + 28, Reg.DEC_IMP_STATUS,
    Reg.DEC_IMP_REACH, Reg.DEC_IMP_REACH + 4, Reg.DEC_IMP_REACH + 8, Reg.DEC_IMP_REACH + 12]

/-- Those that the end of a calibration may write. -/
def unitRegs : List Nat :=
  stateRegs ++ [Reg.CAL_LAST, Reg.CAL_CNT, Reg.CAL_CNT + 4, Reg.CAL_CNT + 8, Reg.CAL_CNT + 12, Reg.CAL_EVT]

/-- The state s is u after changes of units, with the calibrations that they end. -/
structure unitReach (u s : State) : Prop where
  beyond : beyondUnits s = beyondUnits u
  regs : ∀ off, off ∉ unitRegs → getReg s off = getReg u off
  out : u.out <+: s.out
  tags : ∀ {P : Cmd → Prop} {n : Nat}, Lasting P → tagHas P u n → tagHas P s n

/-- The state s is u after changes of units; where no calibration runs in u, none ends. -/
structure unitWork (u s : State) : Prop where
  reach : unitReach u s
  calm : u.cal.running = [] → s.cal = u.cal ∧ ∀ off, off ∉ stateRegs → getReg s off = getReg u off

theorem stateRegs_of_workRegs {off : Nat} (h : off ∈ workRegs) : off ∈ stateRegs := List.mem_append_left _ h
theorem unitRegs_of_stateRegs {off : Nat} (h : off ∈ stateRegs) : off ∈ unitRegs := List.mem_append_left _ h

theorem beyondUnits_of_work (h : beyondWork t = beyondWork s) : beyondUnits t = beyondUnits s := by
  have hb := congrArg beyondUnits h
  exact hb

theorem unitReach.trans (h : unitReach u s) (h' : unitReach s t) : unitReach u t :=
  ⟨h'.beyond.trans h.beyond, fun off ho => (h'.regs off ho).trans (h.regs off ho), h.out.trans h'.out,
    fun hP hu => h'.tags hP (h.tags hP hu)⟩

theorem unitWork.trans (h : unitWork u s) (h' : unitWork s t) : unitWork u t := by
  refine ⟨h.reach.trans h'.reach, fun hcalm => ?_⟩
  obtain ⟨hcal, hregs⟩ := h.calm hcalm
  obtain ⟨hcal', hregs'⟩ := h'.calm (hcal ▸ hcalm)
  exact ⟨hcal'.trans hcal, fun off ho => (hregs' off ho).trans (hregs off ho)⟩

theorem commandWork.reach (h : commandWork s t) : unitReach s t :=
  ⟨beyondUnits_of_work h.beyond, fun off ho => h.regs off fun hw => ho (unitRegs_of_stateRegs (stateRegs_of_workRegs hw)), h.out, h.tags⟩

theorem commandWork.unitWork (h : commandWork s t) : unitWork s t := by
  refine ⟨h.reach, fun _ => ⟨?_, fun off ho => h.regs off fun hw => ho (stateRegs_of_workRegs hw)⟩⟩
  have hb := congrArg State.cal h.beyond
  exact hb

theorem unitReach.refl (s : State) : unitReach s s := (commandWork.refl s).reach
theorem unitWork.refl (s : State) : unitWork s s := (commandWork.refl s).unitWork

theorem unitReach.work (h : unitReach u s) (h' : commandWork s t) : unitReach u t := h.trans h'.reach
theorem unitWork.work (h : unitWork u s) (h' : commandWork s t) : unitWork u t := h.trans h'.unitWork

/-- A step that changes registers and what beyondUnits sets aside, but no command. -/
theorem unitReach.beside (h : unitReach u s) (hb : beyondUnits t = beyondUnits s)
    (hr : ∀ off, off ∉ unitRegs → getReg t off = getReg s off) (ho : s.out <+: t.out) (hc : t.host.cmds = s.host.cmds) :
    unitReach u t := h.trans ⟨hb, hr, ho, fun _ hs => tagHas_congr hc hs⟩

theorem unitWork.beside (h : unitWork u s) (hb : beyondUnits t = beyondUnits s)
    (hr : ∀ off, off ∉ stateRegs → getReg t off = getReg s off) (ho : s.out <+: t.out) (hc : t.host.cmds = s.host.cmds)
    (hcal : t.cal = s.cal) : unitWork u t :=
  h.trans ⟨(unitReach.refl s).beside hb (fun off hoff => hr off fun hw => hoff (unitRegs_of_stateRegs hw)) ho hc, fun _ => ⟨hcal, hr⟩⟩

theorem unitWork.ite {c : Prop} {_ : Decidable c} (hs : unitWork u s) (ht : unitWork u t) : unitWork u (if c then s else t) := by
  split
  · exact hs
  · exact ht

theorem unitReach.ite {c : Prop} {_ : Decidable c} (hs : unitReach u s) (ht : unitReach u t) : unitReach u (if c then s else t) := by
  split
  · exact hs
  · exact ht

theorem unitWork.onlyIf {c : Prop} (h : unitWork u s) {_ : Decidable c} (f : unitWork u s → unitWork u t) :
    unitWork u (if c then t else s) := .ite (f h) h

theorem unitReach.onlyIf {c : Prop} (h : unitReach u s) {_ : Decidable c} (f : unitReach u s → unitReach u t) :
    unitReach u (if c then t else s) := .ite (f h) h

theorem unitWork.forEach {α : Type} {f : α → State → State} {l : List α} (h : unitWork u s)
    (hf : ∀ {s} x, unitWork u s → unitWork u (f x s)) : unitWork u (forEach f l s) := by
  induction l generalizing s with
  | nil => exact h
  | cons x l ih => exact ih (hf x h)

theorem unitReach.forEach {α : Type} {f : α → State → State} {l : List α} (h : unitReach u s)
    (hf : ∀ {s} x, unitReach u s → unitReach u (f x s)) : unitReach u (forEach f l s) := by
  induction l generalizing s with
  | nil => exact h
  | cons x l ih => exact ih (hf x h)

theorem unitWork.setReg {off v} (h : unitWork u s) (ho : off ∈ stateRegs) : unitWork u (setReg off v s) :=
  h.beside rfl (fun _ hoff => getReg_setReg_ne (fun e => hoff (e.subst (motive := (· ∈ stateRegs)) ho)) _ _) List.prefix_rfl rfl rfl

theorem unitReach.setReg {off v} (h : unitReach u s) (ho : off ∈ unitRegs) : unitReach u (setReg off v s) :=
  h.beside rfl (fun _ hoff => getReg_setReg_ne (fun e => hoff (e.subst (motive := (· ∈ unitRegs)) ho)) _ _) List.prefix_rfl rfl

theorem unitReach.evt {f unit items} (h : unitReach u s) (hf : f.off ∈ unitRegs) : unitReach u (evt f unit items s) :=
  h.beside (beyondUnits_of_work (beyondWork_of_quiet (quiet_evt f unit items s)))
    (fun _ hoff => getReg_evt (fun hl => hoff (unitRegs_of_stateRegs (stateRegs_of_workRegs (workRegs_of_logRegs hl))))
      (fun e => hoff (e ▸ hf)) unit items s)
    (out_evt f unit items s) (evt_host_cmds f unit items s)

/-! ### One change (R503) -/

theorem unitWork.event {b c unit items} (h : unitWork u s) : unitWork u (event b c unit items s) :=
  h.beside (beyondUnits_of_work (beyondWork_of_quiet (quiet_event b c unit items s)))
    (fun _ hoff => getReg_event (fun hl => hoff (stateRegs_of_workRegs (workRegs_of_logRegs hl))) b c unit items s)
    (out_event b c unit items s) (by have hq := congrArg (fun b : State => b.host.cmds) (quiet_event b c unit items s); exact hq)
    (by have hq := congrArg State.cal (quiet_event b c unit items s); exact hq)

theorem unitWork.putState {v tgt why} (h : unitWork u s) : unitWork u (putState v tgt why s) := by
  unfold Machine.putState
  extract_lets e e' tab s₁ s₂
  have hentry : unitWork u s₁ := h.beside rfl (fun _ _ => rfl) List.prefix_rfl rfl rfl
  have hcounted : unitWork u s₂ := hentry.setReg (by decide)
  exact hcounted.onlyIf fun h => h.setReg (by decide)

theorem unitWork.recordChange {v src q} (h : unitWork u s) : unitWork u (recordChange v src q s) := by
  have hput : unitWork u (putHistory v src q s) := h.beside rfl (fun _ _ => rfl) List.prefix_rfl rfl rfl
  have hmarked : unitWork u (changeEvent v src q (putHistory v src q s)) :=
    (hput.setReg (by decide)).onlyIf fun h => h.event
  exact hmarked.work (commandWork.refl _).mirror

theorem unitWork.recompute (h : unitWork u s) : unitWork u (recompute s) :=
  h.onlyIf fun h => h.forEach fun _ h => h.onlyIf fun h => h.putState.recordChange

theorem unitWork.endImport {v a} (h : unitWork u s) : unitWork u (endImport v a s) := by
  refine h.onlyIf fun h => ?_
  have hleft : unitWork u { { s with media := { s.media with disc := { s.media.disc with importMode := false } } } with
      pool := { s.pool with disc := {} }, chn := { s.chn with importMode := false } } :=
    h.beside rfl (fun _ _ => rfl) List.prefix_rfl rfl rfl
  exact ((((hleft.setReg (by decide)).setReg (by decide)).setReg (by decide)).setReg (by decide)).setReg (by decide)

theorem unitWork.settleReqs {v} (h : unitWork u s) : unitWork u (settleReqs v s) := by
  refine unitWork.forEach (h.beside rfl (fun _ _ => rfl) List.prefix_rfl rfl rfl) fun _ h => ?_
  split
  · exact h.work (commandWork.refl _).finishReq
  · exact h

theorem unitWork.afterChange {v a b} (h : unitWork u s) : unitWork u (afterChange v a b s) := by
  have hstopped : unitWork u (carWriteStop v b s) := h.onlyIf fun h => h.beside rfl (fun _ _ => rfl) List.prefix_rfl rfl rfl
  have hheld : commandWork (carWriteStop v b s) (endHeldWaits a b (carWriteStop v b s)) :=
    (commandWork.refl _).onlyIf fun h => h.forEach fun _ h => h.onlyIf (·.endCmd)
  exact (((hstopped.onlyIf fun h => h.work hheld).endImport).work (commandWork.refl _).regate).settleReqs

theorem unitWork.changeUnit0 {v tgt why src q} (h : unitWork u s) : unitWork u (changeUnit0 v tgt why src q s) :=
  .ite h ((h.putState.onlyIf (·.recompute)).recordChange.afterChange)

/-! ### The calibrations that a change ends (R496) -/

theorem unitReach.calRecord {x st o} (h : unitReach u s) : unitReach u (calRecord x st o s) := by
  unfold Machine.calRecord calEvt
  extract_lets runs s₁ op s₂ s₃ s₄ mot spn s₅
  have hlast : unitReach u s₂ := (h.beside (t := s₁) rfl (fun _ _ => rfl) List.prefix_rfl rfl).setReg (by decide)
  have hcounted : unitReach u s₃ :=
    .ite (hlast.setReg (by decide))
      (.ite (hlast.setReg (by decide)) (.ite (hlast.setReg (by decide)) (hlast.onlyIf fun h => h.setReg (by decide))))
  have hrejected : unitReach u s₄ := hcounted.onlyIf fun h => h.evt (by decide)
  exact (hrejected.beside (t := s₅) rfl (fun _ _ => rfl) List.prefix_rfl rfl).evt (by decide)

theorem unitReach.setHold {v b} (h : unitReach u s) : unitReach u (setHold v b s) :=
  h.beside rfl (fun _ _ => rfl) List.prefix_rfl rfl

theorem unitReach.changeUnit0 {v tgt why src q} (h : unitReach u s) : unitReach u (changeUnit0 v tgt why src q s) :=
  h.trans (unitWork.refl s).changeUnit0.reach

theorem unitReach.finishReq {r st} (h : unitReach u s) : unitReach u (finishReq r st s) := h.work (commandWork.refl s).finishReq

theorem unitReach.calSweepOne {x} (h : unitReach u s) : unitReach u (calSweepOne x s) := by
  unfold Machine.calSweepOne
  split
  · exact h.onlyIf fun h => h.calRecord.finishReq
  · exact .ite h (.ite h.setHold.calRecord.finishReq
      (h.onlyIf fun h => unitReach.finishReq (.ite h.setHold.calRecord h.setHold.calRecord.changeUnit0)))

theorem calSweep_calm (h : s.cal.running = []) : calSweep s = s := by
  rw [calSweep, h]
  rfl

theorem unitWork.calSweep (h : unitWork u s) : unitWork u (calSweep s) where
  reach := h.reach.forEach fun _ h => h.calSweepOne
  calm hcalm := by
    obtain ⟨hcal, hregs⟩ := h.calm hcalm
    rw [calSweep_calm (hcal ▸ hcalm)]
    exact ⟨hcal, hregs⟩

theorem unitWork.changeUnit {v tgt why src q} (h : unitWork u s) : unitWork u (changeUnit v tgt why src q s) := h.changeUnit0.calSweep

theorem unitWork.change {v tgt why} (h : unitWork u s) : unitWork u (change v tgt why s) := h.changeUnit

theorem unitWork.changeGroup {us why src q} (h : unitWork u s) : unitWork u (changeGroup us why src q s) := by
  refine unitWork.calSweep (unitWork.forEach ?_ fun _ h => .ite h h.afterChange)
  exact unitWork.recompute (h.forEach fun _ h => .ite h h.putState.recordChange)

theorem unitWork.carReadyCheck {c} (h : unitWork u s) : unitWork u (carReadyCheck c s) := h.onlyIf (·.changeGroup)

end Sys2Proof.Proofs
end

section
/-! How calibrations and self-tests begin and end (R478, R480, R483, R486, R487, R493 to R496). -/

namespace Sys2Proof.Proofs

open Sys2Proof Sys2Proof.Machine Sys2Proof.Safety

variable {s t : State} {r : UnitReq} {x : CalRun}

/-! ### Their begin (R478, R480) -/

theorem getReg_takeHead {off : Nat} (h : off ≠ Reg.UNT_CNT + 4) (r : UnitReq) (s : State) : getReg (takeHead r s) off = getReg s off :=
  takeHead_keeps (P := (getReg · off)) (fun _ _ => rfl) (fun _ _ => getReg_congr (modCmd_regs _ _ _) off) (fun _ _ => rfl)
    (fun _ => getReg_setReg_ne (fun e => h e.symm) _ _) r s

theorem newRun_takeHead (r : UnitReq) (s : State) : newRun (takeHead r s) r = newRun s r := by
  unfold newRun
  rw [getReg_takeHead (by decide), getReg_takeHead (by decide), getReg_takeHead (by decide), getReg_takeHead (by decide), ust_takeHead]

theorem calStateOk_takeHead (r : UnitReq) (s : State) : calStateOk (takeHead r s) r = calStateOk s r := by
  rw [calStateOk, ust_takeHead, calStateOk]

theorem calOthersOk_takeHead (r : UnitReq) (s : State) : calOthersOk (takeHead r s) r = calOthersOk s r := by
  simp only [calOthersOk, ust_takeHead]

/-- A run that its unit's drain starts is not ended by the change to DRAINING. -/
theorem changeUnit_draining (hu : r.unit < 0x40) (hrun : s.cal.running = [x]) (hx : x.unit = r.unit) (hpending : x.ending = none)
    (hspindle : isCar r.unit = true → ust s uSpindle = .ready) (why : Reason) (src : Source) (q : Nat) :
    changeUnit r.unit .draining why src q s = changeUnit0 r.unit .draining why src q s := by
  obtain ⟨v, hv⟩ : ∃ v, v = changeUnit0 r.unit .draining why src q s := ⟨_, rfl⟩
  have hdraining : ust v r.unit = .draining := hv ▸ ust_changeUnit0_same hu _ _ _ _ _
  have hsweep : calSweepOne x v = v := by
    unfold calSweepOne
    rw [hpending]
    dsimp only
    rw [hx, hdraining]
    refine ite_eq_left_iff.2 fun _ => (if_neg (by decide)).trans (if_neg ?_)
    intro h
    simp only [Bool.and_eq_true, Bool.not_eq_true'] at h
    have hready : ust v uSpindle = .ready := by
      have hne : r.unit ≠ uSpindle := by
        intro e
        rw [e] at h
        exact absurd h.1.1 (by decide)
      rw [hv, ust, unitOf_changeUnit0_ne (by decide) hne, ← ust, hspindle h.1.1]
    rw [hready] at h
    exact absurd h.1.2 (by decide)
  rw [changeUnit, ← hv, calSweep, hv, cal_changeUnit0, hrun, ← hv]
  exact hsweep

section
variable {β : Type} {P : State → β} (hslot : ∀ k f s, P (modSlot k f s) = P s) (hspn : ∀ f s, P (modSpn f s) = P s)
  (hpins : ∀ p (s : State), P { s with pins := p } = P s) (hreg : ∀ off v s, P (setReg off v s) = P s)
include hslot hspn hpins hreg

/-- What changes of the drive, of the slots and of registers keep, a stop of the drive keeps. -/
theorem spnStopEff_keeps (coast : Bool) (s : State) : P (spnStopEff coast s) = P s := by
  have hloops (s : State) : P (disableSpindleLoops s) = P s := forEach_keeps P disableSlot (disableSlot_keeps hslot) _ s
  have hgates (on : Bool) (s : State) : P (setGates on s) = P s := (hpins _ _).trans (hspn _ s)
  have hphase (ph : SpnPhase) (s : State) : P (setPhase ph s) = P s := hspn _ s
  have hcurrent (v : Int) (s : State) : P (currentTarget v s) = P s := by
    unfold currentTarget
    split
    · exact hreg _ _ s
    · rfl
  have hspeed (s : State) : P (match speedSlot s with | some k => disableSlot k s | none => s) = P s := by
    split
    · exact disableSlot_keeps hslot _ s
    · rfl
  unfold spnStopEff
  refine keeps_ite P rfl (keeps_ite P ?_ (keeps_ite P ?_ ?_))
  · exact (hphase _ _).trans ((hloops _).trans (hgates _ s))
  · exact (hspn _ _).trans ((hcurrent _ _).trans ((hspeed _).trans (hphase _ s)))
  · exact (hreg _ _ _).trans ((hspn _ _).trans ((hgates _ _).trans ((hloops _).trans (hphase _ s))))

omit hslot hpins in
theorem arbitrate_keeps (s : State) : P (arbitrate s) = P s := by
  unfold arbitrate
  split
  · rfl
  · dsimp only
    split
    · exact (hreg _ _ _).trans (hspn _ _)
    · exact hspn _ _

end

/-- A run that started at a time, under a number. -/
def startAs (since run : Nat) (x : CalRun) : CalRun := { x with started := true, since := since, run := run }

/-- A run as it starts in a state. -/
def startedRun (s : State) (x : CalRun) : CalRun :=
  startAs s.pwr.time (if x.op = opCalibrate then min 0xFFFFFFFF ((getReg s Reg.CAL_LAST_RUN).toNat + 1) else 0) x

/-- A start writes no unit, and starts the one run that there is. -/
theorem startRun_alone (hrun : s.cal.running = [x]) :
    (startRun x s).unt = s.unt ∧ (startRun x s).cal = { s.cal with running := [startedRun s x] } := by
  obtain ⟨v, hv⟩ : ∃ v, v = (if x.op = opCalibrate then bumpBy Reg.CAL_LAST_RUN 1 s else s) := ⟨_, rfl⟩
  have hkeep {β : Type} (P : State → β) (hP : P (bumpBy Reg.CAL_LAST_RUN 1 s) = P s) : P v = P s := hv ▸ keeps_ite P hP rfl
  have hnumber : (if x.op = opCalibrate then (getReg v Reg.CAL_LAST_RUN).toNat else 0) = (startedRun s x).run := by
    unfold startedRun
    split
    · next hop =>
      rw [hv, if_pos hop, bumpBy, getReg_setReg_same, BitVec.toNat_ofNat, Nat.mod_eq_of_lt (by omega)]
      rfl
    · rfl
  obtain ⟨w, hw⟩ : ∃ w, w =
    modRun x (startAs v.pwr.time (if x.op = opCalibrate then (getReg v Reg.CAL_LAST_RUN).toNat else 0)) v := ⟨_, rfl⟩
  have hunt : w.unt = s.unt := by rw [hw]; exact hkeep State.unt rfl
  have hcal : w.cal = { s.cal with running := [startedRun s x] } := by
    rw [hw, hnumber]
    show { v.cal with running := v.cal.running.map _ } = _
    rw [hkeep State.cal rfl, hkeep State.pwr rfl, hrun]
    simp [startedRun, startAs]
  have heq : startRun x s = (if ¬ x.op = opCalibrate then w
      else if x.unit = uSpindle then spnStopEff false w else arbitrate (modSpn (fun p => { p with calib := some (nRpm p) }) w)) := by
    unfold startRun
    extract_lets cal s₁ run s₂
    have hs₂ : s₂ = w := by
      rw [hw, hv]
      rfl
    rw [hs₂]
    simp [cal]
  rw [heq]
  have hdrive {β : Type} (P : State → β) (hslot : ∀ k f s, P (modSlot k f s) = P s) (hspn : ∀ f s, P (modSpn f s) = P s)
      (hpins : ∀ p (s : State), P { s with pins := p } = P s) (hreg : ∀ off v s, P (setReg off v s) = P s) :
      P (if ¬ x.op = opCalibrate then w else if x.unit = uSpindle then spnStopEff false w
        else arbitrate (modSpn (fun p => { p with calib := some (nRpm p) }) w)) = P w :=
    keeps_ite P rfl (keeps_ite P (spnStopEff_keeps hslot hspn hpins hreg _ _) ((arbitrate_keeps hspn hreg _).trans (hspn _ _)))
  exact ⟨(hdrive State.unt (fun _ _ _ => rfl) (fun _ _ => rfl) (fun _ _ => rfl) fun _ _ _ => rfl).trans hunt,
    (hdrive State.cal (fun _ _ _ => rfl) (fun _ _ => rfl) (fun _ _ => rfl) fun _ _ _ => rfl).trans hcal⟩

theorem exec_calRow {e : Nat × Instr} (he : e ∈ calRows) (s : State) : exec e.2 s = done s (calibrateEff e.1 s) := by
  simp only [calRows, List.mem_cons, List.not_mem_nil, or_false] at he
  rcases he with rfl | rfl | rfl | rfl | rfl | rfl <;> rfl

theorem exec_testRow {e : Nat × Instr} (he : e ∈ testRows) (s : State) : exec e.2 s = done s (selfTestEff e.1 s) := by
  simp only [testRows, List.mem_cons, List.not_mem_nil, or_false] at he
  rcases he with rfl | rfl | rfl <;> rfl

theorem calRow_le {e : Nat × Instr} (he : e ∈ calRows) : e.1 ≤ 6 := by
  simp only [calRows, List.mem_cons, List.not_mem_nil, or_false] at he
  rcases he with rfl | rfl | rfl | rfl | rfl | rfl <;> decide

/-- A request whose unit's state and the others' allow it adds its run. -/
theorem calReq_adds (hstate : calStateOk s r = true) (hback : heldBackUnit s r.unit = false) (hothers : calOthersOk s r = true) :
    calReq r (takeHead r s) = (if (newRun s r).op = opSelfTest
        then startRun (newRun s r) (if r.code = 3 then setHold r.unit true (addRun (newRun s r) (takeHead r s))
          else addRun (newRun s r) (takeHead r s))
      else if (newRun s r).byReq = true then startRun (newRun s r) (setHold r.unit true (addRun (newRun s r) (takeHead r s)))
      else changeUnit r.unit .draining .calibration (srcOf r) r.acceptSeq (addRun (newRun s r) (takeHead r s))) := by
  unfold calReq
  rw [calStateOk_takeHead, heldBackUnit_takeHead, calOthersOk_takeHead, if_neg (by simp [hstate, hback, hothers]), newRun_takeHead]

theorem addRun_running (hcal : noRuns s) (x : CalRun) : (addRun x (takeHead r s)).cal.running = [x] := by
  show (takeHead r s).cal.running ++ [x] = [x]
  rw [takeHead_cal, hcal]
  rfl

theorem newRun_op (hkind : r.kind = .calibrate) (s : State) : (newRun s r).op = opCalibrate := if_pos hkind

theorem newRun_op_test (hkind : r.kind = .selfTest) (s : State) : (newRun s r).op = opSelfTest :=
  if_neg (by rw [hkind]; decide)

/-- A run that starts at once in the state after its request is taken. -/
theorem startRun_taken {v : State} (hcal : noRuns s) (hreg : v.regs = (takeHead r s).regs) (hpwr : v.pwr = s.pwr)
    (hv : v.cal = (addRun (newRun s r) (takeHead r s)).cal) (hust : ∀ u, ust v u = ust s u) :
    ust (startRun (newRun s r) v) r.unit = ust s r.unit ∧
      (startRun (newRun s r) v).cal.running = [startedRun s (newRun s r)] := by
  have hrun : v.cal.running = [newRun s r] := hv ▸ addRun_running hcal _
  obtain ⟨hunt, hstarted⟩ := startRun_alone hrun
  have hreg' : getReg v Reg.CAL_LAST_RUN = getReg s Reg.CAL_LAST_RUN := (getReg_congr hreg _).trans (getReg_takeHead (by decide) r s)
  refine ⟨(ust_of_unt hunt _).trans (hust _), ?_⟩
  rw [hstarted, startedRun, hpwr, hreg', ← startedRun]

section
variable {e : Nat × Instr} (hstate : calStateOk s r = true) (hcal : noRuns s)
include hstate hcal

theorem completes_calibrate (he : e ∈ calRows) (htaking : taking s .calibrate e.1 r)
    (hunit : if e.1 = 6 then r.unit = uSpindle else isCar r.unit = true) (hback : heldBackUnit s r.unit = false)
    (hothers : calOthersOk s r = true) :
    (ust s r.unit ≠ .service → completes e.2 s (fun t => ust t r.unit = .draining ∧ t.cal.running = [newRun s r])) ∧
    (ust s r.unit = .service → completes e.2 s (fun t => ust t r.unit = .service ∧
      t.cal.running = [startedRun s (newRun s r)])) := by
  have hkind : r.kind = .calibrate := htaking.2.1
  have hcode : r.code = e.1 := htaking.2.2.1
  have heff : calibrateEff e.1 s = calReq r (takeHead r s) := takeReq_of_taking htaking _
  have hop : ¬ (newRun s r).op = opSelfTest := by rw [newRun_op hkind]; decide
  have hlt : r.unit < 0x40 := by
    split at hunit
    · rw [hunit]; decide
    · simp only [isCar, Bool.and_eq_true, decide_eq_true_eq] at hunit; omega
  have hspindle : isCar r.unit = true → ust s uSpindle = .ready := by
    intro hcar
    have hne : e.1 ≠ 6 := by
      intro h6
      rw [if_pos h6] at hunit
      rw [hunit] at hcar
      exact absurd hcar (by decide)
    have hle := calRow_le he
    simp only [calOthersOk, hkind, hcode, show e.1 ≤ 5 by omega, decide_true, Bool.and_self, Bool.not_true, Bool.false_or,
      Bool.and_eq_true, decide_eq_true_eq] at hothers
    exact hothers.2
  rw [calReq_adds hstate hback hothers, if_neg hop] at heff
  refine ⟨fun hserves => ?_, fun hservice => ?_⟩
  · rw [if_neg (show ¬ (newRun s r).byReq = true by simp [newRun, hserves])] at heff
    refine completes_of_done ((exec_calRow he s).trans (congrArg (done s) heff)) ?_
    have hspindle' : isCar r.unit = true → ust (addRun (newRun s r) (takeHead r s)) uSpindle = .ready :=
      fun h => (ust_takeHead r s _).trans (hspindle h)
    rw [ust_finish, finish_cal, changeUnit_draining hlt (addRun_running hcal _) rfl rfl hspindle', cal_changeUnit0]
    exact ⟨ust_changeUnit0_same hlt _ _ _ _ _, addRun_running hcal _⟩
  · rw [if_pos (show (newRun s r).byReq = true by simp [newRun, hservice])] at heff
    refine completes_of_done ((exec_calRow he s).trans (congrArg (done s) heff)) ?_
    obtain ⟨hust, hrunning⟩ := startRun_taken (r := r) (v := setHold r.unit true (addRun (newRun s r) (takeHead r s))) hcal rfl
      (takeHead_pwr r s) rfl (fun u => (ust_setHold _ _ _ _).trans (ust_takeHead r s u))
    rw [ust_finish, finish_cal]
    exact ⟨hust.trans hservice, hrunning⟩

theorem completes_selfTest (he : e ∈ testRows) (htaking : taking s .selfTest e.1 r) (hbuf : isBuf r.unit = true) :
    completes e.2 s (fun t => ust t r.unit = ust s r.unit ∧ t.cal.running = [startedRun s (newRun s r)]) := by
  have hkind : r.kind = .selfTest := htaking.2.1
  have heff : selfTestEff e.1 s = calReq r (takeHead r s) := takeReq_of_taking htaking _
  have hback : heldBackUnit s r.unit = false := by
    have hcases : r.unit = 10 ∨ r.unit = 11 := by simpa [isBuf] using hbuf
    rcases hcases with h | h <;> simp [heldBackUnit, h, uDisc, uSpindle, isSide, isCar, isStrand]
  have hothers : calOthersOk s r = true := by simp [calOthersOk, hkind]
  rw [calReq_adds hstate hback hothers, if_pos (newRun_op_test hkind s)] at heff
  refine completes_of_done ((exec_testRow he s).trans (congrArg (done s) heff)) ?_
  rw [ust_finish, finish_cal]
  refine startRun_taken hcal ?_ ?_ ?_ ?_
  · exact keeps_ite State.regs rfl rfl
  · exact keeps_ite State.pwr (takeHead_pwr r s) (takeHead_pwr r s)
  · exact keeps_ite State.cal rfl rfl
  · exact fun u => keeps_ite (ust · u) ((ust_setHold _ _ _ _).trans (ust_takeHead r s u)) (ust_takeHead r s u)

end

/-! ### Their end (R483, R496) -/

/-- Setting one EVT bit leaves the other bits of its register. -/
theorem flag_evt_apart {f g : Fld} (h : g.off ∉ logRegs) (h32 : g.hi < 32) (hbits : g.hi < f.lo ∨ f.hi < g.lo) (u : Nat) (is : List Item)
    (s : State) : flag (evt f u is s) g = flag s g := by
  have hset : flag (setF (f.at 0) 1 s) g = flag s g := flag_setF_ne h32 (.inr hbits) 1 s
  refine keeps_ite (flag · g) rfl (keeps_ite (flag · g) ?_ hset)
  exact (flag_of_getF (getF_of_getReg (getReg_event h _ _ _ _ _))).trans hset

theorem calCnt_ne : ∀ i < 4, Reg.CAL_CNT + 4 * i ≠ Reg.CAL_LAST ∧ Reg.CAL_CNT + 4 * i ≠ Reg.CAL_EVT := by decide

theorem calRecord_alone (hrun : s.cal.running = [x]) (st : Status) (o : Nat) :
    (calRecord x st o s).cal.running = [] ∧ getReg (calRecord x st o s) Reg.CAL_LAST = lastWord x st o ∧
      flag (calRecord x st o s) Fld.CAL_EVT_TIMEOUT = flag s Fld.CAL_EVT_TIMEOUT := by
  unfold calRecord calEvt
  extract_lets runs s₁ op s₂ s₃ s₄ mot spn s₅
  have hdone₂ : s₂.cal.running = [] := by
    show s.cal.running.filter _ = []
    rw [hrun]
    simp
  have hlast₂ : getReg s₂ Reg.CAL_LAST = lastWord x st o := by
    unfold s₂
    rw [getReg_setReg_same, lastWord]
  have hflag₂ : flag s₂ Fld.CAL_EVT_TIMEOUT = flag s Fld.CAL_EVT_TIMEOUT :=
    flag_of_getF (getF_of_getReg (getReg_setReg_ne (by decide) _ s₁))
  have hcounted {β : Type} (P : State → β) (hP : ∀ i < 4, P (bump Reg.CAL_CNT i s₂) = P s₂) : P s₃ = P s₂ :=
    keeps_ite P (hP _ (by decide)) (keeps_ite P (hP _ (by decide)) (keeps_ite P (hP _ (by decide)) (keeps_ite P (hP _ (by decide)) rfl)))
  have hrejected {β : Type} (P : State → β) (hP : ∀ is, P (evt Fld.CAL_EVT_REJECTED x.unit is s₃) = P s₃) : P s₄ = P s₃ :=
    keeps_ite P (hP _) rfl
  have hs₅ : s₅.cal = s₄.cal ∧ s₅.regs = s₄.regs := ⟨rfl, rfl⟩
  clear_value s₅ s₄ s₃ s₂
  refine ⟨?_, ?_, ?_⟩
  · rw [evt_cal, hs₅.1, hrejected State.cal fun _ => evt_cal _ _ _ _, hcounted State.cal fun _ _ => rfl, hdone₂]
  · rw [getReg_evt (by decide) (by decide), getReg_congr hs₅.2,
      hrejected (getReg · _) fun _ => getReg_evt (by decide) (by decide) _ _ _,
      hcounted (getReg · _) fun i hi => getReg_bump_ne i (calCnt_ne i hi).1 _, hlast₂]
  · rw [flag_evt_apart (by decide) (by decide) (by decide), flag_of_getF (getF_of_getReg (getReg_congr hs₅.2 _)),
      hrejected (flag · _) fun _ => flag_evt_apart (by decide) (by decide) (by decide) _ _ _,
      hcounted (flag · _) fun i hi => flag_of_getF (getF_of_getReg (getReg_bump_ne i (calCnt_ne i hi).2 _)), hflag₂]

/-- The drive's target leaves the registers that no set-point of a loop is. -/
theorem getReg_arbitrate_apart {off : Nat} (h : off % 0x80 ≠ Reg.LPE_SP_TARGET % 0x80) (s : State) :
    getReg (arbitrate s) off = getReg s off := by
  have hne (k : Nat) : lreg Reg.LPE_SP_TARGET k ≠ off := by
    rintro rfl
    exact h (by rw [lreg, Nat.add_mul_mod_self_left])
  unfold arbitrate
  split
  · rfl
  · dsimp only
    split
    · exact getReg_setReg_ne (hne _) _ _
    · rfl

/-- The one run ends: it is taken out and recorded, and neither its unit's way back nor its completion changes the record. -/
theorem endRun_alone (hrun : s.cal.running = [x]) (hunit : x.unit ≠ uSpindle) (st : Status) (o : Nat) :
    (endRun x st o s).cal.running = [] ∧ getReg (endRun x st o s) Reg.CAL_LAST = lastWord x st o ∧
      flag (endRun x st o s) Fld.CAL_EVT_TIMEOUT = flag s Fld.CAL_EVT_TIMEOUT := by
  obtain ⟨v, hv⟩ : ∃ v, v = calRecord x st o (setHold x.unit false s) := ⟨_, rfl⟩
  obtain ⟨hdone, hlast, htimeout⟩ := calRecord_alone (s := setHold x.unit false s) hrun st o
  rw [← hv] at hdone hlast htimeout
  obtain ⟨w, hw⟩ : ∃ w, w = (if (x.byReq || x.op = opSelfTest) = true then v else change x.unit .starting .calibration v) := ⟨_, rfl⟩
  obtain ⟨y, hy⟩ : ∃ y, y = (if isCar x.unit = true then carReadyCheck (x.unit - 4) w else w) := ⟨_, rfl⟩
  have heq : endRun x st o s = finishReq x.req st (arbitrate y) := by
    unfold endRun
    dsimp only
    rw [if_neg hunit, ← hv, ← hw, ← hy]
  have hwork : unitWork v y := by
    rw [hy]
    refine unitWork.onlyIf ?_ (·.carReadyCheck)
    rw [hw]
    exact .ite (.refl v) (unitWork.refl v).change
  obtain ⟨hcal, hregs⟩ := hwork.calm hdone
  have hkept (off : Nat) (hoff : off ∉ stateRegs) (hmod : off % 0x80 ≠ Reg.LPE_SP_TARGET % 0x80) :
      getReg (finishReq x.req st (arbitrate y)) off = getReg v off := by
    rw [(commandWork.refl (arbitrate y)).finishReq.regs off fun h => hoff (stateRegs_of_workRegs h), getReg_arbitrate_apart hmod, hregs off hoff]
  rw [heq]
  refine ⟨?_, ?_, ?_⟩
  · rw [cal_of_still (still_finishReq _ _ _), arbitrate_keeps (P := State.cal) (fun _ _ => rfl) fun _ _ _ => rfl, hcal, hdone]
  · rw [hkept _ (by decide) (by decide), hlast]
  · rw [flag_of_getF (getF_of_getReg (hkept _ (by decide) (by decide))), htimeout]
    rfl

/-- A command that ends the one run ends with its record. -/
theorem completes_endRun {i : Instr} {v : State} {st : Status} {o : Nat} (heff : exec i s = done s (endRun x st o v))
    (hrun : v.cal.running = [x]) (hunit : x.unit ≠ uSpindle) :
    completes i s (fun t => t.cal.running = [] ∧ getReg t Reg.CAL_LAST = lastWord x st o) := by
  obtain ⟨hdone, hlast, -⟩ := endRun_alone hrun hunit st o
  exact completes_of_done heff ⟨by rw [finish_cal, hdone], by rw [getReg_finish, hlast]⟩

theorem completes_mramTestEnd (h : runsAlone s x opSelfTest 2) :
    completes (.calibrationEnd x.unit (.mram true)) s (fun t => t.cal.running = [] ∧ getReg t Reg.CAL_LAST = lastWord x .success 1) := by
  obtain ⟨hrun, hop, hcode, hstarted, hpending, hunit⟩ := h
  have heff : calEndEff x.unit (.mram true) s = endMram x true s := by
    simp [calEndEff, hrun, hop, hcode, hstarted, hpending]
  exact completes_endRun (congrArg (done s) heff) hrun hunit

theorem completes_parityTestEnd (h : runsAlone s x opSelfTest 1) (hforce : flag s Fld.CAL_CTRL_FORCE_CHECKER_FAIL = false) :
    completes (.calibrationEnd x.unit (.parity [] false)) s (fun t =>
      t.cal.running = [] ∧ getReg t Reg.CAL_LAST = lastWord x .success 1) := by
  obtain ⟨hrun, hop, hcode, hstarted, hpending, hunit⟩ := h
  have heff : calEndEff x.unit (.parity [] false) s = endRun x .success 1 (setF Fld.CAL_CTRL_FORCE_CHECKER_FAIL 0 s) := by
    simp [calEndEff, hrun, hop, hcode, hstarted, hpending, endParity, hforce, forEach]
  exact completes_endRun (congrArg (done s) heff) hrun hunit

theorem completes_powerEnd (ss : List (List PowerStep)) (h : runsAlone s x opCalibrate 4) :
    completes (.calibrationEnd x.unit (.power true ss)) s (fun t =>
      t.cal.running = [] ∧ getReg t Reg.CAL_LAST = lastWord x .mediumFull 4) := by
  obtain ⟨hrun, hop, hcode, hstarted, hpending, hunit⟩ := h
  have heff : calEndEff x.unit (.power true ss) s = endPower x true ss s := by
    simp [calEndEff, hrun, hop, hcode, hstarted, hpending]
  exact completes_endRun (congrArg (done s) heff) hrun hunit

/-- A residual of 40 nm or more rejects a servo calibration. -/
theorem completes_servoEnd {ps : List ServoPoint} {p : ServoPoint} {v code : Nat} (hkind : code = 2 ∨ code = 3)
    (h : runsAlone s x opCalibrate code) (hp : p ∈ ps) (hv : v ∈ p.rms) (hlarge : 400 ≤ v) :
    completes (.calibrationEnd x.unit (.servo ps)) s (fun t =>
      t.cal.running = [] ∧ getReg t Reg.CAL_LAST = lastWord x .mediumUnrecovered 3) := by
  obtain ⟨hrun, hop, hcode, hstarted, hpending, hunit⟩ := h
  have heff : calEndEff x.unit (.servo ps) s = endServo x ps s := by
    rcases hkind with rfl | rfl <;> simp [calEndEff, hrun, hop, hcode, hstarted, hpending]
  have hrejected : ps.all (fun p => p.rms.all (fun v => decide (v < 400))) = false :=
    List.all_eq_false.2 ⟨p, hp, by simpa using ⟨v, hv, hlarge⟩⟩
  have hend : ∃ w, endServo x ps s = endRun x .mediumUnrecovered 3 w ∧ w.cal = s.cal := by
    unfold endServo
    rw [hrejected]
    simp only [Bool.and_false, Bool.false_and, Bool.false_eq_true, if_false, endMeasured]
    exact ⟨_, rfl, rfl⟩
  obtain ⟨w, hw, hcal⟩ := hend
  exact completes_endRun (congrArg (done s) (heff.trans hw)) (hcal ▸ hrun) hunit

theorem completes_calTimeout {op code : Nat} (h : runsAlone s x op code) :
    completes (.calibrationTimeout x.unit) s (fun t => t.cal.running = [] ∧
      getReg t Reg.CAL_LAST = lastWord x .mediumUnrecovered 4 ∧ flag t Fld.CAL_EVT_TIMEOUT = true) := by
  obtain ⟨hrun, -, -, hstarted, hpending, hunit⟩ := h
  obtain ⟨w, hw⟩ : ∃ w, w = calEvt Fld.CAL_EVT_TIMEOUT x .mediumUnrecovered s := ⟨_, rfl⟩
  have heff : calTimeoutEff x.unit s = endRun x .mediumUnrecovered 4 w := by
    simp [calTimeoutEff, hrun, hstarted, hpending, hw]
  have hrun' : w.cal.running = [x] := by rw [hw, calEvt, evt_cal, hrun]
  obtain ⟨hdone, hlast, htimeout⟩ := endRun_alone hrun' hunit .mediumUnrecovered 4
  refine completes_of_done (congrArg (done s) heff) ⟨by rw [finish_cal, hdone], by rw [getReg_finish, hlast], ?_⟩
  rw [flag_finish, htimeout, hw]
  exact flag_evt_same (by decide) rfl (by decide) _ _ _

/-- Settles O42: a request's run is the only one from its begin to its end, so that no sweep of the calibrations ends it early. -/
theorem calibrationsBeginAndEnd : Obligations.CalibrationsBeginAndEnd := by
  unfold Obligations.CalibrationsBeginAndEnd
  intro s
  refine ⟨fun r e he htaking hunit hstate hback hothers hcal => ?_, fun r e he htaking hbuf hstate hcal => ?_,
    fun x h => completes_mramTestEnd h, fun x h hforce => completes_parityTestEnd h hforce, fun x ss h => completes_powerEnd ss h,
    fun x ps p v code hkind h hp hv hlarge => completes_servoEnd hkind h hp hv hlarge, fun x op code h => completes_calTimeout h⟩
  · have hop := newRun_op htaking.2.1 s
    have h := completes_calibrate hstate hcal he htaking hunit hback hothers
    rw [startedRun, if_pos hop] at h
    exact h
  · have hop := newRun_op_test htaking.2.1 s
    have h := completes_selfTest hstate hcal he htaking hbuf
    rw [startedRun, if_neg (by rw [hop]; decide)] at h
    exact h

end Sys2Proof.Proofs
end

section
/-! Doorbells, contexts, ring operations, grants and interrupts of host rings (R340, R343, R346, R347, R349, R350, R370 to R374). -/

namespace Sys2Proof.Proofs

open Sys2Proof Sys2Proof.Machine Sys2Proof.Safety

variable {s t u : State} {f r n : Nat} {c : RingCtx}

/-! ### Contexts -/

theorem ctxOf_congr (h : t.host.ctx = s.host.ctx) (r : Nat) : ctxOf t r = ctxOf s r := by rw [ctxOf, h, ctxOf]

theorem ctxOf_finish (s t : State) (r : Nat) : ctxOf (finish s t) r = ctxOf t r := ctxOf_congr (congrArg HostState.ctx (finish_host s t)) r

theorem ctxOf_putCtx_same (r : Nat) (c : Option RingCtx) (s : State) : ctxOf (putCtx r c s) r = c := Tbl.get_put_same none c r _

theorem modCtx_of_ctx (h : ctxOf s r = some c) (g : RingCtx → RingCtx) : modCtx r g s = putCtx r (some (g c)) s := by
  unfold modCtx
  rw [h]

theorem ctxOf_modCtx (h : ctxOf s r = some c) (g : RingCtx → RingCtx) : ctxOf (modCtx r g s) r = some (g c) := by
  rw [modCtx_of_ctx h, ctxOf_putCtx_same]

/-- What a replaced context keeps, a changed one keeps. -/
theorem modCtx_keeps {β : Type} {P : State → β} (hP : ∀ x s, P (putCtx r x s) = P s) (g : RingCtx → RingCtx) (s : State) :
    P (modCtx r g s) = P s := by
  unfold modCtx
  split
  · exact hP _ s
  · rfl

theorem ctxOf_touch (h : ctxOf s r = some c) : ctxOf (touch r s) r = some { c with lastUse := s.host.clock + 1 } :=
  ctxOf_modCtx (s := { s with host := { s.host with clock := s.host.clock + 1 } }) h _

/-! ### Doorbells (R349, R350) -/

/-- A valid tail within the ring of a running context. -/
theorem completes_doorbell {v : Nat} (hrings : hasRings s f = true) (hrange : inRange s f r = true) (hflr : (fnSt s f).inFlr = false)
    (hctx : ctxOf s r = some c) (hrun : c.halted = false) (hsize : v < 0x400000000) (htail : bit v 32 = true) (hhead : bit v 33 = false)
    (hwithin : bits v 0 16 < entries c) :
    completes (.doorbell f (8 * r) 8 v) s (fun t => ∃ c', ctxOf t r = some c' ∧ c'.cmdTail = bits v 0 16 ∧
      c'.cplHead = c.cplHead ∧ c'.fetchHead = c.fetchHead ∧ c'.halted = false) := by
  have htouch := ctxOf_touch hctx
  obtain ⟨w, hw⟩ : ∃ w, w = touch r s := ⟨_, rfl⟩
  rw [← hw] at htouch
  have heff : doorbellEff f (8 * r) 8 v s = modCtx r (fun c => { c with cmdTail := bits v 0 16 }) w := by
    unfold doorbellEff
    rw [if_neg (by simp), Nat.mul_div_cancel_left r (by decide)]
    dsimp only
    rw [if_neg (by simp [hrings, hrange, hflr, Nat.not_le.2 hsize]), hctx, htail, hhead, ← hw]
    dsimp only [if_true, applyBell]
    simp only [if_true, Bool.false_eq_true, if_false]
    unfold applyTail
    rw [htouch]
    dsimp only
    rw [if_neg (by simp [hrun])]
    exact if_pos hwithin
  refine completes_of_done (congrArg (done s) heff)
    ⟨{ c with lastUse := s.host.clock + 1, cmdTail := bits v 0 16 }, ?_, rfl, rfl, rfl, hrun⟩
  rw [ctxOf_finish, ctxOf_modCtx htouch]

theorem completes_doorbellDiscarded (v : Nat) (hrings : hasRings s f = false) :
    completes (.doorbell f (8 * r) 8 v) s (fun t =>
      flag t Fld.HQ_EVT_DB_DISCARD = true ∧ t.host.ctx = s.host.ctx ∧ t.host.doorbells = s.host.doorbells) := by
  have heff : doorbellEff f (8 * r) 8 v s = discardBell f r s := by
    unfold doorbellEff
    rw [if_neg (by simp), Nat.mul_div_cancel_left r (by decide)]
    dsimp only
    rw [if_pos (by simp [hrings])]
  refine completes_of_done (congrArg (done s) heff) ⟨?_, ?_, ?_⟩
  · rw [flag_finish]
    exact flag_evt_same (by decide) rfl (by decide) _ _ _
  · rw [finish_host]
    exact evt_host_ctx _ _ _ _
  · rw [finish_host]
    exact evt_host_doorbells _ _ _ _

/-! ### Loads (R343, R346) -/

/-- What a context has from its descriptor for good. -/
def fromDesc (c : RingCtx) : Nat × Nat × Nat × Nat × Nat × Nat × Nat :=
  (c.fn, c.cmdBase, c.cplBase, c.sizeLog2, c.cls, c.weight, c.vector)

/-- The ring has a context of that descriptor. -/
def ringFrom (d : Nat × Nat × Nat × Nat × Nat × Nat × Nat) (r : Nat) (s : State) : Prop := ∃ c, ctxOf s r = some c ∧ fromDesc c = d

section
variable {d : Nat × Nat × Nat × Nat × Nat × Nat × Nat}

theorem ringFrom_modCtx {g : RingCtx → RingCtx} (h : ringFrom d r s) (hg : ∀ c, fromDesc (g c) = fromDesc c) :
    ringFrom d r (modCtx r g s) := by
  obtain ⟨c, hc, hd⟩ := h
  exact ⟨g c, ctxOf_modCtx hc g, (hg c).trans hd⟩

theorem ringFrom_haltRing (h : ringFrom d r s) (cause : Nat) : ringFrom d r (haltRing r cause s) := by
  unfold haltRing
  split
  · split
    · exact h
    · obtain ⟨c', hc', hd⟩ := ringFrom_modCtx (g := fun c => { c with halted := true }) h fun _ => rfl
      exact ⟨c', (ctxOf_congr (evt_host_ctx _ _ _ _) r).trans hc', hd⟩
  · exact h

theorem ringFrom_applyBell (h : ringFrom d r s) (tail head : Option Nat) : ringFrom d r (applyBell r tail head s) := by
  have htail : ringFrom d r (match tail with | some t => applyTail r t s | none => s) := by
    split
    · unfold applyTail
      split
      · split
        · exact h
        · split
          · exact ringFrom_modCtx h fun _ => rfl
          · exact ringFrom_haltRing h 4
      · exact h
    · exact h
  unfold applyBell
  dsimp only
  split
  · unfold applyHead
    split
    · split
      · exact ringFrom_modCtx htail fun _ => rfl
      · exact ringFrom_haltRing htail 5
    · exact htail
  · exact htail

end

theorem endLoad_keeps {β : Type} {P : State → β} (hload : ∀ l (s : State), P { s with host := { s.host with loading := l } } = P s)
    (hout : ∀ o s, P (emit o s) = P s) (r : Nat) (s : State) : P (endLoad r s) = P s := by
  have hread (n : Nat) (s : State) : P (readDesc n s) = P s := by
    unfold readDesc
    split
    · exact hout _ s
    · rfl
  unfold endLoad
  dsimp only
  split
  · exact (hread _ _).trans (hload _ s)
  · exact hload _ s

theorem completes_contextLoad {q : QueueFn} {d : List Byte} (hload : r ∈ s.host.loading.take 32) (hfn : fnOfRing s r = some f)
    (hcfg : fnCfg s f = some q) (hvalid : bit (leAt d 0x13 1) 0 = true) (hgood : descError q d = none) :
    completes (.contextLoadComplete r (some d)) s (fun t => ∃ c, ctxOf t r = some c ∧ c.fn = f ∧ c.cmdBase = leAt d 0 8 ∧
      c.cplBase = leAt d 8 8 ∧ c.sizeLog2 = leAt d 0x10 1 ∧ c.cls = leAt d 0x11 1 ∧ c.weight = leAt d 0x12 1 ∧
      c.vector = leAt d 0x14 2) := by
  obtain ⟨w, hw⟩ : ∃ w, w = endLoad r s := ⟨_, rfl⟩
  have hfn' : fnOfRing w r = some f :=
    (hw ▸ endLoad_keeps (P := (fnOfRing · r)) (fun _ _ => rfl) (fun _ _ => rfl) r s).trans hfn
  have hcfg' : fnCfg w f = some q := (hw ▸ endLoad_keeps (P := (fnCfg · f)) (fun _ _ => rfl) (fun _ _ => rfl) r s).trans hcfg
  have heff : ∃ tail head x, ctxLoadEff r (some d) s = applyBell r tail head (touch r x) ∧ ∃ b, ctxOf x r = some (ctxOfDesc f d b) := by
    unfold ctxLoadEff
    rw [if_neg (by simpa using hload), ← hw]
    dsimp only
    rw [hfn']
    dsimp only
    rw [hcfg']
    dsimp only
    rw [if_neg (by simp [hvalid]), hgood]
    exact ⟨_, _, _, rfl, _, ctxOf_putCtx_same _ _ _⟩
  obtain ⟨tail, head, x, heff, b, hctx⟩ := heff
  have hform : ringFrom (fromDesc (ctxOfDesc f d b)) r (touch r x) := ⟨_, ctxOf_touch hctx, rfl⟩
  obtain ⟨c, hc, hd⟩ := ringFrom_applyBell hform tail head
  have hparts : fromDesc c = (f, leAt d 0 8, leAt d 8 8, leAt d 0x10 1, leAt d 0x11 1, leAt d 0x12 1, leAt d 0x14 2) := hd
  simp only [fromDesc, Prod.mk.injEq] at hparts
  exact completes_of_done (congrArg (done s) heff) ⟨c, (ctxOf_finish _ _ _).trans hc, hparts⟩

theorem completes_contextFreed {q : QueueFn} (hstarved : s.host.starved = [r]) (hload : r ∉ s.host.loading) (hctx : ctxOf s r = none)
    (hfn : fnOfRing s r = some f) (hcfg : fnCfg s f = some q) (hquota : ctxHeld s f < q.ctxQuota) :
    completes .contextFreed s (fun t => t.host.loading = s.host.loading ++ [r] ∧ t.host.starved = []) := by
  obtain ⟨w, hw⟩ : ∃ w : State, w = { s with host := { s.host with
    loading := s.host.loading ++ [r], starved := s.host.starved.filter (· ≠ r) } } := ⟨_, rfl⟩
  have htake : takeCtx f s = some s := by
    unfold takeCtx
    rw [hcfg]
    exact if_pos hquota
  have heff : retryStarved s = if w.host.loading.length ≤ 32 then readDesc r w else w := by
    rw [retryStarved, hstarved]
    show startLoad r s = _
    unfold startLoad
    rw [if_neg (by simp [hload, hctx]), hfn]
    dsimp only
    rw [htake, hw]
  have hhost : (if w.host.loading.length ≤ 32 then readDesc r w else w).host = w.host := by
    refine keeps_ite State.host ?_ rfl
    unfold readDesc
    split <;> rfl
  refine completes_of_done (congrArg (done s) heff) ⟨?_, ?_⟩
  · rw [finish_host, hhost, hw]
  · rw [finish_host, hhost, hw]
    show s.host.starved.filter _ = []
    rw [hstarved]
    simp

/-! ### Ring operations (R347) -/

/-- The report of a ring is written in its register alone. -/
theorem ringStat_spec (f r : Nat) (done_ : Bool) (s : State) :
    flag (ringStat f r done_ s) (Fld.HQ_FN_RING_STAT_DONE.at (fnOff f)) = done_ ∧
    flag (ringStat f r done_ s) (Fld.HQ_FN_RING_STAT_RESIDENT.at (fnOff f)) = (ctxOf s r).isSome ∧
    regsKeptBut [Reg.HQ_FN_RING_STAT + fnOff f] s (ringStat f r done_ s) ∧
    (ringStat f r done_ s).host = s.host := by
  unfold ringStat
  dsimp only
  refine ⟨?_, ?_, fun off hoff => ?_, rfl⟩
  · rw [flag_setF_ne (by show 31 < 32; decide) (.inr (.inr (by show 15 < 31; decide))),
      flag_setFlag_ne (by show 31 < 32; decide) (.inr (.inr (by show 27 < 31; decide))),
      flag_setFlag_ne (by show 31 < 32; decide) (.inr (.inr (by show 28 < 31; decide))),
      flag_setFlag_ne (by show 31 < 32; decide) (.inr (.inr (by show 29 < 31; decide))),
      flag_setFlag_same _ _ _ rfl (by show 31 < 32; decide)]
  · rw [flag_setF_ne (by show 29 < 32; decide) (.inr (.inr (by show 15 < 29; decide))),
      flag_setFlag_ne (by show 29 < 32; decide) (.inr (.inr (by show 27 < 29; decide))),
      flag_setFlag_ne (by show 29 < 32; decide) (.inr (.inr (by show 28 < 29; decide))),
      flag_setFlag_same _ _ _ rfl (by show 29 < 32; decide)]
  · have hne : Reg.HQ_FN_RING_STAT + fnOff f ≠ off := fun e => hoff (e ▸ List.mem_singleton.2 rfl)
    rw [getReg_setF_ne (by exact hne), getReg_setFlag_ne (by exact hne), getReg_setFlag_ne (by exact hne),
      getReg_setFlag_ne (by exact hne), getReg_setFlag_ne (by exact hne), getReg_setReg_ne hne]

theorem onlyRegisters_ringStat (f r : Nat) (done_ : Bool) (s : State) : onlyRegisters s (finish s (ringStat f r done_ s)) := by
  simp [onlyRegisters, ringStat, setFlag]

theorem served_of_side {off : Nat} (h : sideServed s off = true) (f : State → State) : served off f s = f s := if_pos h

theorem completes_ringInvalidate (hserved : sideServed s (ringCmdReg f) = true) (hrange : inRange s f r = true) (hctx : ctxOf s r = some c) :
    completes (.ringInvalidate f r) s (fun t => ctxOf t r = some { c with invalidating := true } ∧
      flag t (Fld.HQ_FN_RING_STAT_DONE.at (fnOff f)) = false) := by
  have heff : served (ringCmdReg f) (invalidateEff f r) s =
      ringStat f r false (modCtx r (fun c => { c with invalidating := true }) s) := by
    rw [served_of_side hserved, invalidateEff, if_neg (by simp [hrange]), hctx]
  obtain ⟨hdone, -, -, hhost⟩ := ringStat_spec f r false (modCtx r (fun c => { c with invalidating := true }) s)
  refine completes_of_done (congrArg (done s) heff) ⟨?_, (flag_finish _ _ _).trans hdone⟩
  rw [ctxOf_finish, ctxOf_congr (congrArg HostState.ctx hhost)]
  exact ctxOf_modCtx hctx _

theorem signalVec_keeps {β : Type} {P : State → β} (hmsix : ∀ x (s : State), P { s with host := { s.host with msix := x } } = P s)
    (hout : ∀ o s, P (emit o s) = P s) (hcnt : ∀ s, P (bump Reg.HQ_CNT 6 s) = P s) (f v : Nat) (s : State) :
    P (signalVec f v s) = P s := keeps_ite P rfl (keeps_ite P (hmsix _ s) ((hcnt _).trans (hout _ s)))

theorem ringSignal_keeps {β : Type} {P : State → β} (hctx : ∀ r x s, P (putCtx r x s) = P s)
    (hmsix : ∀ x (s : State), P { s with host := { s.host with msix := x } } = P s) (hout : ∀ o s, P (emit o s) = P s)
    (hcnt : ∀ s, P (bump Reg.HQ_CNT 6 s) = P s) (r : Nat) (s : State) : P (ringSignal r s) = P s := by
  unfold ringSignal
  split
  · exact keeps_ite P ((signalVec_keeps hmsix hout hcnt _ _ _).trans (modCtx_keeps (hctx r) _ s)) rfl
  · rfl

theorem writeBack_eq (hctx : ctxOf s r = some c) :
    ∃ v, writeBack r s = putCtx r none (putBell r { bellOf v r with head := some c.cplHead } v) ∧ v.host.starved = s.host.starved := by
  unfold writeBack
  rw [hctx]
  refine ⟨_, rfl, ?_⟩
  exact keeps_ite (·.host.starved)
    (ringSignal_keeps (P := (·.host.starved)) (fun _ _ _ => rfl) (fun _ _ => rfl) (fun _ _ => rfl) (fun _ => rfl) r s) rfl

theorem completes_ringInvalidateDone (hctx : ctxOf s r = some c) (hinv : c.invalidating = true) (hidle : inFlight s r = 0)
    (hstarved : s.host.starved = []) :
    completes (.ringInvalidateDone r) s (fun t => ctxOf t r = none ∧ flag t (Fld.HQ_FN_RING_STAT_DONE.at (fnOff c.fn)) = true) := by
  obtain ⟨v, hback, hkept⟩ := writeBack_eq hctx
  obtain ⟨w, hw⟩ : ∃ w, w = ringStat c.fn r true (writeBack r s) := ⟨_, rfl⟩
  obtain ⟨hdone, -, -, hhost⟩ := ringStat_spec c.fn r true (writeBack r s)
  rw [← hw] at hdone hhost
  have hnone : w.host.starved = [] := by
    rw [hhost, hback]
    exact hkept.trans hstarved
  have heff : invalidateDoneEff r s = w := by
    rw [invalidateDoneEff, hctx]
    dsimp only
    rw [if_pos (by simp [hinv, hidle]), ← hw, retryStarved, hnone]
    rfl
  refine completes_of_done (congrArg (done s) heff) ⟨?_, (flag_finish _ _ _).trans hdone⟩
  rw [ctxOf_finish, ctxOf_congr (congrArg HostState.ctx hhost), hback, ctxOf_putCtx_same]

theorem completes_ringQuery (hserved : sideServed s (ringCmdReg f) = true) (hrange : inRange s f r = true) :
    completes (.ringQuery f r) s (fun t => flag t (Fld.HQ_FN_RING_STAT_RESIDENT.at (fnOff f)) = (ctxOf s r).isSome ∧
      regsKeptBut [Reg.HQ_FN_RING_STAT + fnOff f] s t ∧ onlyRegisters s t) := by
  have heff : ∃ d, served (ringCmdReg f) (ringQueryEff f r) s = ringStat f r d s := by
    rw [served_of_side hserved, ringQueryEff, if_neg (by simp [hrange])]
    exact ⟨_, rfl⟩
  obtain ⟨d, heff⟩ := heff
  obtain ⟨-, hresident, hregs, -⟩ := ringStat_spec f r d s
  exact completes_of_done (congrArg (done s) heff) ⟨(flag_finish _ _ _).trans hresident,
    fun off hoff => (getReg_finish _ _ _).trans (hregs off hoff), onlyRegisters_ringStat f r d s⟩

/-! ### Grants and tokens (R370 to R372) -/

/-- What a command has from the entry that its ring gave. -/
def fromEntry (ring slot seq : Nat) (h : HostCmd) (c : Cmd) : Prop :=
  (c.silent = false ∧ c.detached = false) ∧ c.ring = ring ∧ c.slot = slot ∧ c.seq = seq ∧ c.cmd = h

theorem lasting_fromEntry (ring slot seq : Nat) (h : HostCmd) : Lasting (fromEntry ring slot seq h) where
  heard hc := hc.1
  ended _ _ hc _ := hc
  core {c d} hc hcore := by
    have hd : fromEntry ring slot seq h (coreOf d) := hcore ▸ hc
    exact hd

/-- An accepted command stands on the lowest free tag. -/
theorem tagHas_acceptAs (f ring slot : Nat) (one : Option Nat) (b : List Byte) (aux : Option (List Byte)) (s : State) :
    tagHas (fromEntry ring slot (get64 s Reg.HQ_SEQ_LO + 1) (HostCmd.ofBytes b)) (acceptAs false f ring slot one b aux s)
      (firstFree 0 s.host.cmds) :=
  (acceptWork_acceptAs false f ring slot one b aux s).tags (lasting_fromEntry _ _ _ _) (fun _ _ h => h)
    ⟨_, cmdOf_putCmd_same _ _ _, ⟨rfl, rfl⟩, rfl, rfl, rfl, rfl⟩

theorem acceptAs_ctx (f ring slot : Nat) (one : Option Nat) (b : List Byte) (aux : Option (List Byte)) (s : State) :
    (acceptAs false f ring slot one b aux s).host.ctx = s.host.ctx := by
  have hb := congrArg (fun b : State => b.host.ctx) (acceptWork_acceptAs false f ring slot one b aux s).beyond
  exact hb

/-- The fetch of a ring's next command at the owner. -/
theorem fetchEff_eq {b : List Byte} {aux : Option (List Byte)} (hctx : ctxOf s r = some c) (howner : isOwner s = true)
    (hfree : ∀ e ∈ cmds s, ¬ (e.2.ring = r ∧ e.2.slot = c.fetchHead ∧ e.2.remote = false)) :
    ∃ one v, fetchEff r (some b) aux s = acceptAs false c.fn r c.fetchHead one b aux v ∧ v.regs = s.regs ∧ v.host.cmds = s.host.cmds ∧
      ∃ c', ctxOf v r = some c' ∧ c'.fetchHead = (c.fetchHead + 1) % entries c ∧
        c'.wrapped = (c.wrapped || (c.fetchHead + 1) % entries c == 0) := by
  have hnone : ¬ ((cmds s).any fun e => e.2.ring == r && e.2.slot == c.fetchHead && !e.2.remote) = true := by
    rw [List.any_eq_true]
    rintro ⟨e, he, hsame⟩
    simp only [Bool.and_eq_true, beq_iff_eq, Bool.not_eq_true'] at hsame
    exact hfree e he ⟨hsame.1.1, hsame.1.2, hsame.2⟩
  obtain ⟨w, hw⟩ : ∃ w, w = touch r (modCtx r (fun x => { x with
      fetchHead := (c.fetchHead + 1) % entries c, wrapped := x.wrapped || (c.fetchHead + 1) % entries c == 0 })
    (emit (.hostRead c.fn (c.cmdBase + 64 * c.fetchHead) 64) s)) := ⟨_, rfl⟩
  have hkeep {β : Type} (P : State → β) (hput : ∀ x s, P (putCtx r x s) = P s)
      (hclock : ∀ k (s : State), P { s with host := { s.host with clock := k } } = P s) (hout : ∀ o s, P (emit o s) = P s) : P w = P s := by
    rw [hw]
    exact (modCtx_keeps hput _ _).trans ((hclock _ _).trans ((modCtx_keeps hput _ _).trans (hout _ s)))
  obtain ⟨v, hv⟩ : ∃ v, v = (if HostCmd.list (HostCmd.ofBytes b)
      then emit (.hostRead c.fn (HostCmd.ofBytes b).dataAddr (16 * (HostCmd.ofBytes b).listCount)) w
      else if (HostCmd.ofBytes b).opcode = opCreate then emit (.hostRead c.fn (HostCmd.ofBytes b).dataAddr 32) w else w) := ⟨_, rfl⟩
  have hkeep' {β : Type} (P : State → β) (hout : ∀ o s, P (emit o s) = P s) : P v = P w := by
    rw [hv]
    exact keeps_ite P (hout _ w) (keeps_ite P (hout _ w) rfl)
  have hregs : v.regs = s.regs := (hkeep' State.regs fun _ _ => rfl).trans (hkeep State.regs (fun _ _ => rfl) (fun _ _ => rfl) fun _ _ => rfl)
  have hown : isOwner v = true := by
    have hwn : isOwner v = isOwner s := flag_of_getF (getF_of_getReg (getReg_congr hregs _))
    rw [hwn, howner]
  have hwctx : ctxOf w r = some _ := hw ▸ ctxOf_touch (ctxOf_modCtx (s := emit _ s) hctx _)
  refine ⟨fieldResult v c.fn b aux, v, ?_, hregs,
    (hkeep' (·.host.cmds) fun _ _ => rfl).trans (hkeep (·.host.cmds) (fun _ _ => rfl) (fun _ _ => rfl) fun _ _ => rfl), _,
    (ctxOf_congr (hkeep' (·.host.ctx) fun _ _ => rfl) r).trans hwctx, rfl, rfl⟩
  unfold fetchEff
  rw [hctx]
  dsimp only
  rw [if_neg hnone, ← hw, ← hv]
  exact if_pos hown

theorem completes_grant {b : List Byte} {aux : Option (List Byte)} {s1 : State} (hfetch : fetching s = true) (hallow : pairAllows s = true)
    (hsome : (ctxs s).filter (fun e => eligible s e.1 e.2) ≠ []) (hroom : (cmds s).length < 8192)
    (hpick : arbitrateRings ((ctxs s).filter (fun e => eligible s e.1 e.2)) s = (r, s1)) (hctx : ctxOf s1 r = some c)
    (howner : isOwner s1 = true) (hfree : ∀ e ∈ cmds s1, ¬ (e.2.ring = r ∧ e.2.slot = c.fetchHead ∧ e.2.remote = false)) :
    completes (.grant (some b) aux) s (fun t =>
      (∃ c', ctxOf t r = some c' ∧ c'.fetchHead = (c.fetchHead + 1) % entries c ∧
        c'.wrapped = (c.wrapped || (c.fetchHead + 1) % entries c == 0)) ∧
      ∃ k, cmdOf t (firstFree 0 s1.host.cmds) = some k ∧ k.ring = r ∧ k.slot = c.fetchHead ∧ k.cmd = HostCmd.ofBytes b ∧
        k.seq = get64 s1 Reg.HQ_SEQ_LO + 1) := by
  obtain ⟨one, v, hfetched, hregs, hcmds, c', hc', hhead, hwrapped⟩ := fetchEff_eq (b := b) (aux := aux) hctx howner hfree
  have heff : grantEff (some b) aux s = acceptAs false c.fn r c.fetchHead one b aux v := by
    unfold grantEff
    rw [if_neg (by simp [hfetch, hallow])]
    dsimp only
    rw [if_neg (by simpa using hsome), if_neg (by omega), hpick]
    exact hfetched
  obtain ⟨k, hk, -, hring, hslot, hseq, hcmd⟩ := tagHas_acceptAs c.fn r c.fetchHead one b aux v
  refine completes_of_done (congrArg (done s) heff) ⟨⟨c', ?_, hhead, hwrapped⟩, k, ?_, hring, hslot, hcmd, ?_⟩
  · rw [ctxOf_finish, ctxOf_congr (acceptAs_ctx _ _ _ _ _ _ _), hc']
  · rw [cmdOf, finish_host, ← hcmds]
    exact hk
  · rw [hseq, get64, get64, getReg_congr hregs, getReg_congr hregs]

theorem completes_tokenRefill (s : State) :
    completes .uTokenRefill s (fun t => getReg t Reg.HQ_U_TOKENS = getReg s Reg.HQ_U_BUDGET ∧
      regsKeptBut [Reg.HQ_U_TOKENS] s t ∧ onlyRegisters s t) :=
  completes_of_done (t := setReg Reg.HQ_U_TOKENS (getReg s Reg.HQ_U_BUDGET) s) rfl
    ⟨by rw [getReg_finish, getReg_setReg_same], regsKeptBut_finish_setReg _ _ s, by simp [onlyRegisters]⟩

/-! ### Interrupts (R373, R374) -/

theorem completes_coalesce (hctx : ctxOf s r = some c) (hsome : c.unsignalled ≠ 0) (hint : c.intEn = true)
    (hen : (fnSt s c.fn).msixEn = true) (hmask : (fnSt s c.fn).fnMask = false)
    (hvec : (Tbl.get {} (vecKey c.fn c.vector) s.host.msix : MsixVec).masked = false) :
    completes (.coalesceTimerExpiry r) s (fun t => t.out = s.out ++ [.msix c.fn c.vector] ∧
      ctxOf t r = some { c with unsignalled := 0 }) := by
  obtain ⟨w, hw⟩ : ∃ w, w = putCtx r (some { c with unsignalled := 0 }) s := ⟨_, rfl⟩
  have heff : coalesceEff r s = bump Reg.HQ_CNT 6 (emit (.msix c.fn c.vector) w) := by
    have hfn : fnSt w c.fn = fnSt s c.fn := by rw [hw]; rfl
    have hmv : w.host.msix = s.host.msix := by rw [hw]; rfl
    rw [coalesceEff, hctx]
    dsimp only
    rw [if_neg hsome, ringSignal, hctx]
    dsimp only
    rw [if_pos hint, modCtx_of_ctx hctx, ← hw, signalVec, hfn, hmv, hen, hmask, hvec]
    rfl
  refine completes_of_done (congrArg (done s) heff) ⟨?_, ?_⟩
  · rw [finish_out, hw]
    rfl
  · rw [ctxOf_finish, hw]
    exact ctxOf_putCtx_same r _ s

theorem completes_msixUnmask {v : Nat} (hwithin : v < msixCount s f) (hen : (fnSt s f).msixEn = true) (hmask : (fnSt s f).fnMask = false)
    (hpending : (Tbl.get {} (vecKey f v) s.host.msix : MsixVec).pending = true) :
    completes (.msixUnmask f (some v)) s (fun t => t.out = s.out ++ [.msix f v] ∧
      (Tbl.get {} (vecKey f v) t.host.msix : MsixVec).pending = false) := by
  obtain ⟨mv, hmv⟩ : ∃ mv : MsixVec, mv = Tbl.get {} (vecKey f v) s.host.msix := ⟨_, rfl⟩
  obtain ⟨w, hw⟩ : ∃ w : State, w = { s with host := { s.host with
    msix := Tbl.put {} (vecKey f v) { mv with masked := false } s.host.msix } } := ⟨_, rfl⟩
  have hget : (Tbl.get {} (vecKey f v) w.host.msix : MsixVec) = { mv with masked := false } := by
    have hput := Tbl.get_put_same (α := MsixVec) {} { mv with masked := false } (vecKey f v) s.host.msix
    rw [hw]
    exact hput
  have hfn : fnSt w f = fnSt s f := by rw [hw]; rfl
  have heff : msixWithin f (some v) (msixUnmaskEff f (some v)) s = bump Reg.HQ_CNT 6 (emit (.msix f v)
      { w with host := { w.host with msix := Tbl.put {} (vecKey f v) { mv with masked := false, pending := false } w.host.msix } }) := by
    have hunmask : msixUnmaskEff f (some v) s = unmaskOne f v w := by rw [hw, hmv]; rfl
    unfold msixWithin
    dsimp only
    rw [if_pos hwithin, hunmask]
    unfold unmaskOne
    dsimp only
    rw [hget, hfn, if_pos (by simp [hmv, hpending, hmask, hen])]
  refine completes_of_done (congrArg (done s) heff) ⟨?_, ?_⟩
  · rw [finish_out, hw]
    rfl
  · rw [finish_host]
    have hlast := congrArg MsixVec.pending
      (Tbl.get_put_same (α := MsixVec) {} { mv with masked := false, pending := false } (vecKey f v) w.host.msix)
    exact hlast

/-! ### Function-level reset (R340) -/

theorem abortTarget_keeps {β : Type} {P : State → β} (hP : ∀ s, P (beyondWork s) = P s) (n : Nat) (s : State) :
    P (abortTarget n s).2 = P s := by
  have hb := congrArg P ((commandWork.refl s).abortTarget (k := n)).beyond
  exact (hP _).symm.trans (hb.trans (hP _))

/-- The end of a function's commands leaves what the ends of commands leave. -/
theorem flrCmd_keeps {β : Type} {P : State → β} (hP : ∀ s, P (beyondWork s) = P s) (hput : ∀ n c s, P (putCmd n c s) = P s)
    (hpost : ∀ l (s : State), P { s with host := { s.host with posting := l } } = P s) (n : Nat) (s : State) :
    P (flrCmd n s) = P s := by
  have hmod (n : Nat) (g : Cmd → Cmd) (s : State) : P (modCmd n g s) = P s := by
    unfold modCmd
    split
    · exact hput _ _ _
    · rfl
  unfold flrCmd
  split
  · rfl
  · refine keeps_ite P ((hput _ _ _).trans (hpost _ s)) ?_
    have hended := (abortTarget_keeps hP n (modCmd n (fun c => { c with silent := true }) s)).trans (hmod _ _ s)
    exact keeps_ite P ((hmod _ _ _).trans hended) hended

theorem resetFnRegs_host (f : Nat) (s : State) : (resetFnRegs f s).host = s.host := keeps_ite State.host rfl rfl

theorem completes_flr (hf : f ≠ 0) :
    completes (.flr f) s (fun t => (fnSt t f).inFlr = true ∧ ∀ r, inRange s f r = true → bellOf t r = {}) := by
  obtain ⟨w, hw⟩ : ∃ w : State, w = { modFn f (fun _ => { inFlr := true }) s with host := {
    (modFn f (fun _ => { inFlr := true }) s).host with
    doorbells := s.host.doorbells.filter (fun e => !inRange s f e.1)
    loading := s.host.loading.filter (fun r => !inRange s f r)
    starved := s.host.starved.filter (fun r => !inRange s f r)
    msix := s.host.msix.filter (fun e => e.1 / 4096 ≠ f) } } := ⟨_, rfl⟩
  have heff : flrEff f s = resetFnRegs f (forEach (fun e s => if e.2.fn = f && !e.2.remote then flrCmd e.1 s else s) (cmds w) w) := by
    rw [flrEff, if_neg hf, flrStart, hw]
    rfl
  have hkeep {β : Type} (P : HostState → β) (hP : ∀ s, P (beyondWork s).host = P s.host)
      (hput : ∀ n c s, P (putCmd n c s).host = P s.host)
      (hpost : ∀ l (s : State), P { s.host with posting := l } = P s.host) :
      P (finish s (flrEff f s)).host = P w.host := by
    rw [finish_host, heff, resetFnRegs_host]
    refine forEach_keeps (fun s => P s.host) _ (fun (e : Nat × Cmd) s => keeps_ite (fun s => P s.host) ?_ rfl) _ _
    exact flrCmd_keeps (P := fun s => P s.host) hP hput hpost e.1 s
  refine completes_of_done rfl ⟨?_, fun r hr => ?_⟩
  · rw [fnSt, hkeep HostState.fns (fun _ => rfl) (fun _ _ _ => rfl) fun _ _ => rfl, hw]
    have hmod := congrArg FnState.inFlr (Tbl.get_put_same (α := FnState) {} { inFlr := true } f s.host.fns)
    exact hmod
  · rw [bellOf, hkeep HostState.doorbells (fun _ => rfl) (fun _ _ _ => rfl) fun _ _ => rfl, hw]
    exact (Tbl.get_filter {} (fun r => !inRange s f r) r s.host.doorbells).trans (if_neg (by simp [hr]))

theorem mem_put {α : Type} [DecidableEq α] {d v : α} {k : Nat} {m : Tbl α} {e : Nat × α} (h : e ∈ Tbl.put d k v m) :
    e = (k, v) ∧ v ≠ d ∨ e ∈ m := by
  unfold Tbl.put at h
  split at h
  · exact .inr (List.mem_filter.1 h).1
  · next hv =>
    rcases Tbl.mem_ins h with rfl | hm
    · exact .inl ⟨rfl, hv⟩
    · exact .inr hm

theorem mem_of_get {α : Type} {d v : α} {k : Nat} {m : Tbl α} (h : Tbl.get d k m = v) (hv : v ≠ d) : (k, v) ∈ m := by
  induction m with
  | nil => exact absurd h.symm hv
  | cons e m ih =>
    obtain ⟨j, w⟩ := e
    unfold Tbl.get at h
    split at h
    · next hj =>
      subst hj h
      exact List.mem_cons_self
    · exact List.mem_cons_of_mem _ (ih h)

/-- No context is function f's, which is not in a reset. -/
def freeOf (f : Nat) (s : State) : Prop := (fnSt s f).inFlr = false ∧ ∀ r c, (r, some c) ∈ s.host.ctx → c.fn ≠ f

theorem freeOf.congr (h : freeOf f s) (hctx : t.host.ctx = s.host.ctx) (hfns : t.host.fns = s.host.fns) : freeOf f t := by
  rw [freeOf, fnSt, hctx, hfns]
  exact h

theorem freeOf.release (h : freeOf f s) (r : Nat) : freeOf f (putCtx r none s) := by
  refine ⟨h.1, fun r' c hmem => ?_⟩
  rcases mem_put (d := none) (v := none) (m := s.host.ctx) hmem with ⟨-, hne⟩ | hmem
  · exact absurd rfl hne
  · exact h.2 r' c hmem

theorem freeOf.modCtx {g : RingCtx → RingCtx} (h : freeOf f s) (hg : ∀ c, (g c).fn = c.fn) (r : Nat) : freeOf f (modCtx r g s) := by
  unfold Machine.modCtx
  split
  · next c hc =>
    refine ⟨h.1, fun r' c' hmem => ?_⟩
    rcases mem_put (d := none) (v := some (g c)) (m := s.host.ctx) hmem with ⟨heq, -⟩ | hmem
    · cases heq
      rw [hg]
      exact h.2 r c (mem_of_get hc (by simp))
    · exact h.2 r' c' hmem
  · exact h

theorem freeOf.ite {p : Prop} {_ : Decidable p} (hs : freeOf f s) (ht : freeOf f t) : freeOf f (if p then s else t) := by
  split
  · exact hs
  · exact ht

theorem freeOf.signalVec (h : freeOf f s) (g v : Nat) : freeOf f (signalVec g v s) := .ite h (.ite (h.congr rfl rfl) (h.congr rfl rfl))

theorem freeOf.ringSignal (h : freeOf f s) (r : Nat) : freeOf f (ringSignal r s) := by
  unfold Machine.ringSignal
  split
  · exact .ite ((h.modCtx (g := fun c => { c with unsignalled := 0 }) (fun _ => rfl) r).signalVec _ _) h
  · exact h

theorem freeOf.writeBack (h : freeOf f s) (r : Nat) : freeOf f (writeBack r s) := by
  unfold Machine.writeBack
  split
  · exact h
  · exact freeOf.release (freeOf.congr (.ite (h.ringSignal r) h) rfl rfl) r

theorem freeOf.takeCtx {g : Nat} (h : freeOf f s) (htake : takeCtx g s = some t) : freeOf f t := by
  unfold Machine.takeCtx at htake
  split at htake
  · cases htake
  · dsimp only at htake
    split at htake
    · cases htake
      exact h
    · split at htake
      · cases htake
        exact h
      · split at htake
        · cases htake
          exact (h.writeBack _).congr rfl rfl
        · split at htake
          · split at htake
            · cases htake
              exact (h.writeBack _).congr rfl rfl
            · cases htake
          · cases htake

theorem freeOf.startLoad (h : freeOf f s) (r : Nat) : freeOf f (startLoad r s) := by
  have hread {s : State} (h : freeOf f s) (r : Nat) : freeOf f (readDesc r s) := by
    unfold readDesc
    split
    · exact h.congr rfl rfl
    · exact h
  unfold Machine.startLoad
  refine .ite h ?_
  split
  · exact h
  · split
    · next htake =>
      refine .ite (hread ?_ r) ?_ <;> exact (h.takeCtx htake).congr rfl rfl
    · exact h.congr (evt_host_ctx _ _ _ _) (evt_host_fns _ _ _ _)

theorem freeOf.retryStarved (h : freeOf f s) : freeOf f (retryStarved s) := by
  unfold Machine.retryStarved
  generalize s.host.starved = rs
  induction rs generalizing s with
  | nil => exact h
  | cons r rs ih => exact ih (h.startLoad r)

theorem completes_flrEnd (hflr : (fnSt s f).inFlr = true) (hnone : ∀ e ∈ cmds s, e.2.fn ≠ f) :
    completes (.flrEnd f) s (fun t => (fnSt t f).inFlr = false ∧ ∀ e ∈ ctxs t, e.2.fn ≠ f) := by
  obtain ⟨w, hw⟩ : ∃ w : State, w = modFn f (fun st => { st with inFlr := false }) { s with host := { s.host with
    ctx := s.host.ctx.filter (fun e => match e.2 with | some c => c.fn ≠ f | none => true) } } := ⟨_, rfl⟩
  have hended : ¬ ((cmds s).any fun e => e.2.fn == f && !e.2.remote && !e.2.detached && e.2.state != .ended) = true := by
    rw [List.any_eq_true]
    rintro ⟨e, he, hmine⟩
    simp only [Bool.and_eq_true, beq_iff_eq] at hmine
    exact hnone e he hmine.1.1.1
  have heff : flrEndEff f s = retryStarved (evt Fld.HQ_EVT_FLR noUnit [⟨1, f⟩] w) := by
    unfold flrEndEff
    rw [if_neg (by simp [hflr]), if_neg hended]
    exact congrArg (fun w => retryStarved (evt Fld.HQ_EVT_FLR noUnit [⟨1, f⟩] w)) hw.symm
  have hfree : freeOf f w := by
    rw [hw]
    refine ⟨congrArg FnState.inFlr (Tbl.get_put_same (α := FnState) _ _ _ _), fun r c hmem => ?_⟩
    simpa using (List.mem_filter.1 hmem).2
  obtain ⟨hflr', hctx⟩ := (hfree.congr (evt_host_ctx Fld.HQ_EVT_FLR noUnit [⟨1, f⟩] w) (evt_host_fns _ _ _ _)).retryStarved
  rw [← heff] at hflr' hctx
  refine completes_of_done rfl ⟨?_, fun e he => ?_⟩
  · rw [fnSt, finish_host]
    exact hflr'
  · rw [ctxs, finish_host, List.mem_filterMap] at he
    obtain ⟨⟨r, o⟩, hmem, hsome⟩ := he
    cases o with
    | none => cases hsome
    | some c =>
      cases hsome
      exact hctx r c hmem

/-- Settles O38: a clause for each operation; a grant through the tag that its acceptance leaves, the end of a reset through the
loads that it lets start. -/
theorem hostRings : Obligations.HostRings := by
  unfold Obligations.HostRings
  intro s
  exact ⟨fun f r v c hrings hrange hflr hctx hrun hsize htail hhead hwithin =>
      completes_doorbell hrings hrange hflr hctx hrun hsize htail hhead hwithin,
    fun f r v hrings => completes_doorbellDiscarded v hrings,
    fun f r q d hload hfn hcfg hvalid hgood => completes_contextLoad hload hfn hcfg hvalid hgood,
    fun f r q hstarved hload hctx hfn hcfg hquota => completes_contextFreed hstarved hload hctx hfn hcfg hquota,
    fun f r c hserved hrange hctx => completes_ringInvalidate hserved hrange hctx,
    fun r c hctx hinv hidle hstarved => completes_ringInvalidateDone hctx hinv hidle hstarved,
    fun f r hserved hrange => completes_ringQuery hserved hrange,
    fun b aux r s1 c hfetch hallow hsome hroom hpick hctx howner hfree =>
      completes_grant hfetch hallow hsome hroom hpick hctx howner hfree,
    completes_tokenRefill s,
    fun r c hctx hsome hint hen hmask hvec => completes_coalesce hctx hsome hint hen hmask hvec,
    fun f v hwithin hen hmask hpending => completes_msixUnmask hwithin hen hmask hpending,
    fun f hf => completes_flr hf, fun f hflr hnone => completes_flrEnd hflr hnone⟩

end Sys2Proof.Proofs
end

section
/-! How the commands of the ordered path run and end (R359, R361, R367, R377, R378, R381, R383, R389, R395, R398, R407, R509). -/

namespace Sys2Proof.Proofs

open Sys2Proof Sys2Proof.Machine Sys2Proof.Safety

variable {s t u : State} {n : Nat} {c : Cmd}

/-! ### What the pool's round leaves of a command -/

/-- Whatever lasts of a command in u lasts of it in s. -/
structure keepsTags (u s : State) : Prop where
  tags : ∀ {P : Cmd → Prop} {n : Nat}, Lasting P → tagHas P u n → tagHas P s n

theorem keepsTags.refl (s : State) : keepsTags s s := ⟨fun _ h => h⟩

theorem keepsTags.work (h : keepsTags u s) (h' : commandWork s t) : keepsTags u t := ⟨fun hP hu => h'.tags hP (h.tags hP hu)⟩

/-- A change that leaves the commands. -/
theorem keepsTags.beside (h : keepsTags u s) (hc : t.host.cmds = s.host.cmds) : keepsTags u t :=
  ⟨fun hP hu => tagHas_congr hc (h.tags hP hu)⟩

theorem keepsTags.ite {p : Prop} {_ : Decidable p} (hs : keepsTags u s) (ht : keepsTags u t) : keepsTags u (if p then s else t) := by
  split
  · exact hs
  · exact ht

theorem keepsTags.onlyIf {p : Prop} (h : keepsTags u s) {_ : Decidable p} (f : keepsTags u s → keepsTags u t) :
    keepsTags u (if p then t else s) := .ite (f h) h

theorem keepsTags.forEach {α : Type} {f : α → State → State} {l : List α} (h : keepsTags u s)
    (hf : ∀ {s} x, keepsTags u s → keepsTags u (f x s)) : keepsTags u (forEach f l s) := by
  induction l generalizing s with
  | nil => exact h
  | cons x l ih => exact ih (hf x h)

theorem keepsTags.evt {f unit items} (h : keepsTags u s) : keepsTags u (evt f unit items s) := h.beside (evt_host_cmds _ _ _ _)

theorem keepsTags.modCmd {k f} (h : keepsTags u s) (hf : ∀ c, coreOf (f c) = coreOf c) : keepsTags u (modCmd k f s) :=
  h.work ((commandWork.refl s).modCmd hf)

theorem keepsTags.unpinLadder {l} (h : keepsTags u s) : keepsTags u (unpinLadder l s) :=
  (h.work (commandWork.refl s).unpinSlot).beside rfl

theorem keepsTags.arbitrate (h : keepsTags u s) : keepsTags u (arbitrate s) :=
  h.beside (arbitrate_keeps (P := (·.host.cmds)) (fun _ _ => rfl) (fun _ _ _ => rfl) s)

theorem commandWork.hankReadOne {k} (h : commandWork u s) : commandWork u (hankReadOne k s) := by
  unfold Machine.hankReadOne
  split
  · exact h
  · refine .ite h (.ite h (.ite h.endCmd.leaveLadders.gcHeld.noEngineEvt (h.forEach fun _ h => ?_)))
    dsimp only
    split
    · exact h
    · exact h.onlyIf (·.beside rfl rfl rfl rfl)

theorem commandWork.hankReads (h : commandWork u s) : commandWork u (hankReads s) := h.forEach fun _ h => h.hankReadOne

theorem keepsTags.settleSibling {id m v} (h : keepsTags u s) : keepsTags u (settleSibling id m v s) := by
  unfold Machine.settleSibling
  split
  · exact h
  · exact .ite h (.ite (h.beside rfl) (h.beside rfl))

theorem keepsTags.queueReloc {skein place} (h : keepsTags u s) : keepsTags u (queueReloc skein place s) :=
  .ite h (.ite (h.evt.beside rfl) (.ite (h.evt.beside rfl) (h.beside rfl)))

theorem keepsTags.l4Begin (h : keepsTags u s) : keepsTags u (l4Begin s) :=
  .ite h (keepsTags.evt (keepsTags.arbitrate (h.beside rfl)))

theorem keepsTags.l4End (h : keepsTags u s) : keepsTags u (l4End s) := h.onlyIf fun h => keepsTags.arbitrate (h.beside rfl)

theorem keepsTags.ladderFail {l} (h : keepsTags u s) : keepsTags u (ladderFail l s) := by
  unfold Machine.ladderFail
  extract_lets s₁ s₂ s₃ s₄ _ _ s₅ s₆
  have h₁ : keepsTags u s₁ := keepsTags.evt (h.beside rfl)
  have h₃ : keepsTags u s₃ := h₁.unpinLadder.forEach fun _ h => by
    split
    · exact h.modCmd fun _ => rfl
    · exact h
  have h₄ : keepsTags u s₄ := h₃.forEach fun _ h => h.settleSibling
  have h₅ : keepsTags u s₅ := .ite h₄ (h₄.evt.beside rfl)
  have h₆ : keepsTags u s₆ := by
    unfold s₆
    split
    · exact h₅.beside rfl
    · exact h₅
  exact keepsTags.l4End (h₆.beside rfl)

theorem keepsTags.startRecon {l} (h : keepsTags u s) : keepsTags u (startRecon l s) := .ite (h.beside rfl) (h.beside rfl)

theorem keepsTags.startCombine {l} (h : keepsTags u s) : keepsTags u (startCombine l s) := (h.queueReloc).beside rfl

theorem keepsTags.enterStep {id k} (h : keepsTags u s) : keepsTags u (enterStep id k s) := by
  unfold Machine.enterStep
  split
  · exact h
  · extract_lets lim s₁ l₁ s₂ media s₃ l₃ s₄ s₅
    have h₁ : keepsTags u s₁ := h.onlyIf (·.forEach fun _ h => h.settleSibling)
    have h₂ : keepsTags u s₂ := h₁.beside rfl
    have h₃ : keepsTags u s₃ := h₂.beside rfl
    have h₅ : keepsTags u s₅ := keepsTags.onlyIf (h₃.onlyIf (·.queueReloc)) (·.unpinLadder)
    exact .ite (keepsTags.l4End (h₂.unpinLadder.beside rfl)) (.ite h₂.ladderFail (.ite (h₅.beside rfl)
      (.ite (keepsTags.l4Begin (h₅.beside rfl)) (.ite h₅.startRecon.l4End (h₅.onlyIf (·.startCombine.l4End))))))

theorem keepsTags.sweepMember {k w} (h : keepsTags u s) : keepsTags u (sweepMember k w s) := by
  unfold Machine.sweepMember
  extract_lets a g suspect
  clear_value suspect
  split
  · exact .ite h ((h.modCmd (f := fun c => { c with gate := .suspect _ _ }) fun _ => rfl).beside rfl)
  · split
    · exact h.beside rfl
    · exact .ite h (keepsTags.enterStep (h.beside rfl))

theorem keepsTags.poolSweep (h : keepsTags u s) : keepsTags u (poolSweep s) := by
  unfold Machine.poolSweep
  extract_lets s₁ s₂ s₃
  have h₁ : keepsTags u s₁ := h.forEach fun _ h => h.forEach fun _ h => h.sweepMember
  have h₂ : keepsTags u s₂ := h₁.forEach fun _ h => h.onlyIf fun h => keepsTags.enterStep (h.beside rfl)
  have h₃ : keepsTags u s₃ := h₂.forEach fun _ h => h.forEach fun _ h => h.onlyIf (·.settleSibling)
  exact h₃.work (commandWork.refl _).hankReads

theorem commandWork.passPnr {ids} (h : commandWork u s) : commandWork u (passPnr ids s) :=
  h.forEach fun _ h => h.onlyIf fun h => h.modCmd (f := fun c => { c with pnr := true }) fun _ => rfl

/-! ### Leaving WAITING (R377, R383) -/

/-- A command that runs, or has ended. -/
def runsOn (c : Cmd) : Prop := (c.silent = false ∧ c.detached = false) ∧ (c.state = .running ∨ c.state = .ended)

theorem lasting_runsOn : Lasting runsOn where
  heard h := h.1
  ended _ _ h _ := ⟨h.1, .inr rfl⟩
  core {c d} h hcore := by
    have hd : runsOn (coreOf d) := hcore ▸ h
    exact hd

/-- A read that runs on its snapshot without its entry, or has ended. -/
def readsOn (snap : List BlockSrc) (c : Cmd) : Prop :=
  (c.silent = false ∧ c.detached = false) ∧ c.lock = none ∧ (c.state = .running ∧ c.snap = snap ∨ c.state = .ended)

theorem lasting_readsOn (snap : List BlockSrc) : Lasting (readsOn snap) where
  heard h := h.1
  ended _ _ h _ := ⟨h.1, rfl, .inr rfl⟩
  core {c d} h hcore := by
    have hd : readsOn snap (coreOf d) := hcore ▸ h
    exact hd

theorem tagHas_finish {P : Cmd → Prop} (s : State) (h : tagHas P t n) : tagHas P (finish s t) n :=
  tagHas_congr (congrArg HostState.cmds (finish_host s t)) h

theorem keepsTags.afterRun (h : keepsTags u s) : keepsTags u (Machine.poolSweep (Machine.hankReads s)) :=
  (h.work (commandWork.refl s).hankReads).poolSweep

section
variable (hc : onTag s n c)
include hc

theorem completes_commandRun (hrun : mayRun s c = true) (hop : c.cmd.opcode ≠ opRead) :
    completes (.commandRun n) s (fun t => ∃ d, cmdOf t n = some d ∧ (d.state = .running ∨ d.state = .ended)) := by
  obtain ⟨hcmd, hheard⟩ := hc
  have heff : commandRunEff n s = modCmd n (fun c => { c with state := .running }) s := by
    unfold commandRunEff
    rw [hcmd]
    dsimp only
    rw [if_neg (by simp [hrun]), if_neg hop]
  have hstart : tagHas runsOn (commandRunEff n s) n := heff ▸ ⟨_, cmdOf_modCmd_same hcmd _, hheard, .inl rfl⟩
  obtain ⟨d, hd, -, hstate⟩ := tagHas_finish s ((keepsTags.refl (commandRunEff n s)).afterRun.tags lasting_runsOn hstart)
  exact completes_of_done rfl ⟨d, hd, hstate⟩

theorem completes_commandRunRead (hrun : mayRun s c = true) (hop : c.cmd.opcode = opRead) :
    completes (.commandRun n) s (fun t => ∃ d, cmdOf t n = some d ∧ d.lock = none ∧
      (d.state = .running ∧ d.snap = snapshot s c ∨ d.state = .ended)) := by
  obtain ⟨hcmd, hheard⟩ := hc
  obtain ⟨v, hv⟩ : ∃ v, v = modCmd n (fun c' => { c' with state := .running, snap := snapshot s c, lock := none }) s := ⟨_, rfl⟩
  have heff : commandRunEff n s = bump Reg.ORD_CNT 1 (passPnr (pinsOf (snapshot s c)) v) := by
    unfold commandRunEff
    rw [hcmd]
    dsimp only
    rw [if_neg (by simp [hrun]), if_pos hop, hv]
  have hstart : tagHas (readsOn (snapshot s c)) v n := hv ▸ ⟨_, cmdOf_modCmd_same hcmd _, hheard, rfl, .inl ⟨rfl, rfl⟩⟩
  have hran : keepsTags v (commandRunEff n s) := heff ▸ ((keepsTags.refl v).work (commandWork.refl v).passPnr).beside rfl
  obtain ⟨d, hd, -, hlock, hstate⟩ := tagHas_finish s (hran.afterRun.tags (lasting_readsOn _) hstart)
  exact completes_of_done rfl ⟨d, hd, hlock, hstate⟩

/-! ### Ends of NOP, READ and IMPORT_READ (R361, R378) -/

theorem completes_nop (hop : c.cmd.opcode = opNop) (hrun : c.state = .running) :
    completes (.nop n) s (fun t => endedAs t n .success 0) := by
  have heff : nopEff n s = endCmd n .success 0 s := by
    unfold nopEff
    rw [hc.1]
    exact if_pos (by simp [hop, hrun])
  exact completes_of_done (congrArg (done s) heff)
    (endedAs_of_tagHas (tagHas_finish s (tagHas_endCmd hc (by rw [hrun]; decide) _ _)))

end

theorem writeSegs_keeps {β : Type} {P : State → β} (hout : ∀ o s, P (emit o s) = P s) (fn : Nat) :
    ∀ (segs : List (Nat × Nat)) (d : List Byte) (s : State), P (writeSegs fn segs d s) = P s
  | [], _, _ => rfl
  | (_, _) :: segs, _, _ => keeps_ite P rfl ((writeSegs_keeps hout fn segs _ _).trans (hout _ _))

theorem sendData_keeps {β : Type} {P : State → β} (hout : ∀ o s, P (emit o s) = P s) (n : Nat) (c : Cmd) (d : List Byte) (s : State) :
    P (sendData n c d s) = P s := keeps_ite P (hout _ s) (writeSegs_keeps hout _ _ _ s)

theorem onTag_congr (h : t.host.cmds = s.host.cmds) (hc : onTag s n c) : onTag t n c := by
  rw [onTag, cmdOf, h]
  exact hc

/-- The end of a command with the release of what nothing holds any more. -/
theorem endedAs_gcHeld (hc : onTag s n c) (hopen : c.state ≠ .ended) (st : Status) (result : Nat) :
    tagHas (endsWith st result) (gcHeld (endCmd n st result s)) n :=
  (commandWork.refl _).gcHeld.tags (lasting_endsWith st result) (tagHas_endCmd hc hopen st result)

theorem outs_getD (c : Cmd) {i : Nat} (hi : i < c.cmd.count) (s : State) :
    ((List.range c.cmd.count).map (blockOutcome s c)).getD i none = blockOutcome s c i := by
  simp [List.getD, hi]

section
variable (hc : onTag s n c)
include hc

theorem completes_read (hop : c.cmd.opcode = opRead) (hrun : c.state = .running) (hgate : c.gate = .open)
    (hgood : ∀ i < c.cmd.count, ∃ d, blockOutcome s c i = some (.inr d)) :
    completes (.read n) s (fun t => endedAs t n
        (readStatus ((readGood s c).foldl (fun a d => max a d.2.1) c.media) ((readGood s c).foldl (fun a d => max a d.2.2) c.step))
        (c.snap.filter (fun b => b = .never)).length ∧
      ∀ o ∈ (sendData n c ((readGood s c).flatMap (·.1)) s).out, o ∈ t.out) := by
  obtain ⟨outs, houts⟩ : ∃ outs, outs = (List.range c.cmd.count).map (blockOutcome s c) := ⟨_, rfl⟩
  have hknown : ¬ outs.any Option.isNone = true := by
    rw [houts, List.any_map, List.any_eq_true]
    rintro ⟨i, hi, hnone⟩
    obtain ⟨d, hd⟩ := hgood i (List.mem_range.1 hi)
    simp [hd] at hnone
  have hall {f : Option (Sum Status (List Byte × Nat × Nat)) → Option (List Byte × Nat × Nat)} (hf : ∀ d, f (some (.inr d)) = some d) :
      outs.filterMap f = readGood s c := by
    rw [houts, List.filterMap_map]
    refine List.filterMap_congr fun i hi => ?_
    obtain ⟨d, hd⟩ := hgood i (List.mem_range.1 hi)
    rw [Function.comp_apply, hd]
    exact hf d
  obtain ⟨w, hw⟩ : ∃ w, w = sendData n c ((readGood s c).flatMap (·.1)) s := ⟨_, rfl⟩
  have htag : onTag w n c := onTag_congr (hw ▸ sendData_keeps (P := (·.host.cmds)) (fun _ _ => rfl) n c _ s) hc
  obtain ⟨st, hst⟩ : ∃ st, st = readStatus ((readGood s c).foldl (fun a d => max a d.2.1) c.media)
    ((readGood s c).foldl (fun a d => max a d.2.2) c.step) := ⟨_, rfl⟩
  obtain ⟨v, hv⟩ : ∃ v, v = modCmd n (fun c' => { c' with
    step := (readGood s c).foldl (fun a d => max a d.2.2) c.step, relocated := decide (st = .successRelocated) }) w := ⟨_, rfl⟩
  have heff : readEff n s = gcHeld (endCmd n st (c.snap.filter (fun b => b = .never)).length v) := by
    unfold readEff
    rw [hc.1]
    dsimp only
    rw [if_neg (by simp [hop, hrun, hgate]), ← houts, if_neg hknown]
    split
    · next i hfind =>
      have hfail := List.find?_some hfind
      obtain ⟨d, hd⟩ := hgood i (List.mem_range.1 (List.mem_of_find?_eq_some hfind))
      rw [houts, outs_getD c (List.mem_range.1 (List.mem_of_find?_eq_some hfind)), hd] at hfail
      cases hfail
    · rw [hall fun _ => rfl, ← hst, ← hw, ← hv]
  have hmarked : onTag v n { c with
      step := (readGood s c).foldl (fun a d => max a d.2.2) c.step, relocated := decide (st = .successRelocated) } :=
    ⟨hv ▸ cmdOf_modCmd_same htag.1 _, hc.2⟩
  refine completes_of_done (congrArg (done s) heff) ⟨?_, fun o ho => ?_⟩
  · rw [← hst]
    exact endedAs_of_tagHas (tagHas_finish s (endedAs_gcHeld hmarked (show c.state ≠ .ended by rw [hrun]; decide) _ _))
  · rw [finish_out]
    refine (commandWork.refl v).endCmd.gcHeld.out.subset ?_
    rw [hv, modCmd_out, hw]
    exact ho

/-- The first block that failed gives the read its status and its RESULT. -/
theorem completes_readFails {i : Nat} {st : Status} (hop : c.cmd.opcode = opRead) (hrun : c.state = .running) (hgate : c.gate = .open)
    (hi : i < c.cmd.count) (hknown : ∀ j < c.cmd.count, (blockOutcome s c j).isSome) (hfail : blockOutcome s c i = some (.inl st))
    (hfirst : ∀ j < i, ∃ d, blockOutcome s c j = some (.inr d)) : completes (.read n) s (fun t => endedAs t n st i) := by
  obtain ⟨outs, houts⟩ : ∃ outs, outs = (List.range c.cmd.count).map (blockOutcome s c) := ⟨_, rfl⟩
  have hsome : ¬ outs.any Option.isNone = true := by
    rw [houts, List.any_map, List.any_eq_true]
    rintro ⟨j, hj, hnone⟩
    exact Option.isSome_iff_ne_none.1 (hknown j (List.mem_range.1 hj)) (Option.isNone_iff_eq_none.1 hnone)
  have hfind {f : Nat → Bool} (hi : f i = true) (hj : ∀ j < i, f j = false) : (List.range c.cmd.count).find? f = some i := by
    rw [List.find?_range_eq_some]
    exact ⟨hi, List.mem_range.2 ‹_›, fun j h => by simp [hj j h]⟩
  have heff : readEff n s = gcHeld (endCmd n st i s) := by
    unfold readEff
    rw [hc.1]
    dsimp only
    rw [if_neg (by simp [hop, hrun, hgate]), ← houts, if_neg hsome, hfind]
    · dsimp only
      rw [houts, outs_getD c hi, hfail]
    · rw [houts, outs_getD c hi, hfail]
    · intro j hj
      obtain ⟨d, hd⟩ := hfirst j hj
      rw [houts, outs_getD c (by omega), hd]
  exact completes_of_done (congrArg (done s) heff)
    (endedAs_of_tagHas (tagHas_finish s (endedAs_gcHeld hc (by rw [hrun]; decide) _ _)))

theorem completes_importRead (hop : c.cmd.opcode = opImport) (hrun : c.state = .running) (hgate : c.gate = .open)
    (hreading : c.reading = true) (hfails : c.fails = []) (hgot : ∀ i < c.cmd.count, Tbl.get [] i c.got ≠ []) :
    completes (.importRead n) s (fun t => endedAs t n (if c.step = 3 then .successRecovered else .success) 0) := by
  obtain ⟨w, hw⟩ : ∃ w, w = sendData n c ((List.range c.cmd.count).flatMap (fun i => Tbl.get [] i c.got)) s := ⟨_, rfl⟩
  have htag : onTag w n c := onTag_congr (hw ▸ sendData_keeps (P := (·.host.cmds)) (fun _ _ => rfl) n c _ s) hc
  have heff : importReadEff n s = endCmd n (if c.step = 3 then .successRecovered else .success) 0 w := by
    unfold importReadEff
    rw [hc.1]
    dsimp only
    have hall : (List.range c.cmd.count).all (fun i => decide (Tbl.get [] i c.got ≠ []) || c.fails.any (fun f => f.1 == i)) = true := by
      rw [List.all_eq_true]
      intro i hi
      simp [hgot i (List.mem_range.1 hi)]
    rw [if_neg (by simp [hop, hrun, hgate]), if_neg (by simp [hreading]), if_neg (by rw [hall]; decide), hfails]
    rw [List.find?_eq_none.2 (by simp), hw]
  exact completes_of_done (congrArg (done s) heff)
    (endedAs_of_tagHas (tagHas_finish s (tagHas_endCmd htag (by rw [hrun]; decide) _ _)))

/-! ### Writes (R381) -/

/-- A write that starts the reads of its data. -/
theorem writeEff_reads (hop : c.cmd.opcode = opWrite) (hrun : c.state = .running) (hreading : c.reading = false)
    (hengine : (formsHank s c.cmd && noHankEngine s) = false) (hspace : belowLimit s = true) (hremote : c.remote = false) :
    cmdOf (writeEff n s) n = some { c with reading := true } ∧
      (writeEff n s).out = s.out ++ c.segs.map (fun g => .hostRead c.fn g.1 g.2) := by
  have hread (l : List (Nat × Nat)) (u : State) :
      (forEach (fun (g : Nat × Nat) s => emit (.hostRead c.fn g.1 g.2) s) l u).host = u.host ∧
        (forEach (fun (g : Nat × Nat) s => emit (.hostRead c.fn g.1 g.2) s) l u).out =
          u.out ++ l.map (fun g => .hostRead c.fn g.1 g.2) := by
    induction l generalizing u with
    | nil => exact ⟨rfl, (List.append_nil _).symm⟩
    | cons g l ih =>
      obtain ⟨hhost, hout⟩ := ih (emit (.hostRead c.fn g.1 g.2) u)
      exact ⟨hhost, hout.trans (List.append_assoc _ _ _)⟩
  have heff : writeEff n s = forEach (fun (g : Nat × Nat) s => emit (.hostRead c.fn g.1 g.2) s) c.segs
      (modCmd n (fun c => { c with reading := true }) s) := by
    unfold writeEff
    rw [hc.1]
    dsimp only
    rw [if_neg (by simp [hop, hrun, hreading]), if_neg (by simp [hengine]), if_pos hspace, readHost, if_neg (by simp [hremote])]
  obtain ⟨hhost, hout⟩ := hread c.segs (modCmd n (fun c => { c with reading := true }) s)
  rw [heff]
  refine ⟨?_, hout.trans (by rw [modCmd_out])⟩
  rw [cmdOf, hhost]
  exact cmdOf_modCmd_same hc.1 _

theorem completes_write (hop : c.cmd.opcode = opWrite) (hrun : c.state = .running) (hreading : c.reading = false)
    (hengine : (formsHank s c.cmd && noHankEngine s) = false) (hspace : belowLimit s = true) (hremote : c.remote = false) :
    completes (.write n) s (fun t => cmdOf t n = some { c with reading := true } ∧
        t.out = s.out ++ c.segs.map (fun g => .hostRead c.fn g.1 g.2)) ∧
      (cmds s = [(n, c)] → completes .writeBehindSpace s (fun t => cmdOf t n = some { c with reading := true } ∧
        t.out = s.out ++ c.segs.map (fun g => .hostRead c.fn g.1 g.2))) := by
  obtain ⟨hcmd, hout⟩ := writeEff_reads hc hop hrun hreading hengine hspace hremote
  have hend : cmdOf (finish s (writeEff n s)) n = some { c with reading := true } ∧
      (finish s (writeEff n s)).out = s.out ++ c.segs.map (fun g => .hostRead c.fn g.1 g.2) :=
    ⟨by rw [cmdOf, finish_host]; exact hcmd, by rw [finish_out, hout]⟩
  refine ⟨completes_of_done rfl hend, fun hcs => completes_of_done (t := writeEff n s) ?_ hend⟩
  have heff : writeSpaceEff s = writeEff n s := by
    rw [writeSpaceEff, hcs]
    rfl
  exact congrArg (done s) heff

/-- The blocks of the write's data as it is held, with its command. -/
def heldState (n : Nat) (c : Cmd) (d : List Byte) (s : State) : State :=
  modCmd n (fun c => { c with held := upFrom s.media.nextHeld c.cmd.count }) (holdBlocks c d s)

omit hc in
theorem heldState_beside (d : List Byte) : (heldState n c d s).unt = s.unt ∧ (heldState n c d s).regs = s.regs ∧
    (heldState n c d s).pair = s.pair ∧ (heldState n c d s).media.nextHeld = s.media.nextHeld + c.cmd.count :=
  ⟨modCmd_unt _ _ _, modCmd_regs _ _ _, modCmd_pair _ _ _, by rw [heldState, modCmd_media]; rfl⟩

theorem completes_writeHeldPoint (d : List Byte) (hop : c.cmd.opcode = opWrite) (hrun : c.state = .running) (hreading : c.reading = true)
    (hpoint : c.heldPoint = false) (hheld : c.held = []) (hcount : 0 < c.cmd.count) (hmirror : mirroring s = false)
    (hsettling : s.pair.settling = false) (hack : acked s (.held n) = true) (hfua : asFua s c = false) :
    completes (.writeHeldPoint n (some d)) s (fun t => endedAs t n .success 0 ∧
      t.media.nextHeld = s.media.nextHeld + c.cmd.count) := by
  obtain ⟨hunt, hregs, hpair, hnext⟩ := heldState_beside (s := s) (n := n) (c := c) d
  obtain ⟨v, hv⟩ : ∃ v, v = heldState n c d s := ⟨_, rfl⟩
  rw [← hv] at hunt hregs hpair hnext
  have hquiet : mirroring v = false := by
    have hreg (off : Nat) : getReg v off = getReg s off := getReg_congr hregs off
    rw [← hmirror, mirroring, mirroring, pairEn_of_getReg (hreg _), ust_of_unt hunt, flag_of_getF (getF_of_getReg (hreg _))]
  have heff : writeHeldEff n (some d) s = reachHeld n v := by
    unfold writeHeldEff
    rw [hc.1]
    dsimp only
    rw [if_neg (by simp [hop, hrun, hreading, hpoint, hheld])]
    have hsame : mirror (.held n) v = v := if_neg (by rw [hquiet]; decide)
    rw [← hsame, hv]
    rfl
  obtain ⟨e, he⟩ : ∃ e, e = { c with held := upFrom s.media.nextHeld c.cmd.count } := ⟨_, rfl⟩
  have htag : onTag v n e := ⟨by rw [hv, he]; exact cmdOf_modCmd_same (s := holdBlocks c d s) hc.1 _, he ▸ hc.2⟩
  have hsome : e.held ≠ [] := by
    rw [he]
    obtain ⟨k, hk⟩ := Nat.exists_eq_add_of_lt hcount
    rw [hk]
    simp [upFrom]
  have hfua' : asFua v e = false := by
    rw [asFua_congr hunt hregs e, ← hfua, he]
    rfl
  obtain ⟨hends, hkept⟩ := reachHeld_ends htag (he ▸ hrun) (he ▸ hpoint) hsome (by rw [hpair, hsettling])
    (by rw [acked, hpair]; exact hack) hfua'
  refine completes_of_done (congrArg (done s) heff) ⟨?_, by rw [finish_media, hkept, hnext]⟩
  obtain ⟨k, hk, hends⟩ := hends
  exact ⟨k, by rw [cmdOf, finish_host]; exact hk, hends⟩

/-! ### Waits for knots (R389) -/

omit hc in
/-- A table whose only command is replaced has the other as its only command. -/
theorem filterMap_ins {m : Tbl (Option Cmd)} {c c' : Cmd} (hsorted : Tbl.sorted m = true) (hget : Tbl.get none n m = some c)
    (hone : m.filterMap (fun e => e.2.map (fun c => (e.1, c))) = [(n, c)]) :
    (Tbl.ins n (some c') m).filterMap (fun e => e.2.map (fun c => (e.1, c))) = [(n, c')] := by
  induction m with
  | nil => cases hget
  | cons e m ih =>
    obtain ⟨j, w⟩ := e
    have habove := (Tbl.above_iff j m).1 hsorted
    by_cases hj : j = n
    · subst hj
      have hw : w = some c := by simpa [Tbl.get] using hget
      subst hw
      have hrest : m.filterMap (fun e => e.2.map (fun c => (e.1, c))) = [] := by simpa using hone
      simp [Tbl.ins, hrest]
    · have hget' : Tbl.get none n m = some c := by simpa [Tbl.get, hj] using hget
      have hlt : ¬ n < j := by
        intro h
        have hmem := mem_of_get hget' (by simp)
        exact absurd (habove.1 _ hmem) (by simp only; omega)
      cases w with
      | none =>
        have hrest : m.filterMap (fun e => e.2.map (fun c => (e.1, c))) = [(n, c)] := by simpa using hone
        simpa [Tbl.ins, hj, hlt] using ih habove.2 hget' hrest
      | some d =>
        simp only [List.filterMap_cons, Option.map_some, List.cons.injEq, Prod.mk.injEq] at hone
        exact absurd hone.1.1 hj

theorem cmds_modCmd_one (hsorted : Tbl.sorted s.host.cmds = true) (hcs : cmds s = [(n, c)]) (f : Cmd → Cmd) :
    cmds (modCmd n f s) = [(n, f c)] := by
  unfold modCmd
  rw [hc.1]
  dsimp only
  rw [cmds, putCmd, Tbl.put, if_neg (by simp)]
  exact filterMap_ins hsorted hc.1 hcs

section
variable (hsorted : Tbl.sorted s.host.cmds = true) (hrun : c.state = .running) (hwait : c.waitsKnot = none) (hcs : cmds s = [(n, c)])
include hsorted hrun hwait hcs

/-- The command as it waits for its knots. -/
def waiting (upTo : Cmd → Nat) (n : Nat) (s : State) : State := modCmd n (fun c => { c with waitsKnot := some (upTo c) }) s

omit hsorted hcs in
theorem startWait_eq {op : Nat} (hop : c.cmd.opcode = op) (upTo : Cmd → Nat) : startWait op upTo n s = settle (waiting upTo n s) := by
  unfold startWait
  rw [hc.1]
  exact if_pos (by simp [hop, hrun, hwait])

omit hrun hwait in
theorem settle_waiting (upTo : Cmd → Nat) :
    settle (waiting upTo n s) = gcHeld (settleOne (n, { c with waitsKnot := some (upTo c) }) (waiting upTo n s)) := by
  rw [settle, show cmds (waiting upTo n s) = _ from cmds_modCmd_one hc hsorted hcs _]
  rfl

omit hrun hwait in
/-- Waiting takes nothing from what the commit point of a command is. -/
theorem commitReached_waiting (hop : c.cmd.opcode ≠ opWrite) (upTo : Cmd → Nat) :
    commitReached (waiting upTo n s) { c with waitsKnot := some (upTo c) } = commitReached s c := by
  have hmedia : (waiting upTo n s).media = s.media := modCmd_media _ _ _
  have hdurable : durableBefore (waiting upTo n s) c.cmd.volume c.seq = durableBefore s c.cmd.volume c.seq := by
    rw [durableBefore, durableBefore, hmedia, show cmds (waiting upTo n s) = _ from cmds_modCmd_one hc hsorted hcs _, hcs]
    simp
  unfold commitReached
  dsimp only
  rw [if_neg hop, if_neg hop, hdurable, volOf, volOf, hmedia]

theorem completes_startWait {op : Nat} {upTo : Cmd → Nat} {i : Instr} (hexec : exec i s = done s (startWait op upTo n s))
    (hop : c.cmd.opcode = op) (hread : op ≠ opWrite) (hcommit : commitReached s c = true) :
    completes i s (fun t => endedAs t n .success (plainResult s c)) := by
  have htag : onTag (waiting upTo n s) n { c with waitsKnot := some (upTo c) } := ⟨cmdOf_modCmd_same hc.1 _, hc.2⟩
  have hresult : plainResult (waiting upTo n s) { c with waitsKnot := some (upTo c) } = plainResult s c := by
    rw [plainResult, plainResult, unitOf, waiting, modCmd_unt, ← unitOf]
  have hsettle : settleOne (n, { c with waitsKnot := some (upTo c) }) (waiting upTo n s) =
      endCmd n .success (plainResult s c) (waiting upTo n s) := by
    unfold settleOne
    dsimp only
    rw [if_pos hrun, if_pos (by rw [commitReached_waiting hc hsorted hcs (hop ▸ hread), hcommit]), hresult]
  have heff : startWait op upTo n s = gcHeld (endCmd n .success (plainResult s c) (waiting upTo n s)) := by
    rw [startWait_eq hc hrun hwait hop, settle_waiting hc hsorted hcs, hsettle]
  exact completes_of_done (hexec.trans (congrArg (done s) heff))
    (endedAs_of_tagHas (tagHas_finish s (endedAs_gcHeld htag (show c.state ≠ .ended by rw [hrun]; decide) _ _)))

omit hc hsorted hrun hwait hcs in
/-- What knots are blocked by is a matter of the media and the running image. -/
theorem blockedBy_congr (hmedia : t.media = s.media) (v q : Nat) : blockedBy t v q = blockedBy s v q := by
  have hdata (k : Skein) : dataOf t k = dataOf s k := by simp only [dataOf, heldOf, hmedia]
  simp only [blockedBy, exhaustedSeq, fullSeq, hdata, hmedia]

omit hc hsorted hrun hwait hcs in
theorem hankBlocked_congr (hmedia : t.media = s.media) (himg : t.img = s.img) (v q : Nat) : hankBlocked t v q = hankBlocked s v q := by
  have hengine : hankInService t = hankInService s := funext fun k => by simp only [hankInService, hmedia, himg]
  simp only [hankBlocked, noHankEngine, hengine, hmedia]

theorem completes_flushWaits (hop : c.cmd.opcode = opFlush) (hcommit : commitReached s c = false)
    (hblocked : blockedBy s c.cmd.volume (c.seq - 1) = none) (hhank : hankBlocked s c.cmd.volume (c.seq - 1) = false) :
    completes (.flush n) s (fun t => cmdOf t n = some { c with waitsKnot := some (c.seq - 1) }) := by
  obtain ⟨v, hv⟩ : ∃ v, v = waiting (fun c => c.seq - 1) n s := ⟨_, rfl⟩
  have hmedia : v.media = s.media := hv ▸ modCmd_media _ _ _
  have himg : v.img = s.img := by
    rw [hv, waiting, modCmd]
    split <;> rfl
  have hsettle : settleOne (n, { c with waitsKnot := some (c.seq - 1) }) v = v := by
    unfold settleOne
    dsimp only
    rw [if_pos hrun, if_neg (by rw [hv, commitReached_waiting hc hsorted hcs (by rw [hop]; decide), hcommit]; decide),
      blockedBy_congr hmedia, hblocked]
    dsimp only
    rw [if_neg (by rw [hankBlocked_congr hmedia himg, hhank]; simp)]
  have heff : startWait opFlush (fun c => c.seq - 1) n s = gcHeld v := by
    rw [startWait_eq hc hrun hwait hop, settle_waiting hc hsorted hcs, ← hv, hsettle]
  have hend : cmdOf v n = some { c with waitsKnot := some (c.seq - 1) } := hv ▸ cmdOf_modCmd_same hc.1 _
  refine completes_of_done (congrArg (done s) heff) ?_
  rw [cmdOf, finish_host]
  exact hend

end

end

/-! ### ABORT, which the end of its target leaves as it is (R395, R398) -/

theorem Tbl.get_of_mem {α : Type} {d v : α} {k : Nat} {m : Tbl α} (hsorted : Tbl.sorted m = true) (h : (k, v) ∈ m) : Tbl.get d k m = v := by
  induction m with
  | nil => cases h
  | cons e m ih =>
    obtain ⟨j, w⟩ := e
    obtain ⟨habove, hrest⟩ := (Tbl.above_iff j m).1 hsorted
    rcases List.mem_cons.1 h with hhead | htail
    · cases hhead
      simp [Tbl.get]
    · have hlt : j < k := habove _ htail
      rw [Tbl.get, if_neg (by omega)]
      exact ih hrest htail

theorem cmdOf_of_mem (hsorted : Tbl.sorted s.host.cmds = true) {k : Nat} {d : Cmd} (h : (k, d) ∈ cmds s) : cmdOf s k = some d := by
  obtain ⟨⟨j, w⟩, hmem, hw⟩ := List.mem_filterMap.1 h
  obtain ⟨e, rfl, he⟩ := Option.map_eq_some_iff.1 hw
  cases he
  exact Tbl.get_of_mem hsorted hmem

/-- The command c is on tag n, in a table of commands in order of tags. -/
structure spares (n : Nat) (c : Cmd) (s : State) : Prop where
  sorted : Tbl.sorted s.host.cmds = true
  cmd : cmdOf s n = some c

theorem spares.congr (h : spares n c s) (hc : t.host.cmds = s.host.cmds) : spares n c t :=
  ⟨hc ▸ h.sorted, by rw [cmdOf, hc]; exact h.cmd⟩

theorem spares.ite {p : Prop} {_ : Decidable p} (hs : spares n c s) (ht : spares n c t) : spares n c (if p then s else t) := by
  split
  · exact hs
  · exact ht

theorem spares.onlyIf {p : Prop} {_ : Decidable p} (h : spares n c s) (f : p → spares n c s → spares n c t) :
    spares n c (if p then t else s) := by
  split
  · next hp => exact f hp h
  · exact h

theorem spares.forEach {α : Type} {f : α → State → State} {l : List α} (h : spares n c s)
    (hf : ∀ x ∈ l, ∀ s, spares n c s → spares n c (f x s)) : spares n c (forEach f l s) := by
  induction l generalizing s with
  | nil => exact h
  | cons x l ih => exact ih (hf x List.mem_cons_self s h) fun y hy => hf y (List.mem_cons_of_mem _ hy)

/-- A loop over the commands as they stand meets the spared one as it stands, or another. -/
theorem spares.forEachCmd {f : Nat × Cmd → State → State} (h : spares n c s)
    (hself : ∀ s, spares n c s → spares n c (f (n, c) s)) (hother : ∀ k d s, k ≠ n → spares n c s → spares n c (f (k, d) s)) :
    spares n c (Machine.forEach f (cmds s) s) := by
  refine h.forEach fun (k, d) hmem s' h' => ?_
  by_cases hk : k = n
  · subst hk
    cases h.cmd.symm.trans (cmdOf_of_mem h.sorted hmem)
    exact hself s' h'
  · exact hother k d s' hk h'

theorem spares.putCmd {k x} (hk : k ≠ n) (h : spares n c s) : spares n c (putCmd k x s) :=
  ⟨Tbl.sorted_put _ _ _ h.sorted, (cmdOf_putCmd_ne hk x s).trans h.cmd⟩

theorem spares.modCmd {k f} (hk : k ≠ n) (h : spares n c s) : spares n c (modCmd k f s) := by
  unfold Machine.modCmd
  split
  · exact h.putCmd hk
  · exact h

theorem spares.evt {f unit items} (h : spares n c s) : spares n c (evt f unit items s) := h.congr (evt_host_cmds _ _ _ _)

theorem spares.mirror {m} (h : spares n c s) : spares n c (mirror m s) := h.onlyIf fun _ h => h.congr rfl

theorem spares.recordReplay {d} (h : spares n c s) : spares n c (recordReplay d s) :=
  h.onlyIf fun _ h => spares.mirror (h.congr rfl)

theorem spares.endOne {k st result} (hk : k ≠ n) (h : spares n c s) : spares n c (endOne k st result s) := by
  unfold Machine.endOne
  split
  · exact h
  · next d _ =>
    refine .ite h ?_
    extract_lets d' s₁ s₂
    have h₂ : spares n c s₂ := spares.onlyIf h.recordReplay fun _ h => h.congr rfl
    exact .ite (h₂.putCmd hk) (spares.congr (s := Machine.putCmd k (some d') s₂) (h₂.putCmd hk) rfl)

theorem namesVol_abort : namesVol opAbort = false := rfl

section
variable (hop : c.cmd.opcode = opAbort) (hgate : c.gate = .open) (hwait : c.waitsKnot = none)

include hgate in
theorem spares.endRepeats {q st result rel step} (h : spares n c s) : spares n c (endRepeats q st result rel step s) :=
  h.forEachCmd (fun _ h => h.onlyIf fun hp _ => by simp [hgate] at hp) fun _ _ _ hk h =>
    h.onlyIf fun _ h => spares.evt (((h.modCmd hk).endOne hk).congr rfl)

include hop in
theorem spares.createFailed {d st} (h : spares n c s) : spares n c (createFailed d st s) :=
  h.onlyIf fun _ h => h.forEachCmd (fun _ h => h.onlyIf fun hp _ => absurd hp (by simp [hop, namesVol_abort])) fun _ _ _ hk h =>
    h.onlyIf fun _ h => h.endOne hk

include hop hgate in
theorem spares.endCmd {k st result} (hk : k ≠ n) (h : spares n c s) : spares n c (endCmd k st result s) := by
  unfold Machine.endCmd
  split
  · exact h
  · exact .ite h (((h.endOne hk).endRepeats hgate).createFailed hop)

include hop hgate in
theorem spares.settleOne {k d} (hk : k ≠ n) (h : spares n c s) : spares n c (settleOne (k, d) s) := by
  have hend (st result) : spares n c (Machine.endCmd k st result s) := h.endCmd hop hgate hk
  unfold Machine.settleOne
  extract_lets e v need
  clear_value need
  refine .ite ?_ (h.onlyIf fun _ _ => .ite h ?_)
  · split
    · exact h
    · refine .ite (hend _ _) ?_
      split
      · exact hend _ _
      · exact h.onlyIf fun _ _ => (hend _ _).evt
  · split
    · exact hend _ _
    · exact h

include hop hwait in
/-- An ABORT waits for no knots, so that settling leaves it. -/
theorem settleOne_abort (s : State) : settleOne (n, c) s = s := by
  unfold settleOne
  dsimp only
  rw [hwait, hop]
  split
  · rfl
  · exact if_neg (by simp [opAbort, opRead])

include hop hgate hwait in
theorem spares.settle (h : spares n c s) : spares n c (settle s) :=
  (h.forEachCmd (fun s h => by rw [settleOne_abort hop hwait s]; exact h) fun _ _ _ hk h => h.settleOne hop hgate hk).congr rfl

end

theorem unpinSlot_cmds (g lf zone slot : Nat) (s : State) : (unpinSlot g lf zone slot s).host.cmds = s.host.cmds := by
  unfold unpinSlot
  refine forEach_keeps (fun s : State => s.host.cmds) _ (fun h s => ?_) _ s
  split <;> rfl

theorem leaveLadders_cmds (k : Nat) (s : State) : (leaveLadders k s).host.cmds = s.host.cmds := by
  unfold leaveLadders
  extract_lets ls dead pool s₁
  clear_value dead
  exact (forEach_keeps (fun s : State => s.host.cmds) _ (fun _ _ => unpinSlot_cmds _ _ _ _ _) dead s₁).trans rfl

/-- A waiting command of the ordered path that an abort reaches ends ABORTED (Table 12-6). -/
theorem abortTarget_waiting {u : Nat} {d : Cmd} (hu : cmdOf s u = some d) (hpath : unitPath d.cmd.opcode = false)
    (hstate : d.state = .waiting) :
    abortTarget u s = (.success, settle (evt Fld.ORD_EVT_ABORTED noUnit [⟨1, d.cmd.volume⟩, ⟨8, d.seq⟩] (bump Reg.ORD_CNT 3
      (leaveLadders u (if d.cmd.opcode = opWrite then dropWrite d.seq (endCmd u .aborted 0 s) else endCmd u .aborted 0 s))))) := by
  unfold abortTarget
  rw [hu]
  dsimp only
  rw [if_neg (by simp [hstate]), if_neg (by simp [hstate, hpath])]

theorem completes_abort {u : Nat} {d : Cmd} {i : Image} {f : QueueFn} (hc : onTag s n c) (hsorted : Tbl.sorted s.host.cmds = true)
    (hop : c.cmd.opcode = opAbort) (hopen : c.state ≠ .ended) (hwait : c.waitsKnot = none) (hgate : c.gate = .open)
    (hrunning : s.img.running = some i) (hfn : i.queues.fns[c.fn]? = some f) (hbase : f.ringBase ≤ HostCmd.targetRing c.cmd)
    (hlast : HostCmd.targetRing c.cmd < f.ringBase + f.ringCount)
    (htarget : abortee s c.remote (HostCmd.targetRing c.cmd) (HostCmd.targetSlot c.cmd) = some (u, d)) (hne : u ≠ n)
    (hu : onTag s u d) (hdop : d.cmd.opcode ≠ opAbort) (hpath : unitPath d.cmd.opcode = false) (hstate : d.state = .waiting) :
    completes (.abort n) s (fun t => endedAs t n .success 0 ∧ endedAs t u .aborted 0) := by
  have hreach := abortTarget_waiting hu.1 hpath hstate
  have heff : abortEff n s = endCmd n .success 0 (abortTarget u s).2 := by
    unfold abortEff
    rw [hc.1]
    dsimp only
    rw [if_neg (by simp [hop, hopen]), if_neg (by simp [hrunning, hfn, hbase, hlast]), htarget]
    dsimp only
    rw [if_neg (by simp [hne, hdop]), hreach]
  rw [hreach] at heff
  have hended := tagHas_endCmd hu (by rw [hstate]; decide) .aborted 0
  have hspares : spares n c (endCmd u .aborted 0 s) := spares.endCmd hop hgate hne ⟨hsorted, hc.1⟩
  obtain ⟨v, hv⟩ : ∃ v, v =
    if d.cmd.opcode = opWrite then dropWrite d.seq (endCmd u .aborted 0 s) else endCmd u .aborted 0 s := ⟨_, rfl⟩
  rw [← hv] at heff
  have hdropped : commandWork (endCmd u .aborted 0 s) v := hv ▸ (commandWork.refl _).onlyIf (·.dropWrite)
  have hspared : spares n c v := hv ▸ hspares.onlyIf fun _ h => h.congr rfl
  have hsettled := spares.settle hop hgate hwait (spares.evt (f := Fld.ORD_EVT_ABORTED) (unit := noUnit)
    (items := [⟨1, d.cmd.volume⟩, ⟨8, d.seq⟩])
    ((hspared.congr (leaveLadders_cmds u v)).congr (t := bump Reg.ORD_CNT 3 (leaveLadders u v)) rfl))
  have hwork := (((hdropped.leaveLadders (k := u)).bump (off := Reg.ORD_CNT) (i := 3) (by decide)).evt (f := Fld.ORD_EVT_ABORTED)
    (unit := noUnit) (items := [⟨1, d.cmd.volume⟩, ⟨8, d.seq⟩]) (by decide)).settle
  refine completes_of_done (congrArg (done s) heff) ⟨?_, ?_⟩
  · exact endedAs_of_tagHas (tagHas_finish s (tagHas_endCmd ⟨hsettled.cmd, hc.2⟩ hopen _ _))
  · exact endedAs_of_tagHas (tagHas_finish s (hwork.endCmd.tags (lasting_endsWith _ _) hended))

/-! ### Holds and long waits (R407, R509) -/

theorem completes_suspectHoldExpiry {u h : Nat} (hc : onTag s n c) (hgate : c.gate = .suspect u h) (hopen : c.state ≠ .ended) :
    completes (.suspectHoldExpiry n) s (fun t => endedAs t n .unitSuspect 0 ∧ flag t Fld.UNT_EVT_SUSPECT_EXPIRED = true) := by
  have heff : suspectExpiryEff n s = evt Fld.UNT_EVT_SUSPECT_EXPIRED u [⟨8, c.seq⟩]
      (gcHeld (leaveLadders n (endCmd n .unitSuspect 0 (bump Reg.UNT_CNT 6 s)))) := by
    unfold suspectExpiryEff
    rw [hc.1]
    dsimp only
    rw [hgate]
    exact if_neg hopen
  have hended := ((commandWork.refl _).leaveLadders (k := n)).gcHeld.tags (lasting_endsWith .unitSuspect 0)
    (tagHas_endCmd (onTag_congr (t := bump Reg.UNT_CNT 6 s) rfl hc) hopen .unitSuspect 0)
  refine completes_of_done (congrArg (done s) heff) ⟨?_, ?_⟩
  · exact endedAs_of_tagHas (tagHas_finish s (tagHas_congr (evt_host_cmds _ _ _ _) hended))
  · rw [flag_finish]
    exact flag_evt_same (by decide) rfl (by decide) _ _ _

theorem completes_lockWaitLong (hc : onTag s n c) (hstate : c.state = .waiting) (hwarned : c.warned = false) (hlocks : lockWaits s c ≠ []) :
    completes (.lockWaitLong n) s (fun t => cmdOf t n = some { c with warned := true } ∧
      flag t Fld.ORD_EVT_LOCK_WAIT_LONG = true) := by
  obtain ⟨items, heff⟩ : ∃ items, lockWaitLongEff n s = evt Fld.ORD_EVT_LOCK_WAIT_LONG noUnit items
      (modCmd n (fun c => { c with warned := true }) s) := by
    unfold lockWaitLongEff
    rw [hc.1]
    dsimp only
    rw [if_pos (by simp [hstate, hwarned, hlocks])]
    exact ⟨_, rfl⟩
  have hmarked : cmdOf (modCmd n (fun c => { c with warned := true }) s) n = some { c with warned := true } := cmdOf_modCmd_same hc.1 _
  refine completes_of_done (congrArg (done s) heff) ⟨?_, ?_⟩
  · rw [cmdOf, finish_host, evt_host_cmds]
    exact hmarked
  · rw [flag_finish]
    exact flag_evt_same (by decide) rfl (by decide) _ _ _

/-! ### Completions (R367) -/

/-- The completion tail of a ring, if it is resident. -/
def tailOf (s : State) (r : Nat) : Option Nat := (ctxOf s r).map (·.cplTail)

theorem tailOf_modCtx {f : RingCtx → RingCtx} (hf : ∀ y, (f y).cplTail = y.cplTail) (r : Nat) (s : State) :
    tailOf (modCtx r f s) r = tailOf s r := by
  cases hctx : ctxOf s r with
  | none => rw [tailOf, modCtx, hctx, tailOf, hctx]
  | some y => rw [tailOf, ctxOf_modCtx hctx, tailOf, hctx, Option.map_some, Option.map_some, hf]

theorem tailOf_ringSignal (r : Nat) (s : State) : tailOf (ringSignal r s) r = tailOf s r := by
  unfold ringSignal
  split
  · exact keeps_ite (tailOf · r) ((signalVec_keeps (P := (tailOf · r)) (fun _ _ => rfl) (fun _ _ => rfl) (fun _ => rfl) _ _ _).trans
      (tailOf_modCtx (f := fun c => { c with unsignalled := 0 }) (fun _ => rfl) r s)) rfl
  · rfl

theorem tailOf_moderate (r : Nat) (good : Bool) (s : State) : tailOf (moderate r good s) r = tailOf s r := by
  have hcount : tailOf (modCtx r (fun c => { c with unsignalled := c.unsignalled + 1 }) s) r = tailOf s r :=
    tailOf_modCtx (f := fun c => { c with unsignalled := c.unsignalled + 1 }) (fun _ => rfl) r s
  unfold moderate
  split
  · rfl
  · exact keeps_ite (tailOf · r) rfl (keeps_ite (tailOf · r) ((tailOf_ringSignal r _).trans hcount) hcount)

theorem moderate_cmds (r : Nat) (good : Bool) (s : State) : (moderate r good s).host.cmds = s.host.cmds := by
  have hctx (f : RingCtx → RingCtx) : (modCtx r f s).host.cmds = s.host.cmds := modCtx_keeps (P := (·.host.cmds)) (fun _ _ => rfl) f s
  have hring (u : State) : (ringSignal r u).host.cmds = u.host.cmds :=
    ringSignal_keeps (P := (·.host.cmds)) (fun _ _ _ => rfl) (fun _ _ => rfl) (fun _ _ => rfl) (fun _ => rfl) r u
  unfold moderate
  split
  · rfl
  · exact keeps_ite (·.host.cmds) rfl (keeps_ite (·.host.cmds) ((hring _).trans (hctx _)) (hctx _))

/-- An output stays while vectors are signalled. -/
theorem mem_out_moderate {o : Output} (r : Nat) (good : Bool) (h : o ∈ s.out) : o ∈ (moderate r good s).out := by
  have hctx (f : RingCtx → RingCtx) {u : State} (hu : o ∈ u.out) : o ∈ (modCtx r f u).out := by
    rw [modCtx_keeps (P := (·.out)) (fun _ _ => rfl) f u]
    exact hu
  have hsignal {u : State} (f v : Nat) (hu : o ∈ u.out) : o ∈ (signalVec f v u).out := by
    unfold signalVec
    extract_lets st mv
    split
    · exact hu
    · split
      · exact hu
      · exact List.mem_append_left _ hu
  have hring {u : State} (hu : o ∈ u.out) : o ∈ (ringSignal r u).out := by
    unfold ringSignal
    split
    · split
      · exact hsignal _ _ (hctx _ hu)
      · exact hu
    · exact hu
  unfold moderate
  split
  · exact h
  · split
    · exact h
    · dsimp only
      split
      · exact hring (hctx _ h)
      · exact hctx _ h

theorem completes_completionPost {x : RingCtx} (hpf : s.pwr.pfRunning = false) (hpartner : nextPost s true c.ring = none)
    (hnext : nextPost s false c.ring = some (n, c)) (hctx : ctxOf s c.ring = some x) (hack : acked s (.replay c.seq) = true)
    (hmaster : (fnSt s c.fn).busMaster = true) (hd3 : (fnSt s c.fn).d3 = false) (hflr : (fnSt s c.fn).inFlr = false)
    (hspace : (x.cplHead + 2 * entries x - x.cplTail - 1) % entries x ≠ 0) :
    completes (.completionPost c.ring) s (fun t => cmdOf t n = none ∧
      .hostWrite c.fn (x.cplBase + 16 * x.cplTail) (completionBytes c.seq c.result c.slot c.status.code x.phase c.replayed
        c.relocated c.step) ∈ t.out ∧ ∃ y, ctxOf t c.ring = some y ∧ y.cplTail = (x.cplTail + 1) % entries x) := by
  obtain ⟨u, hu⟩ : ∃ u, u = emit (.hostWrite c.fn (x.cplBase + 16 * x.cplTail)
    (completionBytes c.seq c.result c.slot c.status.code x.phase c.replayed c.relocated c.step)) s := ⟨_, rfl⟩
  obtain ⟨v, hv⟩ : ∃ v, v = modCtx c.ring (fun y => { y with
    cplTail := (x.cplTail + 1) % entries x, phase := if (x.cplTail + 1) % entries x = 0 then !y.phase else y.phase }) u := ⟨_, rfl⟩
  obtain ⟨w, hw⟩ : ∃ w, w = dropPosted n (bump Reg.HQ_CNT 1 v) := ⟨_, rfl⟩
  have heff : completionPostEff c.ring s = moderate c.ring c.status.good w := by
    unfold completionPostEff
    rw [if_neg (by simp [hpf]), hpartner]
    dsimp only
    rw [hnext]
    dsimp only
    rw [hctx]
    dsimp only
    rw [if_neg (by simp [hack, hmaster, hd3, hflr]), postOne]
    dsimp only
    rw [if_neg hspace, ← hu, ← hv, ← hw]
  have hfree : cmdOf w n = none := by
    rw [hw]
    exact cmdOf_putCmd_same none _ n
  have hout : Output.hostWrite c.fn (x.cplBase + 16 * x.cplTail)
      (completionBytes c.seq c.result c.slot c.status.code x.phase c.replayed c.relocated c.step) ∈ w.out := by
    have hkept : w.out = u.out := by
      rw [hw, hv]
      exact modCtx_keeps (P := (·.out)) (fun _ _ => rfl) _ u
    rw [hkept, hu]
    exact List.mem_append_right _ (List.mem_singleton.2 rfl)
  have htail : tailOf w c.ring = some ((x.cplTail + 1) % entries x) := by
    have hctx' : ctxOf u c.ring = some x := by
      rw [hu]
      exact hctx
    have hmoved : tailOf v c.ring = some ((x.cplTail + 1) % entries x) := by rw [hv, tailOf, ctxOf_modCtx hctx']; rfl
    rw [← hmoved, tailOf, tailOf, ctxOf_congr (t := w) (s := v) (by rw [hw]; rfl)]
  refine completes_of_done (congrArg (done s) heff) ⟨?_, ?_, ?_⟩
  · rw [cmdOf, finish_host, moderate_cmds]
    exact hfree
  · rw [finish_out]
    exact mem_out_moderate _ _ hout
  · rw [ctxOf_finish]
    exact Option.map_eq_some_iff.1 ((tailOf_moderate c.ring c.status.good w).trans htail)

/-- Settles O39: each clause is what its command does for a command that stands as the clause has it; a command ends once
(tagHas_endCmd), and the work that follows an end leaves what has ended (commandWork) and an ABORT that waits for nothing (spares). -/
theorem hostCommandEnds : Obligations.HostCommandEnds := by
  unfold Obligations.HostCommandEnds
  intro s n c hc hsorted
  refine ⟨completes_commandRun hc, completes_commandRunRead hc, completes_nop hc, completes_read hc,
    fun i st => completes_readFails hc, completes_write hc, completes_writeHeldPoint hc, fun hrun hwait _ hone => ?_,
    fun u d i f hop hopen hwait hgate hrunning hfn hbase hlast => completes_abort hc hsorted hop hopen hwait hgate hrunning hfn hbase hlast,
    completes_importRead hc, fun u h => completes_suspectHoldExpiry hc, completes_lockWaitLong hc, fun x => completes_completionPost⟩
  refine ⟨fun hop hcommit => ?_, fun hop hcommit => ?_, fun hop hcommit => ?_, completes_flushWaits hc hsorted hrun hwait hone⟩
  · have hresult : plainResult s c = 0 := if_neg (by rw [hop]; decide)
    exact hresult ▸ completes_startWait hc hsorted hrun hwait hone rfl hop (by decide) hcommit
  · have hresult : plainResult s c = (unitOf s (uVol c.cmd.volume)).epoch.toNat := if_pos hop
    exact hresult ▸ completes_startWait hc hsorted hrun hwait hone rfl hop (by decide) hcommit
  · have hresult : plainResult s c = 0 := if_neg (by rw [hop]; decide)
    exact hresult ▸ completes_startWait hc hsorted hrun hwait hone rfl hop (by decide) hcommit

end Sys2Proof.Proofs
end

section
/-! What the work of a pair leaves of its ownership (R527, R528, R533, R537, R538): the pair's record but for the journal, what is
forwarded and what awaits an acknowledgement, the two pair pins, the partner's state and the three registers that show ownership.
Each operation of that work has one lemma, `ownStays.f` for the operation `f`. -/

namespace Sys2Proof.Proofs

open Sys2Proof Sys2Proof.Machine Sys2Proof.Safety

variable {u s t : State}

/-- The registers that show who owns the deck and how it came to. -/
def ownRegs : List Nat := [Reg.GLB_STATUS, Reg.IMG_STATUS, Reg.PRL_TAKEOVER_T]

/-- What a state says of ownership beside its registers and the partner's state. -/
def ownView (s : State) : PairState × Bool × Bool :=
  ({ s.pair with unacked := [], resumed := false, journal := [], fwd := [], lostLines := [] }, s.pins.ownN, s.pins.peerReset)

/-- The state s is u after work that leaves ownership as it is. -/
structure ownKept (u s : State) : Prop where
  view : ownView s = ownView u
  regs : ∀ off ∈ ownRegs, getReg s off = getReg u off
  out : u.out <+: s.out

/-- It leaves the partner's state too. -/
structure ownStays (u s : State) : Prop where
  kept : ownKept u s
  partner : ust s uPartner = ust u uPartner

theorem ownKept.trans (h : ownKept u s) (h' : ownKept s t) : ownKept u t :=
  ⟨h'.view.trans h.view, fun off ho => (h'.regs off ho).trans (h.regs off ho), h.out.trans h'.out⟩

theorem ownKept.own (h : ownKept u s) : s.pair.own = u.pair.own := by
  have hp := congrArg (fun v => v.1.own) h.view
  exact hp

theorem ownKept.claimWhy (h : ownKept u s) : s.pair.claimWhy = u.pair.claimWhy := by
  have hp := congrArg (fun v => v.1.claimWhy) h.view
  exact hp

theorem ownKept.lost (h : ownKept u s) : s.pair.lost = u.pair.lost ∧ s.pair.lossAt = u.pair.lossAt := by
  have hp := congrArg (fun v => (v.1.lost, v.1.lossAt)) h.view
  exact Prod.mk.inj hp

theorem ownKept.course (h : ownKept u s) :
    s.pair.settling = u.pair.settling ∧ s.pair.syncing = u.pair.syncing ∧ s.pair.detached = u.pair.detached := by
  have hp := congrArg (fun v => (v.1.settling, v.1.syncing, v.1.detached)) h.view
  obtain ⟨hsettling, hrest⟩ := Prod.mk.inj hp
  exact ⟨hsettling, Prod.mk.inj hrest⟩

theorem ownKept.ownN (h : ownKept u s) : s.pins.ownN = u.pins.ownN := by
  have hp := congrArg (fun v => v.2.1) h.view
  exact hp

theorem ownKept.peerReset (h : ownKept u s) : s.pins.peerReset = u.pins.peerReset := by
  have hp := congrArg (fun v => v.2.2) h.view
  exact hp

theorem ownKept.isOwner (h : ownKept u s) : isOwner s = isOwner u :=
  flag_of_getF (getF_of_getReg (h.regs Reg.GLB_STATUS (by decide)))

theorem ownStays.refl (s : State) : ownStays s s := ⟨⟨rfl, fun _ _ => rfl, List.prefix_rfl⟩, rfl⟩

theorem ownStays.trans (h : ownStays u s) (h' : ownStays s t) : ownStays u t := ⟨h.kept.trans h'.kept, h'.partner.trans h.partner⟩

/-- A change of what neither ownView nor the registers nor the partner's unit shows. -/
theorem ownStays.beside (h : ownStays u s) (hv : ownView t = ownView s) (hr : t.regs = s.regs) (ho : s.out <+: t.out)
    (hu : t.unt.tab = s.unt.tab) : ownStays u t :=
  h.trans ⟨⟨hv, fun off _ => getReg_congr hr off, ho⟩, by rw [ust, unitOf, hu, ← unitOf, ← ust]⟩

theorem ownStays.ite {c : Prop} {_ : Decidable c} (hs : ownStays u s) (ht : ownStays u t) : ownStays u (if c then s else t) := by
  split
  · exact hs
  · exact ht

theorem ownStays.onlyIf {c : Prop} (h : ownStays u s) {_ : Decidable c} (f : ownStays u s → ownStays u t) :
    ownStays u (if c then t else s) := .ite (f h) h

theorem ownStays.forEach {α : Type} {f : α → State → State} {l : List α} (h : ownStays u s)
    (hf : ∀ x ∈ l, ∀ {s}, ownStays u s → ownStays u (f x s)) : ownStays u (forEach f l s) := by
  induction l generalizing s with
  | nil => exact h
  | cons x l ih => exact ih (hf x List.mem_cons_self h) fun y hy => hf y (List.mem_cons_of_mem _ hy)

/-! ### Registers, outputs, ends of commands and changes of units -/

theorem ownStays.setReg {off v} (h : ownStays u s) (ho : off ∉ ownRegs) : ownStays u (setReg off v s) :=
  h.trans
    ⟨⟨rfl, fun _ hoff => getReg_setReg_ne (fun e => ho (e.symm.subst (motive := (· ∈ ownRegs)) hoff)) _ _, List.prefix_rfl⟩, rfl⟩

theorem ownStays.set64 {off v} (h : ownStays u s) (hlow : off ∉ ownRegs) (hhigh : off + 4 ∉ ownRegs) : ownStays u (set64 off v s) :=
  (h.setReg hlow).setReg hhigh

theorem ownStays.emit {o} (h : ownStays u s) : ownStays u (emit o s) := h.beside rfl rfl (List.prefix_append _ _) rfl

theorem ownView_of_quiet (h : quiet t = quiet s) : ownView t = ownView s := by
  have hv := congrArg ownView h
  exact hv

theorem ownStays.evt {f unit items} (h : ownStays u s) (hf : f.off ∉ ownRegs) : ownStays u (evt f unit items s) :=
  h.trans ⟨⟨ownView_of_quiet (quiet_evt f unit items s),
    fun off hoff => getReg_evt (by revert off; decide) (fun e => hf (e ▸ hoff)) unit items s, out_evt f unit items s⟩,
    by rw [ust, unitOf, evt_unt, ← unitOf, ← ust]⟩

theorem ownView_of_work (h : beyondWork t = beyondWork s) : ownView t = ownView s := by
  have hv := congrArg ownView h
  exact hv

theorem ust_of_work (h : beyondWork t = beyondWork s) (v : Nat) : ust t v = ust s v := by
  have hu := congrArg (ust · v) h
  exact hu

theorem notWork_of_ownRegs {off : Nat} (h : off ∈ ownRegs) : off ∉ workRegs := by
  revert off
  decide

theorem ownStays.work (h : ownStays u s) (h' : commandWork s t) : ownStays u t :=
  h.trans ⟨⟨ownView_of_work h'.beyond, fun off ho => h'.regs off (notWork_of_ownRegs ho), h'.out⟩, ust_of_work h'.beyond _⟩

theorem ownStays.accept (h : ownStays u s) (h' : acceptWork s t) : ownStays u t :=
  h.trans ⟨⟨ownView_of_work h'.beyond, fun off ho => h'.regs off (notWork_of_ownRegs ho), h'.out⟩, ust_of_work h'.beyond _⟩

theorem unitReach.ownKept (h : unitReach s t) : ownKept s t := by
  have hv := congrArg ownView h.beyond
  exact ⟨hv, fun off ho => h.regs off (by revert off; decide), h.out⟩

theorem ownStays.change {v tgt why} (h : ownStays u s) (hv : v ≠ uPartner) : ownStays u (change v tgt why s) :=
  h.trans ⟨(unitWork.refl s).change.reach.ownKept, ust_change_ne (by decide) rfl hv _ _ _ _ _⟩

theorem ownStays.modCmd {k f} (h : ownStays u s) : ownStays u (modCmd k f s) :=
  h.beside (by unfold Machine.modCmd; split <;> rfl) (modCmd_regs _ _ _) (modCmd_out _ _ _ ▸ List.prefix_rfl)
    (congrArg UnitsState.tab (modCmd_unt _ _ _))

theorem ownStays.endCmd {k st result} (h : ownStays u s) : ownStays u (endCmd k st result s) := h.work (commandWork.refl s).endCmd

theorem ownStays.mirror {m} (h : ownStays u s) : ownStays u (mirror m s) := h.work (commandWork.refl s).mirror

theorem ownStays.modVol {v f} (h : ownStays u s) : ownStays u (modVol v f s) := h.beside rfl rfl List.prefix_rfl rfl

theorem ownStays.media {m} (h : ownStays u s) : ownStays u { s with media := m } := h.beside rfl rfl List.prefix_rfl rfl

theorem ownStays.modDisc {f} (h : ownStays u s) : ownStays u (modDisc f s) := h.media

theorem ownStays.dropWrite {q} (h : ownStays u s) : ownStays u (dropWrite q s) := h.media

theorem ownStays.sealSkein {key} (h : ownStays u s) : ownStays u (sealSkein key s) := h.work (commandWork.refl s).sealSkein

/-! ### Held points and knots (R217, R381) -/

theorem ownStays.queueHanks {c} (h : ownStays u s) : ownStays u (queueHanks c s) :=
  .ite h (h.forEach fun _ _ _ h => h.media)

theorem ownStays.reachHeld {k} (h : ownStays u s) : ownStays u (reachHeld k s) := by
  unfold Machine.reachHeld
  split
  · exact h
  · have hqueued {c d : Cmd} {f : Cmd → Cmd} : ownStays u (Machine.queueHanks c (Machine.modCmd k f s)) := h.modCmd.queueHanks
    exact .ite h (ownStays.work (.ite h.modCmd.queueHanks.modCmd h.modCmd.queueHanks.endCmd) (commandWork.refl _).formAll.settle)

theorem ownStays.writeAnchor (h : ownStays u s) : ownStays u (writeAnchor s) := .ite h.media h.media.emit.emit.media

theorem ownStays.ckptForm {v} (h : ownStays u s) : ownStays u (ckptForm v s) := by
  unfold Machine.ckptForm
  split
  · exact h.media.media.media.sealSkein
  · exact h

theorem ownStays.ckptBegin {v} (h : ownStays u s) : ownStays u (ckptBegin v s) := .ite h h.modVol.ckptForm

theorem ownStays.relocApplied {n} (h : ownStays u s) : ownStays u (relocApplied n s) :=
  .ite (h.media.setReg (by decide)) ((h.media.setReg (by decide)).evt (by decide))

theorem ownStays.mapKnot {place q n} (h : ownStays u s) : ownStays u (mapKnot place q n s) := (h.onlyIf (·.relocApplied)).modVol.media

theorem ownStays.applyKnot {place q n} (h : ownStays u s) : ownStays u (applyKnot place q n s) :=
  ((h.mapKnot.onlyIf (·.change (by unfold uVol uPartner; omega))).onlyIf (·.ckptBegin)).onlyIf (·.writeAnchor)

theorem ownStays.applyKnots {place q ns} (h : ownStays u s) : ownStays u (applyKnots place q ns s) := by
  induction ns generalizing q s with
  | nil => exact h
  | cons n ns ih => exact ih h.applyKnot

theorem ownStays.knotVerifiedEff {key} (h : ownStays u s) : ownStays u (knotVerifiedEff key s) := by
  unfold Machine.knotVerifiedEff
  split
  · exact h
  · refine .ite h ?_
    extract_lets v w
    have htold : ownStays u v := .ite h (h.media.mirror)
    exact .ite htold (ownStays.work (ownStays.media (ownStays.applyKnots (htold.media))) (commandWork.refl _).settle.formAll)

/-! ### What waited for the partner goes on, or fails (R532, R538) -/

theorem ownStays.runItem {m} (h : ownStays u s) : ownStays u (runItem m s) := by
  unfold Machine.runItem
  split
  · exact h.reachHeld
  · exact h.knotVerifiedEff
  · exact h.knotVerifiedEff
  · exact h

theorem ownStays.dropUnacked (h : ownStays u s) : ownStays u (dropUnacked s) :=
  ownStays.forEach (h.beside rfl rfl List.prefix_rfl rfl) fun _ _ _ h => h.runItem

theorem ownStays.forwardFail (h : ownStays u s) : ownStays u (forwardFail s) :=
  h.forEach fun _ _ _ h => h.onlyIf fun h => (h.endCmd.setReg (by decide)).evt (by decide)

/-- A change of the partner's unit, with what follows: the partner is where the change takes it, and ownership is as it was. -/
theorem partnerTo_kept (tgt : UState) (why : Reason) (src : Source) (seq : Nat) (claims : Bool) (s : State) :
    ownKept s (partnerTo tgt why src seq claims s) ∧ ust (partnerTo tgt why src seq claims s) uPartner = tgt := by
  obtain ⟨w, hw⟩ : ∃ w, w = changeUnit uPartner tgt why src seq s := ⟨_, rfl⟩
  have hafter : ownStays w (partnerTo tgt why src seq claims s) := by
    have h := ownStays.refl w
    unfold partnerTo
    dsimp only
    rw [← hw]
    exact .ite (.ite h.dropUnacked (.ite h h.forwardFail)) (h.onlyIf fun h => h.evt (f := Fld.PRL_EVT_PARTNER_SYNCED) (by decide))
  have hchanged : ownKept s w := hw ▸ (unitWork.refl s).changeUnit.reach.ownKept
  exact ⟨hchanged.trans hafter.kept, hafter.partner.trans (hw ▸ ust_change_same (by decide) rfl tgt why src seq s)⟩

theorem partnerFault_kept (claims : Bool) (s : State) :
    ownKept s (partnerFault claims s) ∧ ust (partnerFault claims s) uPartner = .faulted := by
  unfold partnerFault
  split
  · exact partnerTo_kept _ _ _ _ _ s
  · exact ⟨⟨rfl, fun _ _ => rfl, List.prefix_rfl⟩, by
      rw [ust, unitOf, decideEarly, Tbl.get_put_same]⟩

/-! ### Carriages and spindle (R537) -/

theorem ownStays.modCar {c f} (h : ownStays u s) : ownStays u (modCar c f s) := h.beside rfl rfl List.prefix_rfl rfl

theorem ownStays.disableSlot {k} (h : ownStays u s) : ownStays u (disableSlot k s) :=
  h.beside (disableSlot_keeps (P := ownView) (fun _ _ _ => rfl) k s) (disableSlot_keeps (P := State.regs) (fun _ _ _ => rfl) k s)
    ((disableSlot_keeps (P := State.out) (fun _ _ _ => rfl) k s).symm ▸ List.prefix_rfl)
    (disableSlot_keeps (P := (·.unt.tab)) (fun _ _ _ => rfl) k s)

theorem ownStays.engineMask {k m} (h : ownStays u s) : ownStays u (engineMask k m s) := h.beside rfl rfl List.prefix_rfl rfl

theorem ownStays.holdMasks {c} (h : ownStays u s) : ownStays u (holdMasks c s) := by
  unfold Machine.holdMasks
  extract_lets v
  have hv : ownStays u v := by
    unfold v
    split
    · exact h.engineMask
    · exact h
  split
  · exact hv.engineMask
  · exact hv

theorem ownStays.sledLoop {c on} (h : ownStays u s) : ownStays u (sledLoop c on s) := by
  unfold Machine.sledLoop
  split
  · exact .ite (h.beside rfl rfl List.prefix_rfl rfl) (ownStays.disableSlot (h.beside rfl rfl List.prefix_rfl rfl))
  · exact h

/-- The counters of a carriage lie apart from the registers of ownership. -/
theorem crgCnt_notOwn (c : Nat) {i : Nat} (hi : i < 8) : Reg.CRG_CNT + 0x200 * c + 4 * i ∉ ownRegs := by
  simp only [ownRegs, List.mem_cons, List.not_mem_nil, or_false, not_or, Reg.CRG_CNT, Reg.GLB_STATUS, Reg.IMG_STATUS, Reg.PRL_TAKEOVER_T]
  omega

theorem ownStays.crgBump {c i} (h : ownStays u s) (hi : i < 8) : ownStays u (crgBump c i s) := h.setReg (crgCnt_notOwn c hi)

theorem ownStays.startLayerJump {c l l'} (h : ownStays u s) : ownStays u (startLayerJump c l l' s) :=
  .ite h.modCar (.ite (h.modCar.crgBump (by decide)) h.modCar)

theorem ownStays.enterSeek {c k} (h : ownStays u s) : ownStays u (enterSeek c k s) :=
  h.media.holdMasks.sledLoop.modCar.startLayerJump

theorem ownStays.startHoming {c} (h : ownStays u s) : ownStays u (startHoming c s) :=
  ownStays.modCar (ownStays.beside (h.crgBump (i := 4) (by decide)) rfl rfl List.prefix_rfl rfl)

theorem ownStays.seekCheck {c} (h : ownStays u s) : ownStays u (seekCheck c s) := by
  unfold Machine.seekCheck
  extract_lets m
  split
  · exact h
  · exact .ite h.enterSeek (h.onlyIf (·.startHoming))

theorem ownStays.seekEff {c lf turn} (h : ownStays u s) : ownStays u (seekEff c lf turn s) := by
  unfold Machine.seekEff
  refine .ite h ?_
  extract_lets k m
  split
  · exact h
  · exact h.enterSeek
  · exact h.enterSeek
  · exact h.enterSeek
  · exact h.enterSeek
  · exact h.modCar.seekCheck

theorem ownStays.takeCarriage {c} (h : ownStays u s) : ownStays u (takeCarriage c s) := by
  unfold Machine.takeCarriage
  split
  · exact h
  · next k _ =>
    extract_lets v pins w
    have hw : ownStays u w := ownStays.beside (s := v) h.modCar rfl rfl List.prefix_rfl rfl
    exact hw.onlyIf (·.seekEff)

theorem lt_of_boundCars {c : Nat} (h : c ∈ boundCars s) : c < 4 := by
  have hmem : c ∈ [0, 1, 2, 3] := (List.mem_filter.1 h).1
  simp only [List.mem_cons, List.not_mem_nil, or_false] at hmem
  omega

theorem ownStays.takeStarting (h : ownStays u s) : ownStays u (takeStarting s) := by
  unfold Machine.takeStarting
  extract_lets start v
  have hstart {w : Nat} (hw : w ≠ uPartner) {s : State} (h : ownStays u s) : ownStays u (start w s) := .ite h (h.change hw)
  refine (hstart (by decide) h).forEach fun c hc s h => ?_
  have hlt := lt_of_boundCars hc
  refine hstart (by unfold uCar uPartner; omega) (h.forEach fun g _ _ h => h.onlyIf fun h => h.change (by unfold uStrand uPartner; omega))

/-! ### Lost lines, skeins and knots -/

theorem ownStays.fatalHeld {vol seq tags} (h : ownStays u s) : ownStays u (fatalHeld vol seq tags s) := by
  have hdiscarded : ownStays u (discardHeld vol seq tags s) := by
    unfold discardHeld
    extract_lets lost ids seqs hit v w media x
    have hv : ownStays u v := h.forEach fun _ _ _ h => h.onlyIf (·.endCmd)
    have hw : ownStays u w := hv.forEach fun _ _ _ h => h.dropWrite
    exact ownStays.modVol (s := x) hw.media
  exact (hdiscarded.change (by unfold uVol uPartner; omega)).evt (by decide)

theorem ownStays.fatalMap {vol} (h : ownStays u s) : ownStays u (fatalMap vol s) :=
  ownStays.media (h.change (by unfold uVol uPartner; omega))

theorem ownStays.fatalReplay {entries skeins} (h : ownStays u s) : ownStays u (fatalReplay entries skeins s) :=
  ownStays.media (h.forEach fun _ _ _ h => h.modVol)

theorem ownStays.takeLost (h : ownStays u s) : ownStays u (takeLost s) :=
  ownStays.forEach (h.beside rfl rfl List.prefix_rfl rfl) fun _ _ _ h => .ite h.fatalHeld (.ite h.fatalMap (h.onlyIf (·.fatalReplay)))

theorem ownStays.takeSkeins (h : ownStays u s) : ownStays u (takeSkeins s) := h.media

theorem ownStays.requeueHanks (h : ownStays u s) : ownStays u (requeueHanks s) := h.forEach fun _ _ _ h => h.media

theorem ownStays.formKnotSkein {ready} (h : ownStays u s) : ownStays u (formKnotSkein ready s) := by
  unfold Machine.formKnotSkein
  refine ownStays.sealSkein (ownStays.forEach (h.media.media) fun _ _ _ h => ?_)
  split
  · exact h.media.media.modVol.mirror
  · exact h

theorem ownStays.takeKnots (h : ownStays u s) : ownStays u (takeKnots s) := .ite h h.formKnotSkein

/-! ### Journaled and forwarded commands (Table 18-4) -/

theorem ownStays.rerun {k c} (h : ownStays u s) : ownStays u (rerun k c s) := by
  unfold Machine.rerun
  extract_lets v
  have hv : ownStays u v := h.modCmd
  split
  · exact hv.endCmd
  · exact hv.accept (acceptWork_enterWaiting _ _ _ _)

theorem ownStays.takeOwn {e k c} (h : ownStays u s) : ownStays u (takeOwn e k c s) := by
  unfold Machine.takeOwn
  extract_lets op
  split
  · exact .ite h.rerun h.modCmd.endCmd
  · exact .ite (.ite h.modCmd.modCmd h.modCmd.endCmd) (.ite (ownStays.rerun h.media) (.ite h.modCmd
      (.ite (.ite h.modCmd.endCmd (h.modCmd.beside rfl rfl List.prefix_rfl rfl)) h.rerun)))

theorem ownStays.takeEntry {e} (h : ownStays u s) : ownStays u (takeEntry e s) := by
  unfold Machine.takeEntry
  refine .ite ?_ (.ite h.media (h.onlyIf (·.beside rfl rfl List.prefix_rfl rfl)))
  split
  · exact h.takeOwn
  · exact h

theorem ownStays.takeUnjournaled {k} (h : ownStays u s) : ownStays u (takeUnjournaled k s) := by
  unfold Machine.takeUnjournaled
  split
  · exact h
  · refine .ite h ?_
    extract_lets seq v w
    have hw : ownStays u w := ((h.set64 (by decide) (by decide)).setReg (by decide)).modCmd
    split
    · exact .ite (hw.accept (acceptWork_checkRest _ _ _)) hw.endCmd
    · exact hw.accept (acceptWork_checkRest _ _ _)

theorem ownStays.policyReq {v code} (h : ownStays u s) : ownStays u (policyReq v code s) := h.beside rfl rfl List.prefix_rfl rfl

theorem ownStays.clearJournal (h : ownStays u s) : ownStays u (modPair (fun p => { p with journal := [], fwd := [] }) s) :=
  h.beside rfl rfl List.prefix_rfl rfl

/-- A takeover leaves ownership as the claim left it; it ends a copy that was under way. -/
theorem takeover_kept (s : State) :
    ownStays (modPair (fun p => { p with resumed := true, unacked := [], syncing := false }) s) (takeover s) := by
  unfold takeover
  extract_lets s₁ s₂ s₃ s₄ s₅ s₆ s₇ js ts s₈ s₉ s₁₀ s₁₁
  have h₃ : ownStays s₁ s₃ := (ownStays.refl s₁).takeStarting.forEach fun _ _ _ h => h.takeCarriage
  have h₄ : ownStays s₁ s₄ := h₃.modDisc
  have h₅ : ownStays s₁ s₅ := h₄.set64 (by decide) (by decide)
  have h₇ : ownStays s₁ s₇ := h₅.takeSkeins.takeLost
  have h₈ : ownStays s₁ s₈ := h₇.clearJournal.forEach fun _ _ _ h => h.takeEntry
  have h₉ : ownStays s₁ s₉ := h₈.forEach fun _ _ _ h => h.takeUnjournaled
  have h₁₀ : ownStays s₁ s₁₀ := h₉.requeueHanks.takeKnots.work (commandWork.refl _).formAll.settle
  have h₁₁ : ownStays s₁ s₁₁ := h₁₀.onlyIf (·.policyReq)
  exact h₁₁.onlyIf (·.forEach fun _ _ _ h => h.policyReq)

end Sys2Proof.Proofs
end

section
/-! Losing the partner, claiming, taking over and handing over (R526 to R529, R533, R537, R538, R540). -/

namespace Sys2Proof.Proofs

open Sys2Proof Sys2Proof.Machine Sys2Proof.Safety

variable {s t u : State}

/-! ### The end of a command and the pair's pins -/

theorem finish_pairPins (s t : State) : (finish s t).pins.ownN = t.pins.ownN ∧ (finish s t).pins.peerReset = t.pins.peerReset := by
  unfold finish outputStage
  split
  · exact ⟨rfl, rfl⟩
  · split
    · exact ⟨rfl, rfl⟩
    · exact ⟨rfl, rfl⟩

theorem finish_ownN (s t : State) : (finish s t).pins.ownN = t.pins.ownN := (finish_pairPins s t).1

theorem finish_peerReset (s t : State) : (finish s t).pins.peerReset = t.pins.peerReset := (finish_pairPins s t).2

theorem isOwner_finish (s t : State) : isOwner (finish s t) = isOwner t := flag_finish s t _

/-- Outputs released before the end of a command are so after it. -/
theorem released_finish (s : State) (h : released t.pins) : released (finish s t).pins := by
  unfold finish outputStage
  split
  · exact released_releaseOutputs _
  · split
    · obtain ⟨hdriven, hspn, -, -, hdac, hsled⟩ := h
      exact ⟨hdriven, hspn, by simp, by simp, hdac, hsled⟩
    · exact h

/-! ### PARTNER_LOST (R526, R533) -/

theorem prlEvt_stays (f : Fld) (hf : f.off = Reg.PRL_EVT) (s : State) : ownStays s (prlEvt f s) :=
  (ownStays.refl s).evt (by rw [hf]; decide)

theorem flag_prlEvt {f : Fld} (hoff : f.off = Reg.PRL_EVT) (hbit : f.lo = f.hi) (h32 : f.hi < 32) (s : State) : flag (prlEvt f s) f = true :=
  flag_evt_same (by rw [hoff]; decide) hbit h32 _ _ _

/-- The partner lost, as the ownership state has it. -/
def lossTaken (s : State) : State :=
  match s.pair.own with
  | .follower => if (ust s uPartner).serves then partnerFault true (beginClaim .loss s) else partnerFault false s
  | .owner => partnerFault false (modPair (fun p => { p with settling := true, syncing := false }) s)
  | _ => partnerFault false s

/-- The state in which the partner's silence is noted. -/
def lossNoted (s : State) : State := modPair (fun p => { p with lost := true, lossAt := s.pwr.time }) s

theorem partnerLostEff_eq (hen : pairEn s = true) (hstage : 6 ≤ stage s) (hhalt : halted s = false) (hever : s.pair.hbEver = true)
    (hlost : s.pair.lost = false) (hsusp : s.pair.suspended = false) :
    partnerLostEff s = prlEvt Fld.PRL_EVT_PARTNER_LOST (lossTaken (lossNoted s)) := by
  unfold partnerLostEff
  rw [if_neg (by simp [hen, hhalt, hever, hlost, hsusp]; omega)]
  rfl

/-- Whatever a loss begins, the partner is FAULTED and the loss stays noted. -/
theorem lossTaken_faulted (s : State) :
    (lossTaken s).pair.lost = s.pair.lost ∧ (lossTaken s).pair.lossAt = s.pair.lossAt ∧ ust (lossTaken s) uPartner = .faulted := by
  have hfault (claims : Bool) {w : State} (hw : w.pair.lost = s.pair.lost ∧ w.pair.lossAt = s.pair.lossAt) :
      (partnerFault claims w).pair.lost = s.pair.lost ∧ (partnerFault claims w).pair.lossAt = s.pair.lossAt ∧
        ust (partnerFault claims w) uPartner = .faulted := by
    obtain ⟨hkept, hfaulted⟩ := partnerFault_kept claims w
    exact ⟨hkept.lost.1.trans hw.1, hkept.lost.2.trans hw.2, hfaulted⟩
  unfold lossTaken
  split
  · split
    · exact hfault _ ⟨rfl, rfl⟩
    · exact hfault _ ⟨rfl, rfl⟩
  · exact hfault _ ⟨rfl, rfl⟩
  · exact hfault _ ⟨rfl, rfl⟩

theorem lossTaken_follower (hown : s.pair.own = .follower) (hserves : (ust s uPartner).serves = true) :
    lossTaken s = partnerFault true (beginClaim .loss s) := by
  unfold lossTaken
  rw [hown]
  exact if_pos hserves

theorem lossTaken_owner (hown : s.pair.own = .owner) :
    lossTaken s = partnerFault false (modPair (fun p => { p with settling := true, syncing := false }) s) := by
  unfold lossTaken
  rw [hown]

theorem completes_partnerLost (hen : pairEn s = true) (hstage : 6 ≤ stage s) (hhalt : halted s = false) (hever : s.pair.hbEver = true)
    (hlost : s.pair.lost = false) (hsusp : s.pair.suspended = false) :
    completes .partnerLost s (fun t => t.pair.lost = true ∧ t.pair.lossAt = s.pwr.time ∧ ust t uPartner = .faulted ∧
      flag t Fld.PRL_EVT_PARTNER_LOST = true ∧
      (s.pair.own = .follower → (ust s uPartner).serves = true → t.pair.own = .claiming ∧ t.pair.claimWhy = .loss ∧
        t.pins.peerReset = true ∧ .peerReset true ∈ t.out) ∧
      (s.pair.own = .owner → t.pair.settling = true ∧ t.pair.syncing = false ∧ t.pair.own = .owner)) := by
  have heff := partnerLostEff_eq hen hstage hhalt hever hlost hsusp
  have hevt := prlEvt_stays Fld.PRL_EVT_PARTNER_LOST rfl (lossTaken (lossNoted s))
  obtain ⟨hnoted, hat, hfaulted⟩ := lossTaken_faulted (lossNoted s)
  refine completes_of_done (congrArg (done s) heff) ⟨?_, ?_, ?_, ?_, fun hown hserves => ?_, fun hown => ?_⟩
  · rw [finish_pair, hevt.kept.lost.1, hnoted]
    rfl
  · rw [finish_pair, hevt.kept.lost.2, hat]
    rfl
  · rw [ust_finish, hevt.partner, hfaulted]
  · rw [flag_finish]
    exact flag_prlEvt rfl rfl (by decide) _
  · have hclaims := (partnerFault_kept true (beginClaim .loss (lossNoted s))).1
    rw [← lossTaken_follower (s := lossNoted s) hown hserves] at hclaims
    have hafter := hclaims.trans hevt.kept
    rw [finish_pair, finish_peerReset, finish_out]
    exact ⟨hafter.own, hafter.claimWhy, hafter.peerReset, hafter.out.subset (List.mem_append_right _ (List.mem_singleton.2 rfl))⟩
  · have howner := (partnerFault_kept false (modPair (fun p => { p with settling := true, syncing := false }) (lossNoted s))).1
    rw [← lossTaken_owner (s := lossNoted s) hown] at howner
    have hafter := howner.trans hevt.kept
    obtain ⟨hsettling, hsyncing, -⟩ := hafter.course
    rw [finish_pair]
    exact ⟨hsettling, hsyncing, hafter.own.trans hown⟩

/-! ### Claims at start-up (R527, R528) -/

theorem completes_bootWaitExpiry (hown : s.pair.own = .follower) (hrole : getF s Fld.GLB_STRAPS_PAIR_ROLE = 1) (hstage : 6 ≤ stage s)
    (hnet : s.pins.ownN = false) (hever : s.pair.hbEver = false) (hhello : s.pair.hello = none) :
    completes (.bootWaitExpiry true) s (fun t => t.pair.own = .claiming ∧ t.pair.claimWhy = .boot ∧
      t.pins.peerReset = true ∧ t.out = s.out ++ [.peerReset true]) := by
  have hgo : ((sampleNet true s).pair.own = .follower && getF (sampleNet true s) Fld.GLB_STRAPS_PAIR_ROLE = 1 &&
      6 ≤ stage (sampleNet true s) && (sampleNet true s).pair.ownNet &&
      !(sampleNet true s).pair.hbEver && !roleClash (sampleNet true s)) = true := by
    have hrole' : getF (sampleNet true s) Fld.GLB_STRAPS_PAIR_ROLE = 1 := hrole
    have hstage' : 6 ≤ stage (sampleNet true s) := hstage
    simp [sampleNet, hown, hnet, hever, roleClash, hhello] at hrole' hstage' ⊢
    exact ⟨hrole', hstage'⟩
  refine completes_of_done (congrArg (done s) (if_pos hgo)) ⟨?_, ?_, ?_, ?_⟩
  · rw [finish_pair]
    rfl
  · rw [finish_pair]
    rfl
  · rw [finish_peerReset]
    rfl
  · rw [finish_out]
    rfl

/-- This device is the owner, and drives PAIR_OWN_N where the deck is a pair. -/
structure owns (s : State) : Prop where
  own : s.pair.own = .owner
  shown : isOwner s = true
  net : s.pins.ownN = pairEn s

theorem pairEn_setOwner (s : State) : pairEn (takeOwnership s) = pairEn s := pairEn_of_getReg (getReg_setReg_ne (by decide) _ _)

theorem owns_takeOwnership (s : State) : owns (takeOwnership s) :=
  ⟨rfl, by rw [isOwner, flag, takeOwnership, getF_setF_one rfl (by decide)]; rfl, (pairEn_setOwner s).symm⟩

theorem takeOwnership_takeover (s : State) : getReg (takeOwnership s) Reg.PRL_TAKEOVER_T = getReg s Reg.PRL_TAKEOVER_T :=
  getReg_setReg_ne (by decide) _ _

theorem driveOutputs_stays (s : State) : ownStays s (driveOutputs s) := (ownStays.refl s).beside rfl rfl List.prefix_rfl rfl

theorem ownStays.policyStarts (h : ownStays u s) : ownStays u (policyStarts s) :=
  h.onlyIf fun h => .ite h.policyReq (h.policyReq.forEach fun _ _ _ h => h.policyReq)

theorem ownStays.armLoops {i} (h : ownStays u s) : ownStays u (armLoops i s) :=
  h.forEach fun _ _ _ h => h.onlyIf fun h => h.beside rfl rfl List.prefix_rfl rfl

theorem becomeOwner_stays (s : State) : ownStays (takeOwnership s) (becomeOwner s) := by
  unfold becomeOwner
  refine .ite (.refl _) (ownStays.policyStarts ?_)
  split
  · exact (driveOutputs_stays _).armLoops
  · exact driveOutputs_stays _

theorem completes_ownerLinkWaitExpiry (hen : pairEn s = true) (hown : s.pair.own = .wait) (hstage : 6 ≤ stage s)
    (hrole : getF s Fld.GLB_STRAPS_PAIR_ROLE = 0) (hnet : s.pins.ownN = false) (hlink : s.pair.linkUp = false) (hhello : s.pair.hello = none) :
    completes (.ownerLinkWaitExpiry true) s (fun t => t.pair.own = .owner ∧ isOwner t = true ∧ t.pins.ownN = true) := by
  have hgo : (pairEn (sampleNet true s) && (sampleNet true s).pair.own = .wait && 6 ≤ stage (sampleNet true s) &&
      getF (sampleNet true s) Fld.GLB_STRAPS_PAIR_ROLE = 0 && (sampleNet true s).pair.ownNet && !(sampleNet true s).pair.linkUp &&
      !roleClash (sampleNet true s)) = true := by
    have hen' : pairEn (sampleNet true s) = true := hen
    have hrole' : getF (sampleNet true s) Fld.GLB_STRAPS_PAIR_ROLE = 0 := hrole
    have hstage' : 6 ≤ stage (sampleNet true s) := hstage
    simp [sampleNet, hown, hnet, hlink, roleClash, hhello] at hen' hrole' hstage' ⊢
    exact ⟨⟨hen', hstage'⟩, hrole'⟩
  have howns := owns_takeOwnership (sampleNet true s)
  have hstays := (becomeOwner_stays (sampleNet true s)).kept
  refine completes_of_done (congrArg (done s) (if_pos hgo)) ⟨?_, ?_, ?_⟩
  · rw [finish_pair, hstays.own, howns.own]
  · rw [isOwner_finish, hstays.isOwner, howns.shown]
  · rw [finish_ownN, hstays.ownN, howns.net, pairEn_setOwner]
    exact hen

/-! ### The net is high (R528, R529, R537) -/

/-- The takeover time is shown. -/
def timed (gap outUs : Nat) (s : State) : State := setReg Reg.PRL_TAKEOVER_T (BitVec.ofNat 32 (gap * 65536 + min 65535 outUs)) s

theorem takeover_timed (gap outUs : Nat) (s : State) :
    getReg (takeOwnership (timed gap outUs s)) Reg.PRL_TAKEOVER_T = BitVec.ofNat 32 (gap * 65536 + min 65535 outUs) :=
  (takeOwnership_takeover _).trans (getReg_setReg_same _ _ _)

section
variable {outUs : Nat} (hown : s.pair.own = .claiming) (hout : outUs < 0x10000)
include hown hout

theorem completes_ownNetHigh_boot (hwhy : s.pair.claimWhy = .boot) :
    completes (.ownNetHigh true outUs) s (fun t => t.pair.own = .owner ∧ isOwner t = true ∧
      getReg t Reg.PRL_TAKEOVER_T = BitVec.ofNat 32 outUs) := by
  have heff : ownNetHighEff true outUs s = becomeOwner (timed 0 outUs s) := by
    unfold ownNetHighEff
    rw [if_neg (by simp [hown]), hwhy]
    rfl
  have howns := owns_takeOwnership (timed 0 outUs s)
  have hstays := (becomeOwner_stays (timed 0 outUs s)).kept
  refine completes_of_done (congrArg (done s) heff) ⟨?_, ?_, ?_⟩
  · rw [finish_pair, hstays.own, howns.own]
  · rw [isOwner_finish, hstays.isOwner, howns.shown]
  · rw [getReg_finish, hstays.regs _ (by decide), takeover_timed, Nat.zero_mul, Nat.zero_add, Nat.min_eq_right (by omega)]

/-- A takeover, driven outputs and all. -/
theorem completes_ownNetHigh_loss (hwhy : s.pair.claimWhy = .loss) :
    completes (.ownNetHigh true outUs) s (fun t => t.pair.own = .owner ∧ isOwner t = true ∧ flag t Fld.PRL_EVT_TAKEOVER = true ∧
      getReg t Reg.PRL_TAKEOVER_T = BitVec.ofNat 32 (min 65535 ((s.pwr.time - s.pair.lossAt) / 1000) * 65536 + outUs)) := by
  obtain ⟨gap, hgap⟩ : ∃ gap, gap = min 65535 ((s.pwr.time - s.pair.lossAt) / 1000) := ⟨_, rfl⟩
  obtain ⟨w, hw⟩ : ∃ w, w = driveOutputs (takeOwnership (timed gap outUs s)) := ⟨_, rfl⟩
  have heff : ownNetHighEff true outUs s =
      prlEvtWith Fld.PRL_EVT_TAKEOVER [⟨2, gap⟩, ⟨2, min 65535 outUs⟩] (bump Reg.PRL_CNT 5 (takeover w)) := by
    unfold ownNetHighEff
    rw [if_neg (by simp [hown]), hwhy, hw, hgap]
    rfl
  have howns := owns_takeOwnership (timed gap outUs s)
  have hdriven : ownKept (takeOwnership (timed gap outUs s)) w := hw ▸ (driveOutputs_stays _).kept
  obtain ⟨v, hv⟩ : ∃ v, v = modPair (fun p => { p with resumed := true, unacked := [], syncing := false }) w := ⟨_, rfl⟩
  have htaken : ownStays v (takeover w) := hv ▸ takeover_kept w
  have hafter : ownKept v (prlEvtWith Fld.PRL_EVT_TAKEOVER [⟨2, gap⟩, ⟨2, min 65535 outUs⟩] (bump Reg.PRL_CNT 5 (takeover w))) :=
    ((htaken.setReg (by decide)).evt (f := Fld.PRL_EVT_TAKEOVER) (by decide)).kept
  have hbegun : v.pair.own = w.pair.own ∧ v.regs = w.regs := by
    rw [hv]
    exact ⟨rfl, rfl⟩
  obtain ⟨hbegunOwn, hbegunRegs⟩ := hbegun
  refine completes_of_done (congrArg (done s) heff) ⟨?_, ?_, ?_, ?_⟩
  · rw [finish_pair, hafter.own, hbegunOwn, hdriven.own, howns.own]
  · rw [isOwner_finish, hafter.isOwner, isOwner, flag_congr hbegunRegs, ← isOwner, hdriven.isOwner, howns.shown]
  · rw [flag_finish]
    exact flag_evt_same (by decide) rfl (by decide) _ _ _
  · rw [getReg_finish, hafter.regs _ (by decide), getReg_congr hbegunRegs, hdriven.regs _ (by decide), takeover_timed,
      Nat.min_eq_right (show outUs ≤ 65535 by omega), hgap]

end

/-- A handover goes on quiesced. -/
theorem completes_ownNetHigh_handover {outUs : Nat} (hown : s.pair.own = .claiming) (late : Bool) (hwhy : s.pair.claimWhy = .handover) :
    completes (.ownNetHigh late outUs) s (fun t => t.pair.own = .owner ∧ isOwner t = true ∧ getF t Fld.IMG_STATUS_QSTATE = 2) := by
  obtain ⟨v, hv⟩ : ∃ v, v = takeOwnership (timed 0 outUs s) := ⟨_, rfl⟩
  obtain ⟨w, hw⟩ : ∃ w, w = setF Fld.IMG_STATUS_QSTATE 2 (driveOutputs v) := ⟨_, rfl⟩
  have hrest : ownStays w (ownNetHighEff late outUs s) := by
    unfold ownNetHighEff
    rw [if_neg (by simp [hown, hwhy]), hwhy]
    extract_lets why gap out s₁ s₂ lost s₄ s₅ s₆ s₇
    have h₄ : ownStays w s₄ := by
      rw [hw, hv]
      exact (ownStays.refl _).beside rfl rfl List.prefix_rfl rfl
    have h₆ : ownStays w s₆ := .ite h₄.modDisc (h₄.modDisc.change (by decide))
    have h₇ : ownStays w s₇ := h₆.forEach fun _ _ _ h => by
      split
      · exact h.modCar
      · exact h
    have hpolicy : ownStays w (if s₇.pwr.policyRunning then policyReq uSpindle 0x03 s₇ else s₇) := h₇.onlyIf (·.policyReq)
    exact hpolicy
  have howns : owns v := hv ▸ owns_takeOwnership _
  have hdriven := (driveOutputs_stays v).kept
  refine completes_of_done (t := ownNetHighEff late outUs s) rfl ⟨?_, ?_, ?_⟩
  · rw [finish_pair, hrest.kept.own, hw]
    exact hdriven.own.trans howns.own
  · rw [isOwner_finish, hrest.kept.isOwner, hw, isOwner, flag_setF_ne (by decide) (.inl (by decide)), ← isOwner, hdriven.isOwner, howns.shown]
  · rw [getF_finish, getF_of_getReg (hrest.kept.regs Reg.IMG_STATUS (by decide)), hw, getF_setF_same _ _ _ (by decide) (by decide)]
    rfl

/-! ### A claim that fails (R528) -/

theorem completes_claimTimeout (hown : s.pair.own = .claiming) : completes .claimTimeout s (fun t => t.pair.own = .follower ∧
    t.pins.peerReset = false ∧ ust t uPartner = .faulted ∧ flag t Fld.PRL_EVT_CLAIM_FAIL = true) := by
  obtain ⟨v, hv⟩ : ∃ v, v = modPair (fun p => { p with own := .follower, ownNet := false })
    (if s.pins.peerReset then drivePeerReset false s else s) := ⟨_, rfl⟩
  have heff : claimTimeoutEff s = prlEvt Fld.PRL_EVT_CLAIM_FAIL (forwardFail (partnerFault false v)) := by
    unfold claimTimeoutEff
    rw [if_neg (by simp [hown]), hv]
  have hreleased : v.pair.own = .follower ∧ v.pins.peerReset = false := by
    rw [hv]
    refine ⟨rfl, ?_⟩
    show (if s.pins.peerReset = true then drivePeerReset false s else s).pins.peerReset = false
    split
    · rfl
    · next hlow => exact Bool.eq_false_of_not_eq_true hlow
  obtain ⟨hfault, hfaulted⟩ := partnerFault_kept false v
  have hrest := (ownStays.refl (partnerFault false v)).forwardFail.trans (prlEvt_stays Fld.PRL_EVT_CLAIM_FAIL rfl _)
  have hkept := hfault.trans hrest.kept
  refine completes_of_done (congrArg (done s) heff) ⟨?_, ?_, ?_, ?_⟩
  · rw [finish_pair, hkept.own, hreleased.1]
  · rw [finish_peerReset, hkept.peerReset, hreleased.2]
  · rw [ust_finish, hrest.partner, hfaulted]
  · rw [flag_finish]
    exact flag_prlEvt rfl rfl (by decide) _

/-! ### PEER_RESET_N (R528, R540) -/

theorem completes_peerResetRelease (hown : s.pair.own = .owner) (hreset : s.pins.peerReset = true) (hpulse : s.pair.pulse = false) :
    completes .peerResetRelease s (fun t => t.pins.peerReset = false ∧ t.out = s.out ++ [.peerReset false] ∧ t.pair = s.pair) := by
  have heff : peerReleaseEff s = drivePeerReset false s := if_pos (by simp [hown, hreset, hpulse])
  refine completes_of_done (congrArg (done s) heff) ⟨?_, ?_, ?_⟩
  · rw [finish_peerReset]
    rfl
  · rw [finish_out]
    rfl
  · rw [finish_pair]
    rfl

theorem completes_peerReset (hserved : sideServed s Reg.PRL_CTRL = true) (hown : isOwner s = true) (hen : pairEn s = true) :
    completes (.peerReset 0x5A) s (fun t => t.pins.peerReset = true ∧ t.pair = { s.pair with pulse := true } ∧
      t.out = s.out ++ [.peerReset true]) := by
  have heff : served Reg.PRL_CTRL (peerResetEff 0x5A) s = drivePeerReset true (modPair (fun p => { p with pulse := true }) s) := by
    rw [served_open hserved]
    exact if_pos (by simp [hown, hen])
  refine completes_of_done (congrArg (done s) heff) ⟨?_, ?_, ?_⟩
  · rw [finish_peerReset]
    rfl
  · rw [finish_pair]
    rfl
  · rw [finish_out]
    rfl

theorem completes_peerResetEnd (hpulse : s.pair.pulse = true) : completes .peerResetEnd s (fun t =>
    t.pins.peerReset = false ∧ t.pair = { s.pair with pulse := false } ∧ t.out = s.out ++ [.peerReset false]) := by
  have heff : peerResetEndEff s = drivePeerReset false (modPair (fun p => { p with pulse := false }) s) := if_pos hpulse
  refine completes_of_done (congrArg (done s) heff) ⟨?_, ?_, ?_⟩
  · rw [finish_peerReset]
    rfl
  · rw [finish_pair]
    rfl
  · rw [finish_out]
    rfl

/-! ### Handing over (R529) -/

theorem completes_handover (hserved : sideServed s Reg.PRL_CTRL = true) (hown : s.pair.own = .owner) (hserves : (ust s uPartner).serves = true)
    (hq : getF s Fld.IMG_STATUS_QSTATE = 2) :
    completes (.handover 0x5A) s (fun t => t.pair.own = .handing ∧ .jokor 0x42 [] ∈ t.out ∧ released t.pins) := by
  obtain ⟨w, heff⟩ : ∃ w, served Reg.PRL_CTRL (handoverEff 0x5A) s =
      emit (.jokor 0x42 []) (releaseOutputs (modPair (fun p => { p with own := .handing }) w)) := by
    rw [served_open hserved]
    unfold handoverEff
    rw [if_pos (by simp [hown, hserves, hq])]
    exact ⟨_, rfl⟩
  refine completes_of_done (congrArg (done s) heff) ⟨?_, ?_, ?_⟩
  · rw [finish_pair]
    rfl
  · rw [finish_out]
    exact List.mem_append_right _ (List.mem_singleton.2 rfl)
  · exact released_finish s (released_releaseOutputs (modPair (fun p => { p with own := .handing }) w))

theorem completes_handoverMessage (hown : s.pair.own = .follower) (hserves : (ust s uPartner).serves = true) :
    completes .handoverMessage s (fun t => t.pair.own = .claiming ∧ t.pair.claimWhy = .handover ∧
      t.out = s.out ++ [.jokor 0x43 []] ∧ t.pins.peerReset = s.pins.peerReset) := by
  have heff : handoverMessageEff s = emit (.jokor 0x43 []) (modPair (fun p => { p with own := .claiming, claimWhy := .handover }) s) :=
    if_pos (by simp [hown, hserves])
  refine completes_of_done (congrArg (done s) heff) ⟨?_, ?_, ?_, ?_⟩
  · rw [finish_pair]
    rfl
  · rw [finish_pair]
    rfl
  · rw [finish_out]
    rfl
  · rw [finish_peerReset]
    rfl

theorem completes_handoverAck (hown : s.pair.own = .handing) : completes .handoverAck s (fun t =>
    t.pair.own = .follower ∧ isOwner t = false ∧
    t.pins.ownN = false ∧ getF t Fld.IMG_STATUS_QSTATE = 0 ∧ flag t Fld.PRL_EVT_HANDOVER_DONE = true) := by
  obtain ⟨v, hv⟩ : ∃ v, v = modPair (fun p => { p with own := .follower, ownNet := true, unacked := [] })
    { s with pins := { s.pins with ownN := false } } := ⟨_, rfl⟩
  obtain ⟨w, hw⟩ : ∃ w, w = setF Fld.IMG_STATUS_QSTATE 0 (setF Fld.GLB_STATUS_OWNER 0 v) := ⟨_, rfl⟩
  have heff : handoverAckEff s = prlEvt Fld.PRL_EVT_HANDOVER_DONE w := by
    unfold handoverAckEff
    rw [if_neg (by simp [hown]), hw, hv]
  have hkept := (prlEvt_stays Fld.PRL_EVT_HANDOVER_DONE rfl w).kept
  have hset : w.pair.own = .follower ∧ w.pins.ownN = false := by
    rw [hw, hv]
    exact ⟨rfl, rfl⟩
  refine completes_of_done (congrArg (done s) heff) ⟨?_, ?_, ?_, ?_, ?_⟩
  · rw [finish_pair, hkept.own, hset.1]
  · rw [isOwner_finish, hkept.isOwner, hw, isOwner, flag_setF_ne (by decide) (.inl (by decide)), flag,
      getF_setF_same _ _ _ (by decide) (by decide)]
    rfl
  · rw [finish_ownN, hkept.ownN, hset.2]
  · rw [getF_finish, getF_of_getReg (hkept.regs Reg.IMG_STATUS (by decide)), hw, getF_setF_same _ _ _ (by decide) (by decide)]
    rfl
  · rw [flag_finish]
    exact flag_prlEvt rfl rfl (by decide) _

theorem completes_handoverTimeout (hown : s.pair.own = .handing) : completes .handoverTimeout s (fun t => t.pair.own = .owner ∧
    flag t Fld.PRL_EVT_CLAIM_FAIL = true ∧ t.unt.waiting = s.unt.waiting ++
      [{ kind := .request, unit := uSpindle, code := 0x03, epoch := (unitOf s uSpindle).epoch.toNat, sender := .policy }]) := by
  obtain ⟨w, hw⟩ : ∃ w, w = policyReq uSpindle 0x03 (driveOutputs (modPair (fun p => { p with own := .owner }) s)) := ⟨_, rfl⟩
  have heff : handoverTimeoutEff s = prlEvt Fld.PRL_EVT_CLAIM_FAIL w := by
    unfold handoverTimeoutEff
    rw [if_neg (by simp [hown]), hw]
  have hkept := (prlEvt_stays Fld.PRL_EVT_CLAIM_FAIL rfl w).kept
  refine completes_of_done (congrArg (done s) heff) ⟨?_, ?_, ?_⟩
  · rw [finish_pair, hkept.own, hw]
    rfl
  · rw [flag_finish]
    exact flag_prlEvt rfl rfl (by decide) _
  · rw [finish_unt, prlEvt, prlEvtWith, evt_unt, hw]
    rfl

/-! ### The settle, the detach and the end of the copy (R527, R533, R538) -/

/-- The state in which the owner runs alone. -/
def settled (s : State) : State := modPair (fun p => { p with settling := false }) s

theorem settleEndEff_eq (hsettling : s.pair.settling = true) :
    settleEndEff s = forEach (fun e s => if e.2.cmd.opcode = opWrite then reachHeld e.1 s else s) (cmds s) (settled s) := by
  unfold settleEndEff
  rw [if_neg (by simp [hsettling])]
  rfl

theorem completes_pairSettleEnd (hsettling : s.pair.settling = true) : completes .pairSettleEnd s (fun t => t.pair.settling = false) := by
  refine completes_of_done (congrArg (done s) (settleEndEff_eq hsettling)) ?_
  have hstays := (ownStays.refl (settled s)).forEach (f := fun e s => if e.2.cmd.opcode = opWrite then reachHeld e.1 s else s)
    (l := cmds s) fun _ _ _ h => h.onlyIf (·.reachHeld)
  rw [finish_pair, hstays.kept.course.1]
  rfl

theorem completes_pairSettleEnd_write {n : Nat} {c : Cmd} (hsettling : s.pair.settling = true) (hc : onTag s n c) (hone : cmds s = [(n, c)])
    (hop : c.cmd.opcode = opWrite) (hrun : c.state = .running) (hpoint : c.heldPoint = false) (hheld : c.held ≠ [])
    (hack : acked s (.held n) = true) (hfua : asFua s c = false) : completes .pairSettleEnd s (fun t => endedAs t n .success 0) := by
  have heff : settleEndEff s = reachHeld n (settled s) := by
    rw [settleEndEff_eq hsettling, hone]
    exact if_pos hop
  obtain ⟨d, hd, hends⟩ := (reachHeld_ends (s := settled s) hc hrun hpoint hheld rfl hack hfua).1
  exact completes_of_done (congrArg (done s) heff) ⟨d, by rw [cmdOf, finish_host]; exact hd, hends⟩

theorem completes_partnerDetach (hen : pairEn s = true) (hown : isOwner s = false) :
    completes .partnerDetach s (fun t => ust t uPartner = .offline ∧ t.pair.detached = true ∧ t.pair.syncing = false) := by
  obtain ⟨v, hv⟩ : ∃ v, v = modPair (fun p => { p with detached := true, syncing := false }) s := ⟨_, rfl⟩
  have heff : detachEff s = partnerTo .offline .request .partner 0 false v := by
    unfold detachEff
    rw [if_neg (by simp [hen, hown]), hv]
  obtain ⟨hkept, hoffline⟩ := partnerTo_kept .offline .request .partner 0 false v
  obtain ⟨-, hsyncing, hdetached⟩ := hkept.course
  refine completes_of_done (congrArg (done s) heff) ⟨?_, ?_, ?_⟩
  · rw [ust_finish, hoffline]
  · rw [finish_pair, hdetached, hv]
    rfl
  · rw [finish_pair, hsyncing, hv]
    rfl

theorem serves_partnerGrade (s : State) : (partnerGrade s).serves = true := by
  unfold partnerGrade
  split <;> rfl

theorem completes_resyncComplete (hen : pairEn s = true) (hstart : ust s uPartner = .starting) (hsync : s.pair.syncing = true) :
    completes .resyncComplete s (fun t => ust t uPartner = (if s.pair.width = 8 then .ready else .degraded) ∧ t.pair.syncing = false ∧
      flag t Fld.PRL_EVT_PARTNER_SYNCED = true) := by
  obtain ⟨v, hv⟩ : ∃ v, v = modPair (fun p => { p with syncing := false }) s := ⟨_, rfl⟩
  have heff : resyncDoneEff s = partnerTo (partnerGrade s) .pair .internal 0 false v := by
    unfold resyncDoneEff
    rw [if_pos (by simp [hen, hstart, hsync]), hv]
  have hwas : ust v uPartner = .starting := by
    rw [hv]
    exact hstart
  have hevt : partnerTo (partnerGrade s) .pair .internal 0 false v =
      prlEvt Fld.PRL_EVT_PARTNER_SYNCED (changeUnit uPartner (partnerGrade s) .pair .internal 0 v) := by
    unfold partnerTo
    dsimp only
    rw [hwas, serves_partnerGrade]
    rfl
  obtain ⟨hkept, hgraded⟩ := partnerTo_kept (partnerGrade s) .pair .internal 0 false v
  refine completes_of_done (congrArg (done s) heff) ⟨?_, ?_, ?_⟩
  · rw [ust_finish, hgraded]
    rfl
  · rw [finish_pair, hkept.course.2.1, hv]
    rfl
  · rw [flag_finish, hevt]
    exact flag_prlEvt rfl rfl (by decide) _

/-- Settles O53: each command of ownership sets what its clause names, and what follows it (the partner's change, the steps that go
on without it, a takeover) leaves ownership as it is (ownStays). -/
theorem pairOwnership : Obligations.PairOwnership := by
  unfold Obligations.PairOwnership
  intro s
  refine ⟨completes_partnerLost, completes_bootWaitExpiry, completes_ownerLinkWaitExpiry, fun outUs hown hout => ?_, completes_claimTimeout,
    completes_peerResetRelease, completes_handover, completes_handoverMessage,
    fun hown => ⟨completes_handoverAck hown, completes_handoverTimeout hown⟩, completes_peerReset, completes_peerResetEnd,
    completes_pairSettleEnd, fun n c hsettling _ hc hone => completes_pairSettleEnd_write hsettling hc hone, completes_partnerDetach,
    completes_resyncComplete⟩
  refine ⟨completes_ownNetHigh_boot hown hout, fun hwhy => ?_, fun late => completes_ownNetHigh_handover hown late⟩
  exact completes_mono (completes_ownNetHigh_loss hown hout hwhy) fun t ⟨howner, hshown, hflag, htime⟩ =>
    ⟨howner, hshown, hflag, fun _ _ _ => htime⟩

end Sys2Proof.Proofs
end
